-- ==== Sys2Proof/Word.lean ====
section
/-! DEFINITION. Word.lean: the 32-bit word of the SC16 (system registers, Decend locals, point values) and its plainest readings. -/

namespace Sys2Proof

/-- A 32-bit word: a system register, a Decend local's value, a point's VALUE (R31, R81). -/
abbrev Word := BitVec 32

/-- An octet of a frame, a signature or a table. -/
abbrev Byte := BitVec 8

/-- The word whose bits are the residue of `n` modulo 2^32. -/
abbrev Word.ofNat (n : Nat) : Word := BitVec.ofNat 32 n

end Sys2Proof
end

