-- ==== Sys2Proof/Config.lean ====
section
/-! DEFINITION. Config.lean: what the spec leaves to the part or leaves open. Every value here is OPAQUE: no statement can rest on it. -/

namespace Sys2Proof.Config

/-- A value a rule produces and no rule fixes. `State.freeCtr` numbers the uses, so each use is a fresh one (log 4). -/
opaque freeNat : Nat → Nat

/-- Fuse, option and trim contents: the value the load gives the register field with this key (R465, log 5). -/
opaque fuseField : Nat → Nat

/-- The REAL32 word that ME writes for an exact quantity: no rule states ME's rounding (log 9). -/
opaque meReal : Rat → Word

/-- Whether ME rounds an exact quantity up, where no rule fixes the direction of rounding to a whole number of units (log 9). -/
opaque meUp : Rat → Bool

/-- Octets drawn from the entropy source of SE, or computed by a cryptographic core from the data named (log 10). -/
opaque crypto : Nat → List Nat → Nat

/-- The factory trim of a channel of the front end (07 R209, R210), with the trims loaded or not: what it makes of a sample is not stated (log 114). -/
opaque meTrim : Bool → Nat → Rat → Rat

/-- Coefficient of ME's first-order high-pass filter with its corner at 0.5 Hz, by sample rate; no rule states the digital form (07 R196, log 114). -/
opaque meHp : Nat → Rat

/-- The value a fraction of an interval after sample `j` of a channel, or before the samples held: no rule states ME's interpolation (log 114). -/
opaque meInterp : List Rat → Int → Rat → Rat

/-- Cosine and sine of an angle in turns, and the angle of a vector in degrees, as ME rounds them (log 114). -/
opaque meCos : Rat → Rat
/-- Sine of an angle in turns. -/
opaque meSin : Rat → Rat
/-- Angle in degrees of the vector of abscissa `x` and ordinate `y`, the ordinate first. -/
opaque meAtan : Rat → Rat → Rat

/-- Whether a dual-clock queue holds 16 entries rather than 8 (12 R380): which of the two is not stated (log 27). -/
opaque dcqWide : Nat → Bool

end Sys2Proof.Config
end

