-- ==== Sys2Proof/Types.lean ====
section
/-! DEFINITION. Types.lean: the plain data that commands carry and State holds: value types, qualities, requesters, detectors, frames and definitions. -/

namespace Sys2Proof.Machine

/-- A sparse table: pairs (key, entry), keys strictly rising. An unlisted key reads as the entry the table had at reset. -/
abbrev Tab (α : Type) := List (Nat × α)

/-- Who makes a register access; each has its own shadows (R538). -/
inductive Requester where
  | sv | le (e : Fin 8) | ne1 | debug
deriving DecidableEq, Repr

/-- What runs a Decend instruction: a logic engine's task, or SV running joinery (R16, R103). -/
inductive Runner where
  | task (e s : Fin 8) | joinery
deriving DecidableEq, Repr

/-- Point value types, 02 Table 4 (R35). -/
inductive VType where
  | bool | int32 | uint32 | fix16 | real32 | ticks
deriving DecidableEq, Repr

/-- Effective quality codes (R37). -/
inductive Quality where
  | good | stale | uncalibrated | absent | fault | forced
deriving DecidableEq, Repr

/-- Writer quality WQ (02 Table 1). -/
inductive Wq where
  | good | fault | absent | uncalibrated
deriving DecidableEq, Repr

/-- Writer kinds, 02 Table 2 (R32). -/
inductive WriterKind where
  | none | task | loop | meter | field | endpoint | truss | system
deriving DecidableEq, Repr

/-- Access statuses of the point table (R46). -/
inductive PtStatus where
  | ok | lost | denied | undef
deriving DecidableEq, Repr

/-- Severities of a fault entry (R480 Table 2), 0 to 3. -/
inductive Severity where
  | note | degraded | severe | critical
deriving DecidableEq, Repr

/-- The detectors of 15 Table 1 (R477). -/
inductive Detector where
  | regNone | stOutside | ptDenied | trussSelfGpa | trussAuth | scfInDoubt | scfLateReject
  | taskOverrun | taskLimit | taskCost | loopOverrun | loopSupv | loopSafe
  | mtOverrange | mtChannel | lgAudit | lgVigil | tmpSource | rtcDrift
  | macTrain | macLinkLost | macTsqOvf | macPauseWd | neEndpoint | trPoolAudit
  | canPassive | canBusoff | canReqFailed | canRxOvf | canAudit | rcEvent | mbEvent
  | memCeRate | memDue | memStuck | dramSpares | nandSpares | imageLost | fabricAudit | secureAccess
  | govAudit | clkAbandon | clkLocal | tempHot | saturated | vio33Overload | svCheck | fltStorage
deriving DecidableEq, Repr

/-- One write presented to the point table: its port, the record, the writer identity it carries (R32), the tenant context of
ports 11 and 12 (R43), and the fields it writes (02 Table 1). -/
structure PtWrite where
  port : Fin 16
  index : Nat
  kind : WriterKind := .none
  ident : Nat := 0
  ctx : Nat := 0
  value : Option Word := none
  wq : Option Wq := none
  forceValue : Option Word := none
  force : Option Bool := none
  relPend : Option Bool := none
  undeliv : Option Bool := none
  defField : Bool := false     -- writes a field that Table 1 reserves for SV at scarf commit
deriving DecidableEq, Repr

/-- What the Sill logic read for a tamper source (13 Table 6), latest first: a loop's levels on TAMPs_IN in the two halves of its samples, a switch's input
at each tick (closed is true), VSILL in mV at each tick, die temperatures in °C at intervals of 1 s, the time in µs since the previous crystal edge. -/
inductive TampRead where
  | loop (l : Fin 4) (samples : List (Bool × Bool))
  | switch (k : Fin 2) (levels : List Bool)
  | rail (mv : List (Fin 4096))
  | temp (readings : List Int)
  | crystal (us : Nat)
deriving DecidableEq, Repr

/-- What a tick shows the Sill logic: the sources whose conditions are met, and for each source, where given, what was read of it (13 R425). -/
structure TampTick where
  sources : List (Fin 9)
  reads : List TampRead := []
deriving DecidableEq, Repr

/-- The header of a PTP message that a port discards (10 R333): the port's lane, messageType, domainNumber, major version, unicastFlag. -/
structure PtpHead where
  lane : Fin 6
  message : Fin 16
  domain : Fin 256
  version : Fin 16
  unicast : Bool
deriving DecidableEq, Repr

/-- A submitted image: its octets, and SE's verdict on its signature (R74). -/
structure Image where
  bytes : List Nat
  sigOk : Bool := true
deriving DecidableEq, Repr

/-- The samples of one line cycle of a voltage set (07 R194, R205): the 24-bit codes, signed, of its voltage inputs, of the current inputs of its
circuits and of an input that a calibration measures, all of one length (a channel not listed gave code 0); the time between the two crossings
of the reference phase as interpolated between samples, where there were crossings; and for a commit tick that fell in the cycle, how many
samples came before the first one at or after it (R220). -/
structure SetCycle where
  chans : List (Fin 60 × List Int)
  measured : Option Rat := none
  splits : List (Nat × Nat) := []
deriving DecidableEq, Repr

/-- A received Truss frame's header (08 Table 1) with its lane and source address: TYPE, POOL and RSP are the row's, VERSION is 1. -/
structure TrussHdr where
  lane : Fin 2
  src : Fin 1024
  serial : BitVec 64
  session : Word
  seq : BitVec 64
  term : Fin 65536
  sa : BitVec 48 := 0
  dst : Fin 1024 := 0
  keysel : Fin 2 := 0
  conf : Bool := false
  length : Fin 1453 := 0
  dowels : Fin 65536 := 0
deriving DecidableEq, Repr

/-- What a HELLO says of its sender (08 Table 2): TR_PIN.NUMBER, the firmware version, the addresses of BB0 and BB1. -/
structure HelloBody where
  pin : Fin 512
  firmware : Word
  bb0 : BitVec 48
  bb1 : BitVec 48
deriving DecidableEq, Repr

/-- A management request carried by Truss (08 R271): the frame's header and the request identifier. -/
structure MgmtAsk where
  hdr : TrussHdr
  id : Word
deriving DecidableEq, Repr

/-- A management request with images (05 R141): by Truss, with the frame's header, or over the management UART; the request identifier. -/
structure ChangeAsk where
  via : Option TrussHdr
  id : Word
deriving DecidableEq, Repr

/-- Why a Truss frame is discarded (08 R246 to R249). -/
inductive TrussBad where
  | type | pool | tag | newSession | sequence
deriving DecidableEq, Repr

/-- An entry of a SUB frame: GPA, period, tenant, and the TYPE that the importer expects (08 R258). -/
structure SubEntry where
  gpa : Nat
  period : Nat
  tenant : Nat
  ty : VType
deriving DecidableEq, Repr

/-- An entry of a DATA section (08 R261). -/
structure DataEntry where
  index : Fin 65536
  ty : VType
  q : Quality
  value : Word
deriving DecidableEq, Repr

/-- A decision of the manager on a change of the estate (05 R155, R158): GO or CANCEL, T, and what its participants have to apply. -/
structure Decision where
  change : Word
  go : Bool
  tick : Nat := 0
  parts : List (Fin 512 × List Image) := []
deriving DecidableEq, Repr

/-- What a SYNC frame carries (08 R254): its sequence; bindings made and removed; subscriptions made (with their subscriber) and removed (GPA, subscriber);
estate changes offered, with their participants; decisions; the epoch. -/
structure SyncBody where
  seq : Nat
  bindings : List (Fin 512 × BitVec 64)
  unbound : List (Fin 512) := []
  subs : List (SubEntry × Fin 512) := []
  unsubs : List (Nat × Fin 512) := []
  offers : List (Word × List (Fin 512)) := []
  decisions : List Decision := []
  epoch : Option Nat := none
deriving DecidableEq, Repr

/-- The operation of a management request (08 R271). -/
inductive MgmtOp where
  | regRead (addr : Nat)
  | regWrite (addr : Nat) (w : Word)
  | change (images : List Image) (tick : Option (Fin 281474976710656))
  | force (index : Fin 65536) (value : Word)
  | release (index : Fin 65536)
  | taskCmd (e s : Fin 8) (op : Fin 8)
  | loopCmd (n : Fin 4096) (op : Fin 8)
  | faultRead
deriving DecidableEq, Repr

/-- Operations that ask the Draw Governor for pegs (R448 Table 5); `domain` is a domain power-up. -/
inductive GovOp where
  | nandFail | domain (d : Fin 14) | wake (d : Fin 14) | dram | frontEnd | serdes (m : Fin 6) | nand | crypto | refresh
deriving DecidableEq, Repr

/-- A frame that arrives at a MAC (09): its octets from the destination address through the FCS, a PCS, coding or alignment error, the octets of earlier
frames that still wait in the receive FIFO, and the PTP time of its delimiter at the lands. -/
structure RxFrame where
  octets : List Nat
  pcsErr : Bool := false
  waiting : Nat := 0
  sec : Nat := 0
  ns : Nat := 0
deriving DecidableEq, Repr

/-- What a network engine posts on a transmit ring (09 Table 5), with the octets it has put at BUF. -/
structure TxPost where
  buf : Fin 0x800000
  len : Fin 2048
  tsReq : Bool := false
  tagMode : Fin 4 := 0
  ptpOff : Fin 64 := 0
  ctx : Fin 64 := 0
  forModule : Bool := false
  vid : Fin 4096 := 0
  pcp : Fin 8 := 0
  frame : List Nat := []
deriving DecidableEq, Repr

/-- A client's address and UDP port: IPv6 address, or IPv4-mapped, in the upper 128 bits. -/
abbrev NetAddr := BitVec 144

/-- BACnet properties (10 R315, R316); `all`, `required` and `optional` are the specifiers of ReadPropertyMultiple. -/
inductive BacProp where
  | objectIdentifier | objectName | objectType | presentValue | statusFlags | eventState | outOfService | reliability | units | numberOfStates
  | systemStatus | vendorName | vendorIdentifier | modelName | firmwareRevision | applicationSoftwareVersion | protocolVersion
  | protocolServicesSupported | protocolObjectTypesSupported | objectList | maxApduLengthAccepted | segmentationSupported | apduTimeout
  | numberOfApduRetries | deviceAddressBinding | databaseRevision
  | all | required | optional | other (n : Nat)
deriving DecidableEq, Repr

/-- Values of BACnet properties. -/
inductive PropVal where
  | num (n : Nat) | real (w : Word) | text (t : String) | flags (l : List Bool) | objs (l : List Nat) | err (t : String)
deriving DecidableEq, Repr

/-- A value that WriteProperty carries. -/
inductive BacVal where
  | real (w : Word) | enum (n : Nat) | unsigned (n : Nat) | null | other
deriving DecidableEq, Repr

/-- Why a confirmed BACnet request is refused (10 Table 4). -/
inductive BacRefusal where
  | service | segmentation | object | property | writeDenied | dataType | range | covOnDevice | noSpace
deriving DecidableEq, Repr


/-- The first element of a Usras payload (10 R323): a float by its exact value, infinities and NaN as binary32 words. -/
inductive CborVal where
  | bool (b : Bool) | int (i : Int) | real (q : Rat) | special (w : Word)
deriving DecidableEq, Repr

/-- A CoAP payload: the array of a value and a quality code, another shape, or another Content-Format. -/
inductive CoapPayload where
  | value (v : CborVal) (q : Nat) | shape | format
deriving DecidableEq, Repr

/-- OSCORE protection of a message: the peer's Sender ID, the Partial IV, and whether its tag verifies under that peer's key (log 10). -/
structure OscMsg where
  peer : BitVec 64
  piv : Nat
  ok : Bool := true
deriving DecidableEq, Repr

/-- CoAP requests outside the profile (10 Table 6). -/
inductive CoapRefusal where
  | method | path | unauthorized | option | format | shape
deriving DecidableEq, Repr

/-- The data set of an Announce message, and its sender's port identity. -/
structure PtpAnnounce where
  priority1 : Fin 256
  clockClass : Fin 256
  accuracy : Fin 256
  variance : Fin 65536
  priority2 : Fin 256
  gm : BitVec 64
  steps : Fin 65536
  sender : BitVec 80
deriving DecidableEq, Repr

/-- Where a word of memory lies, as far as an error there acts differently (12 Table 7). Logs and trends by the position of the entry. -/
inductive MemPlace where
  | pointTable | bench | secure | packet
  | mortise (pair : Fin 64) | ledgerSlot (b : Bool) | faultEntry (k : Fin 32) | scratch
  | dramTable (e s : Fin 8) (word : Nat) | dramTrend (e s : Fin 8) (log entry : Nat) | dramLog (entry : Nat) | dramStaging | dramSupervisor | dramSpare
  | meCircuit (c : Fin 16) | meOther
deriving DecidableEq, Repr

/-- What the scrubber finds in a word: nothing, a correctable error, or a detected uncorrectable one, with the first symbol in error. -/
inductive ScrubFind where
  | clean | corrected (sym : Fin 20) | due (sym : Fin 20)
deriving DecidableEq, Repr

end Sys2Proof.Machine
end

