-- ==== Sys2Proof/Syntax.lean ====
section
/-! DEFINITION. Syntax.lean: the commands of the SC16, one constructor per row of spec/opcode_table.json, in the table's order. Operands are what the
event or command carries from outside; every range that a Fin gives is the spec's own range of that number. -/

namespace Sys2Proof

open Machine

/-- The commands and events of the table. -/
inductive Instr where
  /-- REGISTER_WRITE, R6. A write to a system register that has no row of its own takes effect according to each field's access code. Operands: a write of `w` to the register at `addr`. -/
  | registerWrite (q : Requester) (addr : Nat) (w : Word)
  /-- UNMAPPED_ACCESS, R4. An access to an address in no register reads zero, ignores the write and raises a Note fault. Operands: a read or write of an address in no register. -/
  | unmappedAccess (q : Requester) (addr : Nat) (write : Bool)
  /-- LE_GRID_LO_READ, R538. A read of LE_GRID_LO returns tick bits [31:0] and opens or refreshes the requester's shadow of bits [47:32]. -/
  | leGridLoRead (q : Requester)
  /-- LE_GRID_HI_READ, R538. A read of LE_GRID_HI returns the shadowed or live bits [47:32] and closes the requester's shadow. -/
  | leGridHiRead (q : Requester)
  /-- GRID_TICK, R109. The 250 µs grid tick advances the 48-bit tick number and releases whatever is due at that tick. -/
  | gridTick
  /-- TASK_GATHER, R113. A released task's imports are read into its input image, in the release order, without interruption. Operands: the engine gathers the first released task in the order of R113. -/
  | taskGather (e : Fin 8)
  /-- TASK_DISPATCH, R115. The core chooses the ready task with the earliest deadline and starts or resumes its run. -/
  | taskDispatch (e : Fin 8)
  /-- TASK_SCATTER, R51. After END every publication of the task is written as a writer write, in publication-list order. -/
  | taskScatter (e s : Fin 8)
  /-- STOP_SCATTER, R127. A stopping task sets its exports by STOP_MODE and writes each once as a writer write. -/
  | stopScatter (e s : Fin 8)
  /-- TASK_RUN_CMD, R126. LE_T_CMD Run puts the task in Run, subject to the mode table. -/
  | taskRunCmd (e s : Fin 8)
  /-- TASK_STOP_CMD, R126. LE_T_CMD Stop takes the task to Stop at its boundary with a stop scatter. -/
  | taskStopCmd (e s : Fin 8)
  /-- TASK_HOLD_CMD, R126. LE_T_CMD Hold halts the task at its boundary. -/
  | taskHoldCmd (e s : Fin 8)
  /-- TASK_STEP_CMD, R126. LE_T_CMD Step runs one full cycle of a held task at its next conforming tick. -/
  | taskStepCmd (e s : Fin 8)
  /-- TASK_CLEAR_STATS, R138. LE_T_CMD OP 0b111 clears MAXCOST, STICKY flags, MAX_END and RESP of the task. -/
  | taskClearStats (e s : Fin 8)
  /-- MAXCOST_CLEAR, R138. Writing 1 to LE_T_MAXCOST.CLEAR clears the largest recorded run cost. -/
  | maxcostClear (e s : Fin 8)
  /-- TASK_RESUME, R130. At the first grid tick after an engine's release from reset, SV acts on every task with RESUME = 1 by mode. Operands: SV acts on the tasks of engine `e` with RESUME = 1. -/
  | taskResume (e : Fin 8)
  /-- NOP, R87. Does nothing. -/
  | opNop (r : Runner)
  /-- MOV, R87. Copies value and quality from B to A. -/
  | opMov (r : Runner) (a b : Fin 256)
  /-- LDI, R87. Loads the immediate into A with quality GOOD. -/
  | opLdi (r : Runner) (a : Fin 256) (imm : Word)
  /-- LDK, R87. Loads a .const word into A, normalised to A's type. -/
  | opLdk (r : Runner) (a : Fin 256) (h : Fin 65536)
  /-- ITOR, R86. Converts INT32 to REAL32. -/
  | opItor (r : Runner) (a b : Fin 256)
  /-- UTOR, R86. Converts UINT32 or TICKS to REAL32. -/
  | opUtor (r : Runner) (a b : Fin 256)
  /-- RTOI, R86. Converts REAL32 to INT32 with saturation. -/
  | opRtoi (r : Runner) (a b : Fin 256)
  /-- RTOU, R86. Converts REAL32 to UINT32 with saturation. -/
  | opRtou (r : Runner) (a b : Fin 256)
  /-- FTOR, R86. Converts FIX16 to REAL32 exactly. -/
  | opFtor (r : Runner) (a b : Fin 256)
  /-- RTOF, R86. Converts REAL32 to FIX16 with rounding and saturation. -/
  | opRtof (r : Runner) (a b : Fin 256)
  /-- ITOU, R86. Converts INT32 to UINT32, negatives giving 0. -/
  | opItou (r : Runner) (a b : Fin 256)
  /-- UTOI, R86. Converts UINT32 to INT32 with saturation. -/
  | opUtoi (r : Runner) (a b : Fin 256)
  /-- BTOI, R86. Converts BOOL to INT32 or UINT32. -/
  | opBtoi (r : Runner) (a b : Fin 256)
  /-- ITOB, R86. Converts an integer to BOOL, nonzero giving TRUE. -/
  | opItob (r : Runner) (a b : Fin 256)
  /-- TREL, R87. Loads the release time of the current run into A. -/
  | opTrel (r : Runner) (a : Fin 256)
  /-- FLAGS, R87. Loads the run's flag word so far into A. -/
  | opFlags (r : Runner) (a : Fin 256)
  /-- ADD, R83. Saturating integer addition. -/
  | opAdd (r : Runner) (a b c : Fin 256)
  /-- SUB, R83. Saturating integer subtraction. -/
  | opSub (r : Runner) (a b c : Fin 256)
  /-- MUL, R83. Saturating integer multiplication. -/
  | opMul (r : Runner) (a b c : Fin 256)
  /-- DIV, R83. Integer division truncating toward zero, with defined results for a zero divisor. -/
  | opDiv (r : Runner) (a b c : Fin 256)
  /-- MOD, R83. Integer remainder with the sign of the dividend. -/
  | opMod (r : Runner) (a b c : Fin 256)
  /-- NEG, R83. Saturating INT32 negation. -/
  | opNeg (r : Runner) (a b : Fin 256)
  /-- ABS, R83. Saturating INT32 absolute value. -/
  | opAbs (r : Runner) (a b : Fin 256)
  /-- MIN, R87. Lesser of two integers. -/
  | opMin (r : Runner) (a b c : Fin 256)
  /-- MAX, R87. Greater of two integers. -/
  | opMax (r : Runner) (a b c : Fin 256)
  /-- LIM, R87. Limits A between B and C. -/
  | opLim (r : Runner) (a b c : Fin 256)
  /-- ADDW, R83. Wrapping addition modulo 2^32. -/
  | opAddw (r : Runner) (a b c : Fin 256)
  /-- SUBW, R83. Wrapping subtraction modulo 2^32. -/
  | opSubw (r : Runner) (a b c : Fin 256)
  /-- AND, R87. Bitwise or BOOL AND. -/
  | opAnd (r : Runner) (a b c : Fin 256)
  /-- OR, R87. Bitwise or BOOL OR. -/
  | opOr (r : Runner) (a b c : Fin 256)
  /-- XOR, R87. Bitwise or BOOL XOR. -/
  | opXor (r : Runner) (a b c : Fin 256)
  /-- NOT, R87. Bitwise or BOOL NOT. -/
  | opNot (r : Runner) (a b : Fin 256)
  /-- SHL, R87. Shift left by constant C. -/
  | opShl (r : Runner) (a b : Fin 256) (c : Fin 32)
  /-- SHR, R87. Logical right shift by constant C. -/
  | opShr (r : Runner) (a b : Fin 256) (c : Fin 32)
  /-- SAR, R87. Arithmetic right shift by constant C. -/
  | opSar (r : Runner) (a b : Fin 256) (c : Fin 32)
  /-- ROL, R87. Rotate left by constant C. -/
  | opRol (r : Runner) (a b : Fin 256) (c : Fin 32)
  /-- BTST, R87. Tests bit C of B. -/
  | opBtst (r : Runner) (a b : Fin 256) (c : Fin 32)
  /-- BSET, R87. Sets bit C of B. -/
  | opBset (r : Runner) (a b : Fin 256) (c : Fin 32)
  /-- BCLR, R87. Clears bit C of B. -/
  | opBclr (r : Runner) (a b : Fin 256) (c : Fin 32)
  /-- SHLV, R87. Shift left by a variable count. -/
  | opShlv (r : Runner) (a b c : Fin 256)
  /-- SHRV, R87. Logical right shift by a variable count. -/
  | opShrv (r : Runner) (a b c : Fin 256)
  /-- POPC, R87. Counts the 1 bits of B. -/
  | opPopc (r : Runner) (a b : Fin 256)
  /-- CLZ, R87. Counts the leading zeros of B. -/
  | opClz (r : Runner) (a b : Fin 256)
  /-- RADD, R85. REAL32 addition. -/
  | opRadd (r : Runner) (a b c : Fin 256)
  /-- RSUB, R85. REAL32 subtraction. -/
  | opRsub (r : Runner) (a b c : Fin 256)
  /-- RMUL, R85. REAL32 multiplication. -/
  | opRmul (r : Runner) (a b c : Fin 256)
  /-- RDIV, R85. REAL32 division with defined zero-divisor results. -/
  | opRdiv (r : Runner) (a b c : Fin 256)
  /-- RNEG, R85. REAL32 negation. -/
  | opRneg (r : Runner) (a b : Fin 256)
  /-- RABS, R85. REAL32 absolute value. -/
  | opRabs (r : Runner) (a b : Fin 256)
  /-- RMIN, R85. Lesser of two REAL32 values. -/
  | opRmin (r : Runner) (a b c : Fin 256)
  /-- RMAX, R85. Greater of two REAL32 values. -/
  | opRmax (r : Runner) (a b c : Fin 256)
  /-- RLIM, R85. Limits a REAL32 A between B and C. -/
  | opRlim (r : Runner) (a b c : Fin 256)
  /-- RSQRT, R85. REAL32 square root. -/
  | opRsqrt (r : Runner) (a b : Fin 256)
  /-- RMAC, R85. REAL32 multiply-accumulate with each step rounded. -/
  | opRmac (r : Runner) (a b c : Fin 256)
  /-- RRND, R85. Rounds a REAL32 to an integral value, ties to even. -/
  | opRrnd (r : Runner) (a b : Fin 256)
  /-- RTRN, R85. Truncates a REAL32 toward zero. -/
  | opRtrn (r : Runner) (a b : Fin 256)
  /-- FADD, R84. Saturating Q15 addition. -/
  | opFadd (r : Runner) (a b c : Fin 256)
  /-- FSUB, R84. Saturating Q15 subtraction. -/
  | opFsub (r : Runner) (a b c : Fin 256)
  /-- FMUL, R84. Q15 multiplication rounding halves toward +infinity. -/
  | opFmul (r : Runner) (a b c : Fin 256)
  /-- FDIV, R84. Q15 division rounded to nearest and saturated. -/
  | opFdiv (r : Runner) (a b c : Fin 256)
  /-- FNEG, R84. Saturating Q15 negation. -/
  | opFneg (r : Runner) (a b : Fin 256)
  /-- FABS, R84. Saturating Q15 absolute value. -/
  | opFabs (r : Runner) (a b : Fin 256)
  /-- FLIM, R87. Limits a Q15 A between B and C. -/
  | opFlim (r : Runner) (a b c : Fin 256)
  /-- FSHR, R84. Rounding Q15 right shift by C. -/
  | opFshr (r : Runner) (a b : Fin 256) (c : Fin 32)
  /-- EQ, R87. Compares B and C for equality. -/
  | opEq (r : Runner) (a b c : Fin 256)
  /-- NE, R87. Compares B and C for inequality. -/
  | opNe (r : Runner) (a b c : Fin 256)
  /-- LT, R87. Tests B less than C. -/
  | opLt (r : Runner) (a b c : Fin 256)
  /-- LE, R87. Tests B less than or equal to C. -/
  | opLe (r : Runner) (a b c : Fin 256)
  /-- GT, R87. Tests B greater than C. -/
  | opGt (r : Runner) (a b c : Fin 256)
  /-- GE, R87. Tests B greater than or equal to C. -/
  | opGe (r : Runner) (a b c : Fin 256)
  /-- TBEF, R87. Tests whether TICKS B lies before C on the wrapping scale. -/
  | opTbef (r : Runner) (a b c : Fin 256)
  /-- JMP, R88. Jumps forward by H. -/
  | opJmp (r : Runner) (h : Fin 65536)
  /-- JT, R88. Jumps forward by H if A is TRUE. -/
  | opJt (r : Runner) (a : Fin 256) (h : Fin 65536)
  /-- JF, R88. Jumps forward by H if A is FALSE. -/
  | opJf (r : Runner) (a : Fin 256) (h : Fin 65536)
  /-- LOOP, R89. Sets the index local to 0 and enters a counted loop body. -/
  | opLoop (r : Runner) (a : Fin 256) (h : Fin 65536)
  /-- ENDL, R89. Increments the loop index and repeats the body while below the bound. -/
  | opEndl (r : Runner)
  /-- SEL, R88. Copies C into A if B is TRUE. -/
  | opSel (r : Runner) (a b c : Fin 256)
  /-- END, R116. Ends the run, records cost and flags, and starts the scatter. -/
  | opEnd (r : Runner)
  /-- LUTL, R100. Interpolates linearly in a table. -/
  | opLutl (r : Runner) (a b : Fin 256) (t : Fin 256)
  /-- LUTS, R100. Looks up a step table. -/
  | opLuts (r : Runner) (a b : Fin 256) (t : Fin 256)
  /-- HFIND, R100. Finds the value stored under a hash key. -/
  | opHfind (r : Runner) (a b : Fin 256) (t : Fin 256)
  /-- HHAS, R100. Tests whether a hash key is present. -/
  | opHhas (r : Runner) (a b : Fin 256) (t : Fin 256)
  /-- TLEN, R99. Loads a table's COUNT. -/
  | opTlen (r : Runner) (a : Fin 256) (t : Fin 256)
  /-- TRD, R100. Reads an ARRAY table entry. -/
  | opTrd (r : Runner) (a b : Fin 256) (t : Fin 256)
  /-- GET, R92. Loads an import's value and quality from the input image. -/
  | opGet (e s : Fin 8) (a : Fin 256) (i : Fin 4096)
  /-- GETQ, R92. Loads an import's quality code. -/
  | opGetq (e s : Fin 8) (a : Fin 256) (i : Fin 4096)
  /-- GETS, R92. Loads an import's SEQ. -/
  | opGets (e s : Fin 8) (a : Fin 256) (i : Fin 4096)
  /-- GETO, R92. Loads an output image value. -/
  | opGeto (e s : Fin 8) (a : Fin 256) (x : Fin 1024)
  /-- PUT, R92. Stores a value in the output image with FAULT_REQ from its quality. -/
  | opPut (e s : Fin 8) (a : Fin 256) (x : Fin 1024)
  /-- PUTG, R92. Stores a value in the output image with FAULT_REQ 0. -/
  | opPutg (e s : Fin 8) (a : Fin 256) (x : Fin 1024)
  /-- PUTF, R92. Sets FAULT_REQ of an output image entry. -/
  | opPutf (e s : Fin 8) (x : Fin 1024)
  /-- EDGR, R94. Reports a rising edge using an edge slot. -/
  | opEdgr (e s : Fin 8) (a b : Fin 256) (k : Fin 1024)
  /-- EDGF, R94. Reports a falling edge using an edge slot. -/
  | opEdgf (e s : Fin 8) (a b : Fin 256) (k : Fin 1024)
  /-- EDGC, R94. Reports a change of stored word using an edge slot. -/
  | opEdgc (e s : Fin 8) (a b : Fin 256) (k : Fin 1024)
  /-- EDGCLR, R93. Clears PRIMED in an edge slot. -/
  | opEdgclr (e s : Fin 8) (k : Fin 1024)
  /-- TON, R95. Advances an on-delay timer. -/
  | opTon (e s : Fin 8) (a b : Fin 256) (c : Fin 256)
  /-- TOF, R95. Advances an off-delay timer. -/
  | opTof (e s : Fin 8) (a b : Fin 256) (c : Fin 256)
  /-- TP, R95. Advances a pulse timer. -/
  | opTp (e s : Fin 8) (a b : Fin 256) (c : Fin 256)
  /-- TPRE, R93. Sets a timer's PRESET. -/
  | opTpre (e s : Fin 8) (b : Fin 256) (c : Fin 256)
  /-- TELP, R93. Loads a timer's elapsed time. -/
  | opTelp (e s : Fin 8) (a : Fin 256) (c : Fin 256)
  /-- TRST, R93. Resets a timer. -/
  | opTrst (e s : Fin 8) (c : Fin 256)
  /-- CTU, R96. Counts a counter up by level. -/
  | opCtu (e s : Fin 8) (a b : Fin 256) (c : Fin 256)
  /-- CTD, R96. Counts a counter down by level. -/
  | opCtd (e s : Fin 8) (a b : Fin 256) (c : Fin 256)
  /-- CRST, R93. Sets a counter's CV to zero. -/
  | opCrst (e s : Fin 8) (c : Fin 256)
  /-- CLD, R93. Loads a counter's CV from PV. -/
  | opCld (e s : Fin 8) (c : Fin 256)
  /-- CPRE, R93. Sets a counter's PV. -/
  | opCpre (e s : Fin 8) (b : Fin 256) (c : Fin 256)
  /-- CGET, R93. Loads a counter's CV. -/
  | opCget (e s : Fin 8) (a : Fin 256) (c : Fin 256)
  /-- ALM, R102. Advances an alarm's state, applying a latched acknowledgement and posting transitions. -/
  | opAlm (e s : Fin 8) (b : Fin 256) (c : Fin 256)
  /-- ALMQ, R101. Loads an alarm's state code and PENDING bit. -/
  | opAlmq (e s : Fin 8) (a : Fin 256) (c : Fin 256)
  /-- EVT, R101. Posts an event to the task's event queue. -/
  | opEvt (e s : Fin 8) (b : Fin 256) (c : Fin 256)
  /-- TRND, R101. Appends a value to a trend log. -/
  | opTrnd (e s : Fin 8) (b : Fin 256) (c : Fin 256)
  /-- EVSIG, R101. Posts an event to be signed after the run. -/
  | opEvsig (e s : Fin 8) (b : Fin 256) (c : Fin 256)
  /-- EVDIG, R101. Posts an event carrying a digest of a copy of the output image. -/
  | opEvdig (e s : Fin 8) (c : Fin 256)
  /-- EVENT_SIGN, R101. After the run, SE signs a posted EVSIG record. -/
  | eventSign (e s : Fin 8)
  /-- EVENT_DIGEST, R101. After the run, SE computes the SHA-256 digest for an EVDIG record. -/
  | eventDigest (e s : Fin 8)
  /-- EVENT_QUEUE_DRAIN, R101. SV drains a task's event queue into the DRAM event log. -/
  | eventQueueDrain (e s : Fin 8)
  /-- DEFPT, R103. Stages a point record definition. -/
  | opDefpt (h : Fin 65536)
  /-- DEFGR, R103. Stages a grant entry. -/
  | opDefgr (h : Fin 65536)
  /-- DEFCTX, R103. Stages a tenant context. -/
  | opDefctx (h : Fin 65536)
  /-- DEFVID, R103. Stages a VID entry. -/
  | opDefvid (h : Fin 65536)
  /-- DEFLOOP, R168. Stages a loop descriptor. -/
  | opDefloop (h : Fin 65536)
  /-- DEFGRP, R169. Stages a competition group. -/
  | opDefgrp (h : Fin 65536)
  /-- DEFCIRC, R199. Stages a metering circuit. -/
  | opDefcirc (h : Fin 65536)
  /-- DEFMAP, R357. Stages a field-bus or GPIO map entry. -/
  | opDefmap (h : Fin 65536)
  /-- DEFEXP, R310. Stages a network publication or endpoint import. -/
  | opDefexp (h : Fin 65536)
  /-- ADMIT, R107. Stages the admission or replacement of a task of the image. -/
  | opAdmit (h : Fin 65536)
  /-- DELDEF, R103. Stages the removal of a defined object. -/
  | opDeldef (h : Fin 65536)
  /-- SYSRD, R106. Reads the register at address B. -/
  | opSysrd (r : Runner) (a b : Fin 256)
  /-- SYSWR, R106. Writes B to the register at address A, staged in joinery. -/
  | opSyswr (r : Runner) (a b : Fin 256)
  /-- SYSRDX, R106. Reads the register at the immediate address. -/
  | opSysrdx (r : Runner) (a : Fin 256) (addr : Word)
  /-- SYSWRX, R106. Writes A to the register at the immediate address, staged in joinery. -/
  | opSyswrx (r : Runner) (a : Fin 256) (addr : Word)
  /-- PT_READ, R36. A point-table read returns the record with effective value and quality computed at that read. Operands: `ctx`: the tenant context that ports 11 and 12 present; `due`: the read finds a detected uncorrectable error (R392). -/
  | ptRead (port : Fin 16) (index : Fin 65536) (ctx : Fin 64) (due : Bool)
  /-- PT_WRITE, R44. A point-table write is served by its sub-bank, merged, performed, refused as LOST, DENIED or UNDEF. Operands: the writes that reach sub-bank `bank` in one fabric cycle. -/
  | ptWrite (bank : Fin 16) (ws : List PtWrite)
  /-- PT_WRITE_REPEAT, R48. A port repeats a LOST write in the next fabric cycle. -/
  | ptWriteRepeat (port : Fin 16)
  /-- STALE_SWEEP, R38. The sweeper visits a record and sets STALE_LATCH when its age exceeds the refresh limit. Operands: `writing`: a port writes the record in the same fabric cycle (R38). -/
  | staleSweep (index : Fin 65536) (writing : Bool)
  /-- FORCE_SET, R59. A force writes FORCE_VALUE and sets FORCE in one write, after the right and lock checks. Operands: through port 15, or through port 14 for `tenant`. -/
  | forceSet (port15 : Bool) (index : Fin 65536) (value : Word) (tenant : Fin 4096)
  /-- FORCE_RELEASE, R60. A release request sets REL_PEND on a forced record. -/
  | forceRelease (port15 : Bool) (index : Fin 65536) (tenant : Fin 4096)
  /-- FORCE_RELEASE_COMPLETE, R60. A pending release completes at the writer's scatter or the next grid tick, clearing FORCE and REL_PEND. -/
  | forceReleaseComplete (index : Fin 65536)
  /-- PT_LOST_CLEAR, R71. Writing 1 to PT_LOST.CLEAR clears COUNT and LAST_PORT. -/
  | ptLostClear
  /-- PT_DENY_CLEAR, R71. Writing 1 to PT_DENY.CLEAR clears COUNT, LAST_PORT and REASON. -/
  | ptDenyClear
  /-- CHANGE_SUBMIT, R141. A management request carrying 1 to 8 images joins the submission queue or is refused with BUSY. Operands: where it came from and its identifier, target module, the tenant for which it acts, 1 to 8 images, the commit tick asked for; for an estate change, each participant's images and DEPART_POLICY. -/
  | changeSubmit (q : ChangeAsk) (target : Fin 512) (tenant : Fin 4096) (images : List Image) (tick : Option (Fin 281474976710656)) (estate : List (Fin 512 × List Image)) (policy : Bool)
  /-- SCARF_STAGE, R144. The change at the head of the queue is verified and its joinery run, then checked as a whole. -/
  | scarfStage
  /-- ARM_AT, R161. SCF_CMD ARM_AT arms a staged local change for the tick in SCF_TICK. -/
  | armAt
  /-- SCF_ABORT, R144. SCF_CMD ABORT discards a staged or locally armed change before its tick. -/
  | scfAbort
  /-- SCF_CLEAR_STAT, R161. SCF_CMD OP 0b011 clears SCF_STAT. -/
  | scfClearStat
  /-- SCARF_COMMIT, R146. At the armed target tick the module switches everything the change stages in one fabric cycle. -/
  | scarfCommit
  /-- CONFIG_NAND_WRITE, R160. SV writes the committed configuration to NAND after applying it. Operands: the record's program ended before main power was lost. -/
  | configNandWrite (ok : Bool)
  /-- ESTATE_OFFER, R154. A participant receives OFFER and queues the estate change. -/
  | estateOffer (h : TrussHdr) (change : Word) (policy : Bool) (images : List Image)
  /-- ESTATE_READY, R154. The manager receives a participant's READY with its check result. Operands: rejection code, 0 for a passed check. -/
  | estateReady (h : TrussHdr) (change : Word) (code : Fin 256)
  /-- ESTATE_ARM, R154. A staged, steered participant receives ARM, arms and sends ACK. -/
  | estateArm (h : TrussHdr) (change : Word) (tick : Fin 281474976710656)
  /-- ESTATE_ACK, R154. The manager receives a participant's ACK. -/
  | estateAck (h : TrussHdr) (change : Word)
  /-- ESTATE_DECISION, R155. At tick T−200 the manager records its decision with the standby and sends GO or CANCEL. -/
  | estateDecision
  /-- ESTATE_GO, R155. A participant receives GO for its armed change. -/
  | estateGo (h : TrussHdr) (change : Word)
  /-- ESTATE_CANCEL, R144. A participant receives CANCEL and discards the change. -/
  | estateCancel (h : TrussHdr) (change : Word)
  /-- ESTATE_OUTCOME, R157. An IN_DOUBT or excluded participant receives OUTCOME and discards or restages and applies the change late. Operands: with GO, the change again and the tick at which it applies. -/
  | estateOutcome (h : TrussHdr) (change : Word) (go : Bool) (tick : Fin 281474976710656) (images : List Image)
  /-- ESTATE_READY_TIMEOUT, R156. The manager's 10 s wait for READY ends and it cancels or excludes by DEPART_POLICY. -/
  | estateReadyTimeout
  /-- ESTATE_ARM_TIMEOUT, R144. A staged estate participant receives no ARM within 10 s of READY and times out. -/
  | estateArmTimeout
  /-- SUB_TICK, R163. A 62.5 µs loop sub-tick makes due every loop whose phase matches. Operands: the next sub-tick of the present grid tick. -/
  | subTick
  /-- LOOP_SAMPLE, R174. A due loop reads its inputs, runs its cascade and writes its output. Operands: a loop outside a group; a member is computed with its group. -/
  | loopSample (n : Fin 4096)
  /-- GROUP_SAMPLE, R179. A competition group is computed as one unit and the lowest offered value is written. -/
  | groupSample (g : Fin 512)
  /-- LOOP_DISABLE, R184. LP_L_CMD DISABLE takes the loop to DISABLED at its next sample instant. -/
  | loopDisable (n : Fin 4096)
  /-- LOOP_MANUAL, R184. LP_L_CMD MANUAL takes the loop to MANUAL at its next sample instant. -/
  | loopManual (n : Fin 4096)
  /-- LOOP_AUTO, R184. LP_L_CMD AUTO takes the loop to AUTO with a bumpless start. -/
  | loopAuto (n : Fin 4096)
  /-- LOOP_CLEAR_STATS, R193. LP_L_CMD OP 0b111 clears the loop's counts, faults and maximum latency. -/
  | loopClearStats (n : Fin 4096)
  /-- LP_MANUAL_WRITE, R184. A write to LP_L_MANUAL.VALUE takes effect at the loop's next sample instant. -/
  | lpManualWrite (n : Fin 4096) (v : BitVec 16)
  /-- LOOP_RESUME, R190. At the first conforming sub-tick after an engine's reset release each loop continues with APPLIED re-read. -/
  | loopResume (n : Fin 4096)
  /-- LINE_CYCLE_END, R214. At a line-cycle boundary ME forms the cycle's quantities and adds its energies to the Ledger. Operands: voltage set `n`, and what ME sampled in the cycle. -/
  | lineCycleEnd (n : Fin 4) (d : SetCycle)
  /-- AGGREGATION_END, R207. At the end of 10 or 12 line cycles ME writes every selected quantity. Operand: voltage set `n`. The other two places carry nothing: ME forms the DFT and the harmonics from the samples (R206, R208). -/
  | aggregationEnd (n : Fin 4) (dft harmonic : Unit)
  /-- URMS_REFRESH, R221. At each zero crossing Urms(1/2) is refreshed and power-quality events open, change or close. Operands: voltage set `n`; the square of Urms(1/2) of each phase, at the lands after factory trim and DC removal. -/
  | urmsRefresh (n : Fin 4) (u2 : List Rat)
  /-- MODULATOR_FAIL, R197. A modulator reported failed sets its channel-fault bit and raises a Severe fault. Operands: inputs 0 to 47 are MI, 48 to 59 MV. -/
  | modulatorFail (i : Fin 60)
  /-- LEDGER_CHECKPOINT, R228. At every multiple of 4,000 ticks ME writes a full Sill checkpoint to the older slot. Operands: `ok`: the write succeeds. -/
  | ledgerCheckpoint (ok : Bool)
  /-- NAND_CHECKPOINT, R229. SV writes a NAND copy of the current Sill slot at each NAND_PERIOD. -/
  | nandCheckpoint (ok : Bool)
  /-- LEDGER_AUDIT, R237. The audit compares each accumulator's changes with the quanta formed. -/
  | ledgerAudit
  /-- PULSE_EMIT, R226. With backlog at least QPP and the output inactive, ME subtracts QPP and drives the pulse active. -/
  | pulseEmit (k : Fin 8)
  /-- PULSE_END, R226. After WIDTH ms the pulse output returns inactive. -/
  | pulseEnd (k : Fin 8)
  /-- CAL_MEASURE, R211. MT_CAL_CMD GO starts a calibration measurement over the given line cycles. Operands: the fields written with GO. -/
  | calMeasure (input : Fin 64) (vset vph : Fin 4) (cycles : Fin 256)
  /-- CAL_DONE, R211. The calibration measurement completes and its results become valid. The place of the results carries nothing: ME forms them from the samples. -/
  | calDone (results : Unit)
  /-- MT_OVR_CLEAR, R239. Writing 1 to MT_OVR.CLEAR clears the overrange count. -/
  | mtOvrClear
  /-- MT_EV_SEL_WRITE, R223. A write to MT_EV_SEL copies the selected event record into MT_EV_W0–W3. -/
  | mtEvSelWrite (vset : Fin 4) (entry : Fin 256)
  /-- LG_NAND_CHECKPOINT, R240. LG_CMD OP 0b001 writes a NAND checkpoint now. -/
  | lgNandCheckpoint
  /-- RESET_INT, R219. LG_CMD RESET_INT zeroes a circuit's intervals and WRAP counts at the next line-cycle boundary. -/
  | resetInt (c : Fin 16)
  /-- LG_CLEAR_VIGIL, R240. LG_CMD OP 0b011 clears the circuit's Vigil charge, estimate and seen counts. -/
  | lgClearVigil (c : Fin 16)
  /-- LG_A_INT_READ, R218. A read of LG_A_INT opens or refreshes the requester's accumulator shadow. -/
  | lgAIntRead (q : Requester) (c : Fin 16) (a : Fin 8)
  /-- LG_A_TOT_HI_READ, R218. A read of LG_A_TOT_HI returns total high bits and WRAP and closes the shadow. -/
  | lgATotHiRead (q : Requester) (c : Fin 16) (a : Fin 8)
  /-- LG_WRAP_WRITE, R217. A write of v to WRAP reduces the live WRAP count by v, never below 0. -/
  | lgWrapWrite (c : Fin 16) (a : Fin 8) (v : Fin 256)
  /-- VIGIL_WINDOW, R231. At a Vigil period boundary PD1 wakes, measures currents, adds Vigil charge and writes a checkpoint. Operands: the square of Irms of MI0 to MI15 over the window, at the lands with factory trims. -/
  | vigilWindow (irms2 : List Rat)
  /-- HELLO, R243. The manager receives HELLO and binds and assigns a module number. Operands: header, what the frame says of its sender, and its role. -/
  | hello (h : TrussHdr) (b : HelloBody) (role : Fin 4)
  /-- HELLO_TIMER, R250. An unnumbered module resends HELLO every 1 s until ASSIGN arrives. -/
  | helloTimer
  /-- ASSIGN, R250. A module receives ASSIGN, takes number, TERM and epoch and sends its subscriptions. -/
  | assign (h : TrussHdr) (number : Fin 512) (epoch : Fin 281474976710656)
  /-- HEARTBEAT, R252. The manager receives a worker's HEARTBEAT and updates its directory entry. -/
  | heartbeat (h : TrussHdr) (mode : Fin 8) (severity : Fin 4) (steered : Bool) (scf : Fin 8) (demandControl demandManagement : Bool)
  /-- MARK, R257. A module receives MARK and learns the epoch, locks, steps or steers its grid. -/
  | mark (h : TrussHdr) (tick : Fin 281474976710656) (epoch : Fin 281474976710656)
  /-- DEPART, R252. A module receives DEPART and treats the named module as departed or left. -/
  | depart (h : TrussHdr) (module_ : Fin 512) (cause : Fin 3)
  /-- CREDIT, R268. A receiver gets dowels returned in a CREDIT frame. Operands: dowels returned for each pool, 0 Cycle to 4 Management responses. -/
  | credit (h : TrussHdr) (dowels : List Nat)
  /-- TAKEOVER, R254. A module receives TAKEOVER and follows the higher TERM. -/
  | takeover (h : TrussHdr)
  /-- SUB_RSP, R258. A SUB_RSP returns the result of each subscription entry. Operands: result of each entry, 0 accepted, else the reason of TR_REFUSE, and the TENANT of its point. -/
  | subRsp (h : TrussHdr) (query : Bool) (results : List (SubEntry × Fin 8 × Fin 4096))
  /-- UNSUB, R252. An UNSUB frame removes subscriptions from the directory. -/
  | unsub (h : TrussHdr) (gpas : List Nat)
  /-- DATA, R261. A DATA frame is relayed by the manager or written into proxies by the subscriber. -/
  | data (h : TrussHdr) (n : Nat) (k : Word) (publisher : Fin 512) (entries : List DataEntry)
  /-- SYNC, R254. The standby receives SYNC deltas and answers SYNC_ACK. -/
  | sync (h : TrussHdr) (b : SyncBody)
  /-- SYNC_ACK, R254. The manager receives SYNC_ACK and counts the change as recorded. -/
  | syncAck (h : TrussHdr) (seq : Nat)
  /-- MGMT_RSP, R271. A MGMT_RSP is carried back to the requester. -/
  | mgmtRsp (h : TrussHdr) (id : Word) (status : Fin 4) (data : List Nat)
  /-- MGMT_REGISTER_READ, R271. A management request reads a register for tenant 4095. Operands: header and request identifier, target module, the tenant for which it acts. -/
  | mgmtRegisterRead (q : MgmtAsk) (target : Fin 512) (tenant : Fin 4096) (addr : Nat)
  /-- MGMT_REGISTER_WRITE, R271. A management request writes a register for tenant 4095. -/
  | mgmtRegisterWrite (q : MgmtAsk) (target : Fin 512) (tenant : Fin 4096) (addr : Nat) (w : Word)
  /-- MGMT_FORCE, R271. A management request forces a point through PT_FCMD. -/
  | mgmtForce (q : MgmtAsk) (target : Fin 512) (tenant : Fin 4096) (index : Fin 65536) (value : Word)
  /-- MGMT_RELEASE, R271. A management request releases a force through PT_FCMD. -/
  | mgmtRelease (q : MgmtAsk) (target : Fin 512) (tenant : Fin 4096) (index : Fin 65536)
  /-- MGMT_TASK_COMMAND, R271. A management request issues a task command. -/
  | mgmtTaskCommand (q : MgmtAsk) (target : Fin 512) (tenant : Fin 4096) (e s op : Fin 8)
  /-- MGMT_LOOP_COMMAND, R271. A management request issues a loop command. -/
  | mgmtLoopCommand (q : MgmtAsk) (target : Fin 512) (tenant : Fin 4096) (n : Fin 4096) (op : Fin 8)
  /-- MGMT_FAULT_READ, R271. A management request reads the fault queue. -/
  | mgmtFaultRead (q : MgmtAsk) (target : Fin 512) (tenant : Fin 4096)
  /-- MGMT_UART_REQUEST, R271. A request over the management UART is carried out by SV or answered with status 1. -/
  | mgmtUartRequest (id : Word) (op : MgmtOp)
  /-- TRUSS_BAD_FRAME, R249. A Truss frame with a bad type, pool, tag or sequence is discarded and counted. -/
  | trussBadFrame (h : TrussHdr) (why : TrussBad)
  /-- DEPART_TIMEOUT, R252. The manager declares a worker departed after DEPART heartbeat periods without HEARTBEAT. -/
  | departTimeout (n : Fin 512)
  /-- MANAGER_LOST, R263. A worker without MARK for DEPART periods declares its manager lost and marks proxies ABSENT. -/
  | managerLost
  /-- STANDBY_TAKEOVER, R254. A synced standby without MARK for twice the departure time sends TAKEOVER and becomes manager. Operands: `handover`: TR_CMD HANDOVER reached the standby through the manager. -/
  | standbyTakeover (handover : Bool)
  /-- MARK_TIMEOUT, R257. Without a valid MARK for the mark allowance the grid loses steering. -/
  | markTimeout
  /-- SUB_QUERY_TIMEOUT, R258. A verifier SUB query unanswered within 2 s gives REMOTE_REFUSED. -/
  | subQueryTimeout
  /-- POOL_AUDIT, R269. At every MARK tick each dowel pool is checked for conservation. -/
  | poolAudit
  /-- TRUSS_LEAVE, R252. TR_CMD LEAVE sends DEPART with cause 1. -/
  | trussLeave
  /-- TRUSS_REJOIN, R250. TR_CMD REJOIN sends HELLO now. -/
  | trussRejoin
  /-- TRUSS_RELEASE, R243. TR_CMD RELEASE removes the number binding of a departed or left module. Operands: the module that TR_DIR_SEL selects. -/
  | trussRelease (n : Fin 512)
  /-- TRUSS_HANDOVER, R254. TR_CMD HANDOVER makes the synced standby take over. -/
  | trussHandover
  /-- TR_CLEAR_ERRORS, R272. TR_CMD OP 0b111 clears TR_ERR1 to TR_ERR3 and SINGLE_SENT. -/
  | trClearErrors
  /-- FRAME_RECEIVE, R278. A MAC applies the receive steps to a completed frame and stores or discards it. -/
  | frameReceive (m : Fin 6) (f : RxFrame)
  /-- PAUSE_RECEIVE, R295. A received PAUSE frame is counted and, if enabled, stops transmission for its quanta. -/
  | pauseReceive (m : Fin 6) (quanta : Fin 65536)
  /-- PAUSE_EXPIRE, R295. The pause time runs out and transmission resumes. -/
  | pauseExpire (m : Fin 6)
  /-- PAUSE_WATCHDOG, R296. A transmitter held by PAUSE for PWD_MS resumes and PAUSE is ignored. -/
  | pauseWatchdog (m : Fin 6)
  /-- PAUSE_REARM, R296. After a full second without PAUSE the MAC clears PAUSE_STUCK and acts on PAUSE again. -/
  | pauseRearm (m : Fin 6)
  /-- RX_DESC_POST, R287. A network engine posts a receive descriptor to a ring. Operands: receive ring k of MAC m. -/
  | rxDescPost (m : Fin 6) (k : Fin 4)
  /-- TX_DESC_POST, R288. A network engine posts a transmit descriptor, waking the MAC from Low Power Idle. Operands: transmit ring TXk. -/
  | txDescPost (m : Fin 6) (k : Fin 3) (d : TxPost)
  /-- FRAME_TRANSMIT, R291. The scheduler starts a frame, checks its tag, sends it and completes its descriptor. Operands: the PTP time of the frame's delimiter at the lands. -/
  | frameTransmit (m : Fin 6) (sec : Fin 0x1000000000000) (ns : Fin 1000000000)
  /-- TSQ_REMOVE, R298. NE1 removes the head entry of a transmit timestamp queue. -/
  | tsqRemove (m : Fin 6)
  /-- LINK_TRAIN_END, R275. SerDes training reaches link and its pegs are returned. Operands: the in-band rate word. -/
  | linkTrainEnd (m : Fin 6) (rate : Fin 8)
  /-- LINK_TRAIN_TIMEOUT, R275. Training without link 500 ms after the grant raises a Degraded fault and asks pegs again 1 s later. -/
  | linkTrainTimeout (m : Fin 6)
  /-- LINK_LOSS, R277. A link goes down, raising a Note fault and starting training again. Operands: `receiving`: a frame was being received. -/
  | linkLoss (m : Fin 6) (receiving : Bool)
  /-- INBAND_RATE_CHANGE, R276. A change of the in-band rate word changes rate adaptation at the next inter-frame gap. -/
  | inbandRateChange (m : Fin 6) (rate : Fin 8) (receiving : Bool)
  /-- MAC_RETRAIN, R275. MACn_CMD RETRAIN starts link training. -/
  | macRetrain (m : Fin 6)
  /-- MAC_DISABLE, R304. MACn_CMD DISABLE takes the link down and keeps it down. -/
  | macDisable (m : Fin 6)
  /-- MAC_ENABLE, R304. MACn_CMD ENABLE brings a disabled MAC back. -/
  | macEnable (m : Fin 6)
  /-- MAC_CLEAR_COUNTERS, R306. MACn_CMD OP 0b111 clears the MAC counters. -/
  | macClearCounters (m : Fin 6)
  /-- WAKE_FRAME, R301. An armed MAC in Doze receives a magic packet or matching pattern and wakes the module. -/
  | wakeFrame (m : Fin 6) (octets : List Nat)
  /-- LPI_ENTER, R303. A floor transmitter idle for IDLE_US enters Low Power Idle. -/
  | lpiEnter (m : Fin 6)
  /-- BB_LOS_CHANGE, R524. A change of BBn_LOS takes the link down or lets training start after 1 ms low. Operands: `high`: the level now; a low level has lasted 1 ms. -/
  | bbLosChange (m : Fin 2) (high : Bool)
  /-- DATAGRAM_DISCARD, R308. A datagram outside the supported set is discarded and counted. -/
  | datagramDiscard (ctx : Fin 64) (frame : List Nat)
  /-- ARP_REQUEST, R308. The network engine answers an ARP request for a context address. Operands: the IPv4 address asked for. -/
  | arpRequest (ctx : Fin 64) (target : Word)
  /-- NEIGHBOR_SOLICIT, R308. The network engine answers an IPv6 neighbour or router solicitation. Operands: the IPv6 address asked for. -/
  | neighborSolicit (ctx : Fin 64) (target : BitVec 128) (router : Bool)
  /-- ECHO_REQUEST, R308. The network engine answers an ICMP echo request, up to 10 per second per context. -/
  | echoRequest (ctx : Fin 64) (v6 : Bool) (dst : BitVec 128) (data : List Nat)
  /-- BVLC_NAK, R313. An unsupported BVLC function is answered with BVLC-Result NAK. Operands: the BVLC function. -/
  | bvlcNak (ctx : Fin 64) (client : NetAddr) (fn : Fin 256)
  /-- READ_PROPERTY, R317. A BACnet ReadProperty is executed in the context's view. -/
  | readProperty (ctx : Fin 64) (client : NetAddr) (invoke : Fin 256) (obj : Word) (prop : BacProp) (idx : Option Nat)
  /-- READ_PROPERTY_MULTIPLE, R317. A BACnet ReadPropertyMultiple is executed. -/
  | readPropertyMultiple (ctx : Fin 64) (client : NetAddr) (invoke : Fin 256) (specs : List (Word × List BacProp))
  /-- WRITE_PROPERTY, R317. A BACnet WriteProperty to Present_Value of a DIR 2 object is a writer write. -/
  | writeProperty (ctx : Fin 64) (client : NetAddr) (invoke : Fin 256) (obj : Word) (prop : BacProp) (val : BacVal)
  /-- SUBSCRIBE_COV, R317. A BACnet SubscribeCOV registers, replaces or cancels an observer. Operands: no lifetime: a cancellation. -/
  | subscribeCov (ctx : Fin 64) (client : NetAddr) (invoke : Fin 256) (pid obj : Word) (confirmed : Bool) (lifetime : Option (Fin 28801))
  /-- WHO_IS, R317. A Who-Is is answered with I-Am when the device number is in range. -/
  | whoIs (ctx : Fin 64) (range : Option (Nat × Nat))
  /-- WHO_HAS, R317. A Who-Has is answered with I-Have. Operands: an object identifier, or else a name. -/
  | whoHas (ctx : Fin 64) (range : Option (Nat × Nat)) (obj : Option Word) (name : String)
  /-- BACNET_REJECT, R318. An unsupported confirmed BACnet request is refused with Reject, Abort or Error. -/
  | bacnetReject (ctx : Fin 64) (client : NetAddr) (invoke : Fin 256) (why : BacRefusal)
  /-- BACNET_UNCONFIRMED_DISCARD, R318. An unsupported unconfirmed BACnet service is discarded and counted. -/
  | bacnetUnconfirmedDiscard (ctx : Fin 64)
  /-- COV_NOTIFY, R320. The network engine takes an index from its change queue and notifies observers when COV is met. -/
  | covNotify (ne : Fin 2)
  /-- COV_RETRY, R319. An unacknowledged confirmed notification is resent after 3 s, up to 4 times. -/
  | covRetry (number : Fin 32768) (client : NetAddr)
  /-- USRAS_REFRESH, R321. An observed Usras publication is notified again after REFRESH seconds. -/
  | usrasRefresh (number : Fin 32768)
  /-- COAP_GET, R325. A CoAP GET on a published resource returns content and registers or deregisters an observer. Operands: `observe`: register, or deregister. -/
  | coapGet (ctx : Fin 64) (client : NetAddr) (osc : Option OscMsg) (cls item : Fin 256) (inst : Fin 65536) (observe : Option Bool)
  /-- COAP_PUT, R325. A CoAP PUT on a DIR 2 publication is a writer write. -/
  | coapPut (ctx : Fin 64) (client : NetAddr) (osc : Option OscMsg) (cls item : Fin 256) (inst : Fin 65536) (payload : CoapPayload)
  /-- COAP_ACK_POST, R325. POST /u/ack latches an alarm acknowledgement. -/
  | coapAckPost (ctx : Fin 64) (client : NetAddr) (osc : Option OscMsg) (image : Word) (taskNo alarm : Nat)
  /-- WELL_KNOWN_CORE, R324. GET /.well-known/core returns the context's Usras resources, multicast after a random leisure. -/
  | wellKnownCore (ctx : Fin 64) (client : NetAddr) (multicast : Bool)
  /-- COAP_REFUSED, R325. A CoAP request outside the profile is answered with its error code. -/
  | coapRefused (ctx : Fin 64) (client : NetAddr) (why : CoapRefusal) (multicast : Bool)
  /-- COAP_RETRANSMIT, R322. An unacknowledged confirmable message is retransmitted, and exhaustion sets UNDELIV or ABSENT. Operands: the publication and observer, or the endpoint import. -/
  | coapRetransmit (number : Fin 32768) (client : NetAddr)
  /-- OBSERVE_REGISTER, R326. The engine registers an observation at an endpoint import's address, retrying every 10 s. -/
  | observeRegister (number : Fin 32768)
  /-- OBSERVE_RENEW, R326. The observation of an endpoint import is renewed every MAX_AGE seconds. -/
  | observeRenew (number : Fin 32768)
  /-- ENDPOINT_NOTIFY, R326. An endpoint notification is written into its record as a writer write. -/
  | endpointNotify (number : Fin 32768) (osc : Option OscMsg) (payload : CoapPayload)
  /-- ENDPOINT_SILENT, R326. No notification for 3 × MAX_AGE writes WQ ABSENT into the record. -/
  | endpointSilent (number : Fin 32768)
  /-- ENDPOINT_RST, R326. An endpoint RST writes WQ ABSENT into the record. -/
  | endpointRst (number : Fin 32768)
  /-- ENDPOINT_ERROR, R326. A 4.xx answer from an endpoint writes WQ FAULT and raises a Note fault. -/
  | endpointError (number : Fin 32768)
  /-- PTP_SYNC, R333. A Sync message is received on a SLAVE port. Operands: receive time in ns; a one-step Sync carries its send time, corrected. -/
  | ptpSync (m : Fin 6) (seq : Fin 65536) (t2 : Nat) (t1 : Option Nat)
  /-- PTP_FOLLOW_UP, R336. A Follow_Up completes a Sync exchange and drives the servo. Operands: the corrected send time in ns. -/
  | ptpFollowUp (m : Fin 6) (seq : Fin 65536) (t1 : Nat)
  /-- PTP_DELAY_REQ, R333. A Delay_Req received on a master port is answered with Delay_Resp. -/
  | ptpDelayReq (m : Fin 6) (seq : Fin 65536) (t4 : Nat) (requester : BitVec 80)
  /-- PTP_DELAY_RESP, R336. A Delay_Resp completes the delay measurement and the servo steps, slews or locks. -/
  | ptpDelayResp (m : Fin 6) (seq : Fin 65536) (t4 : Nat)
  /-- PTP_ANNOUNCE, R334. An Announce message feeds the best master clock algorithm. -/
  | ptpAnnounce (m : Fin 6) (a : PtpAnnounce)
  /-- PTP_DISCARD, R333. An unsupported or foreign PTP message is discarded and counted. Operand: the message's header. -/
  | ptpDiscard (m : PtpHead)
  /-- PTP_SYNC_SEND, R333. A master port sends a two-step Sync at its interval. -/
  | ptpSyncSend (m : Fin 6)
  /-- PTP_ANNOUNCE_SEND, R334. A master port sends Announce at its interval. -/
  | ptpAnnounceSend (m : Fin 6)
  /-- PTP_DELAY_REQ_SEND, R333. The SLAVE port sends Delay_Req at its interval. -/
  | ptpDelayReqSend (m : Fin 6)
  /-- ANNOUNCE_TIMEOUT, R334. announceReceiptTimeout expires and the port states are recomputed. -/
  | announceTimeout (m : Fin 6)
  /-- SET_TIME, R337. NE_PTP_CMD SET_TIME captures NE_TIME_SET as pending when TYPE = 0 or GM = 1. -/
  | setTime
  /-- SET_TIME_APPLY, R337. At the next whole-second boundary the time counter loads the pending seconds. -/
  | setTimeApply
  /-- NE_CLEAR_COUNTERS, R338. NE_PTP_CMD OP 0b111 clears the PTP and NE discard and context counters. -/
  | neClearCounters
  /-- NE_TIME_NS_READ, R337. A read of NE_TIME_NS opens the requester's shadow of the time counter. -/
  | neTimeNsRead (q : Requester)
  /-- NE_TIME_SEC_HI_READ, R337. A read of NE_TIME_SEC_HI returns shadowed seconds and closes the shadow. -/
  | neTimeSecHiRead (q : Requester)
  /-- CAN_FRAME_RX, R350. A received CAN frame is filtered into a FIFO and its CAN_IN records written. Operands: `behind`: FE does not serve the FIFOs before the next frame. -/
  | canFrameRx (n : Fin 12) (ident : Fin 0x20000000) (ide remote fdf : Bool) (data : List Nat) (behind : Bool)
  /-- CAN_TX_LOAD, R344. A pending request enters a free transmit buffer and its frame is packed. Operands: `begins`: the controller then begins a buffered frame. -/
  | canTxLoad (n : Fin 12) (begins : Bool)
  /-- CAN_TX_DONE, R346. A frame transmitted with ACK ends its request SENT and clears UNDELIV. -/
  | canTxDone (n : Fin 12) (begins : Bool)
  /-- CAN_TX_ERROR, R346. A transmission lost to an error is retried or ends FAILED. Operands: `ackOnly`: the error was a missing acknowledgement. -/
  | canTxError (n : Fin 12) (ackOnly begins : Bool)
  /-- CAN_ERROR_PASSIVE, R352. The channel enters error passive and raises a Note fault. Operands: the receive error counter. -/
  | canErrorPassive (n : Fin 12) (rec_ : Fin 256)
  /-- CAN_BUSOFF, R352. The channel enters bus-off, ends requests BUSOFF and writes inputs ABSENT. -/
  | canBusoff (n : Fin 12)
  /-- CAN_RECOVERED, R352. Bus-off recovery completes after 128 idle sequences and the channel is error active. -/
  | canRecovered (n : Fin 12)
  /-- CAN_RECOVER, R352. CANn_CMD RECOVER starts bus-off recovery. -/
  | canRecover (n : Fin 12)
  /-- CAN_DISABLE, R351. CANn_CMD DISABLE takes the controller off the bus and flushes its requests. -/
  | canDisable (n : Fin 12)
  /-- CAN_ENABLE, R351. CANn_CMD ENABLE integrates the channel into the bus and sends CALL. -/
  | canEnable (n : Fin 12)
  /-- CAN_DETECT, R342. CANn_CMD DETECT starts listen-only rate detection. -/
  | canDetect (n : Fin 12)
  /-- DETECT_CANDIDATE_END, R342. A detection candidate's dwell ends and detection passes, moves on or gives up. Operands: error-free frames seen; two consecutive ones among them; those were FD frames with BRS. -/
  | detectCandidateEnd (n : Fin 12) (frames : Fin 65536) (passed brs : Bool)
  /-- CAN_CLEAR_COUNTERS, R370. CANn_CMD OP 0b111 clears counters 0x040 to 0x05C. -/
  | canClearCounters (n : Fin 12)
  /-- CAN_IN_TIMEOUT, R351. A CAN_IN entry without its frame for TIMEOUT_MS is written ABSENT. -/
  | canInTimeout (number : Fin 4096)
  /-- CAN_AUDIT, R347. At every multiple of 4,000 ticks the transmit request balance is checked. -/
  | canAudit (n : Fin 12)
  /-- ROLL_CALL_TIMER, R354. FE sends CALL every CALL_PERIOD seconds. -/
  | rollCallTimer (n : Fin 12)
  /-- ANSWER, R354. An ANSWER from an unnumbered node is answered with ASSIGN or refused. -/
  | answer (n : Fin 12) (uid : BitVec 64)
  /-- PRESENT, R355. A PRESENT makes a bound node present or triggers RENUMBER. -/
  | present (n : Fin 12) (node : Fin 256) (status : Fin 256) (uid : BitVec 64)
  /-- LEAVE, R356. A LEAVE declares the node absent. -/
  | leave (n : Fin 12) (node : Fin 256) (uid : BitVec 64)
  /-- NODE_HEARTBEAT_MISS, R356. A node without PRESENT for HB_MISS periods is declared absent. -/
  | nodeHeartbeatMiss (n : Fin 12) (node : Fin 128)
  /-- MB_POLL_DUE, R365. A Modbus read group's poll period falls due. Operands: an entry of the read group. -/
  | mbPollDue (number : Fin 4096)
  /-- MB_REQUEST_SEND, R365. After a t3.5 silence the UART sends the next pending write or due read. -/
  | mbRequestSend (u : Fin 8)
  /-- MB_RESPONSE, R365. A frame ended by t3.5 silence is checked and a valid response writes records or ends a write. Operands: octets with the CRC; a silence above t1.5 within it; a framing or parity error. -/
  | mbResponse (u : Fin 8) (frame : List Nat) (broken bad : Bool)
  /-- MB_TIMEOUT, R366. No valid response within TIMEOUT_MS resends or declares the station absent. -/
  | mbTimeout (u : Fin 8)
  /-- MB_ABSENT_PROBE, R366. Every ABSENT_POLL_MS one probe is queued for an absent station. -/
  | mbAbsentProbe (u : Fin 8) (station : Fin 248)
  /-- UART_DISABLE, R368. UARTn_CMD DISABLE takes the line off. -/
  | uartDisable (u : Fin 8)
  /-- UART_ENABLE, R368. UARTn_CMD ENABLE brings the line back. -/
  | uartEnable (u : Fin 8)
  /-- UART_CLEAR_COUNTERS, R371. UARTn_CMD OP 0b111 clears the UART counters. -/
  | uartClearCounters (u : Fin 8)
  /-- GPIO_IN_CHANGE, R358. A debounced change of a GPIO input is written into its record. -/
  | gpioInChange (pin : Fin 64) (level : Bool)
  /-- FABRIC_AUDIT, R402. At every multiple of 400 ticks dowel and buffer balances are captured and checked. -/
  | fabricAudit
  /-- PATROL_SCRUB, R393. The patrol scrubber reads and corrects the next word of a powered memory. Operands: the word, what is found there, and whether it is the last of its pass. -/
  | patrolScrub (place : MemPlace) (addr : Fin 0x200000000) (find : ScrubFind) (last : Bool)
  /-- CE_RATE_HOUR, R391. Corrections beyond LIMIT in a region within an hour raise one Degraded fault. -/
  | ceRateHour (r : Fin 7) (hourEnds : Bool)
  /-- PAGE_RETIRE, R396. A DRAM page with three corrections of one word in 24 h is copied to a spare. -/
  | pageRetire (page : Fin 0x200000)
  /-- PAGE_COPY_DONE, R396. The retirement copy ends and the page's addresses map to the spare. -/
  | pageCopyDone
  /-- NAND_REFRESH, R400. A queued block's valid records are rewritten into an erased block and the old one erased. -/
  | nandRefresh (block into : Fin 8192)
  /-- NAND_PATROL, R400. Every NAND_DAYS days every written page is read. Operands: blocks with a KiB of 20 or more corrections; image records that cannot be read. -/
  | nandPatrol (worn : List (Fin 8192)) (lost : List (Fin 4096))
  /-- NAND_RETENTION_REWRITE, R400. A block holding records is rewritten at least every 5 years. -/
  | nandRetentionRewrite (block into : Fin 8192)
  /-- NAND_BLOCK_FAIL, R400. A failed program or erase retires the block and replaces it from the spares. -/
  | nandBlockFail (block : Fin 8192)
  /-- SRAM_SCRUB_NOW, R403. MEM_CMD OP 0b001 starts an SRAM scrub pass now. -/
  | sramScrubNow
  /-- DRAM_SCRUB_NOW, R403. MEM_CMD OP 0b010 starts a DRAM scrub pass now. -/
  | dramScrubNow
  /-- NAND_PATROL_NOW, R403. MEM_CMD OP 0b011 starts a NAND patrol now. -/
  | nandPatrolNow
  /-- MEM_CLEAR_COUNTERS, R403. MEM_CMD OP 0b111 clears correction, error, fabric and shed counters. -/
  | memClearCounters
  /-- RTC_TICK_LO_READ, R405. A read of RTC_TICK_LO opens or refreshes the requester's counter shadow. -/
  | rtcTickLoRead (q : Requester)
  /-- RTC_TICK_HI_READ, R405. A read of RTC_TICK_HI returns shadowed or live high bits and closes the shadow. -/
  | rtcTickHiRead (q : Requester)
  /-- RTC_LOAD, R406. Writing 1 to RTC_CTRL.LOAD captures RTC_SET as the pending load. -/
  | rtcLoad
  /-- RTC_LOAD_APPLY, R406. At the first tick edge 1 µs after the write the counter takes the pending value. -/
  | rtcLoadApply
  /-- RTC_ALARM_FIRE, R410. An armed alarm fires when the count reaches RTC_ALARM. -/
  | rtcAlarmFire
  /-- RTC_WAKE_EVENT, R411. A periodic wake event falls and acts by mode. -/
  | rtcWakeEvent
  /-- RTC_DRIFT_MEASURE, R409. Every 100 s the crystal's rate error is measured and reported. Operands: the rate error, signed, 0.01 ppm. -/
  | rtcDriftMeasure (ppm : BitVec 24)
  /-- IMPORT, R420. KS_CMD IMPORT unwraps a key blob into a key of the pair. Operands: the requester, the key of the pair in its KS_SEL. -/
  | keyImport (q : Requester) (key : Fin 2)
  /-- GENERATE, R419. KS_CMD GENERATE draws a new key of the pair. -/
  | generate (q : Requester) (key : Fin 2)
  /-- ACTIVATE, R421. KS_CMD ACTIVATE makes a key the active one when its check value matches. -/
  | activate (q : Requester) (key : Fin 2)
  /-- KEY_CLEAR, R422. KS_CMD CLEAR clears a key of the pair. -/
  | keyClear (q : Requester) (key : Fin 2)
  /-- CLEAR_PAIR, R419. KS_CMD CLEAR_PAIR empties the pair. -/
  | clearPair (q : Requester)
  /-- READ_PUBLIC, R419. KS_CMD READ_PUBLIC writes a key's compressed public point to KS_BUF. -/
  | readPublic (q : Requester) (key : Fin 2)
  /-- READ_ID, R419. KS_CMD READ_ID writes the identity public key to KS_BUF. -/
  | readId (q : Requester)
  /-- TAMPER_EVENT, R425. A tamper source meets its condition, is logged and acts by ACTION. Operand: what one tick showed the Sill logic. -/
  | tamperEvent (t : TampTick)
  /-- KERF_ASSERT, R428. The Kerf line clears Mortise and SE key registers and wipes the secure bank. -/
  | kerfAssert
  /-- TMP_KERF, R428. TMP_CMD KERF asserts the Kerf line. -/
  | tmpKerf
  /-- TMP_CLEAR_LOG, R437. TMP_CMD OP 0b111 clears the tamper log, refused in Deployed. -/
  | tmpClearLog
  /-- TMP_LOG_SEL_WRITE, R437. A write to TMP_LOG_SEL copies the chosen log entry to TMP_LOG_W0–W3. -/
  | tmpLogSelWrite (entry : Fin 32)
  /-- CHALLENGE, R432. LC_CMD CHALLENGE places a fresh nonce in LC_NONCE. -/
  | challenge
  /-- TRANSITION, R431. LC_CMD TRANSITION moves to the target life-cycle state when permitted and signed. -/
  | transition (target : Fin 8)
  /-- DEBUG_UNLOCK, R433. LC_CMD DEBUG_UNLOCK opens the debug path in Deployed with a valid signature. -/
  | debugUnlock
  /-- NONCE_LAPSE, R432. A nonce lapses 600 s after CHALLENGE. -/
  | nonceLapse
  /-- MODE_COMMISSION, R442. PW_MODE_CMD TARGET 0 commands Commission. -/
  | modeCommission
  /-- MODE_RUN, R442. PW_MODE_CMD TARGET 1 commands Run. -/
  | modeRun
  /-- MODE_HOLD, R445. PW_MODE_CMD TARGET 2 commands Hold. -/
  | modeHold
  /-- MODE_SAFE, R444. PW_MODE_CMD TARGET 3 commands Safe and latches COMMAND. -/
  | modeSafe
  /-- MODE_DOZE, R446. PW_MODE_CMD TARGET 4 enters Doze through its checkpoint and power-down sequence. -/
  | modeDoze
  /-- DOZE_EXIT, R446. A wake event in Doze starts an L1 reset from source DOZE_EXIT. Operands: 1 a MAC wake, 2 an RTC wake event, 3 an RTC alarm. -/
  | dozeExit (cause : Fin 4)
  /-- VMAIN_LOSS_IN_DOZE, R442. VMAIN leaving its range in Doze takes the module to Vigil. -/
  | vmainLossInDoze
  /-- POWER_FAIL_WARNING, R454. VMAIN out of range for 2 µs starts the power-fail sequence to Vigil. Operands: VMAIN; the partial line cycles at the current sample. -/
  | powerFailWarning (mv : Fin 32768) (partials : List (Fin 4 × SetCycle))
  /-- VMAIN_RETURN, R455. VMAIN in range for 2 ms switches the Sill rail to main and starts an L1 reset from MAIN_POR. -/
  | vmainReturn (mv : Fin 32768)
  /-- SILL_POR, R455. The SILL rail falls below 1.6 V and a Sill power-on reset occurs. -/
  | sillPor
  /-- NRESET_PULSE, R462. An accepted nRESET pulse asserts source NRESET_PIN. -/
  | nresetPulse
  /-- CORE_UV, R458. A main-derived rail below its limit asserts source CORE_UV. -/
  | coreUv
  /-- CLOCK_LOSS, R470. A clock leaves its window while running and its monitor acts. Operands: the clock, and its measured error. -/
  | clockLoss (c : Fin 8) (err : Fin 0x1000000)
  /-- OVERTEMP, R458. Die temperature at 125 °C asserts source OVERTEMP. -/
  | overtemp
  /-- TEMP_HOT, R474. Die temperature rising to 115 °C sets HOT and raises a Degraded fault. -/
  | tempHot
  /-- SV_WATCHDOG, R458. The SV watchdog unserved for 1 s asserts source SV_WDOG. -/
  | svWatchdog
  /-- DEBUG_RESET, R458. A reset requested through the TAP asserts source DEBUG_RST. -/
  | debugReset
  /-- RST_WARM, R458. RST_CMD WARM asserts source SW_WARM. -/
  | rstWarm
  /-- RST_ENGINE, R458. RST_CMD ENGINE asserts source SW_ENGINE. -/
  | rstEngine
  /-- RST_BLOCK, R472. RST_CMD BLOCK resets one idle block at L4. -/
  | rstBlock (b : Fin 64)
  /-- RESET_STRETCH_END, R463. The reset stretch ends, nRESET is released and the fuse load begins. -/
  | resetStretchEnd
  /-- FUSE_LOAD_DONE, R465. The fuse, option and trim load ends, passing or failing. Operands: whether FUSE passes; where OPTION and TRIM pass: fuses, NOR copy 0 or 1. -/
  | fuseLoadDone (fuseOk : Bool) (opt trim : Option (Fin 3))
  /-- FUSE_LOAD_RETRY, R467. 100 µs after a failed load the loader tries again, stopping after the third failure. -/
  | fuseLoadRetry
  /-- BOOT_CHECK_DONE, R468. SE's check of the boot image ends and SV runs it or the ROM falls back. -/
  | bootCheckDone (passed : Bool)
  /-- PEG_REQUEST, R450. An operation or domain asks the Draw Governor for pegs. -/
  | pegRequest (o : GovOp)
  /-- PEG_GRANT, R450. The governor grants the first waiting request that fits and the operation starts. -/
  | pegGrant
  /-- PEG_AGEING, R450. Every 100 ms of waiting moves a request up one class. Operands: the place in the waiting order. -/
  | pegAgeing (i : Fin 64)
  /-- GOV_AUDIT, R452. At every multiple of 400 ticks the peg balance is checked. -/
  | govAudit
  /-- DRAM_TRAIN_DONE, R469. DRAM training and wipe end, its grant is returned and engine wakes follow. -/
  | dramTrainDone
  /-- DOMAIN_RELEASE, R471. A domain's blocks are released from reset once their clocks are stable. -/
  | domainRelease (d : Fin 14)
  /-- RELEASE_TIMEOUT, R471. Clocks not stable 2 ms after a release request abandon the release. -/
  | releaseTimeout (d : Fin 14)
  /-- CLK_RETRY, R476. CLK_CMD RETRY restarts an abandoned domain. -/
  | clkRetry (d : Fin 16)
  /-- CONFIG_COMMIT, R469. At the first grid tick after the last tag check the recorded configuration is committed and a mode entered. Operands: image records whose tag fails the check. -/
  | configCommit (badTags : List (Fin 4096))
  /-- FAULT_RAISE, R477. A detector presents an entry that is recorded, repeated, escalated or lost, and its reaction follows. Operands: detector, number of what it watches, severity, detail. -/
  | faultRaise (d : Detector) (n : Fin 4096) (sev : Severity) (detail : Word)
  /-- BACKLOG_DRAIN, R485. A held Severe entry enters the queue when an entry is free. -/
  | backlogDrain
  /-- FAULT_ACK, R482. FLT_ACK GO removes the presented entry if its SEQ matches. -/
  | faultAck (seq : Fin 4096)
  /-- FAULT_AUTO_ACK, R482. SV acknowledges a logged entry whose severity AUTO_ACK covers. -/
  | faultAutoAck
  /-- FLT_CLEAR_FIRST, R500. FLT_CMD OP 0b001 clears FLT_FIRST. -/
  | fltClearFirst
  /-- FLT_CLEAR_LOST, R500. FLT_CMD OP 0b010 clears FLT_LOST. -/
  | fltClearLost
  /-- FLT_CLEAR_TOTALS, R500. FLT_CMD OP 0b111 clears FLT_TOTAL, OVERWRITTEN and DROPPED. -/
  | fltClearTotals
  /-- INJ_START, R490. FLT_INJ_CTL START begins a Raise or Force injection when permitted. Operands: the fields of FLT_INJ, FLT_INJ_ARG and FLT_INJ_CTL. -/
  | injStart (q : Requester) (det : Fin 256) (n : Fin 4096) (force : Bool) (durationMs : Fin 256) (arg : Word) (symbols : Fin 0x100000)
  /-- INJ_STOP, R492. FLT_INJ_CTL STOP ends an active Force. -/
  | injStop
  /-- INJ_FORCE_END, R492. A Force ends at its duration or when the module leaves Commission or Hold. -/
  | injForceEnd
  /-- SAT_STEP, R498. At the end of each 100 ms step shedding is judged and SATURATED set or cleared. -/
  | satStep
  /-- VIO33_OVERLOAD, R515. A VIO33 load above 150 mA folds the supply back and raises a Degraded fault. Operands: the current measured at the fold-back. -/
  | vio33Overload (mA : Fin 65536)
  /-- VIO33_RECOVER, R515. After 100 ms below 20 mA VIO33 returns to 3.3 V. -/
  | vio33Recover
  /-- SUB_REQUEST, R258. A SUB frame reaches the manager or the holding module, which checks the subscription or query and forwards it or answers with SUB_RSP. -/
  | subRequest (h : TrussHdr) (query : Bool) (entries : List SubEntry)
  /-- NOTIFICATION_ACK, R327. The acknowledgement of a confirmable notification arrives, ending its retransmissions and clearing UNDELIV on a designated receiver's publication. -/
  | notificationAck (number : Fin 32768) (client : NetAddr)
  /-- COV_LIFETIME_EXPIRY, R317. A BACnet COV subscription whose nonzero lifetime has elapsed is removed. -/
  | covLifetimeExpiry (number : Fin 32768) (client : NetAddr)
  /-- TAMPER_CONDITION_CLEAR, R423. A tamper source stops meeting its condition and its TMP_LIVE bit clears. -/
  | tamperConditionClear (source : Fin 9)
  /-- SILL_POR_RELEASE, R455. The SILL rail rises above 1.7 V and the Sill power-on reset ends, with the RTC counting from zero. -/
  | sillPorRelease
  /-- RESET_SOURCE_RELEASE, R463. The last asserted source of an L0, L1 or L2 reset releases, such as nRESET going high or the temperature falling, and the stretch begins. -/
  | resetSourceRelease (source : Fin 14)
  /-- HOLD_UP_END, R454. VMAIN at the lands falls below 6.0 V during the power-fail sequence, conversion stops and the write of any incomplete step is lost. -/
  | holdUpEnd
  /-- SECURE_BANK_WIPE_END, R428. The secure-bank wipe ends 131.072 µs after it began, WIPING clears and SE accepts commands again. -/
  | secureBankWipeEnd
  /-- KEY_COMMAND_DONE, R419. A key command in progress in SE completes, writing RESULT and clearing BUSY. -/
  | keyCommandDone
  /-- MODULATOR_RECOVERY, R197. A failed modulator whose fault bit has been cleared reports good again, and its phases resume contributing energy and non-FAULT quantities. -/
  | modulatorRecovery (i : Fin 60)
  /-- PEG_RETURN, R451. A granted heavy operation, such as a NAND program or erase, bulk cryptography, an engine group wake or a front-end start-up, ends and its transient pegs are returned. -/
  | pegReturn (o : GovOp)
  /-- BOOT_RECOVERY_IMAGE, R468. In recovery, the boot ROM accepts a signed boot image over the management UART for the slot it did not start from, writes it and resets at L1. Operands: the image's signature passes. -/
  | bootRecoveryImage (ok : Bool)
deriving DecidableEq, Repr

end Sys2Proof
end

