-- ==== Sys2Proof/WellFormed.lean ====
section
/-! DEFINITION. WellFormed.lean: the ranges of a command's operands that their types do not give: octets, addresses, GPAs, point writes, sums of squares. A
command is judged as outside presents it; `exec` is total and takes any. -/

namespace Sys2Proof

open Machine

/-- Octets of a frame or an image. -/
def octetsWf (l : List Nat) : Bool := l.all (fun n => decide (n < 256))
/-- A word or an address. -/
def wordWf (n : Nat) : Bool := decide (n < 2 ^ 32)
/-- A global point address of 25 bits (02 R39). -/
def gpaWf (n : Nat) : Bool := decide (n < 2 ^ 25)
/-- A mean or sum of squares. -/
def nonNeg (q : Rat) : Bool := decide (0 ≤ q)
/-- An image. -/
def imageWf (i : Image) : Bool := octetsWf i.bytes
/-- An entry of a SUB frame. -/
def subWf (e : SubEntry) : Bool := gpaWf e.gpa && decide (e.tenant < 4096) && decide (e.period < 65536)
/-- A write at the point table. -/
def ptWriteWf (w : PtWrite) : Bool := decide (w.index < 65536) && decide (w.ident < 65536) && decide (w.ctx < 64)
/-- A 24-bit two's complement code (07 R194). -/
def codeWf (c : Int) : Bool := decide (-(2 ^ 23) ≤ c) && decide (c < 2 ^ 23)
/-- A line cycle: every channel gave the same number of codes, each within 24 bits. -/
def setCycleWf (d : SetCycle) : Bool :=
  d.chans.all (fun c => c.2.all codeWf && d.chans.all (fun k => k.2.length == c.2.length)) && (d.measured.getD 0 |> nonNeg)
    && d.splits.all (fun k => decide (k.1 < 2 ^ 48))
/-- A frame that arrives. -/
def rxWf (f : RxFrame) : Bool := octetsWf f.octets && decide (f.sec < 2 ^ 48) && decide (f.ns < 1000000000)
/-- A small Truss frame: at most 96 bytes of payload (08 R246). -/
def smallWf (h : TrussHdr) : Bool := decide (h.length.val ≤ 96)
/-- A SYNC body. -/
def syncWf (b : SyncBody) : Bool := b.subs.all (fun e => subWf e.1) && b.unsubs.all (fun e => gpaWf e.1)
/-- A management operation. -/
def mgmtWf : MgmtOp → Bool
  | .regRead a => wordWf a
  | .regWrite a _ => wordWf a
  | .change is _ => is.all imageWf
  | .force _ _ => true
  | .release _ => true
  | .taskCmd _ _ _ => true
  | .loopCmd _ _ => true
  | .faultRead => true

/-- The operands are in range. -/
def Instr.wf : Instr → Bool
  | .registerWrite _ addr_ _ => wordWf addr_
  | .unmappedAccess _ addr_ _ => wordWf addr_
  | .leGridLoRead _ => true
  | .leGridHiRead _ => true
  | .gridTick => true
  | .taskGather _ => true
  | .taskDispatch _ => true
  | .taskScatter _ _ => true
  | .stopScatter _ _ => true
  | .taskRunCmd _ _ => true
  | .taskStopCmd _ _ => true
  | .taskHoldCmd _ _ => true
  | .taskStepCmd _ _ => true
  | .taskClearStats _ _ => true
  | .maxcostClear _ _ => true
  | .taskResume _ => true
  | .opNop _ => true
  | .opMov _ _ _ => true
  | .opLdi _ _ _ => true
  | .opLdk _ _ _ => true
  | .opItor _ _ _ => true
  | .opUtor _ _ _ => true
  | .opRtoi _ _ _ => true
  | .opRtou _ _ _ => true
  | .opFtor _ _ _ => true
  | .opRtof _ _ _ => true
  | .opItou _ _ _ => true
  | .opUtoi _ _ _ => true
  | .opBtoi _ _ _ => true
  | .opItob _ _ _ => true
  | .opTrel _ _ => true
  | .opFlags _ _ => true
  | .opAdd _ _ _ _ => true
  | .opSub _ _ _ _ => true
  | .opMul _ _ _ _ => true
  | .opDiv _ _ _ _ => true
  | .opMod _ _ _ _ => true
  | .opNeg _ _ _ => true
  | .opAbs _ _ _ => true
  | .opMin _ _ _ _ => true
  | .opMax _ _ _ _ => true
  | .opLim _ _ _ _ => true
  | .opAddw _ _ _ _ => true
  | .opSubw _ _ _ _ => true
  | .opAnd _ _ _ _ => true
  | .opOr _ _ _ _ => true
  | .opXor _ _ _ _ => true
  | .opNot _ _ _ => true
  | .opShl _ _ _ _ => true
  | .opShr _ _ _ _ => true
  | .opSar _ _ _ _ => true
  | .opRol _ _ _ _ => true
  | .opBtst _ _ _ _ => true
  | .opBset _ _ _ _ => true
  | .opBclr _ _ _ _ => true
  | .opShlv _ _ _ _ => true
  | .opShrv _ _ _ _ => true
  | .opPopc _ _ _ => true
  | .opClz _ _ _ => true
  | .opRadd _ _ _ _ => true
  | .opRsub _ _ _ _ => true
  | .opRmul _ _ _ _ => true
  | .opRdiv _ _ _ _ => true
  | .opRneg _ _ _ => true
  | .opRabs _ _ _ => true
  | .opRmin _ _ _ _ => true
  | .opRmax _ _ _ _ => true
  | .opRlim _ _ _ _ => true
  | .opRsqrt _ _ _ => true
  | .opRmac _ _ _ _ => true
  | .opRrnd _ _ _ => true
  | .opRtrn _ _ _ => true
  | .opFadd _ _ _ _ => true
  | .opFsub _ _ _ _ => true
  | .opFmul _ _ _ _ => true
  | .opFdiv _ _ _ _ => true
  | .opFneg _ _ _ => true
  | .opFabs _ _ _ => true
  | .opFlim _ _ _ _ => true
  | .opFshr _ _ _ _ => true
  | .opEq _ _ _ _ => true
  | .opNe _ _ _ _ => true
  | .opLt _ _ _ _ => true
  | .opLe _ _ _ _ => true
  | .opGt _ _ _ _ => true
  | .opGe _ _ _ _ => true
  | .opTbef _ _ _ _ => true
  | .opJmp _ _ => true
  | .opJt _ _ _ => true
  | .opJf _ _ _ => true
  | .opLoop _ _ _ => true
  | .opEndl _ => true
  | .opSel _ _ _ _ => true
  | .opEnd _ => true
  | .opLutl _ _ _ _ => true
  | .opLuts _ _ _ _ => true
  | .opHfind _ _ _ _ => true
  | .opHhas _ _ _ _ => true
  | .opTlen _ _ _ => true
  | .opTrd _ _ _ _ => true
  | .opGet _ _ _ _ => true
  | .opGetq _ _ _ _ => true
  | .opGets _ _ _ _ => true
  | .opGeto _ _ _ _ => true
  | .opPut _ _ _ _ => true
  | .opPutg _ _ _ _ => true
  | .opPutf _ _ _ => true
  | .opEdgr _ _ _ _ _ => true
  | .opEdgf _ _ _ _ _ => true
  | .opEdgc _ _ _ _ _ => true
  | .opEdgclr _ _ _ => true
  | .opTon _ _ _ _ _ => true
  | .opTof _ _ _ _ _ => true
  | .opTp _ _ _ _ _ => true
  | .opTpre _ _ _ _ => true
  | .opTelp _ _ _ _ => true
  | .opTrst _ _ _ => true
  | .opCtu _ _ _ _ _ => true
  | .opCtd _ _ _ _ _ => true
  | .opCrst _ _ _ => true
  | .opCld _ _ _ => true
  | .opCpre _ _ _ _ => true
  | .opCget _ _ _ _ => true
  | .opAlm _ _ _ _ => true
  | .opAlmq _ _ _ _ => true
  | .opEvt _ _ _ _ => true
  | .opTrnd _ _ _ _ => true
  | .opEvsig _ _ _ _ => true
  | .opEvdig _ _ _ => true
  | .eventSign _ _ => true
  | .eventDigest _ _ => true
  | .eventQueueDrain _ _ => true
  | .opDefpt _ => true
  | .opDefgr _ => true
  | .opDefctx _ => true
  | .opDefvid _ => true
  | .opDefloop _ => true
  | .opDefgrp _ => true
  | .opDefcirc _ => true
  | .opDefmap _ => true
  | .opDefexp _ => true
  | .opAdmit _ => true
  | .opDeldef _ => true
  | .opSysrd _ _ _ => true
  | .opSyswr _ _ _ => true
  | .opSysrdx _ _ _ => true
  | .opSyswrx _ _ _ => true
  | .ptRead _ _ _ _ => true
  | .ptWrite _ ws_ => ws_.all ptWriteWf
  | .ptWriteRepeat _ => true
  | .staleSweep _ _ => true
  | .forceSet _ _ _ _ => true
  | .forceRelease _ _ _ => true
  | .forceReleaseComplete _ => true
  | .ptLostClear => true
  | .ptDenyClear => true
  | .changeSubmit _ _ _ images_ _ estate_ _ => images_.all imageWf && estate_.all (fun p => p.2.all imageWf)
  | .scarfStage => true
  | .armAt => true
  | .scfAbort => true
  | .scfClearStat => true
  | .scarfCommit => true
  | .configNandWrite _ => true
  | .estateOffer _ _ _ images_ => images_.all imageWf
  | .estateReady _ _ _ => true
  | .estateArm _ _ _ => true
  | .estateAck _ _ => true
  | .estateDecision => true
  | .estateGo _ _ => true
  | .estateCancel _ _ => true
  | .estateOutcome _ _ _ _ images_ => images_.all imageWf
  | .estateReadyTimeout => true
  | .estateArmTimeout => true
  | .subTick => true
  | .loopSample _ => true
  | .groupSample _ => true
  | .loopDisable _ => true
  | .loopManual _ => true
  | .loopAuto _ => true
  | .loopClearStats _ => true
  | .lpManualWrite _ _ => true
  | .loopResume _ => true
  | .lineCycleEnd _ d_ => setCycleWf d_
  | .aggregationEnd _ _ _ => true
  | .urmsRefresh _ u2_ => u2_.all nonNeg
  | .modulatorFail _ => true
  | .ledgerCheckpoint _ => true
  | .nandCheckpoint _ => true
  | .ledgerAudit => true
  | .pulseEmit _ => true
  | .pulseEnd _ => true
  | .calMeasure _ _ _ _ => true
  | .calDone _ => true
  | .mtOvrClear => true
  | .mtEvSelWrite _ _ => true
  | .lgNandCheckpoint => true
  | .resetInt _ => true
  | .lgClearVigil _ => true
  | .lgAIntRead _ _ _ => true
  | .lgATotHiRead _ _ _ => true
  | .lgWrapWrite _ _ _ => true
  | .vigilWindow irms2_ => irms2_.all nonNeg
  | .hello h_ _ _ => smallWf h_
  | .helloTimer => true
  | .assign _ _ _ => true
  | .heartbeat h_ _ _ _ _ _ _ => smallWf h_
  | .mark h_ _ _ => smallWf h_
  | .depart h_ _ _ => smallWf h_
  | .credit _ dowels_ => dowels_.all (fun d => decide (d < 4096))
  | .takeover h_ => smallWf h_
  | .subRsp _ _ results_ => results_.all (fun r => subWf r.1)
  | .unsub _ gpas_ => gpas_.all gpaWf
  | .data _ n_ _ _ _ => (decide (1 ≤ n_) && decide (n_ ≤ 40000))
  | .sync _ b_ => syncWf b_
  | .syncAck _ _ => true
  | .mgmtRsp _ _ _ data_ => data_.all wordWf
  | .mgmtRegisterRead _ _ _ addr_ => wordWf addr_
  | .mgmtRegisterWrite _ _ _ addr_ _ => wordWf addr_
  | .mgmtForce _ _ _ _ _ => true
  | .mgmtRelease _ _ _ _ => true
  | .mgmtTaskCommand _ _ _ _ _ _ => true
  | .mgmtLoopCommand _ _ _ _ _ => true
  | .mgmtFaultRead _ _ _ => true
  | .mgmtUartRequest _ op_ => mgmtWf op_
  | .trussBadFrame _ _ => true
  | .departTimeout _ => true
  | .managerLost => true
  | .standbyTakeover _ => true
  | .markTimeout => true
  | .subQueryTimeout => true
  | .poolAudit => true
  | .trussLeave => true
  | .trussRejoin => true
  | .trussRelease _ => true
  | .trussHandover => true
  | .trClearErrors => true
  | .frameReceive _ f_ => rxWf f_
  | .pauseReceive _ _ => true
  | .pauseExpire _ => true
  | .pauseWatchdog _ => true
  | .pauseRearm _ => true
  | .rxDescPost _ _ => true
  | .txDescPost _ _ d_ => octetsWf d_.frame
  | .frameTransmit _ _ _ => true
  | .tsqRemove _ => true
  | .linkTrainEnd _ _ => true
  | .linkTrainTimeout _ => true
  | .linkLoss _ _ => true
  | .inbandRateChange _ _ _ => true
  | .macRetrain _ => true
  | .macDisable _ => true
  | .macEnable _ => true
  | .macClearCounters _ => true
  | .wakeFrame _ octets_ => octetsWf octets_
  | .lpiEnter _ => true
  | .bbLosChange _ _ => true
  | .datagramDiscard _ frame_ => octetsWf frame_
  | .arpRequest _ _ => true
  | .neighborSolicit _ _ _ => true
  | .echoRequest _ _ _ data_ => octetsWf data_
  | .bvlcNak _ _ _ => true
  | .readProperty _ _ _ _ _ _ => true
  | .readPropertyMultiple _ _ _ _ => true
  | .writeProperty _ _ _ _ _ _ => true
  | .subscribeCov _ _ _ _ _ _ _ => true
  | .whoIs _ _ => true
  | .whoHas _ _ _ _ => true
  | .bacnetReject _ _ _ _ => true
  | .bacnetUnconfirmedDiscard _ => true
  | .covNotify _ => true
  | .covRetry _ _ => true
  | .usrasRefresh _ => true
  | .coapGet _ _ _ _ _ _ _ => true
  | .coapPut _ _ _ _ _ _ _ => true
  | .coapAckPost _ _ _ _ taskNo_ alarm_ => decide (taskNo_ < 256) && decide (alarm_ < 256)
  | .wellKnownCore _ _ _ => true
  | .coapRefused _ _ _ _ => true
  | .coapRetransmit _ _ => true
  | .observeRegister _ => true
  | .observeRenew _ => true
  | .endpointNotify _ _ _ => true
  | .endpointSilent _ => true
  | .endpointRst _ => true
  | .endpointError _ => true
  | .ptpSync _ _ _ _ => true
  | .ptpFollowUp _ _ _ => true
  | .ptpDelayReq _ _ _ _ => true
  | .ptpDelayResp _ _ _ => true
  | .ptpAnnounce _ _ => true
  | .ptpDiscard _ => true
  | .ptpSyncSend _ => true
  | .ptpAnnounceSend _ => true
  | .ptpDelayReqSend _ => true
  | .announceTimeout _ => true
  | .setTime => true
  | .setTimeApply => true
  | .neClearCounters => true
  | .neTimeNsRead _ => true
  | .neTimeSecHiRead _ => true
  | .canFrameRx _ _ _ _ _ data_ _ => octetsWf data_
  | .canTxLoad _ _ => true
  | .canTxDone _ _ => true
  | .canTxError _ _ _ => true
  | .canErrorPassive _ _ => true
  | .canBusoff _ => true
  | .canRecovered _ => true
  | .canRecover _ => true
  | .canDisable _ => true
  | .canEnable _ => true
  | .canDetect _ => true
  | .detectCandidateEnd _ _ _ _ => true
  | .canClearCounters _ => true
  | .canInTimeout _ => true
  | .canAudit _ => true
  | .rollCallTimer _ => true
  | .answer _ _ => true
  | .present _ _ _ _ => true
  | .leave _ _ _ => true
  | .nodeHeartbeatMiss _ _ => true
  | .mbPollDue _ => true
  | .mbRequestSend _ => true
  | .mbResponse _ frame_ _ _ => octetsWf frame_
  | .mbTimeout _ => true
  | .mbAbsentProbe _ _ => true
  | .uartDisable _ => true
  | .uartEnable _ => true
  | .uartClearCounters _ => true
  | .gpioInChange _ _ => true
  | .fabricAudit => true
  | .patrolScrub _ _ _ _ => true
  | .ceRateHour _ _ => true
  | .pageRetire _ => true
  | .pageCopyDone => true
  | .nandRefresh _ _ => true
  | .nandPatrol _ _ => true
  | .nandRetentionRewrite _ _ => true
  | .nandBlockFail _ => true
  | .sramScrubNow => true
  | .dramScrubNow => true
  | .nandPatrolNow => true
  | .memClearCounters => true
  | .rtcTickLoRead _ => true
  | .rtcTickHiRead _ => true
  | .rtcLoad => true
  | .rtcLoadApply => true
  | .rtcAlarmFire => true
  | .rtcWakeEvent => true
  | .rtcDriftMeasure _ => true
  | .keyImport _ _ => true
  | .generate _ _ => true
  | .activate _ _ => true
  | .keyClear _ _ => true
  | .clearPair _ => true
  | .readPublic _ _ => true
  | .readId _ => true
  | .tamperEvent _ => true
  | .kerfAssert => true
  | .tmpKerf => true
  | .tmpClearLog => true
  | .tmpLogSelWrite _ => true
  | .challenge => true
  | .transition _ => true
  | .debugUnlock => true
  | .nonceLapse => true
  | .modeCommission => true
  | .modeRun => true
  | .modeHold => true
  | .modeSafe => true
  | .modeDoze => true
  | .dozeExit _ => true
  | .vmainLossInDoze => true
  | .powerFailWarning _ partials_ => partials_.all (fun p => setCycleWf p.2)
  | .vmainReturn _ => true
  | .sillPor => true
  | .nresetPulse => true
  | .coreUv => true
  | .clockLoss _ _ => true
  | .overtemp => true
  | .tempHot => true
  | .svWatchdog => true
  | .debugReset => true
  | .rstWarm => true
  | .rstEngine => true
  | .rstBlock _ => true
  | .resetStretchEnd => true
  | .fuseLoadDone _ _ _ => true
  | .fuseLoadRetry => true
  | .bootCheckDone _ => true
  | .pegRequest _ => true
  | .pegGrant => true
  | .pegAgeing _ => true
  | .govAudit => true
  | .dramTrainDone => true
  | .domainRelease _ => true
  | .releaseTimeout _ => true
  | .clkRetry _ => true
  | .configCommit _ => true
  | .faultRaise _ _ _ _ => true
  | .backlogDrain => true
  | .faultAck _ => true
  | .faultAutoAck => true
  | .fltClearFirst => true
  | .fltClearLost => true
  | .fltClearTotals => true
  | .injStart _ _ _ _ _ _ _ => true
  | .injStop => true
  | .injForceEnd => true
  | .satStep => true
  | .vio33Overload _ => true
  | .vio33Recover => true
  | .subRequest _ _ entries_ => entries_.all subWf
  | .notificationAck _ _ => true
  | .covLifetimeExpiry _ _ => true
  | .tamperConditionClear _ => true
  | .sillPorRelease => true
  | .resetSourceRelease _ => true
  | .holdUpEnd => true
  | .secureBankWipeEnd => true
  | .keyCommandDone => true
  | .modulatorRecovery _ => true
  | .pegReturn _ => true
  | .bootRecoveryImage _ => true

end Sys2Proof
end

