-- ==== Sys2Proof/Decode.lean ====
section
/-! DEFINITION. Decode.lean: the command that a word spells by the bits of spec/opcode_table.json. No row of the table gives bits, so no word spells one
(log 3). -/

namespace Sys2Proof

/-- Rows of the table that give bits: how many, and the command that such a word spells. There is none. -/
def tableRows : List (Nat × (Nat → Option Instr)) := []

/-- The command that the word `w` of `nbits` bits spells. -/
def decodeTableWord (nbits w : Nat) : Option Instr := (tableRows.find? (fun r => r.1 == nbits)).bind (fun r => r.2 w)

end Sys2Proof
end

