-- ==== Sys2Proof/Machine/State.lean ====
section
/-! DEFINITION. Machine/State.lean: every piece of state the spec gives the SC16 as plain data, the stops of a step, and the state right after a Sill
power-on reset. A register field's home is `regs` unless INVENTORY.md says it is computed from the structures below. -/

namespace Sys2Proof.Machine

/-- Why a step can stop with a fault: never, in this model. The module's own faults are data (R477): a detector presents an entry and the
machine goes on, so no meaning answers a fault. Safe. -/
inductive Fault where
  /-- Raised by nothing; a type the interface asks for. Safe: it stops no command. -/
  | none
deriving DecidableEq, Repr

/-- Why a step can be refused. -/
inductive Refusal where
  /-- The command has no meaning in the model yet, by its mnemonic; raised by `exec` alone. Safe: nothing is claimed of it. -/
  | notModelled (mnemonic : String)
deriving DecidableEq, Repr

/-- One register field: address of its register, lowest bit, width, reset value, reset level (R10; 7: never reset). -/
structure RF where
  addr : Nat
  lo : Nat
  w : Nat
  rst : Nat
  lvl : Nat
deriving DecidableEq, Repr

/-- Access codes (R6). -/
inductive Acc where
  | ro | rw | w1c | w1s | wo | rs | st | lv
deriving DecidableEq, Repr

/-- One field of a register of the map. -/
structure FieldDesc where
  lo : Nat
  w : Nat
  acc : Acc
  rst : Nat
  lvl : Nat
deriving DecidableEq, Repr

/-- One register of the map: base address, index dimensions (count, stride) outermost first, fields. -/
structure RegDesc where
  base : Nat
  dims : List (Nat × Nat)
  fields : List FieldDesc
deriving DecidableEq, Repr

/-- A point record (R31, 02 Table 1); QUALITY is computed on read (R36). -/
structure PtRec where
  value : Word := 0
  forceValue : Word := 0
  force : Bool := false
  relPend : Bool := false
  undeliv : Bool := false
  staleLatch : Bool := false
  defined : Bool := false
  wq : Wq := .good
  ty : VType := .bool
  tenant : Nat := 0
  writerKind : WriterKind := .none
  writerId : Nat := 0
  refreshLimit : Nat := 0
  stamp : Nat := 0
  seq : Nat := 0
  exportTag : Nat := 0
  exportNe : Nat := 0
  cov : Word := 0
  remoteGpa : Nat := 0
  proxy : Bool := false
deriving DecidableEq, Repr

/-- The point table beside its registers: records, the writes waiting at each sub-bank (R44), the writes that received LOST and wait for
their repeat (R48), and the two change queues (R54). -/
structure PtState where
  recs : Tab PtRec := []
  waiting : Tab (List PtWrite) := []
  lost : List PtWrite := []
  chq0 : List Nat := []
  chq1 : List Nat := []
  locked : List Nat := []      -- records locked by a staged deletion (05 R153)
  forcers : Tab Nat := []      -- tenant for whom each force in place was made (R61, R66)
  loopOuts : Tab PtRec := []   -- records before the outputs of loop samples taken at the present grid tick (01 R26)
  sweepFrom : Option Nat := none   -- elapsed fabric cycles at the start of the sweep in progress (R38)
  sweepAt : Nat := 0           -- the index it visited last
deriving DecidableEq, Repr

/-- What the present fabric cycle has seen so far: W1C bits that hardware has set, by field key (00 R7); W1S bits written as 1 while they stood for a
request in progress, by field key (00 R8); the records written in it, as they stood before (01 R24). -/
structure CycleState where
  latched : Tab Nat := []
  asked : List Nat := []
  before : Tab PtRec := []
deriving DecidableEq, Repr

/-- An entry of a trend log in DRAM (03 R101, 12 R389): value, quality, type, release time; marked lost by an uncorrectable error (12 R392). -/
structure TrendEntry where
  value : Word := 0
  q : Quality := .good
  ty : VType := .bool
  relTime : Nat := 0
  lost : Bool := false
deriving DecidableEq, Repr

/-- A Decend local: stored word and quality (R80). -/
structure LocalVal where
  value : Word := 0
  q : Quality := .good
deriving DecidableEq, Repr

/-- An input image entry (R49). -/
structure InEntry where
  value : Word := 0
  q : Quality := .good
  ty : VType := .bool
  seq : Nat := 0
deriving DecidableEq, Repr

/-- An output image entry (R50). -/
structure OutEntry where
  value : Word := 0
  faultReq : Bool := false
deriving DecidableEq, Repr

/-- An edge slot (R52). -/
structure EdgeSlot where
  prev : Word := 0
  primed : Bool := false
deriving DecidableEq, Repr

/-- A timer (R95): PRESET and ET in µs, START on the 64-bit release-time scale. -/
structure Timer where
  preset : Nat := 0
  start : Nat := 0
  et : Nat := 0
  run : Bool := false
  q : Bool := false
  inPrev : Bool := false
deriving DecidableEq, Repr

/-- A counter (R96): CV and PV, INT32. -/
structure Counter where
  cv : Word := 0
  pv : Word := 0
deriving DecidableEq, Repr

/-- What an alarm posts (R102). -/
inductive AlarmTrans where
  | alarm | ret | ack
deriving DecidableEq, Repr

/-- The kind of an event record (R101). -/
inductive EventKind where
  | evt | trans (t : AlarmTrans) | trend | evsig | evdig
deriving DecidableEq, Repr

/-- An event record (R101): its source, its value, and what SE adds after the run (a digest, a signature). -/
structure EventRec where
  kind : EventKind
  code : Nat
  value : Word := 0
  q : Quality := .good
  ty : VType := .bool
  tenant : Nat := 0
  engine : Nat := 0
  slot : Nat := 0
  relTime : Nat := 0
  image : List OutEntry := []      -- EVDIG: the copy of the output image
  digest : Option Nat := none
  signature : Option Nat := none
deriving DecidableEq, Repr

/-- Alarm states, 03 Table 18. -/
inductive AlarmState where
  | normal | activeUnack | activeAck | rtnUnack
deriving DecidableEq, Repr

/-- An alarm: declared event code and FAIL_ACTIVE, state, latched acknowledgement, and the held record of a PENDING transition (R101, R102). -/
structure Alarm where
  eventCode : Nat := 0
  failActive : Bool := false
  state : AlarmState := .normal
  ackLatch : Bool := false
  held : Option EventRec := none
deriving DecidableEq, Repr

/-- One entered counted loop (R89): index local, bound, first body word, word of its ENDL. -/
structure LoopFrame where
  index : Nat
  bound : Nat
  body : Nat
  endl : Nat
deriving DecidableEq, Repr

/-- What Decend code acts on (R80, R82, R92 to R102): a task's, or joinery's with the images and stores empty. -/
structure Run where
  types : List VType := []
  locals : List LocalVal := []
  code : List Word := []
  consts : List Word := []
  table : List Word := []
  lost : List Nat := []              -- words of .table that are read with an uncorrectable error (12 R392)
  flags : Nat := 0
  pc : Nat := 0
  cycles : Nat := 0
  loops : List LoopFrame := []
  ended : Bool := false
  relTime : Nat := 0
  imports : List InEntry := []
  outs : List OutEntry := []
  outTypes : List VType := []
  edges : List EdgeSlot := []
  timers : List Timer := []
  counters : List Counter := []
  alarms : List Alarm := []
  events : List EventRec := []
  evDrop : Nat := 0
  tenant : Nat := 0
  engine : Nat := 0
  slot : Nat := 0
deriving DecidableEq, Repr

/-- One export of a task descriptor (03 Table 2). -/
structure TaskOut where
  index : Nat
  ty : VType := .bool
  stopMode : Bool := false
  initial : Word := 0
  stopValue : Word := 0
deriving DecidableEq, Repr

/-- A task descriptor with the image fields that go with it (R72, R77), as admitted. -/
structure TaskDef where
  taskNo : Nat := 0
  express : Bool := false
  overrunLimit : Nat := 1
  period : Nat := 4
  types : List VType := []
  imports : List (Nat × VType) := []
  outs : List TaskOut := []
  timers : List Nat := []
  counters : List Word := []
  nEdges : Nat := 0
  alarms : List (Nat × Bool) := []
  trends : List Nat := []
  signSlot : Nat := 0
  signEn : Bool := false
  code : List Word := []
  consts : List Word := []
  table : List Word := []
  bound : Nat := 0            -- B, the cost bound of R90
  tenant : Nat := 0
  imageId : Nat := 0
  version : Nat := 0
deriving DecidableEq, Repr

/-- Where a task's cycle stands (R112, R113, R115). -/
inductive Phase where
  | idle | released | ready | running | preempted | scatter
deriving DecidableEq, Repr

/-- An admitted task: its definition, its images and state, and its cycle. State codes, counts and statistics are LE_T registers. -/
structure Task where
  dfn : TaskDef := {}
  run : Run := {}
  phase : Phase := .idle
  ran : Bool := false         -- it has been released before
  relTick : Nat := 0          -- tick number of the release of the cycle in progress
  relMono : Nat := 0          -- elapsed grid ticks at that release
  relEl : Nat := 0            -- elapsed fabric cycles at that release
  deadline : Nat := 0         -- elapsed grid ticks at its next conforming tick (R115)
  minRel : Nat := 0           -- no release before this tick number (R110, R111)
  late : Bool := false        -- the cycle in progress has overrun (R131)
  stepped : Bool := false     -- the tick number was stepped since the last release (R111)
  stopDue : Option Nat := none     -- Stop at the boundary, with this STOP_CAUSE (R126)
  holdDue : Option Bool := none    -- Hold at the boundary; true sets HOLD_MODE
  scatterDue : Bool := false  -- the stop scatter of R127 is due
  written : Nat := 0          -- exports already written of a scatter that a gather has interrupted (R113)
  resumeHold : Bool := false  -- in Hold by R130: reset timers and edges when Hold mode is left
deriving DecidableEq, Repr

/-- A section of a loop's cascade: coefficient words as signed 16-bit integers, shift, INTEG, POL (06 R168, R172). -/
structure LoopSec where
  b0 : Int := 0
  b1 : Int := 0
  b2 : Int := 0
  a1 : Int := 0
  a2 : Int := 0
  shift : Nat := 0
  integ : Bool := false
  pol : Bool := false
deriving DecidableEq, Repr

/-- A loop descriptor (06 Table 1) with its tenant; Q15 fields as integers. -/
structure LoopDef where
  loop : Nat := 0
  reverse : Bool := false
  start : Nat := 0
  safeAct : Bool := false
  feAct : Bool := false
  plAct : Bool := false
  ovrLimit : Nat := 1
  period : Nat := 4
  phase : Nat := 0
  fb : Nat := 0
  sp : Nat := 0xFFFF
  out : Nat := 0xFFFF
  group : Nat := 0
  groupEn : Bool := false
  inZero : Word := 0
  inSpan : Word := 0
  outZero : Word := 0
  outSpan : Word := 0
  spConst : Int := 0
  bias : Int := 0
  spLo : Int := 0
  spHi : Int := 0
  outLo : Int := 0
  outHi : Int := 0
  rampUp : Int := 0
  rampDown : Int := 0
  commRate : Int := 1
  safeOut : Int := 0
  feLimit : Nat := 1
  feCount : Nat := 1
  badLimit : Nat := 0
  mGain : Int := 0
  mShift : Nat := 0
  mDelay : Nat := 0
  plCount : Nat := 1
  mAlpha : Int := 0
  mOffset : Int := 0
  plLimit : Nat := 1
  secs : List LoopSec := []
  tenant : Nat := 0
deriving DecidableEq, Repr

/-- Loop states (06 Table 2). -/
inductive LoopState where
  | disabled | manual | auto | track | safe
deriving DecidableEq, Repr

/-- A section's states, Q15 (06 R172). -/
structure SecState where
  x1 : Int := 0
  x2 : Int := 0
  y1 : Int := 0
  y2 : Int := 0
deriving DecidableEq, Repr

/-- LP_L_CMD operations (06 Table 9). -/
inductive LoopCmd where
  | disable | manual | auto | clear
deriving DecidableEq, Repr

/-- A defined loop (06 R181 to R191): what LP_L_* shows of it, its section states and model line, and what waits for its next sample instant. -/
structure Loop where
  dfn : LoopDef := {}
  state : LoopState := .disabled
  sat : Nat := 0               -- 0 neither, 1 HIGH, 2 LOW (R175)
  losing : Bool := false
  badPv : Bool := false
  inSat : Bool := false
  secSat : Bool := false
  ovrConsec : Nat := 0
  supv : Nat := 0              -- form of supervision: 0 none, 1 following error, 2 plausibility, 3 conservative
  cnt : Nat := 0
  safeCause : Nat := 0
  w : Int := 0
  target : Int := 0
  applied : Int := 0
  raw : Int := 0
  lastU : Int := 0             -- value written by the previous computed sample (R187)
  ym : Int := 0
  residual : Int := 0
  line : List Int := []        -- last 16 values of APPLIED, newest first (R186)
  secs : List SecState := []
  badCount : Nat := 0
  overruns : Nat := 0
  badPvCount : Nat := 0
  feEvents : Nat := 0
  plEvents : Nat := 0
  latLast : Nat := 0
  latMax : Nat := 0
  manual : Int := 0            -- LP_L_MANUAL.VALUE
  manualEff : Int := 0         -- the value in effect since the last sample instant (R184)
  cmds : List LoopCmd := []    -- accepted commands, oldest first, applied at the next sample instant (R184)
  bumpless : Bool := false     -- the next computed sample is a bumpless start (R183)
  wInit : Bool := false        -- the next AUTO sample is the first after an entry (R178)
  reanchor : Bool := false     -- the model is re-anchored at the next usable sample (R186)
  reread : Bool := false       -- APPLIED is read again after a reset (R190)
  due : Option Nat := none     -- a sample is due since this elapsed sub-tick (R163)
  deadline : Nat := 0          -- elapsed sub-tick of the sample instant after it (R163)
  lastInst : Option Nat := none -- elapsed fabric cycles at the previous sample instant
  stepped : Bool := false      -- the tick number was stepped since then (R163)
deriving DecidableEq, Repr

/-- A competition group (06 R169, R179): its members in ascending order, output record and scaling, and what LP_G_STAT shows. -/
structure Group where
  members : List Nat := []
  out : Nat := 0
  outZero : Word := 0
  outSpan : Word := 0
  output : Int := 0
  winner : Nat := 0
  none : Bool := false
deriving DecidableEq, Repr
/-- A phase of a circuit (07 Table 2). -/
structure CircPhase where
  mi : Nat := 0
  vph : Nat := 0
  iGain : Nat := 0x8000
  iPhase : Int := 0
  pGain : Nat := 0x8000
  qGain : Nat := 0x8000
  iOff : Word := 0
deriving DecidableEq, Repr

/-- A metering circuit (07 Table 2). -/
structure CircDef where
  circuit : Nat := 0
  vset : Nat := 0
  split : Bool := false
  calValid : Bool := false
  resetLedger : Bool := false
  vigilEn : Bool := false
  tenant : Nat := 0
  iratio : Word := 0
  rated : Word := 0
  imax : Word := 0
  istart : Word := 0
  vigilThresh : Word := 0
  phases : List CircPhase := []
  pointBase : Nat := 0
  qmask : Nat := 0
deriving DecidableEq, Repr

/-- A phase over an aggregation interval: its voltage and current samples in primary units, energies in J (R207). -/
structure AggPhase where
  vs : List Rat := []
  cs : List Rat := []
  e : Rat := 0
  r : Rat := 0
  s : Rat := 0
  ovr : Bool := false      -- an overrange sample fell in the interval (R196)
deriving DecidableEq, Repr

/-- A change of a circuit while ME meters it, at a sample of the line cycle in progress (R220): the new definition (none: removed), the commit
tick. -/
structure CircNext where
  dfn : Option CircDef
  tick : Nat
deriving DecidableEq, Repr

/-- A defined circuit with its aggregation interval so far, and the magnitude of its last total power factor (R232). -/
structure Circ where
  dfn : CircDef := {}
  since : Option Nat := none   -- commit tick of the change that defined it in the line cycle in progress
  next : List CircNext := []
  samples : Nat := 0
  dur : Rat := 0
  cycles : Rat := 0
  res2 : Rat := 0           -- Σ (sum of phase currents)², primary
  agg : List AggPhase := []
  lastPf : Rat := 0
deriving DecidableEq, Repr

/-- An accumulator of the Ledger (R215). -/
structure Acc13 where
  total : Nat := 0
  interval : Nat := 0
  wrap : Nat := 0
  residue : Nat := 0
deriving DecidableEq, Repr

/-- Vigil state of a circuit (R231, R232). -/
structure Vig where
  charge : Nat := 0
  chargeRes : Nat := 0
  est : Nat := 0
  estRes : Nat := 0
  windows : Nat := 0
  episodes : Nat := 0
  first : Nat := 0xFFFF
deriving DecidableEq, Repr

/-- A checkpoint (R228). -/
structure Ckpt where
  seq : Nat
  tick : Nat := 0
  steered : Bool := false
  rtc : Nat := 0
  restored : Bool := false
  restores : Nat := 0
  windows : Nat := 0
  vstart : Nat := 0
  accs : Tab Acc13 := []
  vigs : Tab Vig := []
  backlogs : Tab Nat := []
  valid : Bool := true      -- its CRC-32 holds
deriving DecidableEq, Repr

/-- A closing record (R220). -/
structure Closing where
  circuit : Nat
  tenant : Nat
  tick : Nat
  accs : List Acc13
deriving DecidableEq, Repr

/-- An open power-quality event (R221, R222): type 0 sag, 1 swell, 2 interruption; the extreme as a square in V². -/
structure OpenEv where
  kind : Nat
  start : Nat
  startMono : Nat
  phases : Nat := 0
  extreme2 : Rat := 0
deriving DecidableEq, Repr

/-- An event record in its ring (R223 Table 7), and whether it has been read. -/
structure EvRec where
  words : List Nat
  read : Bool := false
deriving DecidableEq, Repr

/-- A voltage set's configuration as ME uses it (R198): its ST registers. -/
structure VsCfg where
  en : Bool
  single : Bool
  f60 : Bool
  udin : Nat
  ratio : Word
  gains : List Nat
  delays : List Int       -- V_PHASE, in units of 4 ns
deriving DecidableEq, Repr

/-- A voltage set beside its registers: old configuration until its line cycle in progress ends (R148), open events, event seen in the
aggregation interval (R225), last cycle's duration, cycles of the aggregation interval (R207) and of the present 10 s, and the samples of the input
that MT_HSEL selects. -/
structure VsState where
  held : Option VsCfg := none
  under : Option OpenEv := none
  swell : Option OpenEv := none
  flagged : Bool := false
  lastDur : Rat := 0
  aggCycles : Nat := 0
  hsel : Option (Nat × List Rat) := none
  cycles10 : Nat := 0
  dur10 : Rat := 0
deriving DecidableEq, Repr

/-- A channel of ME (R196): the last sample before and after DC removal, and the samples after it, oldest first: those of the last line cycle,
and before them what the delays of R206 and R210 reach back to. -/
structure Chan where
  x : Rat := 0
  y : Rat := 0
  past : List Rat := []
deriving DecidableEq, Repr

/-- A calibration measurement (R211): line cycles so far, and the samples of the voltage phase and of the current input, in V at the lands. -/
structure CalRun where
  cycles : Nat := 0
  vs : List Rat := []
  cs : List Rat := []
deriving DecidableEq, Repr

/-- A pulse output (R226): active, and the elapsed grid tick at which it last became inactive. -/
structure Pulse where
  active : Bool := false
  ended : Option Nat := none
deriving DecidableEq, Repr

/-- A point write that ME holds back (R238). -/
structure HeldWrite where
  ident : Nat
  index : Nat
  value : Word
  wq : Wq
deriving DecidableEq, Repr

/-- ME and the Ledger beside their registers. Accumulators by circuit × 8 + a. -/
structure MeState where
  circs : Tab Circ := []
  accs : Tab Acc13 := []
  vigs : Tab Vig := []
  backlogs : Tab Nat := []
  formed : Tab Nat := []          -- quanta formed for an accumulator since the last audit (R237)
  snap : Tab Acc13 := []          -- accumulators at the last audit
  pulsed : Tab Nat := []          -- quanta emitted by a pulse output since the last audit
  snapBacklog : Tab Nat := []
  slotA : Option Ckpt := none
  slotB : Option Ckpt := none
  nand : List Ckpt := []          -- newest first, at most 64 (R229)
  closings : List Closing := []   -- NAND closing records, newest first
  modBad : List Nat := []         -- channels whose modulator reports failed (R197)
  chans : Tab Chan := []
  cal : CalRun := {}
  sets : Tab VsState := []
  ring : Tab EvRec := []          -- set × 256 + entry
  pulses : Tab Pulse := []
  resetInt : List Nat := []       -- circuits with a RESET_INT in progress (R219)
  vigilWindow : Nat := 0          -- number of the next Vigil window
  vigilDue : Bool := false        -- a Vigil has not been reported yet (R233)
  heldWrites : Tab HeldWrite := []
  portHeld : Bool := true         -- point and checkpoint writes are held back until the configuration is in effect (R238)
  ckptDue : Bool := false         -- a Sill checkpoint held back (R238)
  nandDue : Bool := false         -- a NAND checkpoint waits for its pegs (R229)
  gapFrom : Option Nat := none    -- grid tick of a restored NAND checkpoint, until the grid is steered again (R234)
  restoreDue : Bool := true       -- SV has not restored the Ledger since an L1 or L0 reset (R233, R234)
  dozeFrom : Option Nat := none   -- RTC tick at entry to Doze (R235)
  dozeTo : Option Nat := none     -- RTC tick at which Doze was left
deriving DecidableEq, Repr
/-- The time counter of the NE block (10 R335): seconds, nanoseconds, fraction. -/
structure TimeCtr where
  sec : Nat := 0
  ns : Nat := 0
  frac : Nat := 0        -- in 2^-32 ns
deriving DecidableEq, Repr

/-- The manager's directory entry of a module (08 Table 8): state 0 unbound, 1 present, 2 departed, 3 left. -/
structure DirEnt where
  serial : Nat := 0
  state : Nat := 0
  lanes : Nat := 0
  steered : Bool := false
  mode : Nat := 0
  scf : Nat := 0
  severity : Nat := 0
  lastHb : Option Nat := none     -- elapsed grid ticks at its last HEARTBEAT
  role : Nat := 0                 -- TR_CFG.ROLE and firmware version that its HELLO reports
  firmware : Nat := 0
  wants : List Nat := []          -- request pools for which its last HEARTBEAT reports demand (08 R266)
deriving DecidableEq, Repr

/-- A subscription of the directory: remote GPA, subscriber, period; with the tenant and TYPE of the SUB that made it (08 R258). -/
structure SubRec where
  gpa : Nat
  subscriber : Nat
  period : Nat
  tenant : Nat := 4095
  ty : VType := .bool
deriving DecidableEq, Repr

/-- A point this module publishes, and its period. -/
structure Pub where
  index : Nat
  period : Nat
deriving DecidableEq, Repr

/-- A sender as a receiver knows it (R249): highest SEQ accepted, and the lanes (bit mask) that delivered each SEQ of the window. -/
structure Peer where
  serial : Nat
  session : Nat
  high : Nat := 0
  window : List (Nat × Nat) := []
deriving DecidableEq, Repr

/-- A dowel pool of one lane (R265 to R269) beside TR_POOL: dowels granted to each peer and not returned, dowels to be taken back when returned,
buffers reserved for responses, buffers in use. -/
structure PoolState where
  granted : Tab Nat := []
  withheld : Tab Nat := []
  reserved : Nat := 0
  inUse : Nat := 0
deriving DecidableEq, Repr

/-- A Truss frame waiting to be sent: TYPE, destination, the words of its payload; further frames of the same message follow. -/
structure OutFrame where
  ty : Nat
  dst : Nat
  args : List Nat
  more : Bool := false
deriving DecidableEq, Repr

/-- A SUB that the manager has forwarded to the holding module. -/
structure FwdSub where
  entry : SubEntry
  requester : Nat
  query : Bool
deriving DecidableEq, Repr

/-- Truss beside its registers. `bindings` and `epoch` are NAND records of the manager (R243, R255). -/
structure TrState where
  bindings : Tab Nat := []            -- module number to serial
  epoch : Option Nat := none          -- PTP seconds of grid tick 0
  dir : Tab DirEnt := []
  subs : List SubRec := []
  pubs : List Pub := []
  peers : List Peer := []
  keyTimes : List Nat := []           -- elapsed grid ticks of recent key derivations (R248)
  authAt : Option Nat := none         -- elapsed grid ticks of the last TRUSS_AUTH entry (R249)
  pools : Tab PoolState := []         -- lane × 8 + pool
  held : Tab Nat := []                -- dowels held at a peer: (lane × 8 + pool) × 1024 + peer
  out : List OutFrame := []
  seq : Nat := 1                      -- SEQ of the next frame (R248)
  lastMark : Option Nat := none       -- elapsed grid ticks at the last valid MARK
  lastSyncAck : Option Nat := none    -- elapsed grid ticks at the last SYNC_ACK sent or received
  syncSeq : Nat := 0
  syncWait : List Nat := []           -- SYNC sequences not yet acknowledged
  left : Bool := false                -- TR_CMD LEAVE was carried out
  helloWait : Bool := false           -- a HELLO has reserved the buffer for its ASSIGN
  takeover : Bool := false            -- acts as manager from the next multiple of 400 ticks (R254)
  undeliv : Bool := false             -- UNDELIV is set on the published points (R263)
  lastRelay : Tab Nat := []           -- relay tick last written into each proxy
  asked : List SubEntry := []         -- verifier queries that wait for their answer
  answers : List (SubEntry × Nat) := []   -- answers to verifier queries: 0 accepted, else the reason of TR_REFUSE
  fwd : List FwdSub := []
  tenants : Tab Nat := []             -- TENANT of each remote point imported, by GPA (02 R41)
  addrs : Tab Nat := []               -- unicast address of a module's MAC: lane × 1024 + module
  drawn : Bool := false               -- SESSION has been drawn since the reset (R248)
  published : List (Nat × Nat) := []  -- at the manager: GPA and period of each point that a module reports as published
  dataSent : Bool := false            -- a DATA frame has been sent since the manager was found again (R263)
  lastGrant : Tab Nat := []           -- module that got the last request dowel of a pool (R266)
  askers : Tab Nat := []              -- sender of the frame that brought a management request, by identifier (R271)
deriving DecidableEq, Repr
/-- A receive descriptor (09 Table 4). -/
structure RxDesc where
  own : Bool := false
  buf : Nat := 0
  len : Nat := 0
  tags : Nat := 0
  cls : Nat := 0
  ctx : Nat := 0
  vid : Nat := 0
  pcp : Nat := 0
  tsNs : Nat := 0
  tsSec : Nat := 0
  frame : List Nat := []      -- the octets at BUF
deriving DecidableEq, Repr

/-- A transmit descriptor (09 Table 5). -/
structure TxDesc where
  own : Bool := false
  post : TxPost := { buf := 0, len := 0 }
  status : Nat := 0
  tsqLevel : Nat := 0
deriving DecidableEq, Repr

/-- An entry of a transmit timestamp queue (09 Table 6). -/
structure TsEntry where
  seqId : Nat
  msgType : Nat
  gap : Bool
  ring : Nat
  desc : Nat
  sec : Nat
  ns : Nat
deriving DecidableEq, Repr

/-- A MAC beside its registers. Descriptors by ring k (0 to 6) × 4096 + index. -/
structure MacState where
  rx : Tab RxDesc := []
  tx : Tab TxDesc := []
  tsq : List TsEntry := []            -- head first
  gapDue : Bool := false              -- a timestamp was discarded since the last stored entry (R299)
  tsqNote : Option Nat := none        -- elapsed grid ticks of the last TSQ overflow fault
  quanta : Nat := 0                   -- pause time set by the last PAUSE, in quanta
  deficit0 : Nat := 0                 -- deficits of TX0 and TX1, and whose turn it is (R290)
  deficit1 : Nat := 0
  turn1 : Bool := false
  los : Bool := false                 -- level at BBn_LOS (R524)
  trainDue : Bool := false            -- a training waits for LOS (R524)
  small : Nat := 0                    -- frames in the small-frame queue (R265)
  down : Bool := false                -- released from an L4 reset and not enabled since (R304)
deriving DecidableEq, Repr

/-- Counters that have shed since the last step of 100 ms (15 R498): contexts, and kinds. -/
structure ShedState where
  ctx : List Nat := []
  bb : Bool := false
  floor : Bool := false
  obs : Bool := false
  truss : Bool := false
deriving DecidableEq, Repr
/-- A DEFEXP descriptor (10 Table 1). -/
structure ExportDef where
  number : Nat := 0
  dir : Nat := 0
  usras : Bool := false
  ctx : Nat := 0
  deliver : Bool := false
  index : Nat := 0
  object : Nat := 0            -- BACnet object identifier
  cls : Nat := 0
  item : Nat := 0
  inst : Nat := 0
  units : Nat := 0
  states : Nat := 0
  maxAge : Nat := 0
  addr : Nat := 0              -- words 4 to 7 as a 128-bit number
deriving DecidableEq, Repr

/-- An observer of an export (10 R319): a BACnet COV subscription or a Usras observation, what it was last told, and the transmissions so far of
a notification that it has not acknowledged. -/
structure Observer where
  number : Nat
  client : Nat
  usras : Bool
  peer : Nat := 0              -- OSCORE Sender ID of a Usras client
  confirmed : Bool := false
  pid : Nat := 0
  lifetime : Nat := 0
  lastVal : Word := 0
  lastQ : Quality := .good
  sent : Option Nat := none
deriving DecidableEq, Repr

/-- The observation of an endpoint import (10 R326): registered, the GETs sent and not answered. -/
structure ImpObs where
  registered : Bool := false
  sent : Option Nat := none
deriving DecidableEq, Repr

/-- An OSCORE security context (10 R330): highest Partial IV, those of the window of 32, and the next Sender Sequence Number. -/
structure OscCtx where
  ctx : Nat
  peer : Nat
  high : Nat := 0
  seen : List Nat := []
  ssn : Nat := 0
  master : List Nat := []    -- Master Secret
deriving DecidableEq, Repr

/-- NE1's PTP engine (10 R333 to R336): foreign masters with their Announce counts by MAC, the Sync exchange in progress, times in ns. -/
structure PtpState where
  foreign : Tab (List (PtpAnnounce × Nat)) := []
  syncWait : Option (Nat × Nat) := none      -- sequenceId and receive time of a two-step Sync
  exch : Option Int := none                  -- receive less send time of the last Sync, not yet judged when the delay is unknown
  lastMs : Option Int := none                -- the same, of the last complete exchange
  delay : Option Int := none                 -- mean path delay
  reqSeq : Nat := 0
  reqT3 : Option (Nat × Nat) := none         -- sequenceId and send time of the last Delay_Req
  good : Nat := 0
  bad : Nat := 0
  syncSeq : Tab Nat := []
  annSeq : Tab Nat := []
  pendSet : Option (Nat × Nat) := none       -- the seconds of a pending SET_TIME, and those of the counter when it was accepted (R337)
deriving DecidableEq, Repr

/-- A datagram that waits in a context's request queue: VID and MAC of its arrival, octets of its frame (R331, 02 R69). -/
structure Waiting where
  vid : Nat
  mac : Nat
  len : Nat
deriving DecidableEq, Repr

/-- How an IP message leaves: its VID, the MAC of the request it answers, and the address of its next hop (R307, 02 R69). -/
structure Route where
  vid : Nat
  mac : Option Nat := none
  hop : Option Nat := none
deriving DecidableEq, Repr

/-- The network engines beside their registers (10). -/
structure NetState where
  defs : Tab ExportDef := []
  obs : List Observer := []
  imps : Tab ImpObs := []
  osc : List OscCtx := []                    -- most recently used first
  oscNand : List (Nat × Nat × Nat) := []     -- context, peer, stored Sender Sequence Number
  echo : Tab (List Nat) := []                -- elapsed grid ticks of recent echo replies, by context
  reqs : Tab (List Waiting) := []            -- datagrams waiting, by context × 2 + engine, oldest first (R331)
  deficit : Tab Nat := []                    -- deficit of each queue, and by engine the context whose turn it is (R331)
  turn : Tab Nat := []
  via : Option Waiting := none               -- the datagram being served (02 R69)
  dbRev : Tab Nat := []
  lastImage : Tab (Nat × Nat) := []          -- IMAGE_ID and VERSION of the last image that changed a context's exports
  ptp : PtpState := {}
deriving DecidableEq, Repr
/-- The RTC beside its registers (13 R404 to R411): the 48-bit count, the phase within a tick in fabric cycles × 256 (log 8), a pending load. -/
structure RtcState where
  count : Nat := 0
  frac : Nat := 0
  pendLoad : Option Nat := none
  pendPrev : Option Nat := none      -- the load pending before one that was written in this fabric cycle (00 R8)
  running : Bool := false
  driftFault : Option Nat := none    -- elapsed grid ticks of the last drift fault (R409)
  driftAt : Option Nat := none       -- elapsed grid ticks of the last measurement
deriving DecidableEq, Repr


/-- Kinds of map entry (11 R357). -/
inductive MapKind where
  | node | canIn | canOut | mbRead | mbWrite | gpioIn | gpioOut
deriving DecidableEq, Repr

/-- A map entry (11 R357 Table 3), with what FE keeps for an output: the value read at the latest grid tick, the value in the last request loaded,
and, for MB_WRITE, when its last request was created and whether it is owed one. -/
structure MapEntry where
  kind : MapKind := .node
  channel : Nat := 0           -- WRITER_ID of FIELD (R32): 0 to 11 CAN, 16 to 23 UART, 24 GPIO
  node : Nat := 0              -- node or station
  tenant : Nat := 0
  index : Nat := 0
  uid : Nat := 0
  hb : Nat := 0                -- heartbeat period in 100 ms
  ident : Nat := 0
  ide : Bool := false
  fdf : Bool := false
  brs : Bool := false
  addr : Nat := 0
  fn : Nat := 0
  pin : Nat := 0
  invert : Bool := false
  pos : Nat := 0
  width : Nat := 1
  signed : Bool := false
  msbFirst : Bool := false
  float : Bool := false
  dlc : Nat := 0
  scale : Word := 0
  offset : Word := 0
  period : Nat := 0
  timeout : Nat := 0
  debounce : Nat := 0
  filter : Nat := 0
  latest : Option Word := none
  loaded : Option Word := none
  createdAt : Nat := 0
  owed : Bool := false
deriving DecidableEq, Repr

/-- A CAN transmit request (R343 to R346): its frame's key, the attempts lost to errors, its frame is on the bus, it ends FLUSHED unless acknowledged;
once in a buffer, the packed octets and BRS. -/
structure CanReq where
  key : Nat
  errs : Nat := 0
  onBus : Bool := false
  flush : Bool := false
  data : List Nat := []
  brs : Bool := false
deriving DecidableEq, Repr

/-- What FE keeps for an output frame: elapsed grid ticks at its last request's creation (none: never requested), and whether it is owed one. -/
structure CanOut where
  createdAt : Option Nat := none
  owed : Bool := false
deriving DecidableEq, Repr

/-- A bound node (R354 to R356): STATE 1 absent, 2 assigned, 3 present; the time in µs of its last PRESENT. -/
structure CanNode where
  uid : Nat
  hb : Nat
  learned : Bool := false
  st : Nat := 1
  status : Nat := 0
  last : Option Nat := none
deriving DecidableEq, Repr

/-- A frame received and matched by a filter (R349). -/
structure CanRx where
  filter : Nat
  ident : Nat
  ide : Bool
  fdf : Bool
  data : List Nat
deriving DecidableEq, Repr

/-- A CAN channel beside its registers. `detect`: rate detection runs, on a nominal candidate (false) or a data candidate (true) by its code. -/
structure CanState where
  reqs : List CanReq := []            -- pending outside the buffers, in creation order
  bufs : List CanReq := []            -- the transmit buffers, at most three, in the order of entry
  frames : Tab CanOut := []           -- by frame key: identifier, IDE at bit 29, FDF at bit 30
  nodes : Tab CanNode := []
  fifo0 : List CanRx := []
  fifo1 : List CanRx := []
  off : Bool := false                 -- taken off by DISABLE, or released from an L4 reset (R368)
  leaving : Bool := false             -- DISABLE waits for the end of the frame in progress
  recovering : Bool := false
  detect : Option (Bool × Nat) := none
  ovfAt : Option Nat := none          -- elapsed grid ticks of the last receive overflow fault (R350)
deriving DecidableEq, Repr

/-- A Modbus transaction in progress (R365, R366): a write of an entry, a read group by its first entry, or the pause after a broadcast. -/
inductive MbJob where
  | write (number : Nat) | read (number : Nat) | pause
deriving DecidableEq, Repr

/-- The transaction with its station, function, octets of the request and the attempts made. -/
structure MbTrans where
  job : MbJob
  station : Nat := 0
  fn : Nat := 0
  request : List Nat := []
  attempts : Nat := 1
deriving DecidableEq, Repr

/-- A Modbus station: absent, its last exception code, attempts without a valid response. -/
structure MbStation where
  absent : Bool := false
  lastExc : Nat := 0
  timeouts : Nat := 0
deriving DecidableEq, Repr

/-- A UART beside its registers. -/
structure UartState where
  writes : List Nat := []             -- MB_WRITE entries with a pending request, in creation order
  due : List Nat := []                -- read groups due, by their first entry, earliest first
  trans : Option MbTrans := none
  deUntil : Option Nat := none        -- elapsed fabric cycles at which Un_DE is released (R362)
  stations : Tab MbStation := []
  off : Bool := false
  leaving : Bool := false
deriving DecidableEq, Repr

/-- The field buses: map entries by NUMBER, channels, UARTs. -/
structure FieldState where
  maps : Tab MapEntry := []
  can : Tab CanState := []
  uart : Tab UartState := []
deriving DecidableEq, Repr
/-- A fault entry (R480 Table 2). -/
structure FltEntry where
  det : Detector
  inst : Nat
  sev : Severity
  inj : Bool := false
  escalated : Bool := false
  rep : Nat := 0
  tick : Nat := 0
  mode : Nat := 0
  rtcClock : Bool := false
  seq : Nat := 0
  detail : Nat := 0
deriving DecidableEq, Repr

/-- An active Force injection (R491): its identity, argument, symbols, and the elapsed grid ticks at which it ends (none: at STOP). -/
structure Injection where
  det : Detector
  inst : Nat
  arg : Nat
  symbols : Nat
  endAt : Option Nat := none
  used : Bool := false      -- a condition that acts once has acted (Table 1, R494)
deriving DecidableEq, Repr

/-- The fault collector beside its registers (R480 to R488): queue and backlog, oldest first, the next SEQ, FLT_FIRST and FLT_LOST, the active
injection, and the entries SV has copied to the event log since they were first presented (R481). -/
structure FltState where
  queue : List FltEntry := []
  backlog : List FltEntry := []
  seq : Nat := 0
  first : Option FltEntry := none
  inj : Option Injection := none
  logged : List Nat := []                 -- SEQs of queued entries that SV has logged
deriving DecidableEq, Repr

/-- A waiting request: what asks, its class now, and how long it has waited (in steps of 100 ms, R450). -/
structure GovReq where
  op : GovOp
  cls : Nat
  since : Nat := 0      -- elapsed grid ticks at the request
deriving DecidableEq, Repr

/-- Where a reset stands (R460, R463, R465 to R469). -/
inductive RstPhase where
  | run | asserted | stretch | loading | loadWait | boot | recovery
deriving DecidableEq, Repr

/-- The mode record of R443 and R454: the mode and each task's and loop's state. -/
structure ModeRec where
  mode : Nat
  tasks : List (Nat × Nat) := []
  loops : List (Nat × Nat) := []
deriving DecidableEq, Repr

/-- Power, modes and reset beside their registers. -/
structure PwState where
  pendMode : Option Nat := none          -- accepted mode change, taken at the next grid tick (R442)
  dozeDue : Option Nat := none           -- elapsed grid ticks at which an entry to Doze in progress began (R446)
  grants : List GovOp := []              -- outstanding transient grants (R448)
  waiting : List GovReq := []            -- waiting requests in the governor's order (R450)
  modeRec : Option ModeRec := none       -- NAND mode record (R446, R454)
  modeDram : Option ModeRec := none      -- DRAM copy of the mode record (R443)
  fromSleep : Bool := false              -- the bring-up follows Vigil or Doze (R443)
  fromWarm : Bool := false               -- the bring-up follows an L2 reset (R443)
  failStep : Nat := 0                    -- last completed step of a power-fail sequence in progress (R454), 0 none
  phase : RstPhase := .run
  level : Nat := 0                       -- level of the reset in progress
  held : List Nat := []                  -- sources still asserted (R463)
  blocksHeld : List Nat := []            -- blocks in an L4 reset, by identifier (R473)
  domsHeld : Nat := 0                    -- domains whose blocks are all held in reset until their release, as a mask (R471)
  failAt : Nat := 0                      -- elapsed grid ticks at the power-fail warning
  vmainBack : Bool := false              -- VMAIN returned during the sequence (R454)
  vmain : Option Nat := none             -- VMAIN in mV as last reported in range (R453), which PD0 goes on reporting through a reset
  learned : Tab (Tab CanNode) := []      -- learned Roll Call bindings kept over a Doze (11 R367)
  clkErr : Tab Nat := []                 -- last measured error of each clock (R476)
  nResetLow : Bool := false              -- the module drives nRESET low (R463)
  prefB : Bool := false                  -- the NOR boot record prefers image B (R468)
  checkB : Bool := false                 -- image being checked or run
  triedOther : Bool := false
  norOk : Bool × Bool := (true, true)    -- boot images A and B pass their check
  starts : Nat × Nat := (0, 0)           -- unconfirmed starts of images A and B in Sill scratch (R468)
  configDue : Bool := false              -- SV re-admits the recorded configuration (R469)
  vio33Folded : Bool := false            -- VIO33 folded back (R515)
  landsFuse : Bool := true               -- lands in their fuse-coded state (R464)
deriving DecidableEq, Repr

/-- A Mortise slot pair (13 Table 1): materials as numbers, none for a key that holds none. -/
structure SlotPair where
  ty : Nat := 0
  active : Nat := 0
  key0 : Option Nat := none
  key1 : Option Nat := none
  yOdd0 : Bool := false
  yOdd1 : Bool := false
  binding : Nat := 0
  gen : Nat := 0
  policy : Nat := 0
  kcv0 : Nat := 0
  kcv1 : Nat := 0
deriving DecidableEq, Repr

/-- A key command that SE has accepted: requester number, operation of 13 Table 4, pair, key. -/
structure KeyCmd where
  req : Nat
  op : Nat
  pair : Nat
  key : Nat
deriving DecidableEq, Repr

/-- An active tamper loop (R424): its LFSR, and the bits it drove at its last samples, latest first. -/
structure TampLoop where
  lfsr : Nat := 0
  sent : List Bool := []
deriving DecidableEq, Repr

/-- SE, Mortise, the tamper logic and the life cycle beside their registers (13). -/
structure SeState where
  slots : Tab SlotPair := []          -- pairs that are not empty
  queue : List KeyCmd := []           -- accepted commands in order of arrival; the first is in progress (R419)
  log : Tab (List Nat) := []          -- tamper log entries (R427)
  loops : List TampLoop := [{}, {}, {}, {}]     -- active loops (R424)
  seedDue : Bool := true              -- the loops have not been seeded since an L1 or deeper reset (R424)
  by3 : Nat := 0                      -- LATCHED bits set by an event carried out as ACTION 3 (14 R444)
  nonceOk : Bool := false             -- LC_NONCE has not been used and has not lapsed (R432)
  fused : Nat := 0                    -- life-cycle fuses: 0, 1, 2 or 4 (R430)
  ownerKey : List Nat := []           -- owner key fuses, words of LC_SIG
deriving DecidableEq, Repr

/-- Corrections that the patrol scrubber has made to one word (12 R395, R396): in how many consecutive SRAM passes, the last of them, and the elapsed
grid ticks of its last DRAM corrections. -/
structure WordFix where
  passes : Nat := 0
  last : Nat := 0
  times : List Nat := []
deriving DecidableEq, Repr

/-- A dual-clock queue (R380): dowels its writer has spent, entries in it, and dowels whose return has not crossed back yet. -/
structure Dcq where
  spent : Nat := 0
  entries : Nat := 0
  back : Nat := 0
deriving DecidableEq, Repr

/-- The memories beside the MEM registers: corrected words by region × 2^33 + address, corrections and the fault raised in this hour by region, DRAM
pages that qualify for retirement, the page being copied; in NAND: the retirement map, retired blocks, erase counts, blocks queued for
refresh, image records that cannot be read. -/
structure MemState where
  fixes : Tab WordFix := []
  hour : Tab Nat := []
  hourRaised : List Nat := []
  qualify : List Nat := []
  copying : Option Nat := none
  retired : List Nat := []
  badBlocks : List Nat := []
  erases : Tab Nat := []
  refresh : List Nat := []
  twin : Option (Nat × Nat) := none   -- a refresh in progress or interrupted: the older block, and the newer one with the same records (17 R535)
  ledgerPage : Nat := 0               -- Ledger partition: pages written in the block in use, and erased blocks (R399)
  ledgerErased : Nat := 255
  dcq : Tab Dcq := []                 -- dual-clock queues by number (R380)
  lostImages : List Nat := []
  sramNow : Bool := false        -- a scrub pass or patrol commanded by MEM_CMD runs
  dramNow : Bool := false
  nandNow : Bool := false
  restage : Bool := false        -- the staging area lost a word: SV stages the change again (R392)
deriving DecidableEq, Repr
/-- A point definition (03 Table 19, DEFPT). TYPE is kept as a code: the scarf check rejects 6 and 7. -/
structure PointDef where
  ty : Nat := 0
  tenant : Nat := 0
  refresh : Nat := 0
  initial : Word := 0
  cov : Word := 0
deriving DecidableEq, Repr

/-- An admitted task as the configuration holds it (03 Table 19, ADMIT). -/
structure Admission where
  dfn : TaskDef := {}
  start : Bool := false
deriving DecidableEq, Repr

/-- The definitions of a configuration: what a scarf commit changes beside register fields (05 R139). Circuits and loops hold their tenant, a
group's is beside it. -/
structure Defs where
  points : Tab PointDef := []
  loops : Tab LoopDef := []
  groups : Tab (Group × Nat) := []
  circs : Tab CircDef := []
  maps : Tab MapEntry := []
  exports : Tab ExportDef := []
  tasks : Tab Admission := []
deriving DecidableEq, Repr

/-- A staged item (03 R103, R104): its descriptor (none: DELDEF), the tenant that staged it, and for ADMIT the task. -/
structure Staged where
  words : Option (List Nat) := none
  tenant : Nat := 0
  task : Option TaskDef := none
deriving DecidableEq, Repr

/-- What the images of a change have staged so far: items by KIND × 65,536 + NUMBER, the last word for each register that a definition or a
system write names, and the system writes in program order. -/
structure Staging where
  items : Tab Staged := []
  words : Tab Nat := []
  writes : List (Nat × Nat) := []
deriving DecidableEq, Repr

/-- A change in the submission queue (05 R141, R142): its identifier, images, the tenant it counts against, the commit tick asked for, the request
to answer (identifier, tenant), and for an estate change its manager, DEPART_POLICY, the tick that an OUTCOME named (R157), and
on the manager that coordinates it the participants with their images. -/
structure Change where
  id : Nat := 0
  images : List Image := []
  tenant : Nat := 0
  tick : Option Nat := none
  request : Option (Nat × Nat) := none
  estate : Bool := false
  manager : Nat := 0
  policy : Bool := false
  late : Option Nat := none
  parts : List (Nat × List Image) := []
deriving DecidableEq, Repr

/-- A participant as the coordinating manager keeps it (05 R154 to R156): its READY code, its ACK, excluded. -/
structure Participant where
  module_ : Nat
  images : List Image := []
  ready : Option Nat := none
  acked : Bool := false
  excluded : Bool := false
deriving DecidableEq, Repr

/-- The estate change that this manager coordinates: elapsed grid ticks at the OFFER, T once ARM is sent, the decision once taken, its OUTCOME here, the
SYNC that records it with the standby, and whether it has been sent (05 R154 to R158); the management request still to be answered, with the verifier's
records of the manager's own images. -/
structure Coord where
  id : Nat
  policy : Bool := false
  parts : List Participant := []
  offered : Nat := 0
  target : Option Nat := none
  decided : Option Bool := none
  outcome : Nat := 0
  sync : Option Nat := none
  sent : Bool := false
  request : Option (Nat × Nat) := none
  recs : List Nat := []
deriving DecidableEq, Repr

/-- A participant of a decided change (05 R157) that is not known to have it: the decision, the images sent again with GO, whether it was away or
excluded, the commit tick, and whether an OUTCOME has gone to it since it was last found. -/
structure Unresolved where
  module_ : Nat
  change : Nat
  go : Bool
  images : List Image := []
  away : Bool := true
  tick : Nat := 0
  told : Bool := false
deriving DecidableEq, Repr

/-- A configuration record of NAND (05 R160): definitions, the staged register fields as `regs` holds them, the estate changes that it holds. -/
structure ConfigRec where
  defs : Defs := {}
  regs : List (Nat × Nat) := []
  applied : List Nat := []
deriving DecidableEq, Repr

/-- The scarf beside its registers. The head of the queue is the change in hand while SCF_STATE.STATE is not IDLE. `versions` (tenant, image,
highest VERSION), `stored` (image records) and `nand` are NAND records (R75, R76, R160). -/
structure ScarfState where
  queue : List Change := []
  staging : Staging := {}
  jtasks : List TaskDef := []            -- tasks of the image whose joinery runs
  target : Nat := 0
  loses : Bool := false                  -- the change in hand clears COHERENT on a task
  defs : Defs := {}                      -- the definitions in effect
  nand : Option ConfigRec := none
  nandDue : Bool := false                -- a commit has not been written to NAND yet
  applied : List Nat := []               -- identifiers of the estate changes in effect, newest first (R157, R160)
  versions : List (Nat × Nat × Nat) := []
  stored : Tab (Nat × Nat × List Nat × List Nat) := []   -- image record number to tenant, image, its octets and its tag (13 R417)
  view : Option (List (Nat × Nat) × Tab PtRec) := none   -- grants and records as they will stand after the estate change in hand (R145)
  readyAt : Option Nat := none           -- elapsed grid ticks at the READY of the change in hand
  decisions : List Decision := []        -- decisions recorded with this standby (R158)
  offers : List (Nat × List Nat) := []   -- estate changes offered and not decided, with their participants, as this standby knows them
  coord : Option Coord := none
  unresolved : List Unresolved := []
  lastCommit : Option Nat := none        -- elapsed fabric cycles at the last applied commit (R144: an ABORT of that cycle is too late)
deriving DecidableEq, Repr
/-- What the module sends or hands out: one constructor per kind of output. -/
inductive Msg where
  | ptStatus (port : Nat) (index : Nat) (st : PtStatus)        -- status of a point-table access (R46)
  | event (e : EventRec)                                       -- an event record written to the DRAM event log (R101)
  | faultLog (e : FltEntry)                                    -- a fault entry copied to the event log (R481)
  | bacnet (ctx client : Nat) (out : Route) (invoke : Nat) (what : String) (vals : List PropVal)  -- a BACnet answer or notification (10 R313 to R319)
  | note (text : String) (args : List Nat)                     -- any other record or message, by name and fields
deriving DecidableEq, Repr

/-- The state of the module. -/
structure State where
  regs : List (Nat × Nat) := []        -- register fields by key, canonical: rising keys, no entry at its reset value
  tick : Nat := 0                      -- 48-bit grid tick number (R109)
  mono : Nat := 0                      -- grid ticks elapsed, never stepped
  fc : Nat := 0                        -- fabric cycles since the grid tick
  el : Nat := 0                        -- fabric cycles elapsed, never stepped
  gridAcc : Nat := 0                   -- the grid's rate correction not yet applied, in 10^-8 of a fabric cycle (08 R256)
  freeCtr : Nat := 0                   -- the model's own: number of free values used (log 4)
  sent : List Msg := []                -- messages sent, newest first
  reply : List Nat := []               -- what the last read or request returned
  evlog : List Msg := []               -- the DRAM event log, newest first
  flt : FltState := {}
  pw : PwState := {}
  pt : PtState := {}
  tasks : Tab Task := []               -- key engine × 8 + slot
  trends : Tab (List (List TrendEntry)) := []  -- DRAM trend logs of each task, oldest entry first, by the task's key (R101, 01 R19)
  jrun : Run := {}                    -- the joinery run: SV's locals and flags (R539)
  rtc : RtcState := {}
  shadows : Tab (List Nat) := []       -- open shadows of RS registers, by register group and requester (R538)
  loops : Tab Loop := []               -- defined loops by number (R162)
  groups : Tab Group := []             -- competition groups by number
  sub : Nat := 0                       -- sub-ticks of the present grid tick that have passed, 0 to 4 (R25, R163)
  subEl : Nat := 0                     -- sub-ticks elapsed, never stepped
  me : MeState := {}
  tr : TrState := {}
  tc : TimeCtr := {}                   -- the NE time counter (10 R337)
  macs : Tab MacState := []
  neArea : Nat := 0                    -- buffers of the network engines' area in use (12 R385)
  shed : ShedState := {}
  se : SeState := {}
  net : NetState := {}
  field : FieldState := {}
  lands : Tab Bool := []               -- levels applied from outside at GPIO lands that something drives (16 R530)
  mem : MemState := {}
  scf : ScarfState := {}
  cyc : CycleState := {}               -- the present fabric cycle
  timers : Tab Nat := []               -- elapsed fabric cycles at the start of each running time, by its key (Ops)
  --FIELDS
  pending : List Instr := []
deriving DecidableEq, Repr

/-- Right after a Sill power-on reset: every register at its reset value (log 6), every list empty, mode Bring-up (R474), no command waiting; the SILL rail
has risen, so the RTC counts, the stretch of R463 runs, and PD2 and PD3 wait for their pegs (R469). -/
def State.reset : State :=
  { rtc := { running := true },
    pw := { phase := .stretch, level := 0, nResetLow := true, waiting := [{ op := .domain 2, cls := 1 }, { op := .domain 3, cls := 1 }] } }

end Sys2Proof.Machine
end

