-- ==== Sys2Proof/Machine/RegMap.lean ====
section
/-! DEFINITION. Machine/RegMap.lean: the system registers of spec/ (bases R4, access codes R6, reset levels R10): one accessor
per register field, and the map from addresses to fields. Every line is written from the register table of the chapter its rule names. -/

namespace Sys2Proof.Machine

/-- 09_frame_macs.md R305: the reset value of MACn_CFG.RX_PAUSE_EN, 0 on BB0 and BB1, 1 on FL0 to FL3. -/
def macRxPauseReset (n : Nat) : Nat := if n < 2 then 0 else 1
/-- 09_frame_macs.md R305: MACn_ID.KIND, fixed: MACs 0 and 1 are BB, 2 to 5 are FL. -/
def macKind (n : Nat) : Nat := if n < 2 then 0 else 1
/-- 09_frame_macs.md R305: MACn_ID.INDEX, fixed. -/
def macIndex (n : Nat) : Nat := n
/-- 08_truss_hierarchy.md Table 3: buffers of dowel pool `p` at a worker, the role before any other is active. -/
def poolSize (p : Nat) : Nat := [256, 32, 32, 32, 32].getD p 0


namespace Fld

/-- 00_scope.md R2 FUSE_ID.PART. -/
abbrev FUSE_ID_PART : RF := ⟨6291456, 16, 16, 23574, 1⟩
/-- 00_scope.md R2 FUSE_ID.STEP_LETTER. -/
abbrev FUSE_ID_STEP_LETTER : RF := ⟨6291456, 12, 4, 2, 1⟩
/-- 00_scope.md R2 FUSE_ID.STEP_DIGIT. -/
abbrev FUSE_ID_STEP_DIGIT : RF := ⟨6291456, 8, 4, 0, 1⟩
/-- 00_scope.md R2 FUSE_ID.VARIANT. -/
abbrev FUSE_ID_VARIANT : RF := ⟨6291456, 0, 8, 0, 1⟩
/-- 02_points_and_tenancy.md R71 PT_COUNT.DEFINED. -/
abbrev PT_COUNT_DEFINED : RF := ⟨2097152, 0, 17, 0, 2⟩
/-- 02_points_and_tenancy.md R71 PT_FCOUNT.FORCED. -/
abbrev PT_FCOUNT_FORCED : RF := ⟨2097156, 0, 17, 0, 2⟩
/-- 02_points_and_tenancy.md R71 PT_USEC.USEC. -/
abbrev PT_USEC_USEC : RF := ⟨2097160, 0, 32, 0, 2⟩
/-- 02_points_and_tenancy.md R71 PT_STALE.LATCHED. -/
abbrev PT_STALE_LATCHED : RF := ⟨2097180, 0, 17, 0, 2⟩
/-- 02_points_and_tenancy.md R71 PT_LOST.COUNT. -/
abbrev PT_LOST_COUNT : RF := ⟨2097164, 0, 16, 0, 3⟩
/-- 02_points_and_tenancy.md R71 PT_LOST.LAST_PORT. -/
abbrev PT_LOST_LAST_PORT : RF := ⟨2097164, 16, 4, 0, 3⟩
/-- 02_points_and_tenancy.md R71 PT_LOST.CLEAR. -/
abbrev PT_LOST_CLEAR : RF := ⟨2097164, 31, 1, 0, 3⟩
/-- 02_points_and_tenancy.md R71 PT_DENY.COUNT. -/
abbrev PT_DENY_COUNT : RF := ⟨2097168, 0, 16, 0, 3⟩
/-- 02_points_and_tenancy.md R71 PT_DENY.LAST_PORT. -/
abbrev PT_DENY_LAST_PORT : RF := ⟨2097168, 16, 4, 0, 3⟩
/-- 02_points_and_tenancy.md R71 PT_DENY.REASON. -/
abbrev PT_DENY_REASON : RF := ⟨2097168, 20, 3, 0, 3⟩
/-- 02_points_and_tenancy.md R71 PT_DENY.CLEAR. -/
abbrev PT_DENY_CLEAR : RF := ⟨2097168, 31, 1, 0, 3⟩
/-- 02_points_and_tenancy.md R71 PT_DENY_IDX.INDEX. -/
abbrev PT_DENY_IDX_INDEX : RF := ⟨2097172, 0, 16, 0, 3⟩
/-- 02_points_and_tenancy.md R71 PT_SWEEP.LAST_MS. -/
abbrev PT_SWEEP_LAST_MS : RF := ⟨2097176, 0, 16, 0, 2⟩
/-- 02_points_and_tenancy.md R71 PT_FCMD.INDEX. -/
abbrev PT_FCMD_INDEX : RF := ⟨2097184, 0, 16, 0, 3⟩
/-- 02_points_and_tenancy.md R71 PT_FCMD.OP. -/
abbrev PT_FCMD_OP : RF := ⟨2097184, 16, 2, 0, 3⟩
/-- 02_points_and_tenancy.md R71 PT_FCMD.RESULT. -/
abbrev PT_FCMD_RESULT : RF := ⟨2097184, 18, 2, 0, 3⟩
/-- 02_points_and_tenancy.md R71 PT_FCMD.BUSY. -/
abbrev PT_FCMD_BUSY : RF := ⟨2097184, 30, 1, 0, 3⟩
/-- 02_points_and_tenancy.md R71 PT_FCMD.GO. -/
abbrev PT_FCMD_GO : RF := ⟨2097184, 31, 1, 0, 3⟩
/-- 02_points_and_tenancy.md R71 PT_FVAL.VALUE. -/
abbrev PT_FVAL_VALUE : RF := ⟨2097188, 0, 32, 0, 3⟩
/-- 02_points_and_tenancy.md R71 PT_FTEN.TENANT. -/
abbrev PT_FTEN_TENANT : RF := ⟨2097192, 0, 12, 4095, 3⟩
/-- 02_points_and_tenancy.md R71 PT_CTX.TENANT. -/
abbrev PT_CTX_TENANT (n : Nat) : RF := ⟨2097408 + 4 * n, 0, 12, 0, 2⟩
/-- 02_points_and_tenancy.md R71 PT_CTX.NE. -/
abbrev PT_CTX_NE (n : Nat) : RF := ⟨2097408 + 4 * n, 12, 2, 0, 2⟩
/-- 02_points_and_tenancy.md R71 PT_CTX.TX_VID. -/
abbrev PT_CTX_TX_VID (n : Nat) : RF := ⟨2097408 + 4 * n, 16, 12, 0, 2⟩
/-- 02_points_and_tenancy.md R71 PT_CTX.VALID. -/
abbrev PT_CTX_VALID (n : Nat) : RF := ⟨2097408 + 4 * n, 31, 1, 0, 2⟩
/-- 02_points_and_tenancy.md R71 PT_GRANT_RNG.LOW. -/
abbrev PT_GRANT_RNG_LOW (n : Nat) : RF := ⟨2101248 + 8 * n, 0, 16, 0, 2⟩
/-- 02_points_and_tenancy.md R71 PT_GRANT_RNG.HIGH. -/
abbrev PT_GRANT_RNG_HIGH (n : Nat) : RF := ⟨2101248 + 8 * n, 16, 16, 0, 2⟩
/-- 02_points_and_tenancy.md R71 PT_GRANT_ACC.OWNER. -/
abbrev PT_GRANT_ACC_OWNER (n : Nat) : RF := ⟨2101252 + 8 * n, 0, 12, 0, 2⟩
/-- 02_points_and_tenancy.md R71 PT_GRANT_ACC.READ. -/
abbrev PT_GRANT_ACC_READ (n : Nat) : RF := ⟨2101252 + 8 * n, 12, 1, 0, 2⟩
/-- 02_points_and_tenancy.md R71 PT_GRANT_ACC.WRITE. -/
abbrev PT_GRANT_ACC_WRITE (n : Nat) : RF := ⟨2101252 + 8 * n, 13, 1, 0, 2⟩
/-- 02_points_and_tenancy.md R71 PT_GRANT_ACC.FORCE. -/
abbrev PT_GRANT_ACC_FORCE (n : Nat) : RF := ⟨2101252 + 8 * n, 14, 1, 0, 2⟩
/-- 02_points_and_tenancy.md R71 PT_GRANT_ACC.EXPORT. -/
abbrev PT_GRANT_ACC_EXPORT (n : Nat) : RF := ⟨2101252 + 8 * n, 15, 1, 0, 2⟩
/-- 02_points_and_tenancy.md R71 PT_GRANT_ACC.GRANTEE. -/
abbrev PT_GRANT_ACC_GRANTEE (n : Nat) : RF := ⟨2101252 + 8 * n, 16, 12, 0, 2⟩
/-- 02_points_and_tenancy.md R71 PT_GRANT_ACC.VALID. -/
abbrev PT_GRANT_ACC_VALID (n : Nat) : RF := ⟨2101252 + 8 * n, 31, 1, 0, 2⟩
/-- 02_points_and_tenancy.md R71 PT_VID.CTX. -/
abbrev PT_VID_CTX (n : Nat) : RF := ⟨2113536 + 4 * n, 0, 6, 0, 2⟩
/-- 02_points_and_tenancy.md R71 PT_VID.MAC_MASK. -/
abbrev PT_VID_MAC_MASK (n : Nat) : RF := ⟨2113536 + 4 * n, 6, 4, 0, 2⟩
/-- 02_points_and_tenancy.md R71 PT_VID.VALID. -/
abbrev PT_VID_VALID (n : Nat) : RF := ⟨2113536 + 4 * n, 15, 1, 0, 2⟩
/-- 04_cyclic_execution.md R138 LE_GRID_LO.TICK_LO. -/
abbrev LE_GRID_LO_TICK_LO : RF := ⟨2162688, 0, 32, 0, 1⟩
/-- 04_cyclic_execution.md R138 LE_GRID_HI.TICK_HI. -/
abbrev LE_GRID_HI_TICK_HI : RF := ⟨2162692, 0, 16, 0, 1⟩
/-- 04_cyclic_execution.md R138 LE_GSTAT.STEERED. -/
abbrev LE_GSTAT_STEERED : RF := ⟨2162696, 0, 1, 0, 1⟩
/-- 04_cyclic_execution.md R138 LE_GSTAT.EXPRESS. -/
abbrev LE_GSTAT_EXPRESS : RF := ⟨2162696, 1, 3, 0, 2⟩
/-- 04_cyclic_execution.md R138 LE_GSTAT.HOLD. -/
abbrev LE_GSTAT_HOLD : RF := ⟨2162696, 4, 1, 0, 2⟩
/-- 04_cyclic_execution.md R138 LE_GSTAT.STEPS. -/
abbrev LE_GSTAT_STEPS : RF := ⟨2162696, 8, 8, 0, 1⟩
/-- 04_cyclic_execution.md R138 LE_E_UTIL.UTIL. -/
abbrev LE_E_UTIL_UTIL (e : Nat) : RF := ⟨2162944 + 16 * e, 0, 16, 0, 2⟩
/-- 04_cyclic_execution.md R138 LE_E_UTIL.CLOCK. -/
abbrev LE_E_UTIL_CLOCK (e : Nat) : RF := ⟨2162944 + 16 * e, 16, 2, 1, 1⟩
/-- 04_cyclic_execution.md R138 LE_E_UTIL.EXPRESS_HELD. -/
abbrev LE_E_UTIL_EXPRESS_HELD (e : Nat) : RF := ⟨2162944 + 16 * e, 18, 1, 0, 2⟩
/-- 04_cyclic_execution.md R138 LE_E_UTIL.GATED. -/
abbrev LE_E_UTIL_GATED (e : Nat) : RF := ⟨2162944 + 16 * e, 19, 1, 0, 3⟩
/-- 04_cyclic_execution.md R138 LE_E_STAT.SLOT. -/
abbrev LE_E_STAT_SLOT (e : Nat) : RF := ⟨2162948 + 16 * e, 0, 3, 0, 3⟩
/-- 04_cyclic_execution.md R138 LE_E_STAT.ACTIVITY. -/
abbrev LE_E_STAT_ACTIVITY (e : Nat) : RF := ⟨2162948 + 16 * e, 4, 2, 0, 3⟩
/-- 04_cyclic_execution.md R138 LE_E_STAT.PREEMPTS. -/
abbrev LE_E_STAT_PREEMPTS (e : Nat) : RF := ⟨2162948 + 16 * e, 16, 16, 0, 2⟩
/-- 04_cyclic_execution.md R138 LE_T_CFG.PERIOD_N. -/
abbrev LE_T_CFG_PERIOD_N (e s : Nat) : RF := ⟨2166784 + 512 * e + 64 * s, 0, 16, 0, 2⟩
/-- 04_cyclic_execution.md R138 LE_T_CFG.OVERRUN_LIMIT. -/
abbrev LE_T_CFG_OVERRUN_LIMIT (e s : Nat) : RF := ⟨2166784 + 512 * e + 64 * s, 16, 4, 0, 2⟩
/-- 04_cyclic_execution.md R138 LE_T_CFG.EXPRESS. -/
abbrev LE_T_CFG_EXPRESS (e s : Nat) : RF := ⟨2166784 + 512 * e + 64 * s, 20, 1, 0, 2⟩
/-- 04_cyclic_execution.md R138 LE_T_CFG.COHERENT. -/
abbrev LE_T_CFG_COHERENT (e s : Nat) : RF := ⟨2166784 + 512 * e + 64 * s, 21, 1, 0, 2⟩
/-- 04_cyclic_execution.md R138 LE_T_CFG.VALID. -/
abbrev LE_T_CFG_VALID (e s : Nat) : RF := ⟨2166784 + 512 * e + 64 * s, 31, 1, 0, 2⟩
/-- 04_cyclic_execution.md R138 LE_T_ID.TENANT. -/
abbrev LE_T_ID_TENANT (e s : Nat) : RF := ⟨2166788 + 512 * e + 64 * s, 0, 12, 0, 2⟩
/-- 04_cyclic_execution.md R138 LE_T_ID.TASK_NO. -/
abbrev LE_T_ID_TASK_NO (e s : Nat) : RF := ⟨2166788 + 512 * e + 64 * s, 16, 6, 0, 2⟩
/-- 04_cyclic_execution.md R138 LE_T_IMAGE.IMAGE_ID. -/
abbrev LE_T_IMAGE_IMAGE_ID (e s : Nat) : RF := ⟨2166792 + 512 * e + 64 * s, 0, 32, 0, 2⟩
/-- 04_cyclic_execution.md R138 LE_T_STATE.STATE. -/
abbrev LE_T_STATE_STATE (e s : Nat) : RF := ⟨2166796 + 512 * e + 64 * s, 0, 2, 0, 2⟩
/-- 04_cyclic_execution.md R138 LE_T_STATE.OVR_CONSEC. -/
abbrev LE_T_STATE_OVR_CONSEC (e s : Nat) : RF := ⟨2166796 + 512 * e + 64 * s, 2, 4, 0, 3⟩
/-- 04_cyclic_execution.md R138 LE_T_STATE.STOP_CAUSE. -/
abbrev LE_T_STATE_STOP_CAUSE (e s : Nat) : RF := ⟨2166796 + 512 * e + 64 * s, 6, 3, 0, 2⟩
/-- 04_cyclic_execution.md R138 LE_T_STATE.STEP_PEND. -/
abbrev LE_T_STATE_STEP_PEND (e s : Nat) : RF := ⟨2166796 + 512 * e + 64 * s, 9, 1, 0, 3⟩
/-- 04_cyclic_execution.md R138 LE_T_STATE.IN_CYCLE. -/
abbrev LE_T_STATE_IN_CYCLE (e s : Nat) : RF := ⟨2166796 + 512 * e + 64 * s, 10, 1, 0, 3⟩
/-- 04_cyclic_execution.md R138 LE_T_STATE.RESUME. -/
abbrev LE_T_STATE_RESUME (e s : Nat) : RF := ⟨2166796 + 512 * e + 64 * s, 11, 1, 0, 2⟩
/-- 04_cyclic_execution.md R138 LE_T_STATE.HOLD_MODE. -/
abbrev LE_T_STATE_HOLD_MODE (e s : Nat) : RF := ⟨2166796 + 512 * e + 64 * s, 12, 1, 0, 3⟩
/-- 04_cyclic_execution.md R138 LE_T_CMD.OP. -/
abbrev LE_T_CMD_OP (e s : Nat) : RF := ⟨2166800 + 512 * e + 64 * s, 0, 3, 0, 3⟩
/-- 04_cyclic_execution.md R138 LE_T_CMD.RESULT. -/
abbrev LE_T_CMD_RESULT (e s : Nat) : RF := ⟨2166800 + 512 * e + 64 * s, 4, 2, 0, 3⟩
/-- 04_cyclic_execution.md R138 LE_T_CMD.BUSY. -/
abbrev LE_T_CMD_BUSY (e s : Nat) : RF := ⟨2166800 + 512 * e + 64 * s, 30, 1, 0, 3⟩
/-- 04_cyclic_execution.md R138 LE_T_CMD.GO. -/
abbrev LE_T_CMD_GO (e s : Nat) : RF := ⟨2166800 + 512 * e + 64 * s, 31, 1, 0, 3⟩
/-- 04_cyclic_execution.md R138 LE_T_BOUND.COST. -/
abbrev LE_T_BOUND_COST (e s : Nat) : RF := ⟨2166804 + 512 * e + 64 * s, 0, 32, 0, 2⟩
/-- 04_cyclic_execution.md R138 LE_T_SNAPBND.BOUND. -/
abbrev LE_T_SNAPBND_BOUND (e s : Nat) : RF := ⟨2166840 + 512 * e + 64 * s, 0, 32, 0, 2⟩
/-- 04_cyclic_execution.md R138 LE_T_LASTCOST.CYCLES. -/
abbrev LE_T_LASTCOST_CYCLES (e s : Nat) : RF := ⟨2166808 + 512 * e + 64 * s, 0, 32, 0, 3⟩
/-- 04_cyclic_execution.md R138 LE_T_MAXCOST.MAX. -/
abbrev LE_T_MAXCOST_MAX (e s : Nat) : RF := ⟨2166812 + 512 * e + 64 * s, 0, 31, 0, 3⟩
/-- 04_cyclic_execution.md R138 LE_T_MAXCOST.CLEAR. -/
abbrev LE_T_MAXCOST_CLEAR (e s : Nat) : RF := ⟨2166812 + 512 * e + 64 * s, 31, 1, 0, 3⟩
/-- 04_cyclic_execution.md R138 LE_T_RELEASES.COUNT. -/
abbrev LE_T_RELEASES_COUNT (e s : Nat) : RF := ⟨2166816 + 512 * e + 64 * s, 0, 32, 0, 2⟩
/-- 04_cyclic_execution.md R138 LE_T_OVERRUNS.DROPPED. -/
abbrev LE_T_OVERRUNS_DROPPED (e s : Nat) : RF := ⟨2166820 + 512 * e + 64 * s, 0, 16, 0, 2⟩
/-- 04_cyclic_execution.md R138 LE_T_OVERRUNS.COST_EXCEED. -/
abbrev LE_T_OVERRUNS_COST_EXCEED (e s : Nat) : RF := ⟨2166820 + 512 * e + 64 * s, 16, 16, 0, 2⟩
/-- 04_cyclic_execution.md R138 LE_T_FLAGS.LAST. -/
abbrev LE_T_FLAGS_LAST (e s : Nat) : RF := ⟨2166824 + 512 * e + 64 * s, 0, 6, 0, 3⟩
/-- 04_cyclic_execution.md R138 LE_T_FLAGS.STICKY. -/
abbrev LE_T_FLAGS_STICKY (e s : Nat) : RF := ⟨2166824 + 512 * e + 64 * s, 16, 6, 0, 3⟩
/-- 04_cyclic_execution.md R138 LE_T_EVDROP.COUNT. -/
abbrev LE_T_EVDROP_COUNT (e s : Nat) : RF := ⟨2166828 + 512 * e + 64 * s, 0, 16, 0, 2⟩
/-- 04_cyclic_execution.md R138 LE_T_LASTREL.TIME. -/
abbrev LE_T_LASTREL_TIME (e s : Nat) : RF := ⟨2166832 + 512 * e + 64 * s, 0, 32, 0, 3⟩
/-- 04_cyclic_execution.md R138 LE_T_SNAP.LAST_END. -/
abbrev LE_T_SNAP_LAST_END (e s : Nat) : RF := ⟨2166836 + 512 * e + 64 * s, 0, 16, 0, 3⟩
/-- 04_cyclic_execution.md R138 LE_T_SNAP.MAX_END. -/
abbrev LE_T_SNAP_MAX_END (e s : Nat) : RF := ⟨2166836 + 512 * e + 64 * s, 16, 16, 0, 3⟩
/-- 04_cyclic_execution.md R138 LE_T_RESP.MAX_US. -/
abbrev LE_T_RESP_MAX_US (e s : Nat) : RF := ⟨2166844 + 512 * e + 64 * s, 0, 32, 0, 3⟩
/-- 05_scarf_staged_change.md R161 SCF_STATE.STATE. -/
abbrev SCF_STATE_STATE : RF := ⟨1310720, 0, 3, 0, 3⟩
/-- 05_scarf_staged_change.md R161 SCF_STATE.ESTATE. -/
abbrev SCF_STATE_ESTATE : RF := ⟨1310720, 3, 1, 0, 3⟩
/-- 05_scarf_staged_change.md R161 SCF_STATE.LOCKED. -/
abbrev SCF_STATE_LOCKED : RF := ⟨1310720, 4, 1, 0, 3⟩
/-- 05_scarf_staged_change.md R161 SCF_STATE.IMAGES. -/
abbrev SCF_STATE_IMAGES : RF := ⟨1310720, 8, 4, 0, 3⟩
/-- 05_scarf_staged_change.md R161 SCF_STATE.RECORDS. -/
abbrev SCF_STATE_RECORDS : RF := ⟨1310720, 16, 14, 0, 3⟩
/-- 05_scarf_staged_change.md R161 SCF_CMD.OP. -/
abbrev SCF_CMD_OP : RF := ⟨1310724, 0, 3, 0, 3⟩
/-- 05_scarf_staged_change.md R161 SCF_CMD.RESULT. -/
abbrev SCF_CMD_RESULT : RF := ⟨1310724, 4, 2, 0, 3⟩
/-- 05_scarf_staged_change.md R161 SCF_CMD.BUSY. -/
abbrev SCF_CMD_BUSY : RF := ⟨1310724, 30, 1, 0, 3⟩
/-- 05_scarf_staged_change.md R161 SCF_CMD.GO. -/
abbrev SCF_CMD_GO : RF := ⟨1310724, 31, 1, 0, 3⟩
/-- 05_scarf_staged_change.md R161 SCF_RESULT.CODE. -/
abbrev SCF_RESULT_CODE : RF := ⟨1310728, 0, 8, 0, 2⟩
/-- 05_scarf_staged_change.md R161 SCF_RESULT.SOURCE. -/
abbrev SCF_RESULT_SOURCE : RF := ⟨1310728, 8, 8, 255, 2⟩
/-- 05_scarf_staged_change.md R161 SCF_RESULT.OUTCOME. -/
abbrev SCF_RESULT_OUTCOME : RF := ⟨1310728, 16, 3, 0, 2⟩
/-- 05_scarf_staged_change.md R161 SCF_RESULT.UNSTEERED. -/
abbrev SCF_RESULT_UNSTEERED : RF := ⟨1310728, 19, 1, 0, 2⟩
/-- 05_scarf_staged_change.md R161 SCF_RESULT.COHERENCE_LOST. -/
abbrev SCF_RESULT_COHERENCE_LOST : RF := ⟨1310728, 20, 1, 0, 2⟩
/-- 05_scarf_staged_change.md R161 SCF_DETAIL.DETAIL. -/
abbrev SCF_DETAIL_DETAIL : RF := ⟨1310732, 0, 32, 0, 2⟩
/-- 05_scarf_staged_change.md R161 SCF_TICK_LO.TARGET_LO. -/
abbrev SCF_TICK_LO_TARGET_LO : RF := ⟨1310736, 0, 32, 0, 3⟩
/-- 05_scarf_staged_change.md R161 SCF_TICK_HI.TARGET_HI. -/
abbrev SCF_TICK_HI_TARGET_HI : RF := ⟨1310740, 0, 16, 0, 3⟩
/-- 05_scarf_staged_change.md R161 SCF_ARMED_LO.ARMED_LO. -/
abbrev SCF_ARMED_LO_ARMED_LO : RF := ⟨1310744, 0, 32, 0, 3⟩
/-- 05_scarf_staged_change.md R161 SCF_ARMED_HI.ARMED_HI. -/
abbrev SCF_ARMED_HI_ARMED_HI : RF := ⟨1310748, 0, 16, 0, 3⟩
/-- 05_scarf_staged_change.md R161 SCF_LAST_LO.LAST_LO. -/
abbrev SCF_LAST_LO_LAST_LO : RF := ⟨1310752, 0, 32, 0, 2⟩
/-- 05_scarf_staged_change.md R161 SCF_LAST_HI.LAST_HI. -/
abbrev SCF_LAST_HI_LAST_HI : RF := ⟨1310756, 0, 16, 0, 2⟩
/-- 05_scarf_staged_change.md R161 SCF_CHANGE_ID.ID. -/
abbrev SCF_CHANGE_ID_ID : RF := ⟨1310760, 0, 32, 0, 2⟩
/-- 05_scarf_staged_change.md R161 SCF_QUEUE.DEPTH. -/
abbrev SCF_QUEUE_DEPTH : RF := ⟨1310764, 0, 5, 0, 3⟩
/-- 05_scarf_staged_change.md R161 SCF_QUEUE.REFUSED. -/
abbrev SCF_QUEUE_REFUSED : RF := ⟨1310764, 16, 16, 0, 2⟩
/-- 05_scarf_staged_change.md R161 SCF_STAT.COMMITS. -/
abbrev SCF_STAT_COMMITS : RF := ⟨1310768, 0, 16, 0, 2⟩
/-- 05_scarf_staged_change.md R161 SCF_STAT.LATE. -/
abbrev SCF_STAT_LATE : RF := ⟨1310768, 16, 8, 0, 2⟩
/-- 05_scarf_staged_change.md R161 SCF_STAT.LOCK_REFUSALS. -/
abbrev SCF_STAT_LOCK_REFUSALS : RF := ⟨1310768, 24, 8, 0, 2⟩
/-- 05_scarf_staged_change.md R161 SCF_ESTATE.PARTICIPANTS. -/
abbrev SCF_ESTATE_PARTICIPANTS : RF := ⟨1310772, 0, 9, 0, 3⟩
/-- 05_scarf_staged_change.md R161 SCF_ESTATE.ACKED. -/
abbrev SCF_ESTATE_ACKED : RF := ⟨1310772, 16, 9, 0, 3⟩
/-- 05_scarf_staged_change.md R161 SCF_ESTATE.DEPART_POLICY. -/
abbrev SCF_ESTATE_DEPART_POLICY : RF := ⟨1310772, 28, 1, 0, 3⟩
/-- 05_scarf_staged_change.md R161 SCF_ESTATE.GO_HELD. -/
abbrev SCF_ESTATE_GO_HELD : RF := ⟨1310772, 29, 1, 0, 3⟩
/-- 05_scarf_staged_change.md R161 SCF_ESTATE.DECIDED. -/
abbrev SCF_ESTATE_DECIDED : RF := ⟨1310772, 30, 1, 0, 3⟩
/-- 05_scarf_staged_change.md R161 SCF_ESTATE.COORD. -/
abbrev SCF_ESTATE_COORD : RF := ⟨1310772, 31, 1, 0, 3⟩
/-- 06_loop_engines.md R193 LP_E_UTIL.UTIL. -/
abbrev LP_E_UTIL_UTIL (e : Nat) : RF := ⟨2228224 + 16 * e, 0, 16, 0, 2⟩
/-- 06_loop_engines.md R193 LP_E_UTIL.CLOCK. -/
abbrev LP_E_UTIL_CLOCK (e : Nat) : RF := ⟨2228224 + 16 * e, 16, 2, 1, 1⟩
/-- 06_loop_engines.md R193 LP_E_UTIL.IDLE. -/
abbrev LP_E_UTIL_IDLE (e : Nat) : RF := ⟨2228224 + 16 * e, 28, 1, 1, 4⟩
/-- 06_loop_engines.md R193 LP_E_STAT.LOOPS. -/
abbrev LP_E_STAT_LOOPS (e : Nat) : RF := ⟨2228228 + 16 * e, 0, 12, 0, 2⟩
/-- 06_loop_engines.md R193 LP_E_STAT.OVERRUNS. -/
abbrev LP_E_STAT_OVERRUNS (e : Nat) : RF := ⟨2228228 + 16 * e, 16, 16, 0, 2⟩
/-- 06_loop_engines.md R193 LP_SEL.LOOP. -/
abbrev LP_SEL_LOOP : RF := ⟨2228480, 0, 12, 0, 3⟩
/-- 06_loop_engines.md R193 LP_G_SEL.GROUP. -/
abbrev LP_G_SEL_GROUP : RF := ⟨2228736, 0, 9, 0, 3⟩
/-- 06_loop_engines.md R193 LP_L_CFG.NSEC. -/
abbrev LP_L_CFG_NSEC : RF := ⟨2228484, 0, 4, 0, 2⟩
/-- 06_loop_engines.md R193 LP_L_CFG.BUMPLESS. -/
abbrev LP_L_CFG_BUMPLESS : RF := ⟨2228484, 4, 1, 0, 2⟩
/-- 06_loop_engines.md R193 LP_L_CFG.MEMBER. -/
abbrev LP_L_CFG_MEMBER : RF := ⟨2228484, 5, 1, 0, 2⟩
/-- 06_loop_engines.md R193 LP_L_CFG.GROUP. -/
abbrev LP_L_CFG_GROUP : RF := ⟨2228484, 6, 9, 0, 2⟩
/-- 06_loop_engines.md R193 LP_L_CFG.TENANT. -/
abbrev LP_L_CFG_TENANT : RF := ⟨2228484, 16, 12, 0, 2⟩
/-- 06_loop_engines.md R193 LP_L_CFG.VALID. -/
abbrev LP_L_CFG_VALID : RF := ⟨2228484, 31, 1, 0, 2⟩
/-- 06_loop_engines.md R193 LP_L_STATE.STATE. -/
abbrev LP_L_STATE_STATE : RF := ⟨2228488, 0, 3, 0, 2⟩
/-- 06_loop_engines.md R193 LP_L_STATE.SAT. -/
abbrev LP_L_STATE_SAT : RF := ⟨2228488, 3, 2, 0, 2⟩
/-- 06_loop_engines.md R193 LP_L_STATE.LOSING. -/
abbrev LP_L_STATE_LOSING : RF := ⟨2228488, 5, 1, 0, 2⟩
/-- 06_loop_engines.md R193 LP_L_STATE.BAD_PV. -/
abbrev LP_L_STATE_BAD_PV : RF := ⟨2228488, 6, 1, 0, 2⟩
/-- 06_loop_engines.md R193 LP_L_STATE.IN_SAT. -/
abbrev LP_L_STATE_IN_SAT : RF := ⟨2228488, 7, 1, 0, 2⟩
/-- 06_loop_engines.md R193 LP_L_STATE.SEC_SAT. -/
abbrev LP_L_STATE_SEC_SAT : RF := ⟨2228488, 8, 1, 0, 2⟩
/-- 06_loop_engines.md R193 LP_L_STATE.OVR_CONSEC. -/
abbrev LP_L_STATE_OVR_CONSEC : RF := ⟨2228488, 9, 4, 0, 2⟩
/-- 06_loop_engines.md R193 LP_L_STATE.SUPV. -/
abbrev LP_L_STATE_SUPV : RF := ⟨2228488, 13, 3, 0, 2⟩
/-- 06_loop_engines.md R193 LP_L_STATE.FE_CNT. -/
abbrev LP_L_STATE_FE_CNT : RF := ⟨2228488, 16, 8, 0, 2⟩
/-- 06_loop_engines.md R193 LP_L_STATE.SAFE_CAUSE. -/
abbrev LP_L_STATE_SAFE_CAUSE : RF := ⟨2228488, 24, 8, 0, 2⟩
/-- 06_loop_engines.md R193 LP_L_CMD.OP. -/
abbrev LP_L_CMD_OP : RF := ⟨2228492, 0, 3, 0, 3⟩
/-- 06_loop_engines.md R193 LP_L_CMD.RESULT. -/
abbrev LP_L_CMD_RESULT : RF := ⟨2228492, 4, 2, 0, 3⟩
/-- 06_loop_engines.md R193 LP_L_CMD.BUSY. -/
abbrev LP_L_CMD_BUSY : RF := ⟨2228492, 30, 1, 0, 3⟩
/-- 06_loop_engines.md R193 LP_L_CMD.GO. -/
abbrev LP_L_CMD_GO : RF := ⟨2228492, 31, 1, 0, 3⟩
/-- 06_loop_engines.md R193 LP_L_MANUAL.VALUE. -/
abbrev LP_L_MANUAL_VALUE : RF := ⟨2228496, 0, 16, 0, 2⟩
/-- 06_loop_engines.md R193 LP_L_SP.WORKING. -/
abbrev LP_L_SP_WORKING : RF := ⟨2228500, 0, 16, 0, 2⟩
/-- 06_loop_engines.md R193 LP_L_SP.TARGET. -/
abbrev LP_L_SP_TARGET : RF := ⟨2228500, 16, 16, 0, 2⟩
/-- 06_loop_engines.md R193 LP_L_OUT.APPLIED. -/
abbrev LP_L_OUT_APPLIED : RF := ⟨2228504, 0, 16, 0, 2⟩
/-- 06_loop_engines.md R193 LP_L_OUT.RAW. -/
abbrev LP_L_OUT_RAW : RF := ⟨2228504, 16, 16, 0, 2⟩
/-- 06_loop_engines.md R193 LP_L_MODEL.YM. -/
abbrev LP_L_MODEL_YM : RF := ⟨2228508, 0, 16, 0, 2⟩
/-- 06_loop_engines.md R193 LP_L_MODEL.RESIDUAL. -/
abbrev LP_L_MODEL_RESIDUAL : RF := ⟨2228508, 16, 16, 0, 2⟩
/-- 06_loop_engines.md R193 LP_L_COUNTS.OVERRUNS. -/
abbrev LP_L_COUNTS_OVERRUNS : RF := ⟨2228512, 0, 16, 0, 2⟩
/-- 06_loop_engines.md R193 LP_L_COUNTS.BAD_PV. -/
abbrev LP_L_COUNTS_BAD_PV : RF := ⟨2228512, 16, 16, 0, 2⟩
/-- 06_loop_engines.md R193 LP_L_FAULTS.FE_EVENTS. -/
abbrev LP_L_FAULTS_FE_EVENTS : RF := ⟨2228516, 0, 16, 0, 2⟩
/-- 06_loop_engines.md R193 LP_L_FAULTS.PL_EVENTS. -/
abbrev LP_L_FAULTS_PL_EVENTS : RF := ⟨2228516, 16, 16, 0, 2⟩
/-- 06_loop_engines.md R193 LP_L_LAT.LAST. -/
abbrev LP_L_LAT_LAST : RF := ⟨2228520, 0, 16, 0, 3⟩
/-- 06_loop_engines.md R193 LP_L_LAT.MAX. -/
abbrev LP_L_LAT_MAX : RF := ⟨2228520, 16, 16, 0, 3⟩
/-- 06_loop_engines.md R193 LP_L_COST.CYCLES. -/
abbrev LP_L_COST_CYCLES : RF := ⟨2228524, 0, 16, 0, 2⟩
/-- 06_loop_engines.md R193 LP_L_COST.UNITS. -/
abbrev LP_L_COST_UNITS : RF := ⟨2228524, 16, 16, 0, 2⟩
/-- 06_loop_engines.md R193 LP_G_STAT.OUTPUT. -/
abbrev LP_G_STAT_OUTPUT : RF := ⟨2228740, 0, 16, 0, 2⟩
/-- 06_loop_engines.md R193 LP_G_STAT.WINNER. -/
abbrev LP_G_STAT_WINNER : RF := ⟨2228740, 16, 3, 0, 2⟩
/-- 06_loop_engines.md R193 LP_G_STAT.NONE. -/
abbrev LP_G_STAT_NONE : RF := ⟨2228740, 19, 1, 0, 2⟩
/-- 06_loop_engines.md R193 LP_G_STAT.MEMBERS. -/
abbrev LP_G_STAT_MEMBERS : RF := ⟨2228740, 20, 4, 0, 2⟩
/-- 06_loop_engines.md R193 LP_G_STAT.VALID. -/
abbrev LP_G_STAT_VALID : RF := ⟨2228740, 31, 1, 0, 2⟩
/-- 07_metering_and_ledger.md R239 MT_STAT.RATE. -/
abbrev MT_STAT_RATE : RF := ⟨2293760, 0, 2, 1, 1⟩
/-- 07_metering_and_ledger.md R239 MT_STAT.TRIM_VALID. -/
abbrev MT_STAT_TRIM_VALID : RF := ⟨2293760, 2, 1, 0, 1⟩
/-- 07_metering_and_ledger.md R239 MT_STAT.FULL_PATH. -/
abbrev MT_STAT_FULL_PATH : RF := ⟨2293760, 3, 1, 0, 1⟩
/-- 07_metering_and_ledger.md R239 MT_STAT.STARTING. -/
abbrev MT_STAT_STARTING : RF := ⟨2293760, 4, 1, 0, 1⟩
/-- 07_metering_and_ledger.md R239 MT_STAT.HARM. -/
abbrev MT_STAT_HARM : RF := ⟨2293760, 8, 8, 25, 1⟩
/-- 07_metering_and_ledger.md R239 MT_STAT.CIRCUITS. -/
abbrev MT_STAT_CIRCUITS : RF := ⟨2293760, 16, 16, 0, 1⟩
/-- 07_metering_and_ledger.md R239 MT_OVR.COUNT. -/
abbrev MT_OVR_COUNT : RF := ⟨2293764, 0, 16, 0, 1⟩
/-- 07_metering_and_ledger.md R239 MT_OVR.LAST_INPUT. -/
abbrev MT_OVR_LAST_INPUT : RF := ⟨2293764, 16, 6, 0, 1⟩
/-- 07_metering_and_ledger.md R239 MT_OVR.CLEAR. -/
abbrev MT_OVR_CLEAR : RF := ⟨2293764, 31, 1, 0, 1⟩
/-- 07_metering_and_ledger.md R239 MT_CHFAULT_LO.MI. -/
abbrev MT_CHFAULT_LO_MI : RF := ⟨2293768, 0, 32, 0, 1⟩
/-- 07_metering_and_ledger.md R239 MT_CHFAULT_HI.MI. -/
abbrev MT_CHFAULT_HI_MI : RF := ⟨2293772, 0, 16, 0, 1⟩
/-- 07_metering_and_ledger.md R239 MT_CHFAULT_HI.MV. -/
abbrev MT_CHFAULT_HI_MV : RF := ⟨2293772, 16, 12, 0, 1⟩
/-- 07_metering_and_ledger.md R239 MT_VIGIL_CFG.PERIOD. -/
abbrev MT_VIGIL_CFG_PERIOD : RF := ⟨2293776, 0, 2, 1, 1⟩
/-- 07_metering_and_ledger.md R239 MT_VIGIL_CFG.WIN. -/
abbrev MT_VIGIL_CFG_WIN : RF := ⟨2293776, 2, 2, 1, 1⟩
/-- 07_metering_and_ledger.md R239 MT_VIGIL_CFG.EN. -/
abbrev MT_VIGIL_CFG_EN : RF := ⟨2293776, 4, 1, 1, 1⟩
/-- 07_metering_and_ledger.md R239 MT_VIGIL_CFG.EST_EN. -/
abbrev MT_VIGIL_CFG_EST_EN : RF := ⟨2293776, 5, 1, 0, 1⟩
/-- 07_metering_and_ledger.md R239 MT_CAL_CMD.INPUT. -/
abbrev MT_CAL_CMD_INPUT : RF := ⟨2293792, 0, 6, 0, 1⟩
/-- 07_metering_and_ledger.md R239 MT_CAL_CMD.VSET. -/
abbrev MT_CAL_CMD_VSET : RF := ⟨2293792, 6, 2, 0, 1⟩
/-- 07_metering_and_ledger.md R239 MT_CAL_CMD.VPH. -/
abbrev MT_CAL_CMD_VPH : RF := ⟨2293792, 8, 2, 0, 1⟩
/-- 07_metering_and_ledger.md R239 MT_CAL_CMD.CYCLES. -/
abbrev MT_CAL_CMD_CYCLES : RF := ⟨2293792, 10, 8, 0, 1⟩
/-- 07_metering_and_ledger.md R239 MT_CAL_CMD.BUSY. -/
abbrev MT_CAL_CMD_BUSY : RF := ⟨2293792, 30, 1, 0, 1⟩
/-- 07_metering_and_ledger.md R239 MT_CAL_CMD.GO. -/
abbrev MT_CAL_CMD_GO : RF := ⟨2293792, 31, 1, 0, 1⟩
/-- 07_metering_and_ledger.md R239 MT_CAL_RES.RESULT. -/
abbrev MT_CAL_RES_RESULT (i : Nat) : RF := ⟨2293796 + 4 * i, 0, 32, 0, 1⟩
/-- 07_metering_and_ledger.md R239 MT_HSEL.INPUT. -/
abbrev MT_HSEL_INPUT : RF := ⟨2293824, 0, 6, 0, 1⟩
/-- 07_metering_and_ledger.md R239 MT_HSEL.ORDER. -/
abbrev MT_HSEL_ORDER : RF := ⟨2293824, 8, 6, 2, 1⟩
/-- 07_metering_and_ledger.md R239 MT_HVAL.VALUE. -/
abbrev MT_HVAL_VALUE : RF := ⟨2293828, 0, 32, 0, 1⟩
/-- 07_metering_and_ledger.md R239 MT_EV_SEL.VSET. -/
abbrev MT_EV_SEL_VSET : RF := ⟨2293832, 0, 2, 0, 1⟩
/-- 07_metering_and_ledger.md R239 MT_EV_SEL.ENTRY. -/
abbrev MT_EV_SEL_ENTRY : RF := ⟨2293832, 8, 8, 0, 1⟩
/-- 07_metering_and_ledger.md R239 MT_EV_W.WORD. -/
abbrev MT_EV_W_WORD (w : Nat) : RF := ⟨2293836 + 4 * w, 0, 32, 0, 1⟩
/-- 07_metering_and_ledger.md R239 MT_VS_CFG.EN. -/
abbrev MT_VS_CFG_EN (n : Nat) : RF := ⟨2294016 + 32 * n, 0, 1, 0, 1⟩
/-- 07_metering_and_ledger.md R239 MT_VS_CFG.WIRING. -/
abbrev MT_VS_CFG_WIRING (n : Nat) : RF := ⟨2294016 + 32 * n, 1, 1, 0, 1⟩
/-- 07_metering_and_ledger.md R239 MT_VS_CFG.F_NOM. -/
abbrev MT_VS_CFG_F_NOM (n : Nat) : RF := ⟨2294016 + 32 * n, 2, 1, 0, 1⟩
/-- 07_metering_and_ledger.md R239 MT_VS_CFG.UDIN. -/
abbrev MT_VS_CFG_UDIN (n : Nat) : RF := ⟨2294016 + 32 * n, 4, 12, 0, 1⟩
/-- 07_metering_and_ledger.md R239 MT_VS_CFG.SAG. -/
abbrev MT_VS_CFG_SAG (n : Nat) : RF := ⟨2294016 + 32 * n, 16, 7, 90, 1⟩
/-- 07_metering_and_ledger.md R239 MT_VS_CFG.SWELL. -/
abbrev MT_VS_CFG_SWELL (n : Nat) : RF := ⟨2294016 + 32 * n, 24, 8, 110, 1⟩
/-- 07_metering_and_ledger.md R239 MT_VS_RATIO.RATIO. -/
abbrev MT_VS_RATIO_RATIO (n : Nat) : RF := ⟨2294020 + 32 * n, 0, 32, 0, 1⟩
/-- 07_metering_and_ledger.md R239 MT_VS_THR.INT. -/
abbrev MT_VS_THR_INT (n : Nat) : RF := ⟨2294024 + 32 * n, 0, 7, 5, 1⟩
/-- 07_metering_and_ledger.md R239 MT_VS_THR.HYST. -/
abbrev MT_VS_THR_HYST (n : Nat) : RF := ⟨2294024 + 32 * n, 8, 4, 2, 1⟩
/-- 07_metering_and_ledger.md R239 MT_VS_CAL.V_GAIN. -/
abbrev MT_VS_CAL_V_GAIN (n p : Nat) : RF := ⟨2294028 + 32 * n + 4 * p, 0, 16, 32768, 1⟩
/-- 07_metering_and_ledger.md R239 MT_VS_CAL.V_PHASE. -/
abbrev MT_VS_CAL_V_PHASE (n p : Nat) : RF := ⟨2294028 + 32 * n + 4 * p, 16, 16, 0, 1⟩
/-- 07_metering_and_ledger.md R239 MT_VS_STAT.LOCKED. -/
abbrev MT_VS_STAT_LOCKED (n : Nat) : RF := ⟨2294040 + 32 * n, 0, 1, 0, 1⟩
/-- 07_metering_and_ledger.md R239 MT_VS_STAT.UNDER_OPEN. -/
abbrev MT_VS_STAT_UNDER_OPEN (n : Nat) : RF := ⟨2294040 + 32 * n, 1, 1, 0, 1⟩
/-- 07_metering_and_ledger.md R239 MT_VS_STAT.SWELL_OPEN. -/
abbrev MT_VS_STAT_SWELL_OPEN (n : Nat) : RF := ⟨2294040 + 32 * n, 2, 1, 0, 1⟩
/-- 07_metering_and_ledger.md R239 MT_VS_STAT.INTERRUPT. -/
abbrev MT_VS_STAT_INTERRUPT (n : Nat) : RF := ⟨2294040 + 32 * n, 3, 1, 0, 1⟩
/-- 07_metering_and_ledger.md R239 MT_VS_STAT.FLAGGED. -/
abbrev MT_VS_STAT_FLAGGED (n : Nat) : RF := ⟨2294040 + 32 * n, 4, 1, 0, 1⟩
/-- 07_metering_and_ledger.md R239 MT_VS_STAT.REF_PHASE. -/
abbrev MT_VS_STAT_REF_PHASE (n : Nat) : RF := ⟨2294040 + 32 * n, 8, 2, 0, 1⟩
/-- 07_metering_and_ledger.md R239 MT_VS_STAT.FREQ. -/
abbrev MT_VS_STAT_FREQ (n : Nat) : RF := ⟨2294040 + 32 * n, 16, 16, 0, 1⟩
/-- 07_metering_and_ledger.md R239 MT_VS_EVCNT.EVENTS. -/
abbrev MT_VS_EVCNT_EVENTS (n : Nat) : RF := ⟨2294044 + 32 * n, 0, 16, 0, 1⟩
/-- 07_metering_and_ledger.md R239 MT_VS_EVCNT.OVERWRITTEN. -/
abbrev MT_VS_EVCNT_OVERWRITTEN (n : Nat) : RF := ⟨2294044 + 32 * n, 16, 16, 0, 1⟩
/-- 07_metering_and_ledger.md R239 MT_PULSE_CFG.QPP. -/
abbrev MT_PULSE_CFG_QPP (k : Nat) : RF := ⟨2294272 + 16 * k, 0, 16, 0, 1⟩
/-- 07_metering_and_ledger.md R239 MT_PULSE_CFG.ACC. -/
abbrev MT_PULSE_CFG_ACC (k : Nat) : RF := ⟨2294272 + 16 * k, 16, 3, 0, 1⟩
/-- 07_metering_and_ledger.md R239 MT_PULSE_CFG.CIRCUIT. -/
abbrev MT_PULSE_CFG_CIRCUIT (k : Nat) : RF := ⟨2294272 + 16 * k, 19, 4, 0, 1⟩
/-- 07_metering_and_ledger.md R239 MT_PULSE_CFG.POL. -/
abbrev MT_PULSE_CFG_POL (k : Nat) : RF := ⟨2294272 + 16 * k, 23, 1, 0, 1⟩
/-- 07_metering_and_ledger.md R239 MT_PULSE_CFG.WIDTH. -/
abbrev MT_PULSE_CFG_WIDTH (k : Nat) : RF := ⟨2294272 + 16 * k, 24, 7, 0, 1⟩
/-- 07_metering_and_ledger.md R239 MT_PULSE_CFG.EN. -/
abbrev MT_PULSE_CFG_EN (k : Nat) : RF := ⟨2294272 + 16 * k, 31, 1, 0, 1⟩
/-- 07_metering_and_ledger.md R239 MT_PULSE_CNT.COUNT. -/
abbrev MT_PULSE_CNT_COUNT (k : Nat) : RF := ⟨2294276 + 16 * k, 0, 32, 0, 1⟩
/-- 07_metering_and_ledger.md R239 MT_PULSE_BKLG.BACKLOG. -/
abbrev MT_PULSE_BKLG_BACKLOG (k : Nat) : RF := ⟨2294280 + 16 * k, 0, 32, 0, 1⟩
/-- 07_metering_and_ledger.md R240 LG_STATUS.RESTORED. -/
abbrev LG_STATUS_RESTORED : RF := ⟨2359296, 0, 1, 0, 0⟩
/-- 07_metering_and_ledger.md R240 LG_STATUS.GAP_KNOWN. -/
abbrev LG_STATUS_GAP_KNOWN : RF := ⟨2359296, 1, 1, 0, 1⟩
/-- 07_metering_and_ledger.md R240 LG_STATUS.SOURCE. -/
abbrev LG_STATUS_SOURCE : RF := ⟨2359296, 2, 2, 0, 1⟩
/-- 07_metering_and_ledger.md R240 LG_STATUS.AUDIT_FAIL. -/
abbrev LG_STATUS_AUDIT_FAIL : RF := ⟨2359296, 4, 1, 0, 1⟩
/-- 07_metering_and_ledger.md R240 LG_STATUS.CKPT_FAIL. -/
abbrev LG_STATUS_CKPT_FAIL : RF := ⟨2359296, 5, 1, 0, 1⟩
/-- 07_metering_and_ledger.md R240 LG_STATUS.NAND_AT_FAIL. -/
abbrev LG_STATUS_NAND_AT_FAIL : RF := ⟨2359296, 6, 1, 0, 1⟩
/-- 07_metering_and_ledger.md R240 LG_STATUS.RESTORES. -/
abbrev LG_STATUS_RESTORES : RF := ⟨2359296, 16, 16, 0, 1⟩
/-- 07_metering_and_ledger.md R240 LG_GAP.SECONDS. -/
abbrev LG_GAP_SECONDS : RF := ⟨2359300, 0, 32, 4294967295, 1⟩
/-- 07_metering_and_ledger.md R240 LG_SEQ.SEQ. -/
abbrev LG_SEQ_SEQ : RF := ⟨2359304, 0, 32, 0, 1⟩
/-- 07_metering_and_ledger.md R240 LG_NAND_SEQ.SEQ. -/
abbrev LG_NAND_SEQ_SEQ : RF := ⟨2359308, 0, 32, 0, 1⟩
/-- 07_metering_and_ledger.md R240 LG_CFG.NAND_PERIOD. -/
abbrev LG_CFG_NAND_PERIOD : RF := ⟨2359312, 0, 6, 15, 1⟩
/-- 07_metering_and_ledger.md R240 LG_CMD.CIRCUIT. -/
abbrev LG_CMD_CIRCUIT : RF := ⟨2359316, 0, 4, 0, 1⟩
/-- 07_metering_and_ledger.md R240 LG_CMD.OP. -/
abbrev LG_CMD_OP : RF := ⟨2359316, 4, 3, 0, 1⟩
/-- 07_metering_and_ledger.md R240 LG_CMD.RESULT. -/
abbrev LG_CMD_RESULT : RF := ⟨2359316, 8, 2, 0, 1⟩
/-- 07_metering_and_ledger.md R240 LG_CMD.BUSY. -/
abbrev LG_CMD_BUSY : RF := ⟨2359316, 30, 1, 0, 1⟩
/-- 07_metering_and_ledger.md R240 LG_CMD.GO. -/
abbrev LG_CMD_GO : RF := ⟨2359316, 31, 1, 0, 1⟩
/-- 07_metering_and_ledger.md R240 LG_AUDIT.MISMATCH. -/
abbrev LG_AUDIT_MISMATCH : RF := ⟨2359320, 0, 16, 0, 1⟩
/-- 07_metering_and_ledger.md R240 LG_AUDIT.AUDITS. -/
abbrev LG_AUDIT_AUDITS : RF := ⟨2359320, 16, 16, 0, 1⟩
/-- 07_metering_and_ledger.md R240 LG_DOZE.SECONDS. -/
abbrev LG_DOZE_SECONDS : RF := ⟨2359324, 0, 32, 0, 1⟩
/-- 07_metering_and_ledger.md R240 LG_VSTART_LO.TICK_LO. -/
abbrev LG_VSTART_LO_TICK_LO : RF := ⟨2359328, 0, 32, 0, 1⟩
/-- 07_metering_and_ledger.md R240 LG_VSTART_HI.TICK_HI. -/
abbrev LG_VSTART_HI_TICK_HI : RF := ⟨2359332, 0, 16, 0, 1⟩
/-- 07_metering_and_ledger.md R240 LG_C_VCHG.CHARGE. -/
abbrev LG_C_VCHG_CHARGE (c : Nat) : RF := ⟨2360320 + 32 * c, 0, 32, 0, 1⟩
/-- 07_metering_and_ledger.md R240 LG_C_VEST.ESTIMATE. -/
abbrev LG_C_VEST_ESTIMATE (c : Nat) : RF := ⟨2360324 + 32 * c, 0, 32, 0, 1⟩
/-- 07_metering_and_ledger.md R240 LG_C_VSEEN.WINDOWS. -/
abbrev LG_C_VSEEN_WINDOWS (c : Nat) : RF := ⟨2360328 + 32 * c, 0, 16, 0, 1⟩
/-- 07_metering_and_ledger.md R240 LG_C_VSEEN.EPISODES. -/
abbrev LG_C_VSEEN_EPISODES (c : Nat) : RF := ⟨2360328 + 32 * c, 16, 16, 0, 1⟩
/-- 07_metering_and_ledger.md R240 LG_C_VFIRST.WINDOW. -/
abbrev LG_C_VFIRST_WINDOW (c : Nat) : RF := ⟨2360332 + 32 * c, 0, 16, 0, 1⟩
/-- 07_metering_and_ledger.md R240 LG_C_NOLOAD.CYCLES. -/
abbrev LG_C_NOLOAD_CYCLES (c : Nat) : RF := ⟨2360336 + 32 * c, 0, 32, 0, 1⟩
/-- 07_metering_and_ledger.md R240 LG_A_INT.INTERVAL. -/
abbrev LG_A_INT_INTERVAL (c a : Nat) : RF := ⟨2363392 + 256 * c + 16 * a, 0, 32, 0, 1⟩
/-- 07_metering_and_ledger.md R240 LG_A_TOT_LO.TOTAL_LO. -/
abbrev LG_A_TOT_LO_TOTAL_LO (c a : Nat) : RF := ⟨2363396 + 256 * c + 16 * a, 0, 32, 0, 1⟩
/-- 07_metering_and_ledger.md R240 LG_A_TOT_HI.TOTAL_HI. -/
abbrev LG_A_TOT_HI_TOTAL_HI (c a : Nat) : RF := ⟨2363400 + 256 * c + 16 * a, 0, 16, 0, 1⟩
/-- 07_metering_and_ledger.md R240 LG_A_TOT_HI.WRAP. -/
abbrev LG_A_TOT_HI_WRAP (c a : Nat) : RF := ⟨2363400 + 256 * c + 16 * a, 16, 8, 0, 1⟩
/-- 07_metering_and_ledger.md R240 LG_A_RES.RESIDUE. -/
abbrev LG_A_RES_RESIDUE (c a : Nat) : RF := ⟨2363404 + 256 * c + 16 * a, 0, 16, 0, 1⟩
/-- 08_truss_hierarchy.md R272 TR_CFG.ROLE. -/
abbrev TR_CFG_ROLE : RF := ⟨3276800, 0, 2, 0, 2⟩
/-- 08_truss_hierarchy.md R272 TR_CFG.DEPART. -/
abbrev TR_CFG_DEPART : RF := ⟨3276800, 2, 6, 5, 2⟩
/-- 08_truss_hierarchy.md R272 TR_CFG.CONF. -/
abbrev TR_CFG_CONF : RF := ⟨3276800, 8, 1, 0, 2⟩
/-- 08_truss_hierarchy.md R272 TR_CFG.VID. -/
abbrev TR_CFG_VID : RF := ⟨3276800, 16, 12, 0, 2⟩
/-- 08_truss_hierarchy.md R272 TR_CFG2.ETYPE. -/
abbrev TR_CFG2_ETYPE : RF := ⟨3276804, 0, 16, 34997, 2⟩
/-- 08_truss_hierarchy.md R272 TR_CFG2.KEY_SLOT. -/
abbrev TR_CFG2_KEY_SLOT : RF := ⟨3276804, 16, 6, 0, 2⟩
/-- 08_truss_hierarchy.md R272 TR_CFG2.MGMT_SLOT. -/
abbrev TR_CFG2_MGMT_SLOT : RF := ⟨3276804, 24, 6, 0, 2⟩
/-- 08_truss_hierarchy.md R272 TR_GROUP_LO.ADDR_LO. -/
abbrev TR_GROUP_LO_ADDR_LO : RF := ⟨3276808, 0, 32, 4804099, 2⟩
/-- 08_truss_hierarchy.md R272 TR_GROUP_HI.ADDR_HI. -/
abbrev TR_GROUP_HI_ADDR_HI : RF := ⟨3276812, 0, 16, 256, 2⟩
/-- 08_truss_hierarchy.md R272 TR_PIN.NUMBER. -/
abbrev TR_PIN_NUMBER : RF := ⟨3276816, 0, 9, 511, 2⟩
/-- 08_truss_hierarchy.md R272 TR_SELF.NUMBER. -/
abbrev TR_SELF_NUMBER : RF := ⟨3276820, 0, 9, 511, 2⟩
/-- 08_truss_hierarchy.md R272 TR_SELF.NUMBERED. -/
abbrev TR_SELF_NUMBERED : RF := ⟨3276820, 9, 1, 0, 2⟩
/-- 08_truss_hierarchy.md R272 TR_SELF.ACTIVE_ROLE. -/
abbrev TR_SELF_ACTIVE_ROLE : RF := ⟨3276820, 10, 2, 0, 2⟩
/-- 08_truss_hierarchy.md R272 TR_SELF.MANAGER. -/
abbrev TR_SELF_MANAGER : RF := ⟨3276820, 16, 9, 511, 2⟩
/-- 08_truss_hierarchy.md R272 TR_SELF.MGR_PRESENT. -/
abbrev TR_SELF_MGR_PRESENT : RF := ⟨3276820, 25, 1, 0, 2⟩
/-- 08_truss_hierarchy.md R272 TR_SELF.SYNCED. -/
abbrev TR_SELF_SYNCED : RF := ⟨3276820, 26, 1, 0, 2⟩
/-- 08_truss_hierarchy.md R272 TR_SER_LO.SERIAL. -/
abbrev TR_SER_LO_SERIAL : RF := ⟨3276824, 0, 32, 0, 1⟩
/-- 08_truss_hierarchy.md R272 TR_SER_HI.SERIAL. -/
abbrev TR_SER_HI_SERIAL : RF := ⟨3276828, 0, 32, 0, 1⟩
/-- 08_truss_hierarchy.md R272 TR_SESSION.SESSION. -/
abbrev TR_SESSION_SESSION : RF := ⟨3276832, 0, 32, 0, 2⟩
/-- 08_truss_hierarchy.md R272 TR_TERM.TERM. -/
abbrev TR_TERM_TERM : RF := ⟨3276836, 0, 16, 0, 2⟩
/-- 08_truss_hierarchy.md R272 TR_EPOCH_LO.SECONDS_LO. -/
abbrev TR_EPOCH_LO_SECONDS_LO : RF := ⟨3276840, 0, 32, 0, 2⟩
/-- 08_truss_hierarchy.md R272 TR_EPOCH_HI.SECONDS_HI. -/
abbrev TR_EPOCH_HI_SECONDS_HI : RF := ⟨3276844, 0, 16, 0, 2⟩
/-- 08_truss_hierarchy.md R272 TR_STEER.PHASE_ERR. -/
abbrev TR_STEER_PHASE_ERR : RF := ⟨3276848, 0, 16, 0, 2⟩
/-- 08_truss_hierarchy.md R272 TR_STEER.RATE. -/
abbrev TR_STEER_RATE : RF := ⟨3276848, 16, 16, 0, 2⟩
/-- 08_truss_hierarchy.md R272 TR_MARKS.RECEIVED. -/
abbrev TR_MARKS_RECEIVED : RF := ⟨3276852, 0, 16, 0, 2⟩
/-- 08_truss_hierarchy.md R272 TR_MARKS.LAST_AGE. -/
abbrev TR_MARKS_LAST_AGE : RF := ⟨3276852, 16, 16, 65535, 2⟩
/-- 08_truss_hierarchy.md R272 TR_LANES.BB0_UP. -/
abbrev TR_LANES_BB0_UP : RF := ⟨3276856, 0, 1, 0, 2⟩
/-- 08_truss_hierarchy.md R272 TR_LANES.BB1_UP. -/
abbrev TR_LANES_BB1_UP : RF := ⟨3276856, 1, 1, 0, 2⟩
/-- 08_truss_hierarchy.md R272 TR_LANES.SINGLE_SENT. -/
abbrev TR_LANES_SINGLE_SENT : RF := ⟨3276856, 16, 16, 0, 2⟩
/-- 08_truss_hierarchy.md R272 TR_ERR1.AUTH_FAIL. -/
abbrev TR_ERR1_AUTH_FAIL : RF := ⟨3276860, 0, 16, 0, 2⟩
/-- 08_truss_hierarchy.md R272 TR_ERR1.REPLAY. -/
abbrev TR_ERR1_REPLAY : RF := ⟨3276860, 16, 16, 0, 2⟩
/-- 08_truss_hierarchy.md R272 TR_ERR2.DUP. -/
abbrev TR_ERR2_DUP : RF := ⟨3276864, 0, 16, 0, 2⟩
/-- 08_truss_hierarchy.md R272 TR_ERR2.NO_DOWEL. -/
abbrev TR_ERR2_NO_DOWEL : RF := ⟨3276864, 16, 16, 0, 2⟩
/-- 08_truss_hierarchy.md R272 TR_ERR3.SMALL_DROP. -/
abbrev TR_ERR3_SMALL_DROP : RF := ⟨3276868, 0, 16, 0, 2⟩
/-- 08_truss_hierarchy.md R272 TR_ERR3.LATE. -/
abbrev TR_ERR3_LATE : RF := ⟨3276868, 16, 16, 0, 2⟩
/-- 08_truss_hierarchy.md R272 TR_LOAD.EGRESS. -/
abbrev TR_LOAD_EGRESS : RF := ⟨3276872, 0, 16, 0, 2⟩
/-- 08_truss_hierarchy.md R272 TR_LOAD.INGRESS. -/
abbrev TR_LOAD_INGRESS : RF := ⟨3276872, 16, 16, 0, 2⟩
/-- 08_truss_hierarchy.md R272 TR_LOAD2.MGR_EGRESS. -/
abbrev TR_LOAD2_MGR_EGRESS : RF := ⟨3276876, 0, 16, 0, 2⟩
/-- 08_truss_hierarchy.md R272 TR_SUBS.PUBLISHED. -/
abbrev TR_SUBS_PUBLISHED : RF := ⟨3276880, 0, 15, 0, 2⟩
/-- 08_truss_hierarchy.md R272 TR_SUBS.PROXIES. -/
abbrev TR_SUBS_PROXIES : RF := ⟨3276880, 16, 15, 0, 2⟩
/-- 08_truss_hierarchy.md R272 TR_DIRCNT.MODULES. -/
abbrev TR_DIRCNT_MODULES : RF := ⟨3276884, 0, 10, 0, 2⟩
/-- 08_truss_hierarchy.md R272 TR_DIRCNT.ABSENT. -/
abbrev TR_DIRCNT_ABSENT : RF := ⟨3276884, 16, 10, 0, 2⟩
/-- 08_truss_hierarchy.md R272 TR_DIRSUBS.SUBS. -/
abbrev TR_DIRSUBS_SUBS : RF := ⟨3276888, 0, 19, 0, 2⟩
/-- 08_truss_hierarchy.md R272 TR_REFUSE.REASON. -/
abbrev TR_REFUSE_REASON : RF := ⟨3276892, 0, 4, 0, 2⟩
/-- 08_truss_hierarchy.md R272 TR_REFUSE.GPA. -/
abbrev TR_REFUSE_GPA : RF := ⟨3276892, 4, 25, 0, 2⟩
/-- 08_truss_hierarchy.md R272 TR_POOL.FREE. -/
abbrev TR_POOL_FREE (l p : Nat) : RF := ⟨3276928 + 32 * l + 4 * p, 0, 11, (poolSize p), 2⟩
/-- 08_truss_hierarchy.md R272 TR_POOL.SIZE. -/
abbrev TR_POOL_SIZE (l p : Nat) : RF := ⟨3276928 + 32 * l + 4 * p, 16, 11, (poolSize p), 2⟩
/-- 08_truss_hierarchy.md R272 TR_POOL.AUDIT_FAIL. -/
abbrev TR_POOL_AUDIT_FAIL (l p : Nat) : RF := ⟨3276928 + 32 * l + 4 * p, 31, 1, 0, 2⟩
/-- 08_truss_hierarchy.md R272 TR_DIR_SEL.MODULE. -/
abbrev TR_DIR_SEL_MODULE : RF := ⟨3277056, 0, 9, 0, 3⟩
/-- 08_truss_hierarchy.md R272 TR_DIR_ENT.STATE. -/
abbrev TR_DIR_ENT_STATE : RF := ⟨3277060, 0, 2, 0, 2⟩
/-- 08_truss_hierarchy.md R272 TR_DIR_ENT.LANES. -/
abbrev TR_DIR_ENT_LANES : RF := ⟨3277060, 2, 2, 0, 2⟩
/-- 08_truss_hierarchy.md R272 TR_DIR_ENT.STEERED. -/
abbrev TR_DIR_ENT_STEERED : RF := ⟨3277060, 4, 1, 0, 2⟩
/-- 08_truss_hierarchy.md R272 TR_DIR_ENT.MODE. -/
abbrev TR_DIR_ENT_MODE : RF := ⟨3277060, 5, 3, 0, 2⟩
/-- 08_truss_hierarchy.md R272 TR_DIR_ENT.SCF. -/
abbrev TR_DIR_ENT_SCF : RF := ⟨3277060, 8, 3, 0, 2⟩
/-- 08_truss_hierarchy.md R272 TR_DIR_ENT.SEVERITY. -/
abbrev TR_DIR_ENT_SEVERITY : RF := ⟨3277060, 12, 2, 0, 2⟩
/-- 08_truss_hierarchy.md R272 TR_DIR_ENT.AGE. -/
abbrev TR_DIR_ENT_AGE : RF := ⟨3277060, 16, 16, 65535, 2⟩
/-- 08_truss_hierarchy.md R272 TR_DIR_SER_LO.SERIAL. -/
abbrev TR_DIR_SER_LO_SERIAL : RF := ⟨3277064, 0, 32, 0, 2⟩
/-- 08_truss_hierarchy.md R272 TR_DIR_SER_HI.SERIAL. -/
abbrev TR_DIR_SER_HI_SERIAL : RF := ⟨3277068, 0, 32, 0, 2⟩
/-- 08_truss_hierarchy.md R272 TR_CMD.OP. -/
abbrev TR_CMD_OP : RF := ⟨3277088, 0, 3, 0, 3⟩
/-- 08_truss_hierarchy.md R272 TR_CMD.RESULT. -/
abbrev TR_CMD_RESULT : RF := ⟨3277088, 4, 2, 0, 3⟩
/-- 08_truss_hierarchy.md R272 TR_CMD.BUSY. -/
abbrev TR_CMD_BUSY : RF := ⟨3277088, 30, 1, 0, 3⟩
/-- 08_truss_hierarchy.md R272 TR_CMD.GO. -/
abbrev TR_CMD_GO : RF := ⟨3277088, 31, 1, 0, 3⟩
/-- 09_frame_macs.md R305 MACn_ID.KIND. -/
abbrev MACn_ID_KIND (n : Nat) : RF := ⟨3145728 + 4096 * n, 0, 1, (macKind n), 7⟩
/-- 09_frame_macs.md R305 MACn_ID.INDEX. -/
abbrev MACn_ID_INDEX (n : Nat) : RF := ⟨3145728 + 4096 * n, 1, 3, (macIndex n), 7⟩
/-- 09_frame_macs.md R305 MACn_CFG.MODE. -/
abbrev MACn_CFG_MODE (n : Nat) : RF := ⟨3145732 + 4096 * n, 0, 1, 0, 2⟩
/-- 09_frame_macs.md R305 MACn_CFG.RATE. -/
abbrev MACn_CFG_RATE (n : Nat) : RF := ⟨3145732 + 4096 * n, 1, 3, 0, 2⟩
/-- 09_frame_macs.md R305 MACn_CFG.RX_PAUSE_EN. -/
abbrev MACn_CFG_RX_PAUSE_EN (n : Nat) : RF := ⟨3145732 + 4096 * n, 4, 1, (macRxPauseReset n), 2⟩
/-- 09_frame_macs.md R305 MACn_CFG.PWD_MS. -/
abbrev MACn_CFG_PWD_MS (n : Nat) : RF := ⟨3145732 + 4096 * n, 5, 8, 20, 2⟩
/-- 09_frame_macs.md R305 MACn_CFG.WAKE_EN. -/
abbrev MACn_CFG_WAKE_EN (n : Nat) : RF := ⟨3145732 + 4096 * n, 13, 1, 0, 2⟩
/-- 09_frame_macs.md R305 MACn_CFG.WAKE_MAGIC. -/
abbrev MACn_CFG_WAKE_MAGIC (n : Nat) : RF := ⟨3145732 + 4096 * n, 14, 1, 0, 2⟩
/-- 09_frame_macs.md R305 MACn_ADDR_LO.OCTETS_0_3. -/
abbrev MACn_ADDR_LO_OCTETS_0_3 (n : Nat) : RF := ⟨3145736 + 4096 * n, 0, 32, 0, 1⟩
/-- 09_frame_macs.md R305 MACn_ADDR_HI.OCTETS_4_5. -/
abbrev MACn_ADDR_HI_OCTETS_4_5 (n : Nat) : RF := ⟨3145740 + 4096 * n, 0, 16, 0, 1⟩
/-- 09_frame_macs.md R305 MACn_STAG.EN. -/
abbrev MACn_STAG_EN (n : Nat) : RF := ⟨3145744 + 4096 * n, 0, 1, 0, 2⟩
/-- 09_frame_macs.md R305 MACn_STAG.SVID. -/
abbrev MACn_STAG_SVID (n : Nat) : RF := ⟨3145744 + 4096 * n, 4, 12, 0, 2⟩
/-- 09_frame_macs.md R305 MACn_STAG.S_PCP. -/
abbrev MACn_STAG_S_PCP (n : Nat) : RF := ⟨3145744 + 4096 * n, 16, 3, 0, 2⟩
/-- 09_frame_macs.md R305 MACn_BB_RX.CTX. -/
abbrev MACn_BB_RX_CTX (n : Nat) : RF := ⟨3145748 + 4096 * n, 0, 6, 0, 2⟩
/-- 09_frame_macs.md R305 MACn_BB_RX.VALID. -/
abbrev MACn_BB_RX_VALID (n : Nat) : RF := ⟨3145748 + 4096 * n, 31, 1, 0, 2⟩
/-- 09_frame_macs.md R305 MACn_MCHASH_LO.BITS. -/
abbrev MACn_MCHASH_LO_BITS (n : Nat) : RF := ⟨3145752 + 4096 * n, 0, 32, 0, 2⟩
/-- 09_frame_macs.md R305 MACn_MCHASH_HI.BITS. -/
abbrev MACn_MCHASH_HI_BITS (n : Nat) : RF := ⟨3145756 + 4096 * n, 0, 32, 0, 2⟩
/-- 09_frame_macs.md R305 MACn_TSLAT.TX_ADJ. -/
abbrev MACn_TSLAT_TX_ADJ (n : Nat) : RF := ⟨3145760 + 4096 * n, 0, 16, 0, 2⟩
/-- 09_frame_macs.md R305 MACn_TSLAT.RX_ADJ. -/
abbrev MACn_TSLAT_RX_ADJ (n : Nat) : RF := ⟨3145760 + 4096 * n, 16, 16, 0, 2⟩
/-- 09_frame_macs.md R305 MACn_EEE.IDLE_US. -/
abbrev MACn_EEE_IDLE_US (n : Nat) : RF := ⟨3145764 + 4096 * n, 0, 10, 50, 2⟩
/-- 09_frame_macs.md R305 MACn_WPAT.OCTETS. -/
abbrev MACn_WPAT_OCTETS (n j w : Nat) : RF := ⟨3146752 + 4096 * n + 80 * j + 4 * w, 0, 32, 0, 2⟩
/-- 09_frame_macs.md R305 MACn_WMASK_LO.MASK. -/
abbrev MACn_WMASK_LO_MASK (n j : Nat) : RF := ⟨3146816 + 4096 * n + 80 * j, 0, 32, 0, 2⟩
/-- 09_frame_macs.md R305 MACn_WMASK_HI.MASK. -/
abbrev MACn_WMASK_HI_MASK (n j : Nat) : RF := ⟨3146820 + 4096 * n + 80 * j, 0, 32, 0, 2⟩
/-- 09_frame_macs.md R305 MACn_WCTRL.EN. -/
abbrev MACn_WCTRL_EN (n j : Nat) : RF := ⟨3146824 + 4096 * n + 80 * j, 0, 1, 0, 2⟩
/-- 09_frame_macs.md R305 MACn_LINK.UP. -/
abbrev MACn_LINK_UP (n : Nat) : RF := ⟨3145776 + 4096 * n, 0, 1, 0, 4⟩
/-- 09_frame_macs.md R305 MACn_LINK.TRAINING. -/
abbrev MACn_LINK_TRAINING (n : Nat) : RF := ⟨3145776 + 4096 * n, 1, 1, 0, 4⟩
/-- 09_frame_macs.md R305 MACn_LINK.PEG_WAIT. -/
abbrev MACn_LINK_PEG_WAIT (n : Nat) : RF := ⟨3145776 + 4096 * n, 2, 1, 0, 4⟩
/-- 09_frame_macs.md R305 MACn_LINK.DISABLED. -/
abbrev MACn_LINK_DISABLED (n : Nat) : RF := ⟨3145776 + 4096 * n, 3, 1, 0, 4⟩
/-- 09_frame_macs.md R305 MACn_LINK.RATE. -/
abbrev MACn_LINK_RATE (n : Nat) : RF := ⟨3145776 + 4096 * n, 4, 3, 0, 4⟩
/-- 09_frame_macs.md R305 MACn_LINK.LPI. -/
abbrev MACn_LINK_LPI (n : Nat) : RF := ⟨3145776 + 4096 * n, 7, 1, 0, 4⟩
/-- 09_frame_macs.md R305 MACn_STATUS.PAUSED. -/
abbrev MACn_STATUS_PAUSED (n : Nat) : RF := ⟨3145780 + 4096 * n, 0, 1, 0, 4⟩
/-- 09_frame_macs.md R305 MACn_STATUS.PAUSE_STUCK. -/
abbrev MACn_STATUS_PAUSE_STUCK (n : Nat) : RF := ⟨3145780 + 4096 * n, 1, 1, 0, 4⟩
/-- 09_frame_macs.md R305 MACn_STATUS.TSQ_LEVEL. -/
abbrev MACn_STATUS_TSQ_LEVEL (n : Nat) : RF := ⟨3145780 + 4096 * n, 2, 7, 0, 4⟩
/-- 09_frame_macs.md R305 MACn_STATUS.WAKE_ARMED. -/
abbrev MACn_STATUS_WAKE_ARMED (n : Nat) : RF := ⟨3145780 + 4096 * n, 9, 1, 0, 2⟩
/-- 09_frame_macs.md R305 MACn_STATUS.WAKE_CAUSE. -/
abbrev MACn_STATUS_WAKE_CAUSE (n : Nat) : RF := ⟨3145780 + 4096 * n, 12, 3, 0, 2⟩
/-- 09_frame_macs.md R305 MACn_STATUS.IDLE. -/
abbrev MACn_STATUS_IDLE (n : Nat) : RF := ⟨3145780 + 4096 * n, 15, 1, 1, 4⟩
/-- 09_frame_macs.md R305 MACn_CMD.OP. -/
abbrev MACn_CMD_OP (n : Nat) : RF := ⟨3145784 + 4096 * n, 0, 3, 0, 3⟩
/-- 09_frame_macs.md R305 MACn_CMD.RESULT. -/
abbrev MACn_CMD_RESULT (n : Nat) : RF := ⟨3145784 + 4096 * n, 4, 2, 0, 3⟩
/-- 09_frame_macs.md R305 MACn_CMD.BUSY. -/
abbrev MACn_CMD_BUSY (n : Nat) : RF := ⟨3145784 + 4096 * n, 30, 1, 0, 3⟩
/-- 09_frame_macs.md R305 MACn_CMD.GO. -/
abbrev MACn_CMD_GO (n : Nat) : RF := ⟨3145784 + 4096 * n, 31, 1, 0, 3⟩
/-- 09_frame_macs.md R305 MACn_RING.BASE. -/
abbrev MACn_RING_BASE (n k : Nat) : RF := ⟨3145984 + 4096 * n + 8 * k, 0, 17, 0, 4⟩
/-- 09_frame_macs.md R305 MACn_RING.LOG2N. -/
abbrev MACn_RING_LOG2N (n k : Nat) : RF := ⟨3145984 + 4096 * n + 8 * k, 24, 4, 0, 4⟩
/-- 09_frame_macs.md R305 MACn_RING.EN. -/
abbrev MACn_RING_EN (n k : Nat) : RF := ⟨3145984 + 4096 * n + 8 * k, 31, 1, 0, 4⟩
/-- 09_frame_macs.md R305 MACn_RPTR.HEAD. -/
abbrev MACn_RPTR_HEAD (n k : Nat) : RF := ⟨3145988 + 4096 * n + 8 * k, 0, 12, 0, 4⟩
/-- 09_frame_macs.md R305 MACn_RPTR.TAIL. -/
abbrev MACn_RPTR_TAIL (n k : Nat) : RF := ⟨3145988 + 4096 * n + 8 * k, 16, 12, 0, 4⟩
/-- 10_endpoint_protocols.md R338 NE_CFG.BAC_PORT. -/
abbrev NE_CFG_BAC_PORT : RF := ⟨3211264, 0, 16, 47808, 2⟩
/-- 10_endpoint_protocols.md R338 NE_CFG.COAP_PORT. -/
abbrev NE_CFG_COAP_PORT : RF := ⟨3211264, 16, 16, 5683, 2⟩
/-- 10_endpoint_protocols.md R338 NE_CFG2.REFRESH. -/
abbrev NE_CFG2_REFRESH : RF := ⟨3211268, 0, 8, 60, 2⟩
/-- 10_endpoint_protocols.md R338 NE_BACNET.VENDOR_ID. -/
abbrev NE_BACNET_VENDOR_ID : RF := ⟨3211272, 0, 16, 0, 2⟩
/-- 10_endpoint_protocols.md R338 NE_STAT.OBS_NE0. -/
abbrev NE_STAT_OBS_NE0 : RF := ⟨3211276, 0, 14, 0, 2⟩
/-- 10_endpoint_protocols.md R338 NE_STAT.OBS_NE1. -/
abbrev NE_STAT_OBS_NE1 : RF := ⟨3211276, 16, 14, 0, 2⟩
/-- 10_endpoint_protocols.md R338 NE_DISC.IP_DISC. -/
abbrev NE_DISC_IP_DISC : RF := ⟨3211280, 0, 16, 0, 2⟩
/-- 10_endpoint_protocols.md R338 NE_DISC.BAC_DISC. -/
abbrev NE_DISC_BAC_DISC : RF := ⟨3211280, 16, 16, 0, 2⟩
/-- 10_endpoint_protocols.md R338 NE_DISC2.SAFE_DISC. -/
abbrev NE_DISC2_SAFE_DISC : RF := ⟨3211284, 0, 16, 0, 2⟩
/-- 10_endpoint_protocols.md R338 NE_CTX_V4.ADDR. -/
abbrev NE_CTX_V4_ADDR (n : Nat) : RF := ⟨3215360 + 64 * n, 0, 32, 0, 2⟩
/-- 10_endpoint_protocols.md R338 NE_CTX_CFG.PREFIX. -/
abbrev NE_CTX_CFG_PREFIX (n : Nat) : RF := ⟨3215364 + 64 * n, 0, 6, 0, 2⟩
/-- 10_endpoint_protocols.md R338 NE_CTX_CFG.V4_EN. -/
abbrev NE_CTX_CFG_V4_EN (n : Nat) : RF := ⟨3215364 + 64 * n, 8, 1, 0, 2⟩
/-- 10_endpoint_protocols.md R338 NE_CTX_CFG.V6_EN. -/
abbrev NE_CTX_CFG_V6_EN (n : Nat) : RF := ⟨3215364 + 64 * n, 9, 1, 0, 2⟩
/-- 10_endpoint_protocols.md R338 NE_CTX_CFG.BAC_EN. -/
abbrev NE_CTX_CFG_BAC_EN (n : Nat) : RF := ⟨3215364 + 64 * n, 10, 1, 0, 2⟩
/-- 10_endpoint_protocols.md R338 NE_CTX_CFG.USRAS_EN. -/
abbrev NE_CTX_CFG_USRAS_EN (n : Nat) : RF := ⟨3215364 + 64 * n, 11, 1, 0, 2⟩
/-- 10_endpoint_protocols.md R338 NE_CTX_CFG.OSCORE_SLOT. -/
abbrev NE_CTX_CFG_OSCORE_SLOT (n : Nat) : RF := ⟨3215364 + 64 * n, 16, 6, 0, 2⟩
/-- 10_endpoint_protocols.md R338 NE_CTX_V4GW.GATEWAY. -/
abbrev NE_CTX_V4GW_GATEWAY (n : Nat) : RF := ⟨3215368 + 64 * n, 0, 32, 0, 2⟩
/-- 10_endpoint_protocols.md R338 NE_CTX_V6PFX_LO.PREFIX. -/
abbrev NE_CTX_V6PFX_LO_PREFIX (n : Nat) : RF := ⟨3215372 + 64 * n, 0, 32, 0, 2⟩
/-- 10_endpoint_protocols.md R338 NE_CTX_V6PFX_HI.PREFIX. -/
abbrev NE_CTX_V6PFX_HI_PREFIX (n : Nat) : RF := ⟨3215376 + 64 * n, 0, 32, 0, 2⟩
/-- 10_endpoint_protocols.md R338 NE_CTX_V6IID_LO.IID. -/
abbrev NE_CTX_V6IID_LO_IID (n : Nat) : RF := ⟨3215380 + 64 * n, 0, 32, 0, 2⟩
/-- 10_endpoint_protocols.md R338 NE_CTX_V6IID_HI.IID. -/
abbrev NE_CTX_V6IID_HI_IID (n : Nat) : RF := ⟨3215384 + 64 * n, 0, 32, 0, 2⟩
/-- 10_endpoint_protocols.md R338 NE_CTX_DEV.INSTANCE. -/
abbrev NE_CTX_DEV_INSTANCE (n : Nat) : RF := ⟨3215388 + 64 * n, 0, 22, 0, 2⟩
/-- 10_endpoint_protocols.md R338 NE_CTX_OBS.OBSERVERS. -/
abbrev NE_CTX_OBS_OBSERVERS (n : Nat) : RF := ⟨3215392 + 64 * n, 0, 11, 0, 2⟩
/-- 10_endpoint_protocols.md R338 NE_CTX_OBS.FAILED. -/
abbrev NE_CTX_OBS_FAILED (n : Nat) : RF := ⟨3215392 + 64 * n, 11, 5, 0, 2⟩
/-- 10_endpoint_protocols.md R338 NE_CTX_OBS.OSCORE_FAIL. -/
abbrev NE_CTX_OBS_OSCORE_FAIL (n : Nat) : RF := ⟨3215392 + 64 * n, 16, 8, 0, 2⟩
/-- 10_endpoint_protocols.md R338 NE_CTX_OBS.SHED. -/
abbrev NE_CTX_OBS_SHED (n : Nat) : RF := ⟨3215392 + 64 * n, 24, 8, 0, 2⟩
/-- 10_endpoint_protocols.md R338 NE_PTP_CFG.TYPE. -/
abbrev NE_PTP_CFG_TYPE : RF := ⟨3211520, 0, 2, 0, 2⟩
/-- 10_endpoint_protocols.md R338 NE_PTP_CFG.SLAVE_ONLY. -/
abbrev NE_PTP_CFG_SLAVE_ONLY : RF := ⟨3211520, 2, 1, 0, 2⟩
/-- 10_endpoint_protocols.md R338 NE_PTP_CFG.DOMAIN. -/
abbrev NE_PTP_CFG_DOMAIN : RF := ⟨3211520, 3, 8, 0, 2⟩
/-- 10_endpoint_protocols.md R338 NE_PTP_CFG.IPCTX. -/
abbrev NE_PTP_CFG_IPCTX : RF := ⟨3211520, 16, 6, 0, 2⟩
/-- 10_endpoint_protocols.md R338 NE_PTP_PRIO.PRIORITY1. -/
abbrev NE_PTP_PRIO_PRIORITY1 : RF := ⟨3211524, 0, 8, 128, 2⟩
/-- 10_endpoint_protocols.md R338 NE_PTP_PRIO.PRIORITY2. -/
abbrev NE_PTP_PRIO_PRIORITY2 : RF := ⟨3211524, 8, 8, 128, 2⟩
/-- 10_endpoint_protocols.md R338 NE_PTP_PRIO.CLASS. -/
abbrev NE_PTP_PRIO_CLASS : RF := ⟨3211524, 16, 8, 248, 2⟩
/-- 10_endpoint_protocols.md R338 NE_PTP_INTV.LOG_SYNC. -/
abbrev NE_PTP_INTV_LOG_SYNC : RF := ⟨3211528, 0, 4, 13, 2⟩
/-- 10_endpoint_protocols.md R338 NE_PTP_INTV.LOG_ANNOUNCE. -/
abbrev NE_PTP_INTV_LOG_ANNOUNCE : RF := ⟨3211528, 4, 4, 1, 2⟩
/-- 10_endpoint_protocols.md R338 NE_PTP_INTV.ANN_TIMEOUT. -/
abbrev NE_PTP_INTV_ANN_TIMEOUT : RF := ⟨3211528, 8, 4, 3, 2⟩
/-- 10_endpoint_protocols.md R338 NE_PTP_INTV.LOG_DELAY_REQ. -/
abbrev NE_PTP_INTV_LOG_DELAY_REQ : RF := ⟨3211528, 12, 4, 0, 2⟩
/-- 10_endpoint_protocols.md R338 NE_PTP_PORT.EN. -/
abbrev NE_PTP_PORT_EN (m : Nat) : RF := ⟨3211552 + 4 * m, 0, 1, 0, 2⟩
/-- 10_endpoint_protocols.md R338 NE_PTP_PORT.TRANSPORT. -/
abbrev NE_PTP_PORT_TRANSPORT (m : Nat) : RF := ⟨3211552 + 4 * m, 1, 2, 0, 2⟩
/-- 10_endpoint_protocols.md R338 NE_PTP_PORT.STATE. -/
abbrev NE_PTP_PORT_STATE (m : Nat) : RF := ⟨3211552 + 4 * m, 4, 4, 3, 2⟩
/-- 10_endpoint_protocols.md R338 NE_PTP_STAT.LOCKED. -/
abbrev NE_PTP_STAT_LOCKED : RF := ⟨3211532, 0, 1, 0, 2⟩
/-- 10_endpoint_protocols.md R338 NE_PTP_STAT.GM. -/
abbrev NE_PTP_STAT_GM : RF := ⟨3211532, 1, 1, 0, 2⟩
/-- 10_endpoint_protocols.md R338 NE_PTP_STAT.SLAVE_PORT. -/
abbrev NE_PTP_STAT_SLAVE_PORT : RF := ⟨3211532, 2, 3, 7, 2⟩
/-- 10_endpoint_protocols.md R338 NE_PTP_STAT.STEPS. -/
abbrev NE_PTP_STAT_STEPS : RF := ⟨3211532, 16, 16, 0, 2⟩
/-- 10_endpoint_protocols.md R338 NE_PTP_OFFSET.OFFSET. -/
abbrev NE_PTP_OFFSET_OFFSET : RF := ⟨3211536, 0, 32, 0, 2⟩
/-- 10_endpoint_protocols.md R338 NE_PTP_GM_LO.IDENTITY. -/
abbrev NE_PTP_GM_LO_IDENTITY : RF := ⟨3211540, 0, 32, 0, 2⟩
/-- 10_endpoint_protocols.md R338 NE_PTP_GM_HI.IDENTITY. -/
abbrev NE_PTP_GM_HI_IDENTITY : RF := ⟨3211544, 0, 32, 0, 2⟩
/-- 10_endpoint_protocols.md R338 NE_PTP_DISC.UNSUP. -/
abbrev NE_PTP_DISC_UNSUP : RF := ⟨3211548, 0, 16, 0, 2⟩
/-- 10_endpoint_protocols.md R338 NE_PTP_DISC.OTHER. -/
abbrev NE_PTP_DISC_OTHER : RF := ⟨3211548, 16, 16, 0, 2⟩
/-- 10_endpoint_protocols.md R338 NE_TIME_NS.NS. -/
abbrev NE_TIME_NS_NS : RF := ⟨3211584, 0, 30, 0, 1⟩
/-- 10_endpoint_protocols.md R338 NE_TIME_SEC_LO.SEC_LO. -/
abbrev NE_TIME_SEC_LO_SEC_LO : RF := ⟨3211588, 0, 32, 0, 1⟩
/-- 10_endpoint_protocols.md R338 NE_TIME_SEC_HI.SEC_HI. -/
abbrev NE_TIME_SEC_HI_SEC_HI : RF := ⟨3211592, 0, 16, 0, 1⟩
/-- 10_endpoint_protocols.md R338 NE_TIME_ADJ.ADJ. -/
abbrev NE_TIME_ADJ_ADJ : RF := ⟨3211596, 0, 32, 0, 1⟩
/-- 10_endpoint_protocols.md R338 NE_TIME_SET_LO.SECONDS. -/
abbrev NE_TIME_SET_LO_SECONDS : RF := ⟨3211600, 0, 32, 0, 3⟩
/-- 10_endpoint_protocols.md R338 NE_TIME_SET_HI.SECONDS. -/
abbrev NE_TIME_SET_HI_SECONDS : RF := ⟨3211604, 0, 16, 0, 3⟩
/-- 10_endpoint_protocols.md R338 NE_PTP_CMD.OP. -/
abbrev NE_PTP_CMD_OP : RF := ⟨3211608, 0, 3, 0, 3⟩
/-- 10_endpoint_protocols.md R338 NE_PTP_CMD.RESULT. -/
abbrev NE_PTP_CMD_RESULT : RF := ⟨3211608, 4, 2, 0, 3⟩
/-- 10_endpoint_protocols.md R338 NE_PTP_CMD.BUSY. -/
abbrev NE_PTP_CMD_BUSY : RF := ⟨3211608, 30, 1, 0, 3⟩
/-- 10_endpoint_protocols.md R338 NE_PTP_CMD.GO. -/
abbrev NE_PTP_CMD_GO : RF := ⟨3211608, 31, 1, 0, 3⟩
/-- 11_field_buses.md R369 CANn_CFG.EN. -/
abbrev CANn_CFG_EN (n : Nat) : RF := ⟨3342336 + 1024 * n, 0, 1, 0, 2⟩
/-- 11_field_buses.md R369 CANn_CFG.LISTEN. -/
abbrev CANn_CFG_LISTEN (n : Nat) : RF := ⟨3342336 + 1024 * n, 1, 1, 0, 2⟩
/-- 11_field_buses.md R369 CANn_CFG.FD_EN. -/
abbrev CANn_CFG_FD_EN (n : Nat) : RF := ⟨3342336 + 1024 * n, 2, 1, 1, 2⟩
/-- 11_field_buses.md R369 CANn_CFG.TXORDER. -/
abbrev CANn_CFG_TXORDER (n : Nat) : RF := ⟨3342336 + 1024 * n, 3, 1, 0, 2⟩
/-- 11_field_buses.md R369 CANn_CFG.RETRY. -/
abbrev CANn_CFG_RETRY (n : Nat) : RF := ⟨3342336 + 1024 * n, 4, 4, 0, 2⟩
/-- 11_field_buses.md R369 CANn_CFG.AUTO_RECOVER. -/
abbrev CANn_CFG_AUTO_RECOVER (n : Nat) : RF := ⟨3342336 + 1024 * n, 8, 1, 1, 2⟩
/-- 11_field_buses.md R369 CANn_CFG.TDC_EN. -/
abbrev CANn_CFG_TDC_EN (n : Nat) : RF := ⟨3342336 + 1024 * n, 9, 1, 1, 2⟩
/-- 11_field_buses.md R369 CANn_CFG.TDC_OFF. -/
abbrev CANn_CFG_TDC_OFF (n : Nat) : RF := ⟨3342336 + 1024 * n, 16, 7, 30, 2⟩
/-- 11_field_buses.md R369 CANn_NBT.BRP_M1. -/
abbrev CANn_NBT_BRP_M1 (n : Nat) : RF := ⟨3342340 + 1024 * n, 0, 5, 0, 2⟩
/-- 11_field_buses.md R369 CANn_NBT.TSEG1_M1. -/
abbrev CANn_NBT_TSEG1_M1 (n : Nat) : RF := ⟨3342340 + 1024 * n, 5, 8, 126, 2⟩
/-- 11_field_buses.md R369 CANn_NBT.TSEG2_M1. -/
abbrev CANn_NBT_TSEG2_M1 (n : Nat) : RF := ⟨3342340 + 1024 * n, 13, 7, 31, 2⟩
/-- 11_field_buses.md R369 CANn_NBT.SJW_M1. -/
abbrev CANn_NBT_SJW_M1 (n : Nat) : RF := ⟨3342340 + 1024 * n, 20, 7, 31, 2⟩
/-- 11_field_buses.md R369 CANn_DBT.BRP_M1. -/
abbrev CANn_DBT_BRP_M1 (n : Nat) : RF := ⟨3342344 + 1024 * n, 0, 5, 0, 2⟩
/-- 11_field_buses.md R369 CANn_DBT.TSEG1_M1. -/
abbrev CANn_DBT_TSEG1_M1 (n : Nat) : RF := ⟨3342344 + 1024 * n, 5, 5, 28, 2⟩
/-- 11_field_buses.md R369 CANn_DBT.TSEG2_M1. -/
abbrev CANn_DBT_TSEG2_M1 (n : Nat) : RF := ⟨3342344 + 1024 * n, 10, 4, 9, 2⟩
/-- 11_field_buses.md R369 CANn_DBT.SJW_M1. -/
abbrev CANn_DBT_SJW_M1 (n : Nat) : RF := ⟨3342344 + 1024 * n, 14, 4, 9, 2⟩
/-- 11_field_buses.md R369 CANn_RC_CFG.EN. -/
abbrev CANn_RC_CFG_EN (n : Nat) : RF := ⟨3342360 + 1024 * n, 0, 1, 0, 2⟩
/-- 11_field_buses.md R369 CANn_RC_CFG.PREFIX. -/
abbrev CANn_RC_CFG_PREFIX (n : Nat) : RF := ⟨3342360 + 1024 * n, 1, 9, 504, 2⟩
/-- 11_field_buses.md R369 CANn_RC_CFG.CALL_PERIOD. -/
abbrev CANn_RC_CFG_CALL_PERIOD (n : Nat) : RF := ⟨3342360 + 1024 * n, 10, 6, 2, 2⟩
/-- 11_field_buses.md R369 CANn_RC_CFG.HB_MISS. -/
abbrev CANn_RC_CFG_HB_MISS (n : Nat) : RF := ⟨3342360 + 1024 * n, 16, 4, 3, 2⟩
/-- 11_field_buses.md R369 CANn_RC_CFG.LEARN. -/
abbrev CANn_RC_CFG_LEARN (n : Nat) : RF := ⟨3342360 + 1024 * n, 20, 1, 0, 2⟩
/-- 11_field_buses.md R369 CANn_FID.ID. -/
abbrev CANn_FID_ID (n k : Nat) : RF := ⟨3342592 + 1024 * n + 8 * k, 0, 29, 0, 2⟩
/-- 11_field_buses.md R369 CANn_FID.IDE. -/
abbrev CANn_FID_IDE (n k : Nat) : RF := ⟨3342592 + 1024 * n + 8 * k, 29, 1, 0, 2⟩
/-- 11_field_buses.md R369 CANn_FID.FIFO. -/
abbrev CANn_FID_FIFO (n k : Nat) : RF := ⟨3342592 + 1024 * n + 8 * k, 30, 1, 0, 2⟩
/-- 11_field_buses.md R369 CANn_FID.EN. -/
abbrev CANn_FID_EN (n k : Nat) : RF := ⟨3342592 + 1024 * n + 8 * k, 31, 1, 0, 2⟩
/-- 11_field_buses.md R369 CANn_FMASK.MASK. -/
abbrev CANn_FMASK_MASK (n k : Nat) : RF := ⟨3342596 + 1024 * n + 8 * k, 0, 29, 0, 2⟩
/-- 11_field_buses.md R369 CANn_ABR.NOM. -/
abbrev CANn_ABR_NOM (n : Nat) : RF := ⟨3342348 + 1024 * n, 0, 4, 0, 2⟩
/-- 11_field_buses.md R369 CANn_ABR.DATA. -/
abbrev CANn_ABR_DATA (n : Nat) : RF := ⟨3342348 + 1024 * n, 4, 3, 0, 2⟩
/-- 11_field_buses.md R369 CANn_ABR.DONE. -/
abbrev CANn_ABR_DONE (n : Nat) : RF := ⟨3342348 + 1024 * n, 8, 1, 0, 2⟩
/-- 11_field_buses.md R369 CANn_ABR.FOUND. -/
abbrev CANn_ABR_FOUND (n : Nat) : RF := ⟨3342348 + 1024 * n, 9, 1, 0, 2⟩
/-- 11_field_buses.md R369 CANn_ABR.FRAMES. -/
abbrev CANn_ABR_FRAMES (n : Nat) : RF := ⟨3342348 + 1024 * n, 16, 16, 0, 2⟩
/-- 11_field_buses.md R369 CANn_STAT.STATE. -/
abbrev CANn_STAT_STATE (n : Nat) : RF := ⟨3342352 + 1024 * n, 0, 2, 3, 4⟩
/-- 11_field_buses.md R369 CANn_STAT.IDLE. -/
abbrev CANn_STAT_IDLE (n : Nat) : RF := ⟨3342352 + 1024 * n, 2, 1, 1, 4⟩
/-- 11_field_buses.md R369 CANn_STAT.DETECTING. -/
abbrev CANn_STAT_DETECTING (n : Nat) : RF := ⟨3342352 + 1024 * n, 3, 1, 0, 4⟩
/-- 11_field_buses.md R369 CANn_STAT.AUDIT_FAIL. -/
abbrev CANn_STAT_AUDIT_FAIL (n : Nat) : RF := ⟨3342352 + 1024 * n, 4, 1, 0, 2⟩
/-- 11_field_buses.md R369 CANn_STAT.REC. -/
abbrev CANn_STAT_REC (n : Nat) : RF := ⟨3342352 + 1024 * n, 8, 8, 0, 4⟩
/-- 11_field_buses.md R369 CANn_STAT.TEC. -/
abbrev CANn_STAT_TEC (n : Nat) : RF := ⟨3342352 + 1024 * n, 16, 9, 0, 4⟩
/-- 11_field_buses.md R369 CANn_CMD.OP. -/
abbrev CANn_CMD_OP (n : Nat) : RF := ⟨3342356 + 1024 * n, 0, 3, 0, 3⟩
/-- 11_field_buses.md R369 CANn_CMD.RESULT. -/
abbrev CANn_CMD_RESULT (n : Nat) : RF := ⟨3342356 + 1024 * n, 4, 2, 0, 3⟩
/-- 11_field_buses.md R369 CANn_CMD.BUSY. -/
abbrev CANn_CMD_BUSY (n : Nat) : RF := ⟨3342356 + 1024 * n, 30, 1, 0, 3⟩
/-- 11_field_buses.md R369 CANn_CMD.GO. -/
abbrev CANn_CMD_GO (n : Nat) : RF := ⟨3342356 + 1024 * n, 31, 1, 0, 3⟩
/-- 11_field_buses.md R369 CANn_RC_STAT.PRESENT. -/
abbrev CANn_RC_STAT_PRESENT (n : Nat) : RF := ⟨3342364 + 1024 * n, 0, 7, 0, 2⟩
/-- 11_field_buses.md R369 CANn_RC_STAT.BOUND. -/
abbrev CANn_RC_STAT_BOUND (n : Nat) : RF := ⟨3342364 + 1024 * n, 8, 7, 0, 2⟩
/-- 11_field_buses.md R369 CANn_RC_STAT.REFUSED. -/
abbrev CANn_RC_STAT_REFUSED (n : Nat) : RF := ⟨3342364 + 1024 * n, 16, 16, 0, 2⟩
/-- 11_field_buses.md R369 CANn_RC_SEL.NODE. -/
abbrev CANn_RC_SEL_NODE (n : Nat) : RF := ⟨3342368 + 1024 * n, 0, 7, 0, 3⟩
/-- 11_field_buses.md R369 CANn_RC_NODE.STATE. -/
abbrev CANn_RC_NODE_STATE (n : Nat) : RF := ⟨3342372 + 1024 * n, 0, 2, 0, 2⟩
/-- 11_field_buses.md R369 CANn_RC_NODE.LEARNED. -/
abbrev CANn_RC_NODE_LEARNED (n : Nat) : RF := ⟨3342372 + 1024 * n, 2, 1, 0, 2⟩
/-- 11_field_buses.md R369 CANn_RC_NODE.STATUS. -/
abbrev CANn_RC_NODE_STATUS (n : Nat) : RF := ⟨3342372 + 1024 * n, 8, 8, 0, 2⟩
/-- 11_field_buses.md R369 CANn_RC_NODE.AGE. -/
abbrev CANn_RC_NODE_AGE (n : Nat) : RF := ⟨3342372 + 1024 * n, 16, 16, 65535, 2⟩
/-- 11_field_buses.md R369 CANn_RC_UID_LO.UID. -/
abbrev CANn_RC_UID_LO_UID (n : Nat) : RF := ⟨3342376 + 1024 * n, 0, 32, 0, 2⟩
/-- 11_field_buses.md R369 CANn_RC_UID_HI.UID. -/
abbrev CANn_RC_UID_HI_UID (n : Nat) : RF := ⟨3342380 + 1024 * n, 0, 32, 0, 2⟩
/-- 11_field_buses.md R369 CANn_RC_NEW_LO.UID. -/
abbrev CANn_RC_NEW_LO_UID (n : Nat) : RF := ⟨3342384 + 1024 * n, 0, 32, 0, 2⟩
/-- 11_field_buses.md R369 CANn_RC_NEW_HI.UID. -/
abbrev CANn_RC_NEW_HI_UID (n : Nat) : RF := ⟨3342388 + 1024 * n, 0, 32, 0, 2⟩
/-- 11_field_buses.md R369 CANn_FIFO.LEVEL0. -/
abbrev CANn_FIFO_LEVEL0 (n : Nat) : RF := ⟨3342392 + 1024 * n, 0, 7, 0, 4⟩
/-- 11_field_buses.md R369 CANn_FIFO.LEVEL1. -/
abbrev CANn_FIFO_LEVEL1 (n : Nat) : RF := ⟨3342392 + 1024 * n, 16, 7, 0, 4⟩
/-- 11_field_buses.md R371 UARTn_CFG.EN. -/
abbrev UARTn_CFG_EN (n : Nat) : RF := ⟨3407872 + 256 * n, 0, 1, 0, 2⟩
/-- 11_field_buses.md R371 UARTn_CFG.PARITY. -/
abbrev UARTn_CFG_PARITY (n : Nat) : RF := ⟨3407872 + 256 * n, 1, 2, 1, 2⟩
/-- 11_field_buses.md R371 UARTn_CFG.STOP2. -/
abbrev UARTn_CFG_STOP2 (n : Nat) : RF := ⟨3407872 + 256 * n, 3, 1, 0, 2⟩
/-- 11_field_buses.md R371 UARTn_CFG.DE_HOLD. -/
abbrev UARTn_CFG_DE_HOLD (n : Nat) : RF := ⟨3407872 + 256 * n, 4, 8, 1, 2⟩
/-- 11_field_buses.md R371 UARTn_CFG.RETRIES. -/
abbrev UARTn_CFG_RETRIES (n : Nat) : RF := ⟨3407872 + 256 * n, 12, 2, 1, 2⟩
/-- 11_field_buses.md R371 UARTn_BAUD.DIV. -/
abbrev UARTn_BAUD_DIV (n : Nat) : RF := ⟨3407876 + 256 * n, 0, 16, 1041, 2⟩
/-- 11_field_buses.md R371 UARTn_BAUD.FRAC. -/
abbrev UARTn_BAUD_FRAC (n : Nat) : RF := ⟨3407876 + 256 * n, 16, 4, 11, 2⟩
/-- 11_field_buses.md R371 UARTn_GAP.T15_US. -/
abbrev UARTn_GAP_T15_US (n : Nat) : RF := ⟨3407880 + 256 * n, 0, 16, 0, 2⟩
/-- 11_field_buses.md R371 UARTn_GAP.T35_US. -/
abbrev UARTn_GAP_T35_US (n : Nat) : RF := ⟨3407880 + 256 * n, 16, 16, 0, 2⟩
/-- 11_field_buses.md R371 UARTn_TIMING.TIMEOUT_MS. -/
abbrev UARTn_TIMING_TIMEOUT_MS (n : Nat) : RF := ⟨3407884 + 256 * n, 0, 16, 100, 2⟩
/-- 11_field_buses.md R371 UARTn_TIMING.ABSENT_POLL_MS. -/
abbrev UARTn_TIMING_ABSENT_POLL_MS (n : Nat) : RF := ⟨3407884 + 256 * n, 16, 16, 5000, 2⟩
/-- 11_field_buses.md R371 UARTn_STAT.IDLE. -/
abbrev UARTn_STAT_IDLE (n : Nat) : RF := ⟨3407888 + 256 * n, 0, 1, 1, 4⟩
/-- 11_field_buses.md R371 UARTn_STAT.DE. -/
abbrev UARTn_STAT_DE (n : Nat) : RF := ⟨3407888 + 256 * n, 1, 1, 0, 4⟩
/-- 11_field_buses.md R371 UARTn_STAT.IN_TRANS. -/
abbrev UARTn_STAT_IN_TRANS (n : Nat) : RF := ⟨3407888 + 256 * n, 2, 1, 0, 4⟩
/-- 11_field_buses.md R371 UARTn_STAT.QUEUE. -/
abbrev UARTn_STAT_QUEUE (n : Nat) : RF := ⟨3407888 + 256 * n, 16, 12, 0, 4⟩
/-- 11_field_buses.md R371 UARTn_CMD.OP. -/
abbrev UARTn_CMD_OP (n : Nat) : RF := ⟨3407892 + 256 * n, 0, 3, 0, 3⟩
/-- 11_field_buses.md R371 UARTn_CMD.RESULT. -/
abbrev UARTn_CMD_RESULT (n : Nat) : RF := ⟨3407892 + 256 * n, 4, 2, 0, 3⟩
/-- 11_field_buses.md R371 UARTn_CMD.BUSY. -/
abbrev UARTn_CMD_BUSY (n : Nat) : RF := ⟨3407892 + 256 * n, 30, 1, 0, 3⟩
/-- 11_field_buses.md R371 UARTn_CMD.GO. -/
abbrev UARTn_CMD_GO (n : Nat) : RF := ⟨3407892 + 256 * n, 31, 1, 0, 3⟩
/-- 11_field_buses.md R371 UARTn_ST_SEL.STATION. -/
abbrev UARTn_ST_SEL_STATION (n : Nat) : RF := ⟨3407896 + 256 * n, 0, 8, 1, 3⟩
/-- 11_field_buses.md R371 UARTn_ST_STAT.STATE. -/
abbrev UARTn_ST_STAT_STATE (n : Nat) : RF := ⟨3407900 + 256 * n, 0, 2, 0, 2⟩
/-- 11_field_buses.md R371 UARTn_ST_STAT.LAST_EXC. -/
abbrev UARTn_ST_STAT_LAST_EXC (n : Nat) : RF := ⟨3407900 + 256 * n, 8, 8, 0, 2⟩
/-- 11_field_buses.md R371 UARTn_ST_STAT.TIMEOUTS. -/
abbrev UARTn_ST_STAT_TIMEOUTS (n : Nat) : RF := ⟨3407900 + 256 * n, 16, 16, 0, 2⟩
/-- 11_field_buses.md R371 UARTn_GAPEFF.T15. -/
abbrev UARTn_GAPEFF_T15 (n : Nat) : RF := ⟨3407940 + 256 * n, 0, 16, 0, 2⟩
/-- 11_field_buses.md R371 UARTn_GAPEFF.T35. -/
abbrev UARTn_GAPEFF_T35 (n : Nat) : RF := ⟨3407940 + 256 * n, 16, 16, 0, 2⟩
/-- 12_fabric_and_memory.md R403 MEM_STAT.WIPING. -/
abbrev MEM_STAT_WIPING : RF := ⟨4194304, 0, 7, 0, 1⟩
/-- 12_fabric_and_memory.md R403 MEM_STAT.DRAM_READY. -/
abbrev MEM_STAT_DRAM_READY : RF := ⟨4194304, 8, 1, 0, 1⟩
/-- 12_fabric_and_memory.md R403 MEM_STAT.SELF_REFRESH. -/
abbrev MEM_STAT_SELF_REFRESH : RF := ⟨4194304, 9, 1, 0, 1⟩
/-- 12_fabric_and_memory.md R403 MEM_STAT.NAND_READY. -/
abbrev MEM_STAT_NAND_READY : RF := ⟨4194304, 16, 1, 0, 1⟩
/-- 12_fabric_and_memory.md R403 MEM_STAT.NOR_READY. -/
abbrev MEM_STAT_NOR_READY : RF := ⟨4194304, 17, 1, 0, 1⟩
/-- 12_fabric_and_memory.md R403 MEM_CMD.OP. -/
abbrev MEM_CMD_OP : RF := ⟨4194308, 0, 3, 0, 3⟩
/-- 12_fabric_and_memory.md R403 MEM_CMD.RESULT. -/
abbrev MEM_CMD_RESULT : RF := ⟨4194308, 4, 2, 0, 3⟩
/-- 12_fabric_and_memory.md R403 MEM_CMD.BUSY. -/
abbrev MEM_CMD_BUSY : RF := ⟨4194308, 30, 1, 0, 3⟩
/-- 12_fabric_and_memory.md R403 MEM_CMD.GO. -/
abbrev MEM_CMD_GO : RF := ⟨4194308, 31, 1, 0, 3⟩
/-- 12_fabric_and_memory.md R403 MEM_SCRUB_CFG.SRAM_MIN. -/
abbrev MEM_SCRUB_CFG_SRAM_MIN : RF := ⟨4194312, 0, 8, 10, 2⟩
/-- 12_fabric_and_memory.md R403 MEM_SCRUB_CFG.DRAM_H. -/
abbrev MEM_SCRUB_CFG_DRAM_H : RF := ⟨4194312, 8, 8, 24, 2⟩
/-- 12_fabric_and_memory.md R403 MEM_SCRUB_CFG.NAND_DAYS. -/
abbrev MEM_SCRUB_CFG_NAND_DAYS : RF := ⟨4194312, 16, 7, 30, 2⟩
/-- 12_fabric_and_memory.md R403 MEM_SCRUB_STAT.SRAM_PASSES. -/
abbrev MEM_SCRUB_STAT_SRAM_PASSES : RF := ⟨4194316, 0, 16, 0, 1⟩
/-- 12_fabric_and_memory.md R403 MEM_SCRUB_STAT.DRAM_PASSES. -/
abbrev MEM_SCRUB_STAT_DRAM_PASSES : RF := ⟨4194316, 16, 16, 0, 1⟩
/-- 12_fabric_and_memory.md R403 MEM_CE_CFG.LIMIT. -/
abbrev MEM_CE_CFG_LIMIT : RF := ⟨4194320, 0, 16, 16, 2⟩
/-- 12_fabric_and_memory.md R403 MEM_AUDIT.FABRIC. -/
abbrev MEM_AUDIT_FABRIC : RF := ⟨4194324, 0, 1, 0, 2⟩
/-- 12_fabric_and_memory.md R403 MEM_AUDIT.DCQ. -/
abbrev MEM_AUDIT_DCQ : RF := ⟨4194324, 1, 1, 0, 2⟩
/-- 12_fabric_and_memory.md R403 MEM_AUDIT.CTX_POOL. -/
abbrev MEM_AUDIT_CTX_POOL : RF := ⟨4194324, 2, 1, 0, 2⟩
/-- 12_fabric_and_memory.md R403 MEM_AUDIT.NE_AREA. -/
abbrev MEM_AUDIT_NE_AREA : RF := ⟨4194324, 3, 1, 0, 2⟩
/-- 12_fabric_and_memory.md R403 MEM_AUDIT.BB0_OTHER. -/
abbrev MEM_AUDIT_BB0_OTHER : RF := ⟨4194324, 4, 1, 0, 2⟩
/-- 12_fabric_and_memory.md R403 MEM_AUDIT.BB1_OTHER. -/
abbrev MEM_AUDIT_BB1_OTHER : RF := ⟨4194324, 5, 1, 0, 2⟩
/-- 12_fabric_and_memory.md R403 MEM_AUDIT.AUDITS. -/
abbrev MEM_AUDIT_AUDITS : RF := ⟨4194324, 16, 16, 0, 2⟩
/-- 12_fabric_and_memory.md R403 MEM_LAST_LO.ADDR_LO. -/
abbrev MEM_LAST_LO_ADDR_LO : RF := ⟨4194328, 0, 32, 0, 1⟩
/-- 12_fabric_and_memory.md R403 MEM_LAST_HI.ADDR_32. -/
abbrev MEM_LAST_HI_ADDR_32 : RF := ⟨4194332, 0, 1, 0, 1⟩
/-- 12_fabric_and_memory.md R403 MEM_LAST_HI.REGION. -/
abbrev MEM_LAST_HI_REGION : RF := ⟨4194332, 4, 3, 0, 1⟩
/-- 12_fabric_and_memory.md R403 MEM_LAST_HI.SYMBOL. -/
abbrev MEM_LAST_HI_SYMBOL : RF := ⟨4194332, 8, 5, 0, 1⟩
/-- 12_fabric_and_memory.md R403 MEM_LAST_HI.DETECTED. -/
abbrev MEM_LAST_HI_DETECTED : RF := ⟨4194332, 13, 1, 0, 1⟩
/-- 12_fabric_and_memory.md R403 MEM_LAST_HI.BY_SCRUB. -/
abbrev MEM_LAST_HI_BY_SCRUB : RF := ⟨4194332, 14, 1, 0, 1⟩
/-- 12_fabric_and_memory.md R403 MEM_LAST_HI.STUCK. -/
abbrev MEM_LAST_HI_STUCK : RF := ⟨4194332, 15, 1, 0, 1⟩
/-- 12_fabric_and_memory.md R403 MEM_CE.CORRECTED. -/
abbrev MEM_CE_CORRECTED (r : Nat) : RF := ⟨4194368 + 8 * r, 0, 32, 0, 1⟩
/-- 12_fabric_and_memory.md R403 MEM_DUE.DETECTED. -/
abbrev MEM_DUE_DETECTED (r : Nat) : RF := ⟨4194372 + 8 * r, 0, 16, 0, 1⟩
/-- 12_fabric_and_memory.md R403 MEM_FAB.MAX_WAIT. -/
abbrev MEM_FAB_MAX_WAIT (c : Nat) : RF := ⟨4194432 + 4 * c, 0, 8, 0, 2⟩
/-- 12_fabric_and_memory.md R403 MEM_FAB.AGED. -/
abbrev MEM_FAB_AGED (c : Nat) : RF := ⟨4194432 + 4 * c, 16, 16, 0, 2⟩
/-- 12_fabric_and_memory.md R403 MEM_DRAM_STAT.RETIRED. -/
abbrev MEM_DRAM_STAT_RETIRED : RF := ⟨4194336, 0, 13, 0, 1⟩
/-- 12_fabric_and_memory.md R403 MEM_DRAM_STAT.SPARE_LEFT. -/
abbrev MEM_DRAM_STAT_SPARE_LEFT : RF := ⟨4194336, 16, 13, 0, 1⟩
/-- 12_fabric_and_memory.md R403 MEM_NAND_STAT.BAD. -/
abbrev MEM_NAND_STAT_BAD : RF := ⟨4194340, 0, 10, 0, 1⟩
/-- 12_fabric_and_memory.md R403 MEM_NAND_STAT.SPARE_LEFT. -/
abbrev MEM_NAND_STAT_SPARE_LEFT : RF := ⟨4194340, 16, 9, 0, 1⟩
/-- 12_fabric_and_memory.md R403 MEM_NAND_STAT2.MAX_PE. -/
abbrev MEM_NAND_STAT2_MAX_PE : RF := ⟨4194344, 0, 16, 0, 1⟩
/-- 12_fabric_and_memory.md R403 MEM_NAND_STAT2.REFRESHED. -/
abbrev MEM_NAND_STAT2_REFRESHED : RF := ⟨4194344, 16, 16, 0, 1⟩
/-- 12_fabric_and_memory.md R403 MEM_NOR_STAT.BOOTED_B. -/
abbrev MEM_NOR_STAT_BOOTED_B : RF := ⟨4194348, 0, 1, 0, 1⟩
/-- 12_fabric_and_memory.md R403 MEM_NOR_STAT.A_VALID. -/
abbrev MEM_NOR_STAT_A_VALID : RF := ⟨4194348, 1, 1, 0, 1⟩
/-- 12_fabric_and_memory.md R403 MEM_NOR_STAT.B_VALID. -/
abbrev MEM_NOR_STAT_B_VALID : RF := ⟨4194348, 2, 1, 0, 1⟩
/-- 12_fabric_and_memory.md R403 MEM_NOR_STAT.FUSE0_VALID. -/
abbrev MEM_NOR_STAT_FUSE0_VALID : RF := ⟨4194348, 3, 1, 0, 1⟩
/-- 12_fabric_and_memory.md R403 MEM_NOR_STAT.FUSE1_VALID. -/
abbrev MEM_NOR_STAT_FUSE1_VALID : RF := ⟨4194348, 4, 1, 0, 1⟩
/-- 12_fabric_and_memory.md R403 MEM_POOL.COMMON_FREE. -/
abbrev MEM_POOL_COMMON_FREE : RF := ⟨4194352, 0, 11, 0, 2⟩
/-- 12_fabric_and_memory.md R403 MEM_POOL.RESERVE. -/
abbrev MEM_POOL_RESERVE : RF := ⟨4194352, 16, 10, 0, 2⟩
/-- 12_fabric_and_memory.md R403 MEM_BB_FREE.BB0. -/
abbrev MEM_BB_FREE_BB0 : RF := ⟨4194356, 0, 11, 0, 2⟩
/-- 12_fabric_and_memory.md R403 MEM_BB_FREE.BB1. -/
abbrev MEM_BB_FREE_BB1 : RF := ⟨4194356, 16, 11, 0, 2⟩
/-- 12_fabric_and_memory.md R403 MEM_CTX_BUF.RESERVED_HELD. -/
abbrev MEM_CTX_BUF_RESERVED_HELD (n : Nat) : RF := ⟨4194560 + 8 * n, 0, 11, 0, 2⟩
/-- 12_fabric_and_memory.md R403 MEM_CTX_BUF.COMMON_HELD. -/
abbrev MEM_CTX_BUF_COMMON_HELD (n : Nat) : RF := ⟨4194560 + 8 * n, 16, 11, 0, 2⟩
/-- 12_fabric_and_memory.md R403 MEM_SHED.COUNT. -/
abbrev MEM_SHED_COUNT (n : Nat) : RF := ⟨4194564 + 8 * n, 0, 32, 0, 2⟩
/-- 13_time_keys_tamper.md R435 RTC_TICK_LO.TICK_LO. -/
abbrev RTC_TICK_LO_TICK_LO : RF := ⟨5242880, 0, 32, 0, 0⟩
/-- 13_time_keys_tamper.md R435 RTC_TICK_HI.TICK_HI. -/
abbrev RTC_TICK_HI_TICK_HI : RF := ⟨5242884, 0, 16, 0, 0⟩
/-- 13_time_keys_tamper.md R435 RTC_SET_LO.SET_LO. -/
abbrev RTC_SET_LO_SET_LO : RF := ⟨5242888, 0, 32, 0, 0⟩
/-- 13_time_keys_tamper.md R435 RTC_SET_HI.SET_HI. -/
abbrev RTC_SET_HI_SET_HI : RF := ⟨5242892, 0, 16, 0, 0⟩
/-- 13_time_keys_tamper.md R435 RTC_CTRL.LOAD. -/
abbrev RTC_CTRL_LOAD : RF := ⟨5242896, 0, 1, 0, 0⟩
/-- 13_time_keys_tamper.md R435 RTC_CTRL.ALARM_ARM. -/
abbrev RTC_CTRL_ALARM_ARM : RF := ⟨5242896, 8, 1, 0, 0⟩
/-- 13_time_keys_tamper.md R435 RTC_CTRL.ALARM_WAKE. -/
abbrev RTC_CTRL_ALARM_WAKE : RF := ⟨5242896, 9, 1, 0, 0⟩
/-- 13_time_keys_tamper.md R435 RTC_CTRL.ALARM. -/
abbrev RTC_CTRL_ALARM : RF := ⟨5242896, 10, 1, 0, 0⟩
/-- 13_time_keys_tamper.md R435 RTC_ALARM_LO.ALARM_LO. -/
abbrev RTC_ALARM_LO_ALARM_LO : RF := ⟨5242900, 0, 32, 0, 0⟩
/-- 13_time_keys_tamper.md R435 RTC_ALARM_HI.ALARM_HI. -/
abbrev RTC_ALARM_HI_ALARM_HI : RF := ⟨5242904, 0, 16, 0, 0⟩
/-- 13_time_keys_tamper.md R435 RTC_WAKE.PERIOD. -/
abbrev RTC_WAKE_PERIOD : RF := ⟨5242908, 0, 16, 0, 0⟩
/-- 13_time_keys_tamper.md R435 RTC_WAKE.EN. -/
abbrev RTC_WAKE_EN : RF := ⟨5242908, 16, 1, 0, 0⟩
/-- 13_time_keys_tamper.md R435 RTC_WAKE.MISSED. -/
abbrev RTC_WAKE_MISSED : RF := ⟨5242908, 17, 1, 0, 0⟩
/-- 13_time_keys_tamper.md R435 RTC_DRIFT.PPM. -/
abbrev RTC_DRIFT_PPM : RF := ⟨5242912, 0, 24, 0, 1⟩
/-- 13_time_keys_tamper.md R435 RTC_DRIFT.AGAINST_PTP. -/
abbrev RTC_DRIFT_AGAINST_PTP : RF := ⟨5242912, 24, 1, 0, 1⟩
/-- 13_time_keys_tamper.md R435 RTC_DRIFT.FRESH. -/
abbrev RTC_DRIFT_FRESH : RF := ⟨5242912, 25, 1, 0, 1⟩
/-- 13_time_keys_tamper.md R435 RTC_STAT.SHADOW. -/
abbrev RTC_STAT_SHADOW : RF := ⟨5242916, 0, 1, 0, 3⟩
/-- 13_time_keys_tamper.md R435 RTC_STAT.LOADS. -/
abbrev RTC_STAT_LOADS : RF := ⟨5242916, 8, 8, 0, 0⟩
/-- 13_time_keys_tamper.md R435 RTC_STAT.WAKES. -/
abbrev RTC_STAT_WAKES : RF := ⟨5242916, 16, 16, 0, 0⟩
/-- 13_time_keys_tamper.md R436 KS_STAT.PAIRS_USED. -/
abbrev KS_STAT_PAIRS_USED : RF := ⟨5308416, 0, 7, 0, 0⟩
/-- 13_time_keys_tamper.md R436 KS_STAT.ROOT. -/
abbrev KS_STAT_ROOT : RF := ⟨5308416, 8, 1, 0, 1⟩
/-- 13_time_keys_tamper.md R436 KS_STAT.SUSPENDED. -/
abbrev KS_STAT_SUSPENDED : RF := ⟨5308416, 9, 1, 0, 0⟩
/-- 13_time_keys_tamper.md R436 KS_SEL.PAIR. -/
abbrev KS_SEL_PAIR : RF := ⟨5308420, 0, 6, 0, 3⟩
/-- 13_time_keys_tamper.md R436 KS_CMD.OP. -/
abbrev KS_CMD_OP : RF := ⟨5308424, 0, 4, 0, 3⟩
/-- 13_time_keys_tamper.md R436 KS_CMD.KEY. -/
abbrev KS_CMD_KEY : RF := ⟨5308424, 4, 1, 0, 3⟩
/-- 13_time_keys_tamper.md R436 KS_CMD.RESULT. -/
abbrev KS_CMD_RESULT : RF := ⟨5308424, 8, 3, 0, 3⟩
/-- 13_time_keys_tamper.md R436 KS_CMD.BUSY. -/
abbrev KS_CMD_BUSY : RF := ⟨5308424, 30, 1, 0, 3⟩
/-- 13_time_keys_tamper.md R436 KS_CMD.GO. -/
abbrev KS_CMD_GO : RF := ⟨5308424, 31, 1, 0, 3⟩
/-- 13_time_keys_tamper.md R436 KS_PAIR.TYPE. -/
abbrev KS_PAIR_TYPE : RF := ⟨5308428, 0, 3, 0, 0⟩
/-- 13_time_keys_tamper.md R436 KS_PAIR.ACTIVE. -/
abbrev KS_PAIR_ACTIVE : RF := ⟨5308428, 3, 1, 0, 0⟩
/-- 13_time_keys_tamper.md R436 KS_PAIR.PRESENT. -/
abbrev KS_PAIR_PRESENT : RF := ⟨5308428, 4, 2, 0, 0⟩
/-- 13_time_keys_tamper.md R436 KS_PAIR.BINDING. -/
abbrev KS_PAIR_BINDING : RF := ⟨5308428, 8, 12, 0, 0⟩
/-- 13_time_keys_tamper.md R436 KS_PAIR.GEN. -/
abbrev KS_PAIR_GEN : RF := ⟨5308428, 20, 12, 0, 0⟩
/-- 13_time_keys_tamper.md R436 KS_POLICY.POLICY. -/
abbrev KS_POLICY_POLICY : RF := ⟨5308432, 0, 16, 0, 0⟩
/-- 13_time_keys_tamper.md R436 KS_KCV0.CHECK. -/
abbrev KS_KCV0_CHECK : RF := ⟨5308436, 0, 24, 0, 0⟩
/-- 13_time_keys_tamper.md R436 KS_KCV1.CHECK. -/
abbrev KS_KCV1_CHECK : RF := ⟨5308440, 0, 24, 0, 0⟩
/-- 13_time_keys_tamper.md R436 KS_EXPECT.CHECK. -/
abbrev KS_EXPECT_CHECK : RF := ⟨5308444, 0, 24, 0, 3⟩
/-- 13_time_keys_tamper.md R436 KS_BUF.DATA. -/
abbrev KS_BUF_DATA (w : Nat) : RF := ⟨5308672 + 4 * w, 0, 32, 0, 3⟩
/-- 13_time_keys_tamper.md R437 TMP_SRC.EN. -/
abbrev TMP_SRC_EN (s : Nat) : RF := ⟨5373952 + 4 * s, 0, 1, 0, 0⟩
/-- 13_time_keys_tamper.md R437 TMP_SRC.ACTION. -/
abbrev TMP_SRC_ACTION (s : Nat) : RF := ⟨5373952 + 4 * s, 1, 2, 0, 0⟩
/-- 13_time_keys_tamper.md R437 TMP_SRC.SAMPLE. -/
abbrev TMP_SRC_SAMPLE (s : Nat) : RF := ⟨5373952 + 4 * s, 3, 2, 2, 0⟩
/-- 13_time_keys_tamper.md R437 TMP_SRC.COUNT. -/
abbrev TMP_SRC_COUNT (s : Nat) : RF := ⟨5373952 + 4 * s, 5, 4, 3, 0⟩
/-- 13_time_keys_tamper.md R437 TMP_SRC.LEVEL. -/
abbrev TMP_SRC_LEVEL (s : Nat) : RF := ⟨5373952 + 4 * s, 9, 1, 0, 0⟩
/-- 13_time_keys_tamper.md R437 TMP_SRC.DEBOUNCE. -/
abbrev TMP_SRC_DEBOUNCE (s : Nat) : RF := ⟨5373952 + 4 * s, 10, 6, 4, 0⟩
/-- 13_time_keys_tamper.md R437 TMP_STAT.LATCHED. -/
abbrev TMP_STAT_LATCHED : RF := ⟨5374016, 0, 9, 0, 0⟩
/-- 13_time_keys_tamper.md R437 TMP_STAT.KERF. -/
abbrev TMP_STAT_KERF : RF := ⟨5374016, 16, 1, 0, 0⟩
/-- 13_time_keys_tamper.md R437 TMP_STAT.KERF_COUNT. -/
abbrev TMP_STAT_KERF_COUNT : RF := ⟨5374016, 24, 8, 0, 0⟩
/-- 13_time_keys_tamper.md R437 TMP_LIVE.STATE. -/
abbrev TMP_LIVE_STATE : RF := ⟨5374020, 0, 9, 0, 0⟩
/-- 13_time_keys_tamper.md R437 TMP_MON.VSILL. -/
abbrev TMP_MON_VSILL : RF := ⟨5374024, 0, 12, 0, 0⟩
/-- 13_time_keys_tamper.md R437 TMP_MON.ON_VSILL. -/
abbrev TMP_MON_ON_VSILL : RF := ⟨5374024, 12, 1, 0, 0⟩
/-- 13_time_keys_tamper.md R437 TMP_MON.TEMP. -/
abbrev TMP_MON_TEMP : RF := ⟨5374024, 16, 8, 0, 0⟩
/-- 13_time_keys_tamper.md R437 TMP_LOG_SEL.ENTRY. -/
abbrev TMP_LOG_SEL_ENTRY : RF := ⟨5374028, 0, 5, 0, 3⟩
/-- 13_time_keys_tamper.md R437 TMP_LOG_W.WORD. -/
abbrev TMP_LOG_W_WORD (w : Nat) : RF := ⟨5374032 + 4 * w, 0, 32, 0, 0⟩
/-- 13_time_keys_tamper.md R437 TMP_LOG_STAT.NEXT. -/
abbrev TMP_LOG_STAT_NEXT : RF := ⟨5374048, 0, 5, 0, 0⟩
/-- 13_time_keys_tamper.md R437 TMP_LOG_STAT.OVERWRITTEN. -/
abbrev TMP_LOG_STAT_OVERWRITTEN : RF := ⟨5374048, 16, 16, 0, 0⟩
/-- 13_time_keys_tamper.md R437 TMP_CMD.OP. -/
abbrev TMP_CMD_OP : RF := ⟨5374052, 0, 3, 0, 3⟩
/-- 13_time_keys_tamper.md R437 TMP_CMD.RESULT. -/
abbrev TMP_CMD_RESULT : RF := ⟨5374052, 4, 2, 0, 3⟩
/-- 13_time_keys_tamper.md R437 TMP_CMD.BUSY. -/
abbrev TMP_CMD_BUSY : RF := ⟨5374052, 30, 1, 0, 3⟩
/-- 13_time_keys_tamper.md R437 TMP_CMD.GO. -/
abbrev TMP_CMD_GO : RF := ⟨5374052, 31, 1, 0, 3⟩
/-- 13_time_keys_tamper.md R438 LC_STATE.STATE. -/
abbrev LC_STATE_STATE : RF := ⟨5439488, 0, 3, 0, 0⟩
/-- 13_time_keys_tamper.md R438 LC_STATE.DEBUG_OPEN. -/
abbrev LC_STATE_DEBUG_OPEN : RF := ⟨5439488, 8, 1, 0, 2⟩
/-- 13_time_keys_tamper.md R438 LC_STATE.SERVICE_ENTRIES. -/
abbrev LC_STATE_SERVICE_ENTRIES : RF := ⟨5439488, 16, 16, 0, 0⟩
/-- 13_time_keys_tamper.md R438 LC_CMD.OP. -/
abbrev LC_CMD_OP : RF := ⟨5439492, 0, 3, 0, 3⟩
/-- 13_time_keys_tamper.md R438 LC_CMD.TARGET. -/
abbrev LC_CMD_TARGET : RF := ⟨5439492, 4, 3, 0, 3⟩
/-- 13_time_keys_tamper.md R438 LC_CMD.RESULT. -/
abbrev LC_CMD_RESULT : RF := ⟨5439492, 8, 3, 0, 3⟩
/-- 13_time_keys_tamper.md R438 LC_CMD.BUSY. -/
abbrev LC_CMD_BUSY : RF := ⟨5439492, 30, 1, 0, 3⟩
/-- 13_time_keys_tamper.md R438 LC_CMD.GO. -/
abbrev LC_CMD_GO : RF := ⟨5439492, 31, 1, 0, 3⟩
/-- 13_time_keys_tamper.md R438 LC_NONCE.NONCE. -/
abbrev LC_NONCE_NONCE (w : Nat) : RF := ⟨5439504 + 4 * w, 0, 32, 0, 2⟩
/-- 13_time_keys_tamper.md R438 LC_SIG.DATA. -/
abbrev LC_SIG_DATA (w : Nat) : RF := ⟨5439552 + 4 * w, 0, 32, 0, 3⟩
/-- 14_power_modes_reset.md R474 PW_MODE.MODE. -/
abbrev PW_MODE_MODE : RF := ⟨1048576, 0, 3, 7, 2⟩
/-- 14_power_modes_reset.md R474 PW_MODE.PREV. -/
abbrev PW_MODE_PREV : RF := ⟨1048576, 4, 3, 0, 2⟩
/-- 14_power_modes_reset.md R474 PW_MODE.SAFE_COMMAND. -/
abbrev PW_MODE_SAFE_COMMAND : RF := ⟨1048576, 8, 1, 0, 2⟩
/-- 14_power_modes_reset.md R474 PW_MODE.SAFE_FAULT. -/
abbrev PW_MODE_SAFE_FAULT : RF := ⟨1048576, 9, 1, 0, 2⟩
/-- 14_power_modes_reset.md R474 PW_MODE.SAFE_TAMPER. -/
abbrev PW_MODE_SAFE_TAMPER : RF := ⟨1048576, 10, 1, 0, 2⟩
/-- 14_power_modes_reset.md R474 PW_MODE.SAFE_LOAD. -/
abbrev PW_MODE_SAFE_LOAD : RF := ⟨1048576, 11, 1, 0, 1⟩
/-- 14_power_modes_reset.md R474 PW_MODE.SAFE_RESET. -/
abbrev PW_MODE_SAFE_RESET : RF := ⟨1048576, 12, 1, 0, 2⟩
/-- 14_power_modes_reset.md R474 PW_MODE.SAFE_SCRAPPED. -/
abbrev PW_MODE_SAFE_SCRAPPED : RF := ⟨1048576, 13, 1, 0, 1⟩
/-- 14_power_modes_reset.md R474 PW_MODE.CHANGES. -/
abbrev PW_MODE_CHANGES : RF := ⟨1048576, 16, 16, 0, 1⟩
/-- 14_power_modes_reset.md R474 PW_MODE_CMD.TARGET. -/
abbrev PW_MODE_CMD_TARGET : RF := ⟨1048580, 0, 3, 0, 3⟩
/-- 14_power_modes_reset.md R474 PW_MODE_CMD.RESULT. -/
abbrev PW_MODE_CMD_RESULT : RF := ⟨1048580, 4, 2, 0, 3⟩
/-- 14_power_modes_reset.md R474 PW_MODE_CMD.BUSY. -/
abbrev PW_MODE_CMD_BUSY : RF := ⟨1048580, 30, 1, 0, 3⟩
/-- 14_power_modes_reset.md R474 PW_MODE_CMD.GO. -/
abbrev PW_MODE_CMD_GO : RF := ⟨1048580, 31, 1, 0, 3⟩
/-- 14_power_modes_reset.md R474 PW_CFG.PROFILE. -/
abbrev PW_CFG_PROFILE : RF := ⟨1048584, 0, 2, 1, 0⟩
/-- 14_power_modes_reset.md R474 PW_CFG.START_MODE. -/
abbrev PW_CFG_START_MODE : RF := ⟨1048584, 2, 1, 0, 0⟩
/-- 14_power_modes_reset.md R474 PW_BUDGET.BUDGET. -/
abbrev PW_BUDGET_BUDGET : RF := ⟨1048588, 0, 11, 1350, 0⟩
/-- 14_power_modes_reset.md R474 PW_GOV.HELD. -/
abbrev PW_GOV_HELD : RF := ⟨1048592, 0, 11, 0, 1⟩
/-- 14_power_modes_reset.md R474 PW_GOV.STANDING. -/
abbrev PW_GOV_STANDING : RF := ⟨1048592, 16, 11, 0, 1⟩
/-- 14_power_modes_reset.md R474 PW_GOV.AUDIT_FAIL. -/
abbrev PW_GOV_AUDIT_FAIL : RF := ⟨1048592, 31, 1, 0, 1⟩
/-- 14_power_modes_reset.md R474 PW_GOV_STAT.WAITING. -/
abbrev PW_GOV_STAT_WAITING : RF := ⟨1048596, 0, 8, 0, 1⟩
/-- 14_power_modes_reset.md R474 PW_GOV_STAT.LONGEST_MS. -/
abbrev PW_GOV_STAT_LONGEST_MS : RF := ⟨1048596, 8, 16, 0, 1⟩
/-- 14_power_modes_reset.md R474 PW_GOV_STAT.AGED. -/
abbrev PW_GOV_STAT_AGED : RF := ⟨1048596, 24, 8, 0, 1⟩
/-- 14_power_modes_reset.md R474 PW_PD.ON. -/
abbrev PW_PD_ON : RF := ⟨1048600, 0, 14, 3, 1⟩
/-- 14_power_modes_reset.md R474 PW_VMAIN.MV. -/
abbrev PW_VMAIN_MV : RF := ⟨1048604, 0, 15, 0, 1⟩
/-- 14_power_modes_reset.md R474 PW_VMAIN.IN_RANGE. -/
abbrev PW_VMAIN_IN_RANGE : RF := ⟨1048604, 15, 1, 0, 1⟩
/-- 14_power_modes_reset.md R474 PW_VMAIN.WARN. -/
abbrev PW_VMAIN_WARN : RF := ⟨1048604, 16, 1, 0, 1⟩
/-- 14_power_modes_reset.md R474 PW_VMAIN.WARNINGS. -/
abbrev PW_VMAIN_WARNINGS : RF := ⟨1048604, 24, 8, 0, 0⟩
/-- 14_power_modes_reset.md R474 PW_SILL.ON_MAIN. -/
abbrev PW_SILL_ON_MAIN : RF := ⟨1048608, 0, 1, 0, 0⟩
/-- 14_power_modes_reset.md R474 PW_SILL.SWITCHES. -/
abbrev PW_SILL_SWITCHES : RF := ⟨1048608, 16, 16, 0, 0⟩
/-- 14_power_modes_reset.md R474 PW_DOZE.LAST_EXIT. -/
abbrev PW_DOZE_LAST_EXIT : RF := ⟨1048612, 0, 3, 0, 0⟩
/-- 14_power_modes_reset.md R474 PW_TEMP.TEMP. -/
abbrev PW_TEMP_TEMP : RF := ⟨1048616, 0, 8, 0, 1⟩
/-- 14_power_modes_reset.md R474 PW_TEMP.HOT. -/
abbrev PW_TEMP_HOT : RF := ⟨1048616, 8, 1, 0, 1⟩
/-- 14_power_modes_reset.md R475 RST_CAUSE.SOURCES. -/
abbrev RST_CAUSE_SOURCES : RF := ⟨1114112, 0, 14, 1, 0⟩
/-- 14_power_modes_reset.md R475 RST_CAUSE.LEVEL. -/
abbrev RST_CAUSE_LEVEL : RF := ⟨1114112, 16, 3, 0, 0⟩
/-- 14_power_modes_reset.md R475 RST_MAP_LO.LEVELS. -/
abbrev RST_MAP_LO_LEVELS : RF := ⟨1114116, 0, 30, 0, 1⟩
/-- 14_power_modes_reset.md R475 RST_MAP_HI.LEVELS. -/
abbrev RST_MAP_HI_LEVELS : RF := ⟨1114120, 0, 12, 0, 1⟩
/-- 14_power_modes_reset.md R475 RST_CFG.STRETCH. -/
abbrev RST_CFG_STRETCH : RF := ⟨1114124, 0, 2, 0, 1⟩
/-- 14_power_modes_reset.md R475 RST_LOAD.FAILS. -/
abbrev RST_LOAD_FAILS : RF := ⟨1114128, 0, 2, 0, 1⟩
/-- 14_power_modes_reset.md R475 RST_LOAD.FUSE_VALID. -/
abbrev RST_LOAD_FUSE_VALID : RF := ⟨1114128, 2, 1, 0, 1⟩
/-- 14_power_modes_reset.md R475 RST_LOAD.OPTION_VALID. -/
abbrev RST_LOAD_OPTION_VALID : RF := ⟨1114128, 3, 1, 0, 1⟩
/-- 14_power_modes_reset.md R475 RST_LOAD.TRIM_VALID. -/
abbrev RST_LOAD_TRIM_VALID : RF := ⟨1114128, 4, 1, 0, 1⟩
/-- 14_power_modes_reset.md R475 RST_LOAD.OPTION_SRC. -/
abbrev RST_LOAD_OPTION_SRC : RF := ⟨1114128, 6, 2, 0, 1⟩
/-- 14_power_modes_reset.md R475 RST_LOAD.TRIM_SRC. -/
abbrev RST_LOAD_TRIM_SRC : RF := ⟨1114128, 8, 2, 0, 1⟩
/-- 14_power_modes_reset.md R475 RST_LOAD.RESTARTS. -/
abbrev RST_LOAD_RESTARTS : RF := ⟨1114128, 16, 16, 0, 0⟩
/-- 14_power_modes_reset.md R475 RST_CMD.OP. -/
abbrev RST_CMD_OP : RF := ⟨1114132, 0, 3, 0, 3⟩
/-- 14_power_modes_reset.md R475 RST_CMD.RESULT. -/
abbrev RST_CMD_RESULT : RF := ⟨1114132, 4, 2, 0, 3⟩
/-- 14_power_modes_reset.md R475 RST_CMD.BLOCK. -/
abbrev RST_CMD_BLOCK : RF := ⟨1114132, 8, 6, 0, 3⟩
/-- 14_power_modes_reset.md R475 RST_CMD.BUSY. -/
abbrev RST_CMD_BUSY : RF := ⟨1114132, 30, 1, 0, 3⟩
/-- 14_power_modes_reset.md R475 RST_CMD.GO. -/
abbrev RST_CMD_GO : RF := ⟨1114132, 31, 1, 0, 3⟩
/-- 14_power_modes_reset.md R475 RST_COUNT.RESETS. -/
abbrev RST_COUNT_RESETS : RF := ⟨1114136, 0, 16, 0, 0⟩
/-- 14_power_modes_reset.md R475 RST_COUNT.BLOCK_RESETS. -/
abbrev RST_COUNT_BLOCK_RESETS : RF := ⟨1114136, 16, 16, 0, 2⟩
/-- 14_power_modes_reset.md R475 RST_BOOT.PREFERRED_B. -/
abbrev RST_BOOT_PREFERRED_B : RF := ⟨1114140, 0, 1, 0, 1⟩
/-- 14_power_modes_reset.md R475 RST_BOOT.STARTS. -/
abbrev RST_BOOT_STARTS : RF := ⟨1114140, 1, 2, 0, 0⟩
/-- 14_power_modes_reset.md R475 RST_BOOT.CONFIRMED. -/
abbrev RST_BOOT_CONFIRMED : RF := ⟨1114140, 3, 1, 0, 2⟩
/-- 14_power_modes_reset.md R475 RST_BOOT.FALLBACK. -/
abbrev RST_BOOT_FALLBACK : RF := ⟨1114140, 4, 1, 0, 1⟩
/-- 14_power_modes_reset.md R476 CLK_STAT.STABLE. -/
abbrev CLK_STAT_STABLE : RF := ⟨1179648, 0, 8, 1, 1⟩
/-- 14_power_modes_reset.md R476 CLK_PEND.RELEASE_PENDING. -/
abbrev CLK_PEND_RELEASE_PENDING : RF := ⟨1179652, 0, 14, 0, 1⟩
/-- 14_power_modes_reset.md R476 CLK_PEND.ABANDONED. -/
abbrev CLK_PEND_ABANDONED : RF := ⟨1179652, 16, 14, 0, 1⟩
/-- 14_power_modes_reset.md R476 CLK_MON_SEL.CLOCK. -/
abbrev CLK_MON_SEL_CLOCK : RF := ⟨1179656, 0, 3, 0, 3⟩
/-- 14_power_modes_reset.md R476 CLK_MON_FREQ.ERROR. -/
abbrev CLK_MON_FREQ_ERROR : RF := ⟨1179660, 0, 24, 0, 1⟩
/-- 14_power_modes_reset.md R476 CLK_LOSS.EVENTS. -/
abbrev CLK_LOSS_EVENTS : RF := ⟨1179664, 0, 16, 0, 0⟩
/-- 14_power_modes_reset.md R476 CLK_LOSS.LAST. -/
abbrev CLK_LOSS_LAST : RF := ⟨1179664, 16, 3, 0, 0⟩
/-- 14_power_modes_reset.md R476 CLK_CMD.OP. -/
abbrev CLK_CMD_OP : RF := ⟨1179668, 0, 3, 0, 3⟩
/-- 14_power_modes_reset.md R476 CLK_CMD.RESULT. -/
abbrev CLK_CMD_RESULT : RF := ⟨1179668, 4, 2, 0, 3⟩
/-- 14_power_modes_reset.md R476 CLK_CMD.DOMAIN. -/
abbrev CLK_CMD_DOMAIN : RF := ⟨1179668, 8, 4, 0, 3⟩
/-- 14_power_modes_reset.md R476 CLK_CMD.BUSY. -/
abbrev CLK_CMD_BUSY : RF := ⟨1179668, 30, 1, 0, 3⟩
/-- 14_power_modes_reset.md R476 CLK_CMD.GO. -/
abbrev CLK_CMD_GO : RF := ⟨1179668, 31, 1, 0, 3⟩
/-- 15_faults_and_injection.md R500 FLT_STAT.COUNT. -/
abbrev FLT_STAT_COUNT : RF := ⟨1245184, 0, 6, 0, 0⟩
/-- 15_faults_and_injection.md R500 FLT_STAT.HIGHEST. -/
abbrev FLT_STAT_HIGHEST : RF := ⟨1245184, 6, 2, 0, 0⟩
/-- 15_faults_and_injection.md R500 FLT_STAT.BACKLOG. -/
abbrev FLT_STAT_BACKLOG : RF := ⟨1245184, 8, 5, 0, 0⟩
/-- 15_faults_and_injection.md R500 FLT_STAT.INJ_ACTIVE. -/
abbrev FLT_STAT_INJ_ACTIVE : RF := ⟨1245184, 13, 1, 0, 3⟩
/-- 15_faults_and_injection.md R500 FLT_STAT.INJ_FUSE. -/
abbrev FLT_STAT_INJ_FUSE : RF := ⟨1245184, 14, 1, 0, 1⟩
/-- 15_faults_and_injection.md R500 FLT_STAT.SATURATED. -/
abbrev FLT_STAT_SATURATED : RF := ⟨1245184, 15, 1, 0, 2⟩
/-- 15_faults_and_injection.md R500 FLT_STAT.OVERWRITTEN. -/
abbrev FLT_STAT_OVERWRITTEN : RF := ⟨1245184, 16, 8, 0, 0⟩
/-- 15_faults_and_injection.md R500 FLT_STAT.DROPPED. -/
abbrev FLT_STAT_DROPPED : RF := ⟨1245184, 24, 8, 0, 0⟩
/-- 15_faults_and_injection.md R500 FLT_CFG.AUTO_ACK. -/
abbrev FLT_CFG_AUTO_ACK : RF := ⟨1245188, 0, 2, 2, 2⟩
/-- 15_faults_and_injection.md R500 FLT_CFG.SEVERE_SAFE. -/
abbrev FLT_CFG_SEVERE_SAFE : RF := ⟨1245188, 2, 1, 0, 2⟩
/-- 15_faults_and_injection.md R500 FLT_CFG.ESC_COUNT. -/
abbrev FLT_CFG_ESC_COUNT : RF := ⟨1245188, 8, 8, 16, 2⟩
/-- 15_faults_and_injection.md R500 FLT_HEAD.ENTRY. -/
abbrev FLT_HEAD_ENTRY (w : Nat) : RF := ⟨1245200 + 4 * w, 0, 32, 0, 0⟩
/-- 15_faults_and_injection.md R500 FLT_ACK.SEQ. -/
abbrev FLT_ACK_SEQ : RF := ⟨1245216, 0, 12, 0, 3⟩
/-- 15_faults_and_injection.md R500 FLT_ACK.RESULT. -/
abbrev FLT_ACK_RESULT : RF := ⟨1245216, 16, 2, 0, 3⟩
/-- 15_faults_and_injection.md R500 FLT_ACK.BUSY. -/
abbrev FLT_ACK_BUSY : RF := ⟨1245216, 30, 1, 0, 3⟩
/-- 15_faults_and_injection.md R500 FLT_ACK.GO. -/
abbrev FLT_ACK_GO : RF := ⟨1245216, 31, 1, 0, 3⟩
/-- 15_faults_and_injection.md R500 FLT_FIRST.ENTRY. -/
abbrev FLT_FIRST_ENTRY (w : Nat) : RF := ⟨1245232 + 4 * w, 0, 32, 0, 0⟩
/-- 15_faults_and_injection.md R500 FLT_CMD.OP. -/
abbrev FLT_CMD_OP : RF := ⟨1245248, 0, 3, 0, 3⟩
/-- 15_faults_and_injection.md R500 FLT_CMD.RESULT. -/
abbrev FLT_CMD_RESULT : RF := ⟨1245248, 4, 2, 0, 3⟩
/-- 15_faults_and_injection.md R500 FLT_CMD.BUSY. -/
abbrev FLT_CMD_BUSY : RF := ⟨1245248, 30, 1, 0, 3⟩
/-- 15_faults_and_injection.md R500 FLT_CMD.GO. -/
abbrev FLT_CMD_GO : RF := ⟨1245248, 31, 1, 0, 3⟩
/-- 15_faults_and_injection.md R500 FLT_LOST.DETECTOR. -/
abbrev FLT_LOST_DETECTOR : RF := ⟨1245252, 0, 8, 0, 0⟩
/-- 15_faults_and_injection.md R500 FLT_LOST.INSTANCE. -/
abbrev FLT_LOST_INSTANCE : RF := ⟨1245252, 8, 12, 0, 0⟩
/-- 15_faults_and_injection.md R500 FLT_LOST.MULTIPLE. -/
abbrev FLT_LOST_MULTIPLE : RF := ⟨1245252, 30, 1, 0, 0⟩
/-- 15_faults_and_injection.md R500 FLT_LOST.VALID. -/
abbrev FLT_LOST_VALID : RF := ⟨1245252, 31, 1, 0, 0⟩
/-- 15_faults_and_injection.md R500 FLT_TOTAL_LO.NOTE. -/
abbrev FLT_TOTAL_LO_NOTE : RF := ⟨1245256, 0, 16, 0, 1⟩
/-- 15_faults_and_injection.md R500 FLT_TOTAL_LO.DEGRADED. -/
abbrev FLT_TOTAL_LO_DEGRADED : RF := ⟨1245256, 16, 16, 0, 1⟩
/-- 15_faults_and_injection.md R500 FLT_TOTAL_HI.SEVERE. -/
abbrev FLT_TOTAL_HI_SEVERE : RF := ⟨1245260, 0, 16, 0, 1⟩
/-- 15_faults_and_injection.md R500 FLT_TOTAL_HI.CRITICAL. -/
abbrev FLT_TOTAL_HI_CRITICAL : RF := ⟨1245260, 16, 16, 0, 1⟩
/-- 15_faults_and_injection.md R500 FLT_INJ.DETECTOR. -/
abbrev FLT_INJ_DETECTOR : RF := ⟨1245264, 0, 8, 0, 3⟩
/-- 15_faults_and_injection.md R500 FLT_INJ.INSTANCE. -/
abbrev FLT_INJ_INSTANCE : RF := ⟨1245264, 8, 12, 0, 3⟩
/-- 15_faults_and_injection.md R500 FLT_INJ.KIND. -/
abbrev FLT_INJ_KIND : RF := ⟨1245264, 20, 1, 0, 3⟩
/-- 15_faults_and_injection.md R500 FLT_INJ.DURATION_MS. -/
abbrev FLT_INJ_DURATION_MS : RF := ⟨1245264, 24, 8, 0, 3⟩
/-- 15_faults_and_injection.md R500 FLT_INJ_ARG.ARG. -/
abbrev FLT_INJ_ARG_ARG : RF := ⟨1245268, 0, 32, 0, 3⟩
/-- 15_faults_and_injection.md R500 FLT_INJ_CTL.OP. -/
abbrev FLT_INJ_CTL_OP : RF := ⟨1245272, 0, 3, 0, 3⟩
/-- 15_faults_and_injection.md R500 FLT_INJ_CTL.RESULT. -/
abbrev FLT_INJ_CTL_RESULT : RF := ⟨1245272, 4, 2, 0, 3⟩
/-- 15_faults_and_injection.md R500 FLT_INJ_CTL.SYMBOLS. -/
abbrev FLT_INJ_CTL_SYMBOLS : RF := ⟨1245272, 8, 20, 0, 3⟩
/-- 15_faults_and_injection.md R500 FLT_INJ_CTL.BUSY. -/
abbrev FLT_INJ_CTL_BUSY : RF := ⟨1245272, 30, 1, 0, 3⟩
/-- 15_faults_and_injection.md R500 FLT_INJ_CTL.GO. -/
abbrev FLT_INJ_CTL_GO : RF := ⟨1245272, 31, 1, 0, 3⟩
/-- 15_faults_and_injection.md R500 FLT_SAT.SATURATED. -/
abbrev FLT_SAT_SATURATED : RF := ⟨1245280, 0, 1, 0, 2⟩
/-- 15_faults_and_injection.md R500 FLT_SAT.SHED_STEPS. -/
abbrev FLT_SAT_SHED_STEPS : RF := ⟨1245280, 8, 5, 0, 2⟩
/-- 15_faults_and_injection.md R500 FLT_SAT.QUIET_STEPS. -/
abbrev FLT_SAT_QUIET_STEPS : RF := ⟨1245280, 16, 7, 0, 2⟩
/-- 15_faults_and_injection.md R500 FLT_SAT.FLOOR. -/
abbrev FLT_SAT_FLOOR : RF := ⟨1245280, 24, 1, 0, 2⟩
/-- 15_faults_and_injection.md R500 FLT_SAT.BACKBONE. -/
abbrev FLT_SAT_BACKBONE : RF := ⟨1245280, 25, 1, 0, 2⟩
/-- 15_faults_and_injection.md R500 FLT_SAT.NE_QUEUE. -/
abbrev FLT_SAT_NE_QUEUE : RF := ⟨1245280, 26, 1, 0, 2⟩
/-- 15_faults_and_injection.md R500 FLT_SAT.SMALL. -/
abbrev FLT_SAT_SMALL : RF := ⟨1245280, 27, 1, 0, 2⟩
/-- 15_faults_and_injection.md R500 FLT_SAT_CTX_LO.CONTEXTS. -/
abbrev FLT_SAT_CTX_LO_CONTEXTS : RF := ⟨1245284, 0, 32, 0, 2⟩
/-- 15_faults_and_injection.md R500 FLT_SAT_CTX_HI.CONTEXTS. -/
abbrev FLT_SAT_CTX_HI_CONTEXTS : RF := ⟨1245288, 0, 32, 0, 2⟩
/-- 16_module_interface.md R530 GPIO_PAD.PULL. -/
abbrev GPIO_PAD_PULL (k : Nat) : RF := ⟨7340032 + 4 * k, 0, 2, 0, 2⟩
/-- 16_module_interface.md R530 GPIO_PAD.OPEN_DRAIN. -/
abbrev GPIO_PAD_OPEN_DRAIN (k : Nat) : RF := ⟨7340032 + 4 * k, 2, 1, 0, 2⟩
/-- 16_module_interface.md R530 GPIO_PAD.DRIVE. -/
abbrev GPIO_PAD_DRIVE (k : Nat) : RF := ⟨7340032 + 4 * k, 3, 2, 1, 2⟩
/-- 16_module_interface.md R530 GPIO_PAD.SLOW. -/
abbrev GPIO_PAD_SLOW (k : Nat) : RF := ⟨7340032 + 4 * k, 5, 1, 0, 2⟩
/-- 16_module_interface.md R530 GPIO_IN_LO.LEVEL. -/
abbrev GPIO_IN_LO_LEVEL : RF := ⟨7340288, 0, 32, 0, 2⟩
/-- 16_module_interface.md R530 GPIO_IN_HI.LEVEL. -/
abbrev GPIO_IN_HI_LEVEL : RF := ⟨7340292, 0, 32, 0, 2⟩
/-- 16_module_interface.md R530 GPIO_OE_LO.DRIVEN. -/
abbrev GPIO_OE_LO_DRIVEN : RF := ⟨7340296, 0, 32, 0, 2⟩
/-- 16_module_interface.md R530 GPIO_OE_HI.DRIVEN. -/
abbrev GPIO_OE_HI_DRIVEN : RF := ⟨7340300, 0, 32, 0, 2⟩
/-- 16_module_interface.md R530 GPIO_OUT_LO.VALUE. -/
abbrev GPIO_OUT_LO_VALUE : RF := ⟨7340304, 0, 32, 0, 2⟩
/-- 16_module_interface.md R530 GPIO_OUT_HI.VALUE. -/
abbrev GPIO_OUT_HI_VALUE : RF := ⟨7340308, 0, 32, 0, 2⟩
/-- 16_module_interface.md R530 PULSE_PAD.OPEN_DRAIN. -/
abbrev PULSE_PAD_OPEN_DRAIN : RF := ⟨7340544, 0, 8, 0, 2⟩
/-- 16_module_interface.md R530 PULSE_PAD.DRIVE. -/
abbrev PULSE_PAD_DRIVE : RF := ⟨7340544, 8, 2, 2, 2⟩
/-- 16_module_interface.md R530 PULSE_LEVEL.LEVEL. -/
abbrev PULSE_LEVEL_LEVEL : RF := ⟨7340548, 0, 8, 0, 2⟩
/-- 16_module_interface.md R530 SB_STAT.BB0_LOS. -/
abbrev SB_STAT_BB0_LOS : RF := ⟨7340800, 0, 1, 0, 2⟩
/-- 16_module_interface.md R530 SB_STAT.BB0_TXDIS. -/
abbrev SB_STAT_BB0_TXDIS : RF := ⟨7340800, 1, 1, 0, 2⟩
/-- 16_module_interface.md R530 SB_STAT.BB1_LOS. -/
abbrev SB_STAT_BB1_LOS : RF := ⟨7340800, 2, 1, 0, 2⟩
/-- 16_module_interface.md R530 SB_STAT.BB1_TXDIS. -/
abbrev SB_STAT_BB1_TXDIS : RF := ⟨7340800, 3, 1, 0, 2⟩
/-- 09_frame_macs.md R306 MACn_CNT.COUNT. -/
abbrev MACn_CNT_COUNT (n i : Nat) : RF := ⟨3146240 + 4096 * n + 4 * i, 0, 32, 0, 2⟩
/-- 11_field_buses.md R370 CANn_CNT.COUNT. -/
abbrev CANn_CNT_COUNT (n i : Nat) : RF := ⟨3342400 + 1024 * n + 4 * i, 0, 32, 0, 2⟩
/-- 11_field_buses.md R371 UARTn_CNT.COUNT. -/
abbrev UARTn_CNT_COUNT (n i : Nat) : RF := ⟨3407904 + 256 * n + 4 * i, 0, 32, 0, 2⟩
/-- 16_module_interface.md R504 FUSE_PIN.CODES. -/
abbrev FUSE_PIN_CODES (w : Nat) : RF := ⟨6291712 + 4 * w, 0, 32, 0, 1⟩

end Fld

/-- Registers of the map, part 0 (base address, index dimensions (count, stride), fields). -/
def regMap0 : List RegDesc := [
  ⟨6291456, [], [⟨16, 16, .ro, 23574, 1⟩, ⟨12, 4, .ro, 2, 1⟩, ⟨8, 4, .ro, 0, 1⟩, ⟨0, 8, .ro, 0, 1⟩]⟩,
  ⟨2097152, [], [⟨0, 17, .ro, 0, 2⟩]⟩,
  ⟨2097156, [], [⟨0, 17, .ro, 0, 2⟩]⟩,
  ⟨2097160, [], [⟨0, 32, .ro, 0, 2⟩]⟩,
  ⟨2097180, [], [⟨0, 17, .ro, 0, 2⟩]⟩,
  ⟨2097164, [], [⟨0, 16, .ro, 0, 3⟩, ⟨16, 4, .ro, 0, 3⟩, ⟨31, 1, .wo, 0, 3⟩]⟩,
  ⟨2097168, [], [⟨0, 16, .ro, 0, 3⟩, ⟨16, 4, .ro, 0, 3⟩, ⟨20, 3, .ro, 0, 3⟩, ⟨31, 1, .wo, 0, 3⟩]⟩,
  ⟨2097172, [], [⟨0, 16, .ro, 0, 3⟩]⟩,
  ⟨2097176, [], [⟨0, 16, .ro, 0, 2⟩]⟩,
  ⟨2097184, [], [⟨0, 16, .rw, 0, 3⟩, ⟨16, 2, .rw, 0, 3⟩, ⟨18, 2, .ro, 0, 3⟩, ⟨30, 1, .ro, 0, 3⟩, ⟨31, 1, .w1s, 0, 3⟩]⟩,
  ⟨2097188, [], [⟨0, 32, .rw, 0, 3⟩]⟩,
  ⟨2097192, [], [⟨0, 12, .rw, 4095, 3⟩]⟩,
  ⟨2097408, [(64, 4)], [⟨0, 12, .st, 0, 2⟩, ⟨12, 2, .st, 0, 2⟩, ⟨16, 12, .st, 0, 2⟩, ⟨31, 1, .st, 0, 2⟩]⟩,
  ⟨2101248, [(1024, 8)], [⟨0, 16, .st, 0, 2⟩, ⟨16, 16, .st, 0, 2⟩]⟩,
  ⟨2101252, [(1024, 8)], [⟨0, 12, .st, 0, 2⟩, ⟨12, 1, .st, 0, 2⟩, ⟨13, 1, .st, 0, 2⟩, ⟨14, 1, .st, 0, 2⟩, ⟨15, 1, .st, 0, 2⟩, ⟨16, 12, .st, 0, 2⟩, ⟨31, 1, .st, 0, 2⟩]⟩,
  ⟨2113536, [(4096, 4)], [⟨0, 6, .st, 0, 2⟩, ⟨6, 4, .st, 0, 2⟩, ⟨15, 1, .st, 0, 2⟩]⟩,
  ⟨2162688, [], [⟨0, 32, .rs, 0, 1⟩]⟩,
  ⟨2162692, [], [⟨0, 16, .rs, 0, 1⟩]⟩,
  ⟨2162696, [], [⟨0, 1, .ro, 0, 1⟩, ⟨1, 3, .ro, 0, 2⟩, ⟨4, 1, .ro, 0, 2⟩, ⟨8, 8, .ro, 0, 1⟩]⟩,
  ⟨2162944, [(8, 16)], [⟨0, 16, .ro, 0, 2⟩, ⟨16, 2, .ro, 1, 1⟩, ⟨18, 1, .ro, 0, 2⟩, ⟨19, 1, .ro, 0, 3⟩]⟩,
  ⟨2162948, [(8, 16)], [⟨0, 3, .ro, 0, 3⟩, ⟨4, 2, .ro, 0, 3⟩, ⟨16, 16, .ro, 0, 2⟩]⟩,
  ⟨2166784, [(8, 512), (8, 64)], [⟨0, 16, .ro, 0, 2⟩, ⟨16, 4, .ro, 0, 2⟩, ⟨20, 1, .ro, 0, 2⟩, ⟨21, 1, .ro, 0, 2⟩, ⟨31, 1, .ro, 0, 2⟩]⟩,
  ⟨2166788, [(8, 512), (8, 64)], [⟨0, 12, .ro, 0, 2⟩, ⟨16, 6, .ro, 0, 2⟩]⟩,
  ⟨2166792, [(8, 512), (8, 64)], [⟨0, 32, .ro, 0, 2⟩]⟩,
  ⟨2166796, [(8, 512), (8, 64)], [⟨0, 2, .ro, 0, 2⟩, ⟨2, 4, .ro, 0, 3⟩, ⟨6, 3, .ro, 0, 2⟩, ⟨9, 1, .ro, 0, 3⟩, ⟨10, 1, .ro, 0, 3⟩, ⟨11, 1, .ro, 0, 2⟩, ⟨12, 1, .ro, 0, 3⟩]⟩,
  ⟨2166800, [(8, 512), (8, 64)], [⟨0, 3, .rw, 0, 3⟩, ⟨4, 2, .ro, 0, 3⟩, ⟨30, 1, .ro, 0, 3⟩, ⟨31, 1, .w1s, 0, 3⟩]⟩,
  ⟨2166804, [(8, 512), (8, 64)], [⟨0, 32, .ro, 0, 2⟩]⟩,
  ⟨2166840, [(8, 512), (8, 64)], [⟨0, 32, .ro, 0, 2⟩]⟩,
  ⟨2166808, [(8, 512), (8, 64)], [⟨0, 32, .ro, 0, 3⟩]⟩,
  ⟨2166812, [(8, 512), (8, 64)], [⟨0, 31, .ro, 0, 3⟩, ⟨31, 1, .wo, 0, 3⟩]⟩,
  ⟨2166816, [(8, 512), (8, 64)], [⟨0, 32, .ro, 0, 2⟩]⟩,
  ⟨2166820, [(8, 512), (8, 64)], [⟨0, 16, .ro, 0, 2⟩, ⟨16, 16, .ro, 0, 2⟩]⟩,
  ⟨2166824, [(8, 512), (8, 64)], [⟨0, 6, .ro, 0, 3⟩, ⟨16, 6, .w1c, 0, 3⟩]⟩,
  ⟨2166828, [(8, 512), (8, 64)], [⟨0, 16, .ro, 0, 2⟩]⟩,
  ⟨2166832, [(8, 512), (8, 64)], [⟨0, 32, .ro, 0, 3⟩]⟩,
  ⟨2166836, [(8, 512), (8, 64)], [⟨0, 16, .ro, 0, 3⟩, ⟨16, 16, .ro, 0, 3⟩]⟩,
  ⟨2166844, [(8, 512), (8, 64)], [⟨0, 32, .ro, 0, 3⟩]⟩,
  ⟨1310720, [], [⟨0, 3, .ro, 0, 3⟩, ⟨3, 1, .ro, 0, 3⟩, ⟨4, 1, .ro, 0, 3⟩, ⟨8, 4, .ro, 0, 3⟩, ⟨16, 14, .ro, 0, 3⟩]⟩,
  ⟨1310724, [], [⟨0, 3, .rw, 0, 3⟩, ⟨4, 2, .ro, 0, 3⟩, ⟨30, 1, .ro, 0, 3⟩, ⟨31, 1, .w1s, 0, 3⟩]⟩,
  ⟨1310728, [], [⟨0, 8, .ro, 0, 2⟩, ⟨8, 8, .ro, 255, 2⟩, ⟨16, 3, .ro, 0, 2⟩, ⟨19, 1, .ro, 0, 2⟩, ⟨20, 1, .ro, 0, 2⟩]⟩]
/-- Registers of the map, part 1 (base address, index dimensions (count, stride), fields). -/
def regMap1 : List RegDesc := [
  ⟨1310732, [], [⟨0, 32, .ro, 0, 2⟩]⟩,
  ⟨1310736, [], [⟨0, 32, .rw, 0, 3⟩]⟩,
  ⟨1310740, [], [⟨0, 16, .rw, 0, 3⟩]⟩,
  ⟨1310744, [], [⟨0, 32, .ro, 0, 3⟩]⟩,
  ⟨1310748, [], [⟨0, 16, .ro, 0, 3⟩]⟩,
  ⟨1310752, [], [⟨0, 32, .ro, 0, 2⟩]⟩,
  ⟨1310756, [], [⟨0, 16, .ro, 0, 2⟩]⟩,
  ⟨1310760, [], [⟨0, 32, .ro, 0, 2⟩]⟩,
  ⟨1310764, [], [⟨0, 5, .ro, 0, 3⟩, ⟨16, 16, .ro, 0, 2⟩]⟩,
  ⟨1310768, [], [⟨0, 16, .ro, 0, 2⟩, ⟨16, 8, .ro, 0, 2⟩, ⟨24, 8, .ro, 0, 2⟩]⟩,
  ⟨1310772, [], [⟨0, 9, .ro, 0, 3⟩, ⟨16, 9, .ro, 0, 3⟩, ⟨28, 1, .ro, 0, 3⟩, ⟨29, 1, .ro, 0, 3⟩, ⟨30, 1, .ro, 0, 3⟩, ⟨31, 1, .ro, 0, 3⟩]⟩,
  ⟨2228224, [(2, 16)], [⟨0, 16, .ro, 0, 2⟩, ⟨16, 2, .ro, 1, 1⟩, ⟨28, 1, .ro, 1, 4⟩]⟩,
  ⟨2228228, [(2, 16)], [⟨0, 12, .ro, 0, 2⟩, ⟨16, 16, .ro, 0, 2⟩]⟩,
  ⟨2228480, [], [⟨0, 12, .rw, 0, 3⟩]⟩,
  ⟨2228736, [], [⟨0, 9, .rw, 0, 3⟩]⟩,
  ⟨2228484, [], [⟨0, 4, .ro, 0, 2⟩, ⟨4, 1, .ro, 0, 2⟩, ⟨5, 1, .ro, 0, 2⟩, ⟨6, 9, .ro, 0, 2⟩, ⟨16, 12, .ro, 0, 2⟩, ⟨31, 1, .ro, 0, 2⟩]⟩,
  ⟨2228488, [], [⟨0, 3, .ro, 0, 2⟩, ⟨3, 2, .ro, 0, 2⟩, ⟨5, 1, .ro, 0, 2⟩, ⟨6, 1, .ro, 0, 2⟩, ⟨7, 1, .ro, 0, 2⟩, ⟨8, 1, .ro, 0, 2⟩, ⟨9, 4, .ro, 0, 2⟩, ⟨13, 3, .ro, 0, 2⟩, ⟨16, 8, .ro, 0, 2⟩, ⟨24, 8, .ro, 0, 2⟩]⟩,
  ⟨2228492, [], [⟨0, 3, .rw, 0, 3⟩, ⟨4, 2, .ro, 0, 3⟩, ⟨30, 1, .ro, 0, 3⟩, ⟨31, 1, .w1s, 0, 3⟩]⟩,
  ⟨2228496, [], [⟨0, 16, .lv, 0, 2⟩]⟩,
  ⟨2228500, [], [⟨0, 16, .ro, 0, 2⟩, ⟨16, 16, .ro, 0, 2⟩]⟩,
  ⟨2228504, [], [⟨0, 16, .ro, 0, 2⟩, ⟨16, 16, .ro, 0, 2⟩]⟩,
  ⟨2228508, [], [⟨0, 16, .ro, 0, 2⟩, ⟨16, 16, .ro, 0, 2⟩]⟩,
  ⟨2228512, [], [⟨0, 16, .ro, 0, 2⟩, ⟨16, 16, .ro, 0, 2⟩]⟩,
  ⟨2228516, [], [⟨0, 16, .ro, 0, 2⟩, ⟨16, 16, .ro, 0, 2⟩]⟩,
  ⟨2228520, [], [⟨0, 16, .ro, 0, 3⟩, ⟨16, 16, .ro, 0, 3⟩]⟩,
  ⟨2228524, [], [⟨0, 16, .ro, 0, 2⟩, ⟨16, 16, .ro, 0, 2⟩]⟩,
  ⟨2228740, [], [⟨0, 16, .ro, 0, 2⟩, ⟨16, 3, .ro, 0, 2⟩, ⟨19, 1, .ro, 0, 2⟩, ⟨20, 4, .ro, 0, 2⟩, ⟨31, 1, .ro, 0, 2⟩]⟩,
  ⟨2293760, [], [⟨0, 2, .ro, 1, 1⟩, ⟨2, 1, .ro, 0, 1⟩, ⟨3, 1, .ro, 0, 1⟩, ⟨4, 1, .ro, 0, 1⟩, ⟨8, 8, .ro, 25, 1⟩, ⟨16, 16, .ro, 0, 1⟩]⟩,
  ⟨2293764, [], [⟨0, 16, .ro, 0, 1⟩, ⟨16, 6, .ro, 0, 1⟩, ⟨31, 1, .wo, 0, 1⟩]⟩,
  ⟨2293768, [], [⟨0, 32, .w1c, 0, 1⟩]⟩,
  ⟨2293772, [], [⟨0, 16, .w1c, 0, 1⟩, ⟨16, 12, .w1c, 0, 1⟩]⟩,
  ⟨2293776, [], [⟨0, 2, .st, 1, 1⟩, ⟨2, 2, .st, 1, 1⟩, ⟨4, 1, .st, 1, 1⟩, ⟨5, 1, .st, 0, 1⟩]⟩,
  ⟨2293792, [], [⟨0, 6, .rw, 0, 1⟩, ⟨6, 2, .rw, 0, 1⟩, ⟨8, 2, .rw, 0, 1⟩, ⟨10, 8, .rw, 0, 1⟩, ⟨30, 1, .ro, 0, 1⟩, ⟨31, 1, .w1s, 0, 1⟩]⟩,
  ⟨2293796, [(5, 4)], [⟨0, 32, .ro, 0, 1⟩]⟩,
  ⟨2293824, [], [⟨0, 6, .rw, 0, 1⟩, ⟨8, 6, .rw, 2, 1⟩]⟩,
  ⟨2293828, [], [⟨0, 32, .ro, 0, 1⟩]⟩,
  ⟨2293832, [], [⟨0, 2, .rw, 0, 1⟩, ⟨8, 8, .rw, 0, 1⟩]⟩,
  ⟨2293836, [(4, 4)], [⟨0, 32, .ro, 0, 1⟩]⟩,
  ⟨2294016, [(4, 32)], [⟨0, 1, .st, 0, 1⟩, ⟨1, 1, .st, 0, 1⟩, ⟨2, 1, .st, 0, 1⟩, ⟨4, 12, .st, 0, 1⟩, ⟨16, 7, .st, 90, 1⟩, ⟨24, 8, .st, 110, 1⟩]⟩,
  ⟨2294020, [(4, 32)], [⟨0, 32, .st, 0, 1⟩]⟩]
/-- Registers of the map, part 2 (base address, index dimensions (count, stride), fields). -/
def regMap2 : List RegDesc := [
  ⟨2294024, [(4, 32)], [⟨0, 7, .st, 5, 1⟩, ⟨8, 4, .st, 2, 1⟩]⟩,
  ⟨2294028, [(4, 32), (3, 4)], [⟨0, 16, .st, 32768, 1⟩, ⟨16, 16, .st, 0, 1⟩]⟩,
  ⟨2294040, [(4, 32)], [⟨0, 1, .ro, 0, 1⟩, ⟨1, 1, .ro, 0, 1⟩, ⟨2, 1, .ro, 0, 1⟩, ⟨3, 1, .ro, 0, 1⟩, ⟨4, 1, .ro, 0, 1⟩, ⟨8, 2, .ro, 0, 1⟩, ⟨16, 16, .ro, 0, 1⟩]⟩,
  ⟨2294044, [(4, 32)], [⟨0, 16, .ro, 0, 1⟩, ⟨16, 16, .ro, 0, 1⟩]⟩,
  ⟨2294272, [(8, 16)], [⟨0, 16, .st, 0, 1⟩, ⟨16, 3, .st, 0, 1⟩, ⟨19, 4, .st, 0, 1⟩, ⟨23, 1, .st, 0, 1⟩, ⟨24, 7, .st, 0, 1⟩, ⟨31, 1, .st, 0, 1⟩]⟩,
  ⟨2294276, [(8, 16)], [⟨0, 32, .ro, 0, 1⟩]⟩,
  ⟨2294280, [(8, 16)], [⟨0, 32, .ro, 0, 1⟩]⟩,
  ⟨2359296, [], [⟨0, 1, .w1c, 0, 0⟩, ⟨1, 1, .ro, 0, 1⟩, ⟨2, 2, .ro, 0, 1⟩, ⟨4, 1, .w1c, 0, 1⟩, ⟨5, 1, .w1c, 0, 1⟩, ⟨6, 1, .ro, 0, 1⟩, ⟨16, 16, .ro, 0, 1⟩]⟩,
  ⟨2359300, [], [⟨0, 32, .ro, 4294967295, 1⟩]⟩,
  ⟨2359304, [], [⟨0, 32, .ro, 0, 1⟩]⟩,
  ⟨2359308, [], [⟨0, 32, .ro, 0, 1⟩]⟩,
  ⟨2359312, [], [⟨0, 6, .st, 15, 1⟩]⟩,
  ⟨2359316, [], [⟨0, 4, .rw, 0, 1⟩, ⟨4, 3, .rw, 0, 1⟩, ⟨8, 2, .ro, 0, 1⟩, ⟨30, 1, .ro, 0, 1⟩, ⟨31, 1, .w1s, 0, 1⟩]⟩,
  ⟨2359320, [], [⟨0, 16, .w1c, 0, 1⟩, ⟨16, 16, .ro, 0, 1⟩]⟩,
  ⟨2359324, [], [⟨0, 32, .ro, 0, 1⟩]⟩,
  ⟨2359328, [], [⟨0, 32, .ro, 0, 1⟩]⟩,
  ⟨2359332, [], [⟨0, 16, .ro, 0, 1⟩]⟩,
  ⟨2360320, [(16, 32)], [⟨0, 32, .ro, 0, 1⟩]⟩,
  ⟨2360324, [(16, 32)], [⟨0, 32, .ro, 0, 1⟩]⟩,
  ⟨2360328, [(16, 32)], [⟨0, 16, .ro, 0, 1⟩, ⟨16, 16, .ro, 0, 1⟩]⟩,
  ⟨2360332, [(16, 32)], [⟨0, 16, .ro, 0, 1⟩]⟩,
  ⟨2360336, [(16, 32)], [⟨0, 32, .ro, 0, 1⟩]⟩,
  ⟨2363392, [(16, 256), (8, 16)], [⟨0, 32, .rs, 0, 1⟩]⟩,
  ⟨2363396, [(16, 256), (8, 16)], [⟨0, 32, .ro, 0, 1⟩]⟩,
  ⟨2363400, [(16, 256), (8, 16)], [⟨0, 16, .rs, 0, 1⟩, ⟨16, 8, .rs, 0, 1⟩]⟩,
  ⟨2363404, [(16, 256), (8, 16)], [⟨0, 16, .ro, 0, 1⟩]⟩,
  ⟨3276800, [], [⟨0, 2, .st, 0, 2⟩, ⟨2, 6, .st, 5, 2⟩, ⟨8, 1, .st, 0, 2⟩, ⟨16, 12, .st, 0, 2⟩]⟩,
  ⟨3276804, [], [⟨0, 16, .st, 34997, 2⟩, ⟨16, 6, .st, 0, 2⟩, ⟨24, 6, .st, 0, 2⟩]⟩,
  ⟨3276808, [], [⟨0, 32, .st, 4804099, 2⟩]⟩,
  ⟨3276812, [], [⟨0, 16, .st, 256, 2⟩]⟩,
  ⟨3276816, [], [⟨0, 9, .st, 511, 2⟩]⟩,
  ⟨3276820, [], [⟨0, 9, .ro, 511, 2⟩, ⟨9, 1, .ro, 0, 2⟩, ⟨10, 2, .ro, 0, 2⟩, ⟨16, 9, .ro, 511, 2⟩, ⟨25, 1, .ro, 0, 2⟩, ⟨26, 1, .ro, 0, 2⟩]⟩,
  ⟨3276824, [], [⟨0, 32, .ro, 0, 1⟩]⟩,
  ⟨3276828, [], [⟨0, 32, .ro, 0, 1⟩]⟩,
  ⟨3276832, [], [⟨0, 32, .ro, 0, 2⟩]⟩,
  ⟨3276836, [], [⟨0, 16, .ro, 0, 2⟩]⟩,
  ⟨3276840, [], [⟨0, 32, .ro, 0, 2⟩]⟩,
  ⟨3276844, [], [⟨0, 16, .ro, 0, 2⟩]⟩,
  ⟨3276848, [], [⟨0, 16, .ro, 0, 2⟩, ⟨16, 16, .ro, 0, 2⟩]⟩,
  ⟨3276852, [], [⟨0, 16, .ro, 0, 2⟩, ⟨16, 16, .ro, 65535, 2⟩]⟩]
/-- Registers of the map, part 3 (base address, index dimensions (count, stride), fields). -/
def regMap3 : List RegDesc := [
  ⟨3276856, [], [⟨0, 1, .ro, 0, 2⟩, ⟨1, 1, .ro, 0, 2⟩, ⟨16, 16, .ro, 0, 2⟩]⟩,
  ⟨3276860, [], [⟨0, 16, .ro, 0, 2⟩, ⟨16, 16, .ro, 0, 2⟩]⟩,
  ⟨3276864, [], [⟨0, 16, .ro, 0, 2⟩, ⟨16, 16, .ro, 0, 2⟩]⟩,
  ⟨3276868, [], [⟨0, 16, .ro, 0, 2⟩, ⟨16, 16, .ro, 0, 2⟩]⟩,
  ⟨3276872, [], [⟨0, 16, .ro, 0, 2⟩, ⟨16, 16, .ro, 0, 2⟩]⟩,
  ⟨3276876, [], [⟨0, 16, .ro, 0, 2⟩]⟩,
  ⟨3276880, [], [⟨0, 15, .ro, 0, 2⟩, ⟨16, 15, .ro, 0, 2⟩]⟩,
  ⟨3276884, [], [⟨0, 10, .ro, 0, 2⟩, ⟨16, 10, .ro, 0, 2⟩]⟩,
  ⟨3276888, [], [⟨0, 19, .ro, 0, 2⟩]⟩,
  ⟨3276892, [], [⟨0, 4, .ro, 0, 2⟩, ⟨4, 25, .ro, 0, 2⟩]⟩,
  ⟨3276928, [(2, 32), (5, 4)], [⟨0, 11, .ro, 0, 2⟩, ⟨16, 11, .ro, 0, 2⟩, ⟨31, 1, .w1c, 0, 2⟩]⟩,
  ⟨3277056, [], [⟨0, 9, .rw, 0, 3⟩]⟩,
  ⟨3277060, [], [⟨0, 2, .ro, 0, 2⟩, ⟨2, 2, .ro, 0, 2⟩, ⟨4, 1, .ro, 0, 2⟩, ⟨5, 3, .ro, 0, 2⟩, ⟨8, 3, .ro, 0, 2⟩, ⟨12, 2, .ro, 0, 2⟩, ⟨16, 16, .ro, 65535, 2⟩]⟩,
  ⟨3277064, [], [⟨0, 32, .ro, 0, 2⟩]⟩,
  ⟨3277068, [], [⟨0, 32, .ro, 0, 2⟩]⟩,
  ⟨3277088, [], [⟨0, 3, .rw, 0, 3⟩, ⟨4, 2, .ro, 0, 3⟩, ⟨30, 1, .ro, 0, 3⟩, ⟨31, 1, .w1s, 0, 3⟩]⟩,
  ⟨3145728, [(6, 4096)], [⟨0, 1, .ro, 0, 7⟩, ⟨1, 3, .ro, 0, 7⟩]⟩,
  ⟨3145732, [(6, 4096)], [⟨0, 1, .st, 0, 2⟩, ⟨1, 3, .st, 0, 2⟩, ⟨4, 1, .st, 0, 2⟩, ⟨5, 8, .st, 20, 2⟩, ⟨13, 1, .st, 0, 2⟩, ⟨14, 1, .st, 0, 2⟩]⟩,
  ⟨3145736, [(6, 4096)], [⟨0, 32, .st, 0, 1⟩]⟩,
  ⟨3145740, [(6, 4096)], [⟨0, 16, .st, 0, 1⟩]⟩,
  ⟨3145744, [(6, 4096)], [⟨0, 1, .st, 0, 2⟩, ⟨4, 12, .st, 0, 2⟩, ⟨16, 3, .st, 0, 2⟩]⟩,
  ⟨3145748, [(6, 4096)], [⟨0, 6, .st, 0, 2⟩, ⟨31, 1, .st, 0, 2⟩]⟩,
  ⟨3145752, [(6, 4096)], [⟨0, 32, .st, 0, 2⟩]⟩,
  ⟨3145756, [(6, 4096)], [⟨0, 32, .st, 0, 2⟩]⟩,
  ⟨3145760, [(6, 4096)], [⟨0, 16, .st, 0, 2⟩, ⟨16, 16, .st, 0, 2⟩]⟩,
  ⟨3145764, [(6, 4096)], [⟨0, 10, .st, 50, 2⟩]⟩,
  ⟨3146752, [(6, 4096), (4, 80), (16, 4)], [⟨0, 32, .st, 0, 2⟩]⟩,
  ⟨3146816, [(6, 4096), (4, 80)], [⟨0, 32, .st, 0, 2⟩]⟩,
  ⟨3146820, [(6, 4096), (4, 80)], [⟨0, 32, .st, 0, 2⟩]⟩,
  ⟨3146824, [(6, 4096), (4, 80)], [⟨0, 1, .st, 0, 2⟩]⟩,
  ⟨3145776, [(6, 4096)], [⟨0, 1, .ro, 0, 4⟩, ⟨1, 1, .ro, 0, 4⟩, ⟨2, 1, .ro, 0, 4⟩, ⟨3, 1, .ro, 0, 4⟩, ⟨4, 3, .ro, 0, 4⟩, ⟨7, 1, .ro, 0, 4⟩]⟩,
  ⟨3145780, [(6, 4096)], [⟨0, 1, .ro, 0, 4⟩, ⟨1, 1, .ro, 0, 4⟩, ⟨2, 7, .ro, 0, 4⟩, ⟨9, 1, .ro, 0, 2⟩, ⟨12, 3, .ro, 0, 2⟩, ⟨15, 1, .ro, 1, 4⟩]⟩,
  ⟨3145784, [(6, 4096)], [⟨0, 3, .rw, 0, 3⟩, ⟨4, 2, .ro, 0, 3⟩, ⟨30, 1, .ro, 0, 3⟩, ⟨31, 1, .w1s, 0, 3⟩]⟩,
  ⟨3145984, [(6, 4096), (7, 8)], [⟨0, 17, .ro, 0, 4⟩, ⟨24, 4, .ro, 0, 4⟩, ⟨31, 1, .ro, 0, 4⟩]⟩,
  ⟨3145988, [(6, 4096), (7, 8)], [⟨0, 12, .ro, 0, 4⟩, ⟨16, 12, .ro, 0, 4⟩]⟩,
  ⟨3211264, [], [⟨0, 16, .st, 47808, 2⟩, ⟨16, 16, .st, 5683, 2⟩]⟩,
  ⟨3211268, [], [⟨0, 8, .st, 60, 2⟩]⟩,
  ⟨3211272, [], [⟨0, 16, .st, 0, 2⟩]⟩,
  ⟨3211276, [], [⟨0, 14, .ro, 0, 2⟩, ⟨16, 14, .ro, 0, 2⟩]⟩,
  ⟨3211280, [], [⟨0, 16, .ro, 0, 2⟩, ⟨16, 16, .ro, 0, 2⟩]⟩]
/-- Registers of the map, part 4 (base address, index dimensions (count, stride), fields). -/
def regMap4 : List RegDesc := [
  ⟨3211284, [], [⟨0, 16, .ro, 0, 2⟩]⟩,
  ⟨3215360, [(64, 64)], [⟨0, 32, .st, 0, 2⟩]⟩,
  ⟨3215364, [(64, 64)], [⟨0, 6, .st, 0, 2⟩, ⟨8, 1, .st, 0, 2⟩, ⟨9, 1, .st, 0, 2⟩, ⟨10, 1, .st, 0, 2⟩, ⟨11, 1, .st, 0, 2⟩, ⟨16, 6, .st, 0, 2⟩]⟩,
  ⟨3215368, [(64, 64)], [⟨0, 32, .st, 0, 2⟩]⟩,
  ⟨3215372, [(64, 64)], [⟨0, 32, .st, 0, 2⟩]⟩,
  ⟨3215376, [(64, 64)], [⟨0, 32, .st, 0, 2⟩]⟩,
  ⟨3215380, [(64, 64)], [⟨0, 32, .st, 0, 2⟩]⟩,
  ⟨3215384, [(64, 64)], [⟨0, 32, .st, 0, 2⟩]⟩,
  ⟨3215388, [(64, 64)], [⟨0, 22, .st, 0, 2⟩]⟩,
  ⟨3215392, [(64, 64)], [⟨0, 11, .ro, 0, 2⟩, ⟨11, 5, .ro, 0, 2⟩, ⟨16, 8, .ro, 0, 2⟩, ⟨24, 8, .ro, 0, 2⟩]⟩,
  ⟨3211520, [], [⟨0, 2, .st, 0, 2⟩, ⟨2, 1, .st, 0, 2⟩, ⟨3, 8, .st, 0, 2⟩, ⟨16, 6, .st, 0, 2⟩]⟩,
  ⟨3211524, [], [⟨0, 8, .st, 128, 2⟩, ⟨8, 8, .st, 128, 2⟩, ⟨16, 8, .st, 248, 2⟩]⟩,
  ⟨3211528, [], [⟨0, 4, .st, 13, 2⟩, ⟨4, 4, .st, 1, 2⟩, ⟨8, 4, .st, 3, 2⟩, ⟨12, 4, .st, 0, 2⟩]⟩,
  ⟨3211552, [(6, 4)], [⟨0, 1, .st, 0, 2⟩, ⟨1, 2, .st, 0, 2⟩, ⟨4, 4, .ro, 3, 2⟩]⟩,
  ⟨3211532, [], [⟨0, 1, .ro, 0, 2⟩, ⟨1, 1, .ro, 0, 2⟩, ⟨2, 3, .ro, 7, 2⟩, ⟨16, 16, .ro, 0, 2⟩]⟩,
  ⟨3211536, [], [⟨0, 32, .ro, 0, 2⟩]⟩,
  ⟨3211540, [], [⟨0, 32, .ro, 0, 2⟩]⟩,
  ⟨3211544, [], [⟨0, 32, .ro, 0, 2⟩]⟩,
  ⟨3211548, [], [⟨0, 16, .ro, 0, 2⟩, ⟨16, 16, .ro, 0, 2⟩]⟩,
  ⟨3211584, [], [⟨0, 30, .rs, 0, 1⟩]⟩,
  ⟨3211588, [], [⟨0, 32, .ro, 0, 1⟩]⟩,
  ⟨3211592, [], [⟨0, 16, .rs, 0, 1⟩]⟩,
  ⟨3211596, [], [⟨0, 32, .ro, 0, 1⟩]⟩,
  ⟨3211600, [], [⟨0, 32, .rw, 0, 3⟩]⟩,
  ⟨3211604, [], [⟨0, 16, .rw, 0, 3⟩]⟩,
  ⟨3211608, [], [⟨0, 3, .rw, 0, 3⟩, ⟨4, 2, .ro, 0, 3⟩, ⟨30, 1, .ro, 0, 3⟩, ⟨31, 1, .w1s, 0, 3⟩]⟩,
  ⟨3342336, [(12, 1024)], [⟨0, 1, .st, 0, 2⟩, ⟨1, 1, .st, 0, 2⟩, ⟨2, 1, .st, 1, 2⟩, ⟨3, 1, .st, 0, 2⟩, ⟨4, 4, .st, 0, 2⟩, ⟨8, 1, .st, 1, 2⟩, ⟨9, 1, .st, 1, 2⟩, ⟨16, 7, .st, 30, 2⟩]⟩,
  ⟨3342340, [(12, 1024)], [⟨0, 5, .st, 0, 2⟩, ⟨5, 8, .st, 126, 2⟩, ⟨13, 7, .st, 31, 2⟩, ⟨20, 7, .st, 31, 2⟩]⟩,
  ⟨3342344, [(12, 1024)], [⟨0, 5, .st, 0, 2⟩, ⟨5, 5, .st, 28, 2⟩, ⟨10, 4, .st, 9, 2⟩, ⟨14, 4, .st, 9, 2⟩]⟩,
  ⟨3342360, [(12, 1024)], [⟨0, 1, .st, 0, 2⟩, ⟨1, 9, .st, 504, 2⟩, ⟨10, 6, .st, 2, 2⟩, ⟨16, 4, .st, 3, 2⟩, ⟨20, 1, .st, 0, 2⟩]⟩,
  ⟨3342592, [(12, 1024), (64, 8)], [⟨0, 29, .st, 0, 2⟩, ⟨29, 1, .st, 0, 2⟩, ⟨30, 1, .st, 0, 2⟩, ⟨31, 1, .st, 0, 2⟩]⟩,
  ⟨3342596, [(12, 1024), (64, 8)], [⟨0, 29, .st, 0, 2⟩]⟩,
  ⟨3342348, [(12, 1024)], [⟨0, 4, .ro, 0, 2⟩, ⟨4, 3, .ro, 0, 2⟩, ⟨8, 1, .ro, 0, 2⟩, ⟨9, 1, .ro, 0, 2⟩, ⟨16, 16, .ro, 0, 2⟩]⟩,
  ⟨3342352, [(12, 1024)], [⟨0, 2, .ro, 3, 4⟩, ⟨2, 1, .ro, 1, 4⟩, ⟨3, 1, .ro, 0, 4⟩, ⟨4, 1, .w1c, 0, 2⟩, ⟨8, 8, .ro, 0, 4⟩, ⟨16, 9, .ro, 0, 4⟩]⟩,
  ⟨3342356, [(12, 1024)], [⟨0, 3, .rw, 0, 3⟩, ⟨4, 2, .ro, 0, 3⟩, ⟨30, 1, .ro, 0, 3⟩, ⟨31, 1, .w1s, 0, 3⟩]⟩,
  ⟨3342364, [(12, 1024)], [⟨0, 7, .ro, 0, 2⟩, ⟨8, 7, .ro, 0, 2⟩, ⟨16, 16, .ro, 0, 2⟩]⟩,
  ⟨3342368, [(12, 1024)], [⟨0, 7, .rw, 0, 3⟩]⟩,
  ⟨3342372, [(12, 1024)], [⟨0, 2, .ro, 0, 2⟩, ⟨2, 1, .ro, 0, 2⟩, ⟨8, 8, .ro, 0, 2⟩, ⟨16, 16, .ro, 65535, 2⟩]⟩,
  ⟨3342376, [(12, 1024)], [⟨0, 32, .ro, 0, 2⟩]⟩,
  ⟨3342380, [(12, 1024)], [⟨0, 32, .ro, 0, 2⟩]⟩]
/-- Registers of the map, part 5 (base address, index dimensions (count, stride), fields). -/
def regMap5 : List RegDesc := [
  ⟨3342384, [(12, 1024)], [⟨0, 32, .ro, 0, 2⟩]⟩,
  ⟨3342388, [(12, 1024)], [⟨0, 32, .ro, 0, 2⟩]⟩,
  ⟨3342392, [(12, 1024)], [⟨0, 7, .ro, 0, 4⟩, ⟨16, 7, .ro, 0, 4⟩]⟩,
  ⟨3407872, [(8, 256)], [⟨0, 1, .st, 0, 2⟩, ⟨1, 2, .st, 1, 2⟩, ⟨3, 1, .st, 0, 2⟩, ⟨4, 8, .st, 1, 2⟩, ⟨12, 2, .st, 1, 2⟩]⟩,
  ⟨3407876, [(8, 256)], [⟨0, 16, .st, 1041, 2⟩, ⟨16, 4, .st, 11, 2⟩]⟩,
  ⟨3407880, [(8, 256)], [⟨0, 16, .st, 0, 2⟩, ⟨16, 16, .st, 0, 2⟩]⟩,
  ⟨3407884, [(8, 256)], [⟨0, 16, .st, 100, 2⟩, ⟨16, 16, .st, 5000, 2⟩]⟩,
  ⟨3407888, [(8, 256)], [⟨0, 1, .ro, 1, 4⟩, ⟨1, 1, .ro, 0, 4⟩, ⟨2, 1, .ro, 0, 4⟩, ⟨16, 12, .ro, 0, 4⟩]⟩,
  ⟨3407892, [(8, 256)], [⟨0, 3, .rw, 0, 3⟩, ⟨4, 2, .ro, 0, 3⟩, ⟨30, 1, .ro, 0, 3⟩, ⟨31, 1, .w1s, 0, 3⟩]⟩,
  ⟨3407896, [(8, 256)], [⟨0, 8, .rw, 1, 3⟩]⟩,
  ⟨3407900, [(8, 256)], [⟨0, 2, .ro, 0, 2⟩, ⟨8, 8, .ro, 0, 2⟩, ⟨16, 16, .ro, 0, 2⟩]⟩,
  ⟨3407940, [(8, 256)], [⟨0, 16, .ro, 0, 2⟩, ⟨16, 16, .ro, 0, 2⟩]⟩,
  ⟨4194304, [], [⟨0, 7, .ro, 0, 1⟩, ⟨8, 1, .ro, 0, 1⟩, ⟨9, 1, .ro, 0, 1⟩, ⟨16, 1, .ro, 0, 1⟩, ⟨17, 1, .ro, 0, 1⟩]⟩,
  ⟨4194308, [], [⟨0, 3, .rw, 0, 3⟩, ⟨4, 2, .ro, 0, 3⟩, ⟨30, 1, .ro, 0, 3⟩, ⟨31, 1, .w1s, 0, 3⟩]⟩,
  ⟨4194312, [], [⟨0, 8, .st, 10, 2⟩, ⟨8, 8, .st, 24, 2⟩, ⟨16, 7, .st, 30, 2⟩]⟩,
  ⟨4194316, [], [⟨0, 16, .ro, 0, 1⟩, ⟨16, 16, .ro, 0, 1⟩]⟩,
  ⟨4194320, [], [⟨0, 16, .st, 16, 2⟩]⟩,
  ⟨4194324, [], [⟨0, 1, .w1c, 0, 2⟩, ⟨1, 1, .w1c, 0, 2⟩, ⟨2, 1, .w1c, 0, 2⟩, ⟨3, 1, .w1c, 0, 2⟩, ⟨4, 1, .w1c, 0, 2⟩, ⟨5, 1, .w1c, 0, 2⟩, ⟨16, 16, .ro, 0, 2⟩]⟩,
  ⟨4194328, [], [⟨0, 32, .ro, 0, 1⟩]⟩,
  ⟨4194332, [], [⟨0, 1, .ro, 0, 1⟩, ⟨4, 3, .ro, 0, 1⟩, ⟨8, 5, .ro, 0, 1⟩, ⟨13, 1, .ro, 0, 1⟩, ⟨14, 1, .ro, 0, 1⟩, ⟨15, 1, .ro, 0, 1⟩]⟩,
  ⟨4194368, [(7, 8)], [⟨0, 32, .ro, 0, 1⟩]⟩,
  ⟨4194372, [(7, 8)], [⟨0, 16, .ro, 0, 1⟩]⟩,
  ⟨4194432, [(4, 4)], [⟨0, 8, .ro, 0, 2⟩, ⟨16, 16, .ro, 0, 2⟩]⟩,
  ⟨4194336, [], [⟨0, 13, .ro, 0, 1⟩, ⟨16, 13, .ro, 0, 1⟩]⟩,
  ⟨4194340, [], [⟨0, 10, .ro, 0, 1⟩, ⟨16, 9, .ro, 0, 1⟩]⟩,
  ⟨4194344, [], [⟨0, 16, .ro, 0, 1⟩, ⟨16, 16, .ro, 0, 1⟩]⟩,
  ⟨4194348, [], [⟨0, 1, .ro, 0, 1⟩, ⟨1, 1, .ro, 0, 1⟩, ⟨2, 1, .ro, 0, 1⟩, ⟨3, 1, .ro, 0, 1⟩, ⟨4, 1, .ro, 0, 1⟩]⟩,
  ⟨4194352, [], [⟨0, 11, .ro, 0, 2⟩, ⟨16, 10, .ro, 0, 2⟩]⟩,
  ⟨4194356, [], [⟨0, 11, .ro, 0, 2⟩, ⟨16, 11, .ro, 0, 2⟩]⟩,
  ⟨4194560, [(64, 8)], [⟨0, 11, .ro, 0, 2⟩, ⟨16, 11, .ro, 0, 2⟩]⟩,
  ⟨4194564, [(64, 8)], [⟨0, 32, .ro, 0, 2⟩]⟩,
  ⟨5242880, [], [⟨0, 32, .rs, 0, 0⟩]⟩,
  ⟨5242884, [], [⟨0, 16, .rs, 0, 0⟩]⟩,
  ⟨5242888, [], [⟨0, 32, .rw, 0, 0⟩]⟩,
  ⟨5242892, [], [⟨0, 16, .rw, 0, 0⟩]⟩,
  ⟨5242896, [], [⟨0, 1, .w1s, 0, 0⟩, ⟨8, 1, .rw, 0, 0⟩, ⟨9, 1, .rw, 0, 0⟩, ⟨10, 1, .w1c, 0, 0⟩]⟩,
  ⟨5242900, [], [⟨0, 32, .rw, 0, 0⟩]⟩,
  ⟨5242904, [], [⟨0, 16, .rw, 0, 0⟩]⟩,
  ⟨5242908, [], [⟨0, 16, .rw, 0, 0⟩, ⟨16, 1, .rw, 0, 0⟩, ⟨17, 1, .w1c, 0, 0⟩]⟩,
  ⟨5242912, [], [⟨0, 24, .ro, 0, 1⟩, ⟨24, 1, .ro, 0, 1⟩, ⟨25, 1, .ro, 0, 1⟩]⟩]
/-- Registers of the map, part 6 (base address, index dimensions (count, stride), fields). -/
def regMap6 : List RegDesc := [
  ⟨5242916, [], [⟨0, 1, .ro, 0, 3⟩, ⟨8, 8, .ro, 0, 0⟩, ⟨16, 16, .ro, 0, 0⟩]⟩,
  ⟨5308416, [], [⟨0, 7, .ro, 0, 0⟩, ⟨8, 1, .ro, 0, 1⟩, ⟨9, 1, .ro, 0, 0⟩]⟩,
  ⟨5308420, [], [⟨0, 6, .rw, 0, 3⟩]⟩,
  ⟨5308424, [], [⟨0, 4, .rw, 0, 3⟩, ⟨4, 1, .rw, 0, 3⟩, ⟨8, 3, .ro, 0, 3⟩, ⟨30, 1, .ro, 0, 3⟩, ⟨31, 1, .w1s, 0, 3⟩]⟩,
  ⟨5308428, [], [⟨0, 3, .ro, 0, 0⟩, ⟨3, 1, .ro, 0, 0⟩, ⟨4, 2, .ro, 0, 0⟩, ⟨8, 12, .ro, 0, 0⟩, ⟨20, 12, .ro, 0, 0⟩]⟩,
  ⟨5308432, [], [⟨0, 16, .ro, 0, 0⟩]⟩,
  ⟨5308436, [], [⟨0, 24, .ro, 0, 0⟩]⟩,
  ⟨5308440, [], [⟨0, 24, .ro, 0, 0⟩]⟩,
  ⟨5308444, [], [⟨0, 24, .rw, 0, 3⟩]⟩,
  ⟨5308672, [(32, 4)], [⟨0, 32, .rw, 0, 3⟩]⟩,
  ⟨5373952, [(9, 4)], [⟨0, 1, .st, 0, 0⟩, ⟨1, 2, .st, 0, 0⟩, ⟨3, 2, .st, 2, 0⟩, ⟨5, 4, .st, 3, 0⟩, ⟨9, 1, .st, 0, 0⟩, ⟨10, 6, .st, 4, 0⟩]⟩,
  ⟨5374016, [], [⟨0, 9, .w1c, 0, 0⟩, ⟨16, 1, .w1c, 0, 0⟩, ⟨24, 8, .ro, 0, 0⟩]⟩,
  ⟨5374020, [], [⟨0, 9, .ro, 0, 0⟩]⟩,
  ⟨5374024, [], [⟨0, 12, .ro, 0, 0⟩, ⟨12, 1, .ro, 0, 0⟩, ⟨16, 8, .ro, 0, 0⟩]⟩,
  ⟨5374028, [], [⟨0, 5, .rw, 0, 3⟩]⟩,
  ⟨5374032, [(4, 4)], [⟨0, 32, .ro, 0, 0⟩]⟩,
  ⟨5374048, [], [⟨0, 5, .ro, 0, 0⟩, ⟨16, 16, .ro, 0, 0⟩]⟩,
  ⟨5374052, [], [⟨0, 3, .rw, 0, 3⟩, ⟨4, 2, .ro, 0, 3⟩, ⟨30, 1, .ro, 0, 3⟩, ⟨31, 1, .w1s, 0, 3⟩]⟩,
  ⟨5439488, [], [⟨0, 3, .ro, 0, 0⟩, ⟨8, 1, .ro, 0, 2⟩, ⟨16, 16, .ro, 0, 0⟩]⟩,
  ⟨5439492, [], [⟨0, 3, .rw, 0, 3⟩, ⟨4, 3, .rw, 0, 3⟩, ⟨8, 3, .ro, 0, 3⟩, ⟨30, 1, .ro, 0, 3⟩, ⟨31, 1, .w1s, 0, 3⟩]⟩,
  ⟨5439504, [(8, 4)], [⟨0, 32, .ro, 0, 2⟩]⟩,
  ⟨5439552, [(24, 4)], [⟨0, 32, .rw, 0, 3⟩]⟩,
  ⟨1048576, [], [⟨0, 3, .ro, 7, 2⟩, ⟨4, 3, .ro, 0, 2⟩, ⟨8, 1, .ro, 0, 2⟩, ⟨9, 1, .w1c, 0, 2⟩, ⟨10, 1, .ro, 0, 2⟩, ⟨11, 1, .ro, 0, 1⟩, ⟨12, 1, .w1c, 0, 2⟩, ⟨13, 1, .ro, 0, 1⟩, ⟨16, 16, .ro, 0, 1⟩]⟩,
  ⟨1048580, [], [⟨0, 3, .rw, 0, 3⟩, ⟨4, 2, .ro, 0, 3⟩, ⟨30, 1, .ro, 0, 3⟩, ⟨31, 1, .w1s, 0, 3⟩]⟩,
  ⟨1048584, [], [⟨0, 2, .st, 1, 0⟩, ⟨2, 1, .st, 0, 0⟩]⟩,
  ⟨1048588, [], [⟨0, 11, .st, 1350, 0⟩]⟩,
  ⟨1048592, [], [⟨0, 11, .ro, 0, 1⟩, ⟨16, 11, .ro, 0, 1⟩, ⟨31, 1, .w1c, 0, 1⟩]⟩,
  ⟨1048596, [], [⟨0, 8, .ro, 0, 1⟩, ⟨8, 16, .ro, 0, 1⟩, ⟨24, 8, .ro, 0, 1⟩]⟩,
  ⟨1048600, [], [⟨0, 14, .ro, 3, 1⟩]⟩,
  ⟨1048604, [], [⟨0, 15, .ro, 0, 1⟩, ⟨15, 1, .ro, 0, 1⟩, ⟨16, 1, .ro, 0, 1⟩, ⟨24, 8, .ro, 0, 0⟩]⟩,
  ⟨1048608, [], [⟨0, 1, .ro, 0, 0⟩, ⟨16, 16, .ro, 0, 0⟩]⟩,
  ⟨1048612, [], [⟨0, 3, .ro, 0, 0⟩]⟩,
  ⟨1048616, [], [⟨0, 8, .ro, 0, 1⟩, ⟨8, 1, .ro, 0, 1⟩]⟩,
  ⟨1114112, [], [⟨0, 14, .w1c, 1, 0⟩, ⟨16, 3, .ro, 0, 0⟩]⟩,
  ⟨1114116, [], [⟨0, 30, .ro, 0, 1⟩]⟩,
  ⟨1114120, [], [⟨0, 12, .ro, 0, 1⟩]⟩,
  ⟨1114124, [], [⟨0, 2, .ro, 0, 1⟩]⟩,
  ⟨1114128, [], [⟨0, 2, .ro, 0, 1⟩, ⟨2, 1, .ro, 0, 1⟩, ⟨3, 1, .ro, 0, 1⟩, ⟨4, 1, .ro, 0, 1⟩, ⟨6, 2, .ro, 0, 1⟩, ⟨8, 2, .ro, 0, 1⟩, ⟨16, 16, .ro, 0, 0⟩]⟩,
  ⟨1114132, [], [⟨0, 3, .rw, 0, 3⟩, ⟨4, 2, .ro, 0, 3⟩, ⟨8, 6, .rw, 0, 3⟩, ⟨30, 1, .ro, 0, 3⟩, ⟨31, 1, .w1s, 0, 3⟩]⟩,
  ⟨1114136, [], [⟨0, 16, .ro, 0, 0⟩, ⟨16, 16, .ro, 0, 2⟩]⟩]
/-- Registers of the map, part 7 (base address, index dimensions (count, stride), fields). -/
def regMap7 : List RegDesc := [
  ⟨1114140, [], [⟨0, 1, .ro, 0, 1⟩, ⟨1, 2, .ro, 0, 0⟩, ⟨3, 1, .ro, 0, 2⟩, ⟨4, 1, .ro, 0, 1⟩]⟩,
  ⟨1179648, [], [⟨0, 8, .ro, 1, 1⟩]⟩,
  ⟨1179652, [], [⟨0, 14, .ro, 0, 1⟩, ⟨16, 14, .w1c, 0, 1⟩]⟩,
  ⟨1179656, [], [⟨0, 3, .rw, 0, 3⟩]⟩,
  ⟨1179660, [], [⟨0, 24, .ro, 0, 1⟩]⟩,
  ⟨1179664, [], [⟨0, 16, .ro, 0, 0⟩, ⟨16, 3, .ro, 0, 0⟩]⟩,
  ⟨1179668, [], [⟨0, 3, .rw, 0, 3⟩, ⟨4, 2, .ro, 0, 3⟩, ⟨8, 4, .rw, 0, 3⟩, ⟨30, 1, .ro, 0, 3⟩, ⟨31, 1, .w1s, 0, 3⟩]⟩,
  ⟨1245184, [], [⟨0, 6, .ro, 0, 0⟩, ⟨6, 2, .ro, 0, 0⟩, ⟨8, 5, .ro, 0, 0⟩, ⟨13, 1, .ro, 0, 3⟩, ⟨14, 1, .ro, 0, 1⟩, ⟨15, 1, .ro, 0, 2⟩, ⟨16, 8, .ro, 0, 0⟩, ⟨24, 8, .ro, 0, 0⟩]⟩,
  ⟨1245188, [], [⟨0, 2, .st, 2, 2⟩, ⟨2, 1, .st, 0, 2⟩, ⟨8, 8, .st, 16, 2⟩]⟩,
  ⟨1245200, [(4, 4)], [⟨0, 32, .ro, 0, 0⟩]⟩,
  ⟨1245216, [], [⟨0, 12, .rw, 0, 3⟩, ⟨16, 2, .ro, 0, 3⟩, ⟨30, 1, .ro, 0, 3⟩, ⟨31, 1, .w1s, 0, 3⟩]⟩,
  ⟨1245232, [(4, 4)], [⟨0, 32, .ro, 0, 0⟩]⟩,
  ⟨1245248, [], [⟨0, 3, .rw, 0, 3⟩, ⟨4, 2, .ro, 0, 3⟩, ⟨30, 1, .ro, 0, 3⟩, ⟨31, 1, .w1s, 0, 3⟩]⟩,
  ⟨1245252, [], [⟨0, 8, .ro, 0, 0⟩, ⟨8, 12, .ro, 0, 0⟩, ⟨30, 1, .ro, 0, 0⟩, ⟨31, 1, .ro, 0, 0⟩]⟩,
  ⟨1245256, [], [⟨0, 16, .ro, 0, 1⟩, ⟨16, 16, .ro, 0, 1⟩]⟩,
  ⟨1245260, [], [⟨0, 16, .ro, 0, 1⟩, ⟨16, 16, .ro, 0, 1⟩]⟩,
  ⟨1245264, [], [⟨0, 8, .rw, 0, 3⟩, ⟨8, 12, .rw, 0, 3⟩, ⟨20, 1, .rw, 0, 3⟩, ⟨24, 8, .rw, 0, 3⟩]⟩,
  ⟨1245268, [], [⟨0, 32, .rw, 0, 3⟩]⟩,
  ⟨1245272, [], [⟨0, 3, .rw, 0, 3⟩, ⟨4, 2, .ro, 0, 3⟩, ⟨8, 20, .rw, 0, 3⟩, ⟨30, 1, .ro, 0, 3⟩, ⟨31, 1, .w1s, 0, 3⟩]⟩,
  ⟨1245280, [], [⟨0, 1, .ro, 0, 2⟩, ⟨8, 5, .ro, 0, 2⟩, ⟨16, 7, .ro, 0, 2⟩, ⟨24, 1, .ro, 0, 2⟩, ⟨25, 1, .ro, 0, 2⟩, ⟨26, 1, .ro, 0, 2⟩, ⟨27, 1, .ro, 0, 2⟩]⟩,
  ⟨1245284, [], [⟨0, 32, .ro, 0, 2⟩]⟩,
  ⟨1245288, [], [⟨0, 32, .ro, 0, 2⟩]⟩,
  ⟨7340032, [(64, 4)], [⟨0, 2, .st, 0, 2⟩, ⟨2, 1, .st, 0, 2⟩, ⟨3, 2, .st, 1, 2⟩, ⟨5, 1, .st, 0, 2⟩]⟩,
  ⟨7340288, [], [⟨0, 32, .ro, 0, 2⟩]⟩,
  ⟨7340292, [], [⟨0, 32, .ro, 0, 2⟩]⟩,
  ⟨7340296, [], [⟨0, 32, .ro, 0, 2⟩]⟩,
  ⟨7340300, [], [⟨0, 32, .ro, 0, 2⟩]⟩,
  ⟨7340304, [], [⟨0, 32, .ro, 0, 2⟩]⟩,
  ⟨7340308, [], [⟨0, 32, .ro, 0, 2⟩]⟩,
  ⟨7340544, [], [⟨0, 8, .st, 0, 2⟩, ⟨8, 2, .st, 2, 2⟩]⟩,
  ⟨7340548, [], [⟨0, 8, .ro, 0, 2⟩]⟩,
  ⟨7340800, [], [⟨0, 1, .ro, 0, 2⟩, ⟨1, 1, .ro, 0, 2⟩, ⟨2, 1, .ro, 0, 2⟩, ⟨3, 1, .ro, 0, 2⟩]⟩,
  ⟨3146240, [(6, 4096), (24, 4)], [⟨0, 32, .ro, 0, 2⟩]⟩,
  ⟨3342400, [(12, 1024), (14, 4)], [⟨0, 32, .ro, 0, 2⟩]⟩,
  ⟨3407904, [(8, 256), (9, 4)], [⟨0, 32, .ro, 0, 2⟩]⟩,
  ⟨6291712, [(9, 4)], [⟨0, 32, .ro, 0, 1⟩]⟩]

/-- The whole register map (R4). -/
def regMap : List RegDesc :=
  regMap0 ++ regMap1 ++ regMap2 ++ regMap3 ++ regMap4 ++ regMap5 ++ regMap6 ++ regMap7

end Sys2Proof.Machine
end

