-- ==== Sys2Proof/Machine/Ops.lean ====
section
/-! DEFINITION. Machine/Ops.lean: the shared operations over State: sparse tables, register fields, time, free values, outputs, domains and modes. -/

namespace Sys2Proof.Machine

/-! ## Sparse tables -/

/-- The entry listed at key `k`. -/
def tabGet? {α : Type} : Tab α → Nat → Option α
  | [], _ => none
  | (j, a) :: t, k => if j = k then some a else if k < j then none else tabGet? t k

/-- The table with `a` at key `k`; keys stay strictly rising. -/
def tabPut {α : Type} : Tab α → Nat → α → Tab α
  | [], k, a => [(k, a)]
  | (j, b) :: t, k, a => if k < j then (k, a) :: (j, b) :: t else if j = k then (k, a) :: t else (j, b) :: tabPut t k a

/-- The table with nothing at key `k`. -/
def tabDel {α : Type} : Tab α → Nat → Tab α
  | [], _ => []
  | (j, b) :: t, k => if j = k then t else (j, b) :: tabDel t k

/-- The entry at key `k`, `d` where none is listed. -/
def tabGet {α : Type} (d : α) (t : Tab α) (k : Nat) : α := (tabGet? t k).getD d

/-- `a` at key `k`; nothing listed there when `a` is the entry `d` that an unlisted key reads as. -/
def tabSet {α : Type} [DecidableEq α] (d : α) (t : Tab α) (k : Nat) (a : α) : Tab α :=
  if a = d then tabDel t k else tabPut t k a

/-- Keys strictly rising, all above `lo` when `lo` is some. -/
def tabSortedFrom {α : Type} : Option Nat → Tab α → Bool
  | _, [] => true
  | lo, (j, _) :: t => (match lo with | none => true | some l => decide (l < j)) && tabSortedFrom (some j) t

/-- The canonical form of a table whose unlisted keys read as `d`: keys strictly rising, no entry equal to `d`. -/
def tabWf {α : Type} [DecidableEq α] (d : α) (t : Tab α) : Bool :=
  tabSortedFrom none t && t.all (fun p => decide (p.2 ≠ d))

/-- Replaces element `i` of a list, if it has one. -/
def listSet {α : Type} (l : List α) (i : Nat) (a : α) : List α := l.set i a

/-! ## Bits -/

/-- Bits `lo` to `lo + w - 1` of `n`. -/
def bitsOf (n lo w : Nat) : Nat := n / 2 ^ lo % 2 ^ w

/-- Bit `i` of `n`. -/
def bitOf (n i : Nat) : Bool := bitsOf n i 1 == 1

/-- `n` with bit `i` set to `b`. -/
def setBit (n i : Nat) (b : Bool) : Nat :=
  if bitOf n i == b then n else if b then n + 2 ^ i else n - 2 ^ i

/-- 1 for true. -/
def b2n (b : Bool) : Nat := if b then 1 else 0

/-- `n` limited to `m`: a counter that saturates. -/
def satAt (m n : Nat) : Nat := min n m

/-- The number of 1 bits of `n` below bit `k`. -/
def popCount (n : Nat) : Nat → Nat
  | 0 => 0
  | k + 1 => popCount n k + bitsOf n k 1

/-! ## Register fields (00 R4 to R10) -/

/-- The key of a field in `regs`: address, low bit and reset level. -/
def RF.key (f : RF) : Nat := (f.addr * 32 + f.lo) * 8 + f.lvl

/-- The field that requester number `q` has of a register kept per requester. -/
def RF.bank (f : RF) (q : Nat) : RF := { f with addr := f.addr + q * 0x1000000 }

/-- The value a field holds. -/
def getF (s : State) (f : RF) : Nat := tabGet f.rst s.regs f.key

/-- The state with field `f` holding `v` modulo its width. -/
def setF (s : State) (f : RF) (v : Nat) : State := { s with regs := tabSet f.rst s.regs f.key (v % 2 ^ f.w) }

/-- A one-bit field as a Bool. -/
def getB (s : State) (f : RF) : Bool := getF s f == 1

/-- Sets a one-bit field. -/
def setB (s : State) (f : RF) (b : Bool) : State := setF s f (b2n b)

/-- Adds to a counter that wraps at its width. -/
def incF (s : State) (f : RF) (n : Nat := 1) : State := setF s f (getF s f + n)

/-- Adds to a counter that saturates at its width's largest value. -/
def incSatF (s : State) (f : RF) (n : Nat := 1) : State := setF s f (satAt (2 ^ f.w - 1) (getF s f + n))

/-- Keeps the largest value. -/
def maxF (s : State) (f : RF) (v : Nat) : State := if getF s f < v then setF s f (satAt (2 ^ f.w - 1) v) else s

/-- Sets several fields. -/
def setFs (s : State) : List (RF × Nat) → State
  | [] => s
  | (f, v) :: t => setFs (setF s f v) t

/-- Number of a requester: SV 0, LE0 to LE7 1 to 8, NE1 9, debug 10 (R538). -/
def Requester.num : Requester → Nat
  | .sv => 0 | .le e => 1 + e.val | .ne1 => 9 | .debug => 10

/-- Hardware sets bits of a W1C field: a clear written in the same fabric cycle leaves them set (R7). -/
def latchF (s : State) (f : RF) (bits : Nat) : State :=
  let t := setF s f (getF s f ||| bits)
  { t with cyc := { t.cyc with latched := tabPut t.cyc.latched f.key (tabGet 0 t.cyc.latched f.key ||| bits) } }

/-- Software writes 1 to a W1S bit that stands for a request in progress: should hardware clear it in this fabric cycle, it starts again (R8). -/
def askAgain (s : State) (f : RF) : State := { s with cyc := { s.cyc with asked := f.key :: s.cyc.asked } }

/-- The W1S bit was written as 1 in this fabric cycle while its request was in progress (R8). -/
def askedAgain (s : State) (f : RF) : Bool := s.cyc.asked.contains f.key

/-- The request that asked again has started again. -/
def takeAsk (s : State) (f : RF) : State := { s with cyc := { s.cyc with asked := s.cyc.asked.filter (· != f.key) } }

/-- Restores every field that a reset at level `l` restores (R10) and whose address satisfies `p`. -/
def resetRegs (s : State) (l : Nat) (p : Nat → Bool) : State :=
  { s with regs := s.regs.filter (fun kv => !(l ≤ kv.1 % 8 && kv.1 % 8 ≠ 7 && p (kv.1 / 256 % 0x1000000))) }

/-! ## Time (01 R25, 04 R109) -/

/-- Fabric cycles of 4 ns in a grid tick of 250 µs. -/
def fcPerTick : Nat := 62500

/-- A signed 16-bit field. -/
def signed16 (n : Nat) : Int := (BitVec.ofNat 16 n).toInt

/-- The correction of the present tick's length in 10^-8 of a fabric cycle: a positive TR_STEER.RATE makes the grid faster (08 R256, log 102). -/
def tickShift (s : State) : Int :=
  (s.gridAcc : Int) - (if getB s Fld.LE_GSTAT_STEERED then 62500 * signed16 (getF s Fld.TR_STEER_RATE) else 0)

/-- Fabric cycles of the present grid tick, within ±50 ppm of 62,500 (R25, 08 R256). -/
def tickLen (s : State) : Nat := (62500 + max (-4) (min 4 (Int.fdiv (tickShift s) 100000000))).toNat

/-- Fabric cycles of the longest grid tick. -/
def fcTickMax : Nat := 62504

/-- 2^48: the tick number's modulus (R109). -/
def tickMod : Nat := 2 ^ 48

/-- PT_USEC: microseconds of the grid time base, modulo 2^32 (R109, R71). -/
def usecNow (s : State) : Nat := (s.tick * 250 + s.fc / 250) % 2 ^ 32

/-- Fabric cycles since `el` read `m`. -/
def fcSince (s : State) (m : Nat) : Nat := s.el - m

/-- Fabric cycles of a microsecond, and of a millisecond. -/
def usCycles : Nat := 250
def msCycles : Nat := 250000
/-- Fabric cycles of an hour. -/
def hourCycles : Nat := 3600000 * msCycles

/-- Starts the time of a key. -/
def startTime (s : State) (k : Nat) : State := { s with timers := tabPut s.timers k s.el }

/-- The time of a key has run for `n` fabric cycles, or was never started. -/
def timeRan (s : State) (k n : Nat) : Bool := match tabGet? s.timers k with | some m => decide (m + n ≤ s.el) | none => true

/-- Keys of the times that the model keeps: a MAC held by PAUSE, its PAUSE frame's quanta, its last PAUSE frame, its last transmission (09). -/
def tmHeld (m : Nat) : Nat := m
def tmQuanta (m : Nat) : Nat := 8 + m
def tmPause (m : Nat) : Nat := 16 + m
def tmTx (m : Nat) : Nat := 24 + m
/-- Times of the network engines: a MAC's last Sync, its last Announce sent and received (10 R333, R334), an endpoint import's last registration and last
notification (10 R326). -/
def tmSync (m : Nat) : Nat := 32 + m
def tmAnnSend (m : Nat) : Nat := 40 + m
def tmAnn (m : Nat) : Nat := 48 + m
/-- Times of the field buses (11): a channel's last CALL and its rate detection, a line's request, the last probe of a station, the last poll of a read group
by its first entry, the last frame of a CAN_IN entry. -/
def tmCall (n : Nat) : Nat := 64 + n
def tmDetect (n : Nat) : Nat := 80 + n
def tmMb (u : Nat) : Nat := 96 + u
def tmProbe (u station : Nat) : Nat := 0x30000 + u * 256 + station
def tmPoll (k : Nat) : Nat := 0x40000 + k
def tmCanIn (k : Nat) : Nat := 0x50000 + k
/-- Times of the nonce, of a pending RTC load, of the secure bank's wipe, of the reset stretch, of nRESET's release, of a failed load (13, 14), of a VIO33
overload (16), of the last drift measurement (13), of the last NAND patrol; of a domain's release request (14 R471), of a region's hour and of the last scrub pass of the SRAMs and of DRAM
(12). -/
def tmNonce : Nat := 112
def tmLoad : Nat := 113
def tmWipe : Nat := 114
def tmStretch : Nat := 115
def tmPin : Nat := 116
def tmRetry : Nat := 117
def tmDrift : Nat := 118
def tmVio : Nat := 119
def tmPatrol : Nat := 120
/-- Times of the last HELLO, of a query of subscriptions (08), of a link's training (09) and a pulse (07). -/
def tmHello : Nat := 121
def tmQuery : Nat := 122
def tmTrain (m : Nat) : Nat := 160 + m
def tmPulse (k : Nat) : Nat := 168 + k
/-- Times of an export's last refresh, and of a subscription's last notification and its beginning (10). -/
def tmRefresh (n : Nat) : Nat := 0x60000 + n
def tmNotify (n client : Nat) : Nat := 0x1000000 + 2 * (client * 32768 + n)
def tmLife (n client : Nat) : Nat := tmNotify n client + 1
def tmRelease (d : Nat) : Nat := 128 + d
def tmHour (r : Nat) : Nat := 144 + r
def tmPass (dram : Bool) : Nat := 152 + b2n dram
def tmObserve (n : Nat) : Nat := 0x10000 + n
def tmEndpoint (n : Nat) : Nat := 0x20000 + n

/-- Fabric cycles × 256 in a tick of 32.768 kHz. -/
def rtcTickCycles : Nat := 1953125

/-- NE_TIME_ADJ as a signed number, limited to ±8,589,935 (10 R335). -/
def timeAdj (s : State) : Int :=
  let a := getF s Fld.NE_TIME_ADJ_ADJ
  let v : Int := if a < 2 ^ 31 then a else (a : Int) - 2 ^ 32
  max (-8589935) (min v 8589935)

/-- The time counter after `n` fabric cycles at a rate correction: each adds 4 ns and `adj` × 2^-32 ns (10 R335). -/
def TimeCtr.run (t : TimeCtr) (n : Nat) (adj : Int) : TimeCtr :=
  let v : Int := (t.ns * 2 ^ 32 + t.frac : Nat) + n * (4 * 2 ^ 32 + adj)
  let v := v.toNat
  let ns := v / 2 ^ 32
  { sec := (t.sec + ns / 1000000000) % 2 ^ 48, ns := ns % 1000000000, frac := v % 2 ^ 32 }

/-! ## Dual-clock queues (01 R21, 12 R380) -/

/-- The queues that commands cross: frames from a MAC to the fabric and back, field-bus messages from FE's controllers to the fabric and back, ME's
samples from the front end (log 27). -/
def dcqMacRx : Nat := 0
/-- Frames to a MAC. -/
def dcqMacTx : Nat := 1
/-- Field-bus messages received. -/
def dcqFieldRx : Nat := 2
/-- Field-bus messages to send. -/
def dcqFieldTx : Nat := 3
/-- Samples. -/
def dcqMeter : Nat := 4

/-- The writer of queue `q` still holds one of its 8 or 16 dowels. -/
def dcqHas (q : Nat) (d : Dcq) : Bool := decide (d.spent < 8) || (Config.dcqWide q && decide (d.spent < 16))

/-- An entry is written against a dowel; a writer without one waits, and never overwrites. -/
def dcqPut (q : Nat) (d : Dcq) : Dcq := if dcqHas q d then { d with spent := d.spent + 1, entries := d.entries + 1 } else d

/-- An entry is read, and its dowel starts back. -/
def dcqGet (d : Dcq) : Dcq := if d.entries = 0 then d else { d with entries := d.entries - 1, back := d.back + 1 }

/-- The Gray-coded count has crossed back: the writer holds the returned dowels again. -/
def dcqReturn (d : Dcq) : Dcq := { d with spent := d.spent - d.back, back := 0 }

/-- What a command passes from one clock domain to another crosses queue `q`: an entry written, once there is a dowel for it, and read. -/
def cross (s : State) (q : Nat) : State :=
  let d := tabGet {} s.mem.dcq q
  { s with mem := { s.mem with dcq := tabSet {} s.mem.dcq q (dcqGet (dcqPut q (if dcqHas q d then d else dcqReturn d))) } }

/-- Every dowel is with the writer, in an entry, or on its way back, and none is spent beyond the queue's size. -/
def dcqOk (q : Nat) (d : Dcq) : Bool :=
  d.spent == d.entries + d.back && (decide (d.spent ≤ 8) || (Config.dcqWide q && decide (d.spent ≤ 16)))

/-- The queues after a fabric cycle: returned dowels have crossed. -/
def dcqsAfter (t : Tab Dcq) : Tab Dcq := (t.map (fun kd => (kd.1, dcqReturn kd.2))).filter (fun kd => decide (kd.2 ≠ {}))

/-! ## Active tamper loops (13 R424) -/

/-- The next state of the LFSR with polynomial x¹⁶ + x¹⁴ + x¹³ + x¹¹ + 1, shifted toward its stage 16; the rule gives the polynomial and not the
arrangement of the stages (DESIGN CHOICE, log 117). -/
def lfsrNext (x : Nat) : Nat := x * 2 % 2 ^ 16 + (bitsOf x 15 1 + bitsOf x 13 1 + bitsOf x 12 1 + bitsOf x 10 1) % 2

/-- One sample: the LFSR advances, and its stage 16 is the bit driven. -/
def loopSampled (t : TampLoop) : TampLoop := { lfsr := lfsrNext t.lfsr, sent := (bitsOf (lfsrNext t.lfsr) 15 1 == 1) :: t.sent.take 14 }

/-- `n` samples. -/
def loopRun (t : TampLoop) : Nat → TampLoop
  | 0 => t
  | n + 1 => loopRun (loopSampled t) n

/-- The loops in use after `n` RTC ticks: samples fall at the ticks that are multiples of SAMPLE. -/
def loopsAfter (s : State) (n : Nat) : List TampLoop :=
  if n = 0 then s.se.loops
  else (s.se.loops.zip (List.range 4)).map (fun tl =>
    let p := 4 ^ getF s (Fld.TMP_SRC_SAMPLE tl.2)
    if getB s (Fld.TMP_SRC_EN tl.2) then loopRun tl.1 ((s.rtc.count + n) / p - s.rtc.count / p) else tl.1)

/-- Level on TAMPs_OUT in the first or the second half of a sample's tick: the LFSR bit, then its complement. -/
def tampOut (s : State) (l : Nat) (second : Bool) : Bool :=
  ((s.se.loops.getD l {}).sent.headD false) != second

/-- A sample fails unless TAMPs_IN matches at the end of both halves. -/
def sampleFails (sent : Bool) (read : Bool × Bool) : Bool := read.1 != sent || read.2 != !sent

/-- `n` fabric cycles of 4 ns pass: within the grid tick, on the time counter, and on the RTC while it counts (log 8), with the tamper loops. -/
def passCycles (s : State) (n : Nat) : State :=
  let f := s.rtc.frac + 256 * n
  { s with fc := s.fc + n, el := s.el + n, tc := s.tc.run n (timeAdj s), cyc := if n = 0 then s.cyc else {},
           mem := if n = 0 then s.mem else { s.mem with dcq := dcqsAfter s.mem.dcq },
           se := { s.se with loops := if s.rtc.running then loopsAfter s (f / rtcTickCycles) else s.se.loops },
           rtc := if s.rtc.running then { s.rtc with frac := f % rtcTickCycles, count := (s.rtc.count + f / rtcTickCycles) % 2 ^ 48 } else s.rtc }

/-! ## Free values, outputs -/

/-- A fresh free value (log 4), and the state that has used it. -/
def freshFree (s : State) : Nat × State := (Config.freeNat s.freeCtr, { s with freeCtr := s.freeCtr + 1 })

/-- Sends a message. -/
def sendMsg (s : State) (m : Msg) : State := { s with sent := m :: s.sent }

/-- Hands out the result of a read or request. -/
def setReply (s : State) (r : List Nat) : State := { s with reply := r }

/-- Writes a record to the DRAM event log. -/
def logEvent (s : State) (m : Msg) : State := { s with evlog := m :: s.evlog }

/-! ## Domains, clocks and modes (14) -/

/-- Domain `d` is powered (PW_PD.ON). -/
def domainOn (s : State) (d : Nat) : Bool := bitOf (getF s Fld.PW_PD_ON) d

/-- The blocks of domain `d` run: the domain is powered and they have been released from reset (14 R471). -/
def engineRuns (s : State) (d : Nat) : Bool := domainOn s d && !bitOf s.pw.domsHeld d

/-- A block is held in an L4 reset, by its identifier (14 R472, R473). -/
def blockHeld (s : State) (b : Nat) : Bool := s.pw.blocksHeld.contains b

/-- The operating mode code (14 Table 2). -/
def modeOf (s : State) : Nat := getF s Fld.PW_MODE_MODE

/-- Any Safe cause is latched (R444): bits [13:8] of PW_MODE. -/
def safeCause (s : State) : Bool :=
  getB s Fld.PW_MODE_SAFE_COMMAND || getB s Fld.PW_MODE_SAFE_FAULT || getB s Fld.PW_MODE_SAFE_TAMPER
    || getB s Fld.PW_MODE_SAFE_LOAD || getB s Fld.PW_MODE_SAFE_RESET || getB s Fld.PW_MODE_SAFE_SCRAPPED

/-- A Safe cause other than COMMAND is latched (R444). -/
def safeCauseOther (s : State) : Bool :=
  getB s Fld.PW_MODE_SAFE_FAULT || getB s Fld.PW_MODE_SAFE_TAMPER
    || getB s Fld.PW_MODE_SAFE_LOAD || getB s Fld.PW_MODE_SAFE_RESET || getB s Fld.PW_MODE_SAFE_SCRAPPED

/-- The answer of a command: the next state. -/
abbrev done (s : State) : Host.Outcome State Fault Refusal := .next s

end Sys2Proof.Machine
end

