-- ==== Sys2Proof/Machine/Crc.lean ====
section
/-! DEFINITION. Machine/Crc.lean: the CRC-32 of Ethernet frames, images and records. -/

namespace Sys2Proof.Machine

/-- `k` shifts of the reflected CRC-32 register. -/
def crcShift : Nat → Nat → Nat
  | 0, c => c
  | k + 1, c => crcShift k (if c % 2 = 1 then (c / 2) ^^^ 0xEDB88320 else c / 2)

/-- The register after the octets given. -/
def crcOctets : List Nat → Nat → Nat
  | [], c => c
  | b :: t, c => crcOctets t (crcShift 8 (c ^^^ (b % 256)))

/-- CRC-32 of IEEE 802.3. -/
def crc32 (l : List Nat) : Nat := crcOctets l 0xFFFFFFFF ^^^ 0xFFFFFFFF

/-- Octets of a number, lowest first. -/
def octetsLe : Nat → Nat → List Nat
  | 0, _ => []
  | k + 1, n => n % 256 :: octetsLe k (n / 256)

/-- Number of octets, lowest first. -/
def leOctets : List Nat → Nat
  | [] => 0
  | b :: t => b % 256 + 256 * leOctets t

/-- Number of octets, highest first. -/
def beOctets (l : List Nat) : Nat := l.foldl (fun n b => n * 256 + b % 256) 0

end Sys2Proof.Machine
end

