-- ==== Sys2Proof/Machine/Flags.lean ====
section
/-! DEFINITION. Machine/Flags.lean: quality ranking and effective quality, run flags, normalisation, and the arithmetic of the Decend types
with the flags it raises (03 R81 to R87). -/

namespace Sys2Proof.Machine

/-! ## Qualities and types -/

/-- Effective quality codes (R37). -/
def Quality.code : Quality → Nat
  | .good => 0 | .stale => 1 | .uncalibrated => 2 | .absent => 3 | .fault => 4 | .forced => 5

/-- The ranking of R81: FORCED ranks as GOOD. -/
def Quality.rank : Quality → Nat
  | .good => 0 | .forced => 0 | .stale => 1 | .uncalibrated => 2 | .absent => 3 | .fault => 4

/-- The quality a result takes when its worst source has this rank (R81). -/
def Quality.ofRank : Nat → Quality
  | 0 => .good | 1 => .stale | 2 => .uncalibrated | 3 => .absent | _ => .fault

/-- The worst quality among source locals (R81). -/
def worstQ (qs : List Quality) : Quality := Quality.ofRank (qs.foldl (fun m q => max m (Quality.rank q)) 0)

/-- WQ codes (02 Table 1). -/
def Wq.code : Wq → Nat
  | .good => 0 | .fault => 1 | .absent => 2 | .uncalibrated => 3

/-- TYPE codes (02 Table 4). -/
def VType.code : VType → Nat
  | .bool => 0 | .int32 => 1 | .uint32 => 2 | .fix16 => 3 | .real32 => 4 | .ticks => 5

/-- The type with a TYPE code; 6 and 7 name none. -/
def VType.ofCode? : Nat → Option VType
  | 0 => some .bool | 1 => some .int32 | 2 => some .uint32 | 3 => some .fix16 | 4 => some .real32 | 5 => some .ticks | _ => none

/-- WRITER_KIND codes (02 Table 2). -/
def WriterKind.code : WriterKind → Nat
  | .none => 0 | .task => 1 | .loop => 2 | .meter => 3 | .field => 4 | .endpoint => 5 | .truss => 6 | .system => 7

/-- Normalisation on a write (02 Table 4). -/
def normalise (ty : VType) (w : Word) : Word :=
  match ty with
  | .bool => if w = 0 then 0 else 1
  | .fix16 => (w.setWidth 16).signExtend 32
  | _ => w

/-! ## Run flags (03 Table 5) -/

/-- SAT. -/
def flSat : Nat := 1
/-- DIVZ. -/
def flDivz : Nat := 2
/-- INV. -/
def flInv : Nat := 4
/-- RNG. -/
def flRng : Nat := 8
/-- QUAL. -/
def flQual : Nat := 16
/-- QFULL. -/
def flQfull : Nat := 32

/-- A result: its word, the flags it raises, and whether it takes quality FAULT (DIVZ or INV, R81). -/
structure Res where
  w : Word
  fl : Nat := 0
deriving DecidableEq, Repr

/-- DIVZ or INV among the flags: the result quality is FAULT (R81). -/
def Res.faults (r : Res) : Bool := bitOf r.fl 1 || bitOf r.fl 2

/-! ## Rounding -/

/-- `a / b` rounded to nearest, ties to even. -/
def roundHalfEven (a b : Nat) : Nat :=
  let q := a / b
  let r := a % b
  if 2 * r < b then q else if b < 2 * r then q + 1 else if q % 2 = 0 then q else q + 1

/-- `a / b` rounded to nearest, ties away from zero. -/
def roundHalfAway (a : Int) (b : Nat) : Int :=
  let q : Int := ((2 * a.natAbs + b) / (2 * b) : Nat)
  if a < 0 then -q else q

/-! ## Integers (R83) -/

/-- The integer a stored word stands for under its type. -/
def asInt (ty : VType) (w : Word) : Int :=
  match ty with
  | .int32 => w.toInt
  | .fix16 => w.toInt
  | _ => w.toNat

/-- The word of an integer, modulo 2^32. -/
def wordOfInt (i : Int) : Word := BitVec.ofInt 32 i

/-- Smallest value of a type's range. -/
def minOf (ty : VType) : Int :=
  match ty with
  | .int32 => -2147483648
  | .fix16 => -32768
  | _ => 0

/-- Largest value of a type's range. -/
def maxOf (ty : VType) : Int :=
  match ty with
  | .int32 => 2147483647
  | .fix16 => 32767
  | _ => 4294967295

/-- An exact integer result saturated to its type's range, with SAT when it was. -/
def satInt (ty : VType) (i : Int) : Res :=
  if i < minOf ty then { w := wordOfInt (minOf ty), fl := flSat }
  else if maxOf ty < i then { w := wordOfInt (maxOf ty), fl := flSat }
  else { w := wordOfInt i }

/-- DIV (R83). -/
def intDiv (ty : VType) (b c : Word) : Res :=
  let x := asInt ty b
  if asInt ty c = 0 then
    { w := wordOfInt (if 0 < x then maxOf ty else if x < 0 then minOf ty else 0), fl := flDivz }
  else satInt ty (Int.tdiv x (asInt ty c))

/-- MOD (R83). -/
def intMod (ty : VType) (b c : Word) : Res :=
  if asInt ty c = 0 then { w := 0, fl := flDivz } else { w := wordOfInt (Int.tmod (asInt ty b) (asInt ty c)) }

/-! ## FIX16 (R84) -/

/-- FMUL: halves round toward plus infinity. -/
def fixMul (b c : Word) : Res := satInt .fix16 (Int.fdiv (b.toInt * c.toInt + 0x4000) 32768)

/-- FDIV: nearest, ties away from zero, saturated; a zero divisor gives the range's end with DIVZ. -/
def fixDiv (b c : Word) : Res :=
  if c.toInt = 0 then { w := wordOfInt (if b.toInt < 0 then -32768 else 32767), fl := flDivz }
  else
    let n := if c.toInt < 0 then -(b.toInt * 32768) else b.toInt * 32768
    satInt .fix16 (roundHalfAway n c.toInt.natAbs)

/-- FSHR. -/
def fixShr (b : Word) (c : Nat) : Res :=
  if c = 0 then { w := b } else { w := wordOfInt (Int.fdiv (b.toInt + 2 ^ (c - 1)) (2 ^ c)) }

/-! ## REAL32 (R85) -/

/-- Biased exponent of a binary32 pattern. -/
def realExp (w : Word) : Nat := bitsOf w.toNat 23 8
/-- Fraction field. -/
def realFrac (w : Word) : Nat := bitsOf w.toNat 0 23
/-- Sign bit. -/
def realNeg (w : Word) : Bool := bitOf w.toNat 31
/-- NaN. -/
def realNan (w : Word) : Bool := realExp w == 255 && realFrac w != 0
/-- Infinite. -/
def realInf (w : Word) : Bool := realExp w == 255 && realFrac w == 0
/-- NaN or infinite. -/
def realSpecial (w : Word) : Bool := realExp w == 255

/-- 2 to an integer power. -/
def pow2 (e : Int) : Rat := if 0 ≤ e then mkRat (2 ^ e.toNat) 1 else mkRat 1 (2 ^ (-e).toNat)

/-- The value of a finite pattern, a subnormal standing for zero (R85). -/
def realVal (w : Word) : Rat :=
  if realExp w = 0 then 0
  else
    let m : Rat := mkRat (2 ^ 23 + realFrac w : Nat) 1 * pow2 ((realExp w : Int) - 150)
    if realNeg w then -m else m

/-- Zero of a sign. -/
def realZero (neg : Bool) : Word := if neg then 0x80000000 else 0
/-- The largest finite magnitude with a sign. -/
def realMax (neg : Bool) : Word := if neg then 0xFF7FFFFF else 0x7F7FFFFF
/-- The word of an INV result. -/
def realQnan : Word := 0x7FC00000

/-- floor of the base-2 logarithm of n / d, both positive. -/
def log2Ratio (n d : Nat) : Int :=
  let e : Int := (Nat.log2 n : Int) - Nat.log2 d
  if 0 ≤ e then (if d * 2 ^ e.toNat ≤ n then e else e - 1) else (if d ≤ n * 2 ^ (-e).toNat then e else e - 1)

/-- An exact result rounded to binary32: nearest, ties to even, subnormal results replaced by zero of the same sign, overflow by the largest
finite value with SAT (R85). `neg0` is the sign of an exact zero. -/
def realOf (q : Rat) (neg0 : Bool := false) : Res :=
  if q = 0 then { w := realZero neg0 }
  else
    let neg := decide (q < 0)
    let n := q.num.natAbs
    let d := q.den
    let e := max (log2Ratio n d) (-126)
    let k := 23 - e
    let m := if 0 ≤ k then roundHalfEven (n * 2 ^ k.toNat) d else roundHalfEven n (d * 2 ^ (-k).toNat)
    let e' := if m = 2 ^ 24 then e + 1 else e
    let m' := if m = 2 ^ 24 then 2 ^ 23 else m
    if m' < 2 ^ 23 then { w := realZero neg }
    else if 127 < e' then { w := realMax neg, fl := flSat }
    else { w := Word.ofNat ((if neg then 2 ^ 31 else 0) + (e' + 127).toNat * 2 ^ 23 + (m' - 2 ^ 23)) }

/-- The INV result (R85). -/
def realInv : Res := { w := realQnan, fl := flInv }

/-- RADD. The zero of two zeros is negative only when both are; any other zero sum is positive (binary32, nearest). -/
def realAdd (b c : Word) : Res :=
  if realSpecial b || realSpecial c then realInv
  else realOf (realVal b + realVal c) (realVal b = 0 && realVal c = 0 && realNeg b && realNeg c)

/-- RNEG: the sign reversed. -/
def realNegate (b : Word) : Res :=
  if realSpecial b then realInv else realOf (-realVal b) (!realNeg b)

/-- RSUB. -/
def realSub (b c : Word) : Res :=
  if realSpecial b || realSpecial c then realInv else realAdd b (realNegate c).w

/-- RMUL. -/
def realMul (b c : Word) : Res :=
  if realSpecial b || realSpecial c then realInv else realOf (realVal b * realVal c) (realNeg b != realNeg c)

/-- RDIV. -/
def realDiv (b c : Word) : Res :=
  if realSpecial b || realSpecial c then realInv
  else if realVal c = 0 then
    if realVal b = 0 then realInv else { w := realMax (realNeg b), fl := flDivz }
  else realOf (realVal b / realVal c) (realNeg b != realNeg c)

/-- RABS. -/
def realAbs (b : Word) : Res := if realSpecial b then realInv else realOf (if realVal b < 0 then -realVal b else realVal b)

/-- The lesser of two values (`less`: take the lesser; else the greater). Of two zeros that differ in sign either is the answer: a free choice
(log 11). A subnormal operand stands for zero (R85). -/
def realPick (less : Bool) (b c : Word) : Res :=
  if realSpecial b || realSpecial c then realInv
  else
    let x := realVal b
    let y := realVal c
    if x = 0 && y = 0 && (realNeg b != realNeg c) then { w := realZero (Config.crypto 11 [b.toNat, c.toNat] % 2 == 1) }
    else if (if less then y < x else x < y) then realOf y (realNeg c) else realOf x (realNeg b)

/-- RLIM: max(B, min(A, C)). -/
def realLim (a b c : Word) : Res :=
  if realSpecial a || realSpecial b || realSpecial c then realInv else realPick false b (realPick true a c).w

/-- The square root of a positive rational to enough bits for one rounding: exact, or with a sticky bit below the last one used. -/
def sqrtSticky (n d : Nat) : Rat :=
  let k : Nat := (28 + d.log2 / 2 + d.log2 % 2)
  let x := n * 2 ^ (2 * k) / d
  let r := Nat.sqrt x
  let exact := r * r == x && n * 2 ^ (2 * k) % d == 0
  mkRat (2 * r + (if exact then 0 else 1) : Nat) (2 ^ (k + 1))

/-- RSQRT: of −0, −0; below zero, INV. -/
def realSqrt (b : Word) : Res :=
  if realSpecial b then realInv
  else if realVal b = 0 then { w := realZero (realNeg b) }
  else if realVal b < 0 then realInv
  else realOf (sqrtSticky (realVal b).num.natAbs (realVal b).den)

/-- RMAC: product and sum each rounded. -/
def realMac (a b c : Word) : Res :=
  if realSpecial a || realSpecial b || realSpecial c then realInv
  else
    let p := realMul b c
    let r := realAdd a p.w
    { r with fl := r.fl ||| p.fl }

/-- A rational rounded to nearest, ties to even. -/
def ratRound (q : Rat) : Int :=
  let m : Int := roundHalfEven q.num.natAbs q.den
  if q < 0 then -m else m

/-- A rational truncated toward zero. -/
def ratTrunc (q : Rat) : Int := Int.tdiv q.num q.den

/-- RRND and RTRN: an integral value, the sign of a zero result that of the operand. -/
def realIntegral (f : Rat → Int) (b : Word) : Res :=
  if realSpecial b then realInv else realOf (mkRat (f (realVal b)) 1) (realNeg b)

/-- RTOI, RTOU, RTOF: scaled, nearest, ties to even, saturated; NaN or infinity gives 0 with INV (R86). -/
def realToInt (ty : VType) (scale : Nat) (b : Word) : Res :=
  if realSpecial b then { w := 0, fl := flInv } else satInt ty (ratRound (realVal b * mkRat scale 1))

/-- The six compares of R87 Table 11. -/
inductive Cmp where
  | eq | ne | lt | le | gt | ge
deriving DecidableEq, Repr

/-- A compare by an ordering of integers. -/
def cmpInt (o : Cmp) (x y : Int) : Bool :=
  match o with
  | .eq => x == y | .ne => x != y | .lt => decide (x < y) | .le => decide (x ≤ y) | .gt => decide (y < x) | .ge => decide (y ≤ x)

/-- A compare of rationals. -/
def cmpRat (o : Cmp) (x y : Rat) : Bool :=
  match o with
  | .eq => x == y | .ne => x != y | .lt => decide (x < y) | .le => decide (x ≤ y) | .gt => decide (y < x) | .ge => decide (y ≤ x)

/-- A rank beyond every finite value for an infinity, for comparing by value. -/
def realOrd (w : Word) : Rat := if realInf w then (if realNeg w then -(pow2 200) else pow2 200) else realVal w

/-- A REAL32 compare: NaN gives FALSE, NE gives TRUE, with INV; an infinity compares by value, with INV. -/
def cmpReal (o : Cmp) (b c : Word) : Res :=
  if realNan b || realNan c then { w := if o = .ne then 1 else 0, fl := flInv }
  else { w := if cmpRat o (realOrd b) (realOrd c) then 1 else 0, fl := if realInf b || realInf c then flInv else 0 }

/-- A compare of two words of one type. -/
def cmpWord (o : Cmp) (ty : VType) (b c : Word) : Res :=
  match ty with
  | .real32 => cmpReal o b c
  | _ => { w := if cmpInt o (asInt ty b) (asInt ty c) then 1 else 0 }

end Sys2Proof.Machine
end

