-- ==== Sys2Proof/Machine/Operands.lean ====
section
/-! DEFINITION. Machine/Operands.lean: the operand forms of Decend instructions (03 R78 to R81, R92, R99): locals, images, slots, tables, and the
state a runner acts on. -/

namespace Sys2Proof.Machine

/-! ## Locals -/

/-- Local `i`. -/
def Run.loc (r : Run) (i : Nat) : LocalVal := r.locals.getD i {}

/-- Declared type of local `i`. -/
def Run.ty (r : Run) (i : Nat) : VType := r.types.getD i .bool

/-- Ends an instruction: `words` code words and `cost` engine cycles passed, flags raised. -/
def Run.fin (r : Run) (fl words cost : Nat) : Run :=
  { r with flags := r.flags ||| fl, pc := r.pc + words, cycles := r.cycles + cost }

/-- Local `a` takes a result whose sources have the qualities `qs`; DIVZ and INV give FAULT (R81). -/
def Run.put (r : Run) (a : Nat) (res : Res) (qs : List Quality) (words cost : Nat) : Run :=
  ({ r with locals := listSet r.locals a { value := res.w, q := if res.faults then .fault else worstQ qs } }).fin res.fl words cost

/-- Local `a` takes a value and a quality as they are. -/
def Run.putQ (r : Run) (a : Nat) (w : Word) (q : Quality) (fl words cost : Nat) : Run :=
  ({ r with locals := listSet r.locals a { value := w, q := q } }).fin fl words cost

/-- Form L3 with two sources: A = f B C. -/
def Run.op2 (r : Run) (f : VType → Word → Word → Res) (cost a b c : Nat) : Run :=
  r.put a (f (r.ty b) (r.loc b).value (r.loc c).value) [(r.loc b).q, (r.loc c).q] 1 cost

/-- Form L3 with one source: A = f B. -/
def Run.op1 (r : Run) (f : VType → Word → Res) (cost a b : Nat) : Run :=
  r.put a (f (r.ty b) (r.loc b).value) [(r.loc b).q] 1 cost

/-- Form L3 with A a source too: A = f A B C. -/
def Run.op3 (r : Run) (f : VType → Word → Word → Word → Res) (cost a b c : Nat) : Run :=
  r.put a (f (r.ty a) (r.loc a).value (r.loc b).value (r.loc c).value) [(r.loc a).q, (r.loc b).q, (r.loc c).q] 1 cost

/-- Form L3c: A = f B, C a count. -/
def Run.opC (r : Run) (f : VType → Word → Nat → Res) (cost a b c : Nat) : Run :=
  r.put a (f (r.ty b) (r.loc b).value c) [(r.loc b).q] 1 cost

/-! ## Instruction lengths and loop ends (R78, R89) -/

/-- Words of the instruction with this first word: form X takes two. -/
def instrWords (w : Word) : Nat :=
  let op := bitsOf w.toNat 24 8
  if op = 0x02 || op = 0x70 || op = 0x71 || op = 0x72 || op = 0x73 || op = 0x9E || op = 0x9F then 2 else 1

/-- Offset, from word `at_`, of the ENDL that matches a LOOP already entered `depth` deep. -/
def findEndl : Nat → List Word → Nat → Nat → Nat
  | 0, _, at_, _ => at_
  | _, [], at_, _ => at_
  | fuel + 1, w :: ws, at_, depth =>
    let op := bitsOf w.toNat 24 8
    if op = 0x54 && depth = 0 then at_
    else
      let d := if op = 0x53 then depth + 1 else if op = 0x54 then depth - 1 else depth
      if instrWords w = 2 then findEndl fuel (ws.drop 1) (at_ + 2) d else findEndl fuel ws (at_ + 1) d

/-- Loops still entered after a jump to word `target`: a jump past a body's ENDL leaves it (R89). -/
def leaveLoops (ls : List LoopFrame) (target : Nat) : List LoopFrame := ls.filter (fun f => target ≤ f.endl)

/-! ## Tables (R98 to R100) -/

/-- A table directory entry. -/
structure TblDesc where
  kind : Nat
  inTable : Bool
  xty : VType
  yty : VType
  probes : Nat
  off : Nat
  count : Nat
deriving DecidableEq, Repr

/-- Table `t` of the directory at the start of .const (R98). -/
def Run.tbl (r : Run) (t : Nat) : TblDesc :=
  let w (i : Nat) : Nat := (r.consts.getD (1 + 4 * t + i) 0).toNat
  { kind := bitsOf (w 0) 0 2, inTable := bitOf (w 0) 2, xty := (VType.ofCode? (bitsOf (w 0) 4 3)).getD .bool,
    yty := (VType.ofCode? (bitsOf (w 0) 8 3)).getD .bool, probes := bitsOf (w 0) 16 5, off := w 1, count := w 2 }

/-- Word `i` of a table. -/
def Run.tblWord (r : Run) (d : TblDesc) (i : Nat) : Word :=
  (if d.inTable then r.table else r.consts).getD (d.off / 4 + i) 0

/-- ceil(log2 n). -/
def ceilLog2 (n : Nat) : Nat := if n ≤ 1 then 0 else Nat.log2 (n - 1) + 1

/-- Cost of a LUTL or LUTS with base cost `k` (03 Table 16). -/
def lutCost (k : Nat) (d : TblDesc) : Nat :=
  if d.inTable then k + 120 * (ceilLog2 d.count + 1) else k + 3 * ceilLog2 d.count

/-- An x or y as a number that orders as its type does. -/
def tblNum (ty : VType) (w : Word) : Rat := match ty with | .real32 => realOrd w | _ => mkRat (asInt ty w) 1

/-- The number of pairs whose x is at most `x`, among the first `n`. -/
def tblRank (r : Run) (d : TblDesc) (x : Rat) : Nat → Nat
  | 0 => 0
  | n + 1 => tblRank r d x n + (if tblNum d.xty (r.tblWord d (2 * n)) ≤ x then 1 else 0)

/-- The home slot of a key in a table of `2^k` slots (R98). -/
def hashHome (key : Word) (count : Nat) : Nat := (key.toNat * 0x9E3779B1 % 2 ^ 32) / 2 ^ (32 - Nat.log2 count)

/-- The probe sequence of R98: from `slot`, at most `p` slots, stopping at the key or an empty slot; the value found. -/
def hashProbe (r : Run) (d : TblDesc) (key : Word) : Nat → Nat → Option Word
  | 0, _ => none
  | p + 1, slot =>
    let k := r.tblWord d (2 * slot)
    if k = 0xFFFFFFFF then none
    else if k = key then some (r.tblWord d (2 * slot + 1))
    else hashProbe r d key p ((slot + 1) % max d.count 1)

/-- The value stored under a key, if it is found within P probes. -/
def hashFind (r : Run) (d : TblDesc) (key : Word) : Option Word := hashProbe r d key d.probes (hashHome key d.count)

/-- Words that LUTL (`line`) or LUTS reads: the pair, or the two pairs, that give its y. -/
def lutReads (line : Bool) (r : Run) (d : TblDesc) (x : Word) : List Nat :=
  let k := tblRank r d (tblNum d.xty x) d.count
  if k = 0 then [0, 1] else if line && k < d.count then [2 * k - 2, 2 * k - 1, 2 * k, 2 * k + 1] else [2 * k - 2, 2 * k - 1]

/-- Words that a probe sequence reads. -/
def hashReads (r : Run) (d : TblDesc) (key : Word) : Nat → Nat → List Nat
  | 0, _ => []
  | p + 1, slot =>
    let k := r.tblWord d (2 * slot)
    if k = 0xFFFFFFFF then [2 * slot]
    else if k = key then [2 * slot, 2 * slot + 1]
    else 2 * slot :: hashReads r d key p ((slot + 1) % max d.count 1)

/-- A table instruction that reads the words `is` of its table: 0 with quality FAULT where one of them lies in the table area of DRAM and is read with an
uncorrectable error (12 R392 Table 7), else what `k` says. -/
def Run.reading (r : Run) (a : Nat) (d : TblDesc) (is : List Nat) (cost : Nat) (k : Run) : Run :=
  if d.inTable && is.any (fun i => r.lost.contains (d.off / 4 + i)) then r.putQ a 0 .fault 0 1 cost else k

/-! ## Runners -/

/-- Key of a task: engine × 8 + slot. -/
def taskKey (e s : Fin 8) : Nat := e.val * 8 + s.val

/-- The task in a slot. -/
def taskAt? (s : State) (e sl : Fin 8) : Option Task := tabGet? s.tasks (taskKey e sl)

/-- Stores a task. -/
def setTask (s : State) (e sl : Fin 8) (t : Task) : State := { s with tasks := tabPut s.tasks (taskKey e sl) t }

/-- Released tasks of an engine wait for their gathers, which come before any scatter or run goes on (R113). -/
def gathersFirst (s : State) (e : Fin 8) : Bool := s.tasks.any (fun kt => kt.1 / 8 == e.val && kt.2.phase == .released)

/-- An instruction of a task's code: it acts on the task whose run its engine is executing (R112, R113, R115); in any other state that instruction
does not execute and nothing changes (log 2). -/
def onTask (s : State) (e sl : Fin 8) (f : Run → Run) : State :=
  match taskAt? s e sl with
  | some t => if t.phase = .running && !gathersFirst s e then setTask s e sl { t with run := f t.run } else s
  | none => s

/-- An instruction of a runner: a task's code, or joinery's, which acts on SV's joinery run (R103, R539). -/
def onRun (s : State) (r : Runner) (f : Run → Run) : State :=
  match r with
  | .task e sl => onTask s e sl f
  | .joinery => { s with jrun := f s.jrun }

end Sys2Proof.Machine
end

