-- ==== Sys2Proof/Machine/PtCore.lean ====
section
/-! DEFINITION. Machine/PtCore.lean: point records as data: reading them, effective value and quality, storing a written record (02 R31 to R37, R53, R54). -/

namespace Sys2Proof.Machine

/-! ## Records (R31 to R37) -/

/-- The record at a local index. -/
def ptAt (s : State) (i : Nat) : PtRec := tabGet {} s.pt.recs i

/-- Stores a record. -/
def setPt (s : State) (i : Nat) (r : PtRec) : State := { s with pt := { s.pt with recs := tabSet {} s.pt.recs i r } }

/-- Age of a record in µs (R36). -/
def ptAge (s : State) (r : PtRec) : Nat := (usecNow s + 2 ^ 32 - r.stamp % 2 ^ 32) % 2 ^ 32

/-- The effective quality (R36). -/
def ptQuality (s : State) (r : PtRec) : Quality :=
  if r.force then .forced
  else if r.wq = .fault then .fault
  else if r.wq = .absent || r.undeliv then .absent
  else if r.wq = .uncalibrated then .uncalibrated
  else if r.writerKind ≠ .none && r.refreshLimit ≠ 0 && (r.staleLatch || decide (r.refreshLimit * 1000 < ptAge s r)) then .stale
  else .good

/-- The effective value (R36). -/
def ptValue (r : PtRec) : Word := if r.force then r.forceValue else r.value

/-- The eight words of a record as a read returns them (R31, R34, R36). -/
def ptWords (s : State) (r : PtRec) : List Nat :=
  [r.value.toNat, r.forceValue.toNat,
   (ptQuality s r).code + b2n r.force * 2 ^ 3 + b2n r.relPend * 2 ^ 4 + b2n r.undeliv * 2 ^ 5 + b2n r.staleLatch * 2 ^ 6 + b2n r.defined * 2 ^ 7
     + r.wq.code * 2 ^ 8 + r.ty.code * 2 ^ 10 + r.tenant % 4096 * 2 ^ 16 + r.writerKind.code * 2 ^ 28,
   r.writerId % 2 ^ 16 + r.refreshLimit % 2 ^ 16 * 2 ^ 16, r.stamp, r.seq + r.exportTag % 2 ^ 15 * 2 ^ 16 + r.exportNe % 2 * 2 ^ 31, r.cov.toNat,
   r.remoteGpa % 2 ^ 25 + b2n r.proxy * 2 ^ 31]

/-- Posts an index to a change queue, once (R54). -/
def postChange (s : State) (ne i : Nat) : State :=
  if ne = 0 then (if s.pt.chq0.contains i then s else { s with pt := { s.pt with chq0 := s.pt.chq0 ++ [i] } })
  else (if s.pt.chq1.contains i then s else { s with pt := { s.pt with chq1 := s.pt.chq1 ++ [i] } })

/-- The record as it stood before the first write of the present fabric cycle is kept for the reads of that cycle (01 R24). -/
def keepBefore (s : State) (i : Nat) (old : PtRec) : State :=
  match tabGet? s.cyc.before i with
  | some _ => s
  | none => { s with cyc := { s.cyc with before := tabPut s.cyc.before i old } }

/-- What a read in the present fabric cycle returns: the record as it stood before a write of the same cycle (01 R24). -/
def ptSeen (s : State) (i : Nat) : PtRec := (tabGet? s.cyc.before i).getD (ptAt s i)

/-- Stores a written record: a change of effective value or quality of an exported record is posted (R54). -/
def commitPt (s : State) (i : Nat) (old new : PtRec) : State :=
  let changed := decide (ptValue old ≠ ptValue new) || decide (ptQuality s old ≠ ptQuality s new)
  let s := keepBefore (setPt s i new) i old
  if changed && new.exportTag ≠ 0 then postChange s new.exportNe i else s

/-- A writer write's effect on its record (R33, R35). -/
def writerFields (s : State) (r : PtRec) (v : Word) (q : Wq) : PtRec :=
  { r with value := normalise r.ty v, wq := q, stamp := usecNow s, seq := (r.seq + 1) % 2 ^ 16, staleLatch := false }

/-- A delivering engine sets or clears UNDELIV (R53). -/
def setUndeliv (s : State) (i : Nat) (b : Bool) : State :=
  let r := ptAt s i
  if r.defined then commitPt s i r { r with undeliv := b } else s

end Sys2Proof.Machine
end

