-- ==== Sys2Proof/Machine/FieldCore.lean ====
section
/-! DEFINITION. Machine/FieldCore.lean: the field buses' structures (11): channels, lines, map entries, output frames, and how their requests end. -/

namespace Sys2Proof.Machine

/-! ## Structures -/

/-- A CAN channel's structures. -/
def canAt (s : State) (n : Nat) : CanState := tabGet {} s.field.can n
/-- Applies a change to them. -/
def mapCan (s : State) (n : Nat) (f : CanState → CanState) : State :=
  { s with field := { s.field with can := tabSet {} s.field.can n (f (canAt s n)) } }
/-- A UART's structures. -/
def uartAt (s : State) (u : Nat) : UartState := tabGet {} s.field.uart u
/-- Applies a change to them. -/
def mapUart (s : State) (u : Nat) (f : UartState → UartState) : State :=
  { s with field := { s.field with uart := tabSet {} s.field.uart u (f (uartAt s u)) } }
/-- A map entry. -/
def mapEnt? (s : State) (number : Nat) : Option MapEntry := tabGet? s.field.maps number
/-- Applies a change to a map entry. -/
def mapMap (s : State) (number : Nat) (f : MapEntry → MapEntry) : State :=
  match mapEnt? s number with
  | some e => { s with field := { s.field with maps := tabPut s.field.maps number (f e) } }
  | none => s
/-- FE runs: its domain is on and it is released (14 R470, R471). -/
def feRuns (s : State) : Bool := engineRuns s 12
/-- Writer identity of a UART's inputs (R32). -/
def uartWriter (u : Nat) : Nat := 16 + u

/-- Map entries of a kind on a channel. -/
def entriesOf (s : State) (k : MapKind) (c : Nat) : List (Nat × MapEntry) :=
  s.field.maps.filter (fun kv => kv.2.kind == k && kv.2.channel == c)

/-- The key of a frame: identifier and format. -/
def canKey (ident : Nat) (ide fdf : Bool) : Nat := ident + b2n ide * 2 ^ 29 + b2n fdf * 2 ^ 30
/-- The frame key of a CAN entry. -/
def MapEntry.key (e : MapEntry) : Nat := canKey e.ident e.ide e.fdf

/-- Entries of an output frame: those of one channel that share an identifier and a format. -/
def frameEntries (s : State) (n key : Nat) : List (Nat × MapEntry) := (entriesOf s .canOut n).filter (fun kv => kv.2.key == key)

/-- Keys of a channel's output frames. -/
def frameKeys (s : State) (n : Nat) : List Nat := ((entriesOf s .canOut n).map (fun kv => kv.2.key)).eraseDups

/-- Node of an output frame: its lowest-numbered entry's. -/
def frameNode (s : State) (n key : Nat) : Nat := match frameEntries s n key with | (_, e) :: _ => e.node | [] => 0

/-- Sets or clears UNDELIV on every record of a frame (R348). -/
def frameUndeliv (s : State) (n key : Nat) (b : Bool) : State := (frameEntries s n key).foldl (fun s kv => setUndeliv s kv.2.index b) s

/-- Adds to a counter of Table 13, by its place in offset order. -/
def canCount (s : State) (n i : Nat) (k : Nat := 1) : State := incF s (Fld.CANn_CNT_COUNT n i) k
/-- Adds to a counter of Table 16. -/
def uartCount (s : State) (u i : Nat) : State := incF s (Fld.UARTn_CNT_COUNT u i)

/-- TX_PENDING (R370). -/
def txPending (s : State) (n : Nat) : Nat := (canAt s n).reqs.length + (canAt s n).bufs.length

/-! ## How requests end (R346, R348) -/

/-- Outcomes of a CAN request. -/
inductive CanEnd where
  | sent | failed | busoff | flushed
deriving DecidableEq, Repr

/-- Place of an outcome's counter in Table 13. -/
def CanEnd.counter : CanEnd → Nat
  | .sent => 9 | .failed => 10 | .busoff => 11 | .flushed => 12

/-- A request of the channel ends: it leaves the queue or its buffer, is counted, and UNDELIV follows. -/
def endReq (s : State) (n : Nat) (r : CanReq) (o : CanEnd) : State :=
  let s := mapCan s n (fun x => { x with reqs := x.reqs.filter (fun q => q.key != r.key), bufs := x.bufs.filter (fun q => q.key != r.key) })
  frameUndeliv (canCount s n o.counter) n r.key (o != .sent)

/-- Every request of a channel ends with one outcome. -/
def endAll (s : State) (n : Nat) (o : CanEnd) : State := ((canAt s n).reqs ++ (canAt s n).bufs).foldl (fun s r => endReq s n r o) s

/-- Every request ends FLUSHED but that whose frame is on the bus, which ends as its frame ends (R346). -/
def flushReqs (s : State) (n : Nat) : State :=
  let x := canAt s n
  let s := (x.reqs ++ x.bufs.filter (fun r => !r.onBus)).foldl (fun s r => endReq s n r .flushed) s
  mapCan s n (fun x => { x with bufs := x.bufs.map (fun r => { r with flush := true }) })

/-- Requests of a UART end FLUSHED: its writes are not delivered. -/
def flushUart (s : State) (u : Nat) : State :=
  let x := uartAt s u
  let cur := match x.trans with | some { job := .write k, .. } => [k] | _ => []
  let s := (cur ++ x.writes).foldl (fun s k => match mapEnt? s k with | some e => setUndeliv s e.index true | none => s) s
  setFs (mapUart s u (fun x => { x with writes := [], due := [], trans := none, deUntil := none })) [(Fld.UARTn_STAT_IN_TRANS u, 0)]

/-- Un_DE is asserted (R362). -/
def deOn (s : State) (u : Nat) : Bool := match (uartAt s u).deUntil with | some t => decide (s.el < t) | none => false

/-- A reset of a channel (R368): its requests end FLUSHED, its FIFOs empty; learned bindings and what DISABLE took off stay. -/
def resetCan (s : State) (n : Nat) (off : Bool) : State :=
  mapCan (endAll s n .flushed) n (fun x =>
    { x with fifo0 := [], fifo1 := [], leaving := false, recovering := false, detect := none, off := x.off || off })

/-- A reset of a UART (R368). -/
def resetUart (s : State) (u : Nat) (off : Bool) : State := mapUart (flushUart s u) u (fun x => { x with leaving := false, off := x.off || off })

/-- The gaps t1.5 and t3.5 of a line in µs, rounded up (11 R363). -/
def gapUs (s : State) (u : Nat) : Nat × Nat :=
  let rate16 := 16 * getF s (Fld.UARTn_BAUD_DIV u) + getF s (Fld.UARTn_BAUD_FRAC u)
  let bits := 9 + b2n (getF s (Fld.UARTn_CFG_PARITY u) ≠ 0) + 1 + getF s (Fld.UARTn_CFG_STOP2 u)
  let auto (eighths fast : Nat) : Nat := if 19200 * rate16 < 160000000 then fast else (eighths * bits * rate16 + 1279) / 1280
  let t15 := getF s (Fld.UARTn_GAP_T15_US u)
  let t35 := getF s (Fld.UARTn_GAP_T35_US u)
  (if t15 = 0 then auto 12 750 else t15, if t35 = 0 then auto 28 1750 else t35)

/-- A reset of FE: every channel and every line. -/
def resetFe (s : State) : State :=
  let s := (List.range 12).foldl (fun s n => resetCan s n false) s
  (List.range 8).foldl (fun s u => resetUart s u false) s

end Sys2Proof.Machine
end

