-- ==== Sys2Proof/Machine/Reset.lean ====
section
/-! DEFINITION. Machine/Reset.lean: what a reset at each level does to State (14 R458 to R473), as one shared operation. -/

namespace Sys2Proof.Machine

/-! ## Standing pegs (R439, Table 1) -/

/-- Standing pegs of domain `d` at profile `p` (0 Brisk, 1 Even, 2 Thrift). -/
def standingOf (p d : Nat) : Nat :=
  ([[9, 9, 9], [4, 4, 4], [36, 36, 36], [60, 50, 40], [200, 160, 120], [180, 150, 120], [110, 85, 60], [110, 85, 60],
    [50, 40, 30], [60, 50, 40], [90, 90, 90], [120, 110, 70], [40, 40, 40], [60, 50, 40]].getD d []).getD p 0

/-- Standing pegs of the first `n` domains that are on in `on`. -/
def standingSum (p on : Nat) : Nat → Nat
  | 0 => 0
  | n + 1 => standingSum p on n + (if bitOf on n then standingOf p n else 0)

/-- Pegs of a transient grant (R448 Table 5); a domain's pegs are standing, not transient. -/
def grantPegs : GovOp → Nat
  | .nandFail => 15 | .domain _ => 0 | .wake _ => 40 | .dram => 150 | .frontEnd => 50 | .serdes _ => 50 | .nand => 15 | .crypto => 40
  | .refresh => 20

/-- Pegs of the outstanding transient grants. -/
def transientSum (gs : List GovOp) : Nat := gs.foldl (fun n g => n + grantPegs g) 0

/-- STANDING and HELD charged afresh for the powered domains and the outstanding grants (R439, R449, R495). -/
def recharge (s : State) : State :=
  let st := standingSum (getF s Fld.PW_CFG_PROFILE) (getF s Fld.PW_PD_ON) 14
  setFs s [(Fld.PW_GOV_STANDING, st), (Fld.PW_GOV_HELD, st + transientSum s.pw.grants)]

/-! ## Sources and levels (R458, Table 7) -/

/-- Default level of source `i`. -/
def defaultLevel (i : Nat) : Nat := [0, 1, 1, 1, 1, 1, 1, 2, 2, 2, 2, 3, 2, 4].getD i 1

/-- Levels the fuse map may give source `i`. -/
def allowedLevels (i : Nat) : List Nat :=
  [[0], [1], [1], [1, 2], [1], [1], [1], [1, 2], [1, 2], [1, 2, 3], [1, 2], [1, 2, 3], [1, 2, 3], [4]].getD i [1]

/-- The level in effect for source `i`: the fuse map's where FUSE is valid and the code is allowed, else the default. -/
def sourceLevel (s : State) (i : Nat) : Nat :=
  let code := if i < 10 then bitsOf (getF s Fld.RST_MAP_LO_LEVELS) (3 * i) 3 else bitsOf (getF s Fld.RST_MAP_HI_LEVELS) (3 * (i - 10)) 3
  if getB s Fld.RST_LOAD_FUSE_VALID && (allowedLevels i).contains code then code else defaultLevel i

/-! ## Buffer pools of packet memory (08 R265, 12 R385, R386) -/

/-- TR_CFG.ROLE. -/
def trRole (s : State) : Nat := getF s Fld.TR_CFG_ROLE
/-- TR_SELF.ACTIVE_ROLE. -/
def activeRole (s : State) : Nat := getF s Fld.TR_SELF_ACTIVE_ROLE
/-- A MAC's structures. -/
def macAt (s : State) (m : Nat) : MacState := tabGet {} s.macs m

/-- A MAC with no frame and no descriptor. -/
def MacState.emptied (x : MacState) : MacState :=
  { x with rx := [], tx := [], small := 0, tsq := [], gapDue := false, quanta := 0, deficit0 := 0, deficit1 := 0, turn1 := false }

/-- Valid contexts. -/
def validCtxs (s : State) : List Nat := (List.range 64).filter (fun n => getB s (Fld.PT_CTX_VALID n))

/-- MEM_POOL follows the contexts' holdings: 1,792 − V R less the common buffers held. -/
def updPool (s : State) : State :=
  let v := (validCtxs s).length
  let r := if v = 0 then 0 else 896 / v
  let common := (List.range 64).foldl (fun n c => n + getF s (Fld.MEM_CTX_BUF_COMMON_HELD c)) 0
  setFs s [(Fld.MEM_POOL_RESERVE, r), (Fld.MEM_POOL_COMMON_FREE, 1792 - v * r - common)]

/-- MEM_BB_FREE of a backbone MAC. -/
def bbFree (m : Nat) : RF := if m = 0 then Fld.MEM_BB_FREE_BB0 else Fld.MEM_BB_FREE_BB1
/-- Buffers of the other-traffic pool (08 R265, R285): all 1,024 on a standalone module. -/
def bbPoolSize (s : State) : Nat := if trRole s = 0 then 1024 else if trRole s = 2 || activeRole s = 2 then 128 else 640
/-- Those that hold a frame: on receive descriptors, Truss frames apart. -/
def bbHeld (s : State) (m : Nat) : Nat := ((macAt s m).rx.filter (fun kd => decide (kd.2.len ≠ 0) && decide (kd.2.cls ≠ 0))).length
/-- MEM_BB_FREE follows the pools' sizes and what they hold. -/
def updBb (s : State) : State := [0, 1].foldl (fun s m => setF s (bbFree m) (bbPoolSize s - bbHeld s m)) s

/-- Every buffer is free: packet memory has been wiped (R397), or the MACs' descriptor engines and the network engines restart (09 R286, R459 Table 8).
A Truss frame's buffer is its dowel's. -/
def initPools (s : State) : State :=
  let s := { s with neArea := 0, macs := s.macs.map (fun kx => (kx.1, kx.2.emptied)) }
  let s := (List.range 64).foldl (fun s c => setFs s [(Fld.MEM_CTX_BUF_RESERVED_HELD c, 0), (Fld.MEM_CTX_BUF_COMMON_HELD c, 0)]) s
  updPool (updBb s)

/-! ## Structures under a reset -/

/-- A task after an L3 reset, or an L4 reset of its engine: its cycle is abandoned (R130). -/
def taskAbandon (t : Task) : Task :=
  { t with phase := .idle, late := false, stopDue := none, holdDue := none, scatterDue := false, resumeHold := false,
           run := { t.run with loops := [], ended := false } }

/-- LE_T_STATE of a valid slot after the reset: Stop with STOP_CAUSE 4; RESUME of a task that was in Run (R130). -/
def taskResetRegs (s : State) (e sl : Nat) : State :=
  let st := getF s (Fld.LE_T_STATE_STATE e sl)
  if st = 0 then s
  else setFs s [(Fld.LE_T_STATE_STATE e sl, 2), (Fld.LE_T_STATE_STOP_CAUSE e sl, 4),
    (Fld.LE_T_STATE_RESUME e sl, if st = 1 then 1 else getF s (Fld.LE_T_STATE_RESUME e sl)),
    (Fld.LE_T_STATE_IN_CYCLE e sl, 0), (Fld.LE_T_STATE_STEP_PEND e sl, 0), (Fld.LE_T_STATE_OVR_CONSEC e sl, 0), (Fld.LE_T_STATE_HOLD_MODE e sl, 0)]

/-- Every task of the engines in `es` as R130 leaves it. -/
def resetTasks (s : State) (es : List Nat) : State :=
  let s := es.foldl (fun s e => (List.range 8).foldl (fun s sl => taskResetRegs s e sl) s) s
  { s with tasks := s.tasks.map (fun kt => if es.contains (kt.1 / 8) then (kt.1, taskAbandon kt.2) else kt) }

/-- Engine of a loop: 0 for numbers below 2,048 (06 R161). -/
def loopEngine (n : Nat) : Nat := n / 2048

/-- A reset of a loop engine: its sample in progress is abandoned, APPLIED will be read again (06 R190). -/
def resetLoops (s : State) (p : Nat → Bool) : State :=
  { s with loops := s.loops.map (fun kl =>
      if p (loopEngine kl.1) then (kl.1, { kl.2 with due := none, reread := true, lastInst := none }) else kl) }

/-- LP_L_LAT returns to 0 at an L3 reset (06 Table 11). -/
def clearLatencies (s : State) : State := { s with loops := s.loops.map (fun kl => (kl.1, { kl.2 with latLast := 0, latMax := 0 })) }

/-- The scarf at an L3 reset (05 R144): the queue is emptied, local requests answered with status 2, the change in hand discarded; participants of a
change of this manager whose decision has not gone out, and the manager's own part of a decided one, will be told of it (R157). -/
def scarfL3 (s : State) : State :=
  let s := s.scf.queue.foldl (fun s c => match c.request with | some (id, _) => sendMsg s (.note "MGMT_RSP" [id, 2]) | none => s) s
  let us : List Unresolved := match s.scf.coord with
    | some c =>
      let me := getF s Fld.TR_SELF_NUMBER
      let go := c.decided.getD false
      (c.parts.filter (fun p => if c.sent then go && p.module_ = me else go || p.module_ ≠ me)).map (fun p =>
        { module_ := p.module_, change := c.id, go := go, images := if go then p.images else [], tick := c.target.getD s.tick })
    | none => []
  { s with scf := { s.scf with queue := [], staging := {}, jtasks := [], loses := false, view := none, readyAt := none, coord := none,
                               unresolved := s.scf.unresolved ++ us } }

/-- The scarf at an L2 reset: the definitions in effect go with the bench banks; NAND records stay, and what SV keeps in DRAM. -/
def scarfL2 (f : ScarfState) : ScarfState :=
  { nand := f.nand, versions := f.versions, stored := f.stored, unresolved := f.unresolved, decisions := f.decisions, offers := f.offers }

/-- What an L3 reset does outside the register fields: the engines restart, requests of the field buses end FLUSHED (11 R368), key commands and the
session keys of the secure bank go, the scarf is closed (05 R144); bench banks, DRAM and packet memory survive (R459 Table 8, R19). -/
def resetL3 (s : State) : State :=
  let s := initPools (scarfL3 (resetFe (clearLatencies (resetLoops (resetTasks s [0, 1, 2, 3, 4, 5, 6, 7]) (fun _ => true)))))
  { s with pt := { s.pt with waiting := [], lost := [], locked := [] }, jrun := {}, flt := { s.flt with inj := none },
           shadows := s.shadows.filter (fun kv => kv.1 / 16 ≠ 2), cyc := {}, mem := { s.mem with dcq := [] },
           se := { s.se with queue := [] }, net := { s.net with osc := [], reqs := [], via := none, deficit := [], turn := [] }, tr := { s.tr with peers := [], asked := [], answers := [] },
           pw := { s.pw with pendMode := none, grants := s.pw.grants.filter (· != .crypto), waiting := s.pw.waiting.filter (fun r => r.op != .crypto) } }

/-- Codes of Table 2. -/
def LoopState.code : LoopState → Nat
  | .disabled => 0 | .manual => 1 | .auto => 2 | .track => 3 | .safe => 4

/-- Learned Roll Call bindings by channel (11 R367). -/
def learnedOf (s : State) : Tab (Tab CanNode) :=
  (s.field.can.map (fun kx => (kx.1, kx.2.nodes.filter (fun kv => kv.2.learned)))).filter (fun kx => !kx.2.isEmpty)

/-- The mode record as it stands: mode, state of every task and loop (R443, R454). -/
def modeRecord (s : State) : ModeRec :=
  { mode := modeOf s,
    tasks := s.tasks.map (fun kt => (kt.1, getF s (Fld.LE_T_STATE_STATE (kt.1 / 8) (kt.1 % 8)))),
    loops := s.loops.map (fun kl => (kl.1, kl.2.state.code)) }

/-- What an L2 reset does further: bench banks and packet memory are wiped (R459), so the point table, tasks, loops, maps, exports and rings go. -/
def resetL2 (s : State) : State :=
  { s with pt := {}, scf := scarfL2 s.scf, tasks := [], loops := [], groups := [], field := {}, net := { oscNand := s.net.oscNand, dbRev := s.net.dbRev, lastImage := s.net.lastImage }, macs := [], neArea := 0, shed := {},
           tr := { bindings := s.tr.bindings, epoch := s.tr.epoch, tenants := s.tr.tenants }, me := { s.me with portHeld := true }, se := { s.se with nonceOk := false },
           pw := { s.pw with grants := s.pw.grants.filter (· == .frontEnd),
                             waiting := s.pw.waiting.filter (fun r => match r.op with | .frontEnd | .domain _ => true | _ => false),
                             configDue := false, triedOther := false, failStep := 0, dozeDue := none, blocksHeld := [], landsFuse := true,
                             fromWarm := s.pw.fromWarm || decide (modeOf s ≤ 3),
                             fromSleep := decide (modeOf s = 4 ∨ modeOf s = 5) || (s.pw.fromSleep && decide (modeOf s = 7)),
                             learned := if modeOf s = 4 then learnedOf s else if modeOf s = 7 then s.pw.learned else [] } }

/-- What an L1 reset does further: the tick number returns to 0 (R109), DRAM and ME working memory are wiped, domains and grants start anew;
checkpoint slots, NAND records and what a Vigil or Doze in progress needs stay (07 R229, R233 to R235). -/
def resetL1 (s : State) : State :=
  { s with tick := 0, fc := 0, sub := 0, gridAcc := 0, evlog := [], trends := [], shadows := [], tc := {}, scf := { s.scf with unresolved := [], decisions := [], offers := [] },
           me := { slotA := s.me.slotA, slotB := s.me.slotB, nand := s.me.nand, closings := s.me.closings, vigilDue := s.me.vigilDue,
                   vigilWindow := s.me.vigilWindow, dozeFrom := s.me.dozeFrom,
                   dozeTo := if modeOf s = 4 then some s.rtc.count else s.me.dozeTo },
           rtc := { s.rtc with driftAt := none }, se := { s.se with seedDue := true },
           pw := { s.pw with fromWarm := false, grants := [], waiting := [], modeDram := none, clkErr := [] } }

/-- What an L0 reset does further: the Sill domain starts anew (R459, R397, R480): Sill SRAM with the checkpoint slots is lost, the RTC is at 0, key
slots and the tamper log are empty; fuses stay. -/
def resetL0 (s : State) : State :=
  { s with flt := {}, rtc := {}, se := { fused := s.se.fused, ownerKey := s.se.ownerKey },
           me := { s.me with slotA := none, slotB := none, vigilDue := false, vigilWindow := 0, dozeFrom := none, dozeTo := none },
           pw := { s.pw with starts := (0, 0) }, timers := tabDel s.timers tmPatrol }

/-- The secure bank, which holds the session keys, is wiped (01 R19); the wipe takes its time where its domain is on (12 Table 8). -/
def wipeSecure (s : State) : State :=
  let s := { s with net := { s.net with osc := [] }, tr := { s.tr with peers := [] } }
  if domainOn s 13 then startTime (setF s Fld.MEM_STAT_WIPING (setBit (getF s Fld.MEM_STAT_WIPING) 2 true)) tmWipe else s

/-- The address of MACn_LINK: an L3 reset keeps the links (R459 Table 8, log 28). -/
def linkReg (a : Nat) : Bool := 0x300030 ≤ a && a < 0x306000 && a % 0x1000 = 0x30

/-- The idle handshake of a MAC follows its link (09 R304). -/
def macIdle (s : State) : State := (List.range 6).foldl (fun s m => setB s (Fld.MACn_STATUS_IDLE m) (!getB s (Fld.MACn_LINK_UP m))) s

/-- PW_VMAIN as the power controller in PD0 reports it (R453). -/
def showVmain (s : State) : State :=
  match s.pw.vmain with | some v => setFs s [(Fld.PW_VMAIN_MV, v), (Fld.PW_VMAIN_IN_RANGE, 1)] | none => s

/-- The whole effect of a reset at level `l` (0 to 3) on State: structures, then every field whose Reset column names `l` or a shallower level;
an L2 reset changes the mode to Bring-up, and CHANGES, which it keeps, counts that. -/
def applyLevel (s : State) (l : Nat) : State :=
  let s := if l = 2 && modeOf s ≠ 7 then incF s Fld.PW_MODE_CHANGES else s
  let lost := decide (l ≤ 3) && getF s Fld.SCF_STATE_STATE != 0
  let s := if l ≤ 3 then resetL3 s else s
  let s := if l ≤ 2 then resetL2 s else s
  let s := if l ≤ 1 then resetL1 s else s
  let s := if l = 0 then resetL0 s else s
  let s := wipeSecure (if l = 3 then macIdle (resetRegs s 3 (fun a => !linkReg a)) else resetRegs s l (fun _ => true))
  let s := if l ≤ 1 then showVmain s else s
  let s := if l ≤ 2 && s.se.by3 ≠ 0 then setF s Fld.PW_MODE_SAFE_TAMPER 1 else s
  let s := if lost then setF s Fld.SCF_RESULT_OUTCOME 6 else s
  recharge s

/-! ## Asserting a source (R460, R461) -/

/-- A reset is in assertion, stretch or loading. -/
def resetActive (s : State) : Bool :=
  match s.pw.phase with
  | .asserted | .stretch | .loading | .loadWait => true
  | _ => false

/-- RST_CAUSE and the RESET Safe cause of a recorded source. -/
def recordSource (s : State) (i : Nat) : State :=
  let s := latchF s Fld.RST_CAUSE_SOURCES (2 ^ i)
  if i = 7 || i = 8 || i = 9 then latchF s Fld.PW_MODE_SAFE_RESET 1 else s

/-- Bring-up's first step: requests for PD1, PD2 and PD3 (R469). -/
def bringUpRequests (s : State) : List GovReq :=
  ([1, 2, 3] : List (Fin 14)).filterMap (fun d => if domainOn s d.val then none else some { op := .domain d, cls := 1, since := s.mono })

/-- Domains that a reset at level 2 or 3 restarts (R459 Table 8). -/
def restartMask (l : Nat) : Nat := if l = 3 then 0x31D0 else 0x3DD8

/-- Releases of the domains of a mask are asked for: the time of each begins (R471). -/
def startReleases (s : State) (m : Nat) : State := (List.range 14).foldl (fun s d => if bitOf m d then startTime s (tmRelease d) else s) s

/-- The powered domains that the reset restarts are held until their release (R471). -/
def holdDomains (s : State) (l : Nat) : State :=
  let m := getF s Fld.PW_PD_ON &&& restartMask l
  let s := startReleases s m
  setF { s with pw := { s.pw with domsHeld := s.pw.domsHeld ||| m } } Fld.CLK_PEND_RELEASE_PENDING (getF s Fld.CLK_PEND_RELEASE_PENDING ||| m)

/-- What an L2 reset does to the memories (R397, R459): bench banks and packet memory are wiped, DRAM stays in self-refresh. -/
def warmMemories (s : State) : State :=
  let s := if domainOn s 4 then setF s Fld.MEM_STAT_WIPING (getF s Fld.MEM_STAT_WIPING ||| 0b1011) else s
  if domainOn s 5 then setFs s [(Fld.MEM_STAT_DRAM_READY, 0), (Fld.MEM_STAT_SELF_REFRESH, 1)] else s

/-- The reset at level `l` begins, or is escalated to `l`; SV's last mode record stays in DRAM (R443). -/
def beginReset (s : State) (l : Nat) (held : Bool) : State :=
  let s := if modeOf s ≤ 3 then { s with pw := { s.pw with modeDram := some (modeRecord s) } } else s
  let s := applyLevel s l
  if l = 3 then holdDomains s 3
  else
    let s := startTime { s with pw := { s.pw with level := l, phase := if held then .asserted else .stretch, nResetLow := true } } tmStretch
    if l ≤ 1 then { s with pw := { s.pw with waiting := bringUpRequests s, domsHeld := 0 } } else warmMemories (holdDomains s 2)

/-- A source asserts; `held` while it stays asserted (R458 to R463). -/
def assertReset (s : State) (i : Nat) (held : Bool := false) : State :=
  let l := sourceLevel s i
  let hold (s : State) : State := if held then { s with pw := { s.pw with held := if s.pw.held.contains i then s.pw.held else s.pw.held ++ [i] } } else s
  if resetActive s then
    let reload := (s.pw.phase == .loading) && decide (l ≤ 1)
    if l ≤ s.pw.level then
      let s := if l < s.pw.level then beginReset s l held else
        startTime { s with pw := { s.pw with phase := if held then .asserted else .stretch } } tmStretch
      let s := setF s Fld.RST_CAUSE_LEVEL l
      let s := if reload then resetRegs (incSatF s Fld.RST_LOAD_RESTARTS) 1 (fun a => 0x600000 ≤ a && a < 0x700000) else s
      hold (recordSource s i)
    else hold (recordSource s i)
  else
    let s := beginReset s l held
    let s := setF (incF s Fld.RST_COUNT_RESETS) Fld.RST_CAUSE_LEVEL l
    hold (recordSource s i)

end Sys2Proof.Machine
end

