-- ==== Sys2Proof/Machine/Faults.lean ====
section
/-! DEFINITION. Machine/Faults.lean: the fault collector (15 R477 to R500): presenting an entry with its reaction, acknowledging, injection, and
the overload status. -/

namespace Sys2Proof.Machine

/-! ## Detectors and severities (Table 1) -/

/-- Code of a detector. -/
def Detector.code : Detector → Nat
  | .regNone => 0x01 | .stOutside => 0x02 | .ptDenied => 0x03 | .trussSelfGpa => 0x04 | .trussAuth => 0x05 | .scfInDoubt => 0x06
  | .scfLateReject => 0x07 | .taskOverrun => 0x10 | .taskLimit => 0x11 | .taskCost => 0x12 | .loopOverrun => 0x18 | .loopSupv => 0x19
  | .loopSafe => 0x1A | .mtOverrange => 0x20 | .mtChannel => 0x21 | .lgAudit => 0x22 | .lgVigil => 0x23 | .tmpSource => 0x24
  | .rtcDrift => 0x25 | .macTrain => 0x30 | .macLinkLost => 0x31 | .macTsqOvf => 0x32 | .macPauseWd => 0x33 | .neEndpoint => 0x34
  | .trPoolAudit => 0x35 | .canPassive => 0x40 | .canBusoff => 0x41 | .canReqFailed => 0x42 | .canRxOvf => 0x43 | .canAudit => 0x44
  | .rcEvent => 0x45 | .mbEvent => 0x46 | .memCeRate => 0x50 | .memDue => 0x51 | .memStuck => 0x52 | .dramSpares => 0x53
  | .nandSpares => 0x54 | .imageLost => 0x55 | .fabricAudit => 0x56 | .secureAccess => 0x57 | .govAudit => 0x60 | .clkAbandon => 0x61
  | .clkLocal => 0x62 | .tempHot => 0x63 | .saturated => 0x64 | .vio33Overload => 0x65 | .svCheck => 0x70 | .fltStorage => 0x71

/-- Every detector. -/
def allDetectors : List Detector :=
  [.regNone, .stOutside, .ptDenied, .trussSelfGpa, .trussAuth, .scfInDoubt, .scfLateReject, .taskOverrun, .taskLimit, .taskCost,
   .loopOverrun, .loopSupv, .loopSafe, .mtOverrange, .mtChannel, .lgAudit, .lgVigil, .tmpSource, .rtcDrift, .macTrain, .macLinkLost,
   .macTsqOvf, .macPauseWd, .neEndpoint, .trPoolAudit, .canPassive, .canBusoff, .canReqFailed, .canRxOvf, .canAudit, .rcEvent, .mbEvent,
   .memCeRate, .memDue, .memStuck, .dramSpares, .nandSpares, .imageLost, .fabricAudit, .secureAccess, .govAudit, .clkAbandon, .clkLocal,
   .tempHot, .saturated, .vio33Overload, .svCheck, .fltStorage]

/-- The detector with a code. -/
def Detector.ofCode? (c : Nat) : Option Detector := allDetectors.find? (fun d => d.code == c)

/-- Severity codes. -/
def Severity.code : Severity → Nat
  | .note => 0 | .degraded => 1 | .severe => 2 | .critical => 3

/-- Severity of an injected memory error by region (12 Table 7, R392); a region whose places differ takes its gravest but for DRAM and packet
memory (log 13). -/
def memDueSeverity (region : Nat) : Severity :=
  if region ≤ 2 || region = 4 then .critical else if region = 3 then .degraded else .severe

/-- Severity of a detector's raise (Table 1); the two that depend on more take it from `inst`. -/
def Detector.severity (d : Detector) (inst : Nat) : Severity :=
  match d with
  | .regNone | .stOutside | .ptDenied | .trussSelfGpa | .trussAuth | .macLinkLost | .macTsqOvf | .neEndpoint | .canPassive | .canReqFailed
  | .canRxOvf | .rcEvent | .mbEvent => .note
  | .scfInDoubt | .taskOverrun | .loopOverrun | .loopSupv | .mtOverrange | .lgVigil | .rtcDrift | .macTrain | .macPauseWd | .canBusoff
  | .memCeRate | .memStuck | .nandSpares | .tempHot | .saturated | .vio33Overload => .degraded
  | .scfLateReject | .taskLimit | .taskCost | .loopSafe | .mtChannel | .lgAudit | .tmpSource | .trPoolAudit | .canAudit | .dramSpares
  | .imageLost | .fabricAudit | .secureAccess | .govAudit | .clkAbandon | .clkLocal | .fltStorage => .severe
  | .memDue => memDueSeverity inst
  | .svCheck => .critical

/-- Reaction "Safe" of Table 1. -/
def Detector.safe : Detector → Bool
  | .taskCost | .secureAccess | .clkAbandon => true
  | _ => false

/-- A Force condition is offered (Table 1, last column). -/
def Detector.forceOffered : Detector → Bool
  | .regNone | .stOutside | .ptDenied | .trussSelfGpa | .scfLateReject | .lgVigil | .secureAccess | .svCheck => false
  | _ => true

/-- Domain that holds the memory of a region, or scrubs it. -/
def regionDomain (r : Nat) : Nat := [4, 4, 13, 4, 4, 5, 9].getD r 4

/-- Power domain of a detector (R479), 0 for one of the Sill domain: what SV, the fabric or an engine watches is watched only while that is powered
(DEDUCED from 14 Table 1, log 121). -/
def Detector.domain (d : Detector) (inst : Nat) : Nat :=
  match d with
  | .taskOverrun | .taskLimit | .taskCost => if inst < 32 then 6 else 7
  | .loopOverrun | .loopSupv | .loopSafe => 8
  | .mtOverrange | .mtChannel => if inst < 16 then 1 else 9
  | .macTrain | .macLinkLost | .macTsqOvf | .macPauseWd => if inst < 2 then 10 else 11
  | .canPassive | .canBusoff | .canReqFailed | .canRxOvf | .canAudit | .rcEvent | .mbEvent => 12
  | .regNone | .stOutside | .ptDenied | .trussSelfGpa | .trussAuth | .neEndpoint | .trPoolAudit | .fabricAudit | .saturated => 4
  | .memCeRate | .memDue | .memStuck => regionDomain inst
  | .dramSpares => 5
  | .scfInDoubt | .scfLateReject | .lgAudit | .lgVigil | .rtcDrift | .nandSpares | .imageLost | .svCheck | .vio33Overload => 3
  | .tmpSource | .secureAccess | .govAudit | .clkAbandon | .clkLocal | .tempHot | .fltStorage => 0

/-- The block with an L4 reset that a detector belongs to (14 Table 11). -/
def Detector.block? (d : Detector) (inst : Nat) : Option Nat :=
  match d with
  | .taskOverrun | .taskLimit | .taskCost => some (inst / 8)
  | .loopOverrun | .loopSupv | .loopSafe => some (8 + inst / 2048)
  | .macTrain | .macLinkLost | .macTsqOvf | .macPauseWd => some (16 + inst)
  | .canPassive | .canBusoff | .canReqFailed | .canRxOvf | .canAudit | .rcEvent => some (32 + inst)
  | .mbEvent => some (48 + inst)
  | _ => none

/-- A detector raises nothing in a domain that is powered down or in a block that is held in reset (R479). -/
def detects (s : State) (d : Detector) (n : Nat) : Bool :=
  (d.domain n == 0 || domainOn s (d.domain n)) && match d.block? n with | some b => engineRuns s (d.domain n) && !blockHeld s b | none => true

/-! ## The queue (R480 to R488) -/

/-- Places of the queue and of the backlog. -/
def queueDepth : Nat := 32
/-- Places of the backlog. -/
def backlogDepth : Nat := 16

/-- The presented entry (R481): highest severity, earliest entered. -/
def presentedOf : List FltEntry → Option FltEntry
  | [] => none
  | e :: t =>
    match presentedOf t with
    | none => some e
    | some h => if e.sev.code < h.sev.code then some h else some e

/-- The presented entry. -/
def presented (s : State) : Option FltEntry := presentedOf s.flt.queue

/-- The four words of an entry (Table 2). -/
def entryWord (e : FltEntry) (w : Nat) : Nat :=
  match w with
  | 0 => e.det.code + e.inst % 4096 * 2 ^ 8 + e.sev.code * 2 ^ 20 + b2n e.inj * 2 ^ 22 + b2n e.escalated * 2 ^ 23 + e.rep * 2 ^ 24
  | 1 => bitsOf e.tick 32 16 + e.mode * 2 ^ 16 + b2n e.rtcClock * 2 ^ 19 + e.seq * 2 ^ 20
  | 2 => bitsOf e.tick 0 32
  | _ => e.detail % 2 ^ 32

/-- Position of the oldest entry of a severity. -/
def oldestOf (q : List FltEntry) (v : Severity) : Option Nat := q.findIdx? (fun e => e.sev == v)

/-- FLT_FIRST captures the first entry to become Severe or Critical (R488). -/
def captureFirst (s : State) (e : FltEntry) : State :=
  if e.sev.code < 2 then s else match s.flt.first with
    | some _ => s
    | none => { s with flt := { s.flt with first := some e } }

/-- An entry takes its SEQ and its place at the end of the queue (R480). -/
def enqueue (s : State) (e : FltEntry) : State :=
  let e := { e with seq := s.flt.seq }
  captureFirst { s with flt := { s.flt with queue := s.flt.queue ++ [e], seq := (s.flt.seq + 1) % 4096 } } e

/-- The oldest held Severe entry enters the queue when an entry is free (R485). -/
def drainOne (s : State) : State :=
  match s.flt.backlog with
  | [] => s
  | e :: t => if s.flt.queue.length < queueDepth then enqueue { s with flt := { s.flt with backlog := t } } e else s

/-- Held entries enter free places, oldest first, ahead of an entry raised in that cycle (R485). -/
def drainAll : Nat → State → State
  | 0, s => s
  | n + 1, s => drainAll n (drainOne s)

/-- A Critical entry that cannot be recorded (R486): FLT_LOST, and the mapped reset at once. -/
def loseEntry (s : State) (e : FltEntry) : State :=
  let multiple := getB s Fld.FLT_LOST_VALID || getB s Fld.FLT_LOST_MULTIPLE
  let s := setFs s [(Fld.FLT_LOST_DETECTOR, e.det.code), (Fld.FLT_LOST_INSTANCE, e.inst), (Fld.FLT_LOST_MULTIPLE, b2n multiple), (Fld.FLT_LOST_VALID, 1)]
  assertReset s (if e.det = .memDue then 8 else 9)

/-- Outcome of presenting a new entry at the queue: recorded, held, discarded, or lost (R485 Table 3). -/
inductive Arrival where
  | recorded | held | dropped | lost
deriving DecidableEq, Repr

/-- A new entry arrives (R485). -/
def arrive (s : State) (e : FltEntry) : State × Arrival :=
  if s.flt.queue.length < queueDepth then (enqueue s e, .recorded)
  else
    let victim := match e.sev with
      | .note => oldestOf s.flt.queue .note
      | _ => (oldestOf s.flt.queue .note).or (oldestOf s.flt.queue .degraded)
    match victim with
    | some i =>
      let s := incSatF { s with flt := { s.flt with queue := s.flt.queue.eraseIdx i } } Fld.FLT_STAT_OVERWRITTEN
      (enqueue s e, .recorded)
    | none =>
      match e.sev with
      | .note | .degraded => (incSatF s Fld.FLT_STAT_DROPPED, .dropped)
      | .severe =>
        if s.flt.backlog.length < backlogDepth then ({ s with flt := { s.flt with backlog := s.flt.backlog ++ [e] } }, .held)
        else (s, .lost)
      | .critical => (s, .lost)

/-- The reaction of a recorded entry (R478, R489). `first`: the entry has just been recorded, or has just become Severe. -/
def react (s : State) (e : FltEntry) (first : Bool) : State :=
  let safe := first && (e.det.safe || (getB s Fld.FLT_CFG_SEVERE_SAFE && e.sev == .severe))
  let s := if safe then latchF s Fld.PW_MODE_SAFE_FAULT 1 else s
  if e.sev = .critical then assertReset s (if e.det = .memDue then 8 else 9) else s

/-- One more raise of an entry already there (R483, R484): REPEAT, a higher severity, escalation. The entry, and whether it has become Severe. -/
def repeatEntry (esc : Nat) (e : FltEntry) (sev : Severity) : FltEntry × Bool :=
  let e1 := { e with rep := satAt 255 (e.rep + 1), sev := if e.sev.code < sev.code then sev else e.sev }
  let e2 := if e1.sev = .degraded ∧ esc ≠ 0 ∧ esc ≤ e1.rep then { e1 with sev := .severe, escalated := true } else e1
  (e2, decide (e.sev.code < 2 ∧ 2 ≤ e2.sev.code))

/-- The total a raise is counted in (Table 7: FLT_TOTAL). -/
def totalField (v : Severity) : RF :=
  match v with
  | .note => Fld.FLT_TOTAL_LO_NOTE | .degraded => Fld.FLT_TOTAL_LO_DEGRADED | .severe => Fld.FLT_TOTAL_HI_SEVERE | .critical => Fld.FLT_TOTAL_HI_CRITICAL

/-- A raise that finds its identity at position `i` of the queue. -/
def repeatQueued (s : State) (i : Nat) (old : FltEntry) (sev : Severity) : State :=
  let (e, became) := repeatEntry (getF s Fld.FLT_CFG_ESC_COUNT) old sev
  let s := { s with flt := { s.flt with queue := s.flt.queue.set i e } }
  let s := if became then captureFirst s e else s
  if became || sev == .critical then react s e became else s

/-- An identity: detector and the number of what it watches (R477). -/
def sameIdent (d : Detector) (n : Nat) (e : FltEntry) : Bool := e.det == d && e.inst == n

/-- A Force on a detector is active: every entry that the detector raises carries INJ (R493). -/
def injOn (s : State) (d : Detector) : Bool := match s.flt.inj with | some j => j.det == d | none => false

/-- A raise (R477 to R489): counted, then a repeat of an unacknowledged entry or a new entry with its reaction. -/
def raiseFault (s : State) (d : Detector) (n : Nat) (sev : Severity) (detail : Nat) (injected : Bool := false) : State :=
  if !detects s d n then s
  else
    let s := incF s (totalField sev)
    match s.flt.queue.findIdx? (sameIdent d n), s.flt.backlog.findIdx? (sameIdent d n) with
    | some i, _ => match s.flt.queue[i]? with
      | some old => repeatQueued s i old sev
      | none => s
    | none, some i => match s.flt.backlog[i]? with
      | some old =>
        let s := { s with flt := { s.flt with backlog := s.flt.backlog.set i (repeatEntry 0 old sev).1 } }
        if sev = .critical then react s (repeatEntry 0 old sev).1 false else s
      | none => s
    | none, none =>
      let sleeping := decide (modeOf s = 4 ∨ modeOf s = 5)
      let e : FltEntry :=
        { det := d, inst := n, sev := sev, inj := injected || injOn s d,
          tick := if sleeping then s.rtc.count else s.tick, mode := modeOf s, rtcClock := sleeping, detail := detail % 2 ^ 32 }
      let s := drainAll backlogDepth s
      match arrive s e with
      | (s, .recorded) => react s e true
      | (s, .held) => react s e true
      | (s, .dropped) => s
      | (s, .lost) => loseEntry s e

/-- A raise at a given severity; no rule gives the DETAIL of an entry that is not injected, so it is a free value (R480, log 4). -/
def raiseSev (s : State) (d : Detector) (n : Nat) (sev : Severity) : State :=
  let (v, s) := freshFree s
  raiseFault s d n sev v

/-- A raise at the detector's own severity. -/
def raise (s : State) (d : Detector) (n : Nat := 0) : State := raiseSev s d n (d.severity n)

/-- The entry at position `k` of the queue is read with an uncorrectable error (R487): it is removed, and a FLT_STORAGE entry with that position as
its instance is recorded in its place, with the next SEQ. -/
def storageLost (s : State) (k : Nat) : State :=
  match s.flt.queue[k]? with
  | none => s
  | some old =>
    let (v, s) := freshFree (incF s (totalField (Detector.severity .fltStorage k)))
    let sleeping := decide (modeOf s = 4 ∨ modeOf s = 5)
    let e : FltEntry :=
      { det := .fltStorage, inst := k, sev := Detector.severity .fltStorage k, inj := injOn s .fltStorage, tick := if sleeping then s.rtc.count else s.tick, mode := modeOf s,
        rtcClock := sleeping, detail := v % 2 ^ 32, seq := s.flt.seq }
    let s := { s with flt := { s.flt with queue := s.flt.queue.set k e, seq := (s.flt.seq + 1) % 4096,
                                          logged := s.flt.logged.filter (fun n => n != old.seq) } }
    react (captureFirst s e) e true

/-- FAULT_RAISE: a detector presents an entry. -/
def execFaultRaise (d : Detector) (n : Fin 4096) (sev : Severity) (detail : Word) (s : State) : Host.Outcome State Fault Refusal :=
  done (raiseFault s d n.val sev detail.toNat)

/-- BACKLOG_DRAIN. -/
def execBacklogDrain (s : State) : Host.Outcome State Fault Refusal := done (drainOne s)

/-! ## Acknowledgement (R481, R482) -/

/-- The presented entry is copied to the event log when it is first presented, and again when it is acknowledged (R481). -/
def logEntry (s : State) (e : FltEntry) : State := logEvent s (.faultLog e)

/-- Removes the entry with a SEQ. -/
def removeSeq (s : State) (seq : Nat) : State :=
  { s with flt := { s.flt with queue := s.flt.queue.filter (fun e => e.seq != seq), logged := s.flt.logged.filter (fun n => n != seq) } }

/-- The presented entry is logged, unless it has been since it was first presented. -/
def logFirst (s : State) (e : FltEntry) : State :=
  if s.flt.logged.contains e.seq then s else { logEntry s e with flt := { s.flt with logged := s.flt.logged ++ [e.seq] } }

/-- An acknowledgement of SEQ `seq`: the state and the RESULT (R482). -/
def ackEntry (s : State) (seq : Nat) : State × Nat :=
  match presented s with
  | none => (s, 2)
  | some e => if e.seq = seq then (removeSeq (logEntry (logFirst s e) e) seq, 0) else (s, 1)

/-- FLT_ACK GO with this SEQ. -/
def ackCmd (s : State) (seq : Nat) : State :=
  let (s, r) := ackEntry s seq
  setFs s [(Fld.FLT_ACK_SEQ, seq), (Fld.FLT_ACK_RESULT, r), (Fld.FLT_ACK_BUSY, 0), (Fld.FLT_ACK_GO, 0)]

/-- FAULT_ACK. -/
def execFaultAck (seq : Fin 4096) (s : State) : Host.Outcome State Fault Refusal := done (ackCmd s seq.val)

/-- AUTO_ACK covers a severity (R482); Severe and Critical never. -/
def autoAckCovers (cfg : Nat) (v : Severity) : Bool :=
  match v with
  | .note => decide (1 ≤ cfg) | .degraded => decide (2 ≤ cfg) | _ => false

/-- FAULT_AUTO_ACK: SV logs the presented entry when it has not yet, and acknowledges it when AUTO_ACK covers it. -/
def execFaultAutoAck (s : State) : Host.Outcome State Fault Refusal :=
  match presented s with
  | none => done s
  | some e =>
    let s := logFirst s e
    if autoAckCovers (getF s Fld.FLT_CFG_AUTO_ACK) e.sev then done (ackEntry s e.seq).1 else done s

/-- FLT_CMD with a code: the fields as a GO write leaves them. -/
def fltCmd (s : State) (op : Nat) (accepted : Bool) : State :=
  setFs s [(Fld.FLT_CMD_OP, op), (Fld.FLT_CMD_RESULT, if accepted then 0 else 1), (Fld.FLT_CMD_BUSY, 0), (Fld.FLT_CMD_GO, 0)]

/-- OP 0b001: FLT_FIRST is cleared. -/
def fltClearFirst (s : State) : State := fltCmd { s with flt := { s.flt with first := none } } 1 true
/-- OP 0b010: FLT_LOST is cleared. -/
def fltClearLost (s : State) : State :=
  fltCmd (setFs s [(Fld.FLT_LOST_DETECTOR, 0), (Fld.FLT_LOST_INSTANCE, 0), (Fld.FLT_LOST_MULTIPLE, 0), (Fld.FLT_LOST_VALID, 0)]) 2 true
/-- OP 0b111: FLT_TOTAL, OVERWRITTEN and DROPPED are cleared. -/
def fltClearTotals (s : State) : State :=
  fltCmd (setFs s [(Fld.FLT_TOTAL_LO_NOTE, 0), (Fld.FLT_TOTAL_LO_DEGRADED, 0), (Fld.FLT_TOTAL_HI_SEVERE, 0), (Fld.FLT_TOTAL_HI_CRITICAL, 0),
    (Fld.FLT_STAT_OVERWRITTEN, 0), (Fld.FLT_STAT_DROPPED, 0)]) 7 true

/-- FLT_CLEAR_FIRST. -/
def execFltClearFirst (s : State) : Host.Outcome State Fault Refusal := done (fltClearFirst s)
/-- FLT_CLEAR_LOST. -/
def execFltClearLost (s : State) : Host.Outcome State Fault Refusal := done (fltClearLost s)
/-- FLT_CLEAR_TOTALS. -/
def execFltClearTotals (s : State) : Host.Outcome State Fault Refusal := done (fltClearTotals s)

/-! ## Injection (R490 to R494) -/

/-- A requester acts for tenant 4095: SV's own requests and system-tenant tasks do, the debug port while the debug path is open (R490). -/
def actsForSystem (s : State) (q : Requester) : Bool :=
  match q with | .debug => getB s Fld.LC_STATE_DEBUG_OPEN | _ => true


/-- RESULT of a START (15 Table 7). -/
def injResult (s : State) (q : Requester) : Nat :=
  let mode := modeOf s
  let lc := getF s Fld.LC_STATE_STATE
  if !(mode = 0 || mode = 2) || lc = 4 || (lc = 2 && !(actsForSystem s q && getB s Fld.FLT_STAT_INJ_FUSE)) then 1
  else if s.flt.inj.isSome then 2
  else match Detector.ofCode? (getF s Fld.FLT_INJ_DETECTOR) with
    | none => 3
    | some d => if getB s Fld.FLT_INJ_KIND && !d.forceOffered then 3 else 0

/-- A Force on an identity is active. -/
def forced (s : State) (d : Detector) (n : Nat) : Bool :=
  match s.flt.inj with | some j => j.det == d && j.inst == n | none => false

/-- A Force whose condition acts once has not acted yet: an audit offset, or "the next" in Table 1. -/
def forcedOnce (s : State) (d : Detector) (n : Nat) : Bool :=
  match s.flt.inj with | some j => j.det == d && j.inst == n && !j.used | none => false

/-- It has acted; the injection itself goes on (R492). -/
def useForce (s : State) : State := { s with flt := { s.flt with inj := s.flt.inj.map (fun j => { j with used := true }) } }

/-- The active injection's condition is removed (R492). -/
def injEnd (s : State) : State := { s with flt := { s.flt with inj := none } }

/-- STOP. -/
def injStop (s : State) : State :=
  injEnd (setFs s [(Fld.FLT_INJ_CTL_OP, 2), (Fld.FLT_INJ_CTL_RESULT, 0), (Fld.FLT_INJ_CTL_BUSY, 0), (Fld.FLT_INJ_CTL_GO, 0)])

/-- INJ_STOP. -/
def execInjStop (s : State) : Host.Outcome State Fault Refusal := done (injStop s)

/-- The active Force has run its DURATION_MS, or the module has left Commission and Hold (R492); 0 lasts until STOP. -/
def forceOver (s : State) : Bool :=
  !(modeOf s == 0 || modeOf s == 2) || match s.flt.inj with | some j => (match j.endAt with | some t => decide (t ≤ s.mono) | none => false) | none => false

/-- INJ_FORCE_END. -/
def execInjForceEnd (s : State) : Host.Outcome State Fault Refusal := if forceOver s then done (injEnd s) else done s

/-- An audit's offset is used once (R494): one, and the state that has used it. -/
def takeOffset (s : State) (d : Detector) (n : Nat) : Nat × State :=
  if forcedOnce s d n then (1, useForce s) else (0, s)

end Sys2Proof.Machine
end

