-- ==== Sys2Proof/Machine/Points.lean ====
section
/-! DEFINITION. Machine/Points.lean: the point table (02): ports and collisions, rights, forcing, staleness. -/

namespace Sys2Proof.Machine

/-! ## Rights (R63, R64) -/

/-- Numbers of the grant entries in force. -/
def validGrants (s : State) : List Nat :=
  s.regs.filterMap (fun kv =>
    let a := kv.1 / 256
    if kv.1 % 256 = 31 * 8 + 2 && 0x201004 ≤ a && a < 0x203004 && (a - 0x201004) % 8 = 0 && kv.2 = 1 then some ((a - 0x201004) / 8) else none)

/-- Grant entry `n` gives tenant `t` on records of `owner` at index `i` the right with bit `b` of its rights (R63); every other right implies READ. -/
def grantGives (s : State) (n t owner i b : Nat) : Bool :=
  getF s (Fld.PT_GRANT_ACC_GRANTEE n) == t && getF s (Fld.PT_GRANT_ACC_OWNER n) == owner
    && decide (getF s (Fld.PT_GRANT_RNG_LOW n) ≤ i) && decide (i ≤ getF s (Fld.PT_GRANT_RNG_HIGH n))
    && (match b with
        | 0 => getB s (Fld.PT_GRANT_ACC_READ n) || getB s (Fld.PT_GRANT_ACC_WRITE n) || getB s (Fld.PT_GRANT_ACC_FORCE n)
                 || getB s (Fld.PT_GRANT_ACC_EXPORT n)
        | 1 => getB s (Fld.PT_GRANT_ACC_WRITE n)
        | 2 => getB s (Fld.PT_GRANT_ACC_FORCE n)
        | _ => getB s (Fld.PT_GRANT_ACC_EXPORT n))

/-- READ. -/
def rightRead : Nat := 0
/-- WRITE. -/
def rightWrite : Nat := 1
/-- FORCE. -/
def rightForce : Nat := 2
/-- EXPORT. -/
def rightPublish : Nat := 3

/-- Tenant `t` holds a right on a record of `owner` at index `i` (R63). -/
def holdsOn (s : State) (t owner i b : Nat) : Bool :=
  t == owner || t == 4095 || (validGrants s).any (fun n => grantGives s n t owner i b)

/-- Tenant `t` holds a right on the record at `i`. -/
def holdsRight (s : State) (t i b : Nat) : Bool := holdsOn s t (ptAt s i).tenant i b

/-- Tenant of a context slot, if the slot is valid. -/
def ctxTenant? (s : State) (n : Nat) : Option Nat :=
  if getB s (Fld.PT_CTX_VALID n) then some (getF s (Fld.PT_CTX_TENANT n)) else none

/-- A context's tenant holds a right on a record (R70). -/
def ctxHolds (s : State) (n i b : Nat) : Bool :=
  match ctxTenant? s n with | some t => holdsRight s t i b | none => false

/-- The network engine of context `n` (R18, 02 Table 15). -/
def ctxNe (s : State) (n : Nat) : Nat :=
  match getF s (Fld.PT_CTX_NE n) with | 1 => 0 | 2 => 1 | _ => n % 2

/-! ## Denials (R47) -/

/-- A DENIED access: recorded in PT_DENY and raised as a Note fault. -/
def deny (s : State) (port i reason : Nat) : State :=
  let s := incSatF s Fld.PT_DENY_COUNT
  let s := setFs s [(Fld.PT_DENY_LAST_PORT, port), (Fld.PT_DENY_REASON, reason), (Fld.PT_DENY_IDX_INDEX, i)]
  raise s .ptDenied port

/-- The port on which a writer of this kind and identity writes (R32 Table 2). -/
def writerPort (s : State) (k : WriterKind) (ident : Nat) : Nat :=
  match k with
  | .none => 16
  | .task => 2 + ident / 8 % 8
  | .loop => if ident < 2048 then 0 else 1
  | .meter => 10
  | .field => 13
  | .endpoint => 11 + ctxNe s (ident % 64)
  | .truss => 12
  | .system => 14

/-- The write changes a field that is not the writer's. -/
def PtWrite.writes (w : PtWrite) : Bool := w.value.isSome || w.wq.isSome

/-- Touches the force path's fields. -/
def PtWrite.forces (w : PtWrite) : Bool := w.forceValue.isSome || w.force.isSome || w.relPend.isSome

/-- The REASON for which a write on a defined record is DENIED, in the order 3, 4, 5, 1, 2, 0 (R47); none when it is allowed. Ports 11 and 12 need WRITE
for an endpoint import's write and FORCE for a force (R70). R47 names no REASON for a write of the force path's fields or of UNDELIV by an agent that Table 1
does not name: 0 (DESIGN CHOICE, log 100). -/
def denyReason (s : State) (r : PtRec) (w : PtWrite) : Option Nat :=
  let p := w.port.val
  if p = 15 && !(modeOf s = 0 || modeOf s = 2) then some 3
  else if p = 15 && (w.writes || w.undeliv.isSome || w.defField) then some 4
  else if w.force = some true && (r.writerKind = .meter || r.proxy) then some 5
  else if (p = 11 || p = 12) && ((w.forces && !ctxHolds s w.ctx w.index rightForce) || (w.writes && w.kind = .endpoint && !ctxHolds s w.ctx w.index rightWrite)) then some 1
  else if w.defField then some 2
  else if w.writes && !(w.kind = r.writerKind && w.ident = r.writerId && writerPort s w.kind w.ident = p) then some 0
  else if (w.forces && p < 11 || w.forces && p = 13) || (w.undeliv.isSome && !(p = 11 || p = 12 || p = 13)) then some 0
  else none

/-! ## Performing writes (R44, R45) -/

/-- Words of the record that a write touches. -/
def PtWrite.words (w : PtWrite) : List Nat :=
  (if w.value.isSome then [0] else []) ++ (if w.forceValue.isSome then [1] else [])
    ++ (if w.wq.isSome || w.force.isSome || w.relPend.isSome || w.undeliv.isSome then [2] else []) ++ (if w.defField then [3] else [])

/-- One write performed on a record. -/
def applyWrite (s : State) (r : PtRec) (w : PtWrite) : PtRec :=
  let r := { r with forceValue := match w.forceValue with | some v => normalise r.ty v | none => r.forceValue,
                    undeliv := w.undeliv.getD r.undeliv }
  let r := match w.force with
    | some true => { r with force := true, relPend := false }
    | some false => { r with force := false }
    | none => r
  let r := { r with relPend := w.relPend.getD r.relPend }
  match w.value, w.wq with
  | some v, q => writerFields s r v (q.getD .good)
  | none, some q => writerFields s r r.value q
  | none, none => r

/-- The tenant for whom a performed write set the force it sets: the presented context's on ports 11 and 12, 4095 on the others (R61, R66). -/
def noteForce (s : State) (w : PtWrite) : State :=
  match w.force with
  | none => s
  | some true =>
    let t := if w.port = 11 || w.port = 12 then (ctxTenant? s w.ctx).getD 4095 else 4095
    { s with pt := { s.pt with forcers := tabPut s.pt.forcers w.index t } }
  | some false => { s with pt := { s.pt with forcers := tabDel s.pt.forcers w.index } }

/-- A status is answered. -/
def answer (s : State) (w : PtWrite) (st : PtStatus) : State := sendMsg s (.ptStatus w.port.val w.index st)

/-- A LOST status: counted; ports 0 to 14 keep the write for their repeat (R48). -/
def lose (s : State) (w : PtWrite) : State :=
  let s := setF (incSatF s Fld.PT_LOST_COUNT) Fld.PT_LOST_LAST_PORT w.port.val
  let s := answer s w .lost
  if w.port = 15 then s else { s with pt := { s.pt with lost := s.pt.lost ++ [w] } }

/-- The writes to one record in one fabric cycle, in ascending port order: `used` holds the words already written in this cycle (R45). -/
def performAll (s : State) (used : List Nat) : List PtWrite → State
  | [] => s
  | w :: t =>
    let r := ptAt s w.index
    if !r.defined then performAll (answer s w .undef) used t
    else match denyReason s r w with
      | some why => performAll (answer (deny s w.port.val w.index why) w .denied) used t
      | none =>
        if w.words.any used.contains then performAll (lose s w) used t
        else performAll (answer (noteForce (commitPt s w.index r (applyWrite s r w)) w) w .ok) (used ++ w.words) t

/-- Inserts a write in ascending port order. -/
def insertPort (w : PtWrite) : List PtWrite → List PtWrite
  | [] => [w]
  | x :: t => if w.port ≤ x.port then w :: x :: t else x :: insertPort w t

/-- Ascending port order. -/
def sortPorts (ws : List PtWrite) : List PtWrite := ws.foldr insertPort []

/-- The sub-bank of a local index: bank by bit 15, interleaved on bits [2:0] (02, the point record). -/
def subBank (i : Nat) : Nat := i / 32768 * 8 + i % 8

/-- A sub-bank's fabric cycle (R44): `ws` arrive behind the writes that wait; the first waiting write's record is written, by every waiting write
to it; writes to other records wait on. -/
def serveBank (s : State) (bank : Nat) (ws : List PtWrite) : State :=
  let q := tabGet [] s.pt.waiting bank ++ sortPorts ws
  match q with
  | [] => s
  | w :: _ =>
    let s := { s with pt := { s.pt with waiting := tabSet [] s.pt.waiting bank (q.filter (fun x => x.index != w.index)) } }
    performAll s [] (sortPorts (q.filter (fun x => x.index == w.index)))

/-- Every sub-bank serves a fabric cycle in which no write arrives. -/
def serveAll (s : State) : State := (List.range 16).foldl (fun s b => serveBank s b []) s

/-- `n` fabric cycles of the sub-banks, as far as writes wait (R44). -/
def serveCycles : Nat → State → State
  | 0, s => s
  | n + 1, s => if s.pt.waiting.isEmpty then s else serveCycles n (serveAll s)

/-- One sub-bank serves up to `n` fabric cycles in which no write arrives. -/
def drainBank : Nat → State → Nat → State
  | 0, s, _ => s
  | n + 1, s, b => if (tabGet [] s.pt.waiting b).isEmpty then s else drainBank n (serveBank s b []) b

/-- `n` fabric cycles pass; the writes that wait are served as they do (R44: none waits more than 15). -/
def passTime (s : State) (n : Nat) : State := serveCycles (min n 16) (passCycles s n)

/-- The port has an access outstanding: a write that waits, or one that was LOST and waits for its repeat (R43, R48). -/
def portBusy (s : State) (p : Fin 16) : Bool :=
  s.pt.lost.any (fun w => w.port == p) || s.pt.waiting.any (fun kq => kq.2.any (fun w => w.port == p))

/-- Of several writes of one port in one cycle the first: a port has at most one access outstanding (R43). -/
def firstOfPort : List PtWrite → List PtWrite
  | [] => []
  | w :: t => w :: (firstOfPort t).filter (fun x => x.port != w.port)

/-- PT_WRITE: the writes of ports that have no access outstanding. -/
def execPtWrite (bank : Fin 16) (ws : List PtWrite) (s : State) : Host.Outcome State Fault Refusal :=
  done (serveBank s bank.val ((firstOfPort ws).filter (fun w => !portBusy s w.port)))

/-- PT_WRITE_REPEAT: the oldest LOST write of the port is presented again (R48). -/
def execPtWriteRepeat (port : Fin 16) (s : State) : Host.Outcome State Fault Refusal :=
  match s.pt.lost.find? (fun w => w.port == port) with
  | none => done s
  | some w => done (serveBank { s with pt := { s.pt with lost := s.pt.lost.erase w } } (subBank w.index) [w])

/-- An engine's own writer write, behind the writes that wait at its sub-bank (R44): performed when R32 is met, else DENIED (R47). -/
def writerWrite (s : State) (k : WriterKind) (ident i : Nat) (v : Word) (q : Wq) : State :=
  let s := drainBank 16 s (subBank i)
  let r := ptAt s i
  if !r.defined then s
  else if r.writerKind = k && r.writerId = ident then commitPt s i r (writerFields s r v q)
  else deny s (writerPort s k ident) i 0

/-- A writer write of WQ alone: VALUE stays. -/
def writerQuality (s : State) (k : WriterKind) (ident i : Nat) (q : Wq) : State := writerWrite s k ident i (ptAt s i).value q

/-! ## Reads (R36, R44, R70) -/

/-- Number of a status (R46). -/
def PtStatus.code : PtStatus → Nat
  | .ok => 0 | .lost => 1 | .denied => 2 | .undef => 3

/-- A detected uncorrectable error in the point table: recorded, Critical (12 R392). -/
def ptDue (s : State) (i : Nat) : State :=
  let s := incSatF s (Fld.MEM_DUE_DETECTED 0)
  let (sym, s) := freshFree s
  let s := setFs s [(Fld.MEM_LAST_LO_ADDR_LO, i * 4), (Fld.MEM_LAST_HI_ADDR_32, 0), (Fld.MEM_LAST_HI_REGION, 0), (Fld.MEM_LAST_HI_SYMBOL, sym % 20),
    (Fld.MEM_LAST_HI_DETECTED, 1), (Fld.MEM_LAST_HI_BY_SCRUB, 0), (Fld.MEM_LAST_HI_STUCK, 0)]
  raiseSev s .memDue 0 .critical

/-- PT_READ: the reply is the status, the effective value and the record's words, with the data as read even when an uncorrectable error is found; the
record as it stood before a write of the same fabric cycle (01 R24). -/
def execPtRead (port : Fin 16) (index : Fin 65536) (ctx : Fin 64) (due : Bool) (s : State) : Host.Outcome State Fault Refusal :=
  let r := ptSeen s index.val
  if !r.defined then done (setReply s [PtStatus.undef.code])
  else if (port = 11 || port = 12) && !ctxHolds s ctx.val index.val rightRead then
    done (setReply (deny s port.val index.val 1) [PtStatus.denied.code])
  else
    let s' := setReply s (PtStatus.ok.code :: (ptValue r).toNat :: ptWords s r)
    done (if due then ptDue s' index.val else s')

/-! ## Staleness (R38) -/

/-- The sweeper goes on to the record at `i`. A sweep visits records in ascending order, so one at or below the last ends a sweep: LAST_MS takes its duration,
never above 1,000 (Table 13; DEDUCED, log 33). -/
def sweepOn (s : State) (i : Nat) : State :=
  let now := s.el
  match s.pt.sweepFrom with
  | none => { s with pt := { s.pt with sweepFrom := some now, sweepAt := i } }
  | some t =>
    if s.pt.sweepAt < i then { s with pt := { s.pt with sweepAt := i } }
    else setF { s with pt := { s.pt with sweepFrom := some now, sweepAt := i } } Fld.PT_SWEEP_LAST_MS (satAt 1000 ((now - t) / 250000))

/-- STALE_SWEEP. -/
def execStaleSweep (index : Fin 65536) (writing : Bool) (s : State) : Host.Outcome State Fault Refusal :=
  let s := sweepOn s index.val
  let r := ptAt s index.val
  if r.defined && r.refreshLimit ≠ 0 && !writing && decide (r.refreshLimit * 1000 < ptAge s r) then
    done (commitPt s index.val r { r with staleLatch := true })
  else done s

/-! ## Forcing (R59 to R62, R153) -/

/-- The outcome of a force or release: a status, or LOCKED (R153). -/
inductive ForceResult where
  | ok | denied | undef | locked
deriving DecidableEq, Repr

/-- RESULT of PT_FCMD (02 Table 14). -/
def ForceResult.code : ForceResult → Nat
  | .ok => 0 | .denied => 2 | .undef => 3 | .locked => 2

/-- A force on the record at `i` for `tenant` (port 14) or by port 15 (R59, R61, R47). -/
def forceOp (s : State) (port15 : Bool) (i : Nat) (v : Word) (tenant : Nat) : State × ForceResult :=
  let r := ptAt s i
  let port := if port15 then 15 else 14
  if !r.defined then (s, .undef)
  else if port15 && !(modeOf s = 0 || modeOf s = 2) then (deny s port i 3, .denied)
  else if r.writerKind = .meter || r.proxy then (deny s port i 5, .denied)
  else if !port15 && !holdsRight s tenant i rightForce then (deny s port i 1, .denied)
  else if s.pt.locked.contains i then (incSatF s Fld.SCF_STAT_LOCK_REFUSALS, .locked)
  else
    let s := commitPt s i r { r with forceValue := normalise r.ty v, force := true, relPend := false }
    ({ s with pt := { s.pt with forcers := tabPut s.pt.forcers i (if port15 then 4095 else tenant) } }, .ok)

/-- A release request (R60, R61). On a record that is not forced R60 states no effect: REL_PEND is set and the status is OK (DESIGN CHOICE, log 101). -/
def releaseOp (s : State) (port15 : Bool) (i : Nat) (tenant : Nat) : State × ForceResult :=
  let r := ptAt s i
  let port := if port15 then 15 else 14
  if !r.defined then (s, .undef)
  else if port15 && !(modeOf s = 0 || modeOf s = 2) then (deny s port i 3, .denied)
  else if !port15 && !holdsRight s tenant i rightForce then (deny s port i 1, .denied)
  else (commitPt s i r { r with relPend := true }, .ok)

/-- PT_FCMD with the fields given: the fields hold the operation, its RESULT, and GO and BUSY cleared on completion (Table 14). -/
def fcmdFields (s : State) (i op : Nat) (r : ForceResult) : State :=
  setFs s [(Fld.PT_FCMD_INDEX, i), (Fld.PT_FCMD_OP, op), (Fld.PT_FCMD_RESULT, r.code), (Fld.PT_FCMD_BUSY, 0), (Fld.PT_FCMD_GO, 0)]

/-- A force through port 15, or through PT_FCMD on port 14 for `tenant`; the reply is the RESULT. -/
def forceCmd (s : State) (port15 : Bool) (i : Nat) (v : Word) (tenant : Nat) : State × ForceResult :=
  let (s, r) := forceOp s port15 i v tenant
  if port15 then (setReply s [r.code], r)
  else (setReply (fcmdFields (setFs s [(Fld.PT_FVAL_VALUE, v.toNat), (Fld.PT_FTEN_TENANT, tenant)]) i 1 r) [r.code], r)

/-- A release, as `forceCmd`. -/
def releaseCmd (s : State) (port15 : Bool) (i : Nat) (tenant : Nat) : State × ForceResult :=
  let (s, r) := releaseOp s port15 i tenant
  if port15 then (setReply s [r.code], r)
  else (setReply (fcmdFields (setF s Fld.PT_FTEN_TENANT tenant) i 2 r) [r.code], r)

/-- FORCE_SET. -/
def execForceSet (port15 : Bool) (index : Fin 65536) (value : Word) (tenant : Fin 4096) (s : State) : Host.Outcome State Fault Refusal :=
  done (forceCmd s port15 index.val value tenant.val).1

/-- FORCE_RELEASE. -/
def execForceRelease (port15 : Bool) (index : Fin 65536) (tenant : Fin 4096) (s : State) : Host.Outcome State Fault Refusal :=
  done (releaseCmd s port15 index.val tenant.val).1

/-- A pending release completes: FORCE and REL_PEND clear in one write (R60). -/
def completeRelease (s : State) (i : Nat) : State :=
  let r := ptAt s i
  if r.defined && r.relPend then
    let s := commitPt s i r { r with force := false, relPend := false }
    { s with pt := { s.pt with forcers := tabDel s.pt.forcers i } }
  else s

/-- The record is written by a task whose state code is Run: its release waits for the scatter (R60). -/
def heldForScatter (s : State) (r : PtRec) : Bool :=
  r.writerKind == .task && getF s (Fld.LE_T_STATE_STATE (r.writerId / 8 % 8) (r.writerId % 8)) == 1

/-- FORCE_RELEASE_COMPLETE: for a record whose release waits for its task's scatter the event does not occur (R60, log 2). -/
def execForceReleaseComplete (index : Fin 65536) (s : State) : Host.Outcome State Fault Refusal :=
  if heldForScatter s (ptAt s index.val) then done s else done (completeRelease s index.val)

/-- Indexes whose pending release completes at a grid tick (R60). -/
def releasesDue (s : State) : List Nat :=
  s.pt.recs.filterMap (fun kr => if kr.2.defined && kr.2.relPend && !heldForScatter s kr.2 then some kr.1 else none)

/-- Releases that complete at the grid tick. -/
def releaseTick (s : State) : State := (releasesDue s).foldl completeRelease s

/-- A scatter's writer write of one record: it completes a pending release in the same write (R60, R51). -/
def scatterWrite (s : State) (ident i : Nat) (v : Word) (q : Wq) : State :=
  let s := drainBank 16 s (subBank i)
  let r := ptAt s i
  if !r.defined then s
  else if r.writerKind = .task && r.writerId = ident then
    let r' := if r.relPend then { r with force := false, relPend := false } else r
    commitPt s i r (writerFields s r' v q)
  else deny s (writerPort s .task ident) i 0

/-- Writing 1 to PT_LOST.CLEAR. -/
def ptLostClear (s : State) : State := setFs s [(Fld.PT_LOST_COUNT, 0), (Fld.PT_LOST_LAST_PORT, 0)]
/-- Writing 1 to PT_DENY.CLEAR. -/
def ptDenyClear (s : State) : State := setFs s [(Fld.PT_DENY_COUNT, 0), (Fld.PT_DENY_LAST_PORT, 0), (Fld.PT_DENY_REASON, 0)]
/-- PT_LOST_CLEAR. -/
def execPtLostClear (s : State) : Host.Outcome State Fault Refusal := done (ptLostClear s)
/-- PT_DENY_CLEAR. -/
def execPtDenyClear (s : State) : Host.Outcome State Fault Refusal := done (ptDenyClear s)

end Sys2Proof.Machine
end

