-- ==== Sys2Proof/Machine/Field.lean ====
section
/-! DEFINITION. Machine/Field.lean: the field buses (11): field conversion, CAN transmit requests, filters, error states, rate detection, Roll Call,
Modbus lines, and GPIO entries. -/

namespace Sys2Proof.Machine

/-! ## Field conversion (R359) -/

/-- The field of an entry in data octets; none when the data are too short. -/
def rawField (e : MapEntry) (data : List Nat) : Option Nat :=
  if 8 * data.length < e.pos + e.width then none
  else if e.msbFirst then some (beOctets data / 2 ^ (8 * data.length - e.pos - e.width) % 2 ^ e.width)
  else some (leOctets data / 2 ^ e.pos % 2 ^ e.width)

/-- A field as a signed number of `w` bits. -/
def signedOf (w raw : Nat) : Int := if 2 ^ (w - 1) ≤ raw then (raw : Int) - 2 ^ w else raw

/-- What a field gives its record: value (none: kept), WQ, and whether FIELD_ERR counts. -/
def decodeField (ty : VType) (e : MapEntry) (data : List Nat) : Option Word × Wq × Bool :=
  match rawField e data with
  | none => (none, .fault, true)
  | some raw =>
    let x : Int := if e.signed then signedOf e.width raw else raw
    match ty with
    | .bool => (some (if raw = 0 then 0 else 1), .good, false)
    | .fix16 => (some (wordOfInt (signedOf 16 raw)), .good, false)
    | .real32 =>
      if e.float then (if realSpecial (Word.ofNat raw) then (none, .fault, false) else (some (Word.ofNat raw), .good, false))
      else if realSpecial e.scale || realSpecial e.offset then (some realQnan, .fault, false)
      else
        let p := realOf (mkRat x 1 * realVal e.scale) (realNeg e.scale && decide (0 ≤ x))
        (some (realAdd p.w e.offset).w, .good, false)
    | .uint32 | .ticks => if x < 0 then (some 0, .good, true) else (some (wordOfInt x), .good, false)
    | .int32 => (some (wordOfInt x), .good, false)

/-- An integer saturated to a field of `w` bits, and whether it was outside. -/
def saturateField (w : Nat) (signed : Bool) (x : Int) : Nat × Bool :=
  let lo : Int := if signed then -(2 ^ (w - 1)) else 0
  let hi : Int := if signed then 2 ^ (w - 1) - 1 else 2 ^ w - 1
  let y := max lo (min hi x)
  ((y % 2 ^ w).toNat, decide (y ≠ x))

/-- The field that a value is sent as, and whether FIELD_ERR counts. A quotient by a SCALE of zero is infinite, 0 / 0 is a NaN (log 23). -/
def encodeField (ty : VType) (e : MapEntry) (v : Word) : Nat × Bool :=
  let top (neg : Bool) : Int := if neg then -(2 ^ 40) else 2 ^ 40
  match ty with
  | .bool => saturateField e.width e.signed (if v = 0 then 0 else 1)
  | .int32 => saturateField e.width e.signed v.toInt
  | .uint32 | .ticks => saturateField e.width e.signed v.toNat
  | .fix16 => saturateField e.width true v.toInt
  | .real32 =>
    if e.float then (if realNan v then (0, true) else (v.toNat, false))
    else if realNan v || realNan e.scale || realNan e.offset || (realInf v && realInf e.offset && realNeg v == realNeg e.offset)
      || (realInf e.scale && (realInf v || realInf e.offset)) then (0, true)
    else if realInf v then saturateField e.width e.signed (top (realNeg v != realNeg e.scale))
    else if realInf e.offset then saturateField e.width e.signed (top (realNeg e.offset == realNeg e.scale))
    else if realInf e.scale then (0, false)
    else
      let d := realVal v - realVal e.offset
      if realVal e.scale = 0 then
        (if d = 0 then (0, true) else saturateField e.width e.signed (top ((decide (d < 0)) != realNeg e.scale)))
      else saturateField e.width e.signed (ratRound (d / realVal e.scale))

/-- Octet-wise sum of two lists of one length. -/
def addOctets (a b : List Nat) : List Nat := List.zipWith (· + ·) a b

/-- A field put into `n` octets that are zero elsewhere. -/
def putField (n : Nat) (e : MapEntry) (raw : Nat) : List Nat :=
  if e.msbFirst then (octetsLe n (raw * 2 ^ (8 * n - e.pos - e.width))).reverse else octetsLe n (raw * 2 ^ e.pos)

/-- The lengths of a CAN FD frame's data. -/
def fdLengths : List Nat := [0, 1, 2, 3, 4, 5, 6, 7, 8, 12, 16, 20, 24, 32, 48, 64]

/-- Length of an output frame (R344). -/
def frameLen (es : List (Nat × MapEntry)) : Nat :=
  let dlc := match es with | (_, e) :: _ => e.dlc | [] => 0
  let need : Nat := es.foldl (fun m kv => max m ((kv.2.pos + kv.2.width + 7) / 8)) 0
  if dlc ≠ 0 then dlc else (fdLengths.find? (fun l => decide (need ≤ l))).getD 64

/-- The value an output entry is sent with: as read at the latest grid tick. -/
def outValue (s : State) (e : MapEntry) : Word := e.latest.getD (ptValue (ptAt s e.index))

/-- The octets of an output frame, and the number of its FIELD_ERR. -/
def packFrame (s : State) (es : List (Nat × MapEntry)) (n : Nat) : List Nat × Nat :=
  es.foldl (fun a kv =>
    let f := encodeField (ptAt s kv.2.index).ty kv.2 (outValue s kv.2)
    (addOctets a.1 (putField n kv.2 f.1), a.2 + b2n f.2)) (List.replicate n 0, 0)

/-- The entries' values are those of the last request loaded. -/
def markLoaded (s : State) (es : List (Nat × MapEntry)) : State :=
  es.foldl (fun s kv => mapMap s kv.1 (fun e => { e with loaded := some (outValue s e) })) s

/-! ## CAN transmit requests (R343 to R348) -/

/-- STATE of a channel: 0 error active, 1 error passive, 2 bus-off, 3 disabled. -/
def canStatus (s : State) (n : Nat) : Nat := getF s (Fld.CANn_STAT_STATE n)
/-- The channel is on the bus: enabled, neither in bus-off nor in rate detection. -/
def canOn (s : State) (n : Nat) : Bool := feRuns s && decide (canStatus s n < 2) && (canAt s n).detect.isNone && !(canAt s n).leaving
/-- The channel may send. -/
def canSends (s : State) (n : Nat) : Bool := canOn s n && !getB s (Fld.CANn_CFG_LISTEN n)
/-- Roll Call is enabled. -/
def rcOn (s : State) (n : Nat) : Bool := getB s (Fld.CANn_RC_CFG_EN n)

/-- A request of the frame is pending. -/
def reqPending (s : State) (n key : Nat) : Bool := ((canAt s n).reqs ++ (canAt s n).bufs).any (fun r => r.key == key)

/-- A transmit request is created for a frame that has none (R343). -/
def createReq (s : State) (n key : Nat) : State :=
  if reqPending s n key then s
  else mapCan (canCount s n 8) n (fun x =>
    { x with reqs := x.reqs ++ [{ key := key }], frames := tabPut x.frames key { createdAt := some s.mono, owed := false } })

/-- The frame's node is present, or outside Roll Call. -/
def nodeReady (s : State) (n key : Nat) : Bool :=
  let k := frameNode s n key
  k == 0 || (match tabGet? (canAt s n).nodes k with | some d => d.st == 3 | none => false)

/-- A case of R343 holds: a value differs from the last one loaded, the period has elapsed, or the frame is owed a request. -/
def frameDue (s : State) (n key : Nat) : Bool :=
  let es := frameEntries s n key
  let o := tabGet {} (canAt s n).frames key
  let period := match es with | (_, e) :: _ => e.period | [] => 0
  o.owed || es.any (fun kv => kv.2.loaded != some (outValue s kv.2))
    || (decide (period ≠ 0) && (match o.createdAt with | some m => decide (m + 4 * period ≤ s.mono) | none => true))

/-- FE's grid tick on a channel (R343). -/
def canTick (s : State) (n : Nat) : State :=
  if canSends s n then
    (frameKeys s n).foldl (fun s key => if nodeReady s n key && frameDue s n key then createReq s n key else s) s
  else s

/-- Rank on the bus (R345): base identifier, base before extended, extension. -/
def busRank (key : Nat) : Nat :=
  let ident := key % 2 ^ 29
  if bitOf key 29 then ident / 2 ^ 18 * 2 ^ 19 + 2 ^ 18 + ident % 2 ^ 18 else ident * 2 ^ 19

/-- The request of lowest rank, the first among equals. -/
def bestReq : List CanReq → Option CanReq
  | [] => none
  | r :: t => match bestReq t with
    | none => some r
    | some b => if busRank b.key < busRank r.key then some b else some r

/-- The buffered request of highest rank number that is not in transmission. -/
def worstReq (l : List CanReq) : Option CanReq :=
  (l.filter (fun r => !r.onBus)).foldl (fun a r => match a with
    | none => some r
    | some b => if busRank b.key ≤ busRank r.key then some r else some b) none

/-- The request that leaves next: by rank or by order. -/
def nextReq (s : State) (n : Nat) (l : List CanReq) : Option CanReq := if getB s (Fld.CANn_CFG_TXORDER n) then l.head? else bestReq l

/-- A request enters a buffer: its frame is packed (R344). -/
def loadReq (s : State) (n : Nat) (r : CanReq) : State :=
  let es := frameEntries s n r.key
  let p := packFrame s es (frameLen es)
  let brs := match es with | (_, e) :: _ => e.brs | [] => false
  let s := markLoaded (canCount s n 5 p.2) es
  mapCan s n (fun x => { x with reqs := x.reqs.filter (fun q => q.key != r.key), bufs := x.bufs ++ [{ r with data := p.1, brs := brs }] })

/-- The buffered request in transmission, else the one that the controller transmits first. -/
def txReq (s : State) (n : Nat) : Option CanReq :=
  match (canAt s n).bufs.find? (fun r => r.onBus) with
  | some r => some r
  | none => nextReq s n (canAt s n).bufs

/-- The controller begins a buffered frame, if none is on the bus. -/
def beginTx (s : State) (n : Nat) (begins : Bool) : State :=
  match txReq s n with
  | some r => if begins && canSends s n then mapCan s n (fun x => { x with bufs := x.bufs.map (fun q => if q.key = r.key then { q with onBus := true } else q) }) else s
  | none => s

/-- One request enters the buffers, by exchange where it outranks a buffered one (R345). -/
def loadOne (s : State) (n : Nat) : State :=
  match nextReq s n (canAt s n).reqs with
  | none => s
  | some r =>
    if forcedOnce s .canReqFailed n then raise (useForce (endReq (markLoaded s (frameEntries s n r.key)) n r .failed)) .canReqFailed n
    else if (canAt s n).bufs.length < 3 then loadReq s n r
    else if getB s (Fld.CANn_CFG_TXORDER n) then s
    else match worstReq (canAt s n).bufs with
      | some w =>
        if busRank r.key < busRank w.key then
          loadReq (mapCan s n (fun x =>
            { x with bufs := x.bufs.filter (fun q => q.key != w.key), reqs := x.reqs ++ [{ w with data := [], brs := false }] })) n r
        else s
      | none => s

/-- CAN_TX_LOAD. -/
def execCanTxLoad (n : Fin 12) (begins : Bool) (s : State) : Host.Outcome State Fault Refusal :=
  if canSends s n.val then done (beginTx (loadOne (cross s dcqFieldTx) n.val) n.val begins) else done s

/-- The channel is off the bus: disabled and idle (R351, R368). -/
def canOffNow (s : State) (n : Nat) : State :=
  setFs (mapCan s n (fun x => { x with leaving := false, recovering := false, detect := none }))
    [(Fld.CANn_STAT_STATE n, 3), (Fld.CANn_STAT_IDLE n, 1), (Fld.CANn_STAT_DETECTING n, 0)]

/-- A channel that waits to leave has no frame on the bus any more. -/
def canLeft (s : State) (n : Nat) : State := if (canAt s n).leaving && (canAt s n).bufs.isEmpty then canOffNow s n else s

/-- Error passive ends when both counters are below 128 (R352). -/
def canCalm (s : State) (n : Nat) : State :=
  if canStatus s n = 1 && decide (getF s (Fld.CANn_STAT_TEC n) < 128) && decide (getF s (Fld.CANn_STAT_REC n) < 128) then
    setF s (Fld.CANn_STAT_STATE n) 0 else s

/-- The channel has a frame that can be on the bus. -/
def canTransmits (s : State) (n : Nat) : Bool := feRuns s && decide (canStatus s n < 2)

/-- CAN_TX_DONE. -/
def execCanTxDone (n : Fin 12) (begins : Bool) (s : State) : Host.Outcome State Fault Refusal :=
  match txReq s n.val with
  | some r =>
    if !canTransmits s n.val then done s
    else
      let s := setF s (Fld.CANn_STAT_TEC n.val) (getF s (Fld.CANn_STAT_TEC n.val) - 1)
      let s := sendMsg (endReq s n.val r .sent) (.note "CAN frame" ([n.val, r.key, b2n r.brs] ++ r.data))
      done (beginTx (canLeft (canCalm s n.val) n.val) n.val begins)
  | none => done s

/-- The attempt of request `r` is lost to an error (R346). -/
def attemptLost (s : State) (n : Nat) (r : CanReq) : State :=
  let retry := getF s (Fld.CANn_CFG_RETRY n)
  if r.flush then endReq s n r .flushed
  else if retry ≠ 0 && decide (retry ≤ r.errs + 1) then raise (endReq s n r .failed) .canReqFailed n
  else mapCan s n (fun x => { x with bufs := x.bufs.map (fun q => if q.key = r.key then { q with errs := q.errs + 1, onBus := false } else q) })

/-- CAN_TX_ERROR: the transmit error counter rises by 8, but not for a missing acknowledgement while error passive (ISO 11898-1, log 24). -/
def execCanTxError (n : Fin 12) (ackOnly begins : Bool) (s : State) : Host.Outcome State Fault Refusal :=
  match txReq s n.val with
  | some r =>
    if !canTransmits s n.val then done s
    else
      let tec := getF s (Fld.CANn_STAT_TEC n.val)
      let s := if ackOnly && canStatus s n.val = 1 then s else setF s (Fld.CANn_STAT_TEC n.val) (satAt 511 (tec + 8))
      done (beginTx (canLeft (attemptLost s n.val r) n.val) n.val begins)
  | none => done s

/-! ## Inputs and outputs of a channel -/

/-- Every CAN_IN record of the channel is written ABSENT, its value kept. -/
def canInsAbsent (s : State) (n : Nat) : State := (entriesOf s .canIn n).foldl (fun s kv => writerQuality s .field n kv.2.index .absent) s
/-- Every output frame of the channel takes UNDELIV. -/
def canOutsUndeliv (s : State) (n : Nat) : State := (frameKeys s n).foldl (fun s key => frameUndeliv s n key true) s

/-- FE sends a Roll Call frame from its own slot (R353, R354). -/
def rcSend (s : State) (n fn node arg : Nat) (data : List Nat) : State :=
  if canSends s n then
    sendMsg s (.note "Roll Call" ([n, getF s (Fld.CANn_RC_CFG_PREFIX n) * 2 ^ 20 + fn * 2 ^ 16 + node * 2 ^ 8 + arg] ++ data))
  else s
/-- FE sends CALL. -/
def rcCall (s : State) (n : Nat) : State := if rcOn s n then rcSend (startTime s (tmCall n)) n 0 0 0 [] else s

/-- Each frame that `p` picks receives one request. -/
def requestAll (s : State) (n : Nat) (p : Nat → Bool) : State :=
  if canSends s n then (frameKeys s n).foldl (fun s key => if p key then createReq s n key else s) s else s

/-- The channel integrates into the bus (R351): frames outside Roll Call receive one request, CALL is sent. -/
def canOnline (s : State) (n : Nat) : State :=
  let s := setFs (mapCan s n (fun x => { x with leaving := false, recovering := false }))
    [(Fld.CANn_STAT_STATE n, 0), (Fld.CANn_STAT_IDLE n, 0), (Fld.CANn_STAT_TEC n, 0), (Fld.CANn_STAT_REC n, 0)]
  rcCall (requestAll s n (fun key => frameNode s n key = 0)) n

/-- The channel leaves the bus (R351), at once or at the end of the frame in progress. -/
def canLeave (s : State) (n : Nat) : State :=
  let s := canOutsUndeliv (canInsAbsent (flushReqs s n) n) n
  if (canAt s n).bufs.isEmpty then canOffNow s n else mapCan s n (fun x => { x with leaving := true, detect := none, recovering := false })

/-! ## Receiving (R349, R350) -/

/-- The filter that takes a frame: filter 63 first for Roll Call frames, then the enabled filters in ascending order. -/
def filterOf (s : State) (n ident : Nat) (ide fdf : Bool) : Option Nat :=
  if rcOn s n && ide && !fdf && ident / 2 ^ 20 = getF s (Fld.CANn_RC_CFG_PREFIX n) then some 63
  else (List.range (if rcOn s n then 63 else 64)).find? (fun k =>
    let m := getF s (Fld.CANn_FMASK_MASK n k)
    getB s (Fld.CANn_FID_EN n k) && getB s (Fld.CANn_FID_IDE n k) == ide && (ident &&& m) == (getF s (Fld.CANn_FID_ID n k) &&& m))

/-! ## Roll Call (R353 to R356) -/

/-- Changes a bound node. -/
def mapNode (s : State) (n k : Nat) (f : CanNode → CanNode) : State :=
  mapCan s n (fun x => match tabGet? x.nodes k with | some d => { x with nodes := tabPut x.nodes k (f d) } | none => x)

/-- Microseconds of grid time elapsed, never stepped. -/
def elapsedUs (s : State) : Nat := s.el / 250

/-- A present node is declared absent (R356). -/
def absentNode (s : State) (n k : Nat) : State :=
  let s := mapNode s n k (fun d => { d with st := 1 })
  let s := ((entriesOf s .canIn n).filter (fun kv => kv.2.node == k)).foldl (fun s kv => writerQuality s .field n kv.2.index .absent) s
  let s := ((frameKeys s n).filter (fun key => frameNode s n key == k)).foldl (fun s key => frameUndeliv s n key true) s
  raise s .rcEvent n

/-- The lowest free node number from 1 to 127. -/
def freeNode (x : CanState) : Option Nat := ((List.range 127).map (· + 1)).find? (fun k => (tabGet? x.nodes k).isNone)

/-- FE answers an ANSWER (R354). -/
def rollAnswer (s : State) (n uid : Nat) : State :=
  let assign (s : State) (k hb : Nat) : State :=
    mapNode (rcSend s n 2 k hb (octetsLe 8 uid)) n k (fun d => if d.st = 3 then d else { d with st := 2 })
  let refuse (s : State) : State :=
    raise (incSatF (setFs s [(Fld.CANn_RC_NEW_LO_UID n, uid % 2 ^ 32), (Fld.CANn_RC_NEW_HI_UID n, uid / 2 ^ 32)]) (Fld.CANn_RC_STAT_REFUSED n)) .rcEvent n
  if !canSends s n || !rcOn s n then s
  else match (canAt s n).nodes.find? (fun kv => kv.2.uid == uid) with
    | some (k, d) => assign s k d.hb
    | none =>
      if getB s (Fld.CANn_RC_CFG_LEARN n) && modeOf s = 0 then
        match freeNode (canAt s n) with
        | some k => assign (mapCan s n (fun x => { x with nodes := tabPut x.nodes k { uid := uid, hb := 10, learned := true } })) k 10
        | none => refuse s
      else refuse s

/-- A PRESENT arrives (R355). -/
def rollPresent (s : State) (n k status uid : Nat) : State :=
  if !canOn s n || !rcOn s n || forced s .rcEvent n then s
  else
    let bound := match tabGet? (canAt s n).nodes k with | some d => d.uid == uid | none => false
    if !bound then raise (rcSend s n 5 k 0 []) .rcEvent n
    else
      let back := match tabGet? (canAt s n).nodes k with | some d => d.st != 3 | none => false
      let s := mapNode s n k (fun d => { d with st := 3, status := status, last := some (elapsedUs s) })
      if back then mapCan s n (fun x =>
        { x with frames := ((frameKeys s n).filter (fun key => frameNode s n key == k)).foldl (fun f key =>
            tabPut f key { tabGet ({} : CanOut) f key with owed := true }) x.frames })
      else s

/-- A LEAVE arrives (R356). -/
def rollLeave (s : State) (n k uid : Nat) : State :=
  if !canOn s n || !rcOn s n then s
  else match tabGet? (canAt s n).nodes k with
    | some d => if d.st = 3 && d.uid = uid then absentNode s n k else s
    | none => s

/-- A frame in the Roll Call FIFO (R353): another function or length is discarded. -/
def rollFrame (s : State) (n ident : Nat) (data : List Nat) : State :=
  let node := bitsOf ident 8 8
  let arg := bitsOf ident 0 8
  if data.length ≠ 8 then s
  else match bitsOf ident 16 4 with
    | 1 => rollAnswer s n (leOctets data)
    | 3 => rollPresent s n node arg (leOctets data)
    | 4 => rollLeave s n node (leOctets data)
    | _ => s

/-- ANSWER. -/
def execAnswer (n : Fin 12) (uid : BitVec 64) (s : State) : Host.Outcome State Fault Refusal := done (rollAnswer s n.val uid.toNat)
/-- PRESENT. -/
def execPresent (n : Fin 12) (node status : Fin 256) (uid : BitVec 64) (s : State) : Host.Outcome State Fault Refusal :=
  done (rollPresent s n.val node.val status.val uid.toNat)
/-- LEAVE. -/
def execLeave (n : Fin 12) (node : Fin 256) (uid : BitVec 64) (s : State) : Host.Outcome State Fault Refusal :=
  done (rollLeave s n.val node.val uid.toNat)
/-- ROLL_CALL_TIMER: CALL_PERIOD seconds after the last CALL (R354). -/
def execRollCallTimer (n : Fin 12) (s : State) : Host.Outcome State Fault Refusal :=
  done (if timeRan s (tmCall n.val) (getF s (Fld.CANn_RC_CFG_CALL_PERIOD n.val) * 1000 * msCycles) then rcCall s n.val else s)

/-- No valid PRESENT has arrived for HB_MISS heartbeat periods of 100 ms × its binding's (R356). -/
def heartbeatMissed (s : State) (n : Nat) (d : CanNode) : Bool :=
  match d.last with | some m => decide (m + getF s (Fld.CANn_RC_CFG_HB_MISS n) * d.hb * 100000 ≤ elapsedUs s) | none => true

/-- NODE_HEARTBEAT_MISS. -/
def execNodeHeartbeatMiss (n : Fin 12) (node : Fin 128) (s : State) : Host.Outcome State Fault Refusal :=
  match tabGet? (canAt s n.val).nodes node.val with
  | some d => if d.st = 3 && feRuns s && heartbeatMissed s n.val d then done (absentNode s n.val node.val) else done s
  | none => done s

/-! ## CAN_FRAME_RX -/

/-- One CAN_IN entry takes a frame's data (R350, R359). -/
def canInWrite (s : State) (n : Nat) (data : List Nat) (e : MapEntry) : State :=
  let d := decodeField (ptAt s e.index).ty e data
  let s := if d.2.2 then canCount s n 5 else s
  match d.1 with
  | some v => writerWrite s .field n e.index v d.2.1
  | none => writerQuality s .field n e.index d.2.1

/-- FE serves one received frame (R350). -/
def serveRx (s : State) (n : Nat) (x : CanRx) : State :=
  if x.filter = 63 && rcOn s n then rollFrame s n x.ident x.data
  else ((entriesOf s .canIn n).filter (fun kv => kv.2.filter == x.filter && kv.2.key == canKey x.ident x.ide x.fdf)).foldl
    (fun s kv => canInWrite (startTime s (tmCanIn kv.1)) n x.data kv.2) s

/-- FE serves the FIFOs of a channel, FIFO 0 first. -/
def serveCan (s : State) (n : Nat) : State :=
  let x := canAt s n
  (x.fifo0 ++ x.fifo1).foldl (fun s f => serveRx s n f) (mapCan s n (fun x => { x with fifo0 := [], fifo1 := [] }))

/-- A frame finds its FIFO full: a Note fault at most once per second (R350). -/
def rxOverflow (s : State) (n : Nat) : State :=
  let s := canCount s n 2
  let due := match (canAt s n).ovfAt with | some m => decide (m + 4000 ≤ s.mono) | none => true
  if due then raise (mapCan s n (fun x => { x with ovfAt := some s.mono })) .canRxOvf n else s

/-- A frame received without error lowers the receive error counter by 1; above 127 it takes a value from 119 to 127 (ISO 11898-1, log 24). -/
def recDown (s : State) (n : Nat) : State :=
  let rec_ := getF s (Fld.CANn_STAT_REC n)
  if 127 < rec_ then
    let (v, s) := freshFree s
    canCalm (setF s (Fld.CANn_STAT_REC n) (119 + v % 9)) n
  else setF s (Fld.CANn_STAT_REC n) (rec_ - 1)

/-- A matched frame enters the FIFO that its filter names. -/
def rxEnter (s : State) (n : Nat) (x : CanRx) : State :=
  let one := x.filter = 63 && rcOn s n || getB s (Fld.CANn_FID_FIFO n x.filter)
  let level := if one then (canAt s n).fifo1.length else (canAt s n).fifo0.length
  if 64 ≤ level || (!one && forced s .canRxOvf n) then rxOverflow s n
  else mapCan (canCount s n 0) n (fun c => if one then { c with fifo1 := c.fifo1 ++ [x] } else { c with fifo0 := c.fifo0 ++ [x] })

/-- CAN_FRAME_RX. -/
def execCanFrameRx (n : Fin 12) (ident : Fin 0x20000000) (ide remote fdf : Bool) (data : List Nat) (behind : Bool) (s : State) :
    Host.Outcome State Fault Refusal :=
  if !canOn s n.val then done s
  else if fdf && !getB s (Fld.CANn_CFG_FD_EN n.val) then done (canCount s n.val 4)
  else
    let s := recDown s n.val
    if remote then done (canCount s n.val 3)
    else match filterOf s n.val ident.val ide fdf with
      | none => done (canCount s n.val 1)
      | some k =>
        let s := rxEnter (cross s dcqFieldRx) n.val { filter := k, ident := ident.val, ide := ide, fdf := fdf, data := data }
        done (if behind then s else serveCan s n.val)

/-- CAN_IN_TIMEOUT: the entry's frame has not arrived for TIMEOUT_MS (R351). -/
def execCanInTimeout (number : Fin 4096) (s : State) : Host.Outcome State Fault Refusal :=
  match mapEnt? s number.val with
  | some e =>
    if e.kind = .canIn && e.node = 0 && e.timeout ≠ 0 && feRuns s && timeRan s (tmCanIn number.val) (e.timeout * msCycles) then done (writerQuality s .field e.channel e.index .absent) else done s
  | none => done s

/-! ## Error states (R352) -/

/-- Channel `n` becomes error passive where a counter has reached 128. -/
def errorPassive (s : State) (n rec_ : Nat) : State :=
  let s' := setF s (Fld.CANn_STAT_REC n) rec_
  if canTransmits s n && canStatus s n = 0 && (decide (128 ≤ getF s (Fld.CANn_STAT_TEC n)) || decide (128 ≤ rec_)) then
    raise (canCount (setF s' (Fld.CANn_STAT_STATE n) 1) n 6) .canPassive n
  else s

/-- CAN_ERROR_PASSIVE. -/
def execCanErrorPassive (n : Fin 12) (rec_ : Fin 256) (s : State) : Host.Outcome State Fault Refusal := done (errorPassive s n.val rec_.val)

/-- Channel `n` enters bus-off: a Degraded fault, its requests end BUSOFF, present nodes are absent. -/
def busOff (s : State) (n : Nat) : State :=
  if !canTransmits s n then s
  else
    let s := canCount (maxF (setF s (Fld.CANn_STAT_STATE n) 2) (Fld.CANn_STAT_TEC n) 256) n 7
    let s := canInsAbsent (endAll (raise s .canBusoff n) n .busoff) n
    let s := ((canAt s n).nodes.filter (fun kv => kv.2.st == 3)).foldl (fun s kv => absentNode s n kv.1) s
    let s := mapCan s n (fun x => { x with recovering := getB s (Fld.CANn_CFG_AUTO_RECOVER n) })
    canLeft s n

/-- CAN_BUSOFF. -/
def execCanBusoff (n : Fin 12) (s : State) : Host.Outcome State Fault Refusal := done (busOff s n.val)

/-- CAN_RECOVERED: the channel is error active; frames of present nodes and of NODE = 0 receive one request. -/
def execCanRecovered (n : Fin 12) (s : State) : Host.Outcome State Fault Refusal :=
  let n := n.val
  if feRuns s && canStatus s n = 2 && (canAt s n).recovering then
    let s := setFs (mapCan s n (fun x => { x with recovering := false }))
      [(Fld.CANn_STAT_STATE n, 0), (Fld.CANn_STAT_TEC n, 0), (Fld.CANn_STAT_REC n, 0)]
    done (requestAll s n (fun key => nodeReady s n key))
  else done s

/-! ## Channel commands (R342, R351, R352, R368, R370) -/

/-- The fields of CANn_CMD after a command. -/
def canFields (s : State) (n op result : Nat) : State :=
  setFs s [(Fld.CANn_CMD_OP n, op), (Fld.CANn_CMD_RESULT n, result), (Fld.CANn_CMD_BUSY n, 0), (Fld.CANn_CMD_GO n, 0)]

/-- Rate detection starts (R342). -/
def detectStart (s : State) (n : Nat) : State :=
  let s := canOutsUndeliv (canInsAbsent (flushReqs s n) n) n
  setFs (mapCan (startTime s (tmDetect n)) n (fun x => { x with detect := some (false, 1) }))
    [(Fld.CANn_STAT_DETECTING n, 1), (Fld.CANn_STAT_IDLE n, 0), (Fld.CANn_ABR_NOM n, 0), (Fld.CANn_ABR_DATA n, 0), (Fld.CANn_ABR_DONE n, 0),
     (Fld.CANn_ABR_FOUND n, 0), (Fld.CANn_ABR_FRAMES n, 0)]

/-- A command of CANn_CMD. -/
def canCmd (s : State) (n op : Nat) : State :=
  if !feRuns s then canFields s n op 1
  else match op with
  | 1 => if canStatus s n = 2 then mapCan (canFields s n 1 0) n (fun x => { x with recovering := true }) else canFields s n 1 1
  | 2 =>
    let s := mapCan (canFields s n 2 0) n (fun x => { x with off := true })
    if canStatus s n = 3 && (canAt s n).detect.isNone then s else canLeave s n
  | 3 =>
    if !getB s (Fld.CANn_CFG_EN n) then canFields s n 3 1
    else
      let s := mapCan (canFields s n 3 0) n (fun x => { x with off := false })
      if canStatus s n = 3 && (canAt s n).detect.isNone then canOnline s n else mapCan s n (fun x => { x with leaving := false })
  | 4 =>
    if (!getB s (Fld.CANn_CFG_EN n) || getB s (Fld.CANn_CFG_LISTEN n)) && !(canAt s n).leaving then detectStart (canFields s n 4 0) n
    else canFields s n 4 1
  | 7 => (List.range 8).foldl (fun s i => setF s (Fld.CANn_CNT_COUNT n i) 0) (canFields s n 7 0)
  | _ => canFields s n op 1

/-- CAN_RECOVER. -/
def execCanRecover (n : Fin 12) (s : State) : Host.Outcome State Fault Refusal := done (canCmd s n.val 1)
/-- CAN_DISABLE. -/
def execCanDisable (n : Fin 12) (s : State) : Host.Outcome State Fault Refusal := done (canCmd s n.val 2)
/-- CAN_ENABLE. -/
def execCanEnable (n : Fin 12) (s : State) : Host.Outcome State Fault Refusal := done (canCmd s n.val 3)
/-- CAN_DETECT. -/
def execCanDetect (n : Fin 12) (s : State) : Host.Outcome State Fault Refusal := done (canCmd s n.val 4)
/-- CAN_CLEAR_COUNTERS. -/
def execCanClearCounters (n : Fin 12) (s : State) : Host.Outcome State Fault Refusal := done (canCmd s n.val 7)

/-- Rate detection ends. -/
def detectEnd (s : State) (n : Nat) (found : Bool) : State :=
  setFs (mapCan s n (fun x => { x with detect := none }))
    [(Fld.CANn_STAT_DETECTING n, 0), (Fld.CANn_STAT_IDLE n, if canStatus s n = 3 then 1 else 0), (Fld.CANn_ABR_DONE n, 1), (Fld.CANn_ABR_FOUND n, b2n found)]

/-- DETECT_CANDIDATE_END: nominal candidates cycle until one passes or 10 s are over; then data candidates, on FD
frames with BRS, for at most 1 s (R342). -/
def execDetectCandidateEnd (n : Fin 12) (frames : Fin 65536) (passed brs : Bool) (s : State) : Host.Outcome State Fault Refusal :=
  let n := n.val
  match (canAt s n).detect with
  | none => done s
  | some (phase, c) =>
    let s := incSatF s (Fld.CANn_ABR_FRAMES n) frames.val
    let next (p : Bool) (k : Nat) : State := mapCan s n (fun x => { x with detect := some (p, k) })
    let timeUp := timeRan s (tmDetect n) ((if phase then 1000 else 10000) * msCycles)
    if !phase then
      if passed then done (startTime (setF (next true 1) (Fld.CANn_ABR_NOM n) c) (tmDetect n))
      else if timeUp then done (detectEnd s n false)
      else done (next false (c % 9 + 1))
    else if passed && brs then done (detectEnd (setF s (Fld.CANn_ABR_DATA n) c) n true)
    else if timeUp then done (detectEnd s n true)
    else done (next true (c % 4 + 1))

/-- CAN_AUDIT (R347). -/
def execCanAudit (n : Fin 12) (s : State) : Host.Outcome State Fault Refusal :=
  let n := n.val
  if !feRuns s || s.tick % 4000 ≠ 0 then done s
  else
    let (o, s) := takeOffset s .canAudit n
    let c (i : Nat) : Nat := getF s (Fld.CANn_CNT_COUNT n i)
    if (c 9 + c 10 + c 11 + c 12 + txPending s n + o) % 2 ^ 32 = c 8 then done s
    else done (raise (latchF s (Fld.CANn_STAT_AUDIT_FAIL n) 1) .canAudit n)

/-! ## Modbus lines (R361 to R366) -/

/-- CRC-16 of Modbus: polynomial 0xA001, reflected, initial value 0xFFFF. -/
def crc16Shift : Nat → Nat → Nat
  | 0, c => c
  | k + 1, c => crc16Shift k (if c % 2 = 1 then c / 2 ^^^ 0xA001 else c / 2)
/-- Over octets. -/
def crc16From : List Nat → Nat → Nat
  | [], c => c
  | b :: t, c => crc16From t (crc16Shift 8 (c ^^^ (b % 256)))
/-- The CRC of a frame. -/
def crc16 (l : List Nat) : Nat := crc16From l 0xFFFF

/-- The line is on. -/
def uartOn (s : State) (u : Nat) : Bool := feRuns s && !getB s (Fld.UARTn_STAT_IDLE u)
/-- A station's record. -/
def stationAt (s : State) (u st : Nat) : MbStation := tabGet {} (uartAt s u).stations st
/-- Changes it. -/
def mapStation (s : State) (u st : Nat) (f : MbStation → MbStation) : State :=
  mapUart s u (fun x => { x with stations := tabSet {} x.stations st (f (tabGet {} x.stations st)) })

/-- Coils or inputs, rather than registers. -/
def isBits (fn : Nat) : Bool := fn = 1 || fn = 2 || fn = 5
/-- Registers, or bits, that an entry spans. -/
def MapEntry.span (e : MapEntry) : Nat := if isBits e.fn then e.pos + e.width else (e.pos + e.width + 15) / 16

/-- Sort key of a read entry: station, function, period, address. -/
def MapEntry.pollKey (e : MapEntry) : Nat := ((e.node * 256 + e.fn) * 65536 + e.period) * 65536 + e.addr

/-- Insertion by that key. -/
def insertPoll (x : Nat × MapEntry) : List (Nat × MapEntry) → List (Nat × MapEntry)
  | [] => [x]
  | y :: t => if x.2.pollKey ≤ y.2.pollKey then x :: y :: t else y :: insertPoll x t

/-- The entry joins the group: one station, function and period, within the span that R364 gives. -/
def joins (lead : MapEntry) (e : MapEntry) : Bool :=
  e.pollKey / 65536 == lead.pollKey / 65536 && decide (e.addr + e.span ≤ lead.addr + (if isBits lead.fn then 2000 else 125))

/-- Read groups, formed from the lowest address up (R364, log 25). -/
def groupPolls (l : List (Nat × MapEntry)) : List (List (Nat × MapEntry)) :=
  (l.foldl (fun a x => match a with
    | (y :: g) :: t => (match (y :: g).getLast? with
        | some lead => if joins lead.2 x.2 then (x :: y :: g) :: t else [x] :: (y :: g) :: t
        | none => [x] :: t)
    | t => [x] :: t) []).map List.reverse

/-- Read groups of a UART. -/
def pollGroups (s : State) (u : Nat) : List (List (Nat × MapEntry)) := groupPolls ((entriesOf s .mbRead (uartWriter u)).foldr insertPoll [])

/-- The read group with an entry. -/
def groupWith (s : State) (u number : Nat) : List (Nat × MapEntry) := ((pollGroups s u).find? (fun g => g.any (fun kv => kv.1 == number))).getD []

/-- MB_POLL_DUE: the group of an entry joins the due reads, once, at each of its periods; none while its station is absent. -/
def execMbPollDue (number : Fin 4096) (s : State) : Host.Outcome State Fault Refusal :=
  match mapEnt? s number.val with
  | some e =>
    let u := e.channel - 16
    match groupWith s u number.val with
    | (lead, _) :: _ =>
      if e.kind = .mbRead && uartOn s u && !(stationAt s u e.node).absent && !(uartAt s u).due.contains lead
          && timeRan s (tmPoll lead) (e.period * msCycles) then
        done (mapUart (startTime s (tmPoll lead)) u (fun x => { x with due := x.due ++ [lead] }))
      else done s
    | [] => done s
  | none => done s

/-- High and low octet. -/
def hiLo (n : Nat) : List Nat := [n / 256 % 256, n % 256]

/-- Bits of a character: start, data, parity, stop (R361). -/
def charBits (s : State) (u : Nat) : Nat := 9 + b2n (getF s (Fld.UARTn_CFG_PARITY u) ≠ 0) + 1 + b2n (getB s (Fld.UARTn_CFG_STOP2 u))

/-- Fabric cycles of 250 MHz in `n` bit times: a bit is 8 × (DIV + FRAC / 16) periods of 80 MHz (R361), 25 × (DIV + FRAC / 16) fabric cycles. -/
def bitCycles (s : State) (u n : Nat) : Nat := (n * (16 * getF s (Fld.UARTn_BAUD_DIV u) + getF s (Fld.UARTn_BAUD_FRAC u)) * 25 + 15) / 16

/-- How long Un_DE is asserted for a frame of `n` octets: one bit before the start bit until DE_HOLD bits after the last stop bit (R362). -/
def deCycles (s : State) (u n : Nat) : Nat := bitCycles s u (1 + n * charBits s u + getF s (Fld.UARTn_CFG_DE_HOLD u))

/-- A silence of at least t3.5 has passed since the last stop bit of the line's own last frame, so that the next frame is one of its own (R363); a
response is given ended by that silence. -/
def lineQuiet (s : State) (u : Nat) : Bool :=
  match (uartAt s u).deUntil with
  | none => true
  | some t => decide (t + usCycles * (gapUs s u).2 ≤ s.el + bitCycles s u (getF s (Fld.UARTn_CFG_DE_HOLD u)))

/-- A request is put on the line with its CRC, with Un_DE asserted (R362, R363). -/
def mbTransmit (s : State) (u : Nat) (pdu : List Nat) : State :=
  let c := crc16 pdu
  let s := mapUart (uartCount (startTime s (tmMb u)) u 0) u (fun x => { x with deUntil := some (s.el + deCycles s u (pdu.length + 2)) })
  sendMsg s (.note "Modbus" (u :: pdu ++ [c % 256, c / 256]))

/-- The write request of an entry, filled at sending, and whether FIELD_ERR counts (R359, R365). -/
def writePdu (s : State) (e : MapEntry) : List Nat × Bool :=
  let f := encodeField (ptAt s e.index).ty e (outValue s e)
  if e.fn = 5 then ([e.node, 5] ++ hiLo e.addr ++ (if f.1 = 0 then [0, 0] else [255, 0]), f.2)
  else if e.fn = 6 then ([e.node, 6] ++ hiLo e.addr ++ putField 2 e f.1, f.2)
  else ([e.node, 16] ++ hiLo e.addr ++ hiLo e.span ++ [2 * e.span] ++ putField (2 * e.span) e f.1, f.2)

/-- The read request of a group. -/
def readPdu (g : List (Nat × MapEntry)) : List Nat :=
  match g with
  | (_, e) :: _ =>
    let last := g.foldl (fun m kv => max m (kv.2.addr + kv.2.span)) 0
    [e.node, e.fn] ++ hiLo e.addr ++ hiLo (last - e.addr)
  | [] => []

/-- A transaction begins. -/
def mbBegin (s : State) (u : Nat) (t : MbTrans) : State :=
  setF (mapUart (mbTransmit s u t.request) u (fun x => { x with trans := some t })) (Fld.UARTn_STAT_IN_TRANS u) 1

/-- MB_REQUEST_SEND: pending writes first, in creation order, then the read that fell due earliest (R365). -/
def execMbRequestSend (u : Fin 8) (s : State) : Host.Outcome State Fault Refusal :=
  let u := u.val
  let x := uartAt s u
  if !uartOn s u || x.trans.isSome || !lineQuiet s u then done s
  else match x.writes, x.due with
    | k :: t, _ =>
      let s := mapUart s u (fun x => { x with writes := t })
      match mapEnt? s k with
      | none => done s
      | some e =>
        let p := writePdu s e
        let s := mapMap (if p.2 then uartCount s u 8 else s) k (fun e => { e with loaded := some (outValue s e) })
        if e.node = 0 then done (setUndeliv (mbBegin s u { job := .pause, request := p.1 }) e.index false)
        else done (mbBegin s u { job := .write k, station := e.node, fn := e.fn, request := p.1 })
    | [], k :: t =>
      let s := mapUart s u (fun x => { x with due := t })
      match groupWith s u k with
      | (l, e) :: g => done (mbBegin s u { job := .read l, station := e.node, fn := e.fn, request := readPdu ((l, e) :: g) })
      | [] => done s
    | [], [] => done s

/-- Off the line: idle (R368). -/
def uartOffNow (s : State) (u : Nat) : State := setF (mapUart s u (fun x => { x with leaving := false })) (Fld.UARTn_STAT_IDLE u) 1

/-- The transaction is over. -/
def mbOver (s : State) (u : Nat) : State := setF (mapUart s u (fun x => { x with trans := none })) (Fld.UARTn_STAT_IN_TRANS u) 0

/-- Entries of a station of a kind. -/
def stationEntries (s : State) (u st : Nat) (k : MapKind) : List (Nat × MapEntry) :=
  (entriesOf s k (uartWriter u)).filter (fun kv => kv.2.node == st)

/-- Each entry receives one write request, unless one is pending. -/
def requestWrites (s : State) (u : Nat) (es : List (Nat × MapEntry)) : State :=
  es.foldl (fun s kv =>
    let cur := match (uartAt s u).trans with | some { job := .write k, .. } => k == kv.1 | _ => false
    if (uartAt s u).writes.contains kv.1 || cur then s
    else mapMap (mapUart s u (fun x => { x with writes := x.writes ++ [kv.1] })) kv.1 (fun e => { e with createdAt := s.mono, owed := false })) s

/-- A valid response: an absent station is present again, and its writes receive one request each (R366). -/
def stationReturn (s : State) (u st : Nat) : State :=
  if (stationAt s u st).absent then
    requestWrites (mapStation s u st (fun d => { d with absent := false })) u (stationEntries s u st .mbWrite)
  else s

/-- The data of one entry within a read response: registers in address order, or bits from the entry's own address on. -/
def entryData (lead e : MapEntry) (data : List Nat) : List Nat :=
  if isBits e.fn then
    let bits := leOctets data / 2 ^ (e.addr - lead.addr)
    octetsLe (data.length - (e.addr - lead.addr) / 8) bits
  else data.drop (2 * (e.addr - lead.addr)) |>.take (2 * e.span)

/-- One entry of a group takes its part of a response. -/
def mbInWrite (s : State) (u : Nat) (lead : MapEntry) (data : List Nat) (e : MapEntry) : State :=
  let d := decodeField (ptAt s e.index).ty e (entryData lead e data)
  let s := if d.2.2 then uartCount s u 8 else s
  match d.1 with
  | some v => writerWrite s .field (uartWriter u) e.index v d.2.1
  | none => writerQuality s .field (uartWriter u) e.index d.2.1

/-- A normal response writes the group's records, or ends a write as delivered (R365). -/
def mbNormal (s : State) (u : Nat) (t : MbTrans) (frame : List Nat) : State :=
  match t.job with
  | .write k => match mapEnt? s k with | some e => setUndeliv s e.index false | none => s
  | .read l =>
    let g := groupWith s u l
    (match g with
    | (_, lead) :: _ => g.foldl (fun s kv => mbInWrite s u lead ((frame.drop 3).take (min (frame.getD 2 0) (frame.length - 5))) kv.2) s
    | [] => s)
  | .pause => s

/-- An exception response (R365). -/
def mbException (s : State) (u : Nat) (t : MbTrans) (code : Nat) : State :=
  let s := match t.job with
    | .write k => match mapEnt? s k with | some e => setUndeliv s e.index true | none => s
    | .read l => (groupWith s u l).foldl (fun s kv => writerQuality s .field (uartWriter u) kv.2.index .fault) s
    | .pause => s
  raise (uartCount (mapStation s u t.station (fun d => { d with lastExc := code % 256 })) u 6) .mbEvent u

/-- A frame with a valid CRC: a response of the addressed station, with the request's function or that plus 0x80, ends the transaction. -/
def mbAccept (s : State) (u : Nat) (frame : List Nat) : State :=
  match (uartAt s u).trans with
  | some t =>
    let fn := frame.getD 1 0
    if t.job != .pause && frame.getD 0 0 = t.station && (fn = t.fn || fn = t.fn + 128) then
      let s := mbOver s u
      let s := if fn = t.fn then mbNormal s u t frame else mbException s u t (frame.getD 2 0)
      stationReturn s u t.station
    else s
  | none => s

/-- MB_RESPONSE: a frame on the line, ended by a silence of t3.5 (R363); the receiver ignores the line while Un_DE is asserted (R362). -/
def execMbResponse (u : Fin 8) (frame : List Nat) (broken bad : Bool) (s : State) : Host.Outcome State Fault Refusal :=
  let u := u.val
  if !uartOn s u || forced s .mbEvent u || deOn s u then done s
  else if bad || 256 < frame.length then done (uartCount s u 4)
  else if broken then done (uartCount s u 3)
  else
    let k := frame.length - 2
    if frame.length < 4 || crc16 (frame.take k) ≠ leOctets (frame.drop k) then done (uartCount s u 2)
    else done (mbAccept (uartCount s u 1) u frame)

/-- A station is declared absent (R366). -/
def stationAbsent (s : State) (u st : Nat) : State :=
  if (stationAt s u st).absent then s
  else
    let s := mapStation s u st (fun d => { d with absent := true })
    let s := (stationEntries s u st .mbRead).foldl (fun s kv => writerQuality s .field (uartWriter u) kv.2.index .absent) s
    let s := (stationEntries s u st .mbWrite).foldl (fun s kv => setUndeliv s kv.2.index true) s
    let mine (k : Nat) : Bool := match mapEnt? s k with | some e => e.node == st | none => false
    let s := mapUart (startTime s (tmProbe u st)) u (fun x => { x with writes := x.writes.filter (fun k => !mine k), due := x.due.filter (fun k => !mine k) })
    raise (uartCount s u 7) .mbEvent u

/-- MB_TIMEOUT: TIMEOUT_MS after its request the transaction is sent again up to RETRIES times, then its station is absent; the pause after a broadcast ends
(R365, R366). -/
def execMbTimeout (u : Fin 8) (s : State) : Host.Outcome State Fault Refusal :=
  let u := u.val
  match (uartAt s u).trans with
  | none => done s
  | some t =>
    if !uartOn s u || !timeRan s (tmMb u) (getF s (Fld.UARTn_TIMING_TIMEOUT_MS u) * msCycles) then done s
    else if t.job = .pause then done (mbOver s u)
    else if !lineQuiet s u then done s
    else
      let s := mapStation (uartCount s u 5) u t.station (fun d => { d with timeouts := satAt 65535 (d.timeouts + 1) })
      if t.attempts ≤ getF s (Fld.UARTn_CFG_RETRIES u) then
        done (mapUart (mbTransmit s u t.request) u (fun x => { x with trans := some { t with attempts := t.attempts + 1 } }))
      else done (stationAbsent (mbOver s u) u t.station)

/-- MB_ABSENT_PROBE, every ABSENT_POLL_MS: the station's first read group, or its first write when it has no reads (R366). -/
def execMbAbsentProbe (u : Fin 8) (station : Fin 248) (s : State) : Host.Outcome State Fault Refusal :=
  let u := u.val
  if !uartOn s u || !(stationAt s u station.val).absent
      || !timeRan s (tmProbe u station.val) (getF s (Fld.UARTn_TIMING_ABSENT_POLL_MS u) * msCycles) then done s
  else
    let t := startTime s (tmProbe u station.val)
    match (pollGroups s u).find? (fun g => g.any (fun kv => kv.2.node == station.val)), stationEntries s u station.val .mbWrite with
    | some ((l, _) :: _), _ => if (uartAt s u).due.contains l then done s else done (mapUart t u (fun x => { x with due := x.due ++ [l] }))
    | _, kv :: _ => done (requestWrites t u [kv])
    | _, [] => done s

/-- FE's grid tick on a UART: write requests arise as CAN requests do (R365). -/
def uartTick (s : State) (u : Nat) : State :=
  if uartOn s u then
    requestWrites s u ((entriesOf s .mbWrite (uartWriter u)).filter (fun kv =>
      let e := kv.2
      !(stationAt s u e.node).absent && (e.owed || e.loaded != some (outValue s e) || (decide (e.period ≠ 0) && decide (e.createdAt + 4 * e.period ≤ s.mono)))))
  else s

/-- Every MB_READ record of the line is written ABSENT. -/
def uartInsAbsent (s : State) (u : Nat) : State :=
  (entriesOf s .mbRead (uartWriter u)).foldl (fun s kv => writerQuality s .field (uartWriter u) kv.2.index .absent) s

/-- The line leaves: requests FLUSHED, inputs ABSENT, outputs UNDELIV (log 25). -/
def uartLeave (s : State) (u : Nat) : State :=
  let s := uartInsAbsent (flushUart s u) u
  uartOffNow ((entriesOf s .mbWrite (uartWriter u)).foldl (fun s kv => setUndeliv s kv.2.index true) s) u

/-- The line comes back: every write entry is owed a request. -/
def uartOnline (s : State) (u : Nat) : State :=
  (entriesOf s .mbWrite (uartWriter u)).foldl (fun s kv => mapMap s kv.1 (fun e => { e with owed := true })) (setF s (Fld.UARTn_STAT_IDLE u) 0)

/-- The fields of UARTn_CMD after a command. -/
def uartFields (s : State) (u op result : Nat) : State :=
  setFs s [(Fld.UARTn_CMD_OP u, op), (Fld.UARTn_CMD_RESULT u, result), (Fld.UARTn_CMD_BUSY u, 0), (Fld.UARTn_CMD_GO u, 0)]

/-- A command of UARTn_CMD (R368, R371). -/
def uartCmd (s : State) (u op : Nat) : State :=
  if !feRuns s then uartFields s u op 1
  else match op with
  | 2 => uartLeave (mapUart (uartFields s u 2 0) u (fun x => { x with off := true })) u
  | 3 =>
    if !getB s (Fld.UARTn_CFG_EN u) then uartFields s u 3 1
    else
      let s := mapUart (uartFields s u 3 0) u (fun x => { x with off := false })
      if uartOn s u then s else uartOnline s u
  | 7 => (List.range 9).foldl (fun s i => setF s (Fld.UARTn_CNT_COUNT u i) 0) (uartFields s u 7 0)
  | _ => uartFields s u op 1

/-- UART_DISABLE. -/
def execUartDisable (u : Fin 8) (s : State) : Host.Outcome State Fault Refusal := done (uartCmd s u.val 2)
/-- UART_ENABLE. -/
def execUartEnable (u : Fin 8) (s : State) : Host.Outcome State Fault Refusal := done (uartCmd s u.val 3)
/-- UART_CLEAR_COUNTERS. -/
def execUartClearCounters (u : Fin 8) (s : State) : Host.Outcome State Fault Refusal := done (uartCmd s u.val 7)

/-! ## GPIO entries (R358) -/

/-- Sets bit `pin` of a register pair. -/
def setPin (s : State) (lo hi : RF) (pin : Nat) (b : Bool) : State :=
  if pin < 32 then setF s lo (setBit (getF s lo) pin b) else setF s hi (setBit (getF s hi) (pin - 32) b)
/-- Bit `pin` of a register pair. -/
def getPin (s : State) (lo hi : RF) (pin : Nat) : Bool := if pin < 32 then bitOf (getF s lo) pin else bitOf (getF s hi) (pin - 32)

/-- The fuse code of GPIO land `pin` (R464, 16 R504): 1 weak pull-down, 2 weak pull-up, 3 driven low. -/
def landCode (s : State) (pin : Nat) : Nat := bitsOf (getF s (Fld.FUSE_PIN_CODES (pin / 16))) (2 * (pin % 16)) 2

/-- The level at a land where something decides it: what the module drives, else what is applied from outside, else the pull of a configured pin, or
the fuse-coded state of one that is not; a floating land keeps the level it was last read with (R464, R505, 16 R530, log 30). -/
def landLevel? (s : State) (pin : Nat) : Option Bool :=
  let out := getPin s Fld.GPIO_OUT_LO_VALUE Fld.GPIO_OUT_HI_VALUE pin
  let used := s.field.maps.any (fun kv => kv.2.channel == 24 && kv.2.pin == pin)
  if getPin s Fld.GPIO_OE_LO_DRIVEN Fld.GPIO_OE_HI_DRIVEN pin && (!out || !getB s (Fld.GPIO_PAD_OPEN_DRAIN pin)) then some out
  else if !used && landCode s pin = 3 then some false
  else match tabGet? s.lands pin with
    | some b => some b
    | none => match (if used then getF s (Fld.GPIO_PAD_PULL pin) else landCode s pin) with | 1 => some false | 2 => some true | _ => none

/-- GPIO_IN_LO and GPIO_IN_HI show the level at a land. -/
def readLand (s : State) (pin : Nat) : State :=
  match landLevel? s pin with | some b => setPin s Fld.GPIO_IN_LO_LEVEL Fld.GPIO_IN_HI_LEVEL pin b | none => s

/-- Those of every land that something decides. -/
def readLands (s : State) : State :=
  ((s.lands.map (fun kb => kb.1)) ++ ((entriesOf s .gpioIn 24 ++ entriesOf s .gpioOut 24).map (fun kv => kv.2.pin))
    ++ (List.range 64).filter (fun p => landCode s p != 0)).foldl readLand s

/-- A pin's level, after INVERT, is written into the record of its GPIO_IN entry. -/
def gpioWrite (s : State) (e : MapEntry) : State :=
  writerWrite s .field 24 e.index (if getPin s Fld.GPIO_IN_LO_LEVEL Fld.GPIO_IN_HI_LEVEL e.pin != e.invert then 1 else 0) .good

/-- GPIO_IN_CHANGE. -/
def execGpioInChange (pin : Fin 64) (level : Bool) (s : State) : Host.Outcome State Fault Refusal :=
  let s := { s with lands := tabPut s.lands pin.val level }
  if !feRuns s then done s
  else
    let s := readLand s pin.val
    match (entriesOf s .gpioIn 24).find? (fun kv => kv.2.pin == pin.val) with
    | some kv => done (gpioWrite s kv.2)
    | none => done s

/-- GPIO outputs follow their records (R358, 16 R530). -/
def gpioDrive (s : State) : State :=
  (entriesOf s .gpioOut 24).foldl (fun s kv =>
    setPin s Fld.GPIO_OUT_LO_VALUE Fld.GPIO_OUT_HI_VALUE kv.2.pin ((ptValue (ptAt s kv.2.index) != 0) != kv.2.invert)) s

/-! ## FE as a whole -/

/-- FE reads the records of every output entry at a grid tick (R343). -/
def readOutputs (s : State) : State :=
  { s with field := { s.field with maps := s.field.maps.map (fun kv =>
      match kv.2.kind with
      | .canOut | .mbWrite => (kv.1, { kv.2 with latest := some (ptValue (ptAt s kv.2.index)) })
      | _ => kv) } }

/-- FE's grid tick: received frames that wait are served, outputs are read, requests are created, GPIO outputs follow. -/
def feTick (s : State) : State :=
  if !feRuns s then s
  else
    let s := (List.range 12).foldl (fun s n => if (canAt s n).fifo0.isEmpty && (canAt s n).fifo1.isEmpty then s else serveCan s n) s
    let s := readOutputs s
    let s := (List.range 12).foldl canTick s
    let s := (List.range 8).foldl uartTick s
    readLands (gpioDrive s)

/-- FE is released, on a return of PD12 or after an L3 reset (R367, R368): inputs ABSENT, bound nodes and stations absent, what DISABLE had not taken off
comes back, broadcasts and frames outside Roll Call receive one request; then each GPIO_IN record takes its pin's level (R358). -/
def feRelease (s : State) : State :=
  let s := (List.range 12).foldl (fun s n =>
    let s := mapCan s n (fun x => { x with nodes := x.nodes.map (fun kv => (kv.1, { kv.2 with st := 1 })) })
    let s := canInsAbsent s n
    if getB s (Fld.CANn_CFG_EN n) && !(canAt s n).off then canOnline s n else s) s
  let s := (List.range 8).foldl (fun s u =>
    let s := uartInsAbsent s u
    let sts := ((s.field.maps.filter (fun kv => kv.2.channel == uartWriter u && kv.2.node != 0)).map (fun kv => kv.2.node)).eraseDups
    let s := sts.foldl (fun s st => mapStation s u st (fun d => { d with absent := true })) s
    if getB s (Fld.UARTn_CFG_EN u) && !(uartAt s u).off then requestWrites (uartOnline s u) u (stationEntries s u 0 .mbWrite) else s) s
  (entriesOf s .gpioIn 24).foldl (fun s kv => gpioWrite s kv.2) (readLands s)

/-- Nodes bound on a channel: its NODE entries, and learned bindings that no entry contradicts (R354). -/
def syncNodes (s : State) (n : Nat) : State :=
  let es := (entriesOf s .node n).map (fun kv => kv.2)
  let old := (canAt s n).nodes
  let learned := old.filter (fun kv => kv.2.learned && !es.any (fun e => e.node == kv.1 || e.uid == kv.2.uid))
  let nodes := es.foldl (fun t e => tabPut t e.node (match tabGet? old e.node with
    | some d => if d.uid = e.uid then { d with hb := e.hb, learned := false } else { uid := e.uid, hb := e.hb }
    | none => { uid := e.uid, hb := e.hb })) learned
  mapCan s n (fun x => { x with nodes := nodes })

/-- Requests of frames that have lost every CAN_OUT entry end (R346). -/
def flushGone (s : State) (n : Nat) : State :=
  let gone (r : CanReq) : Bool := !(frameKeys s n).contains r.key
  let x := canAt s n
  let s := ((x.reqs ++ x.bufs.filter (fun r => !r.onBus)).filter gone).foldl (fun s r => endReq s n r .flushed) s
  mapCan s n (fun x => { x with bufs := x.bufs.map (fun r => if gone r then { r with flush := true } else r),
                                frames := x.frames.filter (fun kv => (frameKeys s n).contains kv.1) })

/-- What a commit changes on the field buses: bindings, requests of removed frames, channels and lines whose EN has changed, the pins driven; each
GPIO_IN entry in `fresh` takes its pin's level (R346, R354, R358). -/
def fieldCommit (s : State) (fresh : List Nat) : State :=
  if !feRuns s then s
  else
    let s := (List.range 12).foldl (fun s n =>
      let s := flushGone (syncNodes s n) n
      let want := getB s (Fld.CANn_CFG_EN n) && !(canAt s n).off
      if want && canStatus s n = 3 && (canAt s n).detect.isNone then canOnline s n
      else if !getB s (Fld.CANn_CFG_EN n) && canStatus s n ≠ 3 && !(canAt s n).leaving then canLeave s n else s) s
    let s := (List.range 8).foldl (fun s u =>
      let gone (k : Nat) : Bool := (mapEnt? s k).isNone
      let s := mapUart s u (fun x => { x with writes := x.writes.filter (fun k => !gone k), due := x.due.filter (fun k => !gone k) })
      let want := getB s (Fld.UARTn_CFG_EN u) && !(uartAt s u).off
      if want && !uartOn s u then uartOnline s u
      else if !getB s (Fld.UARTn_CFG_EN u) && uartOn s u then uartLeave s u else s) s
    let s := (s.field.maps.filter (fun kv => kv.2.kind == .canIn && fresh.contains kv.1)).foldl (fun s kv => startTime s (tmCanIn kv.1)) s
    let pins := (entriesOf s .gpioOut 24).map (fun kv => kv.2.pin)
    let s := setFs s [(Fld.GPIO_OE_LO_DRIVEN, pins.foldl (fun m p => if p < 32 then setBit m p true else m) 0),
      (Fld.GPIO_OE_HI_DRIVEN, pins.foldl (fun m p => if p < 32 then m else setBit m (p - 32) true) 0)]
    let s := setFs s [(Fld.GPIO_OUT_LO_VALUE, getF s Fld.GPIO_OUT_LO_VALUE &&& getF s Fld.GPIO_OE_LO_DRIVEN),
      (Fld.GPIO_OUT_HI_VALUE, getF s Fld.GPIO_OUT_HI_VALUE &&& getF s Fld.GPIO_OE_HI_DRIVEN)]
    let t := readLands (gpioDrive s)
    let moved (pin : Nat) : Bool := getPin t Fld.GPIO_IN_LO_LEVEL Fld.GPIO_IN_HI_LEVEL pin != getPin s Fld.GPIO_IN_LO_LEVEL Fld.GPIO_IN_HI_LEVEL pin
    ((entriesOf t .gpioIn 24).filter (fun kv => fresh.contains kv.1 || moved kv.2.pin)).foldl (fun s kv => gpioWrite s kv.2) t

end Sys2Proof.Machine
end

