-- ==== Sys2Proof/Machine/Governor.lean ====
section
/-! DEFINITION. Machine/Governor.lean: the Draw Governor (14 R448 to R452): requests in their order, grants, returns, ageing and the audit. -/

namespace Sys2Proof.Machine

/-- Applies a change to the power structures. -/
def mapPw (s : State) (f : PwState → PwState) : State := { s with pw := f s.pw }

/-- Class of an operation (Table 5). -/
def GovOp.cls : GovOp → Nat
  | .nandFail => 0 | .domain _ => 1 | .wake _ => 1 | .dram => 1 | .frontEnd => 1 | .serdes _ => 2 | .nand => 2 | .crypto => 2 | .refresh => 3

/-- Pegs that a grant of the operation takes: a domain's standing pegs at the profile in effect, else those of Table 5. -/
def opPegs (s : State) (o : GovOp) : Nat :=
  match o with | .domain d => standingOf (getF s Fld.PW_CFG_PROFILE) d.val | o => grantPegs o

/-- A request placed last among those of its class (R450). -/
def insertReq (r : GovReq) : List GovReq → List GovReq
  | [] => [r]
  | q :: t => if r.cls < q.cls then r :: q :: t else q :: insertReq r t

/-- An operation asks for pegs (R448). -/
def govRequest (s : State) (o : GovOp) : State :=
  mapPw s (fun p => { p with waiting := insertReq { op := o, cls := o.cls, since := s.mono } p.waiting })

/-- Waiting requests of an operation are withdrawn. -/
def govWithdraw (s : State) (o : GovOp) : State := mapPw s (fun p => { p with waiting := p.waiting.filter (fun r => r.op != o) })

/-- Transient pegs of one grant come back (R451). -/
def pegReturn (s : State) (o : GovOp) : State :=
  if s.pw.grants.contains o then
    setF (mapPw s (fun p => { p with grants := p.grants.erase o })) Fld.PW_GOV_HELD (getF s Fld.PW_GOV_HELD - grantPegs o)
  else s

/-- The first waiting request, if it fits (R449, R450). -/
def govNext? (s : State) : Option GovReq :=
  match s.pw.waiting with
  | [] => none
  | r :: _ => if getF s Fld.PW_GOV_HELD + opPegs s r.op ≤ getF s Fld.PW_BUDGET_BUDGET then some r else none

/-- The governor's side of a grant: the request leaves the order, its pegs are held, the longest wait is kept. -/
def govTake (s : State) (r : GovReq) : State :=
  let n := opPegs s r.op
  let s := mapPw s (fun p => { p with waiting := p.waiting.drop 1, grants := match r.op with | .domain _ => p.grants | o => p.grants ++ [o] })
  let s := setF s Fld.PW_GOV_HELD (getF s Fld.PW_GOV_HELD + n)
  let s := match r.op with | .domain _ => setF s Fld.PW_GOV_STANDING (getF s Fld.PW_GOV_STANDING + n) | _ => s
  maxF s Fld.PW_GOV_STAT_LONGEST_MS ((s.mono - r.since) / 4)

/-- An operation may start: its grant is outstanding, or it asks and the governor grants it at once, as the first request that fits (R28, R450). -/
def grantNow (s : State) (o : GovOp) : State × Bool :=
  if s.pw.grants.contains o then (s, true)
  else
    let s := if s.pw.waiting.any (fun r => r.op == o) then s else govRequest s o
    match govNext? s with
    | some r => if r.op = o then (govTake s r, true) else (s, false)
    | none => (s, false)

/-- A heavy operation that starts only with its pegs, and returns them as it ends (R28, R451); without them its request waits. -/
def withGrant (s : State) (o : GovOp) (f : State → State) : State :=
  let r := grantNow s o
  if r.2 then pegReturn (f r.1) o else r.1

/-- The order after the request at place `i` has aged. -/
def ageReq (i : Nat) (l : List GovReq) : List GovReq :=
  match l[i]? with
  | none => l
  | some r => if r.cls = 0 then l else insertReq { r with cls := r.cls - 1 } (l.eraseIdx i)

/-- A request has waited 100 ms more since it last moved up. -/
def ageDue (s : State) (r : GovReq) : Bool := decide (r.since + 400 * (r.op.cls - r.cls + 1) ≤ s.mono)

/-- PEG_AGEING: 100 ms more of waiting move the request at place `i` of the order up one class, last among that class (R450). -/
def execPegAgeing (i : Fin 64) (s : State) : Host.Outcome State Fault Refusal :=
  match s.pw.waiting[i.val]? with
  | none => done s
  | some r => if r.cls = 0 || !ageDue s r then done s else done (incSatF (mapPw s (fun p => { p with waiting := ageReq i.val p.waiting })) Fld.PW_GOV_STAT_AGED)

/-- GOV_AUDIT (R452), at a grid tick that is a multiple of 400: the pegs held against those of the powered domains and of the outstanding grants. -/
def execGovAudit (s : State) : Host.Outcome State Fault Refusal :=
  if !domainOn s 4 || s.tick % 400 ≠ 0 then done s else
  let (off, s) := takeOffset s .govAudit 0
  let want := standingSum (getF s Fld.PW_CFG_PROFILE) (getF s Fld.PW_PD_ON) 14 + transientSum s.pw.grants + off
  if getF s Fld.PW_GOV_HELD = want && getF s Fld.PW_GOV_HELD ≤ getF s Fld.PW_BUDGET_BUDGET then done s
  else done (raise (latchF s Fld.PW_GOV_AUDIT_FAIL 1) .govAudit)

end Sys2Proof.Machine
end

