-- ==== Sys2Proof/Machine/Decend.lean ====
section
/-! DEFINITION. Machine/Decend.lean: the effect of each Decend instruction on what it runs on (03 Tables 7 to 17), as functions of a Run, and the
commands that execute them. Costs are the tables'. -/

namespace Sys2Proof.Machine

/-! ## Move, constant and convert (Table 7, R86) -/

/-- NOP. -/
def rNop (r : Run) : Run := r.fin 0 1 1
/-- MOV: value and quality. -/
def rMov (a b : Nat) (r : Run) : Run := r.putQ a (r.loc b).value (r.loc b).q 0 1 1
/-- LDI. -/
def rLdi (a : Nat) (imm : Word) (r : Run) : Run := r.putQ a imm .good 0 2 2
/-- LDK. -/
def rLdk (a h : Nat) (r : Run) : Run := r.putQ a (normalise (r.ty a) (r.consts.getD h 0)) .good 0 1 3
/-- ITOR and UTOR. -/
def rToReal (cost a b : Nat) (r : Run) : Run := r.op1 (fun ty w => realOf (mkRat (asInt ty w) 1)) cost a b
/-- RTOI, RTOU and RTOF: the integer type written, and the scale. -/
def rFromReal (ty : VType) (scale a b : Nat) (r : Run) : Run := r.op1 (fun _ w => realToInt ty scale w) 2 a b
/-- FTOR. -/
def rFtor (a b : Nat) (r : Run) : Run := r.op1 (fun _ w => realOf (mkRat w.toInt 32768)) 1 a b
/-- ITOU and UTOI. -/
def rConvInt (dst : VType) (a b : Nat) (r : Run) : Run := r.op1 (fun ty w => satInt dst (asInt ty w)) 1 a b
/-- BTOI. -/
def rBtoi (a b : Nat) (r : Run) : Run := r.op1 (fun _ w => { w := w }) 1 a b
/-- ITOB. -/
def rItob (a b : Nat) (r : Run) : Run := r.op1 (fun _ w => { w := if w = 0 then 0 else 1 }) 1 a b
/-- TREL. -/
def rTrel (a : Nat) (r : Run) : Run := r.putQ a (Word.ofNat r.relTime) .good 0 1 1
/-- FLAGS. -/
def rFlags (a : Nat) (r : Run) : Run := r.putQ a (Word.ofNat r.flags) .good 0 1 1

/-! ## Integer arithmetic (Table 8, R83) -/

/-- ADD. -/
def rAdd (a b c : Nat) (r : Run) : Run := r.op2 (fun ty x y => satInt ty (asInt ty x + asInt ty y)) 1 a b c
/-- SUB. -/
def rSub (a b c : Nat) (r : Run) : Run := r.op2 (fun ty x y => satInt ty (asInt ty x - asInt ty y)) 1 a b c
/-- MUL. -/
def rMul (a b c : Nat) (r : Run) : Run := r.op2 (fun ty x y => satInt ty (asInt ty x * asInt ty y)) 2 a b c
/-- DIV. -/
def rDiv (a b c : Nat) (r : Run) : Run := r.op2 intDiv 20 a b c
/-- MOD. -/
def rMod (a b c : Nat) (r : Run) : Run := r.op2 intMod 20 a b c
/-- NEG. -/
def rNeg (a b : Nat) (r : Run) : Run := r.op1 (fun ty x => satInt ty (-asInt ty x)) 1 a b
/-- ABS. -/
def rAbs (a b : Nat) (r : Run) : Run := r.op1 (fun ty x => satInt ty (asInt ty x).natAbs) 1 a b
/-- MIN. -/
def rMin (a b c : Nat) (r : Run) : Run := r.op2 (fun ty x y => { w := if asInt ty y < asInt ty x then y else x }) 1 a b c
/-- MAX. -/
def rMax (a b c : Nat) (r : Run) : Run := r.op2 (fun ty x y => { w := if asInt ty x < asInt ty y then y else x }) 1 a b c
/-- max(B, min(A, C)) on stored integers. -/
def limWord (ty : VType) (x y z : Word) : Word :=
  let m := if asInt ty z < asInt ty x then z else x
  if asInt ty y < asInt ty m then m else y
/-- LIM and FLIM. -/
def rLim (a b c : Nat) (r : Run) : Run := r.op3 (fun ty x y z => { w := limWord ty x y z }) 1 a b c
/-- ADDW. -/
def rAddw (a b c : Nat) (r : Run) : Run := r.op2 (fun _ x y => { w := x + y }) 1 a b c
/-- SUBW. -/
def rSubw (a b c : Nat) (r : Run) : Run := r.op2 (fun _ x y => { w := x - y }) 1 a b c

/-! ## Bit logic (Table 9) -/

/-- AND, OR and XOR. -/
def rBits (f : Word → Word → Word) (a b c : Nat) (r : Run) : Run := r.op2 (fun _ x y => { w := f x y }) 1 a b c
/-- NOT: on BOOL, bit [0] alone. -/
def rNot (a b : Nat) (r : Run) : Run := r.op1 (fun ty x => { w := if ty = .bool then (~~~x) &&& 1 else ~~~x }) 1 a b
/-- Shifts, rotate and single-bit operations by a constant. -/
def rBitC (f : Word → Nat → Word) (a b c : Nat) (r : Run) : Run := r.opC (fun _ x n => { w := f x n }) 1 a b c
/-- Number of leading zeros among the low `n` bits. -/
def leadingZeros (w : Nat) : Nat → Nat
  | 0 => 0
  | n + 1 => if bitOf w n then 0 else leadingZeros w n + 1
/-- POPC and CLZ. -/
def rCount (f : Nat → Nat) (a b : Nat) (r : Run) : Run := r.op1 (fun _ x => { w := Word.ofNat (f x.toNat) }) 1 a b

/-! ## REAL32 and FIX16 (Table 10, R84, R85) -/

/-- A two-source operation whose type is fixed by the opcode. -/
def rBin (f : Word → Word → Res) (cost a b c : Nat) (r : Run) : Run := r.op2 (fun _ x y => f x y) cost a b c
/-- A one-source operation whose type is fixed by the opcode. -/
def rUn (f : Word → Res) (cost a b : Nat) (r : Run) : Run := r.op1 (fun _ x => f x) cost a b
/-- RLIM and RMAC. -/
def rTri (f : Word → Word → Word → Res) (cost a b c : Nat) (r : Run) : Run := r.op3 (fun _ x y z => f x y z) cost a b c

/-! ## Compare (Table 11) -/

/-- The six compares. -/
def rCmp (o : Cmp) (a b c : Nat) (r : Run) : Run := r.op2 (fun ty x y => cmpWord o ty x y) 1 a b c
/-- TBEF. -/
def rTbef (a b c : Nat) (r : Run) : Run := r.op2 (fun _ x y => { w := if 2 ^ 31 ≤ (x - y).toNat then 1 else 0 }) 1 a b c

/-! ## Control (Table 12, R88, R89) -/

/-- A jump taken: to the word after the jump plus H. -/
def rJump (h : Nat) (r : Run) : Run :=
  { r with pc := r.pc + 1 + h, cycles := r.cycles + 2, loops := leaveLoops r.loops (r.pc + 1 + h) }
/-- JT and JF: taken when A's value is `want`. -/
def rJumpIf (want : Bool) (a h : Nat) (r : Run) : Run :=
  if ((r.loc a).value != 0) == want then rJump h r else r.fin 0 1 2
/-- LOOP. -/
def rLoop (a h : Nat) (r : Run) : Run :=
  let body := r.pc + 1
  { r.putQ a 0 .good 0 1 2 with
    loops := { index := a, bound := h, body := body, endl := findEndl r.code.length (r.code.drop body) body 0 } :: r.loops }
/-- ENDL: the index local and bound are those of the innermost entered LOOP. -/
def rEndl (r : Run) : Run :=
  match r.loops with
  | [] => r.fin 0 1 2
  | f :: t =>
    let i := (r.loc f.index).value + 1
    let r' := r.putQ f.index i .good 0 1 2
    if i.toNat < f.bound then { r' with pc := f.body } else { r' with loops := t }
/-- SEL. -/
def rSel (a b c : Nat) (r : Run) : Run :=
  if (r.loc b).value = 0 then r.fin 0 1 1
  else r.putQ a (r.loc c).value (worstQ [(r.loc b).q, (r.loc c).q]) 0 1 1
/-- END. -/
def rEnd (r : Run) : Run := { r.fin 0 1 1 with ended := true }

/-! ## Tables (Table 16, R99, R100) -/

/-- LUTL or LUTS of an input with a NaN or infinite REAL32: INV; a REAL32 result is the quiet NaN, of another type a free value (log 12). -/
def lutInv (d : TblDesc) (x : Word) : Res :=
  if d.yty = .real32 then realInv else { w := normalise d.yty (Word.ofNat (Config.crypto 12 [x.toNat])), fl := flInv }

/-- A y as it stands in the table: of REAL32 under the replacements of R85, so that an infinite or NaN y gives INV and 0x7FC0_0000, and a subnormal zero. -/
def lutY (d : TblDesc) (w : Word) (fl : Nat := 0) : Res :=
  if d.yty = .real32 then
    (if realSpecial w then { realInv with fl := realInv.fl ||| fl } else { w := if realExp w = 0 then realZero (realNeg w) else w, fl := fl })
  else { w := w, fl := fl }

/-- The interpolated y between pairs `i` and `i + 1` (R100): one rounding; in REAL32 an infinite or NaN pair gives INV and 0x7FC0_0000 (R85). -/
def lutLine (r : Run) (d : TblDesc) (x : Word) (i : Nat) : Res :=
  if d.yty = .real32 && [0, 1, 2, 3].any (fun k => realSpecial (r.tblWord d (2 * i + k))) then realInv
  else
  let n (k : Nat) (ty : VType) : Rat := tblNum ty (r.tblWord d k)
  let x0 := n (2 * i) d.xty
  let y0 := n (2 * i + 1) d.yty
  let x1 := n (2 * i + 2) d.xty
  let y1 := n (2 * i + 3) d.yty
  let y := y0 + (y1 - y0) * (tblNum d.xty x - x0) / (x1 - x0)
  match d.yty with
  | .real32 => realOf y
  | _ => { w := wordOfInt (roundHalfAway y.num y.den) }

/-- LUTL (`line`) and LUTS. -/
def lut (line : Bool) (r : Run) (d : TblDesc) (x : Word) : Res :=
  if d.xty = .real32 && realSpecial x then lutInv d x
  else
    let k := tblRank r d (tblNum d.xty x) d.count
    if k = 0 then lutY d (r.tblWord d 1) flRng
    else
      let last := r.tblWord d (2 * (d.count - 1))
      let above := decide (tblNum d.xty last < tblNum d.xty x)
      if above then lutY d (r.tblWord d (2 * d.count - 1)) flRng
      else if line && k < d.count then lutLine r d x (k - 1)
      else lutY d (r.tblWord d (2 * (k - 1) + 1))

/-- LUTL. -/
def rLutl (a b t : Nat) (r : Run) : Run :=
  let d := r.tbl t
  r.reading a d (lutReads true r d (r.loc b).value) (lutCost 8 d) (r.put a (lut true r d (r.loc b).value) [(r.loc b).q] 1 (lutCost 8 d))
/-- LUTS. -/
def rLuts (a b t : Nat) (r : Run) : Run :=
  let d := r.tbl t
  r.reading a d (lutReads false r d (r.loc b).value) (lutCost 6 d) (r.put a (lut false r d (r.loc b).value) [(r.loc b).q] 1 (lutCost 6 d))
/-- HFIND: a key not found gives 0 with quality GOOD and RNG. -/
def rHfind (a b t : Nat) (r : Run) : Run :=
  let d := r.tbl t
  let key := (r.loc b).value
  let cost := 10 + 120 * d.probes
  r.reading a d (hashReads r d key d.probes (hashHome key d.count)) cost (match hashFind r d key with
  | some v => r.put a { w := v } [(r.loc b).q] 1 cost
  | none => r.putQ a 0 .good flRng 1 cost)
/-- HHAS: of a key not found, FALSE with quality GOOD and no flag. -/
def rHhas (a b t : Nat) (r : Run) : Run :=
  let d := r.tbl t
  let key := (r.loc b).value
  let cost := 10 + 120 * d.probes
  r.reading a d (hashReads r d key d.probes (hashHome key d.count)) cost (match hashFind r d key with
  | some _ => r.put a { w := 1 } [(r.loc b).q] 1 cost
  | none => r.putQ a 0 .good 0 1 cost)
/-- TLEN. -/
def rTlen (a t : Nat) (r : Run) : Run := r.putQ a (Word.ofNat (r.tbl t).count) .good 0 1 2
/-- TRD: beyond COUNT, 0 with quality FAULT and RNG. -/
def rTrd (a b t : Nat) (r : Run) : Run :=
  let d := r.tbl t
  let cost := if d.inTable then 122 else 3
  let i := (r.loc b).value.toNat
  if d.count ≤ i then r.putQ a 0 .fault flRng 1 cost
  else r.reading a d [i] cost (r.put a { w := r.tblWord d i } [(r.loc b).q] 1 cost)

/-! ## Point access (Table 13, R92) -/

/-- GET. -/
def rGet (a i : Nat) (r : Run) : Run :=
  let x := r.imports.getD i {}
  r.putQ a x.value x.q (if x.q = .good || x.q = .forced then 0 else flQual) 1 3
/-- GETQ. -/
def rGetq (a i : Nat) (r : Run) : Run := r.putQ a (Word.ofNat (Quality.code (r.imports.getD i {}).q)) .good 0 1 3
/-- GETS. -/
def rGets (a i : Nat) (r : Run) : Run := r.putQ a (Word.ofNat (r.imports.getD i {}).seq) .good 0 1 3
/-- GETO. -/
def rGeto (a x : Nat) (r : Run) : Run :=
  let o := r.outs.getD x {}
  r.putQ a o.value (if o.faultReq then .fault else .good) 0 1 3
/-- PUT. -/
def rPut (a x : Nat) (r : Run) : Run :=
  let v := r.loc a
  ({ r with outs := listSet r.outs x { value := v.value, faultReq := decide (v.q = Quality.fault ∨ v.q = Quality.absent) } }).fin 0 1 3
/-- PUTG. -/
def rPutg (a x : Nat) (r : Run) : Run :=
  ({ r with outs := listSet r.outs x { value := (r.loc a).value, faultReq := false } }).fin 0 1 3
/-- PUTF. -/
def rPutf (x : Nat) (r : Run) : Run :=
  ({ r with outs := listSet r.outs x { (r.outs.getD x {}) with faultReq := true } }).fin 0 1 2

/-! ## Edges, timers and counters (Table 14, R93 to R96) -/

/-- An edge instruction: `hit prev now` on a primed slot; a slot not primed is primed and gives FALSE (R94). -/
def rEdge (hit : Word → Word → Bool) (a b k : Nat) (r : Run) : Run :=
  let x := r.loc b
  let sl := r.edges.getD k {}
  let out : Word := if sl.primed && hit sl.prev x.value then 1 else 0
  { r with edges := listSet r.edges k { prev := x.value, primed := true } }.put a { w := out } [x.q] 2 3
/-- EDGCLR. -/
def rEdgclr (k : Nat) (r : Run) : Run :=
  ({ r with edges := listSet r.edges k { (r.edges.getD k {}) with primed := false } }).fin 0 2 2

/-- min(now − START, PRESET) (R95). -/
def elapsed (t : Timer) (now : Nat) : Nat := min (now - t.start) t.preset

/-- TON. -/
def tonStep (t : Timer) (b : Bool) (now : Nat) : Timer :=
  if b then
    let t := if t.run then t else { t with run := true, start := now }
    { t with et := elapsed t now, q := elapsed t now == t.preset }
  else { t with run := false, et := 0, q := false }

/-- TOF. -/
def tofStep (t : Timer) (b : Bool) (now : Nat) : Timer :=
  if b then { t with run := false, et := 0, q := true }
  else if t.q then
    let t := if t.run then t else { t with run := true, start := now }
    let t := { t with et := elapsed t now }
    if t.et = t.preset then { t with q := false, run := false } else t
  else t

/-- TP. -/
def tpStep (t : Timer) (b : Bool) (now : Nat) : Timer :=
  let t := if !t.q && b && !t.inPrev then { t with q := true, start := now } else t
  let t :=
    if t.q then
      let t := { t with et := elapsed t now }
      if t.et = t.preset then { t with q := false } else t
    else if !b then { t with et := 0 } else t
  { t with inPrev := b }

/-- TON, TOF and TP: time is the release time (R95). -/
def rTimer (f : Timer → Bool → Nat → Timer) (a b c : Nat) (r : Run) : Run :=
  let x := r.loc b
  let t := f (r.timers.getD c {}) (x.value != 0) r.relTime
  { r with timers := listSet r.timers c t }.put a { w := if t.q then 1 else 0 } [x.q] 1 4
/-- TPRE. -/
def rTpre (b c : Nat) (r : Run) : Run :=
  ({ r with timers := listSet r.timers c { (r.timers.getD c {}) with preset := (r.loc b).value.toNat } }).fin 0 1 2
/-- TELP. -/
def rTelp (a c : Nat) (r : Run) : Run := r.putQ a (Word.ofNat (r.timers.getD c {}).et) .good 0 1 2
/-- RUN, ET, Q and IN_PREV at their reset values. -/
def Timer.cleared (t : Timer) : Timer := { t with run := false, et := 0, q := false, inPrev := false }
/-- TRST. -/
def rTrst (c : Nat) (r : Run) : Run := ({ r with timers := listSet r.timers c (r.timers.getD c {}).cleared }).fin 0 1 2

/-- CTU (`d` = 1) and CTD (`d` = −1): by level, saturating with SAT (R96). -/
def rCount1 (d : Int) (a b c : Nat) (r : Run) : Run :=
  let x := r.loc b
  let k := r.counters.getD c {}
  let res : Res := if x.value = 0 then { w := k.cv } else satInt .int32 (k.cv.toInt + d)
  let q : Bool := if 0 < d then decide (k.pv.toInt ≤ res.w.toInt) else decide (res.w.toInt ≤ 0)
  { r with counters := listSet r.counters c { k with cv := res.w } }.put a { w := if q then 1 else 0, fl := res.fl } [x.q] 1 3
/-- CRST. -/
def rCrst (c : Nat) (r : Run) : Run := ({ r with counters := listSet r.counters c { (r.counters.getD c {}) with cv := 0 } }).fin 0 1 2
/-- CLD. -/
def rCld (c : Nat) (r : Run) : Run :=
  let k := r.counters.getD c {}
  ({ r with counters := listSet r.counters c { k with cv := k.pv } }).fin 0 1 2
/-- CPRE. -/
def rCpre (b c : Nat) (r : Run) : Run :=
  ({ r with counters := listSet r.counters c { (r.counters.getD c {}) with pv := (r.loc b).value } }).fin 0 1 2
/-- CGET. -/
def rCget (a c : Nat) (r : Run) : Run := r.putQ a (r.counters.getD c {}).cv .good 0 1 2

/-! ## Alarms, events and trend logs (Table 17, R101, R102) -/

/-- Entries of a task's event queue (R101). -/
def eventDepth : Nat := 16

/-- An event record with the task's particulars. -/
def Run.event (r : Run) (k : EventKind) (code : Nat) (v : LocalVal) (ty : VType) : EventRec :=
  { kind := k, code := code, value := v.value, q := v.q, ty := ty, tenant := r.tenant, engine := r.engine, slot := r.slot, relTime := r.relTime }

/-- Posts a record; a full queue sets QFULL and counts a drop (R101). The count saturates at 65,535 (R138). -/
def Run.post (r : Run) (e : EventRec) : Run :=
  if r.events.length < eventDepth then { r with events := r.events ++ [e] }
  else { r with flags := r.flags ||| flQfull, evDrop := satAt 0xFFFF (r.evDrop + 1) }

/-- Posts an alarm transition; a full queue holds it as PENDING. -/
def Run.postTrans (r : Run) (al : Alarm) (e : EventRec) : Run × Alarm :=
  if r.events.length < eventDepth then ({ r with events := r.events ++ [e] }, al) else (r, { al with held := some e })

/-- An ALM first tries to post a held record. -/
def Run.drainHeld (r : Run) (al : Alarm) : Run × Alarm :=
  match al.held with
  | none => (r, al)
  | some e => if r.events.length < eventDepth then ({ r with events := r.events ++ [e] }, { al with held := none }) else (r, al)

/-- The latched acknowledgement (03 Table 18): the next state, and whether it posts ACK. -/
def ackStep : AlarmState → AlarmState × Bool
  | .activeUnack => (.activeAck, true)
  | .rtnUnack => (.normal, true)
  | st => (st, false)

/-- B evaluated (03 Table 18): the next state, and what it posts. -/
def almStep (st : AlarmState) (b : Bool) : AlarmState × Option AlarmTrans :=
  match st, b with
  | .normal, true => (.activeUnack, some .alarm)
  | .normal, false => (.normal, none)
  | .activeUnack, true => (.activeUnack, none)
  | .activeUnack, false => (.rtnUnack, some .ret)
  | .activeAck, true => (.activeAck, none)
  | .activeAck, false => (.normal, some .ret)
  | .rtnUnack, true => (.activeUnack, some .alarm)
  | .rtnUnack, false => (.rtnUnack, none)

/-- B's part of ALM, once an acknowledgement has been dealt with. -/
def almEval (r : Run) (al : Alarm) (b : Bool) (v : LocalVal) (ty : VType) : Run × Alarm :=
  match almStep al.state b with
  | (st, none) => (r, { al with state := st })
  | (st, some t) => r.postTrans { al with state := st } (r.event (.trans t) al.eventCode v ty)

/-- ALM on an alarm with nothing held: the acknowledgement is applied before B is evaluated; an acknowledgement transition that has to be held
ends the execution, so that at most one transition is ever held (R101, R102). -/
def almRun (r : Run) (al : Alarm) (v : LocalVal) (ty : VType) : Run × Alarm :=
  let bad : Bool := decide (v.q = Quality.fault ∨ v.q = Quality.absent)
  if bad && !al.failActive then (r, al)
  else
    let b := bad || v.value != 0
    if al.ackLatch then
      let (st, posts) := ackStep al.state
      let al := { al with state := st, ackLatch := false }
      let (r, al) := if posts then r.postTrans al (r.event (.trans .ack) al.eventCode v ty) else (r, al)
      if al.held.isSome then (r, al) else almEval r al b v ty
    else almEval r al b v ty

/-- ALM. -/
def rAlm (b c : Nat) (r : Run) : Run :=
  let (r1, al1) := r.drainHeld (r.alarms.getD c {})
  let (r2, al2) := if al1.held.isSome then (r1, al1) else almRun r1 al1 (r.loc b) (r.ty b)
  ({ r2 with alarms := listSet r2.alarms c al2 }).fin 0 1 4

/-- State codes (03 Table 18). -/
def AlarmState.code : AlarmState → Nat
  | .normal => 0 | .activeUnack => 1 | .activeAck => 2 | .rtnUnack => 3

/-- ALMQ: the state code, with [2] = PENDING. -/
def rAlmq (a c : Nat) (r : Run) : Run :=
  let al := r.alarms.getD c {}
  r.putQ a (Word.ofNat (al.state.code + (if al.held.isSome then 4 else 0))) .good 0 1 2
/-- EVT, TRND and EVSIG. -/
def rEvent (k : EventKind) (b c : Nat) (r : Run) : Run := (r.post (r.event k c (r.loc b) (r.ty b))).fin 0 1 4
/-- EVDIG: the record carries a copy of the output image as it stands. -/
def rEvdig (c : Nat) (r : Run) : Run :=
  (r.post { r.event .evdig c {} .bool with image := r.outs }).fin 0 1 (6 + (r.outs.length + 3) / 4)

/-! ## The commands -/

/-- NOP. -/
def execOpNop (r : Runner) (s : State) : Host.Outcome State Fault Refusal := done (onRun s r (rNop))
/-- MOV. -/
def execOpMov (r : Runner) (a b : Fin 256) (s : State) : Host.Outcome State Fault Refusal := done (onRun s r (rMov a b))
/-- LDI. -/
def execOpLdi (r : Runner) (a : Fin 256) (imm : Word) (s : State) : Host.Outcome State Fault Refusal := done (onRun s r (rLdi a imm))
/-- LDK. -/
def execOpLdk (r : Runner) (a : Fin 256) (h : Fin 65536) (s : State) : Host.Outcome State Fault Refusal := done (onRun s r (rLdk a h))
/-- ITOR. -/
def execOpItor (r : Runner) (a b : Fin 256) (s : State) : Host.Outcome State Fault Refusal := done (onRun s r (rToReal 2 a b))
/-- UTOR. -/
def execOpUtor (r : Runner) (a b : Fin 256) (s : State) : Host.Outcome State Fault Refusal := done (onRun s r (rToReal 2 a b))
/-- RTOI. -/
def execOpRtoi (r : Runner) (a b : Fin 256) (s : State) : Host.Outcome State Fault Refusal := done (onRun s r (rFromReal .int32 1 a b))
/-- RTOU. -/
def execOpRtou (r : Runner) (a b : Fin 256) (s : State) : Host.Outcome State Fault Refusal := done (onRun s r (rFromReal .uint32 1 a b))
/-- FTOR. -/
def execOpFtor (r : Runner) (a b : Fin 256) (s : State) : Host.Outcome State Fault Refusal := done (onRun s r (rFtor a b))
/-- RTOF. -/
def execOpRtof (r : Runner) (a b : Fin 256) (s : State) : Host.Outcome State Fault Refusal := done (onRun s r (rFromReal .fix16 32768 a b))
/-- ITOU. -/
def execOpItou (r : Runner) (a b : Fin 256) (s : State) : Host.Outcome State Fault Refusal := done (onRun s r (rConvInt .uint32 a b))
/-- UTOI. -/
def execOpUtoi (r : Runner) (a b : Fin 256) (s : State) : Host.Outcome State Fault Refusal := done (onRun s r (rConvInt .int32 a b))
/-- BTOI. -/
def execOpBtoi (r : Runner) (a b : Fin 256) (s : State) : Host.Outcome State Fault Refusal := done (onRun s r (rBtoi a b))
/-- ITOB. -/
def execOpItob (r : Runner) (a b : Fin 256) (s : State) : Host.Outcome State Fault Refusal := done (onRun s r (rItob a b))
/-- TREL. -/
def execOpTrel (r : Runner) (a : Fin 256) (s : State) : Host.Outcome State Fault Refusal := done (onRun s r (rTrel a))
/-- FLAGS. -/
def execOpFlags (r : Runner) (a : Fin 256) (s : State) : Host.Outcome State Fault Refusal := done (onRun s r (rFlags a))
/-- ADD. -/
def execOpAdd (r : Runner) (a b c : Fin 256) (s : State) : Host.Outcome State Fault Refusal := done (onRun s r (rAdd a b c))
/-- SUB. -/
def execOpSub (r : Runner) (a b c : Fin 256) (s : State) : Host.Outcome State Fault Refusal := done (onRun s r (rSub a b c))
/-- MUL. -/
def execOpMul (r : Runner) (a b c : Fin 256) (s : State) : Host.Outcome State Fault Refusal := done (onRun s r (rMul a b c))
/-- DIV. -/
def execOpDiv (r : Runner) (a b c : Fin 256) (s : State) : Host.Outcome State Fault Refusal := done (onRun s r (rDiv a b c))
/-- MOD. -/
def execOpMod (r : Runner) (a b c : Fin 256) (s : State) : Host.Outcome State Fault Refusal := done (onRun s r (rMod a b c))
/-- NEG. -/
def execOpNeg (r : Runner) (a b : Fin 256) (s : State) : Host.Outcome State Fault Refusal := done (onRun s r (rNeg a b))
/-- ABS. -/
def execOpAbs (r : Runner) (a b : Fin 256) (s : State) : Host.Outcome State Fault Refusal := done (onRun s r (rAbs a b))
/-- MIN. -/
def execOpMin (r : Runner) (a b c : Fin 256) (s : State) : Host.Outcome State Fault Refusal := done (onRun s r (rMin a b c))
/-- MAX. -/
def execOpMax (r : Runner) (a b c : Fin 256) (s : State) : Host.Outcome State Fault Refusal := done (onRun s r (rMax a b c))
/-- LIM. -/
def execOpLim (r : Runner) (a b c : Fin 256) (s : State) : Host.Outcome State Fault Refusal := done (onRun s r (rLim a b c))
/-- ADDW. -/
def execOpAddw (r : Runner) (a b c : Fin 256) (s : State) : Host.Outcome State Fault Refusal := done (onRun s r (rAddw a b c))
/-- SUBW. -/
def execOpSubw (r : Runner) (a b c : Fin 256) (s : State) : Host.Outcome State Fault Refusal := done (onRun s r (rSubw a b c))
/-- AND. -/
def execOpAnd (r : Runner) (a b c : Fin 256) (s : State) : Host.Outcome State Fault Refusal := done (onRun s r (rBits (fun x y => x &&& y) a b c))
/-- OR. -/
def execOpOr (r : Runner) (a b c : Fin 256) (s : State) : Host.Outcome State Fault Refusal := done (onRun s r (rBits (fun x y => x ||| y) a b c))
/-- XOR. -/
def execOpXor (r : Runner) (a b c : Fin 256) (s : State) : Host.Outcome State Fault Refusal := done (onRun s r (rBits (fun x y => x ^^^ y) a b c))
/-- NOT. -/
def execOpNot (r : Runner) (a b : Fin 256) (s : State) : Host.Outcome State Fault Refusal := done (onRun s r (rNot a b))
/-- SHL. -/
def execOpShl (r : Runner) (a b : Fin 256) (c : Fin 32) (s : State) : Host.Outcome State Fault Refusal := done (onRun s r (rBitC (fun x n => x <<< n) a b c))
/-- SHR. -/
def execOpShr (r : Runner) (a b : Fin 256) (c : Fin 32) (s : State) : Host.Outcome State Fault Refusal := done (onRun s r (rBitC (fun x n => x >>> n) a b c))
/-- SAR. -/
def execOpSar (r : Runner) (a b : Fin 256) (c : Fin 32) (s : State) : Host.Outcome State Fault Refusal := done (onRun s r (rBitC (fun x n => x.sshiftRight n) a b c))
/-- ROL. -/
def execOpRol (r : Runner) (a b : Fin 256) (c : Fin 32) (s : State) : Host.Outcome State Fault Refusal := done (onRun s r (rBitC (fun x n => x.rotateLeft n) a b c))
/-- BTST. -/
def execOpBtst (r : Runner) (a b : Fin 256) (c : Fin 32) (s : State) : Host.Outcome State Fault Refusal := done (onRun s r (rBitC (fun x n => if x.getLsbD n then 1 else 0) a b c))
/-- BSET. -/
def execOpBset (r : Runner) (a b : Fin 256) (c : Fin 32) (s : State) : Host.Outcome State Fault Refusal := done (onRun s r (rBitC (fun x n => x ||| (1#32 <<< n)) a b c))
/-- BCLR. -/
def execOpBclr (r : Runner) (a b : Fin 256) (c : Fin 32) (s : State) : Host.Outcome State Fault Refusal := done (onRun s r (rBitC (fun x n => x &&& ~~~(1#32 <<< n)) a b c))
/-- SHLV. -/
def execOpShlv (r : Runner) (a b c : Fin 256) (s : State) : Host.Outcome State Fault Refusal := done (onRun s r (rBits (fun x y => x <<< (y.toNat % 32)) a b c))
/-- SHRV. -/
def execOpShrv (r : Runner) (a b c : Fin 256) (s : State) : Host.Outcome State Fault Refusal := done (onRun s r (rBits (fun x y => x >>> (y.toNat % 32)) a b c))
/-- POPC. -/
def execOpPopc (r : Runner) (a b : Fin 256) (s : State) : Host.Outcome State Fault Refusal := done (onRun s r (rCount (fun n => popCount n 32) a b))
/-- CLZ. -/
def execOpClz (r : Runner) (a b : Fin 256) (s : State) : Host.Outcome State Fault Refusal := done (onRun s r (rCount (fun n => leadingZeros n 32) a b))
/-- RADD. -/
def execOpRadd (r : Runner) (a b c : Fin 256) (s : State) : Host.Outcome State Fault Refusal := done (onRun s r (rBin realAdd 2 a b c))
/-- RSUB. -/
def execOpRsub (r : Runner) (a b c : Fin 256) (s : State) : Host.Outcome State Fault Refusal := done (onRun s r (rBin realSub 2 a b c))
/-- RMUL. -/
def execOpRmul (r : Runner) (a b c : Fin 256) (s : State) : Host.Outcome State Fault Refusal := done (onRun s r (rBin realMul 2 a b c))
/-- RDIV. -/
def execOpRdiv (r : Runner) (a b c : Fin 256) (s : State) : Host.Outcome State Fault Refusal := done (onRun s r (rBin realDiv 14 a b c))
/-- RNEG. -/
def execOpRneg (r : Runner) (a b : Fin 256) (s : State) : Host.Outcome State Fault Refusal := done (onRun s r (rUn realNegate 1 a b))
/-- RABS. -/
def execOpRabs (r : Runner) (a b : Fin 256) (s : State) : Host.Outcome State Fault Refusal := done (onRun s r (rUn realAbs 1 a b))
/-- RMIN. -/
def execOpRmin (r : Runner) (a b c : Fin 256) (s : State) : Host.Outcome State Fault Refusal := done (onRun s r (rBin (realPick true) 1 a b c))
/-- RMAX. -/
def execOpRmax (r : Runner) (a b c : Fin 256) (s : State) : Host.Outcome State Fault Refusal := done (onRun s r (rBin (realPick false) 1 a b c))
/-- RLIM. -/
def execOpRlim (r : Runner) (a b c : Fin 256) (s : State) : Host.Outcome State Fault Refusal := done (onRun s r (rTri realLim 1 a b c))
/-- RSQRT. -/
def execOpRsqrt (r : Runner) (a b : Fin 256) (s : State) : Host.Outcome State Fault Refusal := done (onRun s r (rUn realSqrt 16 a b))
/-- RMAC. -/
def execOpRmac (r : Runner) (a b c : Fin 256) (s : State) : Host.Outcome State Fault Refusal := done (onRun s r (rTri realMac 3 a b c))
/-- RRND. -/
def execOpRrnd (r : Runner) (a b : Fin 256) (s : State) : Host.Outcome State Fault Refusal := done (onRun s r (rUn (realIntegral ratRound) 2 a b))
/-- RTRN. -/
def execOpRtrn (r : Runner) (a b : Fin 256) (s : State) : Host.Outcome State Fault Refusal := done (onRun s r (rUn (realIntegral ratTrunc) 2 a b))
/-- FADD. -/
def execOpFadd (r : Runner) (a b c : Fin 256) (s : State) : Host.Outcome State Fault Refusal := done (onRun s r (rBin (fun x y => satInt .fix16 (x.toInt + y.toInt)) 1 a b c))
/-- FSUB. -/
def execOpFsub (r : Runner) (a b c : Fin 256) (s : State) : Host.Outcome State Fault Refusal := done (onRun s r (rBin (fun x y => satInt .fix16 (x.toInt - y.toInt)) 1 a b c))
/-- FMUL. -/
def execOpFmul (r : Runner) (a b c : Fin 256) (s : State) : Host.Outcome State Fault Refusal := done (onRun s r (rBin fixMul 1 a b c))
/-- FDIV. -/
def execOpFdiv (r : Runner) (a b c : Fin 256) (s : State) : Host.Outcome State Fault Refusal := done (onRun s r (rBin fixDiv 18 a b c))
/-- FNEG. -/
def execOpFneg (r : Runner) (a b : Fin 256) (s : State) : Host.Outcome State Fault Refusal := done (onRun s r (rUn (fun x => satInt .fix16 (-x.toInt)) 1 a b))
/-- FABS. -/
def execOpFabs (r : Runner) (a b : Fin 256) (s : State) : Host.Outcome State Fault Refusal := done (onRun s r (rUn (fun x => satInt .fix16 x.toInt.natAbs) 1 a b))
/-- FLIM. -/
def execOpFlim (r : Runner) (a b c : Fin 256) (s : State) : Host.Outcome State Fault Refusal := done (onRun s r (rLim a b c))
/-- FSHR. -/
def execOpFshr (r : Runner) (a b : Fin 256) (c : Fin 32) (s : State) : Host.Outcome State Fault Refusal := done (onRun s r (fun r => r.opC (fun _ x n => fixShr x n) 1 a b c))
/-- EQ. -/
def execOpEq (r : Runner) (a b c : Fin 256) (s : State) : Host.Outcome State Fault Refusal := done (onRun s r (rCmp .eq a b c))
/-- NE. -/
def execOpNe (r : Runner) (a b c : Fin 256) (s : State) : Host.Outcome State Fault Refusal := done (onRun s r (rCmp .ne a b c))
/-- LT. -/
def execOpLt (r : Runner) (a b c : Fin 256) (s : State) : Host.Outcome State Fault Refusal := done (onRun s r (rCmp .lt a b c))
/-- LE. -/
def execOpLe (r : Runner) (a b c : Fin 256) (s : State) : Host.Outcome State Fault Refusal := done (onRun s r (rCmp .le a b c))
/-- GT. -/
def execOpGt (r : Runner) (a b c : Fin 256) (s : State) : Host.Outcome State Fault Refusal := done (onRun s r (rCmp .gt a b c))
/-- GE. -/
def execOpGe (r : Runner) (a b c : Fin 256) (s : State) : Host.Outcome State Fault Refusal := done (onRun s r (rCmp .ge a b c))
/-- TBEF. -/
def execOpTbef (r : Runner) (a b c : Fin 256) (s : State) : Host.Outcome State Fault Refusal := done (onRun s r (rTbef a b c))
/-- JMP. -/
def execOpJmp (r : Runner) (h : Fin 65536) (s : State) : Host.Outcome State Fault Refusal := done (onRun s r (rJump h))
/-- JT. -/
def execOpJt (r : Runner) (a : Fin 256) (h : Fin 65536) (s : State) : Host.Outcome State Fault Refusal := done (onRun s r (rJumpIf true a h))
/-- JF. -/
def execOpJf (r : Runner) (a : Fin 256) (h : Fin 65536) (s : State) : Host.Outcome State Fault Refusal := done (onRun s r (rJumpIf false a h))
/-- LOOP. -/
def execOpLoop (r : Runner) (a : Fin 256) (h : Fin 65536) (s : State) : Host.Outcome State Fault Refusal := done (onRun s r (rLoop a h))
/-- ENDL. -/
def execOpEndl (r : Runner) (s : State) : Host.Outcome State Fault Refusal := done (onRun s r (rEndl))
/-- SEL. -/
def execOpSel (r : Runner) (a b c : Fin 256) (s : State) : Host.Outcome State Fault Refusal := done (onRun s r (rSel a b c))
/-- LUTL. -/
def execOpLutl (r : Runner) (a b : Fin 256) (t : Fin 256) (s : State) : Host.Outcome State Fault Refusal := done (onRun s r (rLutl a b t))
/-- LUTS. -/
def execOpLuts (r : Runner) (a b : Fin 256) (t : Fin 256) (s : State) : Host.Outcome State Fault Refusal := done (onRun s r (rLuts a b t))
/-- HFIND. -/
def execOpHfind (r : Runner) (a b : Fin 256) (t : Fin 256) (s : State) : Host.Outcome State Fault Refusal := done (onRun s r (rHfind a b t))
/-- HHAS. -/
def execOpHhas (r : Runner) (a b : Fin 256) (t : Fin 256) (s : State) : Host.Outcome State Fault Refusal := done (onRun s r (rHhas a b t))
/-- TRD. -/
def execOpTrd (r : Runner) (a b : Fin 256) (t : Fin 256) (s : State) : Host.Outcome State Fault Refusal := done (onRun s r (rTrd a b t))
/-- TLEN. -/
def execOpTlen (r : Runner) (a : Fin 256) (t : Fin 256) (s : State) : Host.Outcome State Fault Refusal := done (onRun s r (rTlen a t))
/-- GET. -/
def execOpGet (e sl : Fin 8) (a : Fin 256) (i : Fin 4096) (s : State) : Host.Outcome State Fault Refusal := done (onTask s e sl (rGet a i))
/-- GETQ. -/
def execOpGetq (e sl : Fin 8) (a : Fin 256) (i : Fin 4096) (s : State) : Host.Outcome State Fault Refusal := done (onTask s e sl (rGetq a i))
/-- GETS. -/
def execOpGets (e sl : Fin 8) (a : Fin 256) (i : Fin 4096) (s : State) : Host.Outcome State Fault Refusal := done (onTask s e sl (rGets a i))
/-- GETO. -/
def execOpGeto (e sl : Fin 8) (a : Fin 256) (x : Fin 1024) (s : State) : Host.Outcome State Fault Refusal := done (onTask s e sl (rGeto a x))
/-- PUT. -/
def execOpPut (e sl : Fin 8) (a : Fin 256) (x : Fin 1024) (s : State) : Host.Outcome State Fault Refusal := done (onTask s e sl (rPut a x))
/-- PUTG. -/
def execOpPutg (e sl : Fin 8) (a : Fin 256) (x : Fin 1024) (s : State) : Host.Outcome State Fault Refusal := done (onTask s e sl (rPutg a x))
/-- PUTF. -/
def execOpPutf (e sl : Fin 8) (x : Fin 1024) (s : State) : Host.Outcome State Fault Refusal := done (onTask s e sl (rPutf x))
/-- EDGR. -/
def execOpEdgr (e sl : Fin 8) (a b : Fin 256) (k : Fin 1024) (s : State) : Host.Outcome State Fault Refusal := done (onTask s e sl (rEdge (fun p n => p = 0 && n != 0) a b k))
/-- EDGF. -/
def execOpEdgf (e sl : Fin 8) (a b : Fin 256) (k : Fin 1024) (s : State) : Host.Outcome State Fault Refusal := done (onTask s e sl (rEdge (fun p n => p != 0 && n = 0) a b k))
/-- EDGC. -/
def execOpEdgc (e sl : Fin 8) (a b : Fin 256) (k : Fin 1024) (s : State) : Host.Outcome State Fault Refusal := done (onTask s e sl (rEdge (fun p n => p != n) a b k))
/-- EDGCLR. -/
def execOpEdgclr (e sl : Fin 8) (k : Fin 1024) (s : State) : Host.Outcome State Fault Refusal := done (onTask s e sl (rEdgclr k))
/-- TON. -/
def execOpTon (e sl : Fin 8) (a b : Fin 256) (c : Fin 256) (s : State) : Host.Outcome State Fault Refusal := done (onTask s e sl (rTimer tonStep a b c))
/-- TOF. -/
def execOpTof (e sl : Fin 8) (a b : Fin 256) (c : Fin 256) (s : State) : Host.Outcome State Fault Refusal := done (onTask s e sl (rTimer tofStep a b c))
/-- TP. -/
def execOpTp (e sl : Fin 8) (a b : Fin 256) (c : Fin 256) (s : State) : Host.Outcome State Fault Refusal := done (onTask s e sl (rTimer tpStep a b c))
/-- TPRE. -/
def execOpTpre (e sl : Fin 8) (b : Fin 256) (c : Fin 256) (s : State) : Host.Outcome State Fault Refusal := done (onTask s e sl (rTpre b c))
/-- TELP. -/
def execOpTelp (e sl : Fin 8) (a : Fin 256) (c : Fin 256) (s : State) : Host.Outcome State Fault Refusal := done (onTask s e sl (rTelp a c))
/-- TRST. -/
def execOpTrst (e sl : Fin 8) (c : Fin 256) (s : State) : Host.Outcome State Fault Refusal := done (onTask s e sl (rTrst c))
/-- CTU. -/
def execOpCtu (e sl : Fin 8) (a b : Fin 256) (c : Fin 256) (s : State) : Host.Outcome State Fault Refusal := done (onTask s e sl (rCount1 1 a b c))
/-- CTD. -/
def execOpCtd (e sl : Fin 8) (a b : Fin 256) (c : Fin 256) (s : State) : Host.Outcome State Fault Refusal := done (onTask s e sl (rCount1 (-1) a b c))
/-- CRST. -/
def execOpCrst (e sl : Fin 8) (c : Fin 256) (s : State) : Host.Outcome State Fault Refusal := done (onTask s e sl (rCrst c))
/-- CLD. -/
def execOpCld (e sl : Fin 8) (c : Fin 256) (s : State) : Host.Outcome State Fault Refusal := done (onTask s e sl (rCld c))
/-- CPRE. -/
def execOpCpre (e sl : Fin 8) (b : Fin 256) (c : Fin 256) (s : State) : Host.Outcome State Fault Refusal := done (onTask s e sl (rCpre b c))
/-- CGET. -/
def execOpCget (e sl : Fin 8) (a : Fin 256) (c : Fin 256) (s : State) : Host.Outcome State Fault Refusal := done (onTask s e sl (rCget a c))
/-- ALM. -/
def execOpAlm (e sl : Fin 8) (b : Fin 256) (c : Fin 256) (s : State) : Host.Outcome State Fault Refusal := done (onTask s e sl (rAlm b c))
/-- ALMQ. -/
def execOpAlmq (e sl : Fin 8) (a : Fin 256) (c : Fin 256) (s : State) : Host.Outcome State Fault Refusal := done (onTask s e sl (rAlmq a c))
/-- EVT. -/
def execOpEvt (e sl : Fin 8) (b : Fin 256) (c : Fin 256) (s : State) : Host.Outcome State Fault Refusal := done (onTask s e sl (rEvent .evt b c))
/-- TRND. -/
def execOpTrnd (e sl : Fin 8) (b : Fin 256) (c : Fin 256) (s : State) : Host.Outcome State Fault Refusal := done (onTask s e sl (rEvent .trend b c))
/-- EVSIG. -/
def execOpEvsig (e sl : Fin 8) (b : Fin 256) (c : Fin 256) (s : State) : Host.Outcome State Fault Refusal := done (onTask s e sl (rEvent .evsig b c))
/-- EVDIG. -/
def execOpEvdig (e sl : Fin 8) (c : Fin 256) (s : State) : Host.Outcome State Fault Refusal := done (onTask s e sl (rEvdig c))

end Sys2Proof.Machine
end

