-- ==== Sys2Proof/Machine/Sha.lean ====
section
/-! DEFINITION. Machine/Sha.lean: the key derivation function of 13 R418 over HMAC-SHA-256. SHA-256 and HMAC are the named standards FIPS 180-4 and
RFC 2104 (PRESUMED, log 106). -/

namespace Sys2Proof.Machine

/-! ## SHA-256 -/

/-- The round constants: the first 32 bits of the fractional parts of the cube roots of the first 64 primes. -/
def shaK : List Nat :=
  [0x428a2f98, 0x71374491, 0xb5c0fbcf, 0xe9b5dba5, 0x3956c25b, 0x59f111f1, 0x923f82a4, 0xab1c5ed5,
   0xd807aa98, 0x12835b01, 0x243185be, 0x550c7dc3, 0x72be5d74, 0x80deb1fe, 0x9bdc06a7, 0xc19bf174,
   0xe49b69c1, 0xefbe4786, 0x0fc19dc6, 0x240ca1cc, 0x2de92c6f, 0x4a7484aa, 0x5cb0a9dc, 0x76f988da,
   0x983e5152, 0xa831c66d, 0xb00327c8, 0xbf597fc7, 0xc6e00bf3, 0xd5a79147, 0x06ca6351, 0x14292967]
  ++
  [0x27b70a85, 0x2e1b2138, 0x4d2c6dfc, 0x53380d13, 0x650a7354, 0x766a0abb, 0x81c2c92e, 0x92722c85,
   0xa2bfe8a1, 0xa81a664b, 0xc24b8b70, 0xc76c51a3, 0xd192e819, 0xd6990624, 0xf40e3585, 0x106aa070,
   0x19a4c116, 0x1e376c08, 0x2748774c, 0x34b0bcb5, 0x391c0cb3, 0x4ed8aa4a, 0x5b9cca4f, 0x682e6ff3,
   0x748f82ee, 0x78a5636f, 0x84c87814, 0x8cc70208, 0x90befffa, 0xa4506ceb, 0xbef9a3f7, 0xc67178f2]

/-- Rotation of a 32-bit word to the right. -/
def rotr (x n : Nat) : Nat := x >>> n ||| (x <<< (32 - n)) % 2 ^ 32

/-- The message schedule: the words still to be used, each new one formed from the sixteen before it. -/
def shaSchedule : Nat → List Nat → List Nat
  | 0, w => w
  | k + 1, w =>
    let g (i : Nat) : Nat := w.getD i 0
    let s0 := rotr (g 14) 7 ^^^ rotr (g 14) 18 ^^^ g 14 >>> 3
    let s1 := rotr (g 1) 17 ^^^ rotr (g 1) 19 ^^^ g 1 >>> 10
    shaSchedule k ((g 15 + s0 + g 6 + s1) % 2 ^ 32 :: w)

/-- One round on the eight working words. -/
def shaRound (h : List Nat) (k w : Nat) : List Nat :=
  match h with
  | [a, b, c, d, e, f, g, i] =>
    let s1 := rotr e 6 ^^^ rotr e 11 ^^^ rotr e 25
    let ch := (e &&& f) ^^^ ((e ^^^ 0xFFFFFFFF) &&& g)
    let t1 := i + s1 + ch + k + w
    let s0 := rotr a 2 ^^^ rotr a 13 ^^^ rotr a 22
    let maj := (a &&& b) ^^^ (a &&& c) ^^^ (b &&& c)
    [(t1 + s0 + maj) % 2 ^ 32, a, b, c, (d + t1) % 2 ^ 32, e, f, g]
  | _ => h

/-- A block of sixteen words, first word first. -/
def shaBlock (h ws : List Nat) : List Nat :=
  let w := (shaSchedule 48 ws.reverse).reverse
  let r := (shaK.zip w).foldl (fun x kw => shaRound x kw.1 kw.2) h
  (h.zip r).map (fun p => (p.1 + p.2) % 2 ^ 32)

/-- Words of octets, most significant octet first. -/
def beWords : Nat → List Nat → List Nat
  | 0, _ => []
  | n + 1, l => beOctets (l.take 4) :: beWords n (l.drop 4)

/-- The blocks of a padded message. -/
def shaBlocks : Nat → List Nat → List Nat → List Nat
  | 0, _, h => h
  | n + 1, l, h => shaBlocks n (l.drop 64) (shaBlock h (beWords 16 (l.take 64)))

/-- Octets of a number, highest first. -/
def octetsBe (k n : Nat) : List Nat := (octetsLe k n).reverse

/-- SHA-256 of octets, as 32 octets. -/
def sha256 (m : List Nat) : List Nat :=
  let z := (119 - m.length % 64) % 64
  let p := m ++ [0x80] ++ List.replicate z 0 ++ octetsBe 8 (8 * m.length)
  let h := [0x6a09e667, 0xbb67ae85, 0x3c6ef372, 0xa54ff53a, 0x510e527f, 0x9b05688c, 0x1f83d9ab, 0x5be0cd19]
  (shaBlocks (p.length / 64) p h).flatMap (octetsBe 4)

/-! ## HMAC and the KDF (R418) -/

/-- HMAC-SHA-256 under a key of at most 64 octets. -/
def hmac256 (key m : List Nat) : List Nat :=
  let k := key ++ List.replicate (64 - key.length) 0
  sha256 (k.map (fun b => b ^^^ 0x5C) ++ sha256 (k.map (fun b => b ^^^ 0x36) ++ m))

/-- ASCII octets of a label, without a terminator. -/
def ascii (t : String) : List Nat := t.toList.map Char.toNat

/-- The input of iteration `i`: [i]₃₂ ‖ Label ‖ 0x00 ‖ Context ‖ [L]₃₂. -/
def kdfInput (i : Nat) (label : String) (context : List Nat) (bits : Nat) : List Nat :=
  octetsBe 4 i ++ ascii label ++ [0] ++ context ++ octetsBe 4 bits

/-- The KDF of R418: the leftmost `bits` bits, in whole octets, of the iterations from 1. -/
def kdf (kdk : List Nat) (label : String) (context : List Nat) (bits : Nat) : List Nat :=
  ((List.range ((bits + 255) / 256)).flatMap (fun i => hmac256 kdk (kdfInput (i + 1) label context bits))).take (bits / 8)

end Sys2Proof.Machine
end

