-- ==== Sys2Proof/Machine/Keys.lean ====
section
/-! DEFINITION. Machine/Keys.lean: Mortise slot pairs (13 R413 to R415): reading and storing them, and which operations may use one; what SE derives from
the root secret and what check values are (R414, R416 to R418). -/

namespace Sys2Proof.Machine

/-- Applies a change to the structures of SE. -/
def mapSe (s : State) (f : SeState → SeState) : State := { s with se := f s.se }

/-- A slot pair; all zero when empty. -/
def slotAt (s : State) (p : Nat) : SlotPair := tabGet {} s.se.slots p

/-- Stores a pair; one that holds no key is empty. -/
def setSlot (s : State) (p : Nat) (x : SlotPair) : State :=
  mapSe s (fun e => { e with slots := tabSet {} e.slots p (if x.key0.isNone && x.key1.isNone then {} else x) })

/-- The uses of Table 3. -/
inductive KeyUse where
  | verifyImage | signEvent | truss | station | oscore
deriving DecidableEq, Repr

/-- Policy bit of a use. -/
def KeyUse.bit : KeyUse → Nat
  | .verifyImage => 0 | .signEvent => 1 | .truss => 2 | .station => 3 | .oscore => 4

/-- Key types that Table 3 lists for a use; SIG_ALG narrows VERIFY_IMAGE. -/
def KeyUse.types : KeyUse → List Nat
  | .verifyImage => [4, 5] | .signEvent => [2, 3] | _ => [1]

/-- Material of key `k` of a pair. -/
def SlotPair.key (x : SlotPair) (k : Nat) : Option Nat := if k = 0 then x.key0 else x.key1

/-- SE may use key `k` of a pair for an operation that acts for a tenant (R415); in Service every use is refused (R431). -/
def keyUsableAt (s : State) (p k : Nat) (u : KeyUse) (tenant : Nat) : Bool :=
  let x := slotAt s p
  bitOf x.policy u.bit && u.types.contains x.ty && (x.binding == tenant || x.binding == 4095) && (x.key k).isSome && getF s Fld.LC_STATE_STATE != 3

/-- SE may use the active key of a pair. -/
def keyUsable (s : State) (p : Nat) (u : KeyUse) (tenant : Nat) : Bool := keyUsableAt s p (slotAt s p).active u tenant

/-- Deletes the entry of a table of pairs: every pair is empty. -/
def clearMortise (s : State) : State := mapSe s (fun e => { e with slots := [] })

/-- KS_STAT.PAIRS_USED. -/
def pairsUsed (s : State) : Nat := s.se.slots.length

/-! ## Points, check values, AES-256-GCM -/

/-- A compressed point: the parity octet and the x coordinate, highest octet first. -/
def compressed (n : Nat) (odd : Bool) (x : Nat) : List Nat := (2 + b2n odd) :: octetsBe n x

/-- Octets of a key's material (R414 Table 2). -/
def materialLen (ty : Nat) : Nat := if ty = 3 || ty = 5 then 48 else 32

/-- The compressed public point of private key `m`, of type 2 or 3: the curve's arithmetic is not computed (log 10). -/
def privatePoint (ty m : Nat) : List Nat := compressed (materialLen ty) (Config.crypto 24 [ty, m] % 2 == 1) (Config.crypto 25 [ty, m] % 2 ^ 384)

/-- Check value of a key (R414): the leftmost 24 bits of SHA-256 of the compressed point, or of AES-256 over zeros for a key derivation key. -/
def checkValue (ty m : Nat) (odd : Bool) : Nat :=
  if ty = 1 then Config.crypto 22 [ty, m] % 2 ^ 24
  else beOctets ((sha256 (if ty = 2 || ty = 3 then privatePoint ty m else compressed (materialLen ty) odd m)).take 3)

/-- AES-256-GCM: the octets of a payload encrypted under a key and a nonce, or decrypted, the cipher being a key stream (log 10). -/
def gcmEncrypt (key nonce payload : List Nat) : List Nat := payload.mapIdx (fun i b => b ^^^ Config.crypto 41 (key ++ nonce ++ [i]) % 256)

/-- AES-256-GCM: the tag over additional data and ciphertext (log 10). -/
def gcmTag (key nonce aad text : List Nat) : List Nat := octetsLe 16 (Config.crypto 40 (key ++ nonce ++ [aad.length] ++ aad ++ text))

/-! ## The root secret (R416 to R418) -/

/-- The root secret in the part's fuses, 32 octets (log 10). -/
def rootSecret : List Nat := octetsBe 32 (Config.crypto 50 [])

/-- The module serial, 8 octets, highest first (R418). -/
def serialOctets (s : State) : List Nat := octetsBe 8 (getF s Fld.TR_SER_LO_SERIAL + 2 ^ 32 * getF s Fld.TR_SER_HI_SERIAL)

/-- Order of the group of P-384. -/
def orderP384 : Nat := 0xffffffffffffffffffffffffffffffffffffffffffffffffc7634d81f4372ddf581a0db248b0a77aecec196accc52973

/-- The private scalar of the identity key (R416). -/
def identityScalar (s : State) : Nat := beOctets (kdf rootSecret "MORTISE-IDENTITY" (serialOctets s) 448) % (orderP384 - 1) + 1

/-- The image-store key, and the tag of an image stored in NAND (R416, R417). -/
def imageTag (octets : List Nat) : List Nat := hmac256 (kdf rootSecret "NAND-IMAGE" [] 256) octets

end Sys2Proof.Machine
end

