-- ==== Sys2Proof/Machine/Tasks.lean ====
section
/-! DEFINITION. Machine/Tasks.lean: cyclic execution on the logic engines (04): release, gather, dispatch, scatter, task states, commands,
admission figures, and the event queues of 03 R101. -/

namespace Sys2Proof.Machine

/-! ## Addresses (02 R39) -/

/-- The local index that a GPA names here: module 511 and the module's own number are local, any other number is reached through its proxy. -/
def localIndex? (s : State) (gpa : Nat) : Option Nat :=
  let m := gpa / 65536 % 512
  if m = 511 || (getB s Fld.TR_SELF_NUMBERED && m = getF s Fld.TR_SELF_NUMBER) then some (gpa % 65536)
  else (s.pt.recs.find? (fun kr => kr.2.proxy && kr.2.defined && kr.2.remoteGpa == gpa % 2 ^ 25)).map (fun kr => kr.1)

/-! ## The change that commits at the present tick (05 R144, R157; 01 R26) -/

/-- The state code of the scarf. -/
def scfState (s : State) : Nat := getF s Fld.SCF_STATE_STATE

/-- The change in hand. -/
def inHand? (s : State) : Option Change := if scfState s = 0 then none else s.scf.queue.head?

/-- The change in hand commits at the present tick: armed, its target reached, and for one of the estate GO held; or in doubt with GO learned later. -/
def commitDue (s : State) : Option Change :=
  match inHand? s with
  | none => none
  | some c =>
    if scfState s = 4 && decide (s.scf.target ≤ s.tick) && (!c.estate || getB s Fld.SCF_ESTATE_GO_HELD) then some c
    else if scfState s = 5 && !s.mem.restage && (match c.late with | some t => decide (t ≤ s.tick) | none => false) then some c
    else none

/-! ## Keys and small readings -/

/-- The engines of a key. -/
def keyE (k : Nat) : Nat := k / 8
/-- The slot of a key. -/
def keyS (k : Nat) : Nat := k % 8

/-- State code of a task slot: 0 no task, 1 Run, 2 Stop, 3 Hold. -/
def taskState (s : State) (k : Nat) : Nat := getF s (Fld.LE_T_STATE_STATE (keyE k) (keyS k))

/-- The task at a key. -/
def taskOf? (s : State) (k : Nat) : Option Task := tabGet? s.tasks k

/-- Stores a task at a key. -/
def putTask (s : State) (k : Nat) (t : Task) : State := { s with tasks := tabPut s.tasks k t }

/-- Applies `f` to the task at a key, if there is one. -/
def mapTask (s : State) (k : Nat) (f : Task → Task) : State :=
  match taskOf? s k with | some t => putTask s k (f t) | none => s

/-- Sets STATE and STOP_CAUSE. -/
def setTaskState (s : State) (k st cause : Nat) : State :=
  setFs s [(Fld.LE_T_STATE_STATE (keyE k) (keyS k), st), (Fld.LE_T_STATE_STOP_CAUSE (keyE k) (keyS k), cause)]

/-- Keys of the tasks of an engine, slots ascending. -/
def engineKeys (s : State) (e : Nat) : List Nat := s.tasks.filterMap (fun kt => if kt.1 / 8 = e then some kt.1 else none)

/-- No task of the engine has a cycle in progress. -/
def engineIdle (s : State) (e : Nat) : Bool := s.tasks.all (fun kt => !(kt.1 / 8 == e && kt.2.phase != .idle))

/-- R113's order: Express first, then ascending PERIOD_N, then slot. -/
def gatherBefore (a b : Nat × Task) : Bool :=
  if a.2.dfn.express != b.2.dfn.express then a.2.dfn.express
  else if a.2.dfn.period ≠ b.2.dfn.period then decide (a.2.dfn.period < b.2.dfn.period) else decide (a.1 < b.1)

/-- The least element by an ordering. -/
def leastBy {α : Type} (lt : α → α → Bool) : List α → Option α
  | [] => none
  | a :: t => match leastBy lt t with | none => some a | some b => if lt b a then some b else some a

/-- LE_E_STAT follows the engine's activity: gather, scatter, run, or idle (04 Table 11). The released task that R113 puts first is being gathered: its
IN_CYCLE is set (Table 12). -/
def updActivity (s : State) (e : Nat) : State :=
  let at_ (p : Phase) : Option Nat := (s.tasks.find? (fun kt => kt.1 / 8 == e && kt.2.phase == p)).map (fun kt => kt.1 % 8)
  match leastBy gatherBefore (s.tasks.filter (fun kt => kt.1 / 8 == e && kt.2.phase == .released)), at_ .scatter, at_ .running with
  | some kt, _, _ => setFs s [(Fld.LE_E_STAT_SLOT e, kt.1 % 8), (Fld.LE_E_STAT_ACTIVITY e, 1), (Fld.LE_T_STATE_IN_CYCLE e (kt.1 % 8), 1)]
  | none, some sl, _ => setFs s [(Fld.LE_E_STAT_SLOT e, sl), (Fld.LE_E_STAT_ACTIVITY e, 3)]
  | none, none, some sl => setFs s [(Fld.LE_E_STAT_SLOT e, sl), (Fld.LE_E_STAT_ACTIVITY e, 2)]
  | none, none, none => setF s (Fld.LE_E_STAT_ACTIVITY e) 0

/-! ## Release and overrun at a grid tick (R110, R111, R131) -/

/-- The task is due at the present tick: in Run, or held with a step pending, at a conforming tick not before its first; an entry to Doze releases none
(14 R446). -/
def taskDue (s : State) (k : Nat) (t : Task) : Bool :=
  let st := taskState s k
  modeOf s != 4 && (st == 1 || (st == 3 && getB s (Fld.LE_T_STATE_STEP_PEND (keyE k) (keyS k)) && t.phase == .idle))
    && decide (s.tick % max t.dfn.period 1 = 0) && decide (t.minRel ≤ s.tick)

/-- A release (R110): statistics, a cleared flag word (R82), the release time. -/
def releaseTask (s : State) (k : Nat) (t : Task) : State :=
  let e := keyE k
  let sl := keyS k
  let run := { t.run with flags := 0, pc := 0, cycles := 0, loops := [], ended := false, relTime := s.tick * 250 }
  let s := putTask s k { t with phase := .released, ran := true, relTick := s.tick, relMono := s.mono, relEl := s.el, deadline := s.mono + max t.dfn.period 1,
                                late := false, stepped := false, written := 0, run := run }
  let s := incF s (Fld.LE_T_RELEASES_COUNT e sl)
  setFs s [(Fld.LE_T_LASTREL_TIME e sl, s.tick * 250 % 2 ^ 32), (Fld.LE_E_UTIL_GATED e, 0)]

/-- A release dropped because the previous cycle has not ended (R131). -/
def overrunTask (s : State) (k : Nat) (t : Task) : State :=
  let e := keyE k
  let sl := keyS k
  let s := putTask s k { t with late := true }
  let s := incSatF (incSatF s (Fld.LE_T_OVERRUNS_DROPPED e sl)) (Fld.LE_T_STATE_OVR_CONSEC e sl)
  raise s .taskOverrun k

/-- One task at a grid tick, or at the commit that admits or starts it. A cycle unfinished at its first due tick after a step loses that release
uncounted (R111; DESIGN CHOICE, log 105). -/
def tickTask (s : State) (k : Nat) : State :=
  match taskOf? s k with
  | none => s
  | some t =>
    if taskDue s k t then
      (if t.phase = .idle then releaseTask s k t else if t.stepped then putTask s k { t with stepped := false } else overrunTask s k t) else s


/-! ## Gather (R49, R113) -/

/-- A record as the gathers of the present tick read it: without the outputs of loop samples taken at that tick (01 R26). -/
def tickRec (s : State) (i : Nat) : PtRec :=
  let r := ptAt s i
  match tabGet? s.pt.loopOuts i with
  | some o => { r with value := o.value, wq := o.wq, stamp := o.stamp, seq := o.seq, staleLatch := o.staleLatch }
  | none => r

/-- One import read from the point table as it stands; a proxy or record that is not there reads ABSENT (DEDUCED, log 14). -/
def gatherOne (s : State) (imp : Nat × VType) : InEntry :=
  match localIndex? s imp.1 with
  | none => { value := 0, q := .absent, ty := imp.2, seq := 0 }
  | some i =>
    let r := tickRec s i
    { value := ptValue r, q := ptQuality s r, ty := r.ty, seq := r.seq }

/-- The gather of one released task: the image in import-list order, the end of the gather as its statistics record it (R138). -/
def gatherTask (s : State) (k : Nat) (t : Task) : State :=
  let e := keyE k
  let sl := keyS k
  let t := { t with phase := .ready, run := { t.run with imports := t.dfn.imports.map (gatherOne s) } }
  let at_ := satAt 0xFFFF (fcSince s t.relEl)
  let s := setFs (putTask s k t) [(Fld.LE_T_STATE_IN_CYCLE e sl, 1), (Fld.LE_T_SNAP_LAST_END e sl, at_)]
  updActivity (maxF s (Fld.LE_T_SNAP_MAX_END e sl) at_) e

/-- TASK_GATHER: after the commit of its tick (01 R26). -/
def execTaskGather (e : Fin 8) (s : State) : Host.Outcome State Fault Refusal :=
  if (commitDue s).isSome then done s
  else match leastBy gatherBefore (s.tasks.filter (fun kt => kt.1 / 8 == e.val && kt.2.phase == .released)) with
  | none => done s
  | some (k, t) => done (gatherTask s k t)

/-! ## Dispatch (R115) -/

/-- Earliest deadline first; ties to the earlier release, then Express, then the lower slot. -/
def runBefore (a b : Nat × Task) : Bool :=
  if a.2.deadline ≠ b.2.deadline then decide (a.2.deadline < b.2.deadline)
  else if a.2.relMono ≠ b.2.relMono then decide (a.2.relMono < b.2.relMono)
  else if a.2.dfn.express != b.2.dfn.express then a.2.dfn.express else decide (a.1 < b.1)

/-- A deadline strictly earlier than another's: what preempts a running task. -/
def deadlineBefore (a b : Task) : Bool := decide (a.deadline < b.deadline)

/-- The engine has a gather to make or a scatter to end, which come before any run (R113). -/
def engineBusy (s : State) (e : Nat) : Bool :=
  s.tasks.any (fun kt => kt.1 / 8 == e && (kt.2.phase == .released || kt.2.phase == .scatter))

/-- The core chooses what runs (R115). -/
def dispatchEngine (s : State) (e : Nat) : State :=
  if engineBusy s e then s
  else
    match leastBy runBefore (s.tasks.filter (fun kt => kt.1 / 8 == e && (kt.2.phase == .ready || kt.2.phase == .preempted))) with
    | none => s
    | some (k, t) =>
      match s.tasks.find? (fun kt => kt.1 / 8 == e && kt.2.phase == .running) with
      | none => updActivity (putTask s k { t with phase := .running }) e
      | some (k0, t0) =>
        if deadlineBefore t t0 then
          let s := putTask (putTask s k0 { t0 with phase := .preempted }) k { t with phase := .running }
          updActivity (incF s (Fld.LE_E_STAT_PREEMPTS e)) e
        else s

/-- TASK_DISPATCH. -/
def execTaskDispatch (e : Fin 8) (s : State) : Host.Outcome State Fault Refusal := done (dispatchEngine s e.val)

/-! ## END (R116, R133) -/

/-- The end-of-run report of a task: costs, flags, and a run over its cost bound. -/
def endReport (s : State) (k : Nat) (t : Task) : State :=
  let e := keyE k
  let sl := keyS k
  let cycles := if forced s .taskCost k then t.dfn.bound + 1 else t.run.cycles
  let s := setFs s [(Fld.LE_T_LASTCOST_CYCLES e sl, satAt (2 ^ 32 - 1) cycles), (Fld.LE_T_FLAGS_LAST e sl, t.run.flags)]
  let s := latchF s (Fld.LE_T_FLAGS_STICKY e sl) t.run.flags
  let s := maxF s (Fld.LE_T_MAXCOST_MAX e sl) cycles
  if t.dfn.bound < cycles then raise (incSatF s (Fld.LE_T_OVERRUNS_COST_EXCEED e sl)) .taskCost k else s

/-- END of a task's run. A Force on the overrun point holds the run before END (15 Table 1). -/
def endTask (s : State) (e sl : Fin 8) : State :=
  let k := taskKey e sl
  match taskAt? s e sl with
  | none => s
  | some t =>
    if t.phase ≠ .running || gathersFirst s e || forced s .taskOverrun k || forced s .taskLimit k then s
    else
      let t := { t with run := rEnd t.run, phase := .scatter }
      updActivity (endReport (putTask s k t) k t) e.val

/-- END. -/
def execOpEnd (r : Runner) (s : State) : Host.Outcome State Fault Refusal :=
  match r with
  | .task e sl => done (endTask s e sl)
  | .joinery => done { s with jrun := rEnd s.jrun }

/-! ## Scatter (R51, R60, R126, R127, R131, R132) -/

/-- Every export written once, in list order, as a writer write. -/
def scatterOuts (s : State) (k : Nat) : List TaskOut → List OutEntry → State
  | [], _ => s
  | x :: xs, os =>
    let o := os.headD {}
    scatterOuts (scatterWrite s k x.index o.value (if o.faultReq then .fault else .good)) k xs os.tail

/-- The task goes to Stop with a stop scatter due; what Hold mode marked it with goes with the hold. -/
def stopTask (s : State) (k cause : Nat) : State :=
  let s := mapTask s k (fun t => { t with stopDue := none, holdDue := none, scatterDue := true, resumeHold := false })
  setTaskState (setF s (Fld.LE_T_STATE_HOLD_MODE (keyE k) (keyS k)) 0) k 2 cause

/-- The task goes to Hold; `mark` sets HOLD_MODE. -/
def holdTask (s : State) (k : Nat) (mark : Bool) : State :=
  let s := setF (mapTask s k (fun t => { t with holdDue := none })) (Fld.LE_T_STATE_STATE (keyE k) (keyS k)) 3
  if mark then setB s (Fld.LE_T_STATE_HOLD_MODE (keyE k) (keyS k)) true else s

/-- What waits for the boundary happens (R126): Stop before Hold; consecutive overruns at the limit before both (R132). -/
def boundary (s : State) (k : Nat) (t : Task) : State :=
  let e := keyE k
  let sl := keyS k
  if t.late && decide (t.dfn.overrunLimit ≤ getF s (Fld.LE_T_STATE_OVR_CONSEC e sl)) then
    raise (stopTask s k 2) .taskLimit k
  else
    let s := if t.late then s else setF s (Fld.LE_T_STATE_OVR_CONSEC e sl) 0
    match t.stopDue, t.holdDue with
    | some c, _ => stopTask s k c
    | none, some m => holdTask s k m
    | none, none => s

/-- The core of an idle engine at 250 MHz is gated, unless the engine holds an Express task (R121). -/
def gateIdle (s : State) (e : Nat) : State :=
  if engineIdle s e && getF s (Fld.LE_E_UTIL_CLOCK e) == 2 && !getB s (Fld.LE_E_UTIL_EXPRESS_HELD e) then setF s (Fld.LE_E_UTIL_GATED e) 1 else s

/-- The idle cores of engines are gated (R121). -/
def gateEngines (s : State) (es : List Nat) : State := es.foldl gateIdle s

/-- The releases of a grid tick suspend a scatter of their engine after the export being written; how many it has written by then is open (R113,
log 4). -/
def suspendScatter (s : State) (e : Nat) : State :=
  if !s.tasks.any (fun kt => kt.1 / 8 == e && kt.2.phase == .released) then s
  else match s.tasks.find? (fun kt => kt.1 / 8 == e && kt.2.phase == .scatter) with
    | none => s
    | some (k, t) =>
      let (n, s) := freshFree s
      let j := n % (t.dfn.outs.length - t.written + 1)
      let s := scatterOuts s k ((t.dfn.outs.drop t.written).take j) (t.run.outs.drop t.written)
      mapTask s k (fun t => { t with written := t.written + j })

/-- The releases of the present tick, of the tasks in `ks`: each engine that releases suspends its scatter, and its activity follows (R110, R113). -/
def releaseKeys (s : State) (ks : List Nat) : State :=
  (List.range 8).foldl (fun s e => updActivity (suspendScatter s e) e) (ks.foldl tickTask s)

/-- Every task's release of the present tick. -/
def releaseAll (s : State) : State := releaseKeys s (s.tasks.map (fun kt => kt.1))

/-- The scatter of a task whose run has ended, and the end of its cycle. -/
def scatterTask (s : State) (k : Nat) (t : Task) : State :=
  let e := keyE k
  let sl := keyS k
  let s := scatterOuts s k (t.dfn.outs.drop t.written) (t.run.outs.drop t.written)
  let s := mapTask s k (fun t => { t with phase := .idle, late := false, written := 0 })
  let s := setFs s [(Fld.LE_T_STATE_IN_CYCLE e sl, 0), (Fld.LE_T_STATE_STEP_PEND e sl, 0)]
  let s := maxF s (Fld.LE_T_RESP_MAX_US e sl) (fcSince s t.relEl / 250)
  updActivity (gateIdle (boundary s k t) e) e

/-- TASK_SCATTER. -/
def execTaskScatter (e sl : Fin 8) (s : State) : Host.Outcome State Fault Refusal :=
  match taskAt? s e sl with
  | some t => if t.phase = .scatter && !gathersFirst s e then done (scatterTask s (taskKey e sl) t) else done s
  | none => done s

/-- The output image as STOP_MODE sets it: STOP_VALUE with FAULT_REQ 0, or as it stands (R127; DEDUCED, log 15). -/
def stopOuts : List TaskOut → List OutEntry → List OutEntry
  | [], os => os
  | _ :: _, [] => []
  | x :: xs, o :: os => (if x.stopMode then { value := x.stopValue, faultReq := false } else o) :: stopOuts xs os

/-- The stop scatter (R127). -/
def stopScatterTask (s : State) (k : Nat) (t : Task) : State :=
  let outs := stopOuts t.dfn.outs t.run.outs
  let s := putTask s k { t with scatterDue := false, run := { t.run with outs := outs } }
  scatterOuts s k t.dfn.outs outs

/-- STOP_SCATTER. -/
def execStopScatter (e sl : Fin 8) (s : State) : Host.Outcome State Fault Refusal :=
  match taskAt? s e sl with
  | some t => if t.scatterDue then done (stopScatterTask s (taskKey e sl) t) else done s
  | none => done s

/-! ## Task states and commands (R126, R129 Tables 3 and 4) -/

/-- Timers reset but for PRESET, edge slots reset: a transition from Stop to Run (R97, R52). -/
def restartRun (r : Run) : Run :=
  { r with timers := r.timers.map Timer.cleared, edges := r.edges.map (fun _ => {}) }

/-- From Stop to Run. -/
def startTask (s : State) (k : Nat) : State :=
  let s := setF s (Fld.LE_T_STATE_HOLD_MODE (keyE k) (keyS k)) 0
  setTaskState (mapTask s k (fun t => { t with run := restartRun t.run, minRel := s.tick, scatterDue := false, resumeHold := false })) k 1
    (getF s (Fld.LE_T_STATE_STOP_CAUSE (keyE k) (keyS k)))

/-- From Hold to Run: no reset, but for a task that R130 put in Hold; HOLD_MODE clears. -/
def unholdTask (s : State) (k : Nat) : State :=
  let s := mapTask s k (fun t => { t with resumeHold := false, minRel := s.tick, run := if t.resumeHold then restartRun t.run else t.run })
  setFs s [(Fld.LE_T_STATE_STATE (keyE k) (keyS k), 1), (Fld.LE_T_STATE_HOLD_MODE (keyE k) (keyS k), 0)]

/-- A Stop: at once when no cycle is in progress, a step that has not begun being cancelled (DESIGN CHOICE, log 103), else at its boundary (R126). -/
def requestStop (s : State) (k cause : Nat) : State :=
  match taskOf? s k with
  | none => s
  | some t =>
    let st := taskState s k
    if st = 1 || st = 3 then
      if t.phase = .idle then stopTask (setF s (Fld.LE_T_STATE_STEP_PEND (keyE k) (keyS k)) 0) k cause
      else putTask s k { t with stopDue := some cause }
    else s

/-- A Hold of a task in Run. -/
def requestHold (s : State) (k : Nat) (mark : Bool) : State :=
  match taskOf? s k with
  | none => s
  | some t =>
    if taskState s k = 1 then (if t.phase = .idle then holdTask s k mark else putTask s k { t with holdDue := some mark }) else s

/-- A Run command's effect. -/
def requestRun (s : State) (k : Nat) : State :=
  match taskState s k with
  | 2 => startTask s k
  | 3 => unholdTask s k
  | _ => s

/-- A Step command's effect: a step in progress ends with its own scatter, so a second Step before that adds none (DESIGN CHOICE, log 103). -/
def requestStep (s : State) (k : Nat) : State :=
  setF (mapTask s k (fun t => { t with minRel := s.tick + 1 })) (Fld.LE_T_STATE_STEP_PEND (keyE k) (keyS k)) 1

/-- The statistics that OP 0b111 clears (R138). -/
def clearTaskStats (s : State) (k : Nat) : State :=
  let e := keyE k
  let sl := keyS k
  setFs s [(Fld.LE_T_MAXCOST_MAX e sl, 0), (Fld.LE_T_FLAGS_STICKY e sl, 0), (Fld.LE_T_SNAP_MAX_END e sl, 0), (Fld.LE_T_RESP_MAX_US e sl, 0)]

/-- RESULT of a task command in the module's mode (Table 4): OP 1 Run, 2 Stop, 3 Hold, 4 Step, 7 clear; other codes 0b11 (R537). A mode that
Table 4 does not name refuses (DEDUCED, log 16). -/
def taskCmdResult (s : State) (k op : Nat) : Nat :=
  let mode := modeOf s
  let st := taskState s k
  if !(op = 1 || op = 2 || op = 3 || op = 4 || op = 7) then 3
  else if st = 0 then 2
  else match op with
    | 1 => if mode = 0 || mode = 1 then 0 else 1
    | 2 => if mode ≤ 3 then 0 else 1
    | 3 => if mode = 0 || mode = 2 then 0 else 1
    | 4 => if (mode = 0 || mode = 2) && st = 3 then 0 else 1
    | _ => 0

/-- An accepted command's effect (Table 3; Table 4's "no effect" entries). -/
def taskCmdEffect (s : State) (k op : Nat) : State :=
  match op with
  | 1 => requestRun s k
  | 2 => if modeOf s = 3 then s else requestStop s k 1
  | 3 => if modeOf s = 2 then s else requestHold s k false
  | 4 => requestStep s k
  | _ => clearTaskStats s k

/-- A command through LE_T_CMD (R126, R129, R138). -/
def taskCmd (s : State) (k op : Nat) : State :=
  let e := keyE k
  let sl := keyS k
  let r := taskCmdResult s k op
  let s := setFs s [(Fld.LE_T_CMD_OP e sl, op), (Fld.LE_T_CMD_RESULT e sl, r), (Fld.LE_T_CMD_BUSY e sl, 0), (Fld.LE_T_CMD_GO e sl, 0)]
  if r = 0 then taskCmdEffect s k op else s

/-- TASK_RUN_CMD. -/
def execTaskRunCmd (e sl : Fin 8) (s : State) : Host.Outcome State Fault Refusal := done (taskCmd s (taskKey e sl) 1)
/-- TASK_STOP_CMD. -/
def execTaskStopCmd (e sl : Fin 8) (s : State) : Host.Outcome State Fault Refusal := done (taskCmd s (taskKey e sl) 2)
/-- TASK_HOLD_CMD. -/
def execTaskHoldCmd (e sl : Fin 8) (s : State) : Host.Outcome State Fault Refusal := done (taskCmd s (taskKey e sl) 3)
/-- TASK_STEP_CMD. -/
def execTaskStepCmd (e sl : Fin 8) (s : State) : Host.Outcome State Fault Refusal := done (taskCmd s (taskKey e sl) 4)
/-- TASK_CLEAR_STATS. -/
def execTaskClearStats (e sl : Fin 8) (s : State) : Host.Outcome State Fault Refusal := done (taskCmd s (taskKey e sl) 7)
/-- MAXCOST_CLEAR. -/
def execMaxcostClear (e sl : Fin 8) (s : State) : Host.Outcome State Fault Refusal := done (setF s (Fld.LE_T_MAXCOST_MAX e.val sl.val) 0)

/-! ## Modes and resets (R126 Table 3, R130) -/

/-- Every task key. -/
def taskKeys (s : State) : List Nat := s.tasks.map (fun kt => kt.1)

/-- Entry to Safe mode: Run and Hold go to Stop with STOP_CAUSE 3. -/
def tasksEnterSafe (s : State) : State := (taskKeys s).foldl (fun s k => requestStop s k 3) s

/-- Entry to Hold mode. -/
def tasksEnterHold (s : State) : State := (taskKeys s).foldl (fun s k => requestHold s k true) s

/-- Exit from Hold mode: tasks marked HOLD_MODE return to Run; a hold of that entry that still waits for its boundary is cancelled (DESIGN CHOICE,
log 104). -/
def tasksLeaveHold (s : State) : State :=
  (taskKeys s).foldl (fun s k =>
    let s := mapTask s k (fun t => { t with holdDue := match t.holdDue with | some true => none | d => d })
    if taskState s k = 3 && getB s (Fld.LE_T_STATE_HOLD_MODE (keyE k) (keyS k)) then unholdTask s k else s) s

/-- Entry to Run mode: every held task returns to Run. -/
def tasksEnterRun (s : State) : State := (taskKeys s).foldl (fun s k => if taskState s k = 3 then unholdTask s k else s) s

/-- SV's action on a task with RESUME = 1 (R130). -/
def resumeTask (s : State) (k : Nat) : State :=
  let e := keyE k
  let sl := keyS k
  if !getB s (Fld.LE_T_STATE_RESUME e sl) then s
  else
    let s := setF s (Fld.LE_T_STATE_RESUME e sl) 0
    match modeOf s with
    | 0 => startTask s k
    | 1 => startTask s k
    | 2 => holdTask (mapTask s k (fun t => { t with resumeHold := true })) k true
    | _ => s

/-- TASK_RESUME. -/
def execTaskResume (e : Fin 8) (s : State) : Host.Outcome State Fault Refusal :=
  if engineRuns s (if e.val < 4 then 6 else 7) && !blockHeld s e.val then done ((engineKeys s e.val).foldl resumeTask s) else done s

/-! ## Events after the run (R101) -/

/-- The first record that satisfies `p`, changed by `f`. -/
def updFirst {α : Type} (p : α → Bool) (f : α → α) : List α → List α
  | [] => []
  | a :: t => if p a then f a :: t else a :: updFirst p f t

/-- The run is over: the core has reached END or the task has no cycle in progress. -/
def runOver (t : Task) : Bool := t.phase == .scatter || t.phase == .idle || t.phase == .released || t.phase == .ready

/-- An EVSIG record not yet signed. -/
def unsigned (e : EventRec) : Bool := e.kind == .evsig && e.signature.isNone
/-- An EVDIG record without its digest. -/
def undigested (e : EventRec) : Bool := e.kind == .evdig && e.digest.isNone

/-- The octets the digest is taken over: each entry's value, then its word 1, every word little-endian (R101). -/
def digestOctets (os : List OutEntry) : List Nat := os.flatMap (fun o => octetsLe 4 o.value.toNat ++ octetsLe 4 (b2n o.faultReq))

/-- SE's signature with the active key of `slot` (free, log 10); zero where SE may not use the pair (13 R415, R429). -/
def signWith (s : State) (slot : Nat) (e : EventRec) : EventRec :=
  { e with signature := some (if keyUsable s slot .signEvent e.tenant then
      Config.crypto 1 ([slot, ((slotAt s slot).key (slotAt s slot).active).getD 0, e.code, e.value.toNat, e.q.code, e.ty.code, e.tenant, e.engine, e.slot,
        e.relTime]) else 0) }

/-- SHA-256 of the copied image, as a number whose highest octet is the digest's first. -/
def digestOf (e : EventRec) : EventRec := { e with digest := some (beOctets (sha256 (digestOctets e.image))) }

/-- EVENT_SIGN. -/
def execEventSign (e sl : Fin 8) (s : State) : Host.Outcome State Fault Refusal :=
  done (mapTask s (taskKey e sl) (fun t =>
    if runOver t then { t with run := { t.run with events := updFirst unsigned (signWith s t.dfn.signSlot) t.run.events } } else t))

/-- EVENT_DIGEST. -/
def execEventDigest (e sl : Fin 8) (s : State) : Host.Outcome State Fault Refusal :=
  done (mapTask s (taskKey e sl) (fun t =>
    if runOver t then { t with run := { t.run with events := updFirst undigested digestOf t.run.events } } else t))

/-- A trend log takes an entry; the oldest of DEPTH goes (R101). -/
def trendPut (depth : Nat) (log : List TrendEntry) (v : TrendEntry) : List TrendEntry :=
  let l := log ++ [v]
  l.drop (l.length - depth)

/-- The records that SV can drain: up to the first that still waits for SE. -/
def drainable (es : List EventRec) : List EventRec := es.takeWhile (fun e => !(unsigned e || undigested e))

/-- One drained record: a trend entry into its ring, any other record into the event log. -/
def drainRec (s : State) (k : Nat) (e : EventRec) : State :=
  match e.kind with
  | .trend =>
    let ds := match taskOf? s k with | some t => t.dfn.trends | none => []
    let ls := tabGet [] s.trends k
    let put := trendPut (ds.getD e.code 16) (ls.getD e.code []) { value := e.value, q := e.q, ty := e.ty, relTime := e.relTime }
    { s with trends := tabSet [] s.trends k (listSet ls e.code put) }
  | _ => logEvent s (.event e)

/-- SV drains a task's queue. -/
def drainQueue (s : State) (k : Nat) (t : Task) : State :=
  let es := drainable t.run.events
  es.foldl (fun s e => drainRec s k e) (putTask s k { t with run := { t.run with events := t.run.events.drop es.length } })

/-- EVENT_QUEUE_DRAIN. -/
def execEventQueueDrain (e sl : Fin 8) (s : State) : Host.Outcome State Fault Refusal :=
  match taskAt? s e sl with
  | some t => done (drainQueue s (taskKey e sl) t)
  | none => done s

/-! ## Admission figures (R114, R118, R119, R123) -/

/-- Gather bound G in fabric cycles. -/
def gatherBound (d : TaskDef) : Nat := 32 + 20 * d.imports.length
/-- Scatter bound S in fabric cycles. -/
def scatterBound (d : TaskDef) : Nat := 192 + 24 * d.outs.length
/-- Twice the ratio r of engine clock to 250 MHz, for a CLOCK code: 4, 3, 2. -/
def clockRatio2 (clock : Nat) : Nat := 4 - min clock 2
/-- Engine cycles per grid tick. -/
def cyclesPerTick (clock : Nat) : Nat := 31250 * clockRatio2 clock
/-- CLOCK code of an engine at a profile; an engine that holds an Express task runs at 500 MHz (R22, R124). -/
def clockOf (profile : Nat) (express : Bool) : Nat := if express then 0 else min profile 2
/-- W of R119. -/
def wakeCharge (clock : Nat) : Nat := if clock = 2 then 500 else 0
/-- C_i of R118. -/
def costC (clock : Nat) (d : TaskDef) : Nat :=
  d.bound + (clockRatio2 clock * gatherBound d + 1) / 2 + (clockRatio2 clock * scatterBound d + 1) / 2 + 64 + wakeCharge clock
/-- ceil(65,536 C / P) of R118. -/
def utilOf (clock : Nat) (d : TaskDef) : Nat :=
  let p := d.period * cyclesPerTick clock
  (65536 * costC clock d + p - 1) / max p 1
/-- The admission sum of a set of tasks. -/
def utilSum (clock : Nat) (ds : List TaskDef) : Nat := ds.foldl (fun n d => n + utilOf clock d) 0
/-- D of R123 for a task among the tasks of its engine. -/
def snapBound (clock : Nat) (all : List (Nat × Task)) (me : Nat × Task) : Nat :=
  (all.filter (fun o => o.1 ≠ me.1 && gatherBefore o me)).foldl (fun n o => n + gatherBound o.2.dfn) 0 + gatherBound me.2.dfn + 64
    + (if clock = 2 then 500 else 0)

/-- Registers of an engine and its tasks that follow from the admitted set and the clock (R118, R123, R124). -/
def recompute (s : State) (e : Nat) : State :=
  let ts := s.tasks.filter (fun kt => kt.1 / 8 == e)
  let express := ts.any (fun kt => kt.2.dfn.express)
  let clock := clockOf (getF s Fld.PW_CFG_PROFILE) express
  let s := setFs s [(Fld.LE_E_UTIL_CLOCK e, clock), (Fld.LE_E_UTIL_EXPRESS_HELD e, b2n express),
    (Fld.LE_E_UTIL_UTIL e, satAt 0xFFFF (utilSum clock (ts.map (fun kt => kt.2.dfn))))]
  let s := if express then setF s (Fld.LE_E_UTIL_GATED e) 0 else s
  ts.foldl (fun s kt =>
    let d := snapBound clock ts kt
    setFs s [(Fld.LE_T_BOUND_COST e (keyS kt.1), satAt (2 ^ 32 - 1) (costC clock kt.2.dfn)), (Fld.LE_T_SNAPBND_BOUND e (keyS kt.1), d),
      (Fld.LE_T_CFG_COHERENT e (keyS kt.1), b2n (decide (d ≤ 7500)))]) s

/-- Every engine's figures, and the number of Express tasks (R138). -/
def recomputeAll (s : State) : State :=
  setF ((List.range 8).foldl recompute s) Fld.LE_GSTAT_EXPRESS ((s.tasks.filter (fun kt => kt.2.dfn.express)).length)

/-- A run as admission initialises it (R50, R52, R80, R97). -/
def freshRun (d : TaskDef) (k : Nat) : Run :=
  { types := d.types, locals := d.types.map (fun _ => {}), code := d.code, consts := d.consts, table := d.table,
    imports := d.imports.map (fun p => { ty := p.2 }), outs := d.outs.map (fun x => { value := x.initial }), outTypes := d.outs.map (fun x => x.ty),
    edges := List.replicate d.nEdges {}, timers := d.timers.map (fun p => { preset := p }), counters := d.counters.map (fun p => { pv := p }),
    alarms := d.alarms.map (fun a => { eventCode := a.1, failActive := a.2 }), tenant := d.tenant, engine := keyE k, slot := keyS k }

/-- The registers that describe an admitted task (04 Table 12). -/
def taskRegs (s : State) (k : Nat) (d : TaskDef) : State :=
  let e := keyE k
  let sl := keyS k
  setFs s [(Fld.LE_T_CFG_PERIOD_N e sl, d.period), (Fld.LE_T_CFG_OVERRUN_LIMIT e sl, d.overrunLimit), (Fld.LE_T_CFG_EXPRESS e sl, b2n d.express),
    (Fld.LE_T_CFG_VALID e sl, 1), (Fld.LE_T_ID_TENANT e sl, d.tenant), (Fld.LE_T_ID_TASK_NO e sl, d.taskNo), (Fld.LE_T_IMAGE_IMAGE_ID e sl, d.imageId)]

/-- A fresh admission at the commit tick (R126 Table 3). -/
def admitTask (s : State) (k : Nat) (d : TaskDef) (start : Bool) : State :=
  let t : Task := { dfn := d, run := freshRun d k, minRel := s.tick }
  let s := { s with trends := tabSet [] s.trends k (d.trends.map (fun _ => [])) }
  setTaskState (taskRegs (putTask s k t) k d) k (if start then 1 else 2) 0

/-- The LE_T fields of a slot that no longer holds a task. -/
def clearSlot (s : State) (k : Nat) : State :=
  let base := 2166784 + 512 * keyE k + 64 * keyS k
  { s with tasks := tabDel s.tasks k, trends := tabDel s.trends k, regs := s.regs.filter (fun kv => !(base ≤ kv.1 / 256 && kv.1 / 256 < base + 64)) }

end Sys2Proof.Machine
end

