-- ==== Sys2Proof/Machine/Loops.lean ====
section
/-! DEFINITION. Machine/Loops.lean: the loop engines (06): sample instants, Q15 scaling, the cascade, ramps, competition, supervision, states,
overruns, cost and admission. -/

namespace Sys2Proof.Machine

/-! ## Q15 (R170, R171) -/

/-- Saturation to Q15, and whether it happened. -/
def satQ (v : Int) : Int × Bool :=
  if v < -32768 then (-32768, true) else if 32767 < v then (32767, true) else (v, false)

/-- A signed 16-bit field of a word. -/
def q15At (w lo : Nat) : Int := (BitVec.ofNat 16 (w / 2 ^ lo)).toInt

/-- A record's effective value as Q15, and whether it saturated; none: NaN or infinite (R170, R187). Each operation rounds to binary32, the last
result to an integer (DEDUCED, log 17). -/
def toQ15 (ty : VType) (w zero span : Word) : Option (Int × Bool) :=
  match ty with
  | .real32 =>
    if realSpecial w then none
    else
      let c := realMul (realDiv (realSub w zero).w span).w 0x47000000
      if realSpecial c.w then none else some (satQ (ratRound (realVal c.w)))
  | _ => some (w.toInt, false)

/-- A Q15 output as the record's word (R171). -/
def fromQ15 (ty : VType) (u : Int) (zero span : Word) : Word :=
  match ty with
  | .real32 => (realAdd zero (realMul (realOf (mkRat u 32768)).w span).w).w
  | _ => wordOfInt u

/-- Limits a value to a range. -/
def clampQ (lo hi v : Int) : Int := min (max v lo) hi

/-! ## Loops and groups of State -/

/-- The loop with a number. -/
def loopAt? (s : State) (n : Nat) : Option Loop := tabGet? s.loops n
/-- Stores a loop. -/
def setLoop (s : State) (n : Nat) (l : Loop) : State := { s with loops := tabPut s.loops n l }
/-- Applies `f` to a loop, if it is defined. -/
def mapLoop (s : State) (n : Nat) (f : Loop → Loop) : State :=
  match loopAt? s n with | some l => setLoop s n (f l) | none => s
/-- The group with a number. -/
def groupAt? (s : State) (g : Nat) : Option Group := tabGet? s.groups g
/-- The sub-tick number s = 4k + j of the present sub-tick (R163). -/
def subNumber (s : State) : Nat := 4 * s.tick + (s.sub - 1)

/-! ## Supervision forms (R185) -/

/-- The form of supervision of a loop in a mode (Tables 2 and 4). -/
def supvForm (mode : Nat) (l : Loop) : Nat :=
  match l.state with
  | .auto =>
    if mode = 0 || mode = 2 then 1
    else if mode = 1 then (if l.dfn.mAlpha ≠ 0 then 2 else 1)
    else if mode = 3 && !l.dfn.safeAct then 3 else 0
  | .manual => if l.dfn.mAlpha ≠ 0 then 2 else 0
  | .track => if l.dfn.mAlpha ≠ 0 then 2 else 0
  | _ => 0

/-- A change of form: the count returns to zero and the model is re-anchored. -/
def updForm (mode : Nat) (l : Loop) : Loop :=
  let f := supvForm mode l
  if f = l.supv then l else { l with supv := f, cnt := 0, reanchor := true }

/-- A change of state; SAFE_CAUSE names the cause while the loop is in SAFE. -/
def toState (mode : Nat) (st : LoopState) (cause : Nat) (l : Loop) : Loop := updForm mode { l with state := st, safeCause := cause }

/-- An entry to AUTO (R178), by a bumpless start or from TRACK. -/
def enterAuto (mode : Nat) (bump : Bool) (l : Loop) : Loop :=
  toState mode .auto 0 { l with wInit := true, bumpless := l.bumpless || bump }

/-! ## Commands at the sample instant (R181 Table 3, R184) -/

/-- One accepted command. A command that Table 3 does not list for the loop's state changes nothing. -/
def applyCmd (mode : Nat) (l : Loop) (c : LoopCmd) : Loop :=
  match c, l.state with
  | .clear, _ => { l with overruns := 0, badPvCount := 0, feEvents := 0, plEvents := 0, latMax := 0 }
  | .disable, _ => toState mode .disabled 0 { l with losing := false }
  | .manual, .disabled => toState mode .manual 0 { l with bumpless := true }
  | .manual, .auto => toState mode .manual 0 l
  | .manual, .track => toState mode .manual 0 l
  | .manual, _ => l
  | .auto, .disabled => enterAuto mode true l
  | .auto, .manual => enterAuto mode true l
  | .auto, .safe => enterAuto mode true l
  | .auto, _ => l

/-- What the sample instant brings into effect: the manual value and the waiting commands. -/
def atInstant (mode : Nat) (l : Loop) : Loop := { l.cmds.foldl (applyCmd mode) { l with manualEff := l.manual } with cmds := [] }

/-! ## The cascade (R172 to R176) -/

/-- B0·x + B1·x1 + B2·x2. -/
def secFwd (d : LoopSec) (st : SecState) (x : Int) : Int := d.b0 * x + d.b1 * st.x1 + d.b2 * st.x2

/-- An accumulator rounded by a section's shift: halves toward plus infinity. -/
def secRound (d : LoopSec) (acc : Int) : Int := Int.fdiv (acc + 2 ^ (14 - d.shift)) (2 ^ (15 - d.shift))

/-- A section's tentative output, and whether it saturated. -/
def secOut (d : LoopSec) (st : SecState) (x : Int) : Int × Bool := satQ (secRound d (secFwd d st x - d.a1 * st.y1 - d.a2 * st.y2))

/-- An INTEG section is frozen (R176): `sat` is 1 HIGH, 2 LOW. -/
def frozen (d : LoopSec) (st : SecState) (sat : Nat) (y : Int) : Bool :=
  d.integ && match sat with
    | 1 => if d.pol then decide (y < st.y1) else decide (st.y1 < y)
    | 2 => if d.pol then decide (st.y1 < y) else decide (y < st.y1)
    | _ => false

/-- The cascade from input `x`: the new section states, the output, and whether a section saturated. -/
def cascade (sat : Nat) : List LoopSec → List SecState → Int → List SecState × Int × Bool
  | [], _, x => ([], x, false)
  | d :: ds, sts, x =>
    let st := sts.headD {}
    let r := secOut d st x
    let fr := frozen d st sat r.1
    let y := if fr then st.y1 else r.1
    let st' : SecState := if fr then { x1 := x, x2 := st.x1, y1 := st.y1, y2 := st.y2 } else { x1 := x, x2 := st.x1, y1 := r.1, y2 := st.y1 }
    let t := cascade sat ds sts.tail y
    (st' :: t.1, t.2.1, r.2 || t.2.2)

/-- The input of the last section and its states before the sample: what R182 needs of "that sample's values". -/
def lastInput (sat : Nat) : List LoopSec → List SecState → Int → Option (LoopSec × SecState × Int)
  | [], _, _ => none
  | [d], sts, x => some (d, sts.headD {}, x)
  | d :: ds, sts, x =>
    let st := sts.headD {}
    let r := secOut d st x
    lastInput sat ds sts.tail (if frozen d st sat r.1 then st.y1 else r.1)

/-- R182: the last section, if INTEG, has y1 replaced so that it holds the value APPLIED; x is the sample's input, x1 and x2 are the states it has stored,
so that the next sample with the same input gives APPLIED again (DEDUCED, log 18). -/
def trackLast (l : Loop) (x : Int) (applied : Int) (secs : List SecState) : List SecState :=
  match lastInput 0 l.dfn.secs l.secs x with
  | none => secs
  | some (d, _, xi) =>
    if d.integ then
      let k := secs.length - 1
      let st := secs.getD k {}
      let y := (satQ (secRound d ((applied - l.dfn.bias) * 2 ^ (15 - d.shift) - secFwd d st xi))).1
      secs.set k { st with y1 := y }
    else secs

/-- HIGH or LOW (R175). -/
def satOf (l : Loop) : Nat := if l.applied < l.raw then 1 else if l.raw < l.applied then 2 else 0

/-! ## Set-point and error (R168, R174, R177, R178) -/

/-- The target of a sample; `sp` none: the set-point record is unusable. -/
def targetOf (l : Loop) (sp : Option Int) : Int :=
  if l.dfn.sp = 0xFFFF then clampQ l.dfn.spLo l.dfn.spHi l.dfn.spConst
  else match sp with | some v => clampQ l.dfn.spLo l.dfn.spHi v | none => l.target

/-- w as R178 sets it on an entry to AUTO. -/
def wSet (l : Loop) (fb target : Int) : Int :=
  if l.dfn.rampUp ≠ 0 || l.dfn.rampDown ≠ 0 then clampQ l.dfn.spLo l.dfn.spHi fb else target

/-- w as R177 moves it. -/
def wRamp (l : Loop) (target : Int) : Int :=
  if l.w < target then (if l.dfn.rampUp = 0 then target else min target (l.w + l.dfn.rampUp))
  else if target < l.w then (if l.dfn.rampDown = 0 then target else max target (l.w - l.dfn.rampDown))
  else l.w

/-- The error of a sample, saturated. -/
def errorOf (l : Loop) (w fb : Int) : Int × Bool := satQ (if l.dfn.reverse then fb - w else w - fb)

/-! ## One member's sample (R174, R178, R182, R183, R187) -/

/-- What a sample reads: feedback and set-point as Q15 (none: unusable), whether a conversion saturated, the output record's effective value as Q15
and whether it reads FORCED, and the mode. -/
structure SampleIn where
  fb : Option Int
  sp : Option Int
  sat : Bool
  rec_ : Int
  forced : Bool
  mode : Nat
deriving DecidableEq, Repr

/-- Reads of the sample start: APPLIED from a forced record (R171) or read again (R190), a bumpless start (R183), TRACK entered or left. -/
def sampleStart (i : SampleIn) (l : Loop) : Loop :=
  let l := if i.forced || l.reread then { l with applied := i.rec_, reread := false } else l
  let l := if l.bumpless && l.state != .disabled then
      { l with secs := l.dfn.secs.map (fun _ => {}), applied := i.rec_, raw := i.rec_, lastU := i.rec_, reanchor := true } else l
  match l.state with
  | .auto => if i.forced then toState i.mode .track 0 l else l
  | .track => if i.forced then l else enterAuto i.mode false l
  | _ => l

/-- u of a sample with working set-point `w` (R174), limited in Commission. -/
def uOf (i : SampleIn) (l : Loop) (sat : Nat) (w fb : Int) : Int :=
  let raw := (satQ ((cascade sat l.dfn.secs l.secs (errorOf l w fb).1).2.1 + l.dfn.bias)).1
  let u := clampQ l.dfn.outLo l.dfn.outHi raw
  if i.mode = 0 then clampQ (l.applied - l.dfn.commRate) (l.applied + l.dfn.commRate) u else u

/-- The value a member offers, or a loop writes, in this sample; none: nothing (Table 2; R179: a member in TRACK offers its u). `l` is the loop after
`sampleStart`. -/
def offerOf (i : SampleIn) (l : Loop) : Option Int :=
  match l.state with
  | .disabled => none
  | .safe => some l.dfn.safeOut
  | .manual => some (if i.fb.isSome then l.manualEff else l.lastU)
  | .track =>
    match i.fb with
    | none => some l.lastU
    | some fb => some (if l.dfn.groupEn then uOf i l 0 (wSet l fb (targetOf l i.sp)) fb else l.applied)
  | .auto =>
    match i.fb with
    | none => some l.lastU
    | some fb =>
      if l.bumpless then some l.applied
      else
        some (uOf i l (satOf l) (if l.wInit then wSet l fb (targetOf l i.sp) else wRamp l (targetOf l i.sp)) fb)

/-- APPLIED after the sample's write (R171, R179): the value written, unless the record reads FORCED. -/
def appliedAfter (i : SampleIn) (l : Loop) (written : Option Int) : Int :=
  if i.forced then l.applied else written.getD l.applied

/-- The sections, w, target and RAW of a sample with usable feedback, kept when the sample ends (R174, R177, R178, R182, R183). -/
def computeSample (i : SampleIn) (l : Loop) (fb applied : Int) : Loop :=
  let target := targetOf l i.sp
  let auto := l.state == .auto
  let w := if auto && !l.wInit then wRamp l target else wSet l fb target
  let sat := satOf l
  let e := errorOf l w fb
  let tracked := !auto || l.bumpless
  let c := cascade (if tracked then 0 else sat) l.dfn.secs l.secs e.1
  let raw := (satQ (c.2.1 + l.dfn.bias)).1
  { l with
    secs := if tracked then trackLast l e.1 applied c.1 else c.1
    raw := if tracked then applied else raw
    w := w, target := target, sat := sat, secSat := c.2.2, inSat := i.sat || e.2, wInit := false, bumpless := false }

/-! ## Supervision (R186) -/

/-- The kind of fault that a sample's supervision finds. -/
inductive SupvFault where
  | followingError | plausibility
deriving DecidableEq, Repr

/-- One counted comparison: the new count, and whether it reached `n` and starts again. -/
def countTo (n cnt : Nat) (beyond : Bool) : Nat × Bool :=
  if beyond then (if n ≤ cnt + 1 then (0, true) else (cnt + 1, false)) else (0, false)

/-- The limit by which an injected LOOP_SUPV raises the magnitude (15 Table 1). -/
def pushed (push : Bool) (limit m : Nat) : Nat := if push then m + limit + 1 else m

/-- The model's next y_m from the line with APPLIED of the previous sample at its head. -/
def modelStep (d : LoopDef) (line : List Int) (ym : Int) : Int :=
  let past := line.getD d.mDelay 0
  let v := (satQ (Int.fdiv (d.mGain * past + 2 ^ (14 - d.mShift)) (2 ^ (15 - d.mShift)) + d.mOffset)).1
  (satQ (ym + Int.fdiv (d.mAlpha * (v - ym) + 16384) 32768)).1

/-- A plausibility comparison of a residual. -/
def plausible (push : Bool) (l : Loop) (res : Int) : Loop × Option SupvFault :=
  let r := countTo l.dfn.plCount l.cnt (decide (l.dfn.plLimit < pushed push l.dfn.plLimit res.natAbs))
  let l := { l with residual := (satQ res).1, cnt := r.1 }
  if r.2 then ({ l with plEvents := satAt 0xFFFF (l.plEvents + 1) }, some .plausibility) else (l, none)

/-- A following-error comparison with a limit and a number. -/
def following (push : Bool) (l : Loop) (fb : Int) (limit n : Nat) : Loop × Option SupvFault :=
  let off := l.losing || l.sat ≠ 0
  let r := countTo n l.cnt (!off && decide (limit < pushed push limit (l.w - fb).natAbs))
  let l := { l with cnt := r.1 }
  if r.2 then ({ l with feEvents := satAt 0xFFFF (l.feEvents + 1) }, some .followingError) else (l, none)

/-- Supervision of a sample with usable feedback; APPLIED is still that of the sample's start (DEDUCED, log 19). -/
def supervise (push : Bool) (fb : Int) (l : Loop) : Loop × Option SupvFault :=
  if l.reanchor then
    let l := { l with reanchor := false, ym := fb, line := List.replicate 16 l.applied }
    match l.supv with
    | 2 => plausible push l 0
    | 1 => following push l fb l.dfn.feLimit l.dfn.feCount
    | 3 => following push l fb (l.dfn.feLimit / 2) ((l.dfn.feCount + 1) / 2)
    | _ => (l, none)
  else match l.supv with
    | 2 =>
      let line := (l.applied :: l.line).take 16
      let ym := modelStep l.dfn line l.ym
      plausible push { l with line := line, ym := ym } (fb - ym)
    | 1 => following push l fb l.dfn.feLimit l.dfn.feCount
    | 3 => following push l fb (l.dfn.feLimit / 2) ((l.dfn.feCount + 1) / 2)
    | _ => (l, none)

/-! ## Ending a sample -/

/-- A LOOP_SAFE fault and the state SAFE (R181, R189). -/
def loopToSafe (s : State) (n cause : Nat) : State :=
  raise (mapLoop s n (toState (modeOf s) .safe cause)) .loopSafe n

/-- The fault of a supervision, and SAFE for a loop in AUTO whose action bit is 1 (R186). -/
def supvFault (s : State) (n : Nat) (l : Loop) (f : SupvFault) : State :=
  let act := match f with | .followingError => l.dfn.feAct | .plausibility => l.dfn.plAct
  let cause := match f with | .followingError => 1 | .plausibility => 2
  let s := raiseSev s .loopSupv n (if act then .severe else .degraded)
  if act && l.state == .auto then mapLoop s n (toState (modeOf s) .safe cause) else s

/-- A sample's feedback as BAD_PV and the bad-feedback counts report it (R187), in every state but DISABLED; an unusable one leaves the model to be
re-anchored (R186). -/
def feedbackSeen (fb : Option Int) (l : Loop) : Loop :=
  if fb.isSome then { l with badPv := false, badCount := 0 }
  else { l with badPv := true, badCount := l.badCount + 1, badPvCount := satAt 0xFFFF (l.badPvCount + 1), reanchor := true }

/-- One member's sample ends in time (R174, R180, R186 to R188); `l` is the loop after `sampleStart`, `offer` what it offered, `written` the value
written to its record, `losing` as R180. -/
def endMember (s : State) (n : Nat) (i : SampleIn) (l : Loop) (offer written : Option Int) (losing : Bool) : State :=
  let lat := match l.lastInst with | some d => satAt 0xFFFF (fcSince s d) | none => 0
  let applied := appliedAfter i l written
  let l := { l with losing := losing, ovrConsec := 0, due := none,
                    latLast := if offer.isSome then lat else l.latLast, latMax := if offer.isSome then max lat l.latMax else l.latMax }
  match l.state with
  | .disabled => setLoop s n { l with applied := applied }
  | .safe => setLoop s n (feedbackSeen i.fb { l with sat := satOf l, secSat := false, inSat := i.sat, applied := applied, lastU := l.dfn.safeOut })
  | st =>
    match i.fb with
    | none =>
      let l := feedbackSeen none { l with sat := satOf l, secSat := false, inSat := i.sat, target := targetOf l i.sp, applied := applied,
                                          raw := if st = .auto then l.raw else applied }
      let s := setLoop s n l
      if l.dfn.badLimit ≠ 0 && decide (l.dfn.badLimit ≤ l.badCount) then loopToSafe s n 4 else s
    | some fb =>
      let c := feedbackSeen (some fb) (computeSample i l fb applied)
      let (c, f) := supervise (forced s .loopSupv n) fb c
      let c := { c with applied := applied, lastU := offer.getD c.lastU }
      let s := setLoop s n c
      match f with
      | none => s
      | some f => supvFault s n c f

/-! ## Reads and the output write -/

/-- A Q15 input from a record (R170, R187). -/
def inputOf (s : State) (d : LoopDef) (i : Nat) : Option (Int × Bool) :=
  let r := ptAt s i
  match ptQuality s r with
  | .fault => none
  | .absent => none
  | .stale => none
  | _ => toQ15 r.ty (ptValue r) d.inZero d.inSpan

/-- The reads of one member's sample; an injected LOOP_SAFE treats the feedback as unusable (15 Table 1). -/
def sampleIn (s : State) (n : Nat) (d : LoopDef) (out : Nat) (zero span : Word) : SampleIn :=
  let fb := if forced s .loopSafe n then none else inputOf s d d.fb
  let sp := if d.sp = 0xFFFF then none else inputOf s d d.sp
  let r := ptAt s out
  let q := toQ15 r.ty (ptValue r) zero span
  { fb := fb.map (fun p => p.1), sp := sp.map (fun p => p.1),
    sat := (fb.map (fun p => p.2)).getD false || (sp.map (fun p => p.2)).getD false,
    rec_ := (q.map (fun p => p.1)).getD 0, forced := ptQuality s r == .forced, mode := modeOf s }

/-- The output write of a loop or group (R171): a writer write of LOOP. -/
def writeOut (s : State) (ident out : Nat) (u : Int) (zero span : Word) (wq : Wq) : State :=
  writerWrite s .loop ident out (fromQ15 (ptAt s out).ty u zero span) wq

/-- The output write of a sample (R171); one that was taken at the present grid tick reaches no gather of that tick (01 R26). -/
def writeSample (s : State) (l : Loop) (ident out : Nat) (u : Int) (zero span : Word) (wq : Wq) : State :=
  let t := writeOut s ident out u zero span wq
  if l.due = some (s.subEl - s.sub) && (tabGet? s.pt.loopOuts out).isNone then
    { t with pt := { t.pt with loopOuts := tabPut t.pt.loopOuts out (ptAt s out) } }
  else t

/-- One sample of a loop outside a group. -/
def sampleLoop (s : State) (n : Nat) (l0 : Loop) : State :=
  let d := l0.dfn
  let i := sampleIn s n d d.out d.outZero d.outSpan
  let l := sampleStart i l0
  let offer := offerOf i l
  let s' := match offer with
    | some u => writeSample s l n d.out u d.outZero d.outSpan (if l.state = .safe then .fault else .good)
    | none => s
  endMember s' n i l offer offer false

/-- The lowest value offered, with the lowest position that offers it (R179). -/
def lowestOffer : List (Option Int) → Nat → Option (Int × Nat)
  | [], _ => none
  | none :: t, p => lowestOffer t (p + 1)
  | some v :: t, p =>
    match lowestOffer t (p + 1) with
    | none => some (v, p)
    | some (w, q) => if w < v then some (w, q) else some (v, p)

/-- One sample of a competition group (R179, R180). -/
def sampleGroup (s : State) (g : Nat) (gr : Group) : State :=
  let ms := gr.members.filterMap (fun n => (loopAt? s n).map (fun l =>
    let i := sampleIn s n l.dfn gr.out gr.outZero gr.outSpan
    (n, i, sampleStart i l)))
  let offers := ms.map (fun m => offerOf m.2.1 m.2.2)
  match lowestOffer offers 0 with
  | none =>
    let s := { s with groups := tabPut s.groups g { gr with none := true } }
    ms.foldl (fun s m => endMember s m.1 m.2.1 m.2.2 none none false) s
  | some (u, p) =>
    let win := (ms[p]?).map (fun m => m.2.2)
    let wq : Wq := if (win.map (fun l => l.state)) = some .safe then .fault else .good
    let s' := writeSample s (win.getD {}) (gr.members.headD 0) gr.out u gr.outZero gr.outSpan wq
    let s' := { s' with groups := tabPut s'.groups g { gr with output := u, winner := p, none := false } }
    (ms.zip offers).foldl (fun s mo => endMember s mo.1.1 mo.1.2.1 mo.1.2.2 mo.2 (some u)
      (match mo.2 with | some v => decide (u < v) | none => false)) s'

/-! ## Order of computation (R164) -/

/-- The key of a due unit: deadline, sample instant, lowest loop number. -/
def unitBefore (a b : Nat × Loop) : Bool :=
  let ia := a.2.due.getD 0
  let ib := b.2.due.getD 0
  if a.2.deadline ≠ b.2.deadline then decide (a.2.deadline < b.2.deadline)
  else if ia ≠ ib then decide (ia < ib) else decide (a.1 < b.1)

/-- A loop whose computation an injected LOOP_OVERRUN holds (15 Table 1). -/
def heldOver (s : State) (n : Nat) : Bool := forced s .loopOverrun n

/-- The loop that heads a loop's unit: itself, or its group's lowest-numbered member. -/
def unitHead (s : State) (l : Loop) (n : Nat) : Nat :=
  if l.dfn.groupEn then (match groupAt? s l.dfn.group with | some g => g.members.headD n | none => n) else n

/-- The head of the unit that the engine computes next. -/
def nextUnit (s : State) (e : Nat) : Option Nat :=
  (leastBy unitBefore (s.loops.filter (fun kl => loopEngine kl.1 == e && kl.2.due.isSome && unitHead s kl.2 kl.1 == kl.1 && !heldOver s kl.1))).map
    (fun kl => kl.1)

/-- LOOP_SAMPLE: after the commit of its tick (01 R26). -/
def execLoopSample (n : Fin 4096) (s : State) : Host.Outcome State Fault Refusal :=
  match loopAt? s n.val with
  | none => done s
  | some l =>
    if (commitDue s).isSome || l.dfn.groupEn || nextUnit s (loopEngine n.val) ≠ some n.val then done s else done (sampleLoop s n.val l)

/-- GROUP_SAMPLE. -/
def execGroupSample (g : Fin 512) (s : State) : Host.Outcome State Fault Refusal :=
  match groupAt? s g.val with
  | none => done s
  | some gr =>
    let h := gr.members.headD 0
    if (commitDue s).isSome || nextUnit s (loopEngine h) ≠ some h then done s else done (sampleGroup s g.val gr)

/-! ## Sub-ticks and overruns (R163, R188, R189) -/

/-- `el` elapsed fabric cycles lie less than ⌊N/2⌋ sub-ticks after the loop's previous sample instant (R163). -/
def tooSoon (l : Loop) (el : Nat) : Bool :=
  match l.lastInst with | some p => decide (el < p + l.dfn.period / 2 * 15625) | none => false

/-- The sub-tick is a sample instant of the loop (R163): conforming, and after a step not less than ⌊N/2⌋ sub-ticks after the previous one. -/
def isInstant (s : State) (l : Loop) : Bool :=
  decide (subNumber s % max l.dfn.period 1 = l.dfn.phase) && !(l.stepped && tooSoon l s.el)

/-- An overrun found at a sample instant (R188, R189). -/
def loopOverrun (s : State) (n : Nat) (l : Loop) : State :=
  let c := satAt 15 (l.ovrConsec + 1)
  let s := setLoop s n { l with overruns := satAt 0xFFFF (l.overruns + 1), ovrConsec := c, due := none }
  let s := incF s (Fld.LP_E_STAT_OVERRUNS (loopEngine n))
  let s := raise s .loopOverrun n
  if l.dfn.ovrLimit ≤ c && (l.state == .auto || l.state == .manual || l.state == .track) then loopToSafe s n 3 else s

/-- One loop at a sub-tick. A sample still due at a conforming sub-tick overruns, unless a step of the tick number brought the instant forward. -/
def subTickLoop (s : State) (n : Nat) : State :=
  match loopAt? s n with
  | none => s
  | some l =>
    if decide (subNumber s % max l.dfn.period 1 = l.dfn.phase) && l.stepped && !isInstant s l then setLoop s n { l with stepped := false }
    else if isInstant s l then
      let s := if l.due.isSome && !l.stepped then loopOverrun s n l else s
      mapLoop s n (fun l =>
        let l := atInstant (modeOf s) l
        { l with due := if l.state = .disabled && !l.dfn.groupEn then none else some (s.subEl - 1), deadline := s.subEl - 1 + max l.dfn.period 1,
                 lastInst := some s.el, stepped := false })
    else s

/-- The next sub-tick of the present grid tick falls, 15,625 fabric cycles after the last (R25). -/
def nextSubTick (s : State) : State := { passTime s (15625 * s.sub - s.fc) with sub := s.sub + 1, subEl := s.subEl + 1 }

/-- SUB_TICK: the next of the four sub-ticks; it is counted while the loop engines are off or held too (R163). -/
def execSubTick (s : State) : Host.Outcome State Fault Refusal :=
  if 4 ≤ s.sub then done s
  else if !engineRuns s 8 then done (nextSubTick s)
  else
    let s := nextSubTick s
    done (((s.loops.map (fun kl => kl.1)).filter (fun n => !blockHeld s (8 + loopEngine n))).foldl subTickLoop s)

/-! ## Commands (R184, R193) -/

/-- A field of LP_L_CMD as the loop selected has it. -/
def loopF (f : RF) (n : Nat) : RF := f.bank (16 + n)

/-- RESULT of a command. -/
def loopCmdResult (s : State) (n op : Nat) : Nat :=
  if !(op = 1 || op = 2 || op = 3 || op = 7) then 3
  else if (loopAt? s n).isNone then 2
  else if modeOf s ≤ 2 || (modeOf s = 3 && op ≠ 3) then 0 else 1

/-- The command of an OP code. -/
def loopCmdOf (op : Nat) : LoopCmd := match op with | 1 => .disable | 2 => .manual | 3 => .auto | _ => .clear

/-- A command through LP_L_CMD: accepted commands wait for the loop's next sample instant. -/
def loopCmd (s : State) (n op : Nat) : State :=
  let r := loopCmdResult s n op
  let s := setFs s [(loopF Fld.LP_L_CMD_OP n, op), (loopF Fld.LP_L_CMD_RESULT n, r), (loopF Fld.LP_L_CMD_BUSY n, 0), (loopF Fld.LP_L_CMD_GO n, 0)]
  if r = 0 then mapLoop s n (fun l => { l with cmds := l.cmds ++ [loopCmdOf op] }) else s

/-- LOOP_DISABLE. -/
def execLoopDisable (n : Fin 4096) (s : State) : Host.Outcome State Fault Refusal := done (loopCmd s n.val 1)
/-- LOOP_MANUAL. -/
def execLoopManual (n : Fin 4096) (s : State) : Host.Outcome State Fault Refusal := done (loopCmd s n.val 2)
/-- LOOP_AUTO. -/
def execLoopAuto (n : Fin 4096) (s : State) : Host.Outcome State Fault Refusal := done (loopCmd s n.val 3)
/-- LOOP_CLEAR_STATS. -/
def execLoopClearStats (n : Fin 4096) (s : State) : Host.Outcome State Fault Refusal := done (loopCmd s n.val 7)

/-- LP_L_MANUAL.VALUE of a loop. -/
def manualWrite (s : State) (n : Nat) (v : Int) : State := mapLoop s n (fun l => { l with manual := v })

/-- LP_MANUAL_WRITE. -/
def execLpManualWrite (n : Fin 4096) (v : BitVec 16) (s : State) : Host.Outcome State Fault Refusal := done (manualWrite s n.val v.toInt)

/-! ## Modes, resets, steps (R163, R181, R190) -/

/-- A change of operating mode: forms of supervision follow, and entry to Safe mode sends loops with SAFE_ACT = 1 from AUTO to SAFE. -/
def loopsMode (s : State) (mode : Nat) : State :=
  { s with loops := s.loops.map (fun kl =>
      (kl.1, if mode = 3 && kl.2.state == .auto && kl.2.dfn.safeAct then toState mode .safe 5 kl.2 else updForm mode kl.2)) }

/-- The deadline of a sample after a step: the next conforming sub-tick, or the one that follows it when it falls too soon (R163). -/
def steppedDeadline (s : State) (l : Loop) : Nat :=
  let n := max l.dfn.period 1
  let d := (l.dfn.phase + n - (4 * s.tick + s.sub) % n) % n
  s.subEl + d + (if tooSoon l (s.el + (15625 * s.sub - s.fc) + 15625 * d) then n else 0)

/-- The tick number has been stepped, and the sub-tick number with it (R163). -/
def loopsStepped (s : State) : State :=
  let s := { s with sub := min 4 ((s.fc + 15624) / 15625) }
  { s with loops := s.loops.map (fun kl => (kl.1, { kl.2 with stepped := true, deadline := steppedDeadline s kl.2 })) }

/-- The record that a loop's output goes to, with its scaling: its group's for a member. -/
def outputOf (s : State) (l : Loop) : Nat × Word × Word :=
  if l.dfn.groupEn then (match groupAt? s l.dfn.group with | some g => (g.out, g.outZero, g.outSpan) | none => (l.dfn.out, l.dfn.outZero, l.dfn.outSpan))
  else (l.dfn.out, l.dfn.outZero, l.dfn.outSpan)

/-- LOOP_RESUME. -/
def execLoopResume (n : Fin 4096) (s : State) : Host.Outcome State Fault Refusal :=
  match loopAt? s n.val with
  | none => done s
  | some l =>
    if !l.reread || !engineRuns s 8 || blockHeld s (8 + loopEngine n.val) then done s
    else
      let o := outputOf s l
      let r := ptAt s o.1
      match toQ15 r.ty (ptValue r) o.2.1 o.2.2 with
      | some q => done (setLoop s n.val { l with applied := q.1, reread := false })
      | none => done (setLoop s n.val { l with reread := false })

/-! ## Cost and admission (R165, R166) -/

/-- 1 for a REAL32 record. -/
def realCount (ty : Nat → VType) (i : Nat) : Nat := if ty i = .real32 then 1 else 0

/-- C of R165 for a loop, among the groups `gs`, with the types of the records, at a CLOCK code. -/
def loopCost (clock : Nat) (ty : Nat → VType) (gs : Tab Group) (d : LoopDef) : Nat :=
  let g? := if d.groupEn then tabGet? gs d.group else none
  let lowest := match g? with | some g => g.members.headD d.loop == d.loop | none => false
  let outs := if !d.groupEn then realCount ty d.out else match g? with | some g => if lowest then realCount ty g.out else 0 | none => 0
  let spReads := if d.sp = 0xFFFF then 0 else 1
  let k := 40 + 12 * d.secs.length + 6 * (realCount ty d.fb + (if d.sp = 0xFFFF then 0 else realCount ty d.sp) + outs)
    + (if d.mAlpha ≠ 0 then 24 else 0) + (if d.groupEn then 16 else 0)
  let a := 8 + 16 * (1 + spReads + (if !d.groupEn || lowest then 2 else 0))
  k + (clockRatio2 clock * a + 1) / 2

/-- Loop engine clock in MHz for a CLOCK code. -/
def loopMhz (clock : Nat) : Nat := 125 * clockRatio2 clock

/-- A loop's term in U (R166). -/
def loopUnits (clock : Nat) (ty : Nat → VType) (gs : Tab Group) (d : LoopDef) : Nat :=
  let den := max (1000 * d.period * loopMhz clock) 1
  (65536 * 16 * loopCost clock ty gs d + den - 1) / den

/-- U of a loop engine. -/
def loopUtil (clock : Nat) (ty : Nat → VType) (ls : List LoopDef) (gs : Tab Group) (e : Nat) : Nat :=
  (ls.filter (fun d => loopEngine d.loop == e)).foldl (fun n d => n + loopUnits clock ty gs d) 0

/-- Record types as the point table has them. -/
def ptType (s : State) (i : Nat) : VType := (ptAt s i).ty

/-- LP_E_* of both engines, for the present loops and the profile's clock (R166). -/
def recomputeLoops (s : State) : State :=
  let clock := min (getF s Fld.PW_CFG_PROFILE) 2
  let ds := s.loops.map (fun kl => kl.2.dfn)
  [0, 1].foldl (fun s e => setFs s [(Fld.LP_E_UTIL_UTIL e, satAt 0xFFFF (loopUtil clock (ptType s) ds s.groups e)), (Fld.LP_E_UTIL_CLOCK e, clock),
    (Fld.LP_E_STAT_LOOPS e, (ds.filter (fun d => loopEngine d.loop == e)).length)]) s

/-! ## Admission and replacement (R181, R183, R191) -/

/-- A loop as its commit leaves it: the START state with a bumpless start. -/
def freshLoop (mode : Nat) (d : LoopDef) : Loop :=
  let l : Loop := { dfn := d, secs := d.secs.map (fun _ => {}), bumpless := true }
  match d.start with
  | 0 => l
  | 1 => toState mode .manual 0 l
  | _ => enterAuto mode true l

/-- A replaced loop keeps its state; section states and the rest when NSEC is unchanged, else a bumpless start (R191, R183). -/
def replaceLoop (mode : Nat) (old : Loop) (d : LoopDef) : Loop :=
  if old.dfn.secs.length = d.secs.length then updForm mode { old with dfn := d }
  else updForm mode { old with dfn := d, secs := d.secs.map (fun _ => {}), bumpless := true }

/-- A defined or replaced loop at a commit. -/
def commitLoop (s : State) (d : LoopDef) : State :=
  match loopAt? s d.loop with
  | some l => setLoop s d.loop (replaceLoop (modeOf s) l d)
  | none => setLoop s d.loop (freshLoop (modeOf s) d)

/-! ## Descriptors (R168, R169) -/

/-- Section `i` of a loop descriptor. -/
def parseSec (ws : List Nat) (i : Nat) : LoopSec :=
  let w (k : Nat) : Nat := ws.getD (18 + 3 * i + k) 0
  { b0 := q15At (w 0) 0, b1 := q15At (w 0) 16, b2 := q15At (w 1) 0, a1 := q15At (w 1) 16, a2 := q15At (w 2) 0,
    shift := bitsOf (w 2) 16 2, integ := bitOf (w 2) 18, pol := bitOf (w 2) 19 }

/-- A loop descriptor's fields (Table 1). -/
def parseLoop (ws : List Nat) (tenant : Nat) : LoopDef :=
  let w (k : Nat) : Nat := ws.getD k 0
  { loop := bitsOf (w 0) 0 12, reverse := bitOf (w 0) 16, start := bitsOf (w 0) 17 2, safeAct := bitOf (w 0) 19, feAct := bitOf (w 0) 20,
    plAct := bitOf (w 0) 21, ovrLimit := bitsOf (w 0) 24 4, period := bitsOf (w 1) 0 20, phase := bitsOf (w 2) 0 20,
    fb := bitsOf (w 3) 0 16, sp := bitsOf (w 3) 16 16, out := bitsOf (w 4) 0 16, group := bitsOf (w 4) 16 9, groupEn := bitOf (w 4) 25,
    inZero := Word.ofNat (w 5), inSpan := Word.ofNat (w 6), outZero := Word.ofNat (w 7), outSpan := Word.ofNat (w 8),
    spConst := q15At (w 9) 0, bias := q15At (w 9) 16, spLo := q15At (w 10) 0, spHi := q15At (w 10) 16, outLo := q15At (w 11) 0,
    outHi := q15At (w 11) 16, rampUp := bitsOf (w 12) 0 16, rampDown := bitsOf (w 12) 16 16, commRate := bitsOf (w 13) 0 16,
    safeOut := q15At (w 13) 16, feLimit := bitsOf (w 14) 0 16, feCount := bitsOf (w 14) 16 8, badLimit := bitsOf (w 14) 24 8,
    mGain := q15At (w 15) 0, mShift := bitsOf (w 15) 16 2, mDelay := bitsOf (w 15) 20 4, plCount := bitsOf (w 15) 24 8,
    mAlpha := bitsOf (w 16) 0 16, mOffset := q15At (w 16) 16, plLimit := bitsOf (w 17) 0 16,
    secs := (List.range (bitsOf (w 0) 12 4)).map (parseSec ws), tenant := tenant }

/-- The bits of a word outside those that a mask names are zero. -/
def within (w mask : Nat) : Bool := w &&& mask == w

/-- Finite and nonzero, a subnormal counting as zero (R85). -/
def finiteNonzero (w : Word) : Bool := !realSpecial w && realVal w ≠ 0

/-- Every field of Table 1 within its stated range, every unnamed bit zero, every INTEG section as R173 (R192). -/
def loopFieldsOk (ws : List Nat) : Bool :=
  let d := parseLoop ws 0
  let w (k : Nat) : Nat := ws.getD k 0
  let n := d.secs.length
  within (w 0) 0x0F3FFFFF && within (w 1) 0xFFFFF && within (w 2) 0xFFFFF && within (w 4) 0x3FFFFFF && within (w 15) 0xFFF3FFFF && within (w 17) 0xFFFF
    && decide (1 ≤ n) && decide (n ≤ 8) && decide (d.start ≤ 2) && decide (1 ≤ d.ovrLimit) && decide (4 ≤ d.period) && decide (d.period ≤ 960000)
    && decide (d.phase < d.period) && finiteNonzero d.inSpan && finiteNonzero d.outSpan && decide (d.spLo ≤ d.spHi) && decide (d.outLo ≤ d.outHi)
    && decide (d.rampUp ≤ 32767) && decide (d.rampDown ≤ 32767) && decide (1 ≤ d.commRate) && decide (d.commRate ≤ 32767)
    && decide (d.outLo ≤ d.safeOut) && decide (d.safeOut ≤ d.outHi) && decide (1 ≤ d.feLimit) && decide (d.feLimit ≤ 32767)
    && decide (1 ≤ d.feCount) && decide (1 ≤ d.plCount) && decide (d.mAlpha ≤ 32767) && decide (1 ≤ d.plLimit) && decide (d.plLimit ≤ 32767)
    && (List.range 8).all (fun i =>
      if i < n then within (w (20 + 3 * i)) 0xFFFFF else w (18 + 3 * i) == 0 && w (19 + 3 * i) == 0 && w (20 + 3 * i) == 0)
    && d.secs.all (fun c => !c.integ || (c.a1 == -(2 ^ (15 - c.shift)) && c.a2 == 0))

/-- A group descriptor's fields (R169): its number and the group. -/
def parseGroup (ws : List Nat) : Nat × Group :=
  let w (k : Nat) : Nat := ws.getD k 0
  let n := bitsOf (w 0) 16 4
  (bitsOf (w 0) 0 9,
   { members := (List.range n).map (fun i => bitsOf (w (2 + i / 2)) (16 * (i % 2)) 12), out := bitsOf (w 1) 0 16,
     outZero := Word.ofNat (w 6), outSpan := Word.ofNat (w 7) })

/-- Numbers in strictly ascending order. -/
def ascending : List Nat → Bool
  | a :: b :: t => decide (a < b) && ascending (b :: t)
  | _ => true

/-- A group descriptor's own fields in range, unused fields zero. -/
def groupFieldsOk (ws : List Nat) : Bool :=
  let w (k : Nat) : Nat := ws.getD k 0
  let n := bitsOf (w 0) 16 4
  within (w 0) 0xF01FF && within (w 1) 0xFFFF && decide (1 ≤ n) && decide (n ≤ 8) && ascending (parseGroup ws).2.members
    && [2, 3, 4, 5].all (fun k => within (w k) 0x0FFF0FFF)
    && (List.range 8).all (fun i => decide (i < n) || bitsOf (w (2 + i / 2)) (16 * (i % 2)) 16 == 0) && finiteNonzero (parseGroup ws).2.outSpan

end Sys2Proof.Machine
end

