-- ==== Sys2Proof/Machine/Metering.lean ====
section
/-! DEFINITION. Machine/Metering.lean: metering and the Ledger (07): circuits, line cycles, aggregation, events, pulses, checkpoints, Vigil. -/

namespace Sys2Proof.Machine

/-! ## Exact quantities -/

/-- floor of a rational. -/
def ratFloor (q : Rat) : Int := Int.fdiv q.num q.den

/-- A nonnegative quantity in whole units, rounded to nearest; at a tie the direction is free (log 9). -/
def nearest (q : Rat) : Nat :=
  let f := ratFloor q
  let r := q - mkRat f 1
  if r < mkRat 1 2 then f.toNat else if mkRat 1 2 < r then (f + 1).toNat else if Config.meUp q then (f + 1).toNat else f.toNat

/-- A nonnegative quantity in whole units where no rule states the rounding: the unit below or above, freely (log 9). -/
def someRound (q : Rat) : Nat :=
  let f := ratFloor q
  if q = mkRat f 1 then f.toNat else if Config.meUp q then (f + 1).toNat else f.toNat

/-- A square root to 40 binary places; exact where the root is a multiple of 2^-40 (log 9). -/
def ratSqrt (q : Rat) : Rat :=
  if q ≤ 0 then 0 else mkRat (Nat.sqrt (q.num.natAbs * 2 ^ 80 / q.den)) (2 ^ 40)

/-- A gain word, 0x8000 = 1.0. -/
def gainOf (g : Nat) : Rat := mkRat g 0x8000

/-! ## Voltage sets (R198) -/

/-- State of a voltage set. -/
def vsState (s : State) (n : Nat) : VsState := tabGet {} s.me.sets n
/-- Stores it. -/
def setVs (s : State) (n : Nat) (v : VsState) : State := { s with me := { s.me with sets := tabSet {} s.me.sets n v } }

/-- A voltage set's configuration as its registers give it. -/
def vsRegs (s : State) (n : Nat) : VsCfg :=
  { en := getB s (Fld.MT_VS_CFG_EN n), single := getB s (Fld.MT_VS_CFG_WIRING n), f60 := getB s (Fld.MT_VS_CFG_F_NOM n),
    udin := getF s (Fld.MT_VS_CFG_UDIN n), ratio := Word.ofNat (getF s (Fld.MT_VS_RATIO_RATIO n)),
    gains := (List.range 3).map (fun p => getF s (Fld.MT_VS_CAL_V_GAIN n p)),
    delays := (List.range 3).map (fun p => signed16 (getF s (Fld.MT_VS_CAL_V_PHASE n p))) }

/-- The configuration in effect for the line cycle in progress (R148). -/
def vsCfg (s : State) (n : Nat) : VsCfg := (vsState s n).held.getD (vsRegs s n)

/-- Volts at the lands to line volts, for phase `p`. -/
def vScale (v : VsCfg) (p : Nat) : Rat := realVal v.ratio * gainOf (v.gains.getD p 0x8000)

/-- UDIN in V. -/
def udinOf (v : VsCfg) : Rat := mkRat v.udin 10

/-- Phases of a set. -/
def setPhases (v : VsCfg) : Nat := if v.single then 1 else 3

/-! ## Circuits -/

/-- The circuit with a number. -/
def circAt? (s : State) (c : Nat) : Option Circ := tabGet? s.me.circs c
/-- Stores a circuit. -/
def setCirc (s : State) (c : Nat) (x : Circ) : State := { s with me := { s.me with circs := tabPut s.me.circs c x } }
/-- The present accumulator `a` of circuit `c`. -/
def accAt (s : State) (c a : Nat) : Acc13 := tabGet {} s.me.accs (c * 8 + a)
/-- Stores it. -/
def setAcc (s : State) (c a : Nat) (x : Acc13) : State := { s with me := { s.me with accs := tabSet {} s.me.accs (c * 8 + a) x } }
/-- Vigil state of a circuit. -/
def vigAt (s : State) (c : Nat) : Vig := tabGet {} s.me.vigs c
/-- Stores it. -/
def setVig (s : State) (c : Nat) (v : Vig) : State := { s with me := { s.me with vigs := tabSet {} s.me.vigs c v } }

/-- Number of a voltage input: MV(3n + p) is input 48 + 3n + p. -/
def mvInput (n p : Nat) : Nat := 48 + 3 * n + p

/-- A channel is failed (R197): its fault bit is set, or its modulator still reports failed. -/
def channelBad (s : State) (i : Nat) : Bool :=
  s.me.modBad.contains i || forced s .mtChannel i
    || (if i < 32 then bitOf (getF s Fld.MT_CHFAULT_LO_MI) i
        else if i < 48 then bitOf (getF s Fld.MT_CHFAULT_HI_MI) (i - 32) else bitOf (getF s Fld.MT_CHFAULT_HI_MV) (i - 48))

/-- A phase uses a failed channel. -/
def phaseBad (s : State) (d : CircDef) (p : CircPhase) : Bool := channelBad s p.mi || channelBad s (mvInput d.vset p.vph)

/-! ## Point writes (R202, R238) -/

/-- The fabric and port 10 are held in a reset, or the recorded configuration has not yet defined ME's records again (R238). -/
def meHeld (s : State) : Bool := s.me.portHeld

/-- A metered quantity's write: held back while port 10 is held, the latest for each record. -/
def meWrite (s : State) (ident i : Nat) (v : Word) (q : Wq) : State :=
  if meHeld s then { s with me := { s.me with heldWrites := tabPut s.me.heldWrites i { ident := ident, index := i, value := v, wq := q } } }
  else writerWrite s .meter ident i v q

/-- Quantity code `q` of a circuit, if it is selected. -/
def writeQ (s : State) (d : CircDef) (q : Nat) (v : Word) (wq : Wq) : State :=
  if bitOf d.qmask q then meWrite s (d.circuit + 256 * q) (d.pointBase + q) v wq else s

/-- WQ of a metered quantity with nothing wrong (R209). -/
def calWq (s : State) (d : CircDef) : Wq := if getB s Fld.MT_STAT_TRIM_VALID && d.calValid then .good else .uncalibrated

/-- Some channel of the circuit is failed: every quantity is FAULT (R197). -/
def circBad (s : State) (d : CircDef) : Bool := d.phases.any (phaseBad s d)

/-- WQ of a quantity of the circuit. -/
def circWq (s : State) (d : CircDef) (fault : Bool) : Wq := if fault || circBad s d then .fault else calWq s d

/-! ## Samples (R194, R196, R210) -/

/-- Sum of a list of rationals. -/
def ratSum (l : List Rat) : Rat := l.foldl (fun a b => a + b) 0
/-- Sum of products, sample by sample. -/
def ratDot (xs ys : List Rat) : Rat := ratSum (List.zipWith (fun x y => x * y) xs ys)

/-- RATE and HARM of a profile (Table 1). -/
def rateOf (profile : Nat) : Nat × Nat := match profile with | 0 => (0, 50) | 1 => (1, 25) | _ => (2, 13)

/-- The sample rate in Sa/s (Table 1). -/
def sampleRate (s : State) : Nat := 32000 / 2 ^ getF s Fld.MT_STAT_RATE

/-- A code in V at the land, ±500 mV being ±2^23 codes, with the channel's factory trim (R194, R210 step 1). -/
def trimmed (s : State) (i : Nat) (c : Int) : Rat := Config.meTrim (getB s Fld.MT_STAT_TRIM_VALID) i (mkRat c (2 ^ 24))

/-- A code at either end of the code range (R196). -/
def codeEnd (c : Int) : Bool := c == 2 ^ 23 - 1 || c == -(2 ^ 23)

/-- Samples of a line cycle. -/
def cycleSamples (d : SetCycle) : Nat := (d.chans.headD (0, [])).2.length

/-- Codes of input `i` in the cycle. -/
def codesOf (d : SetCycle) (i : Nat) : List Int :=
  match d.chans.find? (fun c => c.1.val == i) with | some c => c.2 | none => List.replicate (cycleSamples d) 0

/-- DC removal (R196, R210 step 2): a first-order high-pass of coefficient `a`, from the last sample before and after it. -/
def highPass (a x y : Rat) : List Rat → List Rat
  | [] => []
  | z :: zs => let w := a * (y + z - x); w :: highPass a z w zs

/-- A line cycle's codes through a channel: what is kept of the cycles before is what the longest delay reaches back to. -/
def chanCycle (s : State) (i : Nat) (cs : List Int) : Chan :=
  let c := tabGet {} s.me.chans i
  let xs := cs.map (trimmed s i)
  let ys := highPass (Config.meHp (sampleRate s)) c.x c.y xs
  { x := xs.getLastD c.x, y := ys.getLastD c.y, past := c.past.drop (c.past.length - 1024) ++ ys }

/-- The voltage set whose line cycles take input `i`: a voltage input's own, a current input's by its circuit; set 0 takes an input of no
circuit (log 114). -/
def chanSet (s : State) (i : Nat) : Nat :=
  if 48 ≤ i then (i - 48) / 3
  else match s.me.circs.find? (fun kc => kc.2.dfn.phases.any (fun p => p.mi == i)) with | some kc => kc.2.dfn.vset | none => 0

/-- The codes of a line cycle of set `n` go through the channels. -/
def stepChans (s : State) (n : Nat) (d : SetCycle) : State :=
  ((List.range 60).filter (fun i => chanSet s i == n)).foldl (fun s i =>
    { s with me := { s.me with chans := tabSet {} s.me.chans i (chanCycle s i (codesOf d i)) } }) s

/-- The last `n` samples of a channel, delayed by `by_` sample intervals: exact where that is a whole number of samples held (R210). -/
def delayed (all : List Rat) (n : Nat) (by_ : Rat) : List Rat :=
  let h := all.length - n
  let w := (ratFloor by_).toNat
  if by_ = mkRat w 1 ∧ w ≤ h then (all.drop (h - w)).take n
  else (List.range n).map (fun k =>
    let p : Rat := mkRat (Int.ofNat (h + k)) 1 - by_
    Config.meInterp all (ratFloor p) (p - mkRat (ratFloor p) 1))

/-! ## One phase of one line cycle (R206) -/

/-- A phase's samples of one line cycle, corrected and in primary units: voltage, voltage delayed by a quarter period, current. -/
structure PhaseSamples where
  v : List Rat := []
  v90 : List Rat := []
  i : List Rat := []
deriving DecidableEq, Repr

/-- Primary amperes per volt at the land, with the current gain. -/
def iScale (d : CircDef) (p : CircPhase) : Rat := realVal d.iratio * gainOf p.iGain

/-- How many sample intervals the current is delayed relative to the voltage: the offsets of R199 in units of 4 ns (DEDUCED, log 114: V_PHASE,
described "As R199", adds to I_PHASE). -/
def phaseDelay (v : VsCfg) (p : CircPhase) (rate : Nat) : Rat := mkRat ((p.iPhase + v.delays.getD p.vph 0) * 4 * rate) 1000000000

/-- R210 steps 3 and 4 for a phase, over the last `n` samples; a negative offset delays the voltage. `quarter`: a quarter period in sample
intervals. -/
def phaseSamples (s : State) (v : VsCfg) (d : CircDef) (p : CircPhase) (n : Nat) (quarter : Rat) : PhaseSamples :=
  let past (i : Nat) : List Rat := (tabGet {} s.me.chans i).past
  let by_ := phaseDelay v p (sampleRate s)
  let vby : Rat := if by_ < 0 then -by_ else 0
  let vs := past (mvInput d.vset p.vph)
  let sv := vScale v p.vph
  { v := (delayed vs n vby).map (sv * ·), v90 := (delayed vs n (vby + quarter)).map (sv * ·),
    i := (delayed (past p.mi) n (if by_ < 0 then 0 else by_)).map (iScale d p * ·) }

/-- The samples `a` to before `b`. -/
def sliceSamples (x : PhaseSamples) (a b : Nat) : PhaseSamples :=
  { v := (x.v.drop a).take (b - a), v90 := (x.v90.drop a).take (b - a), i := (x.i.drop a).take (b - a) }

/-- A phase's cycle: squares of Vrms and Irms in primary units, and the energies of the cycle in J. -/
structure PhaseCycle where
  v2 : Rat := 0
  i2 : Rat := 0
  e : Rat := 0
  r : Rat := 0
  s : Rat := 0
deriving DecidableEq, Repr

/-- R206 for one phase; a phase with a failed channel contributes zero power and energy (R197). -/
def phaseCycle (bad : Bool) (p : CircPhase) (dur : Rat) (x : PhaseSamples) : PhaseCycle :=
  let nn : Rat := mkRat x.v.length 1
  let off := realVal p.iOff
  let v2 := ratDot x.v x.v / nn
  let i2 := max (ratDot x.i x.i / nn - off * off) 0
  if bad then { v2 := v2, i2 := i2 }
  else { v2 := v2, i2 := i2, e := gainOf p.pGain * (ratDot x.v x.i / nn) * dur, r := gainOf p.qGain * (ratDot x.v90 x.i / nn) * dur,
         s := ratSqrt (v2 * i2) * dur }

/-! ## The Ledger (R213 to R215) -/

/-- Pulse outputs sourced from an accumulator. -/
def pulsesOf (s : State) (c a : Nat) : List Nat :=
  (List.range 8).filter (fun k => getB s (Fld.MT_PULSE_CFG_EN k) && getF s (Fld.MT_PULSE_CFG_CIRCUIT k) == c && getF s (Fld.MT_PULSE_CFG_ACC k) == a)

/-- Adds to an entry of a table of numbers. -/
def tabAdd (t : Tab Nat) (k n : Nat) : Tab Nat := tabSet 0 t k (tabGet 0 t k + n)

/-- R215: `x` in 2^-16 quanta into accumulator `a` of circuit `c`. -/
def addAcc (x : Nat) (k : Acc13) : Acc13 × Nat :=
  let sum := k.residue + x
  let whole := sum / 65536
  let i := k.interval + whole
  ({ residue := sum % 65536, total := (k.total + whole) % 2 ^ 48, interval := i % 2 ^ 32,
     wrap := if 2 ^ 32 ≤ i then min (k.wrap + 1) 255 else k.wrap }, whole)

/-- An addition of `x` 2^-16 quanta with its backlogs. -/
def addQuanta (s : State) (c a x : Nat) : State :=
  let r := addAcc x (accAt s c a)
  let s := setAcc s c a r.1
  { s with me := { s.me with formed := tabAdd s.me.formed (c * 8 + a) r.2,
                             backlogs := (pulsesOf s c a).foldl (fun t k => tabSet 0 t k ((tabGet 0 t k + r.2) % 2 ^ 32)) s.me.backlogs } }

/-- An energy in J as 2^-16 quanta of 36 J. -/
def quantaOf (j : Rat) : Nat := nearest (j * mkRat 65536 36)

/-- A group's cycle energies into Table 5. -/
def addGroup (s : State) (c : Nat) (e r va : Rat) : State :=
  let pos := decide (0 ≤ e)
  let s := addQuanta s c (if pos then 0 else 1) (quantaOf (if pos then e else -e))
  let s :=
    if 0 ≤ r then addQuanta s c (if pos then 2 else 3) (quantaOf r) else addQuanta s c (if pos then 5 else 4) (quantaOf (-r))
  addQuanta s c (if pos then 6 else 7) (quantaOf va)

/-- A circuit's energies of one line cycle (R213, R214). -/
def addCycle (s : State) (d : CircDef) (ps : List PhaseCycle) : State :=
  let th := realVal d.istart
  if ps.all (fun p => decide (p.i2 < th * th)) then incF s (Fld.LG_C_NOLOAD_CYCLES d.circuit)
  else if d.split then ps.foldl (fun s p => addGroup s d.circuit p.e p.r p.s) s
  else addGroup s d.circuit (ratSum (ps.map (fun p => p.e))) (ratSum (ps.map (fun p => p.r))) (ratSum (ps.map (fun p => p.s)))

/-! ## Circuit changes (R219, R220) -/

/-- A RESET_INT of a circuit: intervals and WRAP counts to zero, and a reset record. -/
def resetIntervals (s : State) (c : Nat) : State :=
  let s := (List.range 8).foldl (fun s a =>
    let x := accAt s c a
    let f := tabGet 0 s.me.formed (c * 8 + a)
    let sn := tabGet {} s.me.snap (c * 8 + a)
    let s := { s with me := { s.me with snap := tabSet {} s.me.snap (c * 8 + a) { sn with interval := (2 ^ 32 - f % 2 ^ 32) % 2 ^ 32 } } }
    setAcc s c a { x with interval := 0, wrap := 0 }) s
  let s := { s with me := { s.me with resetInt := s.me.resetInt.erase c } }
  let s := if !(getF s Fld.LG_CMD_OP = 2 && getF s Fld.LG_CMD_CIRCUIT = c) then s
    else if askedAgain s Fld.LG_CMD_GO then { takeAsk s Fld.LG_CMD_GO with me := { s.me with resetInt := s.me.resetInt ++ [c] } }
    else setFs s [(Fld.LG_CMD_BUSY, 0), (Fld.LG_CMD_GO, 0)]
  logEvent s (.note "LEDGER_RESET" [c, s.tick])

/-- A record is written to an erased page of the Ledger partition (12 R399): SV erases the oldest block before fewer than 8 erased ones would be left. -/
def ledgerRecord (s : State) : State :=
  let m := s.mem
  { s with mem := if m.ledgerPage + 1 < 64 then { m with ledgerPage := m.ledgerPage + 1 }
                  else { m with ledgerPage := 0, ledgerErased := max 8 (m.ledgerErased - 1) } }

/-- The accumulators, their audit marks, and the backlogs sourced from a circuit are zeroed, after a closing record (R220). -/
def closeLedger (s : State) (d : CircDef) (tick : Nat) : State :=
  let c := d.circuit
  let rec_ : Closing := { circuit := c, tenant := d.tenant, tick := tick, accs := (List.range 8).map (accAt s c) }
  let ks := (List.range 8).map (fun a => c * 8 + a)
  let ps := (List.range 8).filter (fun k => getF s (Fld.MT_PULSE_CFG_CIRCUIT k) == c)
  let s := ledgerRecord s
  { s with me := { s.me with closings := rec_ :: s.me.closings, accs := s.me.accs.filter (fun kv => !ks.contains kv.1),
                             formed := s.me.formed.filter (fun kv => !ks.contains kv.1), snap := s.me.snap.filter (fun kv => !ks.contains kv.1),
                             backlogs := s.me.backlogs.filter (fun kv => !ps.contains kv.1),
                             pulsed := s.me.pulsed.filter (fun kv => !ps.contains kv.1),
                             snapBacklog := s.me.snapBacklog.filter (fun kv => !ps.contains kv.1) } }

/-- MT_STAT.CIRCUITS follows the defined circuits. -/
def updCircuits (s : State) : State := setF s Fld.MT_STAT_CIRCUITS (s.me.circs.foldl (fun n kc => n + 2 ^ kc.1) 0)

/-- A circuit with a fresh aggregation interval. -/
def freshCirc (d : CircDef) : Circ := { dfn := d, agg := d.phases.map (fun _ => {}) }

/-- A change of a circuit takes effect: a definition with the old one's accumulators, or with them closed and zeroed; a removal; or a first
definition, whose totals start at zero (R216, R220). -/
def applyNext (s : State) (c : Nat) (n : CircNext) : State :=
  match circAt? s c, n.dfn with
  | some x, none => let s := closeLedger s x.dfn n.tick; updCircuits { s with me := { s.me with circs := tabDel s.me.circs c } }
  | some x, some d =>
    let s := if d.resetLedger then closeLedger s x.dfn n.tick else s
    updCircuits (setCirc s c { freshCirc d with next := x.next, lastPf := x.lastPf })
  | none, some d =>
    let ks := (List.range 8).map (fun a => c * 8 + a)
    let s := { s with me := { s.me with accs := s.me.accs.filter (fun kv => !ks.contains kv.1), formed := s.me.formed.filter (fun kv => !ks.contains kv.1),
                                        snap := s.me.snap.filter (fun kv => !ks.contains kv.1) } }
    updCircuits (setCirc s c { freshCirc d with since := if getB s Fld.MT_STAT_FULL_PATH then some n.tick else none })
  | none, none => s

/-- A circuit's definition (none: its removal) at a commit: while ME meters the circuit, from the first sample at or after the tick on, which the
line cycle in progress gives (R148, R220). -/
def commitCircuit (s : State) (c : Nat) (d : Option CircDef) : State :=
  let n : CircNext := { dfn := d, tick := s.tick }
  match circAt? s c with
  | some x => if getB s Fld.MT_STAT_FULL_PATH then setCirc s c { x with next := x.next ++ [n] } else applyNext s c n
  | none => applyNext s c n

/-- The definition a circuit has once the changes under way have been made. -/
def finalDef (x : Circ) : Option CircDef := match x.next.getLast? with | some n => n.dfn | none => some x.dfn

/-- A circuit as the recorded configuration defines it, with the accumulators that the restoration gave it. -/
def restoreCircuit (s : State) (c : Nat) (d : CircDef) : State :=
  match circAt? s c with
  | some x => if finalDef x = some d then s else commitCircuit s c (some d)
  | none => updCircuits (setCirc s c (freshCirc d))

/-! ## LINE_CYCLE_END (R195, R196, R205, R214) -/

/-- Overrange samples (R196). -/
def overrange (s : State) (i : Nat) : State :=
  raise (setF (incSatF s Fld.MT_OVR_COUNT) Fld.MT_OVR_LAST_INPUT i) .mtOverrange i

/-- The reference phase: the lowest whose RMS voltage over `n` samples is at least 10 % of UDIN. -/
def refPhase (s : State) (v : VsCfg) (set n : Nat) : Option Nat :=
  (List.range (setPhases v)).find? (fun p =>
    let xs := (delayed (tabGet {} s.me.chans (mvInput set p)).past n 0).map (vScale v p * ·)
    let u := udinOf v / 10
    decide (u * u * mkRat n 1 ≤ ratDot xs xs) && decide (n ≠ 0))

/-- The measured frequency is within 42.5 Hz to 69 Hz. -/
def freqOk (dur : Rat) : Bool := decide (0 < dur) && decide (mkRat 425 10 * dur ≤ 1) && decide (1 ≤ 69 * dur)

/-- Samples `a` to before `b` of a line cycle of `n` samples and duration `dur` count for a circuit as it is now defined: energies, then its place
in the aggregation interval. -/
def countPart (s : State) (v : VsCfg) (d : SetCycle) (dur : Rat) (c a b : Nat) : State :=
  match circAt? s c with
  | none => s
  | some x =>
    let n := cycleSamples d
    if b ≤ a || n = 0 then s
    else
      let share : Rat := mkRat (b - a) n
      let quarter := dur / 4 * mkRat (sampleRate s) 1
      let xs := x.dfn.phases.map (fun p => (p, sliceSamples (phaseSamples s v x.dfn p n quarter) a b))
      let cs := xs.map (fun px => phaseCycle (phaseBad s x.dfn px.1) px.1 (dur * share) px.2)
      let s := addCycle s x.dfn cs
      let res := (xs.map (fun px => px.2.i)).foldl (fun t i => List.zipWith (fun p q => p + q) t i) (List.replicate (b - a) 0)
      let ovr (i : Nat) : Bool := (((codesOf d i).drop a).take (b - a)).any codeEnd || forcedOnce s .mtOverrange i
      let agg := (x.agg.zip (xs.zip cs)).map (fun k =>
        { vs := k.1.vs ++ k.2.1.2.v, cs := k.1.cs ++ k.2.1.2.i, e := k.1.e + k.2.2.e, r := k.1.r + k.2.2.r, s := k.1.s + k.2.2.s,
          ovr := k.1.ovr || ovr k.2.1.1.mi || ovr (mvInput x.dfn.vset k.2.1.1.vph) : AggPhase })
      setCirc s c { x with samples := x.samples + (b - a), dur := x.dur + dur * share, cycles := x.cycles + share,
                           res2 := x.res2 + ratDot res res, agg := agg }

/-- Samples before the first one at or after a commit tick. -/
def samplesBefore (d : SetCycle) (tick : Nat) : Nat := min (((d.splits.find? (fun k => k.1 == tick)).map (fun k => k.2)).getD 0) (cycleSamples d)

/-- The changes of a circuit in a line cycle, each at its sample: the samples before it count for the definition before it (R220). -/
def cycleParts (s : State) (v : VsCfg) (d : SetCycle) (dur : Rat) (c a : Nat) : List CircNext → State
  | [] => countPart s v d dur c a (cycleSamples d)
  | n :: ns =>
    let b := max a (samplesBefore d n.tick)
    cycleParts (applyNext (countPart s v d dur c a b) c n) v d dur c b ns

/-- A circuit's line cycle, with the changes made in it, then what waited for the boundary (R219). -/
def cycleCircuit (s : State) (v : VsCfg) (d : SetCycle) (dur : Rat) (c : Nat) : State :=
  match circAt? s c with
  | none => s
  | some x =>
    let a := match x.since with | some t => samplesBefore d t | none => 0
    let s := cycleParts (setCirc s c { x with since := none, next := [] }) v d dur c a x.next
    let s := match circAt? s c with | some y => setCirc s c { y with since := none } | none => s
    if s.me.resetInt.contains c then resetIntervals s c else s

/-- The line cycle of every circuit of a set. -/
def cycleCircuits (s : State) (n : Nat) (v : VsCfg) (d : SetCycle) (dur : Rat) : State :=
  ((s.me.circs.filter (fun kc => kc.2.dfn.vset == n)).map (fun kc => kc.1)).foldl (fun s c => cycleCircuit s v d dur c) s

/-- Inputs with a sample at an end of the code range, once for each, and those of an injected overrange (R196). -/
def overranges (s : State) (n : Nat) (d : SetCycle) : List Nat :=
  let ins := (List.range 60).filter (fun i => chanSet s i == n)
  ins.flatMap (fun i => ((codesOf d i).filter codeEnd).map (fun _ => i)) ++ ins.filter (fun i => forcedOnce s .mtOverrange i)

/-- Overrange samples of a line cycle are counted and reported. -/
def takeOverranges (s : State) (n : Nat) (d : SetCycle) : State := (overranges s n d).foldl overrange s

/-- An injected overrange has been used. -/
def useOverrange (s0 s : State) (n : Nat) : State :=
  if (List.range 60).any (fun i => chanSet s0 i == n && forcedOnce s0 .mtOverrange i) then useForce s else s

/-- Codes 0x24 and 0x25 of every circuit on a set become 0.0 with WQ FAULT (R205). -/
def writeUnlocked (s : State) (n : Nat) : State :=
  s.me.circs.foldl (fun s kc => if kc.2.dfn.vset = n then writeQ (writeQ s kc.2.dfn 0x24 0 .fault) kc.2.dfn 0x25 0 .fault else s) s

/-! ## The aggregation end (R202, R207, R208) -/

/-- A REAL32 quantity; ME's rounding is free (log 9). -/
def meReal (q : Rat) : Word := if q = 0 then 0 else Config.meReal q

/-- A DFT bin over the samples of `cycles` line cycles, at `h` times the fundamental: the sums of x·cos and of x·sin. -/
def dftBin (xs : List Rat) (cycles : Rat) (h : Nat) : Rat × Rat :=
  let turn (k : Nat) : Rat := mkRat (h * k) xs.length * cycles
  (ratDot xs ((List.range xs.length).map (fun k => Config.meCos (turn k))), ratDot xs ((List.range xs.length).map (fun k => Config.meSin (turn k))))

/-- Square of a bin's magnitude. -/
def binMag2 (b : Rat × Rat) : Rat := b.1 * b.1 + b.2 * b.2

/-- THD in %: the RMS of harmonics 2 to `harm` as a percentage of the fundamental (R208). -/
def thdOf (xs : List Rat) (cycles : Rat) (harm : Nat) : Rat :=
  100 * ratSqrt (ratSum (((List.range (harm + 1)).drop 2).map (fun h => binMag2 (dftBin xs cycles h))) / binMag2 (dftBin xs cycles 1))

/-- A single harmonic in % of the fundamental. -/
def harmonicOf (xs : List Rat) (cycles : Rat) (h : Nat) : Rat := 100 * ratSqrt (binMag2 (dftBin xs cycles h) / binMag2 (dftBin xs cycles 1))

/-- An angle in degrees brought into (−180°, 180°]. -/
def wrapDegrees (a : Rat) : Rat := a - 360 * mkRat (-(ratFloor ((180 - a) / 360))) 1

/-- Angle of the fundamental of the current relative to the voltage, positive when the current lags (R206). -/
def phaseAngle (vs cs : List Rat) (cycles : Rat) : Rat :=
  let arg (b : Rat × Rat) : Rat := Config.meAtan (-b.2) b.1
  wrapDegrees (arg (dftBin vs cycles 1) - arg (dftBin cs cycles 1))

/-- The quantities of one phase. -/
def writePhase (s : State) (x : Circ) (p : Nat) (a : AggPhase) : State :=
  let d := x.dfn
  let ph := d.phases.getD p {}
  let wq := circWq s d a.ovr
  let nn : Rat := mkRat x.samples 1
  let off := realVal ph.iOff
  let i2 := max (ratDot a.cs a.cs / nn - off * off) 0
  let pw := a.e / x.dur
  let sv := a.s / x.dur
  let th := realVal d.istart
  let low := decide (i2 < th * th)
  let harm := getF s Fld.MT_STAT_HARM
  let s := writeQ s d (0x00 + p) (meReal (ratSqrt (ratDot a.vs a.vs / nn))) wq
  let s := writeQ s d (0x04 + p) (meReal (ratSqrt i2)) wq
  let s := writeQ s d (0x08 + p) (meReal pw) wq
  let s := writeQ s d (0x0C + p) (meReal (a.r / x.dur)) wq
  let s := writeQ s d (0x10 + p) (meReal sv) wq
  let s := writeQ s d (0x14 + p) (if low then 0 else meReal (pw / sv)) wq
  let s := writeQ s d (0x18 + p) (if low then 0 else meReal (phaseAngle a.vs a.cs x.cycles)) wq
  let s := writeQ s d (0x1C + p) (meReal (thdOf a.vs x.cycles harm)) wq
  writeQ s d (0x20 + p) (meReal (thdOf a.cs x.cycles harm)) wq

/-- Every quantity of a circuit with codes 0x00 to 0x25 but the 10 s frequency, and a fresh interval. -/
def aggCircuit (s : State) (n c : Nat) : State :=
  match circAt? s c with
  | none => s
  | some x =>
    let d := x.dfn
    let s := (x.agg.zip (List.range 3)).foldl (fun s ap => writePhase s x ap.2 ap.1) s
    let wq := circWq s d (x.agg.any (fun a => a.ovr))
    let e := ratSum (x.agg.map (fun a => a.e)) / x.dur
    let r := ratSum (x.agg.map (fun a => a.r)) / x.dur
    let va := ratSum (x.agg.map (fun a => a.s)) / x.dur
    let s := writeQ s d 0x07 (meReal (ratSqrt (x.res2 / mkRat x.samples 1))) wq
    let s := writeQ s d 0x0B (meReal e) wq
    let s := writeQ s d 0x0F (meReal r) wq
    let s := writeQ s d 0x13 (meReal va) wq
    let s := writeQ s d 0x17 (meReal (e / va)) wq
    let locked := getB s (Fld.MT_VS_STAT_LOCKED n)
    let s := writeQ s d 0x25 (if locked then meReal (1 / (vsState s n).lastDur) else 0) (if locked then circWq s d false else .fault)
    let pf := e / va
    setCirc s c { freshCirc d with since := x.since, next := x.next, lastPf := if pf < 0 then -pf else pf }

/-- Line cycles of an aggregation interval (R207). -/
def aggLength (v : VsCfg) : Nat := if v.f60 then 12 else 10

/-- MT_HVAL at an aggregation end of the set that takes the selected input (R208). -/
def showHarmonic (s : State) (n : Nat) : State :=
  let st := vsState s n
  match st.hsel with
  | none => s
  | some ix =>
    if getF s Fld.MT_HSEL_INPUT ≠ ix.1 then s
    else if getF s Fld.MT_STAT_HARM < getF s Fld.MT_HSEL_ORDER then setF s Fld.MT_HVAL_VALUE 0
    else setF s Fld.MT_HVAL_VALUE (meReal (harmonicOf ix.2 (mkRat st.aggCycles 1) (getF s Fld.MT_HSEL_ORDER))).toNat

/-- The aggregation interval of a set ends: its circuits' quantities are written, and a new interval begins. -/
def aggregate (s : State) (n : Nat) : State :=
  let cs := (s.me.circs.filter (fun kc => kc.2.dfn.vset == n)).map (fun kc => kc.1)
  let s := showHarmonic (cs.foldl (fun s c => aggCircuit s n c) s) n
  let st := vsState s n
  let s := setF s (Fld.MT_VS_STAT_FLAGGED n) (b2n st.flagged)
  setVs s n { st with flagged := st.under.isSome || st.swell.isSome, aggCycles := 0, hsel := none }

/-- The interval of a set is complete. -/
def aggDue (s : State) (n : Nat) : Bool := decide (aggLength (vsCfg s n) ≤ (vsState s n).aggCycles)

/-- AGGREGATION_END: at 10 or 12 line cycles, by F_NOM. -/
def execAggregationEnd (n : Fin 4) (_dft _harmonic : Unit) (s : State) : Host.Outcome State Fault Refusal :=
  if !domainOn s 9 || !aggDue s n.val then done s else done (aggregate s n.val)

/-! ## LINE_CYCLE_END (R195, R205, R214, R233, R236) -/

/-- ME meters, or the front end has its pegs and settles: outside Doze, start-up and Vigil, and not after a power-fail warning (R233, R236). -/
def meCounts (s : State) : Bool :=
  domainOn s 9 && s.pw.failStep == 0 && (getB s Fld.MT_STAT_FULL_PATH || s.pw.grants.contains .frontEnd)

/-- Duration of a line cycle: as measured while the set is locked, else 1/F_NOM (R205). -/
def cycleDur (v : VsCfg) (d : SetCycle) (locked : Bool) : Rat := if locked then d.measured.getD 0 else if v.f60 then 1 / 60 else 1 / 50

/-- The set of a line cycle: lock, reference phase, and what the set keeps. -/
def endSet (s : State) (n : Nat) (ref : Option Nat) (locked : Bool) (dur : Rat) (cs : List Rat) : State :=
  let was := getB s (Fld.MT_VS_STAT_LOCKED n)
  let s := setFs s [(Fld.MT_VS_STAT_LOCKED n, b2n locked), (Fld.MT_VS_STAT_REF_PHASE n, ref.getD (getF s (Fld.MT_VS_STAT_REF_PHASE n)))]
  let s := if !locked && was then writeUnlocked s n else s
  let st := vsState s n
  let i := getF s Fld.MT_HSEL_INPUT
  let hsel := if chanSet s i ≠ n then none else match st.hsel with
    | some ix => if ix.1 = i then some (i, ix.2 ++ cs) else some (i, cs)
    | none => some (i, cs)
  setVs s n { st with held := none, lastDur := dur, aggCycles := st.aggCycles + 1, hsel := hsel, cycles10 := st.cycles10 + 1, dur10 := st.dur10 + dur }

/-- A line cycle of the set of a calibration measurement is counted in it (R211). -/
def calCycle (s : State) (n : Nat) (d : SetCycle) : State :=
  if !getB s Fld.MT_CAL_CMD_BUSY || getF s Fld.MT_CAL_CMD_VSET ≠ n || getF s Fld.MT_CAL_CMD_CYCLES ≤ s.me.cal.cycles then s
  else
    let v := mvInput n (getF s Fld.MT_CAL_CMD_VPH)
    let i := getF s Fld.MT_CAL_CMD_INPUT
    { s with me := { s.me with cal := { cycles := s.me.cal.cycles + 1, vs := s.me.cal.vs ++ (codesOf d v).map (trimmed s v),
                                        cs := s.me.cal.cs ++ (codesOf d i).map (trimmed s i) } } }

/-- The rate of the profile in effect takes over at the boundary (R195). -/
def takeRate (s : State) : State :=
  let r := rateOf (getF s Fld.PW_CFG_PROFILE)
  if getF s Fld.MT_STAT_RATE ≠ r.1 then setFs s [(Fld.MT_STAT_RATE, r.1), (Fld.MT_STAT_HARM, r.2)] else s

/-- LINE_CYCLE_END. -/
def execLineCycleEnd (n : Fin 4) (d : SetCycle) (s : State) : Host.Outcome State Fault Refusal :=
  if !meCounts s then done s
  else
    let s := cross s dcqMeter
    let s0 := s
    let s := if aggDue s n.val then aggregate s n.val else s
    let s := stepChans (takeOverranges s n.val d) n.val d
    let v := vsCfg s n.val
    let ref := refPhase s v n.val (cycleSamples d)
    let locked := v.en && ref.isSome && freqOk (d.measured.getD 0)
    let dur := cycleDur v d locked
    let s := useOverrange s0 (cycleCircuits s n.val v d dur) n.val
    let s := endSet s n.val ref locked dur (delayed (tabGet {} s.me.chans (getF s Fld.MT_HSEL_INPUT)).past (cycleSamples d) 0)
    let s := takeRate (calCycle s n.val d)
    done (pegReturn (setFs s [(Fld.MT_STAT_STARTING, 0), (Fld.MT_STAT_FULL_PATH, 1)]) .frontEnd)

/-- At a power-fail warning: the partial line cycles of a set, closed at the current sample, whose durations are those of their samples (R230). -/
def closePartial (s : State) (n : Nat) (d : SetCycle) : State :=
  let s0 := s
  let s := stepChans (takeOverranges s n d) n d
  useOverrange s0 (cycleCircuits s n (vsCfg s n) d (mkRat (cycleSamples d) (sampleRate s))) n

/-! ## The Ledger's quantities -/

/-- The Ledger flags quantity (R203). -/
def ledgerFlags (s : State) (d : CircDef) : Word :=
  Word.ofNat (b2n (getB s Fld.LG_STATUS_RESTORED) + 2 * b2n (bitOf (getF s Fld.LG_AUDIT_MISMATCH) d.circuit)
    + 4 * b2n (!(getB s Fld.MT_STAT_TRIM_VALID && d.calValid)))

/-- Interval, total and flag codes of a circuit (R202, R207): every second. -/
def writeLedger (s : State) (d : CircDef) : State :=
  let wq := circWq s d false
  let s := (List.range 8).foldl (fun s a => writeQ s d (0x28 + a) (Word.ofNat (accAt s d.circuit a).interval) wq) s
  let s := (List.range 8).foldl (fun s a => writeQ s d (0x30 + a) (meReal (mkRat (accAt s d.circuit a).total 100000)) wq) s
  writeQ s d 0x3A (ledgerFlags s d) wq

/-- What a held write of code 0x26 and above becomes: the value at its release (R238). -/
def currentQ (s : State) (d : CircDef) (q : Nat) : Option Word :=
  let st := vsState s d.vset
  let int_ := match st.under with | some e => e.kind == 2 | none => false
  if q = 0x26 then some (Word.ofNat (getF s (Fld.MT_VS_EVCNT_EVENTS d.vset)))
  else if q = 0x27 then some (Word.ofNat (b2n (st.under.isSome && !int_) + 2 * b2n st.swell.isSome + 4 * b2n int_))
  else if 0x28 ≤ q && q < 0x30 then some (Word.ofNat (accAt s d.circuit (q - 0x28)).interval)
  else if 0x30 ≤ q && q < 0x38 then some (meReal (mkRat (accAt s d.circuit (q - 0x30)).total 100000))
  else if q = 0x38 then some (Word.ofNat (vigAt s d.circuit).charge)
  else if q = 0x39 then some (Word.ofNat (vigAt s d.circuit).est)
  else if q = 0x3A then some (ledgerFlags s d)
  else none

/-- A write that ME held back is performed: an aggregated quantity with the values of the latest aggregation, any other with its current value. -/
def flushOne (s : State) (h : HeldWrite) : State :=
  match circAt? s (h.ident % 256) with
  | some x => match currentQ s x.dfn (h.ident / 256) with
    | some w => writerWrite s .meter h.ident h.index w (circWq s x.dfn false)
    | none => writerWrite s .meter h.ident h.index h.value h.wq
  | none => writerWrite s .meter h.ident h.index h.value h.wq

/-- The fabric and port 10 are released and the configuration is in effect: what ME held back is written (R238). -/
def flushHeld (s : State) : State :=
  s.me.heldWrites.foldl (fun s kw => flushOne s kw.2) { s with me := { s.me with heldWrites := [], portHeld := false } }

/-- The 10 s frequency of a set (R207), in its circuits' records and in MT_VS_STAT.FREQ. -/
def writeFreq10 (s : State) (n : Nat) : State :=
  let st := vsState s n
  let locked := getB s (Fld.MT_VS_STAT_LOCKED n)
  let f : Rat := mkRat st.cycles10 1 / st.dur10
  let s := if locked then setF s (Fld.MT_VS_STAT_FREQ n) (someRound (f * 100)) else s
  let s := s.me.circs.foldl (fun s kc =>
    if kc.2.dfn.vset = n then writeQ s kc.2.dfn 0x24 (if locked then meReal f else 0) (if locked then circWq s kc.2.dfn false else .fault) else s) s
  setVs s n { vsState s n with cycles10 := 0, dur10 := 0 }

/-- What ME writes at a grid tick (R207). -/
def meTick (s : State) : State :=
  if !domainOn s 9 then s
  else
    let s := if s.tick % 4000 = 0 then s.me.circs.foldl (fun s kc => writeLedger s kc.2.dfn) s else s
    if s.tick % 40000 = 0 then [0, 1, 2, 3].foldl (fun s n => if getB s (Fld.MT_VS_CFG_EN n) then writeFreq10 s n else s) s else s

/-! ## Modulators (R197) -/

/-- Sets a channel's fault bit. -/
def setChFault (s : State) (i : Nat) : State :=
  if i < 32 then latchF s Fld.MT_CHFAULT_LO_MI (2 ^ i)
  else if i < 48 then latchF s Fld.MT_CHFAULT_HI_MI (2 ^ (i - 32))
  else latchF s Fld.MT_CHFAULT_HI_MV (2 ^ (i - 48))

/-- A modulator reported failed. -/
def modFail (s : State) (i : Nat) : State :=
  let s := { s with me := { s.me with modBad := if s.me.modBad.contains i then s.me.modBad else s.me.modBad ++ [i] } }
  raise (setChFault s i) .mtChannel i

/-- MODULATOR_FAIL. -/
def execModulatorFail (i : Fin 60) (s : State) : Host.Outcome State Fault Refusal := done (modFail s i.val)
/-- MODULATOR_RECOVERY. -/
def execModulatorRecovery (i : Fin 60) (s : State) : Host.Outcome State Fault Refusal :=
  done { s with me := { s.me with modBad := s.me.modBad.erase i.val } }

/-! ## Power-quality events (R221 to R225) -/

/-- The square of `pct` % of UDIN. -/
def pct2 (v : VsCfg) (pct : Nat) : Rat := udinOf v * udinOf v * mkRat (pct * pct) 10000

/-- Bit mask of the phases that satisfy `p`. -/
def phaseMask (us : List Rat) (p : Rat → Bool) : Nat := (us.zip [1, 2, 4]).foldl (fun n ub => if p ub.1 then n ||| ub.2 else n) 0

/-- MT_VS_STAT follows the open events, and code 0x27 is written. -/
def showEvents (s : State) (n : Nat) : State :=
  let st := vsState s n
  let int_ := match st.under with | some e => e.kind == 2 | none => false
  let s := setFs s [(Fld.MT_VS_STAT_UNDER_OPEN n, b2n st.under.isSome), (Fld.MT_VS_STAT_SWELL_OPEN n, b2n st.swell.isSome),
    (Fld.MT_VS_STAT_INTERRUPT n, b2n int_)]
  let w := b2n (st.under.isSome && !int_) + 2 * b2n st.swell.isSome + 4 * b2n int_
  s.me.circs.foldl (fun s kc => if kc.2.dfn.vset = n then writeQ s kc.2.dfn 0x27 (Word.ofNat w) (circWq s kc.2.dfn false) else s) s

/-- A closed event's record (Table 7) into its ring, counted, posted, and its count written. -/
def closeEvent (s : State) (n : Nat) (e : OpenEv) (cause : Nat) : State :=
  let dur := satAt 0xFFFFFFFF (s.mono - e.startMono)
  let ws := [e.kind + 4 * e.phases + 32 * cause + 65536 * bitsOf e.start 32 16, bitsOf e.start 0 32, dur, (meReal (ratSqrt e.extreme2)).toNat]
  let ev := getF s (Fld.MT_VS_EVCNT_EVENTS n)
  let k := n * 256 + ev % 256
  let unread := match tabGet? s.me.ring k with | some r => !r.read | none => false
  let s := if unread then incSatF s (Fld.MT_VS_EVCNT_OVERWRITTEN n) else s
  let s := { s with me := { s.me with ring := tabPut s.me.ring k { words := ws } } }
  let s := incF s (Fld.MT_VS_EVCNT_EVENTS n)
  let s := logEvent s (.note "PQ_EVENT" (n :: ws))
  s.me.circs.foldl (fun s kc =>
    if kc.2.dfn.vset = n then writeQ s kc.2.dfn 0x26 (Word.ofNat ((ev + 1) % 65536)) (circWq s kc.2.dfn false) else s) s

/-- Closes every open event of a set with an END_CAUSE (R224). -/
def closeEvents (s : State) (n cause : Nat) : State :=
  let st := vsState s n
  if st.under.isNone && st.swell.isNone then s
  else
    let s := setVs s n { st with under := none, swell := none }
    let s := match st.under with | some e => closeEvent s n e cause | none => s
    let s := match st.swell with | some e => closeEvent s n e cause | none => s
    showEvents s n

/-- The under-voltage channel at a refresh: the event after it, and the event it closes. -/
def underStep (s : State) (n : Nat) (v : VsCfg) (us : List Rat) (o : Option OpenEv) : Option OpenEv × Option OpenEv :=
  let sag := getF s (Fld.MT_VS_CFG_SAG n)
  let below := fun u => decide (u < pct2 v sag)
  let allInt := us.all (fun u => decide (u < pct2 v (getF s (Fld.MT_VS_THR_INT n))))
  let low := us.foldl (fun m u => if u < m then u else m) (us.headD 0)
  match o with
  | none =>
    if us.any below then
      (some { kind := if allInt then 2 else 0, start := s.tick, startMono := s.mono, phases := phaseMask us below, extreme2 := low }, none)
    else (none, none)
  | some e =>
    let e := { e with phases := e.phases ||| phaseMask us below, extreme2 := if low < e.extreme2 then low else e.extreme2,
                      kind := if allInt then 2 else e.kind }
    if us.all (fun u => decide (pct2 v (sag + getF s (Fld.MT_VS_THR_HYST n)) ≤ u)) then (none, some e) else (some e, none)

/-- The over-voltage channel at a refresh. -/
def swellStep (s : State) (n : Nat) (v : VsCfg) (us : List Rat) (o : Option OpenEv) : Option OpenEv × Option OpenEv :=
  let sw := getF s (Fld.MT_VS_CFG_SWELL n)
  let above := fun u => decide (pct2 v sw < u)
  let high := us.foldl (fun m u => if m < u then u else m) 0
  match o with
  | none =>
    if us.any above then (some { kind := 1, start := s.tick, startMono := s.mono, phases := phaseMask us above, extreme2 := high }, none) else (none, none)
  | some e =>
    let e := { e with phases := e.phases ||| phaseMask us above, extreme2 := if e.extreme2 < high then high else e.extreme2 }
    if us.all (fun u => decide (u ≤ pct2 v (sw - getF s (Fld.MT_VS_THR_HYST n)))) then (none, some e) else (some e, none)

/-- URMS_REFRESH. -/
def execUrmsRefresh (n : Fin 4) (u2 : List Rat) (s : State) : Host.Outcome State Fault Refusal :=
  let v := vsRegs s n.val
  if !domainOn s 9 || !v.en then done s
  else
    let us := (List.range (setPhases v)).map (fun p => u2.getD p 0 * vScale v p * vScale v p)
    let st := vsState s n.val
    let u := underStep s n.val v us st.under
    let w := swellStep s n.val v us st.swell
    let s := setVs s n.val { st with under := u.1, swell := w.1, flagged := st.flagged || u.1.isSome || w.1.isSome }
    let s := match u.2 with | some e => closeEvent s n.val e 0 | none => s
    let s := match w.2 with | some e => closeEvent s n.val e 0 | none => s
    let kindOf (o : Option OpenEv) : Option Nat := o.map (fun e => e.kind)
    done (if kindOf st.under ≠ kindOf u.1 || kindOf st.swell ≠ kindOf w.1 then showEvents s n.val else s)

/-- MT_EV_SEL: the selected record is copied into MT_EV_W0 to W3. -/
def evSel (s : State) (vset entry : Nat) : State :=
  let s := setFs s [(Fld.MT_EV_SEL_VSET, vset), (Fld.MT_EV_SEL_ENTRY, entry)]
  let k := vset * 256 + entry
  match tabGet? s.me.ring k with
  | some r =>
    let s := { s with me := { s.me with ring := tabPut s.me.ring k { r with read := true } } }
    (List.range 4).foldl (fun s w => setF s (Fld.MT_EV_W_WORD w) (r.words.getD w 0)) s
  | none => (List.range 4).foldl (fun s w => setF s (Fld.MT_EV_W_WORD w) 0) s

/-- MT_EV_SEL_WRITE. -/
def execMtEvSelWrite (vset : Fin 4) (entry : Fin 256) (s : State) : Host.Outcome State Fault Refusal := done (evSel s vset.val entry.val)

/-! ## Pulse outputs (R226) -/

/-- A pulse output. -/
def pulseAt (s : State) (k : Nat) : Pulse := tabGet {} s.me.pulses k
/-- Stores it. -/
def setPulse (s : State) (k : Nat) (p : Pulse) : State := { s with me := { s.me with pulses := tabSet {} s.me.pulses k p } }

/-- The output has been inactive for WIDTH ms. -/
def pulseReady (s : State) (k : Nat) : Bool :=
  let p := pulseAt s k
  !p.active && match p.ended with | none => true | some m => decide (m + 4 * getF s (Fld.MT_PULSE_CFG_WIDTH k) ≤ s.mono)

/-- PULSE_EMIT. -/
def execPulseEmit (k : Fin 8) (s : State) : Host.Outcome State Fault Refusal :=
  let qpp := getF s (Fld.MT_PULSE_CFG_QPP k.val)
  let b := tabGet 0 s.me.backlogs k.val
  if !getB s (Fld.MT_PULSE_CFG_EN k.val) || qpp = 0 || b < qpp || !pulseReady s k.val || !domainOn s 9 then done s
  else
    let s := { s with me := { s.me with backlogs := tabSet 0 s.me.backlogs k.val (b - qpp), pulsed := tabAdd s.me.pulsed k.val qpp } }
    done (incF (setPulse (startTime s (tmPulse k.val)) k.val { pulseAt s k.val with active := true }) (Fld.MT_PULSE_CNT_COUNT k.val))

/-- The source of PULSE output `k` changed, or it was enabled: from here on the audit holds its backlog to the quanta formed for the new source,
so those formed before count as taken (R237). -/
def pulseSourced (s : State) (k : Nat) : State :=
  let key := getF s (Fld.MT_PULSE_CFG_CIRCUIT k) * 8 + getF s (Fld.MT_PULSE_CFG_ACC k)
  { s with me := { s.me with snapBacklog := tabSet 0 s.me.snapBacklog k (tabGet 0 s.me.backlogs k),
                             pulsed := tabSet 0 s.me.pulsed k (tabGet 0 s.me.formed key) } }

/-- PULSE_END, after WIDTH ms. -/
def execPulseEnd (k : Fin 8) (s : State) : Host.Outcome State Fault Refusal :=
  let p := pulseAt s k.val
  if p.active && timeRan s (tmPulse k.val) (getF s (Fld.MT_PULSE_CFG_WIDTH k.val) * msCycles) then done (setPulse s k.val { active := false, ended := some s.mono }) else done s

/-! ## Checkpoints (R228 to R230) -/

/-- The current Sill slot: the higher sequence with a valid CRC, and whether it is B. -/
def currentSlot (s : State) : Option (Ckpt × Bool) :=
  let ok (o : Option Ckpt) : Option Ckpt := match o with | some c => if c.valid then some c else none | none => none
  match ok s.me.slotA, ok s.me.slotB with
  | none, none => none
  | some a, none => some (a, false)
  | none, some b => some (b, true)
  | some a, some b => if a.seq < b.seq then some (b, true) else some (a, false)

/-- A checkpoint of the Ledger as it stands, with a sequence. -/
def ckptOf (s : State) (seq : Nat) : Ckpt :=
  { seq := seq, tick := s.tick, steered := getB s Fld.LE_GSTAT_STEERED, rtc := s.rtc.count, restored := getB s Fld.LG_STATUS_RESTORED,
    restores := getF s Fld.LG_STATUS_RESTORES, windows := s.me.vigilWindow,
    vstart := getF s Fld.LG_VSTART_LO_TICK_LO + 2 ^ 32 * getF s Fld.LG_VSTART_HI_TICK_HI, accs := s.me.accs, vigs := s.me.vigs, backlogs := s.me.backlogs }

/-- A full checkpoint to the older slot with the next sequence; a write that fails leaves that slot without a valid CRC. -/
def sillCkpt (s : State) (ok : Bool) : State :=
  let seq := (getF s Fld.LG_SEQ_SEQ + 1) % 2 ^ 32
  let c := { ckptOf s seq with valid := ok }
  let toB := match currentSlot s with | some (_, b) => !b | none => false
  let s := { s with me := if toB then { s.me with slotB := some c } else { s.me with slotA := some c } }
  if ok then setF s Fld.LG_SEQ_SEQ seq else latchF s Fld.LG_STATUS_CKPT_FAIL 1

/-- The checkpoint of R228, held back during an L2 reset (R238). -/
def checkpoint (s : State) (ok : Bool) : State :=
  if meHeld s then { s with me := { s.me with ckptDue := true } } else sillCkpt s ok

/-- LEDGER_CHECKPOINT, at a grid tick that is a multiple of 4,000. -/
def execLedgerCheckpoint (ok : Bool) (s : State) : Host.Outcome State Fault Refusal :=
  if domainOn s 9 && s.tick % 4000 = 0 then done (checkpoint s ok) else done s

/-- A NAND copy of the current slot; NAND keeps the last 64. -/
def nandCkpt (s : State) (ok : Bool) : State :=
  match currentSlot s with
  | none => s
  | some (c, _) =>
    if ok then ledgerRecord (setF { s with me := { s.me with nand := (c :: s.me.nand).take 64 } } Fld.LG_NAND_SEQ_SEQ c.seq)
    else latchF s Fld.LG_STATUS_CKPT_FAIL 1

/-- SV asks the pegs of a NAND checkpoint and writes it with them; without them it stays due (R229, 01 R28). -/
def askCkpt (s : State) (ok : Bool) : State :=
  let r := grantNow s .nand
  if r.2 then pegReturn { nandCkpt r.1 ok with me := { (nandCkpt r.1 ok).me with nandDue := false } } .nand
  else { r.1 with me := { r.1.me with nandDue := true } }

/-- NAND_CHECKPOINT: at every multiple of NAND_PERIOD minutes of grid time (R229). -/
def execNandCheckpoint (ok : Bool) (s : State) : Host.Outcome State Fault Refusal :=
  if s.tick % (max 1 (getF s Fld.LG_CFG_NAND_PERIOD) * 240000) = 0 then done (askCkpt s ok) else done s

/-! ## LG_CMD (R219, R240) -/

/-- LG_CMD's fields after a GO. -/
def lgFields (s : State) (c op result : Nat) (busy : Bool) : State :=
  setFs s [(Fld.LG_CMD_CIRCUIT, c), (Fld.LG_CMD_OP, op), (Fld.LG_CMD_RESULT, result), (Fld.LG_CMD_BUSY, b2n busy), (Fld.LG_CMD_GO, b2n busy)]

/-- Codes 0x38 and 0x39 (R202). -/
def writeVigil (s : State) (c : Nat) : State :=
  match circAt? s c with
  | none => s
  | some x =>
    let v := vigAt s c
    writeQ (writeQ s x.dfn 0x38 (Word.ofNat v.charge) (circWq s x.dfn false)) x.dfn 0x39 (Word.ofNat v.est) (circWq s x.dfn false)

/-- A command through LG_CMD. -/
def lgCmd (s : State) (c op : Nat) : State :=
  match op with
  | 1 => askCkpt (lgFields s c op 0 false) true
  | 2 =>
    if (circAt? s c).isNone then lgFields s c op 2 false
    else
      let s := if s.me.resetInt.contains c then askAgain s Fld.LG_CMD_GO else s
      let s := lgFields s c op 0 true
      { s with me := { s.me with resetInt := if s.me.resetInt.contains c then s.me.resetInt else s.me.resetInt ++ [c] } }
  | 3 =>
    if (circAt? s c).isNone then lgFields s c op 2 false
    else
      let v := vigAt s c
      writeVigil (setVig (lgFields s c op 0 false) c { v with charge := 0, chargeRes := 0, est := 0, estRes := 0, windows := 0, episodes := 0 }) c
  | _ => lgFields s c op 1 false

/-- LG_NAND_CHECKPOINT. -/
def execLgNandCheckpoint (s : State) : Host.Outcome State Fault Refusal := done (lgCmd s (getF s Fld.LG_CMD_CIRCUIT) 1)
/-- RESET_INT. -/
def execResetInt (c : Fin 16) (s : State) : Host.Outcome State Fault Refusal := done (lgCmd s c.val 2)
/-- LG_CLEAR_VIGIL. -/
def execLgClearVigil (c : Fin 16) (s : State) : Host.Outcome State Fault Refusal := done (lgCmd s c.val 3)

/-! ## Shadows and WRAP (R217, R218, R538) -/

/-- Key of the shadow that requester `q` has of accumulator `a` of circuit `c`. -/
def accShadow (q : Requester) (c a : Nat) : Nat := (16 + c * 8 + a) * 16 + q.num

/-- An accumulator as a shadow holds it: INT, total, WRAP, RES. -/
def accWords (x : Acc13) : List Nat := [x.interval, x.total, x.wrap, x.residue]

/-- The shadow if it is open, else the live accumulator. -/
def accView (s : State) (q : Requester) (c a : Nat) : List Nat := (tabGet? s.shadows (accShadow q c a)).getD (accWords (accAt s c a))

/-- A read of LG_A_INT: opens or refreshes the shadow; the reply is the interval. -/
def readAccInt (s : State) (q : Requester) (c a : Nat) : State :=
  let w := accWords (accAt s c a)
  setReply { s with shadows := tabPut s.shadows (accShadow q c a) w } [w.getD 0 0]

/-- A read of LG_A_TOT_HI: closes the shadow. -/
def readAccHi (s : State) (q : Requester) (c a : Nat) : State :=
  let w := accView s q c a
  setReply { s with shadows := tabDel s.shadows (accShadow q c a) } [bitsOf (w.getD 1 0) 32 16 + 65536 * w.getD 2 0]

/-- LG_A_INT_READ. -/
def execLgAIntRead (q : Requester) (c : Fin 16) (a : Fin 8) (s : State) : Host.Outcome State Fault Refusal := done (readAccInt s q c.val a.val)
/-- LG_A_TOT_HI_READ. -/
def execLgATotHiRead (q : Requester) (c : Fin 16) (a : Fin 8) (s : State) : Host.Outcome State Fault Refusal := done (readAccHi s q c.val a.val)

/-- A write of `v` to WRAP (R217). -/
def wrapWrite (s : State) (c a v : Nat) : State :=
  let x := accAt s c a
  setAcc s c a { x with wrap := x.wrap - v }

/-- LG_WRAP_WRITE. -/
def execLgWrapWrite (c : Fin 16) (a : Fin 8) (v : Fin 256) (s : State) : Host.Outcome State Fault Refusal := done (wrapWrite s c.val a.val v.val)

/-! ## The audit (R237, R494) -/

/-- Accumulator `a` of circuit `c` agrees with the quanta formed, offset by `off`. -/
def auditAcc (s : State) (off c a : Nat) : Bool :=
  let k := c * 8 + a
  let x := accAt s c a
  let sn := tabGet {} s.me.snap k
  let f := tabGet 0 s.me.formed k
  x.total == (sn.total + f + off) % 2 ^ 48 && x.interval == (sn.interval + f + off) % 2 ^ 32
    && (pulsesOf s c a).all (fun p => tabGet 0 s.me.pulsed p + tabGet 0 s.me.backlogs p == tabGet 0 s.me.snapBacklog p + f + off)

/-- The marks of the next audit. -/
def auditMark (s : State) : State :=
  { s with me := { s.me with snap := s.me.accs, formed := [], pulsed := [], snapBacklog := s.me.backlogs } }

/-- A mismatch of a circuit. -/
def auditFail (s : State) (c : Nat) : State :=
  raise (latchF (latchF s Fld.LG_STATUS_AUDIT_FAIL 1) Fld.LG_AUDIT_MISMATCH (2 ^ c)) .lgAudit c

/-- The audit of one circuit. -/
def auditCircuit (s : State) (c : Nat) : State :=
  let (off, s) := takeOffset s .lgAudit c
  if (List.range 8).all (auditAcc s off c) then s else auditFail s c

/-- LEDGER_AUDIT, at a grid tick that is a multiple of 4,000. -/
def execLedgerAudit (s : State) : Host.Outcome State Fault Refusal :=
  if !domainOn s 9 || s.tick % 4000 ≠ 0 then done s
  else done (incF (auditMark ((s.me.circs.map (fun kc => kc.1)).foldl auditCircuit s)) Fld.LG_AUDIT_AUDITS)

/-! ## Calibration (R211) and MT_OVR -/

/-- MT_CAL_CMD.GO (R211, Table 11): the measurement of the operands in the register starts. An operand that the table does not assign is refused, with no
effect (00 R537); a GO while a measurement is in progress counts only should that one end in the same fabric cycle (00 R8). -/
def calGo (s : State) : State :=
  if 48 ≤ getF s Fld.MT_CAL_CMD_INPUT || getF s Fld.MT_CAL_CMD_VPH = 3 || getF s Fld.MT_CAL_CMD_CYCLES = 0 then
    setF s Fld.MT_CAL_CMD_GO (getF s Fld.MT_CAL_CMD_BUSY)
  else if getB s Fld.MT_CAL_CMD_BUSY then askAgain s Fld.MT_CAL_CMD_GO
  else setFs { s with me := { s.me with cal := {} } } [(Fld.MT_CAL_CMD_BUSY, 1), (Fld.MT_CAL_CMD_GO, 1)]

/-- CAL_MEASURE. -/
def execCalMeasure (input : Fin 64) (vset vph : Fin 4) (cycles : Fin 256) (s : State) : Host.Outcome State Fault Refusal :=
  done (calGo (setFs s [(Fld.MT_CAL_CMD_INPUT, input.val), (Fld.MT_CAL_CMD_VSET, vset.val), (Fld.MT_CAL_CMD_VPH, vph.val),
    (Fld.MT_CAL_CMD_CYCLES, cycles.val)]))

/-- The results of R211 in the order of the registers: V and I in V RMS, P and Q in V², the angle in degrees. -/
def calResults (c : CalRun) : List Rat :=
  let n := c.vs.length
  let nn : Rat := mkRat n 1
  [ratSqrt (ratDot c.vs c.vs / nn), ratSqrt (ratDot c.cs c.cs / nn), ratDot c.vs c.cs / nn,
   ratDot (delayed c.vs n (mkRat n (4 * c.cycles))) c.cs / nn, phaseAngle c.vs c.cs (mkRat c.cycles 1)]

/-- CAL_DONE: the line cycles of the measurement are complete. -/
def execCalDone (_results : Unit) (s : State) : Host.Outcome State Fault Refusal :=
  if !getB s Fld.MT_CAL_CMD_BUSY || s.me.cal.cycles < getF s Fld.MT_CAL_CMD_CYCLES then done s
  else
    let s := (List.range 5).foldl (fun t i => setF t (Fld.MT_CAL_RES_RESULT i) (meReal ((calResults s.me.cal).getD i 0)).toNat) s
    if askedAgain s Fld.MT_CAL_CMD_GO then done { takeAsk s Fld.MT_CAL_CMD_GO with me := { s.me with cal := {} } }
    else done (setFs s [(Fld.MT_CAL_CMD_BUSY, 0), (Fld.MT_CAL_CMD_GO, 0)])

/-- MT_OVR.CLEAR. -/
def mtOvrClear (s : State) : State := setFs s [(Fld.MT_OVR_COUNT, 0), (Fld.MT_OVR_LAST_INPUT, 0)]
/-- MT_OVR_CLEAR. -/
def execMtOvrClear (s : State) : Host.Outcome State Fault Refusal := done (mtOvrClear s)

/-! ## Vigil (R231, R232) -/

/-- PERIOD of the Vigil windows in s. -/
def vigilPeriod (s : State) : Nat := 2 ^ getF s Fld.MT_VIGIL_CFG_PERIOD

/-- Irms of the watched inputs of a circuit in a window. -/
def watched (d : CircDef) (irms2 : List Rat) : List Rat :=
  (d.phases.filter (fun p => decide (p.mi < 16))).map (fun p =>
    let is := iScale d p
    let off := realVal p.iOff
    ratSqrt (max (irms2.getD p.mi 0 * is * is - off * off) 0))

/-- A circuit's window. -/
def vigilCircuit (s : State) (irms2 : List Rat) (c : Nat) (x : Circ) : State :=
  if !x.dfn.vigilEn then s
  else
    let ws := watched x.dfn irms2
    let tot := ratSum ws
    let per : Rat := mkRat (vigilPeriod s) 1
    let v := vigAt s c
    let q := v.chargeRes + someRound (tot * per / 36 * 65536)
    let v := { v with charge := (v.charge + q / 65536) % 2 ^ 32, chargeRes := q % 65536 }
    let hit := ws.any (fun i => decide (realVal x.dfn.vigilThresh < i))
    let v := if hit then { v with windows := satAt 0xFFFF (v.windows + 1), episodes := if v.windows = 0 then satAt 0xFFFF (v.episodes + 1) else v.episodes,
                                  first := if v.windows = 0 then min s.me.vigilWindow 0xFFFE else v.first } else v
    let e := v.estRes + someRound (tot * udinOf (vsRegs s x.dfn.vset) * x.lastPf * per / 36 * 65536)
    let v := if getB s Fld.MT_VIGIL_CFG_EST_EN then { v with est := (v.est + e / 65536) % 2 ^ 32, estRes := e % 65536 } else v
    setVig s c v

/-- VIGIL_WINDOW: in Vigil with EN = 1, at a Vigil period boundary (13 R412). -/
def execVigilWindow (irms2 : List Rat) (s : State) : Host.Outcome State Fault Refusal :=
  if modeOf s ≠ 5 || !getB s Fld.MT_VIGIL_CFG_EN || s.rtc.count % (vigilPeriod s * 32768) ≠ 0 then done s
  else
    let s := if s.me.vigilWindow = 0 then
        setFs s [(Fld.LG_VSTART_LO_TICK_LO, bitsOf s.rtc.count 0 32), (Fld.LG_VSTART_HI_TICK_HI, bitsOf s.rtc.count 32 16)] else s
    let s := s.me.circs.foldl (fun s kc => vigilCircuit s irms2 kc.1 kc.2) s
    let s := { s with me := { s.me with vigilWindow := min (s.me.vigilWindow + 1) 0xFFFE } }
    done (sillCkpt s true)

/-- Vigil state without the lost episode (R234): charge, estimate and count of the earlier ones stand. -/
def dropEpisode (vs : Tab Vig) : Tab Vig :=
  (vs.map (fun kv => (kv.1, { kv.2 with windows := 0, first := 0xFFFF }))).filter (fun kv => decide (kv.2 ≠ {}))

/-- A new Vigil begins with the power-fail warning: a new episode of every circuit (R232, R233). -/
def vigilStart (s : State) : State :=
  { s with me := { s.me with vigilWindow := 0, vigilDue := true,
                             vigs := dropEpisode s.me.vigs } }

/-! ## Restoration (R233, R234, R237) -/

/-- The newest valid NAND checkpoint. -/
def newestNand (s : State) : Option Ckpt := s.me.nand.find? (fun c => c.valid)

/-- The Ledger takes the contents of a checkpoint. -/
def loadCkpt (s : State) (c : Ckpt) : State :=
  let s := { s with me := { s.me with accs := c.accs, vigs := c.vigs, backlogs := c.backlogs, vigilWindow := c.windows, formed := [], pulsed := [],
                                      snap := c.accs, snapBacklog := c.backlogs } }
  setFs s [(Fld.LG_STATUS_RESTORED, b2n (c.restored || getB s Fld.LG_STATUS_RESTORED)), (Fld.LG_STATUS_RESTORES, c.restores), (Fld.LG_SEQ_SEQ, c.seq),
    (Fld.LG_NAND_SEQ_SEQ, ((newestNand s).map (fun n => n.seq)).getD 0),
    (Fld.LG_VSTART_LO_TICK_LO, bitsOf c.vstart 0 32), (Fld.LG_VSTART_HI_TICK_HI, bitsOf c.vstart 32 16)]

/-- A restored total below the newest NAND checkpoint's fails the audit (R237). -/
def restoreAudit (s : State) : State :=
  match newestNand s with
  | none => s
  | some n => (List.range 16).foldl (fun s c =>
      if (List.range 8).any (fun a => decide ((accAt s c a).total < (tabGet {} n.accs (c * 8 + a)).total)) then auditFail s c else s) s

/-- LG_DOZE after a Doze: the time on the RTC from its entry until it was left, in whole seconds (R235, log 9). -/
def dozeTime (s : State) : State :=
  match s.me.dozeFrom, s.me.dozeTo with
  | some t, some u => { setF s Fld.LG_DOZE_SECONDS (satAt 0xFFFFFFFF ((u - t) / 32768)) with me := { s.me with dozeFrom := none, dozeTo := none } }
  | _, _ => s

/-- SV restores the Ledger after an L1 or L0 reset. -/
def restoreLedger (s : State) : State :=
  let s := dozeTime { s with me := { s.me with restoreDue := false } }
  let bad (o : Option Ckpt) : Bool := match o with | some c => !c.valid | none => false
  let s := if bad s.me.slotA || bad s.me.slotB then latchF s Fld.LG_STATUS_CKPT_FAIL 1 else s
  match currentSlot s with
  | some (c, b) => restoreAudit (setF (loadCkpt s c) Fld.LG_STATUS_SOURCE (b2n b))
  | none =>
    match newestNand s with
    | some c =>
      let s := loadCkpt s { c with restored := true, restores := satAt 0xFFFF (c.restores + 1), vigs := dropEpisode c.vigs, windows := 0 }
      { setF s Fld.LG_STATUS_SOURCE 2 with me := { s.me with vigilDue := false, gapFrom := if c.steered then some c.tick else none } }
    | none => { setF s Fld.LG_STATUS_SOURCE 3 with me := { s.me with vigilDue := false, accs := [], vigs := [], backlogs := [] } }

/-- After a Vigil, once the recorded configuration has defined ME's records: Vigil records, faults, codes 0x38 and 0x39 (R233); what an L2 reset
held back is written (R238). -/
def meReturn (s : State) : State :=
  let s := flushHeld s
  let s := if s.me.ckptDue then sillCkpt { s with me := { s.me with ckptDue := false } } true else s
  if !s.me.vigilDue then s
  else
    let s := s.me.circs.foldl (fun s kc =>
      let v := vigAt s kc.1
      let s := if v.windows ≠ 0 then raise (logEvent s (.note "VIGIL" [kc.1, v.windows, v.first, v.charge, v.est])) .lgVigil kc.1 else s
      writeVigil s kc.1) s
    { s with me := { s.me with vigilDue := false } }

/-- LG_GAP when the grid is steered again after a restoration from NAND (R234). -/
def gapSteered (s : State) : State :=
  match s.me.gapFrom with
  | none => s
  | some t =>
    let g := satAt 0xFFFFFFFE (someRound (mkRat ((s.tick + tickMod - t) % tickMod) 4000))
    { setFs s [(Fld.LG_GAP_SECONDS, g), (Fld.LG_STATUS_GAP_KNOWN, 1)] with me := { s.me with gapFrom := none } }

/-! ## Circuit descriptors (R199, R200, R201) -/

/-- A circuit descriptor's fields (Table 2). -/
def parseCirc (ws : List Nat) : CircDef :=
  let w (k : Nat) : Nat := ws.getD k 0
  let n := bitsOf (w 0) 6 2
  { circuit := bitsOf (w 0) 0 4, vset := bitsOf (w 0) 4 2, split := bitOf (w 0) 8, calValid := bitOf (w 0) 9, resetLedger := bitOf (w 0) 10,
    vigilEn := bitOf (w 0) 11, tenant := bitsOf (w 0) 16 12, iratio := Word.ofNat (w 3), rated := Word.ofNat (w 4), imax := Word.ofNat (w 5),
    istart := Word.ofNat (w 6), vigilThresh := Word.ofNat (w 7),
    phases := (List.range n).map (fun p =>
      { mi := bitsOf (w 1) (8 * p) 6, vph := bitsOf (w 2) (2 * p) 2, iGain := bitsOf (w (8 + 3 * p)) 0 16, iPhase := q15At (w (8 + 3 * p)) 16,
        pGain := bitsOf (w (9 + 3 * p)) 0 16, qGain := bitsOf (w (9 + 3 * p)) 16 16, iOff := Word.ofNat (w (10 + 3 * p)) }),
    pointBase := bitsOf (w 17) 0 16, qmask := w 18 + 2 ^ 32 * w 19 }

/-- Finite and above zero. -/
def realPos (w : Word) : Bool := !realSpecial w && decide (0 < realVal w)

/-- A gain within 0x4000 to 0xC000. -/
def gainOk (g : Nat) : Bool := decide (0x4000 ≤ g) && decide (g ≤ 0xC000)

/-- TYPE of a quantity code; none: reserved (Table 3). -/
def quantityType (q : Nat) : Option VType :=
  if q = 3 then none
  else if q ≤ 0x17 then some .real32
  else if q = 0x1B || q = 0x1F || q = 0x23 then none
  else if q ≤ 0x25 then some .real32
  else if q ≤ 0x2F then some .uint32
  else if q ≤ 0x37 then some .real32
  else if q ≤ 0x3A then some .uint32
  else none

/-- Every field within its range, unused words and unnamed bits zero (R199, R201). -/
def circFieldsOk (ws : List Nat) : Bool :=
  let d := parseCirc ws
  let w (k : Nat) : Nat := ws.getD k 0
  let n := d.phases.length
  decide (1 ≤ n) && within (w 0) 0x0FFF0FFF && decide (d.tenant ≤ 4094)
    && within (w 1) (if n = 1 then 0x3F else if n = 2 then 0x3F3F else 0x3F3F3F) && within (w 2) (if n = 1 then 3 else if n = 2 then 15 else 63)
    && d.phases.all (fun p => decide (p.mi ≤ 47) && decide (p.vph ≤ 2) && gainOk p.iGain && gainOk p.pGain && gainOk p.qGain
         && !realSpecial p.iOff && decide (0 ≤ realVal p.iOff))
    && (List.range 9).all (fun i => decide (i < 3 * n) || w (8 + i) == 0)
    && realPos d.iratio && realPos d.rated && realPos d.imax && decide (realVal d.rated ≤ realVal d.imax) && decide (realVal d.imax ≤ 600)
    && realPos d.istart && decide (realVal d.istart ≤ realVal d.rated / 1000) && realPos d.vigilThresh && within (w 17) 0xFFFF
    && (List.range 64).all (fun q => !bitOf d.qmask q || (quantityType q).isSome)

end Sys2Proof.Machine
end

