-- ==== Sys2Proof/Machine/Wire.lean ====
section
/-! DEFINITION. Machine/Wire.lean: the octets of a Truss frame (08 R244 to R247): addresses, tags, header, and its protection by SE. -/

namespace Sys2Proof.Machine

/-! ## Addresses and tags -/

/-- The unicast address in effect (09 Table 10): the fuse address while octet 0 has its group bit set. -/
def macAddr (s : State) (m : Nat) : List Nat :=
  let lo := getF s (Fld.MACn_ADDR_LO_OCTETS_0_3 m)
  if bitOf lo 0 then
    octetsLe 4 (Config.fuseField (Fld.MACn_ADDR_LO_OCTETS_0_3 m).key % 2 ^ 32) ++ octetsLe 2 (Config.fuseField (Fld.MACn_ADDR_HI_OCTETS_4_5 m).key % 2 ^ 16)
  else octetsLe 4 lo ++ octetsLe 2 (getF s (Fld.MACn_ADDR_HI_OCTETS_4_5 m))

/-- The Truss group address (08 R244). -/
def trussGroup (s : State) : List Nat := octetsLe 4 (getF s Fld.TR_GROUP_LO_ADDR_LO) ++ octetsLe 2 (getF s Fld.TR_GROUP_HI_ADDR_HI)

/-- A tag: TPID, then PCP and VID. -/
def tagOctets (tpid pcp vid : Nat) : List Nat := octetsBe 2 tpid ++ octetsBe 2 (pcp * 8192 + vid)

/-- The S-tag of a backbone MAC is in use: SVID 0 and 4,095 are taken as EN = 0 (09 R282). -/
def stagOn (s : State) (m : Nat) : Bool :=
  getB s (Fld.MACn_STAG_EN m) && getF s (Fld.MACn_STAG_SVID m) ≠ 0 && getF s (Fld.MACn_STAG_SVID m) ≠ 4095

/-- The tags of a frame that leaves a backbone MAC, outermost first (09 R292). -/
def bbTagsOut (s : State) (m pcp : Nat) : List Nat :=
  let v := getF s Fld.TR_CFG_VID
  (if stagOn s m then tagOctets 0x88A8 (getF s (Fld.MACn_STAG_S_PCP m)) (getF s (Fld.MACn_STAG_SVID m)) else [])
    ++ (if v = 0 then [] else tagOctets 0x8100 pcp v)

/-! ## The header (R245, R246) -/

/-- Dowel pool of a frame TYPE: 0 Cycle, 1 and 2 Control requests and responses, 3 and 4 Management; none for a small frame (Table 2). -/
def poolOfType (ty : Nat) : Option Nat :=
  if ty = 0x13 then some 0
  else if ty = 0x02 || ty = 0x11 || ty = 0x21 || ty = 0x23 || ty = 0x39 then some 2
  else if ty = 0x10 || ty = 0x12 || ty = 0x38 || (0x20 ≤ ty && ty ≤ 0x26) then some 1
  else if ty = 0x30 then some 3
  else if ty = 0x31 then some 4
  else none

/-- POOL and RSP as the header codes them. -/
def poolCode (ty : Nat) : Nat × Nat :=
  match poolOfType ty with
  | some 0 => (0, 0) | some 1 => (1, 0) | some 2 => (1, 1) | some 3 => (2, 0) | some _ => (2, 1) | none => (3, 0)

/-- SRC: the module's number, or 0x3FE without one. -/
def selfSrc (s : State) : Nat := if getB s Fld.TR_SELF_NUMBERED then getF s Fld.TR_SELF_NUMBER else 0x3FE

/-- SERIAL and SESSION as the header holds them: the context of the frame key. -/
def keyContext (s : State) : List Nat :=
  octetsLe 4 (getF s Fld.TR_SER_LO_SERIAL) ++ octetsLe 4 (getF s Fld.TR_SER_HI_SERIAL) ++ octetsLe 4 (getF s Fld.TR_SESSION_SESSION)

/-- The 32 octets of the header of Table 1. Dowels are returned in CREDIT frames, so DOWELS is 0 (R268, log 107). -/
def trussHeader (s : State) (ty dst seq keysel len : Nat) : List Nat :=
  [1, ty] ++ octetsLe 2 (selfSrc s + keysel * 2 ^ 11 + (poolCode ty).1 * 2 ^ 12 + (poolCode ty).2 * 2 ^ 14 + getF s Fld.TR_CFG_CONF * 2 ^ 15)
    ++ octetsLe 2 dst ++ octetsLe 2 len ++ keyContext s ++ octetsLe 8 seq ++ octetsLe 2 (getF s Fld.TR_TERM_TERM) ++ octetsLe 2 0

/-! ## Protection (R247) -/

/-- Operator station, as SRC and DST name it. -/
def dstStation : Nat := 0x3FD
/-- All modules. -/
def dstAll : Nat := 0x3FF

/-- The slot pair of frames to or from `peer`: MGMT_SLOT for the operator station, else KEY_SLOT. -/
def frameSlot (s : State) (peer : Nat) : Nat := if peer = dstStation then getF s Fld.TR_CFG2_MGMT_SLOT else getF s Fld.TR_CFG2_KEY_SLOT

/-- Key `k` of the pair for frames with `peer` can be used (13 R415): a station acts for the tenant to which its pair is bound (08 R271). -/
def frameKeyOk (s : State) (peer k : Nat) : Bool :=
  let p := frameSlot s peer
  if peer = dstStation then keyUsableAt s p k .station (slotAt s p).binding else keyUsableAt s p k .truss 4095

/-- The frame key (R247): the KDF under the label TRUSS-FRAME with SERIAL and SESSION as its context. -/
def frameKey (s : State) (peer k : Nat) (context : List Nat) : List Nat :=
  kdf (octetsBe 32 (((slotAt s (frameSlot s peer)).key k).getD 0)) "TRUSS-FRAME" context 256


/-- The nonce: SEQ followed by 32 zero bits. -/
def frameNonce (seq : Nat) : List Nat := octetsLe 8 seq ++ [0, 0, 0, 0]

/-- A protected frame: header, payload and tag, for the addresses given. -/
def sealFrame (s : State) (da sa : List Nat) (ty dst seq : Nat) (payload : List Nat) : List Nat :=
  let k := (slotAt s (frameSlot s dst)).active
  let key := frameKey s dst k (keyContext s)
  let h := trussHeader s ty dst seq k payload.length
  let aad := da ++ sa ++ octetsBe 2 (getF s Fld.TR_CFG2_ETYPE) ++ h
  if getB s Fld.TR_CFG_CONF then
    let c := gcmEncrypt key (frameNonce seq) payload
    h ++ c ++ gcmTag key (frameNonce seq) aad c
  else h ++ payload ++ gcmTag key (frameNonce seq) (aad ++ payload) []

/-- The address of a module's MAC on a lane, as its frames or its HELLO gave it; the group address for all modules. -/
def addrOf (s : State) (l dst : Nat) : List Nat := if dst = dstAll then trussGroup s else octetsLe 6 (tabGet 0 s.tr.addrs (l * 1024 + dst))

/-- The whole frame on a lane, from the destination address through the FCS. The PCP of its C-tag is not stated (log 107). -/
def trussFrame (s : State) (l ty dst seq : Nat) (payload : List Nat) : List Nat :=
  let da := addrOf s l dst
  let sa := macAddr s l
  let w := da ++ sa ++ bbTagsOut s l (Config.crypto 42 [ty] % 8) ++ octetsBe 2 (getF s Fld.TR_CFG2_ETYPE) ++ sealFrame s da sa ty dst seq payload
  w ++ octetsLe 4 (crc32 w)

/-- The payload's octets: its words, little-endian. -/
def payloadOctets (args : List Nat) : List Nat := args.flatMap (octetsLe 4)

/-- A number of 64 bits as two words. -/
def words64 (n : Nat) : List Nat := [n % 2 ^ 32, n / 2 ^ 32]

/-- Words of at most 363 each, the 1,452 octets of a payload (R244); one piece for an empty message. -/
def pieces : Nat → List Nat → List (List Nat)
  | 0, _ => []
  | f + 1, l => if l.length ≤ 363 then [l] else l.take 363 :: pieces f (l.drop 363)

end Sys2Proof.Machine
end

