-- ==== Sys2Proof/Machine/Truss.lean ====
section
/-! DEFINITION. Machine/Truss.lean: Truss (08): acceptance of frames, dowels, joining and departure, marks and the grid, subscriptions and relays. -/

namespace Sys2Proof.Machine

/-! ## Roles and numbers -/

/-- This module is the active manager. -/
def isManager (s : State) : Bool := activeRole s == 2
/-- TR_SELF.NUMBER. -/
def selfNumber (s : State) : Nat := getF s Fld.TR_SELF_NUMBER
/-- Applies a change to the Truss structures. -/
def mapTr (s : State) (f : TrState → TrState) : State := { s with tr := f s.tr }
/-- The directory entry of a module. -/
def dirAt (s : State) (n : Nat) : DirEnt := tabGet {} s.tr.dir n
/-- Stores it. -/
def setDir (s : State) (n : Nat) (e : DirEnt) : State := mapTr s (fun t => { t with dir := tabSet {} t.dir n e })
/-- Numbers of the modules present in the directory. -/
def presentModules (s : State) : List Nat := (s.tr.dir.filter (fun kd => kd.2.state == 1)).map (fun kd => kd.1)
/-- Lanes that are up, 0 BB0 and 1 BB1. -/
def lanesUp (s : State) : List Nat := (if getB s Fld.TR_LANES_BB0_UP then [0] else []) ++ (if getB s Fld.TR_LANES_BB1_UP then [1] else [])

/-- Distinct elements. -/
def dedup {α : Type} [DecidableEq α] : List α → List α
  | [] => []
  | a :: t => if t.contains a then dedup t else a :: dedup t

/-- Module number of a GPA. -/
def gpaModule (g : Nat) : Nat := g / 65536 % 512

/-! ## Dowel pools (R265 to R269) -/

/-- Buffers of a pool by role (Table 3). -/
def poolBuffers (role p : Nat) : Nat := (if role = 2 then [576, 96, 96, 64, 64] else [256, 32, 32, 32, 32]).getD p 0

/-- A pool's structures. -/
def poolAt (s : State) (l p : Nat) : PoolState := tabGet {} s.tr.pools (l * 8 + p)
/-- Stores them. -/
def setPool (s : State) (l p : Nat) (x : PoolState) : State := mapTr s (fun t => { t with pools := tabSet {} t.pools (l * 8 + p) x })
/-- Sum of a table of numbers. -/
def tabSum (t : Tab Nat) : Nat := t.foldl (fun n kv => n + kv.2) 0
/-- Takes from an entry of a table of numbers, not below 0. -/
def tabTake (t : Tab Nat) (k n : Nat) : Tab Nat := tabSet 0 t k (tabGet 0 t k - n)

/-- The Truss pools take the sizes of a role, every buffer free; the other-traffic pools take theirs (R265). -/
def resizePools (s : State) (role : Nat) : State :=
  let s := mapTr (updBb s) (fun t => { t with pools := [] })
  [0, 1].foldl (fun s l => [0, 1, 2, 3, 4].foldl (fun s p =>
    setFs s [(Fld.TR_POOL_FREE l p, poolBuffers role p), (Fld.TR_POOL_SIZE l p, poolBuffers role p)]) s) s

/-- Grants up to `n` dowels of a pool to a peer, from its free buffers; the number granted. -/
def grantDowels (s : State) (l p peer n : Nat) : State × Nat :=
  let m := min n (getF s (Fld.TR_POOL_FREE l p))
  if m = 0 then (s, 0)
  else
    let x := poolAt s l p
    (setF (setPool s l p { x with granted := tabAdd x.granted peer m }) (Fld.TR_POOL_FREE l p) (getF s (Fld.TR_POOL_FREE l p) - m), m)

/-- Takes back up to `n` unused dowels of a peer: free again. -/
def reclaimDowels (s : State) (l p peer : Nat) : State :=
  let x := poolAt s l p
  let n := tabGet 0 x.granted peer
  setF (setPool s l p { x with granted := tabDel x.granted peer, withheld := tabDel x.withheld peer }) (Fld.TR_POOL_FREE l p)
    (getF s (Fld.TR_POOL_FREE l p) + n)

/-- The dowels of a departed module are reclaimed at once (R268). -/
def reclaimAll (s : State) (peer : Nat) : State := [0, 1].foldl (fun s l => [0, 1, 3].foldl (fun s p => reclaimDowels s l p peer) s) s

/-- The response pool in which the sender of a request reserves a buffer (R267). -/
def replyPool (ty : Nat) : Option Nat :=
  if ty = 0x10 || ty = 0x38 || ty = 0x20 || ty = 0x22 || ty = 0x26 then some 2 else if ty = 0x30 then some 4 else none

/-- Reserves one buffer of a response pool on a lane. -/
def reserveOn (s : State) (l p : Nat) : State :=
  let x := poolAt s l p
  setF (setPool s l p { x with reserved := x.reserved + 1 }) (Fld.TR_POOL_FREE l p) (getF s (Fld.TR_POOL_FREE l p) - 1)

/-! ## Sending (R242, R244 to R249) -/

/-- Key of the dowels held at a peer. -/
def heldKey (l p peer : Nat) : Nat := (l * 8 + p) * 1024 + peer

/-- A frame to or from `peer` can be protected by the active key of its pair (R247, 13 R415, R429). -/
def trussKey (s : State) (peer : Nat) : Bool := frameKeyOk s peer (slotAt s (frameSlot s peer)).active

/-- A frame can be sent now: not on a standalone module (R241); a key is usable, some lane is up, with a dowel of the receiver and a buffer for the reply on
each lane that is. -/
def canSend (s : State) (f : OutFrame) : Bool :=
  let ls := lanesUp s
  trRole s != 0 && !ls.isEmpty && trussKey s f.dst
    && (match poolOfType f.ty with
        | some p => p = 2 || p = 4 || ls.all (fun l => decide (1 ≤ tabGet 0 s.tr.held (heldKey l p f.dst)))
        | none => true)
    && (f.more || match replyPool f.ty with | some p => ls.all (fun l => decide (1 ≤ getF s (Fld.TR_POOL_FREE l p))) | none => true)

/-- SESSION is drawn before the first frame after the reset (R248). -/
def drawSession (s : State) : State :=
  if s.tr.drawn then s
  else
    let (v, s) := freshFree s
    mapTr (setF s Fld.TR_SESSION_SESSION v) (fun t => { t with drawn := true })

/-- One frame leaves on every lane that is up (R249): it takes its SEQ, the receiver's dowels, and a reservation for its reply. -/
def sendNow (s : State) (f : OutFrame) : State :=
  let s := drawSession s
  let ls := lanesUp s
  let s := match poolOfType f.ty with
    | some p => if p = 2 || p = 4 then s else ls.foldl (fun s l => mapTr s (fun t => { t with held := tabTake t.held (heldKey l p f.dst) 1 })) s
    | none => s
  let s := match replyPool f.ty with | some p => if f.more then s else ls.foldl (fun s l => reserveOn s l p) s | none => s
  let s := if ls.length = 1 then incSatF s Fld.TR_LANES_SINGLE_SENT else s
  let seq := s.tr.seq
  let s := ls.foldl (fun s l => sendMsg s (.note "TRUSS" (l :: trussFrame s l f.ty f.dst seq (payloadOctets f.args)))) s
  mapTr s (fun t => { t with seq := (seq + 1) % 2 ^ 64, dataSent := t.dataSent || f.ty == 0x13 })

/-- Sends the waiting frames that can be sent, in order; the others wait. -/
def flushOut (s : State) : State :=
  (s.tr.out).foldl (fun s f => if canSend s f then sendNow s f else mapTr s (fun t => { t with out := t.out ++ [f] })) (mapTr s (fun t => { t with out := [] }))

/-- One frame is sent, or waits behind those of its pool to the same module; a small frame that no lane can carry is not kept, and a module without a
number sends no frame with GPAs (02 R40). -/
def trSendFrame (s : State) (f : OutFrame) : State :=
  if trRole s = 0 || (0x10 ≤ f.ty && f.ty ≤ 0x13 && !getB s Fld.TR_SELF_NUMBERED) then s
  else if canSend s f && s.tr.out.all (fun g => g.dst != f.dst || poolOfType g.ty != poolOfType f.ty) then sendNow s f
  else if (poolOfType f.ty).isNone then s
  else mapTr s (fun t => { t with out := t.out ++ [f] })

/-- A Truss message: frames of at most 1,452 octets of payload in order, of which the last asks for the reply (R244, log 107); a standalone module sends
none (R241). -/
def trSend (s : State) (ty dst : Nat) (args : List Nat) : State :=
  let ps := pieces (args.length + 1) args
  let s := ps.dropLast.foldl (fun s p => trSendFrame s { ty := ty, dst := dst, args := p, more := true }) s
  trSendFrame s { ty := ty, dst := dst, args := ps.getLastD [] }

/-- Relays that wait for a module are dropped: what it gets on its return is current (R252, R253). -/
def dropData (s : State) (dst : Nat) : State := mapTr s (fun t => { t with out := t.out.filter (fun f => !(f.dst == dst && f.ty == 0x13)) })

/-- HELLO on both lanes, with a buffer reserved for its ASSIGN (R246, R250, R267). -/
def sendHello (s : State) : State :=
  let s := startTime s tmHello
  let addr (m : Nat) : List Nat := let a := macAddr s m; [leOctets (a.take 4), leOctets (a.drop 4)]
  let s := trSend s 0x01 dstAll ([getF s Fld.TR_PIN_NUMBER, trRole s, Config.fuseField 1 % 2 ^ 32] ++ addr 0 ++ addr 1)
  if s.tr.helloWait then s
  else mapTr ([0, 1].foldl (fun s l => if getF s (Fld.TR_POOL_FREE l 2) = 0 then s else reserveOn s l 2) s) (fun t => { t with helloWait := true })

/-- A CREDIT of dowels of one pool. -/
def sendCredit (s : State) (dst l p n : Nat) : State := trSend s 0x06 dst [l, p, n]

/-- Grants on both lanes, told to the peer. -/
def grantBoth (s : State) (p peer n : Nat) : State :=
  [0, 1].foldl (fun s l =>
    let r := grantDowels s l p peer n
    if r.2 = 0 then r.1 else sendCredit r.1 peer l p r.2) s

/-! ## Receiving (R246, R248, R249, R268) -/

/-- AUTH_FAIL for a failed tag, with its Note at most once per second (R249). -/
def authFail (s : State) (l : Nat) : State :=
  let s := incSatF s Fld.TR_ERR1_AUTH_FAIL
  let due := match s.tr.authAt with | none => true | some m => decide (m + 4000 ≤ s.mono)
  if due then raise (mapTr s (fun t => { t with authAt := some s.mono })) .trussAuth l else s

/-- Key derivations of the last second. -/
def recentKeys (s : State) : List Nat := s.tr.keyTimes.filter (fun m => decide (s.mono < m + 4000))

/-- The window after accepting `seq` from `lane` (R249). -/
def Peer.take (p : Peer) (seq lane : Nat) : Peer :=
  let h := max p.high seq
  let lo := h - 1024
  let old := (p.window.find? (fun w => w.1 == seq)).map (fun w => w.2)
  { p with high := h, window := ((seq, (old.getD 0) ||| 2 ^ lane) :: p.window.filter (fun w => w.1 != seq)).filter (fun w => decide (lo ≤ w.1)) }

/-- What the sequence check of R249 says of a copy. -/
inductive SeqCheck where
  | fresh | dup | replay
deriving DecidableEq, Repr

/-- R249 for a copy of `seq` on `lane`. -/
def Peer.check (p : Peer) (seq lane : Nat) : SeqCheck :=
  if seq + 1024 < p.high then .replay
  else match p.window.find? (fun w => w.1 == seq) with
    | none => .fresh
    | some w => if bitOf w.2 lane then .replay else .dup

/-- The sender's record. -/
def peerAt? (s : State) (h : TrussHdr) : Option Peer :=
  s.tr.peers.find? (fun p => p.serial == h.serial.toNat && p.session == h.session.toNat)

/-- Stores a sender's record. -/
def putPeer (s : State) (p : Peer) : State :=
  mapTr s (fun t => { t with peers := p :: t.peers.filter (fun q => !(q.serial == p.serial && q.session == p.session)) })

/-- The sender's key (R248): a new sender's is derived and kept, at most 64 in a second; false: the frame is discarded. -/
def senderKey (s : State) (h : TrussHdr) : State × Bool :=
  if (peerAt? s h).isSome then (s, true)
  else if 64 ≤ (recentKeys s).length then (incSatF s Fld.TR_ERR1_AUTH_FAIL, false)
  else (putPeer (mapTr s (fun t => { t with keyTimes := s.mono :: recentKeys s })) { serial := h.serial.toNat, session := h.session.toNat }, true)

/-- The window check of a frame whose tag passes; true: it is processed. -/
def seqAccept (s : State) (h : TrussHdr) : State × Bool :=
  let p := (peerAt? s h).getD { serial := h.serial.toNat, session := h.session.toNat }
  match p.check h.seq.toNat h.lane.val with
  | .fresh => (putPeer s (p.take h.seq.toNat h.lane.val), true)
  | .dup => (putPeer (incF s Fld.TR_ERR2_DUP) (p.take h.seq.toNat h.lane.val), false)
  | .replay => (incSatF s Fld.TR_ERR1_REPLAY, false)

/-- The next of `ws` after `last`, in the order of their numbers, beginning again at the lowest. -/
def nextRound (ws : List Nat) (last : Nat) : Option Nat :=
  let least (l : List Nat) : Option Nat := l.foldl (fun m w => match m with | some x => some (min x w) | none => some w) none
  match least (ws.filter (fun w => decide (last < w))) with
  | some w => some w
  | none => least ws

/-- One request dowel to the next of the present workers whose HEARTBEAT reports demand, when a buffer is free (R266). -/
def grantRound (s : State) (p : Nat) : State :=
  let ws := (s.tr.dir.filter (fun kd => kd.2.state == 1 && kd.2.wants.contains p)).map (fun kd => kd.1)
  if [0, 1].all (fun l => getF s (Fld.TR_POOL_FREE l p) = 0) then s
  else match nextRound ws (tabGet 0 s.tr.lastGrant p) with
    | none => s
    | some w =>
      let d := dirAt s w
      grantBoth (mapTr (setDir s w { d with wants := d.wants.filter (fun q => q != p) }) (fun t => { t with lastGrant := tabPut t.lastGrant p w })) p w 1

/-- The dowel of a received frame (R267, R268): a request uses one of the sender's and returns it when processed, a response frees its reservation; an
operator station's request takes a free buffer (Table 3, log 119). False: the frame is discarded. -/
def useDowel (s : State) (h : TrussHdr) (p : Nat) : State × Bool :=
  let l := h.lane.val
  let src := h.src.val
  let x := poolAt s l p
  if p = 2 || p = 4 then
    if x.reserved = 0 then (incSatF s Fld.TR_ERR2_NO_DOWEL, false)
    else (setF (setPool s l p { x with reserved := x.reserved - 1 }) (Fld.TR_POOL_FREE l p) (getF s (Fld.TR_POOL_FREE l p) + 1), true)
  else if src = dstStation && p = 3 then
    if getF s (Fld.TR_POOL_FREE l p) = 0 then (incSatF s Fld.TR_ERR2_NO_DOWEL, false) else (s, true)
  else if tabGet 0 x.granted src = 0 then (incSatF s Fld.TR_ERR2_NO_DOWEL, false)
  else
    let w := tabGet 0 x.withheld src
    if 0 < w || (isManager s && p ≠ 0) then
      let s := setF (setPool s l p { x with granted := tabTake x.granted src 1, withheld := tabTake x.withheld src 1 }) (Fld.TR_POOL_FREE l p)
        (getF s (Fld.TR_POOL_FREE l p) + 1)
      (if p = 0 then s else grantRound s p, true)
    else (sendCredit s src l p 1, true)

/-- Another manager is followed: the old one's dowels come back, the new one gets the worker's (Table 3). -/
def followManager (s : State) (n : Nat) : State :=
  let old := getF s Fld.TR_SELF_MANAGER
  if n = old || n = selfNumber s then s
  else
    let s := setFs (reclaimAll s old) [(Fld.TR_SELF_MANAGER, n), (Fld.TR_SELF_MGR_PRESENT, 1)]
    [0, 1, 3].foldl (fun s p => grantBoth s p n (poolBuffers 1 p)) s

/-- An active manager that hears of a higher TERM becomes standby (R254): its pools take the worker's sizes, and its coordination passes to the manager. -/
def demote (s : State) : State :=
  let s := setFs s [(Fld.TR_SELF_ACTIVE_ROLE, 3), (Fld.SCF_ESTATE_PARTICIPANTS, 0), (Fld.SCF_ESTATE_ACKED, 0), (Fld.SCF_ESTATE_DEPART_POLICY, 0),
    (Fld.SCF_ESTATE_DECIDED, 0), (Fld.SCF_ESTATE_COORD, 0)]
  let s := { s with scf := { s.scf with coord := none, unresolved := [] } }
  resizePools (mapTr s (fun t => { t with held := [], out := [], syncWait := [], dir := [] })) 3

/-- TYPEs that only the active manager sends (Table 2). -/
def fromManager (ty : Nat) : Bool := [0x02, 0x04, 0x07, 0x20, 0x22, 0x24, 0x25, 0x26, 0x38].contains ty

/-- Follows a higher TERM (R254). -/
def followTerm (s : State) (h : TrussHdr) (ty : Nat) : State :=
  if getF s Fld.TR_TERM_TERM < h.term.val then
    let s := setF s Fld.TR_TERM_TERM h.term.val
    let s := if isManager s then demote s else s
    if fromManager ty then followManager s h.src.val else s
  else s

/-- UNDELIV on every published point. -/
def pubsUndeliv (s : State) (b : Bool) : State :=
  mapTr ((dedup (s.tr.pubs.map (fun p => p.index))).foldl (fun s i => setUndeliv s i b) s) (fun t => { t with undeliv := b })

/-- The manager returned the dowel of the first DATA after the return: UNDELIV clears (R263). -/
def cycleReturned (s : State) (src p : Nat) : State :=
  if p = 0 && s.tr.undeliv && s.tr.dataSent && getB s Fld.TR_SELF_MGR_PRESENT && src = getF s Fld.TR_SELF_MANAGER then pubsUndeliv s false else s

/-- Dowels of a pool come back from a peer. -/
def dowelsBack (s : State) (l p src n : Nat) : State :=
  if n = 0 then s else cycleReturned (mapTr s (fun t => { t with held := tabAdd t.held (heldKey l p src) n })) src p

/-- What an accepted frame's header tells: the address of its sender, and dowels returned in its pool (R244, R268). -/
def headerEffect (s : State) (h : TrussHdr) (ty : Nat) : State :=
  let s := if h.sa.toNat = 0 || (511 ≤ h.src.val && h.src.val ≠ dstStation) then s else mapTr s (fun t => { t with addrs := tabPut t.addrs (h.lane.val * 1024 + h.src.val) h.sa.toNat })
  if h.dowels.val = 0 then s
  else match poolOfType ty with
    | some p => flushOut (dowelsBack s h.lane.val (if p = 2 then 1 else if p = 4 then 3 else p) h.src.val h.dowels.val)
    | none => s

/-- A small frame leaves its MAC's queue (R265). -/
def leaveSmall (s : State) (l : Nat) : State :=
  let x : MacState := tabGet {} s.macs l
  { s with macs := tabSet {} s.macs l { x with small := x.small - 1 } }

/-- Acceptance of a frame of a TYPE whose tag passes: true when it is processed. -/
def trussAccept (s : State) (h : TrussHdr) (ty : Nat) : State × Bool :=
  if trRole s = 0 then (s, false)
  else if forced s .trussAuth h.lane.val || !frameKeyOk s h.src.val h.keysel.val then (authFail s h.lane.val, false)
  else
    let k := senderKey s h
    if !k.2 then (k.1, false)
    else
      let s := k.1
      let d := match poolOfType ty with | some p => useDowel s h p | none => (leaveSmall s h.lane.val, true)
      if !d.2 then (d.1, false)
      else
        let q := seqAccept d.1 h
        if q.2 then (headerEffect (followTerm q.1 h ty) h ty, true) else (q.1, false)

/-- Runs `f` on an accepted frame. -/
def onTruss (s : State) (h : TrussHdr) (ty : Nat) (f : State → State) : State :=
  let r := trussAccept s h ty
  if r.2 then f r.1 else r.1

/-- TRUSS_BAD_FRAME: a frame that fails its tag check, or whose TYPE, POOL, session or SEQ is refused; a new sender's key is derived before its tag can
fail (R246, R248, R249). -/
def execTrussBadFrame (h : TrussHdr) (why : TrussBad) (s : State) : Host.Outcome State Fault Refusal :=
  if trRole s = 0 then done s
  else match why with
    | .tag => let k := senderKey s h; done (if k.2 then authFail k.1 h.lane.val else k.1)
    | .sequence =>
      match peerAt? s h with
      | none => done s
      | some p =>
        match p.check h.seq.toNat h.lane.val with
        | .dup => done (putPeer (incF s Fld.TR_ERR2_DUP) (p.take h.seq.toNat h.lane.val))
        | .replay => done (incSatF s Fld.TR_ERR1_REPLAY)
        | .fresh => done s
    | _ => done (incSatF s Fld.TR_ERR1_AUTH_FAIL)

/-! ## SYNC (R254) -/

/-- The standby: the present module that reports the role (R241). -/
def standbyOf (s : State) : Option Nat := (s.tr.dir.find? (fun kd => kd.2.state == 1 && kd.2.role == 3)).map (fun kd => kd.1)

/-- The manager tells the standby of a change, by kind and contents (R242, R254). -/
def syncOut (s : State) (args : List Nat) : State :=
  if !isManager s then s
  else match standbyOf s with
    | none => s
    | some n =>
      let q := s.tr.syncSeq + 1
      trSend (mapTr s (fun t => { t with syncSeq := q, syncWait := t.syncWait ++ [q] })) 0x38 n (q :: args)

/-- Octets packed into little-endian words. -/
def octetWords : Nat → List Nat → List Nat
  | 0, _ => []
  | f + 1, l => if l.isEmpty then [] else leOctets (l.take 4) :: octetWords f (l.drop 4)

/-- The octets of images in words, each image with its length. -/
def imageWords (is : List Image) : List Nat := is.flatMap (fun i => i.bytes.length :: octetWords (i.bytes.length + 1) i.bytes)

/-- What a decision record holds: the change, GO or CANCEL, T, each participant with its images. -/
def decisionArgs (change : Nat) (go : Bool) (tick : Nat) (parts : List (Nat × List Image)) : List Nat :=
  [5, change, b2n go] ++ words64 tick ++ parts.flatMap (fun p => p.1 :: p.2.length :: imageWords p.2)

/-- A standby that joins gets the epoch, the bindings, the subscriptions, the estate change on offer and the decisions not yet known to have arrived. -/
def syncAll (s : State) : State :=
  let s := syncOut s (7 :: words64 (s.tr.epoch.getD 0))
  let s := syncOut s (1 :: s.tr.bindings.flatMap (fun nb => nb.1 :: words64 nb.2))
  let s := if s.tr.subs.isEmpty then s else syncOut s (2 :: s.tr.subs.flatMap (fun r => [r.gpa, r.subscriber, r.period, r.tenant, r.ty.code]))
  let s := match s.scf.coord with | some c => syncOut s (6 :: c.id :: c.parts.map (fun p => p.module_)) | none => s
  (dedup (s.scf.unresolved.map (fun u => u.change))).foldl (fun s c =>
    let us := s.scf.unresolved.filter (fun u => u.change == c)
    match us with
    | u :: _ => syncOut s (decisionArgs c u.go u.tick (us.map (fun u => (u.module_, u.images))))
    | [] => s) s

/-- TR_SELF.SYNCED. -/
def synced (s : State) : Bool :=
  activeRole s == 3 && match s.tr.lastSyncAck with | some m => decide (s.mono ≤ m + 4000) | none => false

/-- A subscription as the directory holds it. -/
def subRec (e : SubEntry) (subscriber : Nat) : SubRec :=
  { gpa := e.gpa, subscriber := subscriber, period := e.period, tenant := e.tenant, ty := e.ty }

/-- A list of subscriptions takes one; one that is renewed replaces the old. -/
def putSub (l : List SubRec) (e : SubEntry) (subscriber : Nat) : List SubRec :=
  l.filter (fun r => !(r.gpa == e.gpa && r.subscriber == subscriber)) ++ [subRec e subscriber]

/-- R40: a GPA with module number 511 in a Truss frame is discarded with a Note. -/
def noteSelfGpas (s : State) (gs : List Nat) : State := gs.foldl (fun s g => if gpaModule g = 511 then raise s .trussSelfGpa else s) s

/-- The standby's copies take the deltas of a SYNC (R254). -/
def applySync (t : TrState) (b : SyncBody) : TrState :=
  let bound := b.bindings.foldl (fun x nb => tabPut x nb.1.val nb.2.toNat) t.bindings
  let subs := (b.subs.filter (fun e => gpaModule e.1.gpa != 511)).foldl (fun l e => putSub l e.1 e.2.val) t.subs
  { t with bindings := b.unbound.foldl (fun x n => tabDel x n.val) bound,
           subs := subs.filter (fun r => !b.unsubs.any (fun u => u.1 == r.gpa && u.2.val == r.subscriber)
                     && !b.unbound.any (fun n => n.val == r.subscriber || n.val == gpaModule r.gpa)),
           epoch := b.epoch.or t.epoch, syncSeq := max t.syncSeq b.seq }

/-- The changes on offer and the decisions that the standby has recorded. -/
def applyDecisions (f : ScarfState) (b : SyncBody) : ScarfState :=
  let offers := f.offers ++ b.offers.map (fun o => (o.1.toNat, o.2.map (fun n => n.val)))
  { f with offers := offers.filter (fun o => !b.decisions.any (fun d => d.change.toNat == o.1)),
           decisions := f.decisions.filter (fun d => !b.decisions.any (fun e => e.change == d.change)) ++ b.decisions }

/-- SYNC: the standby applies the deltas and answers (R254). -/
def syncEffect (s : State) (h : TrussHdr) (b : SyncBody) : State :=
  if activeRole s ≠ 3 then s
  else
    let s := noteSelfGpas s (b.subs.map (fun e => e.1.gpa) ++ b.unsubs.map (fun u => u.1))
    let s := mapTr s (fun t => { applySync t b with lastSyncAck := some s.mono })
    trSend { s with scf := applyDecisions s.scf b } 0x39 h.src.val [b.seq]

/-- SYNC_ACK: the change is recorded (R254). -/
def syncAckEffect (s : State) (seq : Nat) : State :=
  mapTr s (fun t => { t with syncWait := t.syncWait.filter (fun n => decide (seq < n)), lastSyncAck := some s.mono })

/-! ## Directory figures (R262, R266, R272) -/

/-- TR_DIRCNT and TR_DIRSUBS. -/
def updDir (s : State) : State :=
  setFs s [(Fld.TR_DIRCNT_MODULES, (presentModules s).length + (if isManager s then 1 else 0)),
    (Fld.TR_DIRCNT_ABSENT, (s.tr.dir.filter (fun kd => kd.2.state == 2 || kd.2.state == 3)).length), (Fld.TR_DIRSUBS_SUBS, s.tr.subs.length)]

/-- ⌈512 F / N⌉. -/
def loadTerm (f n : Nat) : Nat := (512 * f + max n 1 - 1) / max n 1

/-- ⌈n / 180⌉. -/
def framesFor (n : Nat) : Nat := (n + 179) / 180

/-- Publication load of a module: over its periods, ⌈512 ⌈E / 180⌉ / N⌉ (R262). -/
def pubLoad (subs : List SubRec) (m : Nat) : Nat :=
  let mine := subs.filter (fun r => gpaModule r.gpa == m)
  (dedup (mine.map (fun r => r.period))).foldl (fun n p =>
    n + loadTerm (framesFor (dedup ((mine.filter (fun r => r.period == p)).map (fun r => r.gpa))).length) p) 0

/-- Delivery load of a module: over its periods and publishers. -/
def delLoad (subs : List SubRec) (m : Nat) : Nat :=
  let mine := subs.filter (fun r => r.subscriber == m)
  (dedup (mine.map (fun r => r.period))).foldl (fun n p =>
    let at_ := mine.filter (fun r => r.period == p)
    n + loadTerm ((dedup (at_.map (fun r => gpaModule r.gpa))).foldl (fun f q => f + framesFor (at_.filter (fun r => gpaModule r.gpa == q)).length) 0) p) 0

/-- Subscriptions that make a backbone hop, at publishers and at subscribers other than the manager `me`. -/
def workerModules (subs : List SubRec) (me : Nat) : List Nat :=
  (dedup (subs.map (fun r => gpaModule r.gpa) ++ subs.map (fun r => r.subscriber))).filter (fun m => m != me)

/-- The manager's sums of R262: ingress, egress. -/
def loadSums (subs : List SubRec) (me : Nat) : Nat × Nat :=
  (((workerModules subs me).map (pubLoad subs)).foldl (fun a b => a + b) 0, ((workerModules subs me).map (delLoad subs)).foldl (fun a b => a + b) 0)

/-- A subscription keeps every load of R262 within 46,080. -/
def loadsOk (subs : List SubRec) (me : Nat) : Bool :=
  let l := loadSums subs me
  decide (l.1 ≤ 46080) && decide (l.2 ≤ 46080) && (workerModules subs me).all (fun m => decide (pubLoad subs m ≤ 46080))

/-- The Cycle allotment of a present worker (R266). -/
def cycleShare (w lw l : Nat) : Nat := 1 + (if l = 0 then 0 else (576 - w) * lw / l)

/-- Cycle allotments follow the present workers and their loads: more is granted, what must come back is withheld until it is returned (R266). -/
def reallot (s : State) : State :=
  if !isManager s then s
  else
    let ws := presentModules s
    let loads := ws.map (pubLoad s.tr.subs)
    let total := loads.foldl (fun a b => a + b) 0
    let s := setFs s [(Fld.TR_LOAD_INGRESS, satAt 0xFFFF (loadSums s.tr.subs (selfNumber s)).1), (Fld.TR_LOAD2_MGR_EGRESS, satAt 0xFFFF (loadSums s.tr.subs (selfNumber s)).2)]
    (ws.zip loads).foldl (fun s wl =>
      let want := cycleShare ws.length wl.2 total
      [0, 1].foldl (fun s l =>
        let x := poolAt s l 0
        let have_ := tabGet 0 x.granted wl.1
        if have_ ≤ want then
          let r := grantDowels (setPool s l 0 { x with withheld := tabDel x.withheld wl.1 }) l 0 wl.1 (want - have_)
          if r.2 = 0 then r.1 else sendCredit r.1 wl.1 l 0 r.2
        else setPool s l 0 { x with withheld := tabSet 0 x.withheld wl.1 (have_ - want) }) s) s

/-- TR_SUBS and TR_LOAD.EGRESS of this module. -/
def updPubs (s : State) : State :=
  let proxies := (s.pt.recs.filter (fun kr => kr.2.proxy && kr.2.defined)).length
  let subs := s.tr.pubs.map (fun p => { gpa := selfNumber s * 65536 + p.index, subscriber := 0, period := p.period : SubRec })
  setFs s [(Fld.TR_SUBS_PUBLISHED, (dedup (s.tr.pubs.map (fun p => p.index))).length), (Fld.TR_SUBS_PROXIES, proxies),
    (Fld.TR_LOAD_EGRESS, satAt 0xFFFF (pubLoad subs (selfNumber s)))]

/-! ## Roles taken (R241, R243, R255) -/

/-- A bound module as a new manager knows it: one bound to NAND alone is departed until it is heard, one of a manager taken over is present. -/
def boundEnt (d : DirEnt) (serial st now : Nat) : DirEnt :=
  { d with serial := serial, state := if d.state = 0 then st else d.state, lastHb := if d.state = 0 && st = 1 then some now else d.lastHb }

/-- The module's own serial. -/
def ownSerial (s : State) : Nat := getF s Fld.TR_SER_LO_SERIAL + 2 ^ 32 * getF s Fld.TR_SER_HI_SERIAL

/-- The active manager: its number, the estate epoch set once from PTP time, its pools. A number bound to another serial stays bound (R243). -/
def becomeManager (s : State) (term : Nat) : State :=
  let pin := getF s Fld.TR_PIN_NUMBER
  let n := if getB s Fld.TR_SELF_NUMBERED then selfNumber s else if pin = 0x1FF then 0 else pin
  let ep := s.tr.epoch.getD s.tc.sec
  let st := if s.tr.takeover then 1 else 2
  let s := setFs s [(Fld.TR_SELF_NUMBER, n), (Fld.TR_SELF_NUMBERED, 1), (Fld.TR_SELF_ACTIVE_ROLE, 2), (Fld.TR_SELF_MANAGER, n), (Fld.TR_SELF_MGR_PRESENT, 1),
    (Fld.TR_TERM_TERM, term), (Fld.TR_EPOCH_LO_SECONDS_LO, bitsOf ep 0 32), (Fld.TR_EPOCH_HI_SECONDS_HI, bitsOf ep 32 16)]
  let d := s.tr.bindings.filterMap (fun nb => if nb.1 = n then none else some (nb.1, boundEnt (tabGet {} s.tr.dir nb.1) nb.2 st s.mono))
  let bs := if (tabGet? s.tr.bindings n).isSome then s.tr.bindings else tabPut s.tr.bindings n (ownSerial s)
  updDir (resizePools (mapTr s (fun t => { t with epoch := some ep, bindings := bs, takeover := false, dir := d, held := [] })) 2)

/-- A module that must look for its manager (R250). -/
def seeksManager (s : State) : Bool :=
  (trRole s = 1 || trRole s = 3) && !isManager s && !s.tr.left && (!getB s Fld.TR_SELF_NUMBERED || !getB s Fld.TR_SELF_MGR_PRESENT)

/-- TR_CFG.ROLE has been committed: the module takes its role. A standalone module keeps its grid on the TCXO alone and nothing to send (R241); a worker or
standby that has no manager sends HELLO at once (R250). -/
def takeRole (s : State) : State :=
  match trRole s with
  | 0 =>
    mapTr (updBb (setFs s [(Fld.TR_SELF_ACTIVE_ROLE, 0), (Fld.TR_SELF_NUMBERED, 0), (Fld.TR_SELF_NUMBER, 0x1FF), (Fld.TR_SELF_MGR_PRESENT, 0),
      (Fld.LE_GSTAT_STEERED, 0)])) (fun t => { t with out := [], helloWait := false })
  | 2 => if isManager s then s else becomeManager s (getF s Fld.TR_TERM_TERM)
  | r =>
    let role := if r = 1 then 1 else 3
    if activeRole s = role then s
    else
      let s := if isManager s then setF s Fld.TR_SELF_MGR_PRESENT 0 else s
      let s := resizePools (setF s Fld.TR_SELF_ACTIVE_ROLE role) role
      if seeksManager s then sendHello s else s

/-! ## Own subscriptions (R258, R259) -/

/-- Remote GPAs that admitted tasks import, each with its smallest period, the tenant of a task that imports it, and its TYPE. -/
def ownSubs (s : State) : List SubEntry :=
  let all := s.tasks.flatMap (fun kt => (kt.2.dfn.imports.filter (fun im =>
    gpaModule im.1 != 511 && !(getB s Fld.TR_SELF_NUMBERED && gpaModule im.1 == selfNumber s))).map (fun im =>
      { gpa := im.1, period := kt.2.dfn.period, tenant := kt.2.dfn.tenant, ty := im.2 : SubEntry }))
  (dedup (all.map (fun e => e.gpa))).filterMap (fun g =>
    let mine := all.filter (fun e => e.gpa == g)
    (mine.head?).map (fun e => { e with period := mine.foldl (fun p x => min p x.period) e.period }))

/-- Arguments of a SUB frame: entries with their query bit. -/
def subArgs (query : Bool) (es : List SubEntry) : List Nat := b2n query :: es.flatMap (fun e => [e.gpa, e.period, e.tenant, e.ty.code])

/-- A published point as an entry of a SUB frame. -/
def pubEntry (s : State) (p : Pub) : SubEntry :=
  { gpa := selfNumber s * 65536 + p.index, period := p.period, tenant := (ptAt s p.index).tenant, ty := (ptAt s p.index).ty }

/-- Sends the module's subscriptions and publications to the manager (R250). -/
def sendSubs (s : State) : State :=
  let es := ownSubs s ++ s.tr.pubs.map (pubEntry s)
  if es.isEmpty then s else trSend s 0x10 (getF s Fld.TR_SELF_MANAGER) (subArgs false es)

/-- The publications that the directory holds of a module resume: the manager sends it their SUB again (R253). -/
def resumePubs (s : State) (m : Nat) : State :=
  let es := (dedup ((s.tr.subs.filter (fun r => gpaModule r.gpa == m)).map (fun r => (r.gpa, r.period)))).filterMap (fun gp =>
    (s.tr.subs.find? (fun r => r.gpa == gp.1 && r.period == gp.2)).map (fun r => { gpa := r.gpa, period := r.period, tenant := r.tenant, ty := r.ty : SubEntry }))
  if es.isEmpty then s else trSend s 0x10 m (subArgs false es)

/-! ## HELLO, ASSIGN (R243, R250, R253) -/

/-- The number a serial gets: its bound one, its pin when free, the lowest free; none: all 511 are bound. -/
def numberFor (bs : Tab Nat) (serial pin : Nat) : Option Nat :=
  match bs.find? (fun nb => nb.2 == serial) with
  | some nb => some nb.1
  | none =>
    if pin ≠ 511 && (tabGet? bs pin).isNone then some pin
    else (List.range 511).find? (fun n => (tabGet? bs n).isNone)

/-- HELLO at the manager: number, directory entry, ASSIGN; a module that was present has restarted. -/
def helloEffect (s : State) (h : TrussHdr) (pin role firmware bb0 bb1 : Nat) : State :=
  if !isManager s then s
  else match numberFor (tabPut s.tr.bindings (selfNumber s) (ownSerial s)) h.serial.toNat pin with
    | none => incSatF s Fld.TR_ERR3_SMALL_DROP
    | some n =>
      let fresh := (tabGet? s.tr.bindings n).isNone
      let s := mapTr s (fun t => { t with bindings := tabPut t.bindings n h.serial.toNat, addrs := tabPut (tabPut t.addrs n bb0) (1024 + n) bb1 })
      let s := dropData (setDir s n { dirAt s n with serial := h.serial.toNat, state := 1, lastHb := some s.mono, role := role, firmware := firmware }) n
      let s := if fresh then syncOut s (1 :: n :: words64 h.serial.toNat) else s
      let s := trSend s 0x02 n (n :: getF s Fld.TR_TERM_TERM :: words64 (s.tr.epoch.getD 0))
      let s := resumePubs (reallot (updDir s)) n
      if role = 3 then syncAll s else s

/-- HELLO_TIMER, 1 s after the last HELLO. -/
def execHelloTimer (s : State) : Host.Outcome State Fault Refusal :=
  if seeksManager s && timeRan s tmHello (1000 * msCycles) then done (sendHello s) else done s

/-- The epoch is learnt. -/
def learnEpoch (s : State) (e : Nat) : State :=
  mapTr (setFs s [(Fld.TR_EPOCH_LO_SECONDS_LO, bitsOf e 0 32), (Fld.TR_EPOCH_HI_SECONDS_HI, bitsOf e 32 16)]) (fun t => { t with epoch := some e })

/-- ASSIGN at a worker or standby: number, TERM, epoch; the manager gets the worker's dowels (Table 3), and the subscriptions. -/
def assignEffect (s : State) (h : TrussHdr) (n e : Nat) : State :=
  if isManager s || h.term.val < getF s Fld.TR_TERM_TERM then s
  else
    let s := setFs s [(Fld.TR_SELF_NUMBER, n), (Fld.TR_SELF_NUMBERED, 1), (Fld.TR_SELF_MANAGER, h.src.val), (Fld.TR_SELF_MGR_PRESENT, 1),
      (Fld.TR_TERM_TERM, h.term.val)]
    let s := learnEpoch s e
    let s := mapTr s (fun t => { t with lastMark := some s.mono, helloWait := false, left := false, held := [], dataSent := false })
    let s := reclaimAll (dropData s h.src.val) h.src.val
    let s := [0, 1, 3].foldl (fun s p => grantBoth s p h.src.val (poolBuffers 1 p)) s
    sendSubs s

/-- ASSIGN. -/
def execAssign (h : TrussHdr) (number : Fin 512) (epoch : Fin 281474976710656) (s : State) : Host.Outcome State Fault Refusal :=
  done (onTruss s h 0x02 (fun s => assignEffect s h number.val epoch.val))

/-! ## HEARTBEAT (R251, R252, R266) -/

/-- HEARTBEAT at the manager: the directory entry of a present worker, and dowels for the demand it reports. -/
def heartbeatEffect (s : State) (h : TrussHdr) (mode sev : Nat) (steered : Bool) (scf : Nat) (dc dm : Bool) : State :=
  let n := h.src.val
  let e := dirAt s n
  if !isManager s || e.state ≠ 1 then s
  else
    let s := setDir s n { e with mode := mode, severity := sev, steered := steered, scf := scf, lanes := e.lanes ||| 2 ^ h.lane.val, lastHb := some s.mono,
                                 wants := (if dc then [1] else []) ++ (if dm then [3] else []) }
    grantRound (grantRound s 1) 3

/-! ## Departure and loss (R252, R263) -/

/-- WQ ABSENT into every proxy that satisfies `p`. -/
def proxiesAbsent (s : State) (p : PtRec → Bool) : State :=
  (s.pt.recs.filter (fun kr => kr.2.proxy && kr.2.defined && p kr.2)).foldl (fun s kr => writerQuality s .truss kr.2.writerId kr.1 .absent) s

/-- The proxies of a publisher turn ABSENT. -/
def publisherGone (s : State) (m : Nat) : State := proxiesAbsent s (fun r => gpaModule r.remoteGpa == m)

/-- The manager declares a module departed (2) or left (3). -/
def declareGone (s : State) (n st : Nat) : State :=
  let e := dirAt s n
  if !isManager s || e.state ≠ 1 then s
  else
    let s := setDir s n { e with state := st, lanes := 0 }
    let s := trSend s 0x05 dstAll [n, if st = 2 then 0 else 1]
    reallot (updDir (publisherGone (mapTr (reclaimAll s n) (fun t => { t with out := t.out.filter (fun f => f.dst != n) })) n))

/-- DEPART received. -/
def departEffect (s : State) (n : Nat) (cause : Nat) : State :=
  if isManager s then declareGone s n 3
  else
    let s := publisherGone s n
    if cause = 2 && getB s Fld.TR_SELF_NUMBERED && n = selfNumber s then
      mapTr (setFs s [(Fld.TR_SELF_NUMBERED, 0), (Fld.TR_SELF_NUMBER, 0x1FF)]) (fun t => { t with out := [] })
    else s

/-- Sends DEPART with cause 1, when the module is present (R252). -/
def sendLeave (s : State) : State :=
  if getB s Fld.TR_SELF_NUMBERED && (activeRole s = 1 || activeRole s = 3) then trSend s 0x05 dstAll [selfNumber s, 1] else s

/-- A worker declares its manager lost (R263). -/
def managerLost (s : State) : State :=
  if !(activeRole s = 1 || activeRole s = 3) || !getB s Fld.TR_SELF_MGR_PRESENT then s
  else
    let s := setF s Fld.TR_SELF_MGR_PRESENT 0
    let s := mapTr (dropData s (getF s Fld.TR_SELF_MANAGER)) (fun t => { t with dataSent := false })
    sendHello (pubsUndeliv (proxiesAbsent s (fun _ => true)) true)

/-- Grid ticks of `n` heartbeat periods of 100 ms, for each of TR_CFG.DEPART (R251, R252). -/
def departTicks (s : State) (n : Nat) : Nat := n * getF s Fld.TR_CFG_DEPART * 400

/-- No valid MARK for `n` grid ticks. -/
def noMarkFor (s : State) (n : Nat) : Bool := match s.tr.lastMark with | some m => decide (m + n ≤ s.mono) | none => true

/-- MANAGER_LOST: no valid MARK on either lane for the departure time (R252). -/
def execManagerLost (s : State) : Host.Outcome State Fault Refusal := done (if noMarkFor s (departTicks s 1) then managerLost s else s)

/-- CREDIT: dowels returned to this module, by pool; waiting frames may go. -/
def creditEffect (s : State) (h : TrussHdr) (ds : List Nat) : State :=
  flushOut ((ds.zip [0, 1, 2, 3, 4]).foldl (fun s np => dowelsBack s h.lane.val np.2 h.src.val np.1) s)

/-- CREDIT. -/
def execCredit (h : TrussHdr) (dowels : List Nat) (s : State) : Host.Outcome State Fault Refusal := done (onTruss s h 0x06 (fun s => creditEffect s h dowels))

/-! ## Marks and the grid (R111, R255 to R257) -/

/-- PTP time of the estate's tick 0 to now, in ns. -/
def estateNs (s : State) (epoch : Nat) : Nat := (s.tc.sec - epoch) * 1000000000 + s.tc.ns

/-- Grid minus PTP time in ns. -/
def phaseErr (s : State) (epoch : Nat) : Int := (s.tick * 250000 + s.fc * 4 : Nat) - (estateNs s epoch : Int)

/-- First tick at or after `k` that a period divides, moved on by one period when it would fall less than ⌊n/2⌋ after a release `age` ticks ago. -/
def nextConforming (k n age : Nat) : Nat :=
  let m := max n 1
  let c := (k + m - 1) / m * m
  if c - k + age < m / 2 then c + m else c

/-- A task's next release, and the deadline of its cycle, after a step whose first tick is `k`, `d` grid ticks from now (R111, R115). -/
def stepTask (s : State) (k d : Nat) (t : Task) : Task :=
  let r := nextConforming k t.dfn.period (if t.ran then s.mono + d - t.relMono else t.dfn.period)
  { t with minRel := r, deadline := s.mono + d + (r - k), stepped := true }

/-- Truss steps the tick number and phase (R111): next releases and sample instants move; a release takes place at once where the step leads to the
very instant of a tick. -/
def stepGrid (s : State) (k fc : Nat) : State :=
  let d := if fc = 0 then 0 else 1
  let s := { s with tick := k % tickMod, fc := fc, tasks := s.tasks.map (fun kt => (kt.1, stepTask s (k + d) d kt.2)) }
  let s := incSatF (loopsStepped s) Fld.LE_GSTAT_STEPS
  if fc ≠ 0 then s else releaseKeys s ((s.tasks.filter (fun kt => kt.2.phase == .idle)).map (fun kt => kt.1))

/-- Steering (R256, R257): with the epoch, a locked PTP clock and the grid within ±10 µs STEERED becomes 1; further off, the grid is stepped first. A
grid that is steered already is steered by rate alone. -/
def steer (s : State) : State :=
  match s.tr.epoch with
  | none => s
  | some e =>
    if getB s Fld.LE_GSTAT_STEERED || !getB s Fld.NE_PTP_STAT_LOCKED || s.tc.sec < e then s
    else
      let s := if (phaseErr s e).natAbs ≤ 10000 then s else stepGrid s (estateNs s e / 250000) (estateNs s e % 250000 / 4)
      gapSteered (setF s Fld.LE_GSTAT_STEERED 1)

/-- Steering is lost (R257). -/
def unsteer (s : State) : State := setF s Fld.LE_GSTAT_STEERED 0

/-- A signed value saturated to 16 bits, as the field holds it. -/
def sat16 (v : Int) : Nat := (BitVec.ofInt 16 (clampQ (-32768) 32767 v)).toNat

/-- A rate correction toward PTP time: against the phase error, within ±50 ppm; of a size that no rule fixes while the error is within ±10 µs, and the
whole 50 ppm beyond (R256; log 102). -/
def rateFor (err : Int) (v : Nat) : Int :=
  let m : Int := if err.natAbs ≤ 10000 then (v % 5001 : Nat) else 5000
  if 0 < err then -m else if err < 0 then m else 0

/-- TR_STEER at a tick of a steered grid: the phase error and the rate correction; a grid whose PTP clock is not locked is no longer steered, and the
active manager, which gets no marks, steers its own grid (R256, R257). -/
def steerTick (s : State) : State :=
  let s := if !getB s Fld.NE_PTP_STAT_LOCKED then unsteer s else if isManager s then steer s else s
  match s.tr.epoch with
  | none => s
  | some e =>
    if !getB s Fld.LE_GSTAT_STEERED then s
    else
      let (v, s) := freshFree s
      setFs s [(Fld.TR_STEER_PHASE_ERR, sat16 (phaseErr s e)), (Fld.TR_STEER_RATE, sat16 (rateFor (phaseErr s e) v))]

/-- MARK at a worker or standby. -/
def markEffect (s : State) (h : TrussHdr) (k epoch : Nat) : State :=
  if isManager s || h.term.val < getF s Fld.TR_TERM_TERM then s
  else
    let s := incF (mapTr s (fun t => { t with lastMark := some s.mono })) Fld.TR_MARKS_RECEIVED
    let s := if s.tr.epoch.isSome then s else learnEpoch s epoch
    let d := if s.tick ≤ k then k - s.tick else s.tick - k
    steer (if 1 < d then unsteer s else s)

/-- MARK. -/
def execMark (h : TrussHdr) (tick : Fin 281474976710656) (epoch : Fin 281474976710656) (s : State) : Host.Outcome State Fault Refusal :=
  done (onTruss s h 0x04 (fun s => markEffect s h tick.val epoch.val))

/-- MARK_TIMEOUT: no valid MARK for the mark allowance, twice the departure time and 10 s (R257). -/
def execMarkTimeout (s : State) : Host.Outcome State Fault Refusal :=
  done (if isManager s || !noMarkFor s (departTicks s 2 + 40000) then s else unsteer s)

/-- TAKEOVER: every module follows the highest TERM (R254). -/
def execTakeover (h : TrussHdr) (s : State) : Host.Outcome State Fault Refusal :=
  done (onTruss s h 0x07 (fun s => if getF s Fld.TR_TERM_TERM ≤ h.term.val then setF s Fld.TR_SELF_MANAGER h.src.val else s))

/-- The standby takes over (R254). -/
def takeoverEffect (s : State) (handover : Bool) : State :=
  let ok := match s.tr.lastSyncAck with
    | none => false
    | some m => handover && decide (s.mono ≤ m + 4000) || (noMarkFor s (departTicks s 2) && decide ((s.tr.lastMark.getD s.mono) ≤ m + 4000))
  if activeRole s ≠ 3 || !ok then s
  else
    let s := setF s Fld.TR_TERM_TERM (getF s Fld.TR_TERM_TERM + 1)
    mapTr (trSend s 0x07 dstAll [getF s Fld.TR_TERM_TERM]) (fun t => { t with takeover := true })

/-! ## Subscriptions (R40, R258, R262) -/

/-- The grants and records by which an import is judged: a query sees them as the estate change in hand will leave them (05 R145). -/
def judgeState (s : State) (query : Bool) : State :=
  match s.scf.view with
  | some (rs, recs) => if query then { s with regs := rs, pt := { s.pt with recs := recs } } else s
  | none => s

/-- The holding module's judgement of an import: 0 accepted, else the reason of TR_REFUSE; one that would publish more than 16,384 points is refused as for
want of room (R258, R259, log 108). -/
def judgeImport (s : State) (e : SubEntry) : Nat :=
  let i := e.gpa % 65536
  let r := ptAt s i
  if !r.defined then 1 else if r.ty ≠ e.ty then 2 else if !holdsRight s e.tenant i rightRead then 3 else if e.period < 4 then 4
  else if 16384 < (dedup (i :: s.tr.pubs.map (fun p => p.index))).length then 5 else 0

/-- The manager's judgement of an accepted import, with the subscription in the place of one that it renews: room, then loads. -/
def judgeRoom (s : State) (e : SubEntry) (requester : Nat) : Nat :=
  let subs := putSub s.tr.subs e requester
  if 262144 < subs.length then 5 else if loadsOk subs (selfNumber s) then 0 else 6

/-- This module publishes a point at a period. -/
def addPub (s : State) (i n : Nat) : State :=
  updPubs (mapTr s (fun t => { t with pubs := if t.pubs.contains { index := i, period := n } then t.pubs else t.pubs ++ [{ index := i, period := n }] }))

/-- The periods at which a point is subscribed have changed: its publisher drops the others (R259, R260). -/
def tellPub (s : State) (g : Nat) : State :=
  let mine := s.tr.subs.filter (fun r => r.gpa == g)
  let m := gpaModule g
  if m = selfNumber s then
    updPubs (mapTr s (fun t => { t with pubs := t.pubs.filter (fun p => p.index != g % 65536)
                                          ++ (dedup (mine.map (fun r => r.period))).map (fun n => { index := g % 65536, period := n }) }))
  else if (dirAt s m).state = 1 then
    let es := (dedup (mine.map (fun r => r.period))).filterMap (fun n =>
      (mine.find? (fun r => r.period == n)).map (fun r => { gpa := g, period := n, tenant := r.tenant, ty := r.ty : SubEntry }))
    let s := trSend s 0x12 m [g]
    if es.isEmpty then s else trSend s 0x10 m (subArgs false es)
  else s

/-- A subscription goes; true: nobody subscribes its point at its period any more. -/
def lastAtPeriod (old new : List SubRec) (g subscriber : Nat) : Bool :=
  old.any (fun r => r.gpa == g && r.subscriber == subscriber && !new.any (fun q => q.gpa == g && q.period == r.period))

/-- The directory takes a subscription; one that is renewed replaces the old period. -/
def addSub (s : State) (e : SubEntry) (requester : Nat) : State :=
  let old := s.tr.subs
  let s := mapTr s (fun t => { t with subs := putSub t.subs e requester })
  let s := reallot (updDir (syncOut s [2, e.gpa, requester, e.period, e.tenant, e.ty.code]))
  if lastAtPeriod old s.tr.subs e.gpa requester then tellPub s e.gpa else s

/-- Records a refusal (R258). -/
def refuse (s : State) (g why : Nat) : State := setFs s [(Fld.TR_REFUSE_REASON, why), (Fld.TR_REFUSE_GPA, g)]

/-- The importing module takes the result of one entry; with an acceptance comes the point's TENANT (02 R41). -/
def takeResult (s : State) (query : Bool) (e : SubEntry) (why owner : Nat) : State :=
  let s := if why = 0 then mapTr s (fun t => { t with tenants := tabPut t.tenants e.gpa owner }) else refuse s e.gpa why
  if query then mapTr s (fun t => { t with asked := t.asked.erase e, answers := t.answers.filter (fun a => a.1 != e) ++ [(e, why)] }) else s

/-- Answers a requester: this module itself, or another. -/
def answerSub (s : State) (dst : Nat) (query : Bool) (e : SubEntry) (why owner : Nat) : State :=
  if dst = selfNumber s then takeResult s query e why owner else trSend s 0x11 dst [b2n query, e.gpa, e.period, e.tenant, why, owner]

/-- The manager settles an entry that its holding module accepted or refused; a publication that came of an entry it refuses itself ends. -/
def settleSub (s : State) (requester : Nat) (query : Bool) (e : SubEntry) (why owner : Nat) : State :=
  let w := if why = 0 then judgeRoom s e requester else why
  let s := if query || why ≠ 0 then s else if w = 0 then addSub s e requester else tellPub s e.gpa
  answerSub s requester query e w owner

/-- This module judges an import of a point that it holds; accepted for good, it publishes the point. -/
def judgeHere (s : State) (query : Bool) (e : SubEntry) : State × Nat × Nat :=
  let v := judgeState s query
  let why := judgeImport v e
  (if why = 0 && !query then addPub s (e.gpa % 65536) e.period else s, why, (ptAt v (e.gpa % 65536)).tenant)

/-- A worker tells the manager of a point that it publishes (R250). -/
def notePub (s : State) (e : SubEntry) : State :=
  mapTr s (fun t => { t with published := if t.published.contains (e.gpa, e.period) then t.published else t.published ++ [(e.gpa, e.period)] })

/-- One entry of a SUB at the manager or the holding module. -/
def subEntryEffect (s : State) (requester : Nat) (query : Bool) (e : SubEntry) : State :=
  let holder := gpaModule e.gpa
  if isManager s then
    if holder = selfNumber s then
      let r := judgeHere s query e
      settleSub r.1 requester query e r.2.1 r.2.2
    else if holder = requester then notePub s e
    else if (dirAt s holder).state = 1 then
      mapTr (trSend s 0x10 holder (subArgs query [e])) (fun t => { t with fwd := t.fwd ++ [{ entry := e, requester := requester, query := query }] })
    else answerSub s requester query e 7 0
  else
    let r := judgeHere s query e
    answerSub r.1 requester query e r.2.1 r.2.2

/-- SUB_REQUEST. -/
def execSubRequest (h : TrussHdr) (query : Bool) (entries : List SubEntry) (s : State) : Host.Outcome State Fault Refusal :=
  done (onTruss s h 0x10 (fun s =>
    entries.foldl (fun s e => if gpaModule e.gpa = 511 then raise s .trussSelfGpa else subEntryEffect s h.src.val query e) s))

/-- SUB_RSP at the manager (from a holding module) or at the importing module. -/
def subRspEffect (s : State) (query : Bool) (e : SubEntry) (why owner : Nat) : State :=
  if gpaModule e.gpa = 511 then raise s .trussSelfGpa
  else if isManager s then
    match s.tr.fwd.find? (fun f => f.entry == e && f.query == query) with
    | none => s
    | some f => settleSub (mapTr s (fun t => { t with fwd := t.fwd.erase f })) f.requester query e why owner
  else takeResult s query e why owner

/-- SUB_RSP. -/
def execSubRsp (h : TrussHdr) (query : Bool) (results : List (SubEntry × Fin 8 × Fin 4096)) (s : State) : Host.Outcome State Fault Refusal :=
  done (onTruss s h 0x11 (fun s => results.foldl (fun s r => subRspEffect s query r.1 r.2.1.val r.2.2.val) s))

/-- UNSUB of one GPA: the directory and the publisher forget it. -/
def unsubEffect (s : State) (src g : Nat) : State :=
  if isManager s then
    let old := s.tr.subs
    let s := mapTr s (fun t => { t with subs := t.subs.filter (fun r => !(r.gpa == g && r.subscriber == src)) })
    let s := if lastAtPeriod old s.tr.subs g src then tellPub s g else s
    reallot (updDir (syncOut s [3, g, src]))
  else updPubs (mapTr s (fun t => { t with pubs := t.pubs.filter (fun p => p.index != g % 65536) }))

/-- UNSUB. -/
def execUnsub (h : TrussHdr) (gpas : List Nat) (s : State) : Host.Outcome State Fault Refusal :=
  done (onTruss s h 0x12 (fun s =>
    (gpas.filter (fun g => gpaModule g != 511)).foldl (fun s g => unsubEffect s h.src.val g) (noteSelfGpas s gpas)))

/-- Asks for the imports that a change's verification needs (R258): the manager itself judges, or is asked; no manager: reason 7. -/
def askImport (s : State) (e : SubEntry) : State :=
  let s := if s.tr.asked.isEmpty then startTime s tmQuery else s
  if isManager s then subEntryEffect (mapTr s (fun t => { t with asked := t.asked ++ [e] })) (selfNumber s) true e
  else if getB s Fld.TR_SELF_MGR_PRESENT && getB s Fld.TR_SELF_NUMBERED then
    trSend (mapTr s (fun t => { t with asked := t.asked ++ [e] })) 0x10 (getF s Fld.TR_SELF_MANAGER) (subArgs true [e])
  else takeResult s true e 7 0

/-- SUB_QUERY_TIMEOUT, 2 s after the query: what was asked and not answered is refused with reason 7. -/
def execSubQueryTimeout (s : State) : Host.Outcome State Fault Refusal :=
  if !timeRan s tmQuery (2000 * msCycles) then done s else done (s.tr.asked.foldl (fun s e => takeResult s true e 7 0) s)

/-! ## Relays (R260, R261, R263, R264) -/

/-- WQ that a relayed quality gives a proxy; none: the entry is left out. -/
def relayWq : Quality → Option Wq
  | .good => some .good | .forced => some .good | .fault => some .fault | .absent => some .absent | .uncalibrated => some .uncalibrated | .stale => none

/-- The proxy of a remote GPA. -/
def proxyOf? (s : State) (g : Nat) : Option Nat := (s.pt.recs.find? (fun kr => kr.2.proxy && kr.2.defined && kr.2.remoteGpa == g)).map (fun kr => kr.1)

/-- Relay tick `k` is later than `l`, modulo 2^32. -/
def laterTick (k l : Nat) : Bool := let d := (k + 2 ^ 32 - l % 2 ^ 32) % 2 ^ 32; decide (0 < d) && decide (d < 2 ^ 31)

/-- One entry written into its proxy: VALUE and WQ as the entry states, unless a later relay has been written (R260, R261). -/
def writeProxy (s : State) (m k : Nat) (e : DataEntry) : State :=
  match proxyOf? s (m * 65536 + e.index.val), relayWq e.q with
  | some i, some q =>
    let newer := match tabGet? s.tr.lastRelay i with | some l => laterTick k l | none => true
    let r := ptAt s i
    if !newer || r.ty ≠ e.ty then s
    else writerWrite (mapTr s (fun t => { t with lastRelay := tabPut t.lastRelay i k })) .truss r.writerId i e.value q
  | _, _ => s

/-- A section at its subscriber; a relay that arrives after tick k + N is late (R260). -/
def takeSection (s : State) (m n k : Nat) (es : List DataEntry) : State :=
  let s := if laterTick (s.tick % 2 ^ 32) ((k + n) % 2 ^ 32) then incSatF s Fld.TR_ERR3_LATE else s
  es.foldl (fun s e => writeProxy s m k e) s

/-- Splits a list into pieces of at most 180. -/
def chunks : Nat → List DataEntry → List (List DataEntry)
  | 0, _ => []
  | f + 1, l => if l.isEmpty then [] else l.take 180 :: chunks f (l.drop 180)

/-- The words of a section (R261): the 12-byte header, and two words for each entry. -/
def relayWords (n k m : Nat) (es : List DataEntry) : List Nat :=
  [n % 65536 + es.length * 65536, k, m] ++ es.flatMap (fun e => [e.index.val + e.ty.code * 2 ^ 16 + e.q.code * 2 ^ 19, e.value.toNat])

/-- Sends a section as DATA frames of at most 180 entries. -/
def sendSection (s : State) (dst n k m : Nat) (es : List DataEntry) : State :=
  (chunks (es.length + 1) es).foldl (fun s c =>
    trSend s 0x13 dst (relayWords n k m c)) s

/-- The manager delivers a publisher's section at period `n`: to each subscriber what it subscribes; itself a subscriber, into its own proxies. -/
def deliver (s : State) (n k m : Nat) (es : List DataEntry) : State :=
  let subs := s.tr.subs.filter (fun r => gpaModule r.gpa == m && r.period == n)
  let who := dedup (subs.map (fun r => r.subscriber))
  who.foldl (fun s w =>
    let mine := es.filter (fun e => subs.any (fun r => r.subscriber == w && r.gpa % 65536 == e.index.val))
    if w = selfNumber s then (if modeOf s = 3 then s else takeSection s m n k mine)
    else if (dirAt s w).state = 1 then sendSection s w n k m mine else s) s

/-- DATA: relayed by the manager, written into proxies by a subscriber; a module in Safe mode sends none and ignores what it receives (R264). -/
def dataEffect (s : State) (n k m : Nat) (es : List DataEntry) : State :=
  if m = 511 then raise s .trussSelfGpa
  else if modeOf s = 3 then s
  else if isManager s then deliver s n k m es
  else takeSection s m n k es

/-- DATA. -/
def execData (h : TrussHdr) (n : Nat) (k : Word) (publisher : Fin 512) (entries : List DataEntry) (s : State) : Host.Outcome State Fault Refusal :=
  done (onTruss s h 0x13 (fun s => dataEffect s n k.toNat publisher.val entries))

/-- What this module publishes at period `n`, STALE points left out. -/
def pubEntries (s : State) (n : Nat) : List DataEntry :=
  (s.tr.pubs.filter (fun p => p.period == n)).filterMap (fun p =>
    let r := ptAt s p.index
    let q := ptQuality s r
    if !r.defined || q = .stale then none
    else some { index := ⟨p.index % 65536, Nat.mod_lt _ (by decide)⟩, ty := r.ty, q := q, value := ptValue r })

/-- Frames wait for request dowels of a pool: the demand that a HEARTBEAT reports (R266). -/
def waitsFor (s : State) (p : Nat) : Bool := s.tr.out.any (fun f => poolOfType f.ty == some p)

/-- The entries that the manager sends in place of a publisher in Safe mode (R264): ABSENT, of the TYPE subscribed; no rule states their value. -/
def absentEntry (g : Nat) (ty : VType) (tick : Nat) : DataEntry :=
  { index := ⟨g % 65536, Nat.mod_lt _ (by decide)⟩, ty := ty, q := .absent, value := Word.ofNat (Config.crypto 43 [g, tick]) }

/-- What Truss does at a grid tick (R251, R254, R260, R264): takeover, MARK, HEARTBEAT, publications. -/
def trussTick (s : State) : State :=
  let s := if s.tr.takeover && s.tick % 400 = 0 then becomeManager s (getF s Fld.TR_TERM_TERM) else s
  let s := if isManager s && s.tick % 400 = 0 then trSend s 0x04 dstAll (words64 s.tick ++ [getF s Fld.TR_TERM_TERM] ++ words64 (s.tr.epoch.getD 0)) else s
  let present := getB s Fld.TR_SELF_NUMBERED && getB s Fld.TR_SELF_MGR_PRESENT && !s.tr.left
  let hi := s.flt.queue.foldl (fun m e => max m e.sev.code) 0
  let s := if present && !isManager s && s.tick % 400 = 200 + selfNumber s % 100 then
      trSend s 0x03 (getF s Fld.TR_SELF_MANAGER) [modeOf s, hi, b2n (getB s Fld.LE_GSTAT_STEERED), getF s Fld.SCF_STATE_STATE, b2n (waitsFor s 1), b2n (waitsFor s 3)] else s
  let s := steerTick s
  let ns := (dedup (s.tr.pubs.map (fun p => p.period))).filter (fun n => s.tick % max n 1 == 0)
  let s := if modeOf s = 3 || !present then s
    else ns.foldl (fun s n =>
      let es := pubEntries s n
      if isManager s then deliver s n (s.tick % 2 ^ 32) (selfNumber s) es
      else sendSection s (getF s Fld.TR_SELF_MANAGER) n (s.tick % 2 ^ 32) (selfNumber s) es) s
  if !isManager s || modeOf s = 3 then s
  else
    let safe := (s.tr.dir.filter (fun kd => kd.2.state == 1 && kd.2.mode == 3)).map (fun kd => kd.1)
    safe.foldl (fun s m =>
      let subs := s.tr.subs.filter (fun r => gpaModule r.gpa == m && s.tick % max r.period 1 == 0)
      (dedup (subs.map (fun r => r.period))).foldl (fun s n =>
        let at_ := subs.filter (fun r => r.period == n)
        deliver s n (s.tick % 2 ^ 32) m ((dedup (at_.map (fun r => r.gpa))).map (fun g =>
          absentEntry g (((at_.find? (fun r => r.gpa == g)).map (fun r => r.ty)).getD .bool) s.tick))) s) s

/-! ## Pool audit (R269) -/

/-- One pool of one lane. -/
def auditPool (s : State) (l p : Nat) : State :=
  let (off, s) := takeOffset s .trPoolAudit (l * 8 + p)
  let x := poolAt s l p
  if getF s (Fld.TR_POOL_FREE l p) + tabSum x.granted + x.reserved + x.inUse = getF s (Fld.TR_POOL_SIZE l p) + off then s
  else raise (latchF s (Fld.TR_POOL_AUDIT_FAIL l p) 1) .trPoolAudit (l * 8 + p)

/-- POOL_AUDIT, at a MARK tick: a multiple of 400. -/
def execPoolAudit (s : State) : Host.Outcome State Fault Refusal :=
  if !domainOn s 4 || s.tick % 400 ≠ 0 then done s
  else done ([0, 1].foldl (fun s l => [0, 1, 2, 3, 4].foldl (fun s p => auditPool s l p) s) s)

/-! ## TR_CMD (R272) -/

/-- TR_CMD's fields after a GO. -/
def trFields (s : State) (op result : Nat) : State :=
  setFs s [(Fld.TR_CMD_OP, op), (Fld.TR_CMD_RESULT, result), (Fld.TR_CMD_BUSY, 0), (Fld.TR_CMD_GO, 0)]

/-- A module's binding is removed (R243); the loads and allotments follow the subscriptions that go with it (R262, R266). -/
def releaseModule (s : State) (n : Nat) : State :=
  let s := mapTr s (fun t => { t with bindings := tabDel t.bindings n, dir := tabDel t.dir n,
                                      published := t.published.filter (fun g => gpaModule g.1 != n),
                                      subs := t.subs.filter (fun r => !(r.subscriber == n || gpaModule r.gpa == n)) })
  reallot (updDir (syncOut (trSend s 0x05 dstAll [n, 2]) [4, n]))

/-- A command through TR_CMD, on the module selected. -/
def trCmd (s : State) (op n : Nat) : State :=
  match op with
  | 1 =>
    if (activeRole s = 1 || activeRole s = 3) && getB s Fld.TR_SELF_NUMBERED && !s.tr.left then
      mapTr (sendLeave (trFields s 1 0)) (fun t => { t with left := true })
    else trFields s 1 1
  | 2 =>
    if activeRole s = 1 || activeRole s = 3 then sendHello (mapTr (trFields s 2 0) (fun t => { t with left := false })) else trFields s 2 1
  | 3 =>
    if isManager s && ((dirAt s n).state = 2 || (dirAt s n).state = 3) then releaseModule (trFields s 3 0) n else trFields s 3 1
  | 4 =>
    if !isManager s then trFields s 4 1
    else if match s.tr.lastSyncAck with | some m => decide (s.mono ≤ m + 4000) | none => false then
      sendMsg (trFields s 4 0) (.note "HANDOVER" [getF s Fld.TR_TERM_TERM])
    else trFields s 4 2
  | 7 =>
    setFs (trFields s 7 0) [(Fld.TR_ERR1_AUTH_FAIL, 0), (Fld.TR_ERR1_REPLAY, 0), (Fld.TR_ERR2_DUP, 0), (Fld.TR_ERR2_NO_DOWEL, 0),
      (Fld.TR_ERR3_SMALL_DROP, 0), (Fld.TR_ERR3_LATE, 0), (Fld.TR_LANES_SINGLE_SENT, 0)]
  | _ => trFields s op 1

/-- TRUSS_LEAVE. -/
def execTrussLeave (s : State) : Host.Outcome State Fault Refusal := done (trCmd s 1 0)
/-- TRUSS_REJOIN. -/
def execTrussRejoin (s : State) : Host.Outcome State Fault Refusal := done (trCmd s 2 0)
/-- TRUSS_RELEASE. -/
def execTrussRelease (n : Fin 512) (s : State) : Host.Outcome State Fault Refusal := done (trCmd s 3 n.val)
/-- TRUSS_HANDOVER. -/
def execTrussHandover (s : State) : Host.Outcome State Fault Refusal := done (trCmd s 4 0)
/-- TR_CLEAR_ERRORS. -/
def execTrClearErrors (s : State) : Host.Outcome State Fault Refusal := done (trCmd s 7 0)

/-! ## Management requests (R271) -/

/-- A reply to a request: identifier, status, data; in a frame to the sender of the frame that brought the request, over the management UART where none
did. -/
def mgmtReply (s : State) (id status : Nat) (data : List Nat) : State :=
  match tabGet? s.tr.askers id with
  | some src => trSend (mapTr s (fun t => { t with askers := tabDel t.askers id })) 0x31 src (id :: status :: data)
  | none => sendMsg s (.note "MGMT_RSP" (id :: status :: data))

/-- An operation as a frame carries it to another module. -/
def MgmtOp.args : MgmtOp → List Nat
  | .regRead a => [0, a]
  | .regWrite a w => [1, a, w.toNat]
  | .change is t => 2 :: (match t with | some t => 1 :: words64 t.val | none => [0]) ++ imageWords is
  | .force i v => [3, i.val, v.toNat]
  | .release i => [4, i.val]
  | .taskCmd e s op => [5, e.val, s.val, op.val]
  | .loopCmd n op => [6, n.val, op.val]
  | .faultRead => [7]

/-- The frame of a request is accepted or not; accepted, the tenant for which it acts: an operator station's is the one to which its pair is bound. -/
def takeRequest (s : State) (h : TrussHdr) (id tenant : Nat) : State × Option Nat :=
  let r := trussAccept s h 0x30
  if r.2 then
    (mapTr r.1 (fun t => { t with askers := tabPut t.askers id h.src.val }),
     some (if h.src.val = dstStation then (slotAt s (frameSlot s dstStation)).binding else tenant))
  else (r.1, none)

/-- A request for a module: performed here for its tenant, sent on by the manager, or answered with status 3. -/
def mgmtAt (s : State) (h : TrussHdr) (id target tenant : Nat) (args : List Nat) (perform : State → Nat → State) : State :=
  match takeRequest s h id tenant with
  | (s, none) => s
  | (s, some t) =>
    if target = selfNumber s || !getB s Fld.TR_SELF_NUMBERED then perform s t
    else if isManager s && (dirAt s target).state = 1 then trSend s 0x30 target (id :: target :: t :: args)
    else mgmtReply s id 3 []

/-- MGMT_RSP: carried back to the requester (R271). -/
def execMgmtRsp (h : TrussHdr) (id : Word) (status : Fin 4) (data : List Nat) (s : State) : Host.Outcome State Fault Refusal :=
  done (onTruss s h 0x31 (fun s => mgmtReply s id.toNat status.val data))

end Sys2Proof.Machine
end

