-- ==== Sys2Proof/Machine/Mac.lean ====
section
/-! DEFINITION. Machine/Mac.lean: the Ethernet MACs (09): receive steps, rings, tags, PAUSE, timestamps, links, wake, and the buffer pools they draw on. -/

namespace Sys2Proof.Machine

/-! ## MACs and counters (R306) -/

/-- Stores a MAC's structures. -/
def setMac (s : State) (m : Nat) (x : MacState) : State := { s with macs := tabSet {} s.macs m x }
/-- Applies a change to them. -/
def mapMac (s : State) (m : Nat) (f : MacState → MacState) : State := setMac s m (f (macAt s m))
/-- Counter `i` of Table 12, by its offset from 0x200 in words. -/
def macCount (s : State) (m i : Nat) (n : Nat := 1) : State := incF s (Fld.MACn_CNT_COUNT m i) n
/-- BB0 or BB1. -/
def isBackbone (m : Nat) : Bool := decide (m < 2)
/-- Power domain of a MAC (Table 1). -/
def macDomain (m : Nat) : Nat := if m < 2 then 10 else 11
/-- The link is up. -/
def linkUp (s : State) (m : Nat) : Bool := getB s (Fld.MACn_LINK_UP m)

/-- UP, with the idle handshake (R304) and Truss's view of its lane. -/
def setLink (s : State) (m : Nat) (up : Bool) : State :=
  let s := setFs s [(Fld.MACn_LINK_UP m, b2n up), (Fld.MACn_STATUS_IDLE m, b2n !up)]
  let s := if up then s else setF s (Fld.MACn_LINK_LPI m) 0
  match m with | 0 => setB s Fld.TR_LANES_BB0_UP up | 1 => setB s Fld.TR_LANES_BB1_UP up | _ => s

/-! ## Link training (R275 to R277, R304, R524) -/

/-- Training asks for its pegs, unless DISABLED, without OPTION (R467), or waiting for LOS (R524). -/
def askTraining (s : State) (m : Nat) : State :=
  if getB s (Fld.MACn_LINK_DISABLED m) || (macAt s m).down || !getB s Fld.RST_LOAD_OPTION_VALID || !engineRuns s (macDomain m) || blockHeld s (16 + m) then s
  else if (macAt s m).los then mapMac s m (fun x => { x with trainDue := true })
  else if h : m < 6 then govRequest (setF s (Fld.MACn_LINK_PEG_WAIT m) 1) (.serdes ⟨m, h⟩) else s

/-- Training ends or is abandoned: its pegs come back, a waiting request goes. -/
def stopTraining (s : State) (m : Nat) : State :=
  let s := setFs s [(Fld.MACn_LINK_TRAINING m, 0), (Fld.MACn_LINK_PEG_WAIT m, 0)]
  if h : m < 6 then govWithdraw (pegReturn s (.serdes ⟨m, h⟩)) (.serdes ⟨m, h⟩) else s

/-- Rate codes that a MODE offers: USXGMII 1 to 4, SGMII 5 and 6. -/
def rateOffered (mode r : Nat) : Bool := if mode = 0 then 1 ≤ r && r ≤ 4 else r = 5 || r = 6

/-- The forced rate, 0 for in-band: a rate that MODE does not offer is taken as 0. -/
def forcedRate (s : State) (m : Nat) : Nat :=
  let r := getF s (Fld.MACn_CFG_RATE m)
  if rateOffered (getF s (Fld.MACn_CFG_MODE m)) r then r else 0

/-- LINK_TRAIN_END: link is reached and the pegs return; a forced rate, else the in-band rate, is in use. -/
def execLinkTrainEnd (m : Fin 6) (rate : Fin 8) (s : State) : Host.Outcome State Fault Refusal :=
  if getB s (Fld.MACn_LINK_TRAINING m) && !forcedOnce s .macTrain m then
    let s := setLink (stopTraining s m) m true
    let s := setF s (Fld.MACn_LINK_RATE m) (if isBackbone m then 0 else if forcedRate s m ≠ 0 then forcedRate s m else rate.val)
    done (flushOut s)
  else done s

/-- LINK_TRAIN_TIMEOUT, 500 ms after the grant: a Degraded fault and the pegs returned; the request 1 s later is PEG_REQUEST's. -/
def execLinkTrainTimeout (m : Fin 6) (s : State) : Host.Outcome State Fault Refusal :=
  if getB s (Fld.MACn_LINK_TRAINING m) && timeRan s (tmTrain m) (500 * msCycles) then (let s' := raise (stopTraining s m) .macTrain m; done (if forced s .macTrain m then useForce s' else s')) else done s

/-- The link is lost: a frame being received is discarded, a Note fault, training again. -/
def loseLink (s : State) (m : Nat) (receiving : Bool) : State :=
  if !linkUp s m then s
  else
    let s := setLink s m false
    let s := if receiving then macCount s m 2 else s
    askTraining (raise s .macLinkLost m) m

/-- LINK_LOSS. -/
def execLinkLoss (m : Fin 6) (receiving : Bool) (s : State) : Host.Outcome State Fault Refusal := done (loseLink s m receiving)

/-- INBAND_RATE_CHANGE (R276): only a floor MAC with an in-band rate, to one that its MODE offers. -/
def execInbandRateChange (m : Fin 6) (rate : Fin 8) (receiving : Bool) (s : State) : Host.Outcome State Fault Refusal :=
  if isBackbone m || forcedRate s m ≠ 0 || !linkUp s m || !rateOffered (getF s (Fld.MACn_CFG_MODE m)) rate.val then done s
  else
    let s := setF s (Fld.MACn_LINK_RATE m) rate.val
    done (if receiving then macCount s m 2 else s)

/-- MACn_CMD's fields after a GO. -/
def macFields (s : State) (m op result : Nat) : State :=
  setFs s [(Fld.MACn_CMD_OP m, op), (Fld.MACn_CMD_RESULT m, result), (Fld.MACn_CMD_BUSY m, 0), (Fld.MACn_CMD_GO m, 0)]

/-- The link goes down and training starts again, as RETRAIN or a commit of MODE or RATE asks (R275). -/
def retrain (s : State) (m : Nat) : State := askTraining (setLink (stopTraining s m) m false) m

/-- A command through MACn_CMD. -/
def macCmd (s : State) (m op : Nat) : State :=
  match op with
  | 1 => if getB s (Fld.MACn_LINK_DISABLED m) then macFields s m 1 1 else retrain (macFields s m 1 0) m
  | 2 => setF (setLink (stopTraining (macFields s m 2 0) m) m false) (Fld.MACn_LINK_DISABLED m) 1
  | 3 =>
    if getB s (Fld.MACn_LINK_DISABLED m) || (macAt s m).down then
      askTraining (mapMac (setF (macFields s m 3 0) (Fld.MACn_LINK_DISABLED m) 0) m (fun x => { x with down := false })) m
    else macFields s m 3 1
  | 7 => (List.range 24).foldl (fun s i => setF s (Fld.MACn_CNT_COUNT m i) 0) (macFields s m 7 0)
  | _ => macFields s m op 1

/-- MAC_RETRAIN. -/
def execMacRetrain (m : Fin 6) (s : State) : Host.Outcome State Fault Refusal := done (macCmd s m 1)
/-- MAC_DISABLE. -/
def execMacDisable (m : Fin 6) (s : State) : Host.Outcome State Fault Refusal := done (macCmd s m 2)
/-- MAC_ENABLE. -/
def execMacEnable (m : Fin 6) (s : State) : Host.Outcome State Fault Refusal := done (macCmd s m 3)
/-- MAC_CLEAR_COUNTERS. -/
def execMacClearCounters (m : Fin 6) (s : State) : Host.Outcome State Fault Refusal := done (macCmd s m 7)

/-- BB_LOS_CHANGE (R524). -/
def execBbLosChange (m : Fin 2) (high : Bool) (s : State) : Host.Outcome State Fault Refusal :=
  let x := macAt s m.val
  if high then
    let s := mapMac s m.val (fun x => { x with los := true })
    if getB s (Fld.MACn_LINK_TRAINING m) || getB s (Fld.MACn_LINK_PEG_WAIT m) then
      done (mapMac (stopTraining s m) m.val (fun x => { x with trainDue := true }))
    else done (loseLink s m false)
  else
    let s := mapMac s m.val (fun x => { x with los := false, trainDue := false })
    done (if x.trainDue then askTraining s m else s)

/-! ## Buffer pools (12 R385 to R387) -/


/-- The reserve is recomputed at a commit that changes the contexts: what a context holds beyond it counts as common (R386). -/
def recomputePool (s : State) : State :=
  let v := (validCtxs s).length
  let r := if v = 0 then 0 else 896 / v
  updPool ((List.range 64).foldl (fun s c =>
    let keep := if getB s (Fld.PT_CTX_VALID c) then r else 0
    let h := getF s (Fld.MEM_CTX_BUF_RESERVED_HELD c)
    if h ≤ keep then s
    else setFs s [(Fld.MEM_CTX_BUF_RESERVED_HELD c, keep), (Fld.MEM_CTX_BUF_COMMON_HELD c, getF s (Fld.MEM_CTX_BUF_COMMON_HELD c) + (h - keep))]) s)

/-- A buffer of the context pool for context `c` (R386); none: it has no claim to one. -/
def takeCtxBuf (s : State) (c : Nat) : Option State :=
  let h := getF s (Fld.MEM_CTX_BUF_RESERVED_HELD c)
  let k := getF s (Fld.MEM_CTX_BUF_COMMON_HELD c)
  if h < getF s Fld.MEM_POOL_RESERVE then some (setF s (Fld.MEM_CTX_BUF_RESERVED_HELD c) (h + 1))
  else if k < getF s Fld.MEM_POOL_COMMON_FREE then
    some (setFs s [(Fld.MEM_CTX_BUF_COMMON_HELD c, k + 1), (Fld.MEM_POOL_COMMON_FREE, getF s Fld.MEM_POOL_COMMON_FREE - 1)])
  else none

/-- A context's buffer comes back, a common one first. -/
def giveCtxBuf (s : State) (c : Nat) : State :=
  let k := getF s (Fld.MEM_CTX_BUF_COMMON_HELD c)
  if 0 < k then setFs s [(Fld.MEM_CTX_BUF_COMMON_HELD c, k - 1), (Fld.MEM_POOL_COMMON_FREE, getF s Fld.MEM_POOL_COMMON_FREE + 1)]
  else setF s (Fld.MEM_CTX_BUF_RESERVED_HELD c) (getF s (Fld.MEM_CTX_BUF_RESERVED_HELD c) - 1)

/-- A buffer of the network engines' area, 128 in all (R385). -/
def takeNeBuf (s : State) : Option State := if s.neArea < 128 then some { s with neArea := s.neArea + 1 } else none
/-- It comes back. -/
def giveNeBuf (s : State) : State := { s with neArea := s.neArea - 1 }


/-- A buffer of the other-traffic pool. -/
def takeBbBuf (s : State) (m : Nat) : Option State :=
  if 0 < getF s (bbFree m) then some (setF s (bbFree m) (getF s (bbFree m) - 1)) else none


/-- Counts a shed frame of a context (R387), for FLT_SAT too (15 R498). -/
def shedCtx (s : State) (c : Nat) (floor : Bool) : State :=
  let s := incF s (Fld.MEM_SHED_COUNT c)
  { s with shed := { s.shed with ctx := if s.shed.ctx.contains c then s.shed.ctx else s.shed.ctx ++ [c], floor := s.shed.floor || floor } }

/-- Counts RX_NO_BUF. -/
def countNoBuf (s : State) (m : Nat) : State :=
  let s := macCount s m 12
  { s with shed := if isBackbone m then { s.shed with bb := true } else { s.shed with floor := true } }

/-! ## Reading a frame -/

/-- Sixteen bits at an octet offset, first octet high. -/
def f16 (l : List Nat) (i : Nat) : Nat := l.getD i 0 % 256 * 256 + l.getD (i + 1) 0 % 256

/-- TPID of a tag. -/
def isTpid (n : Nat) : Bool := n = 0x8100 || n = 0x88A8

/-- Tags at the head of a frame, at most two. -/
def tagCount (l : List Nat) : Nat := if isTpid (f16 l 12) then (if isTpid (f16 l 16) then 2 else 1) else 0

/-- The FCS is correct: the last four octets, lowest first, against the CRC-32 of the others. -/
def fcsOk (l : List Nat) : Bool := decide (4 ≤ l.length) && leOctets (l.drop (l.length - 4)) == crc32 (l.take (l.length - 4))

/-- Hash bit of a group address (R280). -/
def hashBit (a : List Nat) : Nat := bitsOf (crc32 a) 26 6

/-- A destination address is accepted (R280). -/
def addrOk (s : State) (m : Nat) (a : List Nat) : Bool :=
  a == macAddr s m || a == [0xFF, 0xFF, 0xFF, 0xFF, 0xFF, 0xFF] || a == [0x01, 0x1B, 0x19, 0, 0, 0] || a == [0x01, 0x80, 0xC2, 0, 0, 0x0E]
    || (isBackbone m && a == trussGroup s)
    || (bitOf (a.getD 0 0) 0
        && (if hashBit a < 32 then bitOf (getF s (Fld.MACn_MCHASH_LO_BITS m)) (hashBit a) else bitOf (getF s (Fld.MACn_MCHASH_HI_BITS m)) (hashBit a - 32)))

/-- A frame with its tags removed: addresses, then EtherType and payload, FCS removed. -/
def untagged (l : List Nat) (tags : Nat) : List Nat := l.take 12 ++ (l.take (l.length - 4)).drop (12 + 4 * tags)

/-- A PTP frame (Table 3). -/
def isPtp (u : List Nat) : Bool :=
  let et := f16 u 12
  et = 0x88F7
    || (et = 0x0800 && u.getD 14 0 = 0x45 && u.getD 23 0 = 17 && (f16 u 36 = 319 || f16 u 36 = 320))
    || (et = 0x86DD && u.getD 20 0 = 17 && (f16 u 56 = 319 || f16 u 56 = 320))

/-- What the tag check of step 7 answers: accepted with the tags removed, the VID and PCP of the C-tag; or the counter of the discard. -/
inductive TagCheck where
  | ok (tags vid pcp : Nat) (ctag : Bool)
  | discard (counter : Nat)
deriving DecidableEq, Repr

/-- Step 7 on a floor MAC (R281, R68). -/
def floorTags (s : State) (m : Nat) (l : List Nat) : TagCheck :=
  let t := f16 l 12
  if t = 0x88A8 || (t = 0x8100 && isTpid (f16 l 16)) then .discard 8
  else
    let tci := if t = 0x8100 then f16 l 14 else 0
    let tags := if t = 0x8100 then 1 else 0
    let vid := tci % 4096
    if vid = 0 && isPtp (untagged l tags) then .ok tags 0 (tci / 8192) (tags = 1)
    else if getB s (Fld.PT_VID_VALID vid) && bitOf (getF s (Fld.PT_VID_MAC_MASK vid)) (m - 2) then .ok tags vid (tci / 8192) (tags = 1)
    else .discard 9

/-- Step 7 on a backbone MAC (R282). -/
def bbTags (s : State) (m : Nat) (l : List Nat) : TagCheck :=
  let on := stagOn s m
  let outer := f16 l 12 = 0x88A8 && f16 l 14 % 4096 = getF s (Fld.MACn_STAG_SVID m)
  if on && !outer then .discard 8
  else if !on && (f16 l 12 = 0x88A8 || (f16 l 12 = 0x8100 && f16 l 16 = 0x88A8)) then .discard 8
  else
    let n := if on then 1 else 0
    let c := f16 l (12 + 4 * n) = 0x8100
    let tci := f16 l (14 + 4 * n)
    let v := getF s Fld.TR_CFG_VID
    if v = 0 then
      if !c then .ok n 0 0 false else if tci % 4096 = 0 then .ok (n + 1) 0 (tci / 8192) true else .discard 9
    else if c && tci % 4096 = v then .ok (n + 1) v (tci / 8192) true else .discard 9

/-- The class of a frame that has passed step 7 (R283): none, step 8 fails; else class, ring, context. -/
def frameClass (s : State) (m : Nat) (u : List Nat) (vid : Nat) : Option (Nat × Nat × Nat) :=
  if f16 u 12 = getF s Fld.TR_CFG2_ETYPE then (if isBackbone m then some (0, 0, 0) else none)
  else if isPtp u && (isBackbone m || vid = 0) then some (1, 1, 0)
  else if isBackbone m then
    let c := getF s (Fld.MACn_BB_RX_CTX m)
    if getB s (Fld.MACn_BB_RX_VALID m) && getB s (Fld.PT_CTX_VALID c) then some (2, 2 + ctxNe s c, c) else none
  else
    let c := getF s (Fld.PT_VID_CTX vid)
    some (2, 2 + ctxNe s c, c)

/-- Pool that a Truss header's POOL and RSP fields name: none for a small frame (08 Table 1). -/
def headerPool (u : List Nat) : Option Nat :=
  let w := leOctets ((u.drop 16).take 2)
  match bitsOf w 12 2 with
  | 0 => some 0 | 1 => some (if bitOf w 14 then 2 else 1) | 2 => some (if bitOf w 14 then 4 else 3) | _ => none

/-- The buffer of step 9 (R285); none: the pool has none for the frame. A Truss buffer is charged to its dowel by the frame's own row. -/
def rxBuffer (s : State) (m cls ctx : Nat) (u : List Nat) : Option State :=
  match cls with
  | 0 =>
    match headerPool u with
    | none => some s
    | some p => if trRole s ≠ 0 && (poolAt s m p).inUse < getF s (Fld.TR_POOL_SIZE m p) then some s else none
  | 1 => if isBackbone m then takeBbBuf s m else takeNeBuf s
  | _ => if isBackbone m then takeBbBuf s m else takeCtxBuf s ctx

/-- A buffer of the other-traffic pool comes back, from a descriptor that still counts among the held ones; a pool that has become smaller meanwhile
keeps it only within its size (08 R265). -/
def giveBbBuf (s : State) (m : Nat) : State := setF s (bbFree m) (bbPoolSize s + 1 - bbHeld s m)

/-- The buffer of a stored or discarded frame goes back to the pool it came from. -/
def rxGive (s : State) (m cls ctx : Nat) : State :=
  match cls with
  | 0 => s
  | 1 => if isBackbone m then giveBbBuf s m else giveNeBuf s
  | _ => if isBackbone m then giveBbBuf s m else giveCtxBuf s ctx

/-- A block reset of a MAC (R286, R304): no buffer stays with it and none is lost; its rings are empty until their owners take them up again, and the
datagrams that its descriptors held are gone from the request queues. -/
def macEmpty (s : State) (m : Nat) : State :=
  let x := macAt s m
  let s := x.tx.foldl (fun s kd => if !kd.2.own then s else if kd.2.post.forModule then giveNeBuf s else giveCtxBuf s kd.2.post.ctx.val) s
  let s := if isBackbone m then s else x.rx.foldl (fun s kd => if kd.2.len = 0 then s else rxGive s m kd.2.cls kd.2.ctx) s
  let s := mapMac s m MacState.emptied
  let keep (q : List Waiting) : List Waiting := q.filter (fun w => w.mac != m)
  updBb { s with net := { s.net with reqs := (s.net.reqs.map (fun kq => (kq.1, keep kq.2))).filter (fun kq => !kq.2.isEmpty) } }

/-! ## Rings (R287 to R289) -/

/-- Descriptors of a ring. -/
def ringSize (s : State) (m k : Nat) : Nat := 2 ^ getF s (Fld.MACn_RING_LOG2N m k)
/-- Posted descriptors. -/
def ringCount (s : State) (m k : Nat) : Nat :=
  let n := ringSize s m k
  (getF s (Fld.MACn_RPTR_TAIL m k) + n - getF s (Fld.MACn_RPTR_HEAD m k) % n) % n

/-- The owning engine sets a ring up: its place and length are the engine's, no rule gives them (log 4). -/
def ringSetUp (s : State) (m k : Nat) : State :=
  if getB s (Fld.MACn_RING_EN m k) then s
  else
    let (a, s) := freshFree s
    let (b, s) := freshFree s
    setFs s [(Fld.MACn_RING_BASE m k, a % 2 ^ 17), (Fld.MACn_RING_LOG2N m k, 4 + b % 9), (Fld.MACn_RING_EN m k, 1)]

/-- Advances a pointer of a ring. -/
def ringStep (s : State) (m k : Nat) (f : RF) : State := setF s f ((getF s f + 1) % ringSize s m k)

/-- RX_DESC_POST: OWN set, every other field zero, the tail advances. The frame that the descriptor held has been processed: its buffer returns.
A full ring takes none. -/
def execRxDescPost (m : Fin 6) (k : Fin 4) (s : State) : Host.Outcome State Fault Refusal :=
  let s := ringSetUp s m k
  if ringCount s m k + 1 = ringSize s m k then done s
  else
    let i := getF s (Fld.MACn_RPTR_TAIL m k)
    let old := tabGet {} (macAt s m).rx (k.val * 4096 + i)
    let s := if old.len = 0 then s else rxGive s m old.cls old.ctx
    let s := mapMac s m (fun x => { x with rx := tabSet {} x.rx (k.val * 4096 + i) { own := true } })
    done (ringStep s m k (Fld.MACn_RPTR_TAIL m k))

/-- A timestamp of a MAC (R297): the adjustment added, rounded down to 4 ns. -/
def stampOf (sec ns adj : Nat) : Nat × Nat :=
  let a : Int := if adj < 2 ^ 15 then adj else (adj : Int) - 2 ^ 16
  let t : Int := (sec * 1000000000 + ns : Nat) + a
  let t := t.toNat / 4 * 4
  (t / 1000000000 % 2 ^ 48, t % 1000000000)

/-! ## Receive (R278 to R286) -/

/-- The effect of a PAUSE frame (R295): counted; acted on when enabled and the watchdog has not tripped. The time for which the transmitter is held starts
when it is first held (R296). -/
def pauseEffect (s : State) (m quanta : Nat) : State :=
  let s := startTime (macCount s m 15) (tmPause m)
  if !getB s (Fld.MACn_CFG_RX_PAUSE_EN m) || getB s (Fld.MACn_STATUS_PAUSE_STUCK m) then s
  else
    let s := if getB s (Fld.MACn_STATUS_PAUSED m) then s else startTime s (tmHeld m)
    mapMac (setB (startTime s (tmQuanta m)) (Fld.MACn_STATUS_PAUSED m) (quanta ≠ 0)) m (fun x => { x with quanta := quanta })

/-- Rate in use in Mbit/s; 0 of a backbone MAC is 10GBASE-R (Table 11). -/
def linkMbps (s : State) (m : Nat) : Nat :=
  match getF s (Fld.MACn_LINK_RATE m) with | 2 => 5000 | 3 => 2500 | 4 => 1000 | 5 => 1000 | 6 => 100 | _ => 10000

/-- Fabric cycles of a PAUSE frame's quanta × 512 bit times at the current rate, rounded up (R295). -/
def quantaCycles (s : State) (m : Nat) : Nat := ((macAt s m).quanta * 512 * usCycles + linkMbps s m - 1) / linkMbps s m

/-- Watchdog time of a MAC in fabric cycles: 0 is taken as 20 ms (R296). -/
def pwdCycles (s : State) (m : Nat) : Nat :=
  let n := getF s (Fld.MACn_CFG_PWD_MS m)
  (if n = 0 then 20 else n) * msCycles

/-- Octets of a MAC's receive FIFO by cadence profile (R279, Table 8). -/
def fifoSize (s : State) (m : Nat) : Nat :=
  1024 * (if isBackbone m then 16 else match getF s Fld.PW_CFG_PROFILE with | 1 => 8 | 2 => 4 | _ => 16)

/-- The datagram of a stored context frame enters its context's request queue of 64, or is discarded with its buffer returned (10 R331). -/
def queueRequest (s : State) (m ring i ctx vid len : Nat) : State :=
  let k := ctx * 2 + (ring - 2)
  let q := tabGet [] s.net.reqs k
  if q.length < 64 then { s with net := { s.net with reqs := tabSet [] s.net.reqs k (q ++ [{ vid := vid, mac := m, len := len }]) } }
  else
    let s := rxGive (incSatF s (Fld.NE_CTX_OBS_SHED ctx)) m 2 ctx
    let s := mapMac s m (fun x => { x with rx := tabSet {} x.rx (ring * 4096 + i) {} })
    { s with shed := { s.shed with obs := true, ctx := if s.shed.ctx.contains ctx then s.shed.ctx else s.shed.ctx ++ [ctx] } }

/-- Steps 9 and 10: buffer, descriptor, counters. -/
def storeFrame (s : State) (m : Nat) (f : RxFrame) (u : List Nat) (tags vid pcp cls ring ctx : Nat) : State :=
  if cls = 0 && (headerPool u).isNone && 64 ≤ (macAt s m).small then
    let s := incSatF s Fld.TR_ERR3_SMALL_DROP
    { s with shed := { s.shed with truss := true } }
  else match rxBuffer s m cls ctx u with
  | none =>
    let s := countNoBuf s m
    if cls = 2 then shedCtx s ctx (!isBackbone m) else s
  | some s' =>
    let i := getF s' (Fld.MACn_RPTR_HEAD m ring)
    let d := tabGet {} (macAt s' m).rx (ring * 4096 + i)
    if !getB s' (Fld.MACn_RING_EN m ring) || !d.own then macCount s m 13
    else
      let (b, s') := freshFree s'
      let (tsec, tns) := stampOf f.sec f.ns (getF s (Fld.MACn_TSLAT_RX_ADJ m))
      let d : RxDesc :=
        { own := false, buf := b % 2 ^ 23, len := u.length % 2048, tags := tags, cls := cls, ctx := if cls = 2 then ctx else 0, vid := vid, pcp := pcp,
          tsNs := tns, tsSec := tsec % 4, frame := u }
      let small := cls = 0 && (headerPool u).isNone && trRole s' ≠ 0
      let s' := mapMac s' m (fun x => { x with rx := tabSet {} x.rx (ring * 4096 + i) d, small := if small then x.small + 1 else x.small })
      let s' := macCount (macCount (ringStep s' m ring (Fld.MACn_RPTR_HEAD m ring)) m 0) m 1 f.octets.length
      if cls = 2 then queueRequest s' m ring i ctx vid u.length else s'

/-- The receive steps of Table 2, in order. -/
def receiveFrame (s : State) (m : Nat) (f : RxFrame) : State :=
  let l := f.octets
  if !linkUp s m || !domainOn s (macDomain m) then s
  else if fifoSize s m < f.waiting + l.length then macCount s m 14
  else if f.pcsErr then macCount s m 2
  else if l.length < 64 then macCount s m 3
  else if 1518 + 4 * min (tagCount l) (if isBackbone m then 2 else 1) < l.length then macCount s m 4
  else if !fcsOk l then macCount s m 5
  else if f16 l 12 = 0x8808 then (if f16 l 14 = 1 then pauseEffect s m (f16 l 16) else macCount s m 6)
  else if !addrOk s m (l.take 6) then macCount s m 7
  else match (if isBackbone m then bbTags s m l else floorTags s m l) with
    | .discard c => macCount s m c
    | .ok tags vid pcp _ =>
      let u := untagged l tags
      match frameClass s m u vid with
      | none => macCount s m 10
      | some (cls, ring, ctx) => storeFrame (cross s dcqMacRx) m f u tags vid pcp cls ring ctx

/-- FRAME_RECEIVE. -/
def execFrameReceive (m : Fin 6) (f : RxFrame) (s : State) : Host.Outcome State Fault Refusal := done (receiveFrame s m f)

/-! ## PAUSE (R294 to R296) -/

/-- PAUSE_RECEIVE. -/
def execPauseReceive (m : Fin 6) (quanta : Fin 65536) (s : State) : Host.Outcome State Fault Refusal := done (pauseEffect s m quanta.val)

/-- PAUSE_EXPIRE: the frame's quanta have passed; an active Force renews them (15 Table 1). -/
def execPauseExpire (m : Fin 6) (s : State) : Host.Outcome State Fault Refusal :=
  if forced s .macPauseWd m || !timeRan s (tmQuanta m) (quantaCycles s m) then done s
  else done (mapMac (setF s (Fld.MACn_STATUS_PAUSED m) 0) m (fun x => { x with quanta := 0 }))

/-- PAUSE_WATCHDOG (R296): a transmitter that PAUSE has held for PWD_MS. -/
def execPauseWatchdog (m : Fin 6) (s : State) : Host.Outcome State Fault Refusal :=
  if !getB s (Fld.MACn_STATUS_PAUSED m) || !timeRan s (tmHeld m) (pwdCycles s m) then done s
  else
    let s := mapMac (setFs s [(Fld.MACn_STATUS_PAUSED m, 0), (Fld.MACn_STATUS_PAUSE_STUCK m, 1)]) m (fun x => { x with quanta := 0 })
    done (raise (macCount s m 21) .macPauseWd m)

/-- PAUSE_REARM: a full second has passed in which no PAUSE frame arrived. -/
def execPauseRearm (m : Fin 6) (s : State) : Host.Outcome State Fault Refusal :=
  done (if timeRan s (tmPause m) (1000 * msCycles) then setF s (Fld.MACn_STATUS_PAUSE_STUCK m) 0 else s)

/-! ## Transmit (R288 to R293, R297 to R299) -/

/-- TX_DESC_POST: the engine takes a buffer for the frame (R387; with none it waits, and nothing is posted), writes the descriptor, sets OWN and
advances the tail; Low Power Idle ends (R303). -/
def execTxDescPost (m : Fin 6) (k : Fin 3) (d : TxPost) (s : State) : Host.Outcome State Fault Refusal :=
  let k := k.val + 4
  let s := ringSetUp s m k
  if ringCount s m k + 1 = ringSize s m k then done s
  else match (if d.forModule then takeNeBuf s else takeCtxBuf s d.ctx.val) with
    | none => done s
    | some s =>
      let i := getF s (Fld.MACn_RPTR_TAIL m k)
      let s := mapMac s m (fun x => { x with tx := tabSet {} x.tx (k * 4096 + i) { own := true, post := d } })
      done (startTime (setF (ringStep s m k (Fld.MACn_RPTR_TAIL m k)) (Fld.MACn_LINK_LPI m) 0) (tmTx m))

/-- End of the region of packet memory that holds a byte address: BB0's, BB1's, the floor pool (12 R385). -/
def areaEnd (a : Nat) : Nat := if a < 0x200000 then 0x200000 else if a < 0x400000 then 0x400000 else 0x800000

/-- Octets that a descriptor's frame has on the wire without tags: padded to 60, with the FCS. -/
def wireLen (d : TxPost) : Nat := max d.len.val 60 + 4

/-- Deficit round robin of TX0 and TX1, quantum 1,536 (R290): the ring to serve and the scheduler's state; rings 4 and 5 may be empty. -/
def drr (x : MacState) (l0 l1 : Option Nat) : Option (Nat × MacState) :=
  match l0, l1 with
  | none, none => none
  | some n, none => some (4, { x with deficit0 := (if n ≤ x.deficit0 then x.deficit0 else x.deficit0 + 1536) - n, deficit1 := 0, turn1 := false })
  | none, some n => some (5, { x with deficit1 := (if n ≤ x.deficit1 then x.deficit1 else x.deficit1 + 1536) - n, deficit0 := 0, turn1 := true })
  | some a, some b =>
    if x.turn1 then
      if b ≤ x.deficit1 then some (5, { x with deficit1 := x.deficit1 - b })
      else some (4, { x with turn1 := false, deficit0 := x.deficit0 + 1536 - a })
    else if a ≤ x.deficit0 then some (4, { x with deficit0 := x.deficit0 - a })
    else some (5, { x with turn1 := true, deficit1 := x.deficit1 + 1536 - b })

/-- Descriptor at a ring's head, if it is owned by hardware. -/
def txHead? (s : State) (m k : Nat) : Option TxDesc :=
  let d : TxDesc := tabGet {} (macAt s m).tx (k * 4096 + getF s (Fld.MACn_RPTR_HEAD m k))
  if getB s (Fld.MACn_RING_EN m k) && d.own then some d else none

/-- The ring that the scheduler serves next: TX2 first. -/
def pickRing (s : State) (m : Nat) : Option (Nat × MacState) :=
  match txHead? s m 6 with
  | some _ => some (6, macAt s m)
  | none => drr (macAt s m) ((txHead? s m 4).map (fun d => wireLen d.post)) ((txHead? s m 5).map (fun d => wireLen d.post))

/-- The tags a frame leaves with, outermost first; none: the tag check denies it (R291, R292). -/
def txTags (s : State) (m k : Nat) (d : TxPost) : Option (List Nat) :=
  if isBackbone m then some (bbTagsOut s m d.pcp.val)
  else if d.forModule then (if k = 6 then some [] else none)
  else
    let v := match d.tagMode.val with | 1 => getF s (Fld.PT_CTX_TX_VID d.ctx.val) | 2 => d.vid.val | _ => 0
    if getB s (Fld.PT_CTX_VALID d.ctx.val) && getB s (Fld.PT_VID_VALID v) && getF s (Fld.PT_VID_CTX v) = d.ctx.val
        && bitOf (getF s (Fld.PT_VID_MAC_MASK v)) (m - 2) then
      some (if v = 0 then [] else tagOctets 0x8100 d.pcp.val v)
    else none

/-- The frame as it leaves: padded, tagged, with its FCS (R293). -/
def wireFrame (d : TxPost) (tags : List Nat) : List Nat :=
  let p := (d.frame.take d.len.val) ++ List.replicate (60 - d.len.val) 0
  let w := p.take 12 ++ tags ++ p.drop 12
  w ++ octetsLe 4 (crc32 w)

/-- The timestamp of a frame sent with TS_REQ (R298, R299): its entry, or an overflow with a Note at most once per second. -/
def stampTx (s : State) (m k i : Nat) (d : TxPost) (sec ns : Nat) : State :=
  let x := macAt s m
  if 64 ≤ x.tsq.length then
    let s := mapMac (macCount s m 20) m (fun x => { x with gapDue := true })
    let due := match x.tsqNote with | none => true | some t => decide (t + 4000 ≤ s.mono)
    if due then raise (mapMac s m (fun x => { x with tsqNote := some s.mono })) .macTsqOvf m else s
  else
    let (tsec, tns) := stampOf sec ns (getF s (Fld.MACn_TSLAT_TX_ADJ m))
    let o := 2 * d.ptpOff.val
    let e : TsEntry :=
      { seqId := f16 d.frame (o + 30), msgType := d.frame.getD o 0 % 16, gap := x.gapDue, ring := k - 4, desc := i, sec := tsec, ns := tns }
    setF (mapMac s m (fun x => { x with tsq := x.tsq ++ [e], gapDue := false })) (Fld.MACn_STATUS_TSQ_LEVEL m) (x.tsq.length + 1)

/-- A descriptor is completed: STATUS written, OWN cleared, the head advances, the buffer returns (R286). -/
def completeTx (s : State) (m k : Nat) (d : TxDesc) (status : Nat) : State :=
  let i := getF s (Fld.MACn_RPTR_HEAD m k)
  let lvl := getF s (Fld.MACn_STATUS_TSQ_LEVEL m)
  let s := mapMac s m (fun x => { x with tx := tabSet {} x.tx (k * 4096 + i) { d with own := false, status := status, tsqLevel := lvl } })
  let s := ringStep s m k (Fld.MACn_RPTR_HEAD m k)
  if d.post.forModule then giveNeBuf s else giveCtxBuf s d.post.ctx.val

/-- The scheduler takes the next descriptor and sends its frame, or completes it unsent (R277, R289 to R293). -/
def transmitNext (s : State) (m sec ns : Nat) : State :=
  if !domainOn s (macDomain m) || getB s (Fld.MACn_STATUS_PAUSED m) then s
  else match pickRing s m with
    | none => s
    | some (k, x) =>
      let s := setMac s m x
      match txHead? s m k with
      | none => s
      | some d =>
        let p := d.post
        if !linkUp s m then completeTx (macCount s m 19) m k d 3
        else if p.len.val < 14 || 1514 < p.len.val || areaEnd p.buf.val < p.buf.val + p.len.val then completeTx s m k d 2
        else match txTags s m k p with
          | none => completeTx (macCount s m 18) m k d 1
          | some tags =>
            let w := wireFrame p tags
            let s := startTime (sendMsg (cross s dcqMacTx) (.note "FRAME" (m :: w))) (tmTx m)
            let s := macCount (macCount s m 16) m 17 w.length
            let s := if p.tsReq then stampTx s m k (getF s (Fld.MACn_RPTR_HEAD m k)) p sec ns else s
            completeTx s m k d 0

/-- FRAME_TRANSMIT. -/
def execFrameTransmit (m : Fin 6) (sec : Fin 0x1000000000000) (ns : Fin 1000000000) (s : State) : Host.Outcome State Fault Refusal :=
  done (transmitNext s m sec.val ns.val)

/-- The four words of a timestamp entry (Table 6). -/
def tsWords (e : TsEntry) : List Nat :=
  [e.seqId + e.msgType * 2 ^ 16 + b2n e.gap * 2 ^ 20 + e.ring * 2 ^ 21, e.desc + bitsOf e.sec 32 16 * 2 ^ 16, bitsOf e.sec 0 32, e.ns]

/-! ## Low Power Idle (R302, R303) -/

/-- Energy-Efficient Ethernet is on: a floor MAC at Thrift in a USXGMII mode (Table 8). -/
def eeeOn (s : State) (m : Nat) : Bool := !isBackbone m && getF s Fld.PW_CFG_PROFILE == 2 && getF s (Fld.MACn_CFG_MODE m) == 0

/-- Fabric cycles of MACn_EEE.IDLE_US, limited to its range. -/
def idleCycles (s : State) (m : Nat) : Nat := max 10 (min 1000 (getF s (Fld.MACn_EEE_IDLE_US m))) * usCycles

/-- LPI_ENTER: the transmitter has been idle for IDLE_US. -/
def execLpiEnter (m : Fin 6) (s : State) : Host.Outcome State Fault Refusal :=
  if eeeOn s m && linkUp s m && !getB s (Fld.MACn_LINK_LPI m) && (pickRing s m).isNone && timeRan s (tmTx m) (idleCycles s m) then
    done (macCount (setF s (Fld.MACn_LINK_LPI m) 1) m 23)
  else done s

/-! ## Wake in Doze (R300, R301) -/

/-- The MACs armed at entry to Doze: the two lowest-numbered with WAKE_EN. -/
def armedMacs (s : State) : List Nat := ((List.range 6).filter (fun m => getB s (Fld.MACn_CFG_WAKE_EN m))).take 2

/-- A magic packet for the address. -/
def magicIn (l a : List Nat) : Nat → Bool
  | 0 => false
  | n + 1 => ((l.drop n).take 102 == List.replicate 6 0xFF ++ (List.replicate 16 a).flatten) || magicIn l a n

/-- Octet `i` of wake pattern `j` is compared, and equals the frame's. -/
def patternOctet (s : State) (m j : Nat) (l : List Nat) (i : Nat) : Bool :=
  let on := if i < 32 then bitOf (getF s (Fld.MACn_WMASK_LO_MASK m j)) i else bitOf (getF s (Fld.MACn_WMASK_HI_MASK m j)) (i - 32)
  !on || l[i]? == some (bitsOf (getF s (Fld.MACn_WPAT_OCTETS m j (i / 4))) (8 * (i % 4)) 8)

/-- WAKE_CAUSE of a frame: 1 magic packet, 4 to 7 a pattern, 0 none. -/
def wakeCause (s : State) (m : Nat) (l : List Nat) : Nat :=
  if !fcsOk l || !addrOk s m (l.take 6) then 0
  else if getB s (Fld.MACn_CFG_WAKE_MAGIC m) && magicIn l (macAddr s m) l.length then 1
  else match (List.range 4).find? (fun j => getB s (Fld.MACn_WCTRL_EN m j) && (List.range 64).all (patternOctet s m j l)) with
    | some j => 4 + j
    | none => 0

/-- A wake event ends Doze: source DOZE_EXIT, with what woke the module in PW_DOZE (14 R446). -/
def dozeWake (s : State) (cause : Nat) : State := assertReset (setF s Fld.PW_DOZE_LAST_EXIT cause) 2

/-- WAKE_FRAME: an armed MAC in Doze. Event and cause are recorded by the wake detector of PD2, which the exit's reset finds done (log 20). -/
def execWakeFrame (m : Fin 6) (octets : List Nat) (s : State) : Host.Outcome State Fault Refusal :=
  let c := wakeCause s m octets
  if modeOf s ≠ 4 || !getB s (Fld.MACn_STATUS_WAKE_ARMED m) || c = 0 then done s
  else done (macCount (setF (dozeWake s 1) (Fld.MACn_STATUS_WAKE_CAUSE m) c) m 22)

end Sys2Proof.Machine
end

