-- ==== Sys2Proof/Machine/Sill.lean ====
section
/-! DEFINITION. Machine/Sill.lean: the real-time counter, the key commands of Mortise, the tamper logic and the life cycle (13). -/

namespace Sys2Proof.Machine

/-! ## The real-time counter (R404 to R412) -/

/-- Bits [31:0] and [47:32] of RTC_SET. -/
def rtcSet (s : State) : Nat := getF s Fld.RTC_SET_LO_SET_LO + 2 ^ 32 * getF s Fld.RTC_SET_HI_SET_HI
/-- RTC_ALARM. -/
def rtcAlarm (s : State) : Nat := getF s Fld.RTC_ALARM_LO_ALARM_LO + 2 ^ 32 * getF s Fld.RTC_ALARM_HI_ALARM_HI

/-- Key of a requester's shadow of register group `g` (2: RTC, 3: the time counter). -/
def shadowKey (g : Nat) (q : Requester) : Nat := g * 16 + q.num

/-- A read of RTC_TICK_LO (R405). -/
def readTickLo (s : State) (q : Requester) : State :=
  setReply { s with shadows := tabPut s.shadows (shadowKey 2 q) [s.rtc.count] } [bitsOf s.rtc.count 0 32]

/-- A read of RTC_TICK_HI: from the open shadow, which it closes, else live (R405). -/
def readTickHi (s : State) (q : Requester) : State :=
  match tabGet? s.shadows (shadowKey 2 q) with
  | some (c :: _) => setReply { s with shadows := tabDel s.shadows (shadowKey 2 q) } [bitsOf c 32 16]
  | _ => setReply s [bitsOf s.rtc.count 32 16]

/-- RTC_TICK_LO_READ. -/
def execRtcTickLoRead (q : Requester) (s : State) : Host.Outcome State Fault Refusal := done (readTickLo s q)
/-- RTC_TICK_HI_READ. -/
def execRtcTickHiRead (q : Requester) (s : State) : Host.Outcome State Fault Refusal := done (readTickHi s q)

/-- A write of 1 to RTC_CTRL.LOAD captures RTC_SET (R406); written while a load is pending, it replaces that, which still counts should it be applied in
this fabric cycle (00 R8). -/
def rtcCapture (s : State) : State :=
  let s := if s.rtc.pendLoad.isSome && !askedAgain s Fld.RTC_CTRL_LOAD then
    { askAgain s Fld.RTC_CTRL_LOAD with rtc := { s.rtc with pendPrev := s.rtc.pendLoad } } else s
  setF (startTime { s with rtc := { s.rtc with pendLoad := some (rtcSet s) } } tmLoad) Fld.RTC_CTRL_LOAD 1

/-- RTC_LOAD. -/
def execRtcLoad (s : State) : Host.Outcome State Fault Refusal := done (rtcCapture s)

/-- RTC_LOAD_APPLY: the first tick edge at least 1 µs after the write, at which the counter takes the pending value (R406, R407). -/
def execRtcLoadApply (s : State) : Host.Outcome State Fault Refusal :=
  match s.rtc.pendLoad with
  | none => done s
  | some v =>
    if askedAgain s Fld.RTC_CTRL_LOAD then
      done (incF { takeAsk s Fld.RTC_CTRL_LOAD with rtc := { s.rtc with count := (s.rtc.pendPrev.getD v) % 2 ^ 48, frac := 0 } } Fld.RTC_STAT_LOADS)
    else if !timeRan s tmLoad usCycles then done s
    else done (incF (setF { s with rtc := { s.rtc with count := v % 2 ^ 48, frac := 0, pendLoad := none } } Fld.RTC_CTRL_LOAD 0) Fld.RTC_STAT_LOADS)

/-- A wake event or an alarm with ALARM_WAKE acts by mode (R411): `cause` is its PW_DOZE code. -/
def wakeEvent (s : State) (cause : Nat) : State :=
  match modeOf s with
  | 4 => dozeWake s cause
  | 5 => latchF s Fld.RTC_WAKE_MISSED 1
  | _ => incF s Fld.RTC_STAT_WAKES

/-- RTC_ALARM_FIRE (R410). -/
def execRtcAlarmFire (s : State) : Host.Outcome State Fault Refusal :=
  if getB s Fld.RTC_CTRL_ALARM_ARM && rtcAlarm s ≤ s.rtc.count then
    let s := setF (latchF s Fld.RTC_CTRL_ALARM 1) Fld.RTC_CTRL_ALARM_ARM 0
    done (if getB s Fld.RTC_CTRL_ALARM_WAKE then wakeEvent s 3 else s)
  else done s

/-- RTC_WAKE_EVENT (R411): at a tick whose count is a multiple of PERIOD × 32,768; a PERIOD of 0 is taken as 1. -/
def execRtcWakeEvent (s : State) : Host.Outcome State Fault Refusal :=
  if getB s Fld.RTC_WAKE_EN && s.rtc.count % (max 1 (getF s Fld.RTC_WAKE_PERIOD) * 32768) = 0 then done (wakeEvent s 2) else done s

/-- RTC_DRIFT_MEASURE (R409): once every 100 s, none while main power is absent. -/
def execRtcDriftMeasure (ppm : BitVec 24) (s : State) : Host.Outcome State Fault Refusal :=
  if !getB s Fld.PW_VMAIN_IN_RANGE || !timeRan s tmDrift (100000 * msCycles) then done s
  else
    let ppm := if forcedOnce s .rtcDrift 0 then ppm + 20000 else ppm
    let s := if forcedOnce s .rtcDrift 0 then useForce s else s
    let s := setFs s [(Fld.RTC_DRIFT_PPM, ppm.toNat), (Fld.RTC_DRIFT_AGAINST_PTP, getF s Fld.NE_PTP_STAT_LOCKED), (Fld.RTC_DRIFT_FRESH, 1)]
    let s := startTime { s with rtc := { s.rtc with driftAt := some s.mono } } tmDrift
    let due := match s.rtc.driftFault with | none => true | some t => decide (t + 14400000 ≤ s.mono)
    if (10000 < ppm.toInt || ppm.toInt < -10000) && due then
      done (raise { s with rtc := { s.rtc with driftFault := some s.mono } } .rtcDrift)
    else done s

/-! ## Key commands (R419 to R422) -/

/-- Words of the requester's KS_BUF. -/
def ksBuf (s : State) (q : Nat) : List Nat := (List.range 32).map (fun w => getF s ((Fld.KS_BUF_DATA w).bank q))
/-- Writes octets from KS_BUF octet 0 on: 49 of them. -/
def putKsBuf (s : State) (q : Nat) (octets : List Nat) : State :=
  (List.range 13).foldl (fun s w =>
    let o (i : Nat) : Nat := octets.getD (4 * w + i) 0 % 256
    let old := getF s ((Fld.KS_BUF_DATA w).bank q)
    let top := if w = 12 then old / 256 * 256 else o 1 * 256 + o 2 * 65536 + o 3 * 16777216
    setF s ((Fld.KS_BUF_DATA w).bank q) (o 0 + top)) s

/-- A command is issued: BUSY until it completes (R419). SE takes no second one of a requester whose BUSY is set, unless that one ends in the same
fabric cycle (00 R8). -/
def keyIssue (s : State) (q : Nat) (op key : Nat) : State :=
  let s := setFs s [(Fld.KS_CMD_OP.bank q, op), (Fld.KS_CMD_KEY.bank q, key)]
  if getB s (Fld.KS_CMD_BUSY.bank q) then askAgain s (Fld.KS_CMD_GO.bank q)
  else
    let p := getF s (Fld.KS_SEL_PAIR.bank q)
    if op = 0 || 7 < op then setFs s [(Fld.KS_CMD_RESULT.bank q, 5), (Fld.KS_CMD_BUSY.bank q, 0), (Fld.KS_CMD_GO.bank q, 0)]
    else
      let s := setFs s [(Fld.KS_CMD_BUSY.bank q, 1), (Fld.KS_CMD_GO.bank q, 1)]
      mapSe s (fun e => { e with queue := e.queue ++ [{ req := q, op := op, pair := p, key := key }] })

/-- IMPORT. -/
def execKeyImport (q : Requester) (key : Fin 2) (s : State) : Host.Outcome State Fault Refusal := done (keyIssue s q.num 1 key.val)
/-- GENERATE. -/
def execGenerate (q : Requester) (key : Fin 2) (s : State) : Host.Outcome State Fault Refusal := done (keyIssue s q.num 2 key.val)
/-- ACTIVATE. -/
def execActivate (q : Requester) (key : Fin 2) (s : State) : Host.Outcome State Fault Refusal := done (keyIssue s q.num 3 key.val)
/-- KEY_CLEAR. -/
def execKeyClear (q : Requester) (key : Fin 2) (s : State) : Host.Outcome State Fault Refusal := done (keyIssue s q.num 4 key.val)
/-- CLEAR_PAIR. -/
def execClearPair (q : Requester) (s : State) : Host.Outcome State Fault Refusal := done (keyIssue s q.num 5 0)
/-- READ_PUBLIC. -/
def execReadPublic (q : Requester) (key : Fin 2) (s : State) : Host.Outcome State Fault Refusal := done (keyIssue s q.num 6 key.val)
/-- READ_ID. -/
def execReadId (q : Requester) (s : State) : Host.Outcome State Fault Refusal := done (keyIssue s q.num 7 0)

/-- The pair with key `k` holding new material. -/
def SlotPair.withKey (x : SlotPair) (k : Nat) (m : Option Nat) (odd : Bool) (kcv : Nat) : SlotPair :=
  if k = 0 then { x with key0 := m, yOdd0 := odd, kcv0 := kcv } else { x with key1 := m, yOdd1 := odd, kcv1 := kcv }

/-- The pair holds no key. -/
def SlotPair.empty (x : SlotPair) : Bool := x.key0.isNone && x.key1.isNone

/-- RESULT of an IMPORT or GENERATE before its material: 1 the key is the active one of two, 2 TYPE, POLICY or BINDING (R420). -/
def entryRefusal (x : SlotPair) (k ty binding policy maxTy : Nat) : Option Nat :=
  if ty = 0 || maxTy < ty || 32 ≤ policy then some 2
  else if !x.empty && (x.ty ≠ ty || x.binding ≠ binding || x.policy ≠ policy) then some 2
  else if x.key0.isSome && x.key1.isSome && x.active = k then some 1
  else none

/-- New material enters key `k`; in an empty pair it is the active key. -/
def enterKey (x : SlotPair) (k ty binding policy m kcv : Nat) (odd : Bool) : SlotPair :=
  let base : SlotPair := if x.empty then { ty := ty, binding := binding, policy := policy, active := k } else x
  base.withKey k (some m) odd kcv

/-- The key under which an IMPORT blob is encrypted (R420): derived from Z, the x coordinate of ECDH between the identity key and the ephemeral key, which
is not computed (log 10). -/
def importKey (s : State) (ephemeral : List Nat) (pair key : Nat) : List Nat :=
  kdf (octetsBe 48 (Config.crypto 51 (identityScalar s :: ephemeral))) "MORTISE-IMPORT" (serialOctets s ++ [pair, key]) 256

/-- SE may use the root secret: FUSE is valid (14 R467), and the state is not Scrapped (R434). -/
def rootOk (s : State) : Bool := getB s Fld.RST_LOAD_FUSE_VALID && getF s Fld.LC_STATE_STATE != 4

/-- IMPORT at its end (R420). RESULT while SE refuses the root secret is not stated (DESIGN CHOICE, log 118: 1). -/
def importEnd (s : State) (c : KeyCmd) : State × Nat :=
  let b := ksBuf s c.req
  let x := slotAt s c.pair
  let ty := bitsOf (b.getD 0 0) 0 3
  let binding := bitsOf (b.getD 0 0) 16 12
  let policy := bitsOf (b.getD 1 0) 0 16
  match entryRefusal x c.key ty binding policy 5 with
  | some r => (s, r)
  | none =>
    let os := b.flatMap (octetsLe 4)
    let key := importKey s ((os.drop 12).take 49) c.pair c.key
    let nonce := List.replicate 12 0
    let text := (os.drop 64).take 48
    let plain := gcmEncrypt key nonce text
    let n := materialLen ty
    if !rootOk s then (s, 1)
    else if gcmTag key nonce (os.take 61 ++ [c.pair, c.key]) text ≠ os.drop 112 || (plain.drop n).any (· ≠ 0) then (s, 4)
    else
      let m := beOctets (plain.take n)
      let odd := Config.crypto 23 [ty, m] % 2 == 1
      let kcv := checkValue ty m odd
      if kcv ≠ bitsOf (b.getD 2 0) 0 24 then (s, 3) else (setSlot s c.pair (enterKey x c.key ty binding policy m kcv odd), 0)

/-- GENERATE at its end. -/
def generateEnd (s : State) (c : KeyCmd) : State × Nat :=
  let b := ksBuf s c.req
  let x := slotAt s c.pair
  let ty := bitsOf (b.getD 0 0) 0 3
  let binding := bitsOf (b.getD 0 0) 16 12
  let policy := bitsOf (b.getD 1 0) 0 16
  match entryRefusal x c.key ty binding policy 3 with
  | some r => (s, r)
  | none =>
    let (m, s) := freshFree s
    (setSlot s c.pair (enterKey x c.key ty binding policy m (checkValue ty m false) false), 0)

/-- The security contexts derived from a pair are dropped (R421). -/
def dropOscore (s : State) (pair : Nat) : State :=
  { s with net := { s.net with osc := s.net.osc.filter (fun o => getF s (Fld.NE_CTX_CFG_OSCORE_SLOT o.ctx) != pair) } }

/-- ACTIVATE at its end (R421). -/
def activateEnd (s : State) (c : KeyCmd) : State × Nat :=
  let x := slotAt s c.pair
  if (x.key c.key).isNone then (s, 1)
  else if (if c.key = 0 then x.kcv0 else x.kcv1) ≠ getF s (Fld.KS_EXPECT_CHECK.bank c.req) then (s, 3)
  else
    let s := setSlot s c.pair { x with active := c.key, gen := (x.gen + 1) % 4096 }
    (if bitOf x.policy 4 then dropOscore s c.pair else s, 0)

/-- CLEAR at its end (R422). -/
def clearEnd (s : State) (c : KeyCmd) : State × Nat :=
  let x := slotAt s c.pair
  if x.active = c.key && (x.key c.key).isSome && (x.key (1 - c.key)).isSome then (s, 1)
  else (setSlot s c.pair (x.withKey c.key none false 0), 0)

/-- The compressed point of a key: of a public key from its pair, of a private key its public point. -/
def publicPoint (x : SlotPair) (k : Nat) : List Nat :=
  let m := (x.key k).getD 0
  if x.ty = 4 || x.ty = 5 then compressed (materialLen x.ty) (if k = 0 then x.yOdd0 else x.yOdd1) m else privatePoint x.ty m

/-- READ_PUBLIC at its end. -/
def readPublicEnd (s : State) (c : KeyCmd) : State × Nat :=
  let x := slotAt s c.pair
  if (x.key c.key).isNone then (s, 1) else if x.ty = 1 then (s, 2) else (putKsBuf s c.req (publicPoint x c.key), 0)

/-- READ_ID at its end: the identity public key (R416). -/
def readIdEnd (s : State) (c : KeyCmd) : State × Nat :=
  if rootOk s then (putKsBuf s c.req (privatePoint 3 (identityScalar s)), 0) else (s, 1)

/-- A command's effect and RESULT as it completes; in Blank and Scrapped every one is refused (R433). -/
def keyEffect (s : State) (c : KeyCmd) : State × Nat :=
  let lc := getF s Fld.LC_STATE_STATE
  if lc = 0 || lc = 4 then (s, 1)
  else match c.op with
    | 1 => importEnd s c | 2 => generateEnd s c | 3 => activateEnd s c | 4 => clearEnd s c
    | 5 => (setSlot s c.pair {}, 0) | 6 => readPublicEnd s c | 7 => readIdEnd s c | _ => (s, 5)

/-- RESULT written, BUSY and GO cleared. -/
def keyFinish (s : State) (c : KeyCmd) (r : Nat) : State :=
  setFs s [(Fld.KS_CMD_RESULT.bank c.req, r), (Fld.KS_CMD_BUSY.bank c.req, 0), (Fld.KS_CMD_GO.bank c.req, 0)]

/-- A GO that was written in the fabric cycle of the completion starts its command (00 R8). -/
def keyAgain (s : State) (q : Nat) : State :=
  if askedAgain s (Fld.KS_CMD_GO.bank q) then
    keyIssue (takeAsk s (Fld.KS_CMD_GO.bank q)) q (getF s (Fld.KS_CMD_OP.bank q)) (getF s (Fld.KS_CMD_KEY.bank q))
  else s

/-- SE runs: PD13 is powered and the secure bank is not being wiped (R428, 12 R384). -/
def seRuns (s : State) : Bool := engineRuns s 13 && !bitOf (getF s Fld.MEM_STAT_WIPING) 2

/-- KEY_COMMAND_DONE: the command in progress completes. -/
def execKeyCommandDone (s : State) : Host.Outcome State Fault Refusal :=
  match s.se.queue with
  | [] => done s
  | c :: t =>
    if !seRuns s then done s
    else
      let (s, r) := keyEffect (mapSe s (fun e => { e with queue := t })) c
      done (keyAgain (keyFinish s c r) c.req)

/-! ## The Kerf line (R428, R429) -/

/-- The Kerf line is asserted: every pair empty, key commands ended with RESULT 6, session keys gone, the secure bank wiped. -/
def kerf (s : State) : State :=
  let s := s.se.queue.foldl (fun s c => keyFinish s c 6) s
  let s := mapSe (clearMortise s) (fun e => { e with queue := [] })
  incSatF (latchF (wipeSecure s) Fld.TMP_STAT_KERF 1) Fld.TMP_STAT_KERF_COUNT

/-- KERF_ASSERT. -/
def execKerfAssert (s : State) : Host.Outcome State Fault Refusal := done (kerf s)

/-- SECURE_BANK_WIPE_END, 131.072 µs after the wipe began. -/
def execSecureBankWipeEnd (s : State) : Host.Outcome State Fault Refusal :=
  if timeRan s tmWipe 32768 then done (setF s Fld.MEM_STAT_WIPING (setBit (getF s Fld.MEM_STAT_WIPING) 2 false)) else done s

/-! ## Tamper (R423 to R427) -/

/-- ACTION as the life-cycle state carries it out: 2 and 3 as 1 in Blank and Service (R425). -/
def tamperAction (s : State) (n : Nat) : Nat :=
  let a := getF s (Fld.TMP_SRC_ACTION n)
  let lc := getF s Fld.LC_STATE_STATE
  if (lc = 0 || lc = 3) && 2 ≤ a then 1 else a

/-- TMP_MON as it stands: the rail voltage and the temperature are measured by no command of the table, so they are free values (log 4). -/
def tmpMonWord (s : State) : Nat × State :=
  let (v, s) := freshFree s
  let (t, s) := freshFree s
  (v % 2 ^ 12 + getF s Fld.TMP_MON_ON_VSILL * 2 ^ 12 + t % 2 ^ 8 * 2 ^ 16, s)

/-- An entry of the tamper log (R427), posted to the event log too while main power is present. -/
def tamperLog (s : State) (n : Nat) (asserted : Bool) : State :=
  let i := getF s Fld.TMP_LOG_STAT_NEXT
  let main := getB s Fld.PW_VMAIN_IN_RANGE
  let (mon, s) := tmpMonWord s
  let w := [n + b2n asserted * 16 + b2n main * 32 + getF s Fld.LC_STATE_STATE * 256, bitsOf s.rtc.count 0 32, bitsOf s.rtc.count 32 16, mon]
  let s := if (tabGet? s.se.log i).isSome then incSatF s Fld.TMP_LOG_STAT_OVERWRITTEN else s
  let s := setF (mapSe s (fun e => { e with log := tabPut e.log i w })) Fld.TMP_LOG_STAT_NEXT ((i + 1) % 32)
  if main then logEvent s (.note "TAMPER" w) else s

/-- What a source's event does by its ACTION `a` but for the fault and the Kerf line (R425 Table 7). -/
def tamperMark (s : State) (n a : Nat) : State :=
  let s := tamperLog (latchF s Fld.TMP_STAT_LATCHED (2 ^ n)) n (2 ≤ a)
  if a = 3 then setF (mapSe s (fun e => { e with by3 := setBit e.by3 n true })) Fld.PW_MODE_SAFE_TAMPER 1 else s

/-- One source's event but for the Kerf line. -/
def tamperOne (s : State) (n : Nat) : State :=
  let a := tamperAction s n
  let s := tamperMark s n a
  if 1 ≤ a then raise s .tmpSource n else s

/-- The source whose reading it is (Table 6). -/
def TampRead.source : TampRead → Nat
  | .loop l _ => l.val | .switch k _ => 4 + k.val | .rail _ => 6 | .temp _ => 7 | .crystal _ => 8

/-- A reading meets its source's condition (Table 6, R424): COUNT failing samples; the tamper LEVEL for DEBOUNCE ticks; 32 ticks outside 2.0 V to 3.9 V
while the Sill domain draws from VSILL; two temperatures outside −50 °C to 115 °C; a missing or an early crystal edge. -/
def readMet (s : State) (r : TampRead) : Bool :=
  match r with
  | .loop l reads =>
    let k := max 1 (getF s (Fld.TMP_SRC_COUNT l.val))
    let sent := (s.se.loops.getD l.val {}).sent
    decide (k ≤ reads.length) && decide (k ≤ sent.length) && ((sent.zip reads).take k).all (fun x => sampleFails x.1 x.2)
  | .switch j levels =>
    let k := max 1 (getF s (Fld.TMP_SRC_DEBOUNCE (4 + j.val)))
    decide (k ≤ levels.length) && (levels.take k).all (fun b => b == getB s (Fld.TMP_SRC_LEVEL (4 + j.val)))
  | .rail mv => getB s Fld.TMP_MON_ON_VSILL && decide (32 ≤ mv.length) && (mv.take 32).all (fun v => decide (v.val < 2000) || decide (3900 < v.val))
  | .temp ts => decide (2 ≤ ts.length) && (ts.take 2).all (fun t => decide (t < -50) || decide (115 < t))
  | .crystal us => decide (us < 15) || decide (250 ≤ us)

/-- The readings given bear out source `n`'s condition; a source with none given was judged by the Sill logic already. A Force fails the condition
(15 Table 1). -/
def sourceMet (s : State) (reads : List TampRead) (n : Nat) : Bool :=
  forced s .tmpSource n || match reads.find? (fun r => r.source == n) with
  | none => true
  | some r => readMet s r

/-- The sources in use whose conditions are met in one tick, in ascending order (15 R480); together they assert the Kerf line once. -/
def tamperEvent (s : State) (met : List (Fin 9)) (reads : List TampRead) : State :=
  let sources := ((List.finRange 9).filter (fun n => met.contains n)).filter (fun n => sourceMet s reads n.val)
  let ns := (sources.map (fun n => n.val)).filter (fun n => getB s (Fld.TMP_SRC_EN n))
  let s := setF s Fld.TMP_LIVE_STATE (sources.foldl (fun v n => setBit v n.val true) (getF s Fld.TMP_LIVE_STATE))
  let cut := ns.any (fun n => decide (2 ≤ tamperAction s n))
  let s := ns.foldl tamperOne s
  if cut then kerf s else s

/-- TAMPER_EVENT. -/
def execTamperEvent (t : TampTick) (s : State) : Host.Outcome State Fault Refusal :=
  done (tamperEvent s t.sources t.reads)

/-- TAMPER_CONDITION_CLEAR. -/
def execTamperConditionClear (source : Fin 9) (s : State) : Host.Outcome State Fault Refusal :=
  done (setF s Fld.TMP_LIVE_STATE (setBit (getF s Fld.TMP_LIVE_STATE) source.val false))

/-- The TAMPER Safe cause clears with the LATCHED bits that set it (14 R444). -/
def tamperCause (s : State) (latched : Nat) : State :=
  let s := setF s Fld.TMP_STAT_LATCHED latched
  let b := s.se.by3 &&& latched
  setB (mapSe s (fun e => { e with by3 := b })) Fld.PW_MODE_SAFE_TAMPER (b ≠ 0 && getB s Fld.PW_MODE_SAFE_TAMPER)

/-- TMP_CMD's fields after a GO. -/
def tmpFields (s : State) (op result : Nat) : State :=
  setFs s [(Fld.TMP_CMD_OP, op), (Fld.TMP_CMD_RESULT, result), (Fld.TMP_CMD_BUSY, 0), (Fld.TMP_CMD_GO, 0)]

/-- A command through TMP_CMD (R437). -/
def tmpCmd (s : State) (op : Nat) : State :=
  match op with
  | 1 => kerf (tmpFields s 1 0)
  | 7 =>
    if getF s Fld.LC_STATE_STATE = 2 then tmpFields s 7 1
    else setFs (mapSe (tmpFields s 7 0) (fun e => { e with log := [] })) [(Fld.TMP_LOG_STAT_NEXT, 0), (Fld.TMP_LOG_STAT_OVERWRITTEN, 0)]
  | _ => tmpFields s op 1

/-- TMP_KERF. -/
def execTmpKerf (s : State) : Host.Outcome State Fault Refusal := done (tmpCmd s 1)
/-- TMP_CLEAR_LOG. -/
def execTmpClearLog (s : State) : Host.Outcome State Fault Refusal := done (tmpCmd s 7)

/-- A write to TMP_LOG_SEL copies the chosen entry, zero where none has been written. -/
def tmpLogSel (s : State) (i : Nat) : State :=
  let w := tabGet [] s.se.log i
  (List.range 4).foldl (fun s k => setF s (Fld.TMP_LOG_W_WORD k) (w.getD k 0)) (setF s Fld.TMP_LOG_SEL_ENTRY i)

/-- TMP_LOG_SEL_WRITE. -/
def execTmpLogSelWrite (entry : Fin 32) (s : State) : Host.Outcome State Fault Refusal := done (tmpLogSel s entry.val)

/-! ## Life cycle (R430 to R434) -/

/-- LC_CMD's fields after a GO. -/
def lcFields (s : State) (op target result : Nat) : State :=
  setFs s [(Fld.LC_CMD_OP, op), (Fld.LC_CMD_TARGET, target), (Fld.LC_CMD_RESULT, result), (Fld.LC_CMD_BUSY, 0), (Fld.LC_CMD_GO, 0)]

/-- A fresh nonce of 32 octets from the entropy source (log 10). -/
def freshNonce (s : State) : State :=
  let s := (List.range 8).foldl (fun s w =>
    let (v, s) := freshFree s
    setF s (Fld.LC_NONCE_NONCE w) v) s
  startTime (mapSe s (fun e => { e with nonceOk := true })) tmNonce

/-- What the owner signs (R432). -/
def lcMessage (s : State) (target op : Nat) : List Nat :=
  ascii "SC16-LC" ++ (serialOctets s).reverse ++ (List.range 8).flatMap (fun w => octetsLe 4 (getF s (Fld.LC_NONCE_NONCE w))) ++ [target, op]

/-- Words of LC_SIG. -/
def lcSig (s : State) : List Nat := (List.range 24).map (fun w => getF s (Fld.LC_SIG_DATA w))

/-- The owner signature verifies (R432): the curve's arithmetic is not computed (log 10). -/
def sigOk (s : State) (target op : Nat) : Bool :=
  Config.crypto 28 (s.se.ownerKey ++ lcSig s ++ lcMessage s target op) % 2 == 1

/-- The nonce is used. -/
def useNonce (s : State) : State := mapSe s (fun e => { e with nonceOk := false })

/-- RESULT of what needs a signature: 4 no valid nonce, 3 the signature fails; none: it passes. The nonce is used either way. -/
def authorise (s : State) (target op : Nat) : State × Option Nat :=
  if !s.se.nonceOk then (s, some 4) else (useNonce s, if sigOk s target op then none else some 3)

/-- The condition of a transition to Deployed (Table 9). -/
def deployReady (s : State) : Bool :=
  getB s Fld.MEM_NOR_STAT_FUSE0_VALID && getB s Fld.MEM_NOR_STAT_FUSE1_VALID
    && (List.range 9).all (fun n => !(decide (2 ≤ getF s (Fld.TMP_SRC_ACTION n)) && bitOf (getF s Fld.TMP_LIVE_STATE) n))

/-- The state after the transition: STATE, fuses (a thermometer code, so none goes back), SUSPENDED, ROOT, the debug path; every transition wipes the secure bank (R431, R433). -/
def enterLife (s : State) (t : Nat) : State :=
  let s := mapSe s (fun e => { e with fused := if t = 3 then e.fused else max e.fused t })
  let s := setFs s [(Fld.LC_STATE_STATE, t), (Fld.KS_STAT_SUSPENDED, b2n (t = 3)), (Fld.LC_STATE_DEBUG_OPEN, b2n (t = 0 || t = 1 || t = 3))]
  let s := if t = 3 then incSatF s Fld.LC_STATE_SERVICE_ENTRIES else s
  let s := if t = 4 then setFs (kerf s) [(Fld.KS_STAT_ROOT, 0), (Fld.PW_MODE_SAFE_SCRAPPED, 1)] else s
  wipeSecure s

/-- LC_CMD TRANSITION (Table 9). -/
def lcTransition (s : State) (t : Nat) : State :=
  let f (s : State) (r : Nat) : State := lcFields s 2 t r
  let signed (s : State) (ready : Bool) : State :=
    match authorise s t 2 with
    | (s, some r) => f s r
    | (s, none) => if ready then enterLife (f s 0) t else f s 2
  match getF s Fld.LC_STATE_STATE, t with
  | 0, 1 => enterLife (clearMortise (mapSe (f s 0) (fun e => { e with ownerKey := (lcSig s).take 13 }))) 1
  | 0, 4 => enterLife (f s 0) 4
  | 1, 2 => signed s (deployReady s)
  | 3, 2 => signed s (deployReady s)
  | 2, 3 => signed s true
  | 1, 4 => signed s true
  | 2, 4 => signed s true
  | 3, 4 => signed s true
  | _, _ => f s 1

/-- LC_CMD DEBUG_UNLOCK: in Deployed. -/
def lcUnlock (s : State) : State :=
  let t := getF s Fld.LC_CMD_TARGET
  if getF s Fld.LC_STATE_STATE ≠ 2 then lcFields s 3 t 1
  else match authorise s t 3 with
    | (s, some r) => lcFields s 3 t r
    | (s, none) => setF (lcFields s 3 t 0) Fld.LC_STATE_DEBUG_OPEN 1

/-- A command through LC_CMD. -/
def lcCmd (s : State) (op target : Nat) : State :=
  match op with
  | 1 => freshNonce (lcFields s 1 target 0)
  | 2 => lcTransition s target
  | 3 => lcUnlock (setF s Fld.LC_CMD_TARGET target)
  | _ => lcFields s op target 1

/-- CHALLENGE. -/
def execChallenge (s : State) : Host.Outcome State Fault Refusal := done (lcCmd s 1 (getF s Fld.LC_CMD_TARGET))
/-- TRANSITION. -/
def execTransition (target : Fin 8) (s : State) : Host.Outcome State Fault Refusal := done (lcCmd s 2 target.val)
/-- DEBUG_UNLOCK. -/
def execDebugUnlock (s : State) : Host.Outcome State Fault Refusal := done (lcCmd s 3 (getF s Fld.LC_CMD_TARGET))
/-- NONCE_LAPSE, 600 s after CHALLENGE. -/
def execNonceLapse (s : State) : Host.Outcome State Fault Refusal := if timeRan s tmNonce (600000 * msCycles) then done (useNonce s) else done s

end Sys2Proof.Machine
end

