-- ==== Sys2Proof/Machine/Net.lean ====
section
/-! DEFINITION. Machine/Net.lean: the network engines (10): IP views, BACnet/IP, CoAP with the Usras profile and OSCORE, change of value, PTP and the
time counter. -/

namespace Sys2Proof.Machine

/-! ## Contexts and publications -/

/-- Applies a change to the network engines' structures. -/
def mapNet (s : State) (f : NetState → NetState) : State := { s with net := f s.net }

/-- The context whose queue an engine serves next, and the deficit that queue then has: deficit round robin over the contexts with a datagram waiting, with
a quantum of 1,536 octets (R331). -/
def nextTurn (s : State) (ne : Nat) : Option (Nat × Nat) :=
  let q (c : Nat) : List Waiting := tabGet [] s.net.reqs (c * 2 + ne)
  let d (c : Nat) : Nat := tabGet 0 s.net.deficit (c * 2 + ne)
  let t := tabGet 0 s.net.turn ne
  let stay := match (q t).head? with | some r => decide (r.len ≤ d t) | none => false
  if stay then some (t, d t)
  else (((List.range 64).map (fun i => (t + 1 + i) % 64)).find? (fun c => !(q c).isEmpty)).map (fun c => (c, d c + 1536))

/-- A datagram of the context can be served now: it is the context's turn, or none of its datagrams waits (log 116). -/
def mayServe (s : State) (c : Nat) : Bool :=
  (tabGet [] s.net.reqs (c * 2 + ctxNe s c)).isEmpty || (nextTurn s (ctxNe s c)).map (fun cd => cd.1) == some c

/-- A datagram of a context's request queue is served (R331): a reply leaves on its VID and MAC (02 R69). -/
def served (s : State) (c : Nat) : State :=
  let k := c * 2 + ctxNe s c
  match tabGet [] s.net.reqs k with
  | [] => mapNet s (fun n => { n with via := none })
  | r :: q =>
    let d := ((nextTurn s (ctxNe s c)).map (fun cd => cd.2)).getD 0
    mapNet s (fun n => { n with reqs := tabSet [] n.reqs k q, via := some r, turn := tabPut n.turn (ctxNe s c) c,
                                deficit := tabSet 0 n.deficit k (if q.isEmpty then 0 else d - r.len) })

/-- The next hop of a datagram to a client, whose address is written with its port below it: the client itself on the context's IPv4 subnet and over IPv6,
else the context's gateway, 0 for none (R307). -/
def nextHop (s : State) (c client : Nat) : Nat :=
  let a := client / 65536
  let v4 := a % 2 ^ 32
  let sub (x : Nat) : Nat := x / 2 ^ (32 - getF s (Fld.NE_CTX_CFG_PREFIX c))
  if a / 2 ^ 32 ≠ 0xFFFF || sub v4 = sub (getF s (Fld.NE_CTX_V4_ADDR c)) then a else getF s (Fld.NE_CTX_V4GW_GATEWAY c)

/-- Route of an unsolicited message: TX_VID of its context, on the MACs of that VID (02 R69). -/
def ownVia (s : State) (c : Nat) : Route := { vid := getF s (Fld.PT_CTX_TX_VID c) }

/-- Route of a reply: VID and MAC on which the datagram being served arrived (02 R69); one that no FRAME_RECEIVE queued has none, and its reply goes out
as an unsolicited message does (log 116). -/
def replyVia (s : State) (c : Nat) : Route :=
  match s.net.via with | some w => { vid := w.vid, mac := some w.mac } | none => ownVia s c

/-- A route to a client. -/
def Route.to (r : Route) (s : State) (c client : Nat) : Route := { r with hop := some (nextHop s c client) }

/-- A route as fields of a record: VID, the MAC's number plus 1, 0 for none, and the next hop when it is known. -/
def viaArgs (r : Route) : List Nat := [r.vid, match r.mac with | some m => m + 1 | none => 0] ++ (match r.hop with | some h => [h] | none => [])

/-- The network engines run: PD4 is powered. -/
def neRuns (s : State) : Bool := engineRuns s 4

/-- What BACnet and CoAP requests do first: the datagram leaves its queue; in Safe mode it is discarded and counted (R332). -/
def onRequest (s : State) (c : Nat) (f : State → State) : State :=
  if !neRuns s || !getB s (Fld.PT_CTX_VALID c) || !mayServe s c then s
  else
    let s := served s c
    if modeOf s = 3 then incSatF s Fld.NE_DISC2_SAFE_DISC else f s

/-- BACnet is served in the context. -/
def onBacnet (s : State) (c : Nat) (f : State → State) : State :=
  onRequest s c (fun s => if getB s (Fld.NE_CTX_CFG_BAC_EN c) then f s else s)

/-- Definitions published in a context (R309): DIR 0 and 2. -/
def published (s : State) (c : Nat) : List ExportDef := (s.net.defs.map (fun kd => kd.2)).filter (fun d => d.ctx == c && d.dir != 1)

/-- BACnet objects published in a context. -/
def bacObjects (s : State) (c : Nat) : List ExportDef := (published s c).filter (fun d => !d.usras)
/-- The object of the view with an identifier. -/
def bacObject? (s : State) (c obj : Nat) : Option ExportDef := (bacObjects s c).find? (fun d => d.object == obj)
/-- The published Usras resource at a path. -/
def usras? (s : State) (c cls item inst : Nat) : Option ExportDef :=
  (published s c).find? (fun d => d.usras && d.cls == cls && d.item == item && d.inst == inst)

/-- The Device object's identifier: type 8. -/
def deviceId (s : State) (c : Nat) : Nat := 8 * 2 ^ 22 + getF s (Fld.NE_CTX_DEV_INSTANCE c)

/-- A BACnet answer. -/
def bacSend (s : State) (c client invoke : Nat) (what : String) (vals : List PropVal) : State :=
  sendMsg s (.bacnet c client ((replyVia s c).to s c client) invoke what vals)
/-- A BACnet notification. -/
def bacNotify (s : State) (c client pid : Nat) (what : String) (vals : List PropVal) : State :=
  sendMsg s (.bacnet c client ((ownVia s c).to s c client) pid what vals)

/-! ## IP (R308) -/

/-- ARP_REQUEST: answered for the context's IPv4 address. -/
def execArpRequest (ctx : Fin 64) (target : Word) (s : State) : Host.Outcome State Fault Refusal :=
  if neRuns s && getB s (Fld.PT_CTX_VALID ctx) && mayServe s ctx && getB s (Fld.NE_CTX_CFG_V4_EN ctx)
      && getF s (Fld.NE_CTX_V4_ADDR ctx) = target.toNat then
    let s := served s ctx
    done (sendMsg s (.note "ARP_REPLY" (ctx.val :: target.toNat :: viaArgs (replyVia s ctx))))
  else done s

/-- The context's interface identifier. -/
def ctxIid (s : State) (c : Nat) : Nat := getF s (Fld.NE_CTX_V6IID_HI_IID c) * 2 ^ 32 + getF s (Fld.NE_CTX_V6IID_LO_IID c)

/-- The context's IPv6 addresses (R307): the global one and the link-local one. -/
def ctxV6 (s : State) (c : Nat) : List Nat :=
  if getB s (Fld.NE_CTX_CFG_V6_EN c) then
    [(getF s (Fld.NE_CTX_V6PFX_HI_PREFIX c) * 2 ^ 32 + getF s (Fld.NE_CTX_V6PFX_LO_PREFIX c)) * 2 ^ 64 + ctxIid s c, 0xFE80 * 2 ^ 112 + ctxIid s c]
  else []

/-- NEIGHBOR_SOLICIT: a neighbour solicitation for one of the context's addresses, or a router solicitation, is answered. -/
def execNeighborSolicit (ctx : Fin 64) (target : BitVec 128) (router : Bool) (s : State) : Host.Outcome State Fault Refusal :=
  if neRuns s && getB s (Fld.PT_CTX_VALID ctx) && mayServe s ctx && getB s (Fld.NE_CTX_CFG_V6_EN ctx)
      && (router || (ctxV6 s ctx).contains target.toNat) then
    let s := served s ctx
    done (sendMsg s (.note "ND_REPLY" (ctx.val :: target.toNat :: b2n router :: viaArgs (replyVia s ctx))))
  else done s

/-- The subnet broadcast of a context. -/
def v4Broadcast (s : State) (c : Nat) : Nat :=
  let p := getF s (Fld.NE_CTX_CFG_PREFIX c)
  getF s (Fld.NE_CTX_V4_ADDR c) / 2 ^ (32 - p) * 2 ^ (32 - p) + (2 ^ (32 - p) - 1)

/-- Octets as one number, the first highest. -/
def beNum (l : List Nat) : Nat := l.foldl (fun n o => n * 256 + o % 256) 0

/-- A destination that the context accepts (R308): its addresses, the broadcast of its IPv4 subnet, the All-CoAP-Nodes groups of R324. -/
def v4Mine (s : State) (c a : Nat) : Bool :=
  getB s (Fld.NE_CTX_CFG_V4_EN c) && (a == getF s (Fld.NE_CTX_V4_ADDR c) || a == v4Broadcast s c || a == 0xE00001BB)
def v6Mine (s : State) (c a : Nat) : Bool :=
  (ctxV6 s c).contains a || (getB s (Fld.NE_CTX_CFG_V6_EN c) && (a == 0xFF02 * 2 ^ 112 + 0xFD || a == 0xFF05 * 2 ^ 112 + 0xFD))

/-- What a datagram is that the engine does not serve: refused by R308, by the BACnet rules of R313, or BACnet or CoAP as such. -/
inductive NetDiscard where
  | ip | bac | app
deriving DecidableEq, Repr

/-- A BACnet/IP message: an NPDU of the three functions acted on that carries DNET, or a network-layer message (R313; the places of BVLC function and NPDU
control are the standard's, log 21). -/
def bacVerdict (p : List Nat) : NetDiscard :=
  let at_ := if p.getD 1 0 = 4 then 10 else 4
  let ctl := p.getD (at_ + 1) 0
  if [4, 10, 11].contains (p.getD 1 0) && (bitOf ctl 7 || bitOf ctl 5) then .bac else .app

/-- A UDP datagram whose header begins at octet `o`. -/
def udpVerdict (s : State) (u : List Nat) (o : Nat) : NetDiscard :=
  let port := f16 u (o + 2)
  if port = getF s Fld.NE_CFG_BAC_PORT then bacVerdict (u.drop (o + 8))
  else if port = getF s Fld.NE_CFG_COAP_PORT then .app
  else .ip

/-- A received frame of the context class: IP options and fragments, other protocols, other UDP ports; none for what is no IP datagram to the context, and
for ICMP (R308). -/
def ipVerdict (s : State) (c : Nat) (u : List Nat) : Option NetDiscard :=
  if f16 u 12 = 0x0800 then
    if !v4Mine s c (beNum ((u.drop 30).take 4)) then none
    else if u.getD 14 0 ≠ 0x45 || f16 u 20 % 0x4000 ≠ 0 then some .ip
    else match u.getD 23 0 with | 17 => some (udpVerdict s u 34) | 1 => none | _ => some .ip
  else if f16 u 12 = 0x86DD then
    if !v6Mine s c (beNum ((u.drop 38).take 16)) then none
    else match u.getD 20 0 with | 17 => some (udpVerdict s u 54) | 58 => none | _ => some .ip
  else none

/-- DATAGRAM_DISCARD: a frame that the engine does not serve leaves its queue, counted where R308, R313 or R332 counts it. -/
def execDatagramDiscard (ctx : Fin 64) (frame : List Nat) (s : State) : Host.Outcome State Fault Refusal :=
  if !neRuns s || !mayServe s ctx then done s
  else
    let s := served s ctx
    match ipVerdict s ctx frame with
    | some .ip => done (incSatF s Fld.NE_DISC_IP_DISC)
    | some .bac => done (if modeOf s = 3 then incSatF s Fld.NE_DISC2_SAFE_DISC else incSatF s Fld.NE_DISC_BAC_DISC)
    | some .app => done (if modeOf s = 3 then incSatF s Fld.NE_DISC2_SAFE_DISC else s)
    | none => done s

/-- It as the address of BACnet/IP clients: IPv4-mapped, with the port below it. -/
def v4BroadcastAddr (s : State) (c : Nat) : Nat := (0xFFFF * 2 ^ 32 + v4Broadcast s c) * 65536 + getF s Fld.NE_CFG_BAC_PORT

/-- ECHO_REQUEST: answered up to 10 times per second per context. -/
def execEchoRequest (ctx : Fin 64) (v6 : Bool) (dst : BitVec 128) (data : List Nat) (s : State) : Host.Outcome State Fault Refusal :=
  let mine := if v6 then (ctxV6 s ctx).contains dst.toNat
    else getB s (Fld.NE_CTX_CFG_V4_EN ctx) && (dst.toNat == getF s (Fld.NE_CTX_V4_ADDR ctx) || dst.toNat == v4Broadcast s ctx)
  if !neRuns s || !getB s (Fld.PT_CTX_VALID ctx) || !mayServe s ctx then done s
  else
    let s := served s ctx
    if !mine then done s
    else
      let recent := (tabGet [] s.net.echo ctx).filter (fun t => decide (s.mono < t + 4000))
      if 10 ≤ recent.length then done s
      else done (sendMsg (mapNet s (fun n => { n with echo := tabSet [] n.echo ctx (s.mono :: recent) }))
        (.note "ECHO_REPLY" (ctx.val :: b2n v6 :: viaArgs (replyVia s ctx) ++ data)))

/-! ## BACnet (R313 to R319) -/

/-- NAK code of a BVLC function, and the functions that have one (log 21). -/
def bvlcNak (f : Nat) : Nat :=
  match f with | 1 => 0x10 | 2 => 0x20 | 5 => 0x30 | 6 => 0x40 | 7 => 0x50 | 8 => 0x50 | 9 => 0x60 | _ => 0

/-- BVLC_NAK: every BVLC function but Original-Unicast-NPDU, Original-Broadcast-NPDU and Forwarded-NPDU. -/
def execBvlcNak (ctx : Fin 64) (client : NetAddr) (fn : Fin 256) (s : State) : Host.Outcome State Fault Refusal :=
  done (onBacnet s ctx (fun s => if fn = 4 || fn = 10 || fn = 11 then s else bacSend s ctx client.toNat 0 "BVLC-Result" [.num (bvlcNak fn)]))

/-- Hexadecimal digits of a number, `k` of them. -/
def hexText (k n : Nat) : String :=
  String.ofList ((List.range k).reverse.map (fun i => (("0123456789ABCDEF".toList).getD (bitsOf n (4 * i) 4) '0')))

/-- Object_Name: the GPA, such as 17:2A10 (R315). -/
def objectName (s : State) (d : ExportDef) : String := toString (selfNumber s) ++ ":" ++ hexText 4 d.index

/-- Object_Name of the Device object (R316). -/
def deviceName (s : State) (c : Nat) : String :=
  "SC16-" ++ hexText 16 (getF s Fld.TR_SER_LO_SERIAL + 2 ^ 32 * getF s Fld.TR_SER_HI_SERIAL) ++ "-T" ++ toString ((ctxTenant? s c).getD 0)

/-- Reliability of a quality (R315): NO_FAULT_DETECTED 0, UNRELIABLE_OTHER 7, COMMUNICATION_FAILURE 12. -/
def reliabilityOf : Quality → Nat
  | .good => 0 | .forced => 0 | .absent => 12 | _ => 7

/-- Status_Flags: IN_ALARM, FAULT, OVERRIDDEN, OUT_OF_SERVICE (R315). -/
def statusFlags (q : Quality) : List Bool := [false, q != .good && q != .forced, q == .forced, false]

/-- Present_Value of a record by its TYPE. -/
def presentValue (r : PtRec) : PropVal := match r.ty with | .real32 => .real (ptValue r) | _ => .num (ptValue r).toNat

/-- Analog objects: types 0 to 2. -/
def isAnalog (d : ExportDef) : Bool := decide (d.object / 2 ^ 22 ≤ 2)

/-- A property of a published object (R315). -/
def objectProp (s : State) (d : ExportDef) (p : BacProp) : PropVal :=
  let r := ptAt s d.index
  let q := ptQuality s r
  match p with
  | .objectIdentifier => .num d.object
  | .objectName => .text (objectName s d)
  | .objectType => .num (d.object / 2 ^ 22)
  | .presentValue => presentValue r
  | .statusFlags => .flags (statusFlags q)
  | .eventState => .num 0
  | .outOfService => .flags [false]
  | .reliability => .num (reliabilityOf q)
  | .units => if isAnalog d then .num d.units else .err "PROPERTY UNKNOWN_PROPERTY"
  | .numberOfStates => if d.object / 2 ^ 22 = 19 then .num d.states else .err "PROPERTY UNKNOWN_PROPERTY"
  | _ => .err "PROPERTY UNKNOWN_PROPERTY"

/-- Object_List of a context: the Device object, then its objects. -/
def objectList (s : State) (c : Nat) : List Nat := deviceId s c :: (bacObjects s c).map (fun d => d.object)

/-- A property of the Device object (R316). -/
def deviceProp (s : State) (c : Nat) (p : BacProp) (idx : Option Nat) : PropVal :=
  let img := tabGet (0, 0) s.net.lastImage c
  match p with
  | .objectIdentifier => .num (deviceId s c)
  | .objectName => .text (deviceName s c)
  | .objectType => .num 8
  | .systemStatus => .num (if modeOf s = 1 then 0 else 4)
  | .vendorName => .text "Nirdex"
  | .vendorIdentifier => .num (getF s Fld.NE_BACNET_VENDOR_ID)
  | .modelName => .text "Ouvlas SC16"
  | .firmwareRevision => .num (Config.fuseField 1)
  | .applicationSoftwareVersion => .text (hexText 8 img.1 ++ hexText 8 img.2)
  | .protocolVersion => .num 1
  | .protocolServicesSupported => .objs [5, 12, 14, 15, 26, 27, 33, 34]
  | .protocolObjectTypesSupported => .objs [0, 1, 2, 3, 4, 5, 8, 19]
  | .objectList =>
    match idx with
    | none => .objs (objectList s c)
    | some 0 => .num (objectList s c).length
    | some (k + 1) => match (objectList s c)[k]? with | some o => .num o | none => .err "PROPERTY INVALID_ARRAY_INDEX"
  | .maxApduLengthAccepted => .num 1476
  | .segmentationSupported => .num 3
  | .apduTimeout => .num 3000
  | .numberOfApduRetries => .num 3
  | .deviceAddressBinding => .objs []
  | .databaseRevision => .num (tabGet 0 s.net.dbRev c)
  | _ => .err "PROPERTY UNKNOWN_PROPERTY"

/-- A property of an object of the view (R309, R318). -/
def readProp (s : State) (c obj : Nat) (p : BacProp) (idx : Option Nat) : PropVal :=
  if obj = deviceId s c then deviceProp s c p idx
  else match bacObject? s c obj with
    | none => .err "OBJECT UNKNOWN_OBJECT"
    | some d => match idx, objectProp s d p with
      | some _, .err e => .err e
      | some _, _ => .err "PROPERTY PROPERTY_IS_NOT_AN_ARRAY"
      | none, v => v

/-- Properties that every published object has (R315). -/
def objectProps (d : ExportDef) : List BacProp :=
  [.objectIdentifier, .objectName, .objectType, .presentValue, .statusFlags, .eventState, .outOfService, .reliability]
    ++ (if isAnalog d then [.units] else []) ++ (if d.object / 2 ^ 22 = 19 then [.numberOfStates] else [])

/-- Properties of the Device object (R316). -/
def deviceProps : List BacProp :=
  [.objectIdentifier, .objectName, .objectType, .systemStatus, .vendorName, .vendorIdentifier, .modelName, .firmwareRevision,
   .applicationSoftwareVersion, .protocolVersion, .protocolServicesSupported, .protocolObjectTypesSupported, .objectList, .maxApduLengthAccepted,
   .segmentationSupported, .apduTimeout, .numberOfApduRetries, .deviceAddressBinding, .databaseRevision]

/-- The standard's optional properties among them: Reliability (log 21). -/
def isOptional (p : BacProp) : Bool := p == .reliability

/-- A specifier of ReadPropertyMultiple expanded (R317). -/
def expandProp (s : State) (c obj : Nat) (p : BacProp) : List BacProp :=
  let ps := if obj = deviceId s c then deviceProps else match bacObject? s c obj with | some d => objectProps d | none => []
  match p with
  | .all => ps
  | .required => ps.filter (fun p => !isOptional p)
  | .optional => ps.filter isOptional
  | p => [p]

/-- READ_PROPERTY: an answer that would exceed 1,476 octets, which only Object_List reaches, is refused (R318, log 21). -/
def execReadProperty (ctx : Fin 64) (client : NetAddr) (invoke : Fin 256) (obj : Word) (prop : BacProp) (idx : Option Nat) (s : State) :
    Host.Outcome State Fault Refusal :=
  done (onBacnet s ctx (fun s =>
    match readProp s ctx obj.toNat prop idx with
    | .err e => bacSend s ctx client.toNat invoke "Error" [.err e]
    | .objs l => if 1476 < 12 + 5 * l.length then bacSend s ctx client.toNat invoke "Abort" [.text "SEGMENTATION_NOT_SUPPORTED"]
        else bacSend s ctx client.toNat invoke "ReadProperty-ACK" [.objs l]
    | v => bacSend s ctx client.toNat invoke "ReadProperty-ACK" [v]))

/-- Octets of a tag and its contents of `n` octets, as the standard encodes them (log 21). -/
def taggedLen (n : Nat) : Nat := n + (if n ≤ 4 then 1 else if n ≤ 253 then 2 else 4)

/-- Octets of a property's value in an answer, as the standard encodes it (log 21). -/
def valLen (p : BacProp) (v : PropVal) : Nat :=
  match v with
  | .num n => if p = .objectIdentifier then 5 else taggedLen (if n < 2 ^ 8 then 1 else if n < 2 ^ 16 then 2 else if n < 2 ^ 24 then 3 else 4)
  | .real _ => 5
  | .text t => taggedLen (t.length + 1)
  | .flags l => if l.length = 1 then 1 else 3
  | .objs l => if p = .objectList then 5 * l.length else if l.isEmpty then 0 else taggedLen (1 + (l.foldl max 0 + 8) / 8)
  | .err _ => 4

/-- The results of ReadPropertyMultiple, by object. -/
def rpmResults (s : State) (c : Nat) (specs : List (Word × List BacProp)) : List (Nat × List (BacProp × PropVal)) :=
  specs.map (fun sp => (sp.1.toNat, sp.2.flatMap (fun p => (expandProp s c sp.1.toNat p).map (fun p => (p, readProp s c sp.1.toNat p none)))))

/-- Octets of their answer. -/
def rpmLen (rs : List (Nat × List (BacProp × PropVal))) : Nat :=
  3 + (rs.map (fun r => 7 + (r.2.map (fun pv => 4 + valLen pv.1 pv.2)).foldl (fun a b => a + b) 0)).foldl (fun a b => a + b) 0

/-- READ_PROPERTY_MULTIPLE: an answer that would exceed 1,476 octets is refused (R318). -/
def execReadPropertyMultiple (ctx : Fin 64) (client : NetAddr) (invoke : Fin 256) (specs : List (Word × List BacProp)) (s : State) :
    Host.Outcome State Fault Refusal :=
  done (onBacnet s ctx (fun s =>
    let rs := rpmResults s ctx specs
    if 1476 < rpmLen rs then bacSend s ctx client.toNat invoke "Abort" [.text "SEGMENTATION_NOT_SUPPORTED"]
    else bacSend s ctx client.toNat invoke "ReadPropertyMultiple-ACK" (rs.flatMap (fun r => .num r.1 :: r.2.map (fun pv => pv.2)))))

/-- What a WriteProperty to a DIR 2 object's Present_Value writes, or its error (R318, Table 4). -/
def writeWord (d : ExportDef) (v : BacVal) : Except String Word :=
  let t := d.object / 2 ^ 22
  match v with
  | .real w => if t ≤ 2 then .ok w else .error "PROPERTY INVALID_DATA_TYPE"
  | .enum n => if 3 ≤ t && t ≤ 5 then (if n ≤ 1 then .ok (Word.ofNat n) else .error "PROPERTY VALUE_OUT_OF_RANGE") else .error "PROPERTY INVALID_DATA_TYPE"
  | .unsigned n =>
    if t = 19 then (if 1 ≤ n && n ≤ d.states then .ok (Word.ofNat n) else .error "PROPERTY VALUE_OUT_OF_RANGE") else .error "PROPERTY INVALID_DATA_TYPE"
  | _ => .error "PROPERTY INVALID_DATA_TYPE"

/-- WRITE_PROPERTY. -/
def execWriteProperty (ctx : Fin 64) (client : NetAddr) (invoke : Fin 256) (obj : Word) (prop : BacProp) (val : BacVal) (s : State) :
    Host.Outcome State Fault Refusal :=
  done (onBacnet s ctx (fun s =>
    let bad (e : String) : State := bacSend s ctx client.toNat invoke "Error" [.err e]
    match readProp s ctx obj.toNat prop none with
    | .err e => bad e
    | _ =>
      match bacObject? s ctx obj.toNat with
      | none => bad "PROPERTY WRITE_ACCESS_DENIED"
      | some d =>
        if prop ≠ .presentValue || d.dir ≠ 2 then bad "PROPERTY WRITE_ACCESS_DENIED"
        else match writeWord d val with
          | .error e => bad e
          | .ok w => bacSend (writerWrite s .endpoint ctx d.index w .good) ctx client.toNat invoke "SimpleACK" []))

/-- NE_STAT and NE_CTX_n_OBS count the observers held (R319). -/
def updObs (s : State) : State :=
  let ctxOf (o : Observer) : Nat := (tabGet ({} : ExportDef) s.net.defs o.number).ctx
  let s := (List.range 64).foldl (fun s c => setF s (Fld.NE_CTX_OBS_OBSERVERS c) (s.net.obs.filter (fun o => ctxOf o == c)).length) s
  setFs s [(Fld.NE_STAT_OBS_NE0, (s.net.obs.filter (fun o => ctxNe s (ctxOf o) == 0)).length),
    (Fld.NE_STAT_OBS_NE1, (s.net.obs.filter (fun o => ctxNe s (ctxOf o) == 1)).length)]

/-- The observer that a client has on an export. -/
def obsAt? (s : State) (n client : Nat) : Option Observer := s.net.obs.find? (fun o => o.number == n && o.client == client)
/-- Without it. -/
def delObs (s : State) (n client : Nat) : State := updObs (mapNet s (fun t => { t with obs := t.obs.filter (fun o => !(o.number == n && o.client == client)) }))
/-- Stores it in its place. -/
def setObs (s : State) (o : Observer) : State :=
  mapNet s (fun t => { t with obs := t.obs.map (fun x => if x.number == o.number && x.client == o.client then o else x) })
/-- The limits of R319 leave room for one more in a context. -/
def obsRoom (s : State) (c : Nat) : Bool :=
  decide (getF s (Fld.NE_CTX_OBS_OBSERVERS c) < 1024) && decide ((if ctxNe s c = 0 then getF s Fld.NE_STAT_OBS_NE0 else getF s Fld.NE_STAT_OBS_NE1) < 8192)

/-! ## OSCORE (R329, R330) -/

/-- The Master Secret for a peer (R329): the KDF under USRAS-OSCORE with the tenant in two octets and the peer's Sender ID, its IPv6 interface
identifier, as context; its length is not stated (DESIGN CHOICE, log 106: 256 bits). -/
def oscMaster (s : State) (c peer : Nat) : List Nat :=
  let x := slotAt s (getF s (Fld.NE_CTX_CFG_OSCORE_SLOT c))
  kdf (octetsBe 32 ((x.key x.active).getD 0)) "USRAS-OSCORE" (octetsBe 2 ((ctxTenant? s c).getD 0) ++ octetsBe 8 peer) 256

/-- The security context of a peer, used most recently: formed on first contact, at the stored number plus 65,536 where one is stored. -/
def oscTouch (s : State) (c peer : Nat) : State × OscCtx :=
  let old := s.net.osc.find? (fun o => o.ctx == c && o.peer == peer)
  let stored := (s.net.oscNand.find? (fun x => x.1 == c && x.2.1 == peer)).map (fun x => x.2.2)
  let o := old.getD { ctx := c, peer := peer, master := oscMaster s c peer, ssn := match stored with | some v => v + 65536 | none => 0 }
  let rest := s.net.osc.filter (fun x => !(x.ctx == c && x.peer == peer))
  let mine := rest.filter (fun x => ctxNe s x.ctx == ctxNe s c)
  let rest := if 4096 ≤ mine.length then (match mine.getLast? with | some d => rest.filter (fun x => x != d) | none => rest) else rest
  (mapNet s (fun n => { n with osc := o :: rest }), o)

/-- Stores a security context. -/
def setOsc (s : State) (o : OscCtx) : State :=
  mapNet s (fun n => { n with osc := n.osc.map (fun x => if x.ctx == o.ctx && x.peer == o.peer then o else x) })

/-- A protected message to a peer takes a Sender Sequence Number, stored in NAND at every 65,536th (R330). -/
def oscSend (s : State) (c peer : Nat) : State :=
  let (s, o) := oscTouch s c peer
  let s := if o.ssn % 65536 = 0 then
      mapNet s (fun n => { n with oscNand := (c, peer, o.ssn) :: n.oscNand.filter (fun x => !(x.1 == c && x.2.1 == peer)) }) else s
  setOsc s { o with ssn := o.ssn + 1 }

/-- The slot pair of a context permits OSCORE for its tenant (R329). -/
def oscoreKey (s : State) (c : Nat) : Bool := keyUsable s (getF s (Fld.NE_CTX_CFG_OSCORE_SLOT c)) .oscore ((ctxTenant? s c).getD 4095)

/-- An incoming message's protection: the peer when it verifies and is no replay in the window of 32; a failure is counted. -/
def oscReceive (s : State) (c : Nat) (m : Option OscMsg) : State × Option Nat :=
  match m with
  | none => (s, none)
  | some m =>
    if !oscoreKey s c then (s, none)
    else
      let (s', o) := oscTouch s c m.peer.toNat
      if !m.ok || m.piv + 32 ≤ o.high || o.seen.contains m.piv then (incSatF s (Fld.NE_CTX_OBS_OSCORE_FAIL c), none)
      else
        let h := max o.high m.piv
        (setOsc s' { o with high := h, seen := (m.piv :: o.seen).filter (fun x => decide (h < x + 32)) }, some m.peer.toNat)

/-- A CoAP message on a VID and MAC: code class × 100 + detail, and its contents; protected when the peer is known. -/
def coapOut (s : State) (c client : Nat) (via : Route) (peer : Option Nat) (code : Nat) (args : List Nat) : State :=
  let s := match peer with | some p => oscSend s c p | none => s
  sendMsg s (.note "COAP" (c :: client :: viaArgs (via.to s c client) ++ code :: args))

/-- A CoAP answer. -/
def coapSend (s : State) (c client : Nat) (peer : Option Nat) (code : Nat) (args : List Nat) : State := coapOut s c client (replyVia s c) peer code args
/-- A CoAP notification or request of the module's own. -/
def coapNotify (s : State) (c client : Nat) (peer : Option Nat) (code : Nat) (args : List Nat) : State := coapOut s c client (ownVia s c) peer code args

/-! ## Change of value (R320, R321, R327) -/

/-- |value − last| as the TYPE has it, against COV; a value that is no number differs when its word does. -/
def covMet (r : PtRec) (last : Word) : Bool :=
  let v := ptValue r
  match r.ty with
  | .bool => decide (v ≠ last)
  | .real32 =>
    if realSpecial v || realSpecial last || realSpecial r.cov then decide (v ≠ last)
    else
      let d := realVal v - realVal last
      let d := if d < 0 then -d else d
      if realVal r.cov = 0 then decide (d ≠ 0) else decide (realVal r.cov ≤ d)
  | ty =>
    let d := (asInt ty v - asInt ty last).natAbs
    if r.cov = 0 then decide (d ≠ 0) else decide (asInt ty r.cov ≤ (d : Int))

/-- The export's designated receiver: an observer at the address of words 4 to 7. -/
def isReceiver (d : ExportDef) (o : Observer) : Bool := d.deliver && o.usras && o.client / 65536 == d.addr

/-- One notification to an observer: the record's value and quality as they are now. -/
def notifyOne (s : State) (d : ExportDef) (o : Observer) (maxAge : Bool) : State :=
  let r := ptAt s d.index
  let q := ptQuality s r
  let conf := if o.usras then isReceiver d o else o.confirmed
  let s := startTime (setObs s { o with lastVal := ptValue r, lastQ := q, sent := if conf then some 1 else none }) (tmNotify d.number o.client)
  if o.usras then
    coapNotify s d.ctx o.client (some o.peer) 205 ([b2n conf, d.number, (ptValue r).toNat, r.ty.code, q.code] ++ (if maxAge then [getF s Fld.NE_CFG2_REFRESH] else []))
  else bacNotify s d.ctx o.client o.pid (if conf then "ConfirmedCOVNotification" else "UnconfirmedCOVNotification")
    [.num d.object, presentValue r, .flags (statusFlags q)]

/-- An observer is due a notification (R320). -/
def notifyDue (s : State) (d : ExportDef) (o : Observer) : Bool :=
  let r := ptAt s d.index
  decide (ptQuality s r ≠ o.lastQ) || covMet r o.lastVal

/-- UNDELIV of an export whose designated receiver holds no observation (R327). -/
def checkReceiver (s : State) (d : ExportDef) : State :=
  if d.deliver && !(s.net.obs.any (fun o => o.number == d.number && isReceiver d o)) then setUndeliv s d.index true else s

/-- The observers of an export that satisfy `p` are notified. -/
def notifyAll (s : State) (d : ExportDef) (p : State → Observer → Bool) (maxAge : Bool) : State :=
  (s.net.obs.filter (fun o => o.number == d.number && p s o)).foldl (fun s o => notifyOne s d o maxAge) s

/-- Takes the first index of an engine's change queue. -/
def takeChange (s : State) (ne : Nat) : State × Option Nat :=
  match (if ne = 0 then s.pt.chq0 else s.pt.chq1) with
  | [] => (s, none)
  | i :: t => ({ s with pt := if ne = 0 then { s.pt with chq0 := t } else { s.pt with chq1 := t } }, some i)

/-- COV_NOTIFY: none in Safe mode (R332). -/
def execCovNotify (ne : Fin 2) (s : State) : Host.Outcome State Fault Refusal :=
  if !neRuns s then done s
  else
    let (s, i) := takeChange s ne
    match i with
    | none => done s
    | some i =>
      match s.net.defs.find? (fun kd => kd.2.index == i && kd.2.dir != 1) with
      | none => done s
      | some (_, d) => if modeOf s = 3 then done s else done (checkReceiver (notifyAll s d (fun s o => notifyDue s d o) false) d)

/-- USRAS_REFRESH (R321): REFRESH seconds after the last one. -/
def execUsrasRefresh (number : Fin 32768) (s : State) : Host.Outcome State Fault Refusal :=
  match tabGet? s.net.defs number with
  | some d =>
    if d.usras && d.dir ≠ 1 && neRuns s && modeOf s ≠ 3 && timeRan s (tmRefresh number) (getF s Fld.NE_CFG2_REFRESH * (1000 * msCycles)) then
      done (startTime (notifyAll s d (fun _ _ => true) true) (tmRefresh number))
    else done s
  | none => done s

/-- COV_RETRY (R319): up to 4 transmissions, 3 s apart; the last one failed, FAILED counts it and the subscription stays. -/
def execCovRetry (number : Fin 32768) (client : NetAddr) (s : State) : Host.Outcome State Fault Refusal :=
  match obsAt? s number client.toNat, tabGet? s.net.defs number with
  | some o, some d =>
    match o.sent with
    | some k =>
      if o.usras || !timeRan s (tmNotify number client.toNat) (3000 * msCycles) then done s
      else if 4 ≤ k then done (incSatF (setObs s { o with sent := none }) (Fld.NE_CTX_OBS_FAILED d.ctx))
      else
        let s' := notifyOne s d o false
        done (setObs s' { (obsAt? s' number client.toNat).getD o with sent := some (k + 1) })
    | none => done s
  | _, _ => done s

/-- COV_LIFETIME_EXPIRY: a subscription whose lifetime is not zero and has elapsed. -/
def execCovLifetimeExpiry (number : Fin 32768) (client : NetAddr) (s : State) : Host.Outcome State Fault Refusal :=
  match obsAt? s number client.toNat with
  | some o =>
    if !o.usras && o.lifetime ≠ 0 && timeRan s (tmLife number client.toNat) (o.lifetime * (1000 * msCycles)) then done (delObs s number client.toNat) else done s
  | none => done s

/-- NOTIFICATION_ACK of a notification that waits for it: retransmissions end; on the designated receiver's export UNDELIV clears (R327). -/
def execNotificationAck (number : Fin 32768) (client : NetAddr) (s : State) : Host.Outcome State Fault Refusal :=
  match obsAt? s number client.toNat, tabGet? s.net.defs number with
  | some o, some d =>
    if o.sent.isNone then done s
    else
      let s := setObs s { o with sent := none }
      done (if isReceiver d o then setUndeliv s d.index false else s)
  | _, _ => done s

/-- SUBSCRIBE_COV (R317 to R319): a cancellation is always accepted; the first notification follows at once (log 21). -/
def execSubscribeCov (ctx : Fin 64) (client : NetAddr) (invoke : Fin 256) (pid obj : Word) (confirmed : Bool) (lifetime : Option (Fin 28801)) (s : State) :
    Host.Outcome State Fault Refusal :=
  done (onBacnet s ctx (fun s =>
    let c := client.toNat
    match lifetime with
    | none =>
      bacSend (match bacObject? s ctx obj.toNat with | some d => delObs s d.number c | none => s) ctx c invoke "SimpleACK" []
    | some l =>
      if obj.toNat = deviceId s ctx then bacSend s ctx c invoke "Error" [.err "OBJECT OPTIONAL_FUNCTIONALITY_NOT_SUPPORTED"]
      else match bacObject? s ctx obj.toNat with
        | none => bacSend s ctx c invoke "Error" [.err "OBJECT UNKNOWN_OBJECT"]
        | some d =>
          if (obsAt? s d.number c).isNone && !obsRoom s ctx then bacSend s ctx c invoke "Error" [.err "RESOURCES NO_SPACE_TO_ADD_LIST_ELEMENT"]
          else
            let o : Observer := { number := d.number, client := c, usras := false, confirmed := confirmed, pid := pid.toNat, lifetime := l.val }
            let s := delObs s d.number c
            let s := startTime (updObs (mapNet s (fun t => { t with obs := t.obs ++ [o] }))) (tmLife d.number c)
            notifyOne (bacSend s ctx c invoke "SimpleACK" []) d o false))

/-- The Device instance lies in the range, or no range is given. -/
def inRange (s : State) (c : Nat) (r : Option (Nat × Nat)) : Bool :=
  match r with | none => true | some (a, b) => let i := getF s (Fld.NE_CTX_DEV_INSTANCE c); decide (a ≤ i) && decide (i ≤ b)

/-- WHO_IS. -/
def execWhoIs (ctx : Fin 64) (range : Option (Nat × Nat)) (s : State) : Host.Outcome State Fault Refusal :=
  done (onBacnet s ctx (fun s =>
    if inRange s ctx range then
      bacSend s ctx (v4BroadcastAddr s ctx) 0 "I-Am" [.num (deviceId s ctx), .num 1476, .num 3, .num (getF s Fld.NE_BACNET_VENDOR_ID)]
    else s))

/-- WHO_HAS. -/
def execWhoHas (ctx : Fin 64) (range : Option (Nat × Nat)) (obj : Option Word) (name : String) (s : State) : Host.Outcome State Fault Refusal :=
  done (onBacnet s ctx (fun s =>
    let all : List (Nat × String) := (deviceId s ctx, deviceName s ctx) :: (bacObjects s ctx).map (fun d => (d.object, objectName s d))
    let hit : Option (Nat × String) := match obj with | some o => all.find? (fun x => x.1 == o.toNat) | none => all.find? (fun x => x.2 == name)
    match hit with
    | some x => if inRange s ctx range then bacSend s ctx (v4BroadcastAddr s ctx) 0 "I-Have" [.num (deviceId s ctx), .num x.1, .text x.2] else s
    | none => s))

/-- The answer of Table 4. -/
def BacRefusal.answer : BacRefusal → String × String
  | .service => ("Reject", "UNRECOGNIZED_SERVICE") | .segmentation => ("Abort", "SEGMENTATION_NOT_SUPPORTED")
  | .object => ("Error", "OBJECT UNKNOWN_OBJECT") | .property => ("Error", "PROPERTY UNKNOWN_PROPERTY")
  | .writeDenied => ("Error", "PROPERTY WRITE_ACCESS_DENIED") | .dataType => ("Error", "PROPERTY INVALID_DATA_TYPE")
  | .range => ("Error", "PROPERTY VALUE_OUT_OF_RANGE") | .covOnDevice => ("Error", "OBJECT OPTIONAL_FUNCTIONALITY_NOT_SUPPORTED")
  | .noSpace => ("Error", "RESOURCES NO_SPACE_TO_ADD_LIST_ELEMENT")

/-- BACNET_REJECT. -/
def execBacnetReject (ctx : Fin 64) (client : NetAddr) (invoke : Fin 256) (why : BacRefusal) (s : State) : Host.Outcome State Fault Refusal :=
  done (onBacnet s ctx (fun s => bacSend s ctx client.toNat invoke why.answer.1 [.text why.answer.2]))

/-- BACNET_UNCONFIRMED_DISCARD. -/
def execBacnetUnconfirmedDiscard (ctx : Fin 64) (s : State) : Host.Outcome State Fault Refusal :=
  done (onBacnet s ctx (fun s => incSatF s Fld.NE_DISC_BAC_DISC))

/-! ## CoAP and Usras (R322 to R328) -/

/-- CoAP is served in the context. -/
def onCoap (s : State) (c : Nat) (f : State → State) : State := onRequest s c (fun s => if getB s (Fld.NE_CTX_CFG_USRAS_EN c) then f s else s)

/-- The answer to a request whose protection is missing or fails: 4.01, but 4.00 where decryption fails, as RFC 8613 has it (R325, R329, R330; log 5). -/
def oscRefusal (s : State) (c : Nat) (m : Option OscMsg) : Nat :=
  match m with | some m => if oscoreKey s c && !m.ok then 400 else 401 | none => 401

/-- A Usras request: refused without OSCORE that verifies (R324, R325, R329). -/
def onUsras (s : State) (c client : Nat) (m : Option OscMsg) (f : State → Nat → State) : State :=
  onCoap s c (fun s =>
    match oscReceive s c m with
    | (t, none) => coapSend t c client none (oscRefusal s c m) []
    | (s, some p) => f s p)

/-- Word of a CBOR value for a TYPE (R323); none: the wrong type. -/
def cborWord (ty : VType) (v : CborVal) : Option Word :=
  match ty, v with
  | .bool, .bool b => some (if b then 1 else 0)
  | .uint32, .int i => if 0 ≤ i && i < 2 ^ 32 then some (Word.ofNat i.toNat) else none
  | .real32, .real q => some (realOf q).w
  | .real32, .int i => some (realOf (mkRat i 1)).w
  | .real32, .special w => some w
  | _, _ => none

/-- COAP_GET. -/
def execCoapGet (ctx : Fin 64) (client : NetAddr) (osc : Option OscMsg) (cls item : Fin 256) (inst : Fin 65536) (observe : Option Bool) (s : State) :
    Host.Outcome State Fault Refusal :=
  let c := client.toNat
  done (onUsras s ctx c osc (fun s p =>
    match usras? s ctx cls item inst with
    | none => coapSend s ctx c (some p) 404 []
    | some d =>
      let r := ptAt s d.index
      let q := ptQuality s r
      let old := obsAt? s d.number c
      let s := match observe with
        | none => s
        | some false => checkReceiver (delObs s d.number c) d
        | some true =>
          if old.isNone && !obsRoom s ctx then s
          else
            let o : Observer := { number := d.number, client := c, usras := true, peer := p, lastVal := ptValue r, lastQ := q }
            let o := if isReceiver d o then { o with sent := some 1 } else o
            startTime (updObs (mapNet (delObs s d.number c) (fun t => { t with obs := t.obs ++ [o] }))) (tmNotify d.number c)
      coapSend s ctx c (some p) 205 [d.number, (ptValue r).toNat, r.ty.code, q.code]))

/-- COAP_PUT. -/
def execCoapPut (ctx : Fin 64) (client : NetAddr) (osc : Option OscMsg) (cls item : Fin 256) (inst : Fin 65536) (payload : CoapPayload) (s : State) :
    Host.Outcome State Fault Refusal :=
  let c := client.toNat
  done (onUsras s ctx c osc (fun s p =>
    match usras? s ctx cls item inst with
    | none => coapSend s ctx c (some p) 404 []
    | some d =>
      if d.dir ≠ 2 then coapSend s ctx c (some p) 405 []
      else match payload with
        | .format => coapSend s ctx c (some p) 415 []
        | .shape => coapSend s ctx c (some p) 400 []
        | .value v _ =>
          match cborWord (ptAt s d.index).ty v with
          | none => coapSend s ctx c (some p) 400 []
          | some w => coapSend (writerWrite s .endpoint ctx d.index w .good) ctx c (some p) 204 []))

/-- The acknowledgement is latched in an alarm of a task (03 R102). -/
def latchAck (t : Task) (alarm : Nat) : Task :=
  { t with run := { t.run with alarms := match t.run.alarms[alarm]? with | some a => listSet t.run.alarms alarm { a with ackLatch := true } | none => t.run.alarms } }

/-- COAP_ACK_POST. -/
def execCoapAckPost (ctx : Fin 64) (client : NetAddr) (osc : Option OscMsg) (image : Word) (taskNo alarm : Nat) (s : State) :
    Host.Outcome State Fault Refusal :=
  let c := client.toNat
  done (onUsras s ctx c osc (fun s p =>
    match s.tasks.find? (fun kt => kt.2.dfn.imageId == image.toNat && kt.2.dfn.taskNo == taskNo && some kt.2.dfn.tenant == ctxTenant? s ctx) with
    | some (k, t) =>
      if alarm < t.run.alarms.length then coapSend { s with tasks := tabPut s.tasks k (latchAck t alarm) } ctx c (some p) 204 []
      else coapSend s ctx c (some p) 404 []
    | none => coapSend s ctx c (some p) 404 []))

/-- WELL_KNOWN_CORE: the published resources' numbers and paths; the leisure of a multicast answer is time alone (R324). -/
def execWellKnownCore (ctx : Fin 64) (client : NetAddr) (multicast : Bool) (s : State) : Host.Outcome State Fault Refusal :=
  done (onCoap s ctx (fun s =>
    coapSend s ctx client.toNat none 205 (b2n multicast :: ((published s ctx).filter (fun d => d.usras)).flatMap (fun d => [d.cls, d.inst, d.item]))))

/-- The answer of Table 6. -/
def CoapRefusal.code : CoapRefusal → Nat
  | .method => 405 | .path => 404 | .unauthorized => 401 | .option => 402 | .format => 415 | .shape => 400

/-- COAP_REFUSED: a multicast request is discarded without answer (R324). -/
def execCoapRefused (ctx : Fin 64) (client : NetAddr) (why : CoapRefusal) (multicast : Bool) (s : State) : Host.Outcome State Fault Refusal :=
  done (onCoap s ctx (fun s => if multicast then s else coapSend s ctx client.toNat none why.code []))

/-- The import with a number, with its observation. -/
def impAt (s : State) (n : Nat) : ImpObs := tabGet {} s.net.imps n
/-- Stores an observation. -/
def setImp (s : State) (n : Nat) (o : ImpObs) : State := mapNet s (fun t => { t with imps := tabSet {} t.imps n o })
/-- The endpoint import with a number. -/
def endpImport? (s : State) (n : Nat) : Option ExportDef := (tabGet? s.net.defs n).bind (fun d => if d.dir = 1 then some d else none)

/-- The confirmable GET of an observation, transmission `k`. -/
def sendObserve (s : State) (d : ExportDef) (k : Nat) : State :=
  let s := if k = 1 then startTime s (tmObserve d.number) else s
  coapNotify (setImp s d.number { impAt s d.number with sent := some k }) d.ctx (d.addr * 65536 + getF s Fld.NE_CFG_COAP_PORT) (some (d.addr % 2 ^ 64)) 1 [d.number]

/-- WQ ABSENT into an import's record, its value kept; the engine tries to register again (R326). -/
def importAbsent (s : State) (d : ExportDef) : State :=
  writerQuality (startTime (setImp s d.number {}) (tmObserve d.number)) .endpoint d.ctx d.index .absent

/-- OBSERVE_REGISTER and its retry every 10 s: no observation in Safe mode (R326, R332). -/
def execObserveRegister (number : Fin 32768) (s : State) : Host.Outcome State Fault Refusal :=
  match endpImport? s number with
  | some d =>
    if neRuns s && modeOf s ≠ 3 && !(impAt s number).registered && timeRan s (tmObserve number) (10000 * msCycles) then done (sendObserve s d 1) else done s
  | none => done s

/-- OBSERVE_RENEW, every MAX_AGE seconds. -/
def execObserveRenew (number : Fin 32768) (s : State) : Host.Outcome State Fault Refusal :=
  match endpImport? s number with
  | some d =>
    if neRuns s && modeOf s ≠ 3 && (impAt s number).registered && timeRan s (tmObserve number) (d.maxAge * 1000 * msCycles) then done (sendObserve s d 1)
    else done s
  | none => done s

/-- Fabric cycles of the shortest wait after transmission `k` of a confirmable message: ACK_TIMEOUT 2 s, doubled at each retransmission (R322, RFC 7252;
ACK_RANDOM_FACTOR lengthens it by up to a half). -/
def ackWait (k : Nat) : Nat := 2000 * 2 ^ (k - 1) * msCycles

/-- The same from the first transmission until the wait after transmission `k` is over. -/
def ackWaits (k : Nat) : Nat := 2000 * (2 ^ k - 1) * msCycles

/-- COAP_RETRANSMIT: a fifth transmission is the last (MAX_RETRANSMIT 4); exhausted, UNDELIV or ABSENT (R322, R326, R327). -/
def execCoapRetransmit (number : Fin 32768) (client : NetAddr) (s : State) : Host.Outcome State Fault Refusal :=
  match tabGet? s.net.defs number with
  | none => done s
  | some d =>
    if d.dir = 1 then
      match (impAt s number).sent with
      | none => done s
      | some k =>
        if !timeRan s (tmObserve number) (ackWaits k) then done s
        else done (if 5 ≤ k then importAbsent s d else sendObserve s d (k + 1))
    else match obsAt? s number client.toNat with
      | none => done s
      | some o =>
        match o.sent with
        | none => done s
        | some k =>
          if !o.usras || !timeRan s (tmNotify number client.toNat) (ackWait k) then done s
          else if 5 ≤ k then
            let s := setObs s { o with sent := none }
            done (if isReceiver d o then setUndeliv s d.index true else s)
          else
            let s' := notifyOne s d o false
            done (setObs s' { (obsAt? s' number client.toNat).getD o with sent := some (k + 1) })

/-- An endpoint import answered with an error code (R326): FAULT, and a Note fault of its context. -/
def endpointFault (s : State) (d : ExportDef) : State := raise (writerQuality s .endpoint d.ctx d.index .fault) .neEndpoint d.ctx

/-- ENDPOINT_NOTIFY: quality 0 is GOOD, any other FAULT; a payload of another shape or type writes nothing. A Force answers the next one with 4.03
(15 Table 1). -/
def execEndpointNotify (number : Fin 32768) (osc : Option OscMsg) (payload : CoapPayload) (s : State) : Host.Outcome State Fault Refusal :=
  match endpImport? s number with
  | none => done s
  | some d =>
    if !neRuns s || modeOf s = 3 then done s
    else match oscReceive s d.ctx osc with
      | (s, none) => done s
      | (s, some p) =>
        if p ≠ d.addr % 2 ^ 64 then done s
        else
        let s := startTime (setImp s number { registered := true }) (tmEndpoint number)
        if forcedOnce s .neEndpoint d.ctx then done (useForce (endpointFault s d))
        else match payload with
        | .value v q =>
          match cborWord (ptAt s d.index).ty v with
          | some w => done (writerWrite s .endpoint d.ctx d.index w (if q = 0 then .good else .fault))
          | none => done s
        | _ => done s

/-- ENDPOINT_SILENT: no notification has arrived for 3 × MAX_AGE seconds (R326). -/
def execEndpointSilent (number : Fin 32768) (s : State) : Host.Outcome State Fault Refusal :=
  match endpImport? s number with
  | some d => done (if neRuns s && timeRan s (tmEndpoint number) (3 * d.maxAge * 1000 * msCycles) then importAbsent s d else s)
  | none => done s

/-- ENDPOINT_RST. -/
def execEndpointRst (number : Fin 32768) (s : State) : Host.Outcome State Fault Refusal :=
  match endpImport? s number with | some d => done (importAbsent s d) | none => done s

/-- ENDPOINT_ERROR. -/
def execEndpointError (number : Fin 32768) (s : State) : Host.Outcome State Fault Refusal :=
  match endpImport? s number with
  | some d => done (endpointFault s d)
  | none => done s

/-- Entry to Safe mode (R332): observations of endpoint imports are cancelled, their records ABSENT. -/
def netEnterSafe (s : State) : State :=
  ((s.net.defs.map (fun kd => kd.2)).filter (fun d => d.dir == 1)).foldl importAbsent s

/-! ## PTP (R333 to R336) -/

/-- Applies a change to the PTP engine. -/
def mapPtp (s : State) (f : PtpState → PtpState) : State := mapNet s (fun n => { n with ptp := f n.ptp })

/-- PTP is in use on a MAC. -/
def ptpOn (s : State) (m : Nat) : Bool := neRuns s && getF s Fld.NE_PTP_CFG_TYPE != 0 && getB s (Fld.NE_PTP_PORT_EN m)
/-- portState of a MAC. -/
def portState (s : State) (m : Nat) : Nat := getF s (Fld.NE_PTP_PORT_STATE m)
/-- The port is SLAVE or UNCALIBRATED. -/
def portSlave (s : State) (m : Nat) : Bool := portState s m == 9 || portState s m == 8

/-- A data set in the order in which the best master clock algorithm compares it: the smaller is better (log 22). -/
def dataSet (a : PtpAnnounce) : List Nat :=
  [a.priority1.val, a.clockClass.val, a.accuracy.val, a.variance.val, a.priority2.val, a.gm.toNat, a.steps.val, a.sender.toNat]

/-- Lexicographic order of data sets of one length. -/
def dsLess : List Nat → List Nat → Bool
  | [], _ => false
  | _, [] => false
  | a :: s, b :: t => decide (a < b) || (decide (a = b) && dsLess s t)

/-- The module's own clock identity (log 5). -/
def ownClockId : Nat := Config.fuseField 2 % 2 ^ 64

/-- The module's own data set (R334). -/
def ownDataSet (s : State) : List Nat :=
  [getF s Fld.NE_PTP_PRIO_PRIORITY1, if getB s Fld.NE_PTP_CFG_SLAVE_ONLY then 255 else getF s Fld.NE_PTP_PRIO_CLASS, 0xFE, 0xFFFF,
    getF s Fld.NE_PTP_PRIO_PRIORITY2, ownClockId, 0, ownClockId * 65536]

/-- The better of two data sets with their announcements. -/
def betterOf (a b : Option PtpAnnounce) : Option PtpAnnounce :=
  match a, b with
  | none, b => b
  | a, none => a
  | some a, some b => if dsLess (dataSet b) (dataSet a) then some b else some a

/-- Best qualified foreign master of a port: announced at least twice (log 22). -/
def portBest (s : State) (m : Nat) : Option PtpAnnounce :=
  ((tabGet ([] : List (PtpAnnounce × Nat)) s.net.ptp.foreign m).filter (fun x => decide (2 ≤ x.2))).foldl (fun b x => betterOf b (some x.1)) none

/-- Best of all enabled ports, with its MAC. -/
def bestOf (s : State) : Option (Nat × PtpAnnounce) :=
  ((List.range 6).filter (fun m => ptpOn s m)).foldl (fun b m =>
    match b, portBest s m with
    | b, none => b
    | none, some a => some (m, a)
    | some (n, a), some c => if dsLess (dataSet c) (dataSet a) then some (m, c) else some (n, a)) none

/-- State of an enabled port by the default algorithm (R334, log 22): 4 LISTENING, 6 MASTER, 7 PASSIVE, 8 UNCALIBRATED, 9 SLAVE. -/
def decidePort (s : State) (m : Nat) (expired : Bool) : Nat :=
  let own := ownDataSet s
  let only := getB s Fld.NE_PTP_CFG_SLAVE_ONLY
  match bestOf s with
  | none => if only then 4 else if portState s m = 6 || expired || portSlave s m || portState s m = 7 then (if portState s m = 4 && !expired then 4 else 6) else 4
  | some (r, e) =>
    if only then (if r = m then (if portSlave s m then portState s m else 8) else 4)
    else if own.getD 1 0 ≤ 127 then
      match portBest s m with
      | none => 6
      | some a => if dsLess (dataSet a) own then 7 else 6
    else if dsLess own (dataSet e) then 6
    else if r = m then (if portSlave s m then portState s m else 8)
    else match portBest s m with
      | none => 6
      | some a => if a.gm = e.gm && decide (e.steps < a.steps) then 7 else 6

/-- The PTP clock reports loss of lock: the grid is no longer steered (08 R257). -/
def loseLock (s : State) : State := unsteer (setF s Fld.NE_PTP_STAT_LOCKED 0)

/-- The ports take the states decided; GM, LOCKED, SLAVE_PORT and the grandmaster's identity follow (R334, R336). -/
def decidePorts (s : State) (expired : Option Nat) : State :=
  let wasSlave := (List.range 6).find? (fun m => portState s m == 9)
  let states := (List.range 6).map (fun m => if ptpOn s m then decidePort s m (expired = some m) else 3)
  let s := (List.range 6).foldl (fun s m =>
    let st := states.getD m 3
    setF (if st = 4 && portState s m ≠ 4 then startTime s (tmAnn m) else s) (Fld.NE_PTP_PORT_STATE m) st) s
  let slave := (List.range 6).find? (fun m => portSlave s m)
  let gm := slave.isNone && (List.range 6).any (fun m => portState s m == 6)
  let lost := match wasSlave with | some m => portState s m != 9 | none => false
  let s := if lost then mapPtp s (fun p => { p with good := 0, bad := 0, delay := none, exch := none }) else s
  let id := if gm then ownClockId else match bestOf s with | some (_, a) => a.gm.toNat | none => 0
  let s := setFs s [(Fld.NE_PTP_STAT_GM, b2n gm), (Fld.NE_PTP_STAT_SLAVE_PORT, slave.getD 7), (Fld.NE_PTP_GM_LO_IDENTITY, bitsOf id 0 32),
    (Fld.NE_PTP_GM_HI_IDENTITY, bitsOf id 32 32)]
  if gm then setF s Fld.NE_PTP_STAT_LOCKED 1 else if lost || getF s Fld.NE_PTP_CFG_TYPE = 0 then loseLock s else s

/-- The time counter as nanoseconds. -/
def tcNs (s : State) : Nat := s.tc.sec * 1000000000 + s.tc.ns
/-- Loads the time counter. -/
def setTc (s : State) (ns : Int) : State := { s with tc := { sec := ns.toNat / 1000000000 % 2 ^ 48, ns := ns.toNat % 1000000000, frac := s.tc.frac } }

/-- The servo judges an exchange with this offset (R336): a step beyond 100 µs; else a slew, whose amount no rule states (log 4), and the lock. -/
def servo (s : State) (m : Nat) (off : Int) : State :=
  let s := setF s Fld.NE_PTP_OFFSET_OFFSET (BitVec.ofInt 32 (max (-(2 ^ 31)) (min (2 ^ 31 - 1) off))).toNat
  let a := off.natAbs
  if 100000 < a then
    let s := incSatF (loseLock (setTc s ((tcNs s : Int) - off))) Fld.NE_PTP_STAT_STEPS
    mapPtp s (fun p => { p with good := 0, bad := 0 })
  else
    let (v, s) := freshFree s
    let s := setF s Fld.NE_TIME_ADJ_ADJ (BitVec.ofInt 32 (((v % 17179871 : Nat) : Int) - 8589935)).toNat
    let good := if a ≤ 1000 then s.net.ptp.good + 1 else 0
    let bad := if 10000 < a then s.net.ptp.bad + 1 else 0
    let s := mapPtp s (fun p => { p with good := good, bad := bad })
    let s := if portState s m = 8 then setF s (Fld.NE_PTP_PORT_STATE m) 9 else s
    if 16 ≤ good then setF s Fld.NE_PTP_STAT_LOCKED 1 else if 3 ≤ bad then loseLock s else s

/-- A Sync exchange is complete: judged when the delay is known, else at the Delay_Resp. -/
def exchange (s : State) (m : Nat) (ms : Int) : State :=
  let s := mapPtp s (fun p => { p with syncWait := none, lastMs := some ms })
  match s.net.ptp.delay with
  | some d => servo s m (ms - d)
  | none => mapPtp s (fun p => { p with exch := some ms })

/-- PTP_SYNC. -/
def execPtpSync (m : Fin 6) (seq : Fin 65536) (t2 : Nat) (t1 : Option Nat) (s : State) : Host.Outcome State Fault Refusal :=
  if !ptpOn s m || !portSlave s m then done s
  else match t1 with
    | some t1 => done (exchange s m ((t2 : Int) - t1))
    | none => done (mapPtp s (fun p => { p with syncWait := some (seq.val, t2) }))

/-- PTP_FOLLOW_UP. -/
def execPtpFollowUp (m : Fin 6) (seq : Fin 65536) (t1 : Nat) (s : State) : Host.Outcome State Fault Refusal :=
  if !ptpOn s m || !portSlave s m then done s
  else match s.net.ptp.syncWait with
    | some (q, t2) => if q = seq.val then done (exchange s m ((t2 : Int) - t1)) else done s
    | none => done s

/-- How a PTP message leaves a MAC: the port's transport, and for UDP its source address, that of context NE_PTP_CFG.IPCTX (R333). -/
def ptpVia (s : State) (m : Nat) : List Nat :=
  let c := getF s Fld.NE_PTP_CFG_IPCTX
  let t := getF s (Fld.NE_PTP_PORT_TRANSPORT m)
  [m, getF s Fld.NE_PTP_CFG_DOMAIN, t, if t = 1 then getF s (Fld.NE_CTX_V4_ADDR c) else if t = 2 then (ctxV6 s c).headD 0 else 0]

/-- Fabric cycles of 2^log seconds; the code is a signed field of 4 bits. -/
def logCycles (code : Nat) : Nat := if code < 8 then 1000 * msCycles * 2 ^ code else 1000 * msCycles / 2 ^ (16 - code)

/-- PTP_DELAY_REQ: a master port answers, with its interval for requests (R333, Table 10). -/
def execPtpDelayReq (m : Fin 6) (seq : Fin 65536) (t4 : Nat) (requester : BitVec 80) (s : State) : Host.Outcome State Fault Refusal :=
  if ptpOn s m && portState s m = 6 then
    done (sendMsg s (.note "PTP_DELAY_RESP" (ptpVia s m ++ [seq.val, t4, requester.toNat, getF s Fld.NE_PTP_INTV_LOG_DELAY_REQ])))
  else done s

/-- PTP_DELAY_RESP: the mean path delay, rounded down to whole ns, and the exchange that waits for it. -/
def execPtpDelayResp (m : Fin 6) (seq : Fin 65536) (t4 : Nat) (s : State) : Host.Outcome State Fault Refusal :=
  if !ptpOn s m || !portSlave s m then done s
  else match s.net.ptp.reqT3, s.net.ptp.lastMs with
    | some (q, t3), some ms =>
      if q ≠ seq.val then done s
      else
        let d := (ms + ((t4 : Int) - t3)) / 2
        let s' := mapPtp s (fun p => { p with delay := some d, exch := none, reqT3 := none })
        match s.net.ptp.exch with
        | some e => done (servo s' m (e - d))
        | none => done s'
    | _, _ => done s

/-- PTP_ANNOUNCE. -/
def execPtpAnnounce (m : Fin 6) (a : PtpAnnounce) (s : State) : Host.Outcome State Fault Refusal :=
  if !ptpOn s m then done s
  else
    let l : List (PtpAnnounce × Nat) := tabGet [] s.net.ptp.foreign m
    let n := ((l.find? (fun x => x.1.sender == a.sender)).map (fun x => x.2)).getD 0
    done (decidePorts (mapPtp (startTime s (tmAnn m)) (fun p =>
      { p with foreign := tabSet [] p.foreign m ((a, min (n + 1) 2) :: l.filter (fun x => x.1.sender != a.sender)) })) none)

/-- Fabric cycles of announceReceiptTimeout: ANN_TIMEOUT announce intervals (R334, Table 10). -/
def annTimeout (s : State) : Nat := getF s Fld.NE_PTP_INTV_ANN_TIMEOUT * logCycles (getF s Fld.NE_PTP_INTV_LOG_ANNOUNCE)

/-- ANNOUNCE_TIMEOUT: announceReceiptTimeout has passed on a port without Announce. -/
def execAnnounceTimeout (m : Fin 6) (s : State) : Host.Outcome State Fault Refusal :=
  if !ptpOn s m || !timeRan s (tmAnn m) (annTimeout s) then done s
  else done (decidePorts (mapPtp s (fun p => { p with foreign := tabSet [] p.foreign m [] })) (some m))

/-- A PTP message that the module does not support, by messageType: peer-delay, Signaling and Management, and every unicast message (R333; the type codes
are those of IEEE 1588-2019, log 22). -/
def ptpUnsup (message : Nat) (unicast : Bool) : Bool := unicast || [2, 3, 10, 12, 13].contains message

/-- PTP_DISCARD: a message of another domain or major version, then one that is not supported (R333, log 22). -/
def execPtpDiscard (m : PtpHead) (s : State) : Host.Outcome State Fault Refusal :=
  if !ptpOn s m.lane then done s
  else if m.domain.val ≠ getF s Fld.NE_PTP_CFG_DOMAIN || m.version.val ≠ 2 then done (incSatF s Fld.NE_PTP_DISC_OTHER)
  else if ptpUnsup m.message m.unicast then done (incSatF s Fld.NE_PTP_DISC_UNSUP)
  else done s

/-- PTP_SYNC_SEND: at each Sync interval; the Follow_Up goes when the timestamp is taken from the queue. -/
def execPtpSyncSend (m : Fin 6) (s : State) : Host.Outcome State Fault Refusal :=
  if ptpOn s m && portState s m = 6 && timeRan s (tmSync m) (logCycles (getF s Fld.NE_PTP_INTV_LOG_SYNC)) then
    let n := tabGet 0 s.net.ptp.syncSeq m
    done (mapPtp (sendMsg (startTime s (tmSync m)) (.note "PTP_SYNC" (ptpVia s m ++ [n, getF s Fld.NE_PTP_INTV_LOG_SYNC])))
      (fun p => { p with syncSeq := tabSet 0 p.syncSeq m ((n + 1) % 65536) }))
  else done s

/-- PTP_ANNOUNCE_SEND: at each announce interval, the announced data set, of the parent or of this module. -/
def execPtpAnnounceSend (m : Fin 6) (s : State) : Host.Outcome State Fault Refusal :=
  if ptpOn s m && portState s m = 6 && timeRan s (tmAnnSend m) (logCycles (getF s Fld.NE_PTP_INTV_LOG_ANNOUNCE)) then
    let n := tabGet 0 s.net.ptp.annSeq m
    let d := match bestOf s with
      | some (_, a) => if getB s Fld.NE_PTP_STAT_GM then ownDataSet s else (dataSet a).take 6 ++ [a.steps.val + 1]
      | none => ownDataSet s
    done (mapPtp (sendMsg (startTime s (tmAnnSend m)) (.note "PTP_ANNOUNCE" (ptpVia s m ++ n :: getF s Fld.NE_PTP_INTV_LOG_ANNOUNCE :: d.take 7)))
      (fun p => { p with annSeq := tabSet 0 p.annSeq m ((n + 1) % 65536) }))
  else done s

/-- PTP_DELAY_REQ_SEND. -/
def execPtpDelayReqSend (m : Fin 6) (s : State) : Host.Outcome State Fault Refusal :=
  if ptpOn s m && portSlave s m then
    let n := s.net.ptp.reqSeq
    done (mapPtp (sendMsg s (.note "PTP_DELAY_REQ" (ptpVia s m ++ [n]))) (fun p => { p with reqSeq := (n + 1) % 65536, reqT3 := none }))
  else done s

/-- TSQ_REMOVE: NE1 takes the head entry, unless an injection holds its draining (15 Table 1). A Sync's entry gives its Follow_Up, a Delay_Req's the
send time that its answer needs (09 R298, R299). -/
def execTsqRemove (m : Fin 6) (s : State) : Host.Outcome State Fault Refusal :=
  if forced s .macTsqOvf m then done s
  else match (macAt s m).tsq with
    | [] => done (setReply s [])
    | e :: t =>
      let s := setReply (setF (mapMac s m (fun x => { x with tsq := t })) (Fld.MACn_STATUS_TSQ_LEVEL m) t.length) (tsWords e)
      match e.msgType with
      | 0 => done (if ptpOn s m && portState s m = 6 then sendMsg s (.note "PTP_FOLLOW_UP" (ptpVia s m ++ [e.seqId, e.sec, e.ns])) else s)
      | 1 => done (mapPtp s (fun p => { p with reqT3 := some (e.seqId, e.sec * 1000000000 + e.ns) }))
      | _ => done s

/-! ## The time counter (R335, R337, R338) -/

/-- NE_PTP_CMD's fields after a GO. -/
def ptpFields (s : State) (op result : Nat) : State :=
  setFs s [(Fld.NE_PTP_CMD_OP, op), (Fld.NE_PTP_CMD_RESULT, result), (Fld.NE_PTP_CMD_BUSY, 0), (Fld.NE_PTP_CMD_GO, 0)]

/-- A command through NE_PTP_CMD. -/
def ptpCmd (s : State) (op : Nat) : State :=
  match op with
  | 1 =>
    if getF s Fld.NE_PTP_CFG_TYPE = 0 || getB s Fld.NE_PTP_STAT_GM then
      mapPtp (ptpFields s 1 0) (fun p =>
        { p with pendSet := some (getF s Fld.NE_TIME_SET_LO_SECONDS + 2 ^ 32 * getF s Fld.NE_TIME_SET_HI_SECONDS, s.tc.sec) })
    else ptpFields s 1 1
  | 7 =>
    let s := setFs (ptpFields s 7 0) [(Fld.NE_PTP_DISC_UNSUP, 0), (Fld.NE_PTP_DISC_OTHER, 0), (Fld.NE_DISC_IP_DISC, 0), (Fld.NE_DISC_BAC_DISC, 0),
      (Fld.NE_DISC2_SAFE_DISC, 0)]
    (List.range 64).foldl (fun s c => setFs s [(Fld.NE_CTX_OBS_FAILED c, 0), (Fld.NE_CTX_OBS_OSCORE_FAIL c, 0), (Fld.NE_CTX_OBS_SHED c, 0)]) s
  | _ => ptpFields s op 1

/-- SET_TIME. -/
def execSetTime (s : State) : Host.Outcome State Fault Refusal := done (ptpCmd s 1)
/-- NE_CLEAR_COUNTERS. -/
def execNeClearCounters (s : State) : Host.Outcome State Fault Refusal := done (ptpCmd s 7)

/-- SET_TIME_APPLY: the counter has passed the next whole-second boundary. -/
def execSetTimeApply (s : State) : Host.Outcome State Fault Refusal :=
  match s.net.ptp.pendSet with
  | none => done s
  | some (v, at_) =>
    if s.tc.sec = at_ then done s
    else done (mapPtp { s with tc := { sec := v, ns := 0, frac := 0 } } (fun p => { p with pendSet := none }))

/-- A read of NE_TIME_NS. -/
def readTimeNs (s : State) (q : Requester) : State :=
  setReply { s with shadows := tabPut s.shadows (shadowKey 3 q) [s.tc.sec] } [s.tc.ns]

/-- Seconds of the requester's shadow, live when none is open. -/
def timeSec (s : State) (q : Requester) : Nat := match tabGet? s.shadows (shadowKey 3 q) with | some (v :: _) => v | _ => s.tc.sec

/-- A read of NE_TIME_SEC_HI. -/
def readTimeSecHi (s : State) (q : Requester) : State :=
  setReply { s with shadows := tabDel s.shadows (shadowKey 3 q) } [bitsOf (timeSec s q) 32 16]

/-- NE_TIME_NS_READ. -/
def execNeTimeNsRead (q : Requester) (s : State) : Host.Outcome State Fault Refusal := done (readTimeNs s q)
/-- NE_TIME_SEC_HI_READ. -/
def execNeTimeSecHiRead (q : Requester) (s : State) : Host.Outcome State Fault Refusal := done (readTimeSecHi s q)

end Sys2Proof.Machine
end

