-- ==== Sys2Proof/Machine/Memory.lean ====
section
/-! DEFINITION. Machine/Memory.lean: memories (12): patrol scrubbing, corrected and uncorrectable errors, retirement, NAND upkeep, audits, MEM_CMD. -/

namespace Sys2Proof.Machine

/-- Applies a change to the memories' structures. -/
def mapMem (s : State) (f : MemState → MemState) : State := { s with mem := f s.mem }

/-! ## Places (R392 Table 7, R403) -/

/-- Region of a place. -/
def MemPlace.region : MemPlace → Nat
  | .pointTable => 0 | .bench => 1 | .secure => 2 | .packet => 3 | .mortise _ | .ledgerSlot _ | .faultEntry _ | .scratch => 4
  | .dramTable _ _ _ | .dramTrend _ _ _ _ | .dramLog _ | .dramStaging | .dramSupervisor | .dramSpare => 5
  | .meCircuit _ | .meOther => 6

/-- Severity of an uncorrectable error (Table 7). A spare page in no use holds nothing (log 26). -/
def MemPlace.severity : MemPlace → Severity
  | .pointTable | .bench | .secure | .mortise _ | .dramSupervisor => .critical
  | .ledgerSlot _ | .faultEntry _ | .scratch | .meCircuit _ | .meOther | .dramTable _ _ _ => .severe
  | .packet | .dramTrend _ _ _ _ | .dramLog _ | .dramStaging | .dramSpare => .degraded

/-- The memory of a region is powered and read by the scrubber (R393). -/
def regionOn (s : State) (r : Nat) : Bool :=
  match r with
  | 2 => domainOn s 13
  | 5 => domainOn s 5 && getB s Fld.MEM_STAT_DRAM_READY
  | 6 => domainOn s 9
  | _ => domainOn s 4

/-- MEM_LAST for an error (R392, R395). -/
def recordLast (s : State) (r addr sym : Nat) (due stuck : Bool) : State :=
  setFs s [(Fld.MEM_LAST_LO_ADDR_LO, if r = 2 then 0 else addr), (Fld.MEM_LAST_HI_ADDR_32, if r = 5 then addr / 2 ^ 32 else 0), (Fld.MEM_LAST_HI_REGION, r),
    (Fld.MEM_LAST_HI_SYMBOL, sym), (Fld.MEM_LAST_HI_DETECTED, b2n due), (Fld.MEM_LAST_HI_BY_SCRUB, 1), (Fld.MEM_LAST_HI_STUCK, b2n stuck)]

/-- An uncorrectable error at an octet of a Mortise pair (13 R422, Table 1): in octets 0 to 15 the pair is empty, in a key's field that key is absent. -/
def mortiseLost (s : State) (p octet : Nat) : State :=
  if octet < 16 then setSlot s p {}
  else if octet < 32 then s
  else setSlot s p ((slotAt s p).withKey (b2n (decide (80 ≤ octet))) none false 0)

/-- What an uncorrectable error does where it lies (Table 7). -/
def dueAction (s : State) (p : MemPlace) (addr : Nat) : State :=
  match p with
  | .secure => match s.se.queue with
    | c :: t => mapSe (keyFinish s c 7) (fun e => { e with queue := t })
    | [] => s
  | .mortise q => mortiseLost s q.val (addr % 128)
  | .faultEntry k => storageLost s k.val
  | .ledgerSlot b =>
    if b then { s with me := { s.me with slotB := s.me.slotB.map (fun c => { c with valid := false }) } }
    else { s with me := { s.me with slotA := s.me.slotA.map (fun c => { c with valid := false }) } }
  | .meCircuit c =>
    let s := match currentSlot s with
      | some (k, _) =>
        let s := (List.range 8).foldl (fun s a => setAcc s c.val a (tabGet {} k.accs (c.val * 8 + a))) s
        let ps := (List.range 8).flatMap (fun a => pulsesOf s c.val a)
        ps.foldl (fun s p => { s with me := { s.me with backlogs := tabSet 0 s.me.backlogs p (tabGet 0 k.backlogs p) } }) s
      | none => s
    latchF s Fld.LG_AUDIT_MISMATCH (2 ^ c.val)
  | .dramTable e sl w => match taskAt? s e sl with
    | some t => setTask s e sl { t with run := { t.run with lost := if t.run.lost.contains w then t.run.lost else t.run.lost ++ [w] } }
    | none => s
  | .dramLog k => { s with evlog := s.evlog.set k (.note "entry lost" []) }
  | .dramTrend e sl l k =>
    let ls := tabGet [] s.trends (taskKey e sl)
    { s with trends := tabSet [] s.trends (taskKey e sl) (ls.set l ((ls.getD l []).modify k (fun x => { x with lost := true }))) }
  | .dramStaging => mapMem s (fun m => { m with restage := true })
  | _ => s

/-! ## The DRAM layout (R388) -/

/-- Groups of 320 bytes that the 8 GiB hold. -/
def dramGroups : Nat := 2 ^ 33 / 320

/-- Bytes of data: data addresses run from 0 to 0x1_9999_98FF. -/
def dramData : Nat := dramGroups * 256

/-- The DRAM byte of a data address. -/
def dramByte (a : Nat) : Nat := a / 256 * 320 + a % 256

/-- The DRAM byte at which the 64 check bytes of a data address's group begin. -/
def dramCheck (a : Nat) : Nat := a / 256 * 320 + 256

/-- A place holds a word at a data address: DRAM has none beyond its last group. -/
def placeHas (r a : Nat) : Bool := r != 5 || decide (dramByte a < dramGroups * 320)

/-! ## PATROL_SCRUB (R391 to R396) -/

/-- Key of a word. -/
def wordKey (r addr : Nat) : Nat := r * 2 ^ 33 + addr

/-- Elapsed grid ticks in 24 h. -/
def dayTicks : Nat := 345600000

/-- An SRAM word is corrected in the present pass: three passes in a row record it as stuck (R395). -/
def sramFix (s : State) (r addr sym : Nat) : State :=
  let k := wordKey r addr
  let w := tabGet {} s.mem.fixes k
  let pass := getF s Fld.MEM_SCRUB_STAT_SRAM_PASSES
  if w.passes ≠ 0 && w.last = pass then s
  else
    let n := if w.passes ≠ 0 && (w.last + 1) % 2 ^ 16 = pass then w.passes + 1 else 1
    let s := mapMem s (fun m => { m with fixes := tabSet {} m.fixes k { w with passes := n, last := pass } })
    if n = 3 then raise (recordLast s r addr sym false true) .memStuck r else s

/-- A DRAM word is corrected: the third time within 24 h its page qualifies for retirement (R396). -/
def dramFix (s : State) (addr : Nat) : State :=
  let k := wordKey 5 addr
  let w := tabGet {} s.mem.fixes k
  let ts := s.mono :: w.times.filter (fun t => decide (s.mono < t + dayTicks))
  let page := addr / 4096
  let s := mapMem s (fun m => { m with fixes := tabSet {} m.fixes k { w with times := ts } })
  if 3 ≤ ts.length && !s.mem.qualify.contains page && !s.mem.retired.contains page && s.mem.copying != some page then
    mapMem s (fun m => { m with qualify := m.qualify ++ [page] })
  else s

/-- A correction is counted and acted on. -/
def corrected (s : State) (r addr sym : Nat) : State :=
  let s := mapMem (incF s (Fld.MEM_CE_CORRECTED r)) (fun m => { m with hour := tabSet 0 m.hour r (tabGet 0 m.hour r + 1) })
  if r = 5 then dramFix s addr else sramFix s r addr sym

/-- An injection of an error falls on the word read (15 Table 1): 0x51, 0x52 and 0x54 at ARG in the region of their instance, 0x71 on the queue entry
at ARG. One that errs a word once has not done so yet (R491). -/
def injectedHere (j : Injection) (p : MemPlace) (addr : Nat) : Bool :=
  match j.det with
  | .memDue => !j.used && decide (j.inst = p.region) && decide (j.arg = addr)
  | .memCeRate | .memStuck => decide (j.inst = p.region) && decide (j.arg = addr)
  | .fltStorage => !j.used && match p with | .faultEntry k => decide (j.arg = k.val) | _ => false
  | _ => false

/-- What an injected error makes the scrubber find in a clean word (15 Table 1): two symbols or more are uncorrectable, one is corrected. -/
def injectedFind (s : State) (p : MemPlace) (addr : Nat) (f : ScrubFind) : ScrubFind :=
  match f, s.flt.inj with
  | .clean, some j =>
    if !injectedHere j p addr then .clean
    else if j.det == .memCeRate || j.det == .memStuck then .corrected 0
    else
      let sym : Fin 20 := ⟨Nat.log2 (j.symbols % 2 ^ 20) % 20, Nat.mod_lt _ (by decide)⟩
      (match popCount j.symbols 20 with | 0 => .clean | 1 => .corrected sym | _ => .due sym)
  | f, _ => f

/-- An injected error affects one word once (R491). -/
def injectionUsed (s : State) (p : MemPlace) (addr : Nat) (f : ScrubFind) : State :=
  match f, s.flt.inj with
  | .clean, some j => if injectedHere j p addr then useForce s else s
  | _, _ => s

/-- The pace of the passes: one in each SRAM_MIN minutes, or DRAM_H hours; one commanded through MEM_CMD ends as soon as it is done. -/
def passDue (s : State) (dram : Bool) : Bool :=
  if dram then s.mem.dramNow || timeRan s (tmPass true) (getF s Fld.MEM_SCRUB_CFG_DRAM_H * hourCycles)
  else s.mem.sramNow || timeRan s (tmPass false) (getF s Fld.MEM_SCRUB_CFG_SRAM_MIN * (60000 * msCycles))

/-- The end of a pass; ME's own scrub of its working memory is not the patrol scrubber's (R383). -/
def passEnd (s : State) (r : Nat) : State :=
  let dram := decide (r = 5)
  if r = 6 || !passDue s dram then s
  else if dram then startTime (mapMem (incF s Fld.MEM_SCRUB_STAT_DRAM_PASSES) (fun m => { m with dramNow := false })) (tmPass true)
  else startTime (mapMem (incF s Fld.MEM_SCRUB_STAT_SRAM_PASSES) (fun m => { m with sramNow := false })) (tmPass false)

/-- PATROL_SCRUB. A write by an initiator in the same cycle stands, since the scrubber changes no data (R394). -/
def execPatrolScrub (place : MemPlace) (addr : Fin 0x200000000) (find : ScrubFind) (last : Bool) (s : State) : Host.Outcome State Fault Refusal :=
  let r := place.region
  if !regionOn s r || !placeHas r addr.val then done s
  else
    let s' := injectionUsed s place addr.val find
    let s := match injectedFind s place addr.val find with
      | .clean => s'
      | .corrected sym => corrected s' r addr.val sym.val
      | .due sym => raiseSev (dueAction (recordLast (incSatF s' (Fld.MEM_DUE_DETECTED r)) r addr.val sym.val true false) place addr.val) .memDue r place.severity
    done (if last then passEnd s r else s)

/-- CE_RATE_HOUR: one Degraded fault for the hour (R391); `hourEnds` begins the next, once the hour has run. -/
def execCeRateHour (r : Fin 7) (hourEnds : Bool) (s : State) : Host.Outcome State Fault Refusal :=
  let s := if getF s Fld.MEM_CE_CFG_LIMIT < tabGet 0 s.mem.hour r.val && !s.mem.hourRaised.contains r.val then
      raise (mapMem s (fun m => { m with hourRaised := m.hourRaised ++ [r.val] })) .memCeRate r.val
    else s
  done (if hourEnds && timeRan s (tmHour r.val) hourCycles then
    startTime (mapMem s (fun m => { m with hour := tabDel m.hour r.val, hourRaised := m.hourRaised.filter (· != r.val) })) (tmHour r.val) else s)

/-! ## Page retirement (R396) -/

/-- Spare pages in all (Table 5). -/
def sparePages : Nat := 6553

/-- PAGE_RETIRE: the copy of a page that qualifies begins; without a spare it stays in service. -/
def execPageRetire (page : Fin 0x200000) (s : State) : Host.Outcome State Fault Refusal :=
  if !s.mem.qualify.contains page.val || s.mem.copying.isSome then done s
  else
    let s := mapMem s (fun m => { m with qualify := m.qualify.erase page.val })
    if getF s Fld.MEM_DRAM_STAT_SPARE_LEFT = 0 || forced s .dramSpares 0 then done (raise s .dramSpares)
    else done (mapMem s (fun m => { m with copying := some page.val }))

/-- The retirement map's counts (R403). -/
def dramStat (s : State) : State :=
  setFs s [(Fld.MEM_DRAM_STAT_RETIRED, s.mem.retired.length), (Fld.MEM_DRAM_STAT_SPARE_LEFT, sparePages - s.mem.retired.length)]

/-- PAGE_COPY_DONE. -/
def execPageCopyDone (s : State) : Host.Outcome State Fault Refusal :=
  match s.mem.copying with
  | some p => done (dramStat (mapMem s (fun m => { m with copying := none, retired := m.retired ++ [p] })))
  | none => done s

/-! ## NAND (R398 to R400) -/

/-- Spare blocks in all (Table 9). -/
def spareBlocks : Nat := 320

/-- NAND's counts: factory-marked blocks are the part's own (log 5). -/
def nandStat (s : State) : State :=
  setFs s [(Fld.MEM_NAND_STAT_BAD, Config.fuseField 3 % 64 + s.mem.badBlocks.length), (Fld.MEM_NAND_STAT_SPARE_LEFT, spareBlocks - s.mem.badBlocks.length),
    (Fld.MEM_NAND_STAT2_MAX_PE, satAt 0xFFFF (s.mem.erases.foldl (fun m kv => max m kv.2) 0))]

/-- A block is erased. -/
def eraseBlock (s : State) (b : Nat) : State :=
  let s := mapMem s (fun m => { m with erases := tabSet 0 m.erases b (tabGet 0 m.erases b + 1) })
  maxF s Fld.MEM_NAND_STAT2_MAX_PE (tabGet 0 s.mem.erases b)

/-- NAND is mounted, and its controller is powered. -/
def nandOn (s : State) : Bool := getB s Fld.MEM_STAT_NAND_READY && domainOn s 3

/-- The end of a refresh whose records are rewritten: the older block is erased (R400), also by SV as it mounts the partition (17 R535). -/
def refreshEnd (s : State) : State :=
  match s.mem.twin with
  | none => s
  | some (block, _) =>
    incSatF (eraseBlock (mapMem s (fun m => { m with twin := none, refresh := m.refresh.filter (· != block) })) block) Fld.MEM_NAND_STAT2_REFRESHED

/-- NAND_REFRESH: with its pegs, a queued block's valid records are rewritten into an erased block; the older block is erased as the sweep of the block
ends and returns them. A reset or a loss of power between the two leaves the records in both blocks (17 R535). -/
def execNandRefresh (block into : Fin 8192) (s : State) : Host.Outcome State Fault Refusal :=
  if nandOn s && s.mem.refresh.contains block.val && block ≠ into && !s.mem.badBlocks.contains into.val && s.mem.twin.isNone then
    let r := grantNow s .refresh
    if r.2 then done (mapMem r.1 (fun m => { m with twin := some (block.val, into.val) })) else done r.1
  else done s

/-- The CRC of every NOR sector is checked: MEM_NOR_STAT is refreshed (R401, 17 R533). The fuse backup's copies are the part's own (log 5). -/
def norCheck (s : State) : State :=
  setFs s [(Fld.MEM_NOR_STAT_A_VALID, b2n s.pw.norOk.1), (Fld.MEM_NOR_STAT_B_VALID, b2n s.pw.norOk.2),
    (Fld.MEM_NOR_STAT_FUSE0_VALID, Config.fuseField 4 % 2), (Fld.MEM_NOR_STAT_FUSE1_VALID, Config.fuseField 5 % 2)]

/-- NAND_PATROL, every NAND_DAYS days or on command, once the recorded configuration has been committed (17 R534): every written page is read; worn
blocks queue for refresh; an image whose record cannot be read is restored no more. -/
def execNandPatrol (worn : List (Fin 8192)) (lost : List (Fin 4096)) (s : State) : Host.Outcome State Fault Refusal :=
  if !nandOn s || modeOf s = 7 || !(s.mem.nandNow || timeRan s tmPatrol (getF s Fld.MEM_SCRUB_CFG_NAND_DAYS * (24 * hourCycles))) then done s
  else
    let s := norCheck (setF (startTime s tmPatrol) Fld.MEM_NAND_STAT2_REFRESHED 0)
    let add (m : MemState) : List Nat := worn.foldl (fun l b => if l.contains b.val || m.badBlocks.contains b.val then l else l ++ [b.val]) m.refresh
    let s := mapMem s (fun m => { m with nandNow := false, refresh := add m })
    done (lost.foldl (fun s k => raise (mapMem s (fun m => { m with lostImages := if m.lostImages.contains k.val then m.lostImages else m.lostImages ++ [k.val] }))
      .imageLost k.val) s)

/-- NAND_RETENTION_REWRITE: under class 3 pegs for the block (17 R534). -/
def execNandRetentionRewrite (block into : Fin 8192) (s : State) : Host.Outcome State Fault Refusal :=
  if nandOn s && modeOf s ≠ 7 && block ≠ into && !s.mem.badBlocks.contains block.val && !s.mem.badBlocks.contains into.val && s.mem.twin.isNone then
    done (withGrant s .refresh (fun s => eraseBlock (mapMem s (fun m => { m with refresh := m.refresh.filter (· != block.val) })) block.val))
  else done s

/-- Spare blocks as reported: the count, or what an injection reports. -/
def sparesReported (s : State) : Nat :=
  match s.flt.inj with
  | some j => if j.det = .nandSpares then j.arg else getF s Fld.MEM_NAND_STAT_SPARE_LEFT
  | none => getF s Fld.MEM_NAND_STAT_SPARE_LEFT

/-- NAND_BLOCK_FAIL: retired, and replaced from the spares while there are any. -/
def execNandBlockFail (block : Fin 8192) (s : State) : Host.Outcome State Fault Refusal :=
  if !nandOn s || s.mem.badBlocks.contains block.val then done s
  else if sparesReported s = 0 then done (raiseSev s .nandSpares 0 .severe)
  else
    let s := nandStat (mapMem s (fun m => { m with badBlocks := m.badBlocks ++ [block.val], refresh := m.refresh.filter (· != block.val) }))
    done (if sparesReported s < 32 then raise s .nandSpares else s)

/-! ## Audits (R402, R494) -/

/-- Buffers on the receive descriptors of the MACs in `ms` that satisfy `p`. -/
def onRx (s : State) (ms : List Nat) (p : RxDesc → Bool) : Nat :=
  ms.foldl (fun n m => n + ((macAt s m).rx.filter (fun kd => decide (kd.2.len ≠ 0) && p kd.2)).length) 0

/-- Buffers on the transmit descriptors that satisfy `p`: those of frames not yet completed. -/
def onTx (s : State) (p : TxPost → Bool) : Nat :=
  (List.range 6).foldl (fun n m => n + ((macAt s m).tx.filter (fun kd => kd.2.own && p kd.2.post)).length) 0

/-- Buffers of the context pool on descriptors, and of the network engines' area. -/
def ctxHeld (s : State) : Nat := onRx s [2, 3, 4, 5] (fun d => d.cls == 2) + onTx s (fun d => !d.forModule)
/-- Those of the network engines' area. -/
def neHeld (s : State) : Nat := onRx s [2, 3, 4, 5] (fun d => d.cls == 1) + onTx s (fun d => d.forModule)

/-- The context pool: the contexts' holdings are the buffers on descriptors, and with the free ones make up the pool. -/
def ctxPoolOk (s : State) (off : Nat) : Bool :=
  let held := (List.range 64).foldl (fun n c => n + getF s (Fld.MEM_CTX_BUF_RESERVED_HELD c) + getF s (Fld.MEM_CTX_BUF_COMMON_HELD c)) 0
  let free := getF s Fld.MEM_POOL_COMMON_FREE + (validCtxs s).foldl (fun n c => n + (getF s Fld.MEM_POOL_RESERVE - getF s (Fld.MEM_CTX_BUF_RESERVED_HELD c))) 0
  held == ctxHeld s && held + free == 1792 + off

/-- An other-traffic pool: free and held make up its size; buffers that it lent before it became smaller count until they return. -/
def bbOk (s : State) (m off : Nat) : Bool :=
  getF s (bbFree m) + bbHeld s m == max (bbPoolSize s) (bbHeld s m) + off

/-- The balances of Table 11 by MEM_AUDIT bit. The dowels of the fabric's targets are conserved by construction: a command's accesses are granted and
answered within it (log 27). -/
def balanceOk (s : State) (bit off : Nat) : Bool :=
  match bit with
  | 1 => s.mem.dcq.all (fun kd => dcqOk kd.1 kd.2) && off == 0
  | 2 => ctxPoolOk s off
  | 3 => decide (s.neArea ≤ 128) && s.neArea == neHeld s + off
  | 4 => bbOk s 0 off
  | 5 => bbOk s 1 off
  | _ => off == 0

/-- FABRIC_AUDIT, at a grid tick that is a multiple of 400. -/
def execFabricAudit (s : State) : Host.Outcome State Fault Refusal :=
  if !domainOn s 4 || s.tick % 400 ≠ 0 then done s
  else
    done ((List.range 6).foldl (fun s bit =>
      let (off, s) := takeOffset s .fabricAudit bit
      if balanceOk s bit off then s
      else raise (latchF s { addr := Fld.MEM_AUDIT_FABRIC.addr, lo := bit, w := 1, rst := 0, lvl := 2 } 1) .fabricAudit bit)
      (incF s Fld.MEM_AUDIT_AUDITS))

/-! ## MEM_CMD (R403) -/

/-- MEM_CMD's fields after a command. -/
def memFields (s : State) (op result : Nat) : State :=
  setFs s [(Fld.MEM_CMD_OP, op), (Fld.MEM_CMD_RESULT, result), (Fld.MEM_CMD_BUSY, 0), (Fld.MEM_CMD_GO, 0)]

/-- A command of MEM_CMD. -/
def memCmd (s : State) (op : Nat) : State :=
  match op with
  | 1 => if domainOn s 4 then mapMem (memFields s 1 0) (fun m => { m with sramNow := true }) else memFields s 1 1
  | 2 => if regionOn s 5 then mapMem (memFields s 2 0) (fun m => { m with dramNow := true }) else memFields s 2 1
  | 3 => if nandOn s then mapMem (memFields s 3 0) (fun m => { m with nandNow := true }) else memFields s 3 1
  | 7 =>
    let s := memFields s 7 0
    let s := (List.range 7).foldl (fun s r => setFs s [(Fld.MEM_CE_CORRECTED r, 0), (Fld.MEM_DUE_DETECTED r, 0)]) s
    let s := (List.range 4).foldl (fun s c => setFs s [(Fld.MEM_FAB_MAX_WAIT c, 0), (Fld.MEM_FAB_AGED c, 0)]) s
    (List.range 64).foldl (fun s n => setF s (Fld.MEM_SHED_COUNT n) 0) s
  | _ => memFields s op 1

/-- SRAM_SCRUB_NOW. -/
def execSramScrubNow (s : State) : Host.Outcome State Fault Refusal := done (memCmd s 1)
/-- DRAM_SCRUB_NOW. -/
def execDramScrubNow (s : State) : Host.Outcome State Fault Refusal := done (memCmd s 2)
/-- NAND_PATROL_NOW. -/
def execNandPatrolNow (s : State) : Host.Outcome State Fault Refusal := done (memCmd s 3)
/-- MEM_CLEAR_COUNTERS. -/
def execMemClearCounters (s : State) : Host.Outcome State Fault Refusal := done (memCmd s 7)

end Sys2Proof.Machine
end

