-- ==== Sys2Proof/Machine/Power.lean ====
section
/-! DEFINITION. Machine/Power.lean: domains, power failure, resets and bring-up (14), saturation (15), VIO33 (16). -/

namespace Sys2Proof.Machine

/-! ## Domains (R439, R440, R471) -/

/-- A domain's bit of a mask register. -/
def setDom (s : State) (f : RF) (d : Nat) (b : Bool) : State := setF s f (setBit (getF s f) d b)

/-- A request for a domain that is off and not asked for yet. -/
def requestDomain (s : State) (d : Nat) : State :=
  if h : d < 14 then
    if domainOn s d || s.pw.waiting.any (fun r => r.op == .domain ⟨d, h⟩) then s else govRequest s (.domain ⟨d, h⟩)
  else s

/-- An operation in a domain's charge, whose pegs come back with the domain. -/
def opDomain : GovOp → Nat
  | .wake d => d.val | .dram => 5 | .frontEnd => 9 | .serdes m => if m.val < 2 then 10 else 11 | .crypto => 13 | _ => 3

/-- Patrol scrub of regions whose memory is powered down starts anew: what it has corrected in earlier passes no longer counts (17 R535). -/
def scrubLost (s : State) (rs : List Nat) : State := mapMem s (fun m => { m with fixes := m.fixes.filter (fun kv => !rs.contains (kv.1 / 2 ^ 33)) })

/-- What a domain's blocks lose as they are powered down. -/
def domainLost (s : State) (d : Nat) : State :=
  match d with
  | 6 => resetTasks s [0, 1, 2, 3]
  | 7 => resetTasks s [4, 5, 6, 7]
  | 8 => resetLoops s (fun _ => true)
  | 4 => scrubLost s [0, 1, 3]
  | 5 => scrubLost s [5]
  | 9 => scrubLost (setFs s [(Fld.MT_STAT_FULL_PATH, 0), (Fld.MT_STAT_STARTING, 0)]) [6]
  | 10 => [0, 1].foldl (fun s m => setLink (stopTraining s m) m false) s
  | 11 => [2, 3, 4, 5].foldl (fun s m => setLink (stopTraining s m) m false) s
  | 12 => resetFe s
  | 13 => scrubLost (mapSe (s.se.queue.foldl (fun s c => keyFinish s c 6) s) (fun e => { e with queue := [] })) [2]
  | _ => s

/-- A domain is powered down: its standing pegs, and those of its operations, come back in the same fabric cycle (R440, R451). -/
def powerDown (s : State) (d : Nat) : State :=
  if !domainOn s d then s
  else
    let s := domainLost s d
    let s := (s.pw.grants.filter (fun o => opDomain o == d)).foldl pegReturn s
    let s := mapPw s (fun p => { p with domsHeld := setBit p.domsHeld d false, waiting := p.waiting.filter (fun r => match r.op with | .domain _ => true | o => opDomain o != d) })
    recharge (setDom (setDom s Fld.PW_PD_ON d false) Fld.CLK_PEND_RELEASE_PENDING d false)

/-- Clocks that a domain's blocks wait for (R470 Table 9). -/
def domainClocks : Nat → List Nat
  | 3 => [1, 2, 3] | 4 => [2, 3] | 5 => [4] | 9 => [6] | 10 | 11 => [7] | 12 => [5] | _ => [1, 2, 3]

/-! ## The boot image (R468) -/

/-- Unconfirmed starts of an image. -/
def startsOf (s : State) (b : Bool) : Nat := if b then s.pw.starts.2 else s.pw.starts.1
/-- Sets them. -/
def setStarts (s : State) (b : Bool) (n : Nat) : State :=
  mapPw s (fun p => { p with starts := if b then (p.starts.1, n) else (n, p.starts.2) })

/-- The image check is asked for once PD4 and PD13 are released: of the preferred image, or the other after three unconfirmed starts. -/
def askBootCheck (s : State) : State :=
  if s.pw.phase = .boot && engineRuns s 4 && engineRuns s 13 && !s.pw.grants.contains .crypto && !s.pw.waiting.any (fun r => r.op == .crypto) then
    let other := decide (3 ≤ startsOf s s.pw.prefB)
    govRequest (mapPw s (fun p => { p with checkB := p.prefB != other, triedOther := other })) .crypto
  else s

/-! ## PEG_REQUEST, PEG_GRANT, PEG_RETURN (R448 to R451) -/

/-- PEG_REQUEST: an operation asks; a domain that is on, already asked for, or whose supply is not to be raised in the present mode, does not. -/
def execPegRequest (o : GovOp) (s : State) : Host.Outcome State Fault Refusal :=
  match o with
  | .domain d => if modeOf s = 4 || modeOf s = 5 then done s else done (requestDomain s d.val)
  | .serdes m => if getB s (Fld.MACn_LINK_UP m.val) || getB s (Fld.MACn_LINK_PEG_WAIT m.val) || getB s (Fld.MACn_LINK_TRAINING m.val) then done s else done (askTraining s m.val)
  | .frontEnd => if domainOn s 9 && !getB s Fld.MT_STAT_STARTING && !getB s Fld.MT_STAT_FULL_PATH then done (govRequest (setF s Fld.MT_STAT_STARTING 1) .frontEnd) else done s
  | o => if domainOn s (opDomain o) then done (govRequest s o) else done s

/-- Bring-up goes on once the engine groups are awake (R469). -/
def wakesDone (s : State) : State :=
  let busy (o : GovOp) : Bool := match o with | .wake _ => true | _ => false
  if modeOf s = 7 && domainOn s 6 && domainOn s 7 && domainOn s 8 && !s.pw.grants.any busy && !s.pw.waiting.any (fun r => busy r.op) then requestDomain s 12
  else s

/-- PEG_RETURN: an operation that holds a transient grant ends (R451). -/
def execPegReturn (o : GovOp) (s : State) : Host.Outcome State Fault Refusal :=
  match o with
  | .wake _ => if s.pw.grants.contains o then done (wakesDone (pegReturn s o)) else done s
  | .refresh => if s.pw.grants.contains o then done (pegReturn (refreshEnd s) o) else done s
  | o => done (pegReturn s o)

/-! ## DOMAIN_RELEASE, RELEASE_TIMEOUT, CLK_RETRY (R471, R473, R476) -/

/-- Domain of a block with an L4 reset; none for an unknown identifier (Table 11). -/
def blockDomain? (b : Nat) : Option Nat :=
  if b < 4 then some 6 else if b < 8 then some 7 else if b < 10 then some 8 else if b = 10 then some 9
  else if 16 ≤ b && b < 18 then some 10 else if 18 ≤ b && b < 22 then some 11
  else if 32 ≤ b && b < 44 || 48 ≤ b && b < 56 then some 12 else none

/-- SE is powered: the tamper loops are seeded from the entropy source (13 R424). -/
def seedLoops (s : State) : State :=
  if !s.se.seedDue then s
  else
    (List.range 4).foldl (fun s l =>
      let r := freshFree s
      { r.2 with se := { r.2.se with loops := listSet r.2.se.loops l { lfsr := r.1 % 2 ^ 16 } } }) { s with se := { s.se with seedDue := false } }

/-- What the release of a whole domain starts. `wiped`: packet memory came up wiped. -/
def releaseWhole (s : State) (d : Nat) : State :=
  let unwipe (m : Nat) : State := setF s Fld.MEM_STAT_WIPING (getF s Fld.MEM_STAT_WIPING &&& (0x7F ^^^ m))
  match d with
  | 3 =>
    let s := mapPw s (fun p => { p with nResetLow := (p.phase == .asserted) || (p.phase == .stretch) })
    if s.pw.phase = .boot then askBootCheck (requestDomain (requestDomain s 4) 13) else s
  | 6 => gateEngines s [0, 1, 2, 3]
  | 7 => gateEngines s [4, 5, 6, 7]
  | 4 =>
    let wiped := bitOf (getF s Fld.MEM_STAT_WIPING) 3
    let s := mapPw (unwipe 0b1011) (fun p => { p with nResetLow := (p.phase == .asserted) || (p.phase == .stretch) })
    askBootCheck (if wiped then initPools s else s)
  | 9 => unwipe 0b1000000
  | 10 => [0, 1].foldl askTraining s
  | 11 => [2, 3, 4, 5].foldl askTraining s
  | 12 =>
    let s := feRelease s
    if modeOf s = 7 then requestDomain (requestDomain (mapPw s (fun p => { p with configDue := true })) 10) 11 else s
  | 13 => askBootCheck (seedLoops (unwipe 0b100))
  | _ => s

/-- Fabric cycles for which a domain's blocks stay in reset at least: the wipes of 12 Table 8 come before the release, and a block reset holds its block
for 16 (R473). -/
def holdCycles (s : State) (d : Nat) : Nat :=
  let wiping (r : Nat) : Bool := bitOf (getF s Fld.MEM_STAT_WIPING) r
  if d = 4 && wiping 1 then 131072 else if d = 13 && wiping 2 then 32768 else if d = 9 && wiping 6 then 65536
  else if s.pw.blocksHeld.any (fun b => blockDomain? b == some d) then 16 else 0

/-- DOMAIN_RELEASE: every clock is stable, and the domain's blocks are released. -/
def execDomainRelease (d : Fin 14) (s : State) : Host.Outcome State Fault Refusal :=
  let d := d.val
  if !bitOf (getF s Fld.CLK_PEND_RELEASE_PENDING) d || !domainOn s d || forcedOnce s .clkAbandon d || !timeRan s (tmRelease d) (holdCycles s d) then done s
  else
    let whole := bitOf s.pw.domsHeld d
    let s := setDom s Fld.CLK_PEND_RELEASE_PENDING d false
    let s := mapPw s (fun p => { p with domsHeld := setBit p.domsHeld d false, blocksHeld := p.blocksHeld.filter (fun b => blockDomain? b != some d) })
    let s := setF s Fld.CLK_STAT_STABLE ((domainClocks d).foldl (fun m c => setBit m c true) (getF s Fld.CLK_STAT_STABLE))
    if whole then done (releaseWhole s d)
    else done (gateEngines ((if d = 10 then [0, 1] else if d = 11 then [2, 3, 4, 5] else []).foldl (fun s m =>
      if getB s (Fld.MACn_LINK_UP m) || getB s (Fld.MACn_LINK_TRAINING m) || getB s (Fld.MACn_LINK_PEG_WAIT m) then s else askTraining s m) s)
      (if d = 6 then [0, 1, 2, 3] else if d = 7 then [4, 5, 6, 7] else []))

/-- RELEASE_TIMEOUT, 2 ms after the request: the release is abandoned, Severe; PD5 to PD13 are powered down; for PD3 and PD4 nRESET is held low and
bring-up repeats from PD2 and PD3. -/
def execReleaseTimeout (d : Fin 14) (s : State) : Host.Outcome State Fault Refusal :=
  let d := d.val
  if !bitOf (getF s Fld.CLK_PEND_RELEASE_PENDING) d || !timeRan s (tmRelease d) (2 * msCycles) then done s
  else
    let s := raise s .clkAbandon d
    let s := if forced s .clkAbandon d then useForce s else s
    if 5 ≤ d then done (latchF (powerDown s d) Fld.CLK_PEND_ABANDONED (2 ^ d))
    else if d = 3 || d = 4 then
      let s := mapPw (powerDown (powerDown s 4) 3) (fun p => { p with nResetLow := true })
      done (requestDomain (requestDomain s 2) 3)
    else done (setDom s Fld.CLK_PEND_RELEASE_PENDING d false)

/-- A command of CLK_CMD: RETRY an abandoned domain. -/
def clkCmd (s : State) (op d : Nat) : State :=
  let f (r : Nat) : State :=
    setFs s [(Fld.CLK_CMD_OP, op), (Fld.CLK_CMD_RESULT, r), (Fld.CLK_CMD_DOMAIN, d), (Fld.CLK_CMD_BUSY, 0), (Fld.CLK_CMD_GO, 0)]
  if op = 1 && 5 ≤ d && d ≤ 13 && bitOf (getF s Fld.CLK_PEND_ABANDONED) d then requestDomain (setDom (f 0) Fld.CLK_PEND_ABANDONED d false) d else f 1

/-- CLK_RETRY. -/
def execClkRetry (d : Fin 16) (s : State) : Host.Outcome State Fault Refusal := done (clkCmd s 1 d.val)

/-! ## Reset sources (R455, R458, R462, R463) -/

/-- NRESET_PULSE: ignored while the module drives nRESET itself and for 50 µs after (R463); it ends a Doze. -/
def execNresetPulse (s : State) : Host.Outcome State Fault Refusal :=
  if s.pw.nResetLow || !timeRan s tmPin (50 * usCycles) then done s
  else done (assertReset (if modeOf s = 4 then setF s Fld.PW_DOZE_LAST_EXIT 4 else s) 3 true)

/-- CORE_UV. -/
def execCoreUv (s : State) : Host.Outcome State Fault Refusal := if domainOn s 2 then done (assertReset s 4 true) else done s

/-- Clock `c` leaves its window by `err` (R470 Table 9): the monitor's action; CLK_LOSS makes no queue entry (15 R478). -/
def clockLoss (s : State) (c err : Nat) : State :=
  let s := setF (incSatF s Fld.CLK_LOSS_EVENTS) Fld.CLK_LOSS_LAST c
  let s := setF s Fld.CLK_STAT_STABLE (setBit (getF s Fld.CLK_STAT_STABLE) c false)
  let s := mapPw s (fun p => { p with clkErr := tabSet 0 p.clkErr c err })
  match c with
  | 0 => tamperEvent s [8] []
  | 1 | 2 | 3 | 4 => assertReset s 5 true
  | 5 =>
    let s := raise s .clkLocal 5
    if domainOn s 12 then
      mapPw (setDom (resetRegs (resetFe (startTime s (tmRelease 12))) 4 (fun a => 0x330000 ≤ a && a < 0x340800)) Fld.CLK_PEND_RELEASE_PENDING 12 true) (fun p => { p with domsHeld := setBit p.domsHeld 12 true })
    else s
  | 6 =>
    let s := raise s .clkLocal 6
    let s := (List.range 60).foldl (fun s i => modFail s i) s
    if domainOn s 9 then setDom (startTime s (tmRelease 9)) Fld.CLK_PEND_RELEASE_PENDING 9 true else s
  | _ =>
    let s := (List.range 6).foldl (fun s m => if linkUp s m then raise (setLink s m false) .macLinkLost m else s) (raise s .clkLocal 7)
    let s := if domainOn s 10 then setDom (startTime s (tmRelease 10)) Fld.CLK_PEND_RELEASE_PENDING 10 true else s
    if domainOn s 11 then setDom (startTime s (tmRelease 11)) Fld.CLK_PEND_RELEASE_PENDING 11 true else s

/-- CLOCK_LOSS. -/
def execClockLoss (c : Fin 8) (err : Fin 0x1000000) (s : State) : Host.Outcome State Fault Refusal := done (clockLoss s c.val err.val)

/-- OVERTEMP: the die is at 125 °C. -/
def execOvertemp (s : State) : Host.Outcome State Fault Refusal :=
  if domainOn s 2 then done (setFs (assertReset s 6 true) [(Fld.PW_TEMP_TEMP, 125), (Fld.PW_TEMP_HOT, 1)]) else done s

/-- TEMP_HOT: the die temperature rises to 115 °C. -/
def execTempHot (s : State) : Host.Outcome State Fault Refusal :=
  done (raise (setFs s [(Fld.PW_TEMP_TEMP, 115), (Fld.PW_TEMP_HOT, 1)]) .tempHot)

/-- SV_WATCHDOG. -/
def execSvWatchdog (s : State) : Host.Outcome State Fault Refusal := if engineRuns s 3 then done (assertReset s 7) else done s
/-- DEBUG_RESET. -/
def execDebugReset (s : State) : Host.Outcome State Fault Refusal := if domainOn s 3 then done (assertReset s 12) else done s

/-- DOZE_EXIT. -/
def execDozeExit (cause : Fin 4) (s : State) : Host.Outcome State Fault Refusal := if modeOf s = 4 then done (dozeWake s cause.val) else done s

/-- SILL_POR: the rail is below 1.6 V; Sill SRAM will be wiped (12 R397). -/
def execSillPor (s : State) : Host.Outcome State Fault Refusal := done (setDom (assertReset s 0 true) Fld.MEM_STAT_WIPING 4 true)

/-- A source is no longer asserted: with the last one, the stretch begins (R463). -/
def sourceRelease (s : State) (i : Nat) : State :=
  let s := mapPw s (fun p => { p with held := p.held.filter (· != i) })
  if s.pw.held.isEmpty && s.pw.phase = .asserted then startTime (mapPw s (fun p => { p with phase := .stretch })) tmStretch else s

/-- RESET_SOURCE_RELEASE. -/
def execResetSourceRelease (source : Fin 14) (s : State) : Host.Outcome State Fault Refusal := done (sourceRelease s source.val)

/-- SILL_POR_RELEASE: the RTC counts from zero (R455, 13 R404). -/
def execSillPorRelease (s : State) : Host.Outcome State Fault Refusal :=
  if s.pw.held.contains 0 then done (sourceRelease { s with rtc := { s.rtc with running := true } } 0) else done s

/-! ## RST_CMD (R472, R473, R475) -/

/-- The idle handshake of a block (Table 11). -/
def blockIdle (s : State) (b : Nat) : Bool :=
  if b < 8 then (engineKeys s b).all (fun k => match taskOf? s k with | some t => t.phase == .idle | none => true)
  else if b < 10 then s.loops.all (fun kl => loopEngine kl.1 != b - 8 || kl.2.due.isNone)
  else if b = 10 then false
  else if b < 22 then getB s (Fld.MACn_STATUS_IDLE (b - 16))
  else if b < 44 then getB s (Fld.CANn_STAT_IDLE (b - 32))
  else getB s (Fld.UARTn_STAT_IDLE (b - 48))

/-- The registers of a block. -/
def blockRegs (b a : Nat) : Bool :=
  if b < 8 then 0x210100 + 16 * b ≤ a && a < 0x210110 + 16 * b
  else if b < 10 then 0x220000 + 16 * (b - 8) ≤ a && a < 0x220010 + 16 * (b - 8)
  else if b < 22 then 0x300000 + 0x1000 * (b - 16) ≤ a && a < 0x301000 + 0x1000 * (b - 16)
  else if b < 44 then 0x330000 + 0x400 * (b - 32) ≤ a && a < 0x330400 + 0x400 * (b - 32)
  else 0x340000 + 0x100 * (b - 48) ≤ a && a < 0x340100 + 0x100 * (b - 48)

/-- What a block loses in its L4 reset. -/
def blockLost (s : State) (b : Nat) : State :=
  if b < 8 then resetTasks s [b]
  else if b < 10 then resetLoops s (fun e => e == b - 8)
  else if b < 22 then
    mapMac (macEmpty (stopTraining s (b - 16)) (b - 16)) (b - 16) (fun x => { x with down := true })
  else if b < 44 then resetCan s (b - 32) true
  else resetUart s (b - 48) true

/-- An accepted block reset: fields marked L4, the block held until its release. -/
def blockReset (s : State) (b d : Nat) : State :=
  let s := resetRegs (blockLost s b) 4 (blockRegs b)
  let s := setF (incF (recordSource s 13) Fld.RST_COUNT_BLOCK_RESETS) Fld.RST_CAUSE_LEVEL 4
  mapPw (setDom (startTime s (tmRelease d)) Fld.CLK_PEND_RELEASE_PENDING d true) (fun p => { p with blocksHeld := if p.blocksHeld.contains b then p.blocksHeld else p.blocksHeld ++ [b] })

/-- RST_CMD's fields. -/
def rstFields (s : State) (op b result : Nat) : State :=
  setFs s [(Fld.RST_CMD_OP, op), (Fld.RST_CMD_RESULT, result), (Fld.RST_CMD_BLOCK, b), (Fld.RST_CMD_BUSY, 0), (Fld.RST_CMD_GO, 0)]

/-- A command of RST_CMD; an L4 request during a deeper reset is refused (R460). -/
def rstCmd (s : State) (op b : Nat) : State :=
  match op with
  | 1 => assertReset (rstFields s 1 b 0) 10
  | 2 => assertReset (rstFields s 2 b 0) 11
  | 3 =>
    (match blockDomain? b with
    | none => rstFields s 3 b 2
    | some d =>
      if !domainOn s d then rstFields s 3 b 2
      else if resetActive s || !blockIdle s b then rstFields s 3 b 1
      else blockReset (rstFields s 3 b 0) b d)
  | _ => rstFields s op b 1

/-- RST_WARM. -/
def execRstWarm (s : State) : Host.Outcome State Fault Refusal := done (rstCmd s 1 (getF s Fld.RST_CMD_BLOCK))
/-- RST_ENGINE. -/
def execRstEngine (s : State) : Host.Outcome State Fault Refusal := done (rstCmd s 2 (getF s Fld.RST_CMD_BLOCK))
/-- RST_BLOCK. -/
def execRstBlock (b : Fin 64) (s : State) : Host.Outcome State Fault Refusal := done (rstCmd s 3 b.val)

/-! ## Stretch and load (R463 to R467) -/

/-- The debug path after a load or an L2 reset: open in Blank, Provisioned and Service, closed without FUSE (R467, 13 R433). -/
def debugPath (s : State) : State :=
  let lc := getF s Fld.LC_STATE_STATE
  setB s Fld.LC_STATE_DEBUG_OPEN (getB s Fld.RST_LOAD_FUSE_VALID && (lc = 0 || lc = 1 || lc = 3))

/-- Milliseconds of the stretch by RST_CFG.STRETCH (R463, R475), as the register reads: the fuse code from a load on, 16 ms before it. -/
def stretchMs (s : State) : Nat := [16, 4, 64, 200].getD (getF s Fld.RST_CFG_STRETCH) 16

/-- RESET_STRETCH_END: nRESET is released; after L1 and L0 the load begins, after L2 bring-up goes on from PD3's release (R469). -/
def execResetStretchEnd (s : State) : Host.Outcome State Fault Refusal :=
  if s.pw.phase ≠ .stretch || !timeRan s tmStretch (stretchMs s * msCycles) then done s
  else
    let s := startTime s tmPin
    if s.pw.level ≤ 1 then done (recharge (mapPw s (fun p => { p with phase := .loading, nResetLow := false })))
    else done (askBootCheck (debugPath (mapPw s (fun p => { p with phase := .boot, nResetLow := false }))))

/-- Fields that the fuse section loads (R465, R475, 16 R504). -/
def loadFuse (s : State) : State :=
  let v (f : RF) : RF × Nat := (f, Config.fuseField f.key)
  let s := setFs s [v Fld.RST_MAP_LO_LEVELS, v Fld.RST_MAP_HI_LEVELS, v Fld.RST_CFG_STRETCH, v Fld.TR_SER_LO_SERIAL, v Fld.TR_SER_HI_SERIAL]
  let s := (List.range 9).foldl (fun s w => setF s (Fld.FUSE_PIN_CODES w) (Config.fuseField (Fld.FUSE_PIN_CODES w).key % (if w = 8 then 2 ^ 6 else 2 ^ 32))) s
  if s.pw.level = 0 then setF s Fld.LC_STATE_STATE s.se.fused else s

/-- Fields that the option section loads. -/
def loadOption (s : State) : State :=
  let v (f : RF) : RF × Nat := (f, Config.fuseField f.key)
  (List.range 6).foldl (fun s m => setFs s [v (Fld.MACn_ADDR_LO_OCTETS_0_3 m), v (Fld.MACn_ADDR_HI_OCTETS_4_5 m)]) (setFs s [v Fld.FLT_STAT_INJ_FUSE])

/-- The load is over: what passed is used (R467); bring-up goes on with PD4 and PD13. -/
def loadOver (s : State) (fuseOk : Bool) (opt trim : Option (Fin 3)) : State :=
  let src (o : Option (Fin 3)) : Nat := match o with | some k => k.val | none => 0
  let s := if fuseOk then loadFuse s else s
  let s := if opt.isSome then loadOption s else s
  let s := setFs s [(Fld.RST_LOAD_FUSE_VALID, b2n fuseOk), (Fld.RST_LOAD_OPTION_VALID, b2n opt.isSome), (Fld.RST_LOAD_TRIM_VALID, b2n trim.isSome),
    (Fld.RST_LOAD_OPTION_SRC, src opt), (Fld.RST_LOAD_TRIM_SRC, src trim), (Fld.MT_STAT_TRIM_VALID, b2n trim.isSome)]
  let lc := getF s Fld.LC_STATE_STATE
  let s := setFs s [(Fld.KS_STAT_ROOT, b2n (fuseOk && lc ≠ 4)), (Fld.PW_MODE_SAFE_SCRAPPED, b2n (decide (lc = 4)))]
  let s := mapPw (debugPath s) (fun p => { p with phase := .boot })
  requestDomain (requestDomain s 4) 13

/-- FUSE_LOAD_DONE. -/
def execFuseLoadDone (fuseOk : Bool) (opt trim : Option (Fin 3)) (s : State) : Host.Outcome State Fault Refusal :=
  if s.pw.phase ≠ .loading then done s
  else if fuseOk && opt.isSome && trim.isSome then done (loadOver s true opt trim)
  else
    let s := setF s Fld.RST_LOAD_FAILS (satAt 3 (getF s Fld.RST_LOAD_FAILS + 1))
    if getF s Fld.RST_LOAD_FAILS < 3 then done (startTime (mapPw s (fun p => { p with phase := .loadWait })) tmRetry)
    else done (setF (loadOver s fuseOk opt trim) Fld.PW_MODE_SAFE_LOAD 1)

/-- FUSE_LOAD_RETRY, 100 µs after the failure. -/
def execFuseLoadRetry (s : State) : Host.Outcome State Fault Refusal :=
  if s.pw.phase = .loadWait && timeRan s tmRetry (100 * usCycles) then done (mapPw s (fun p => { p with phase := .loading })) else done s

/-! ## BOOT_CHECK_DONE, BOOT_RECOVERY_IMAGE, DRAM_TRAIN_DONE (R468, R469) -/

/-- SV runs the image checked: after L1 and L0 the Ledger is restored, then the front end and DRAM come up. -/
def bootRun (s : State) : State :=
  let b := s.pw.checkB
  let n := satAt 3 (startsOf s b + 1)
  let s := mapPw (setStarts s b n) (fun p => { p with phase := .run })
  let s := setFs s [(Fld.MEM_NOR_STAT_BOOTED_B, b2n b), (Fld.MEM_NOR_STAT_A_VALID, b2n s.pw.norOk.1), (Fld.MEM_NOR_STAT_B_VALID, b2n s.pw.norOk.2),
    (Fld.MEM_NOR_STAT_FUSE0_VALID, Config.fuseField 4 % 2), (Fld.MEM_NOR_STAT_FUSE1_VALID, Config.fuseField 5 % 2), (Fld.MEM_STAT_NOR_READY, 1),
    (Fld.RST_BOOT_PREFERRED_B, b2n s.pw.prefB), (Fld.RST_BOOT_STARTS, n), (Fld.RST_BOOT_CONFIRMED, 0), (Fld.RST_BOOT_FALLBACK, b2n (b != s.pw.prefB))]
  let s := setDom s Fld.MEM_STAT_WIPING 4 false
  let s := if s.me.restoreDue then restoreLedger s else s
  if domainOn s 5 then govRequest (requestDomain s 9) .dram else requestDomain (requestDomain s 9) 5

/-- BOOT_CHECK_DONE: an image that fails gives way to the other; when neither passes the ROM stays in recovery. -/
def execBootCheckDone (passed : Bool) (s : State) : Host.Outcome State Fault Refusal :=
  if s.pw.phase ≠ .boot || !s.pw.grants.contains .crypto then done s
  else
    let s := pegReturn s .crypto
    let s := mapPw s (fun p => { p with norOk := if p.checkB then (p.norOk.1, passed) else (passed, p.norOk.2) })
    if passed then done (bootRun s)
    else if !s.pw.triedOther then done (govRequest (mapPw s (fun p => { p with checkB := !p.checkB, triedOther := true })) .crypto)
    else done ((List.range 9).foldl (fun s i => powerDown s (13 - i)) (mapPw s (fun p => { p with phase := .recovery })))

/-- BOOT_RECOVERY_IMAGE: a signed image is written for the slot that the ROM did not start from, and the module resets at L1. -/
def execBootRecoveryImage (ok : Bool) (s : State) : Host.Outcome State Fault Refusal :=
  if s.pw.phase ≠ .recovery || !ok then done s
  else
    let slot := !s.pw.prefB
    let s := setStarts (mapPw s (fun p => { p with norOk := if slot then (p.norOk.1, true) else (true, p.norOk.2) })) slot 0
    done (setF (incF (beginReset s 1 false) Fld.RST_COUNT_RESETS) Fld.RST_CAUSE_LEVEL 1)

/-- DRAM_TRAIN_DONE: DRAM is ready, its pegs come back, NAND is mounted, and the engine groups are woken. -/
def execDramTrainDone (s : State) : Host.Outcome State Fault Refusal :=
  if !s.pw.grants.contains .dram then done s
  else
    let s := setDom (pegReturn s .dram) Fld.MEM_STAT_WIPING 5 false
    let s := refreshEnd (nandStat (dramStat (setFs s [(Fld.MEM_STAT_DRAM_READY, 1), (Fld.MEM_STAT_SELF_REFRESH, 0), (Fld.MEM_STAT_NAND_READY, 1)])))
    if modeOf s ≠ 7 then done s
    else done (([6, 7, 8] : List (Fin 14)).foldl (fun s d => if domainOn s d.val then govRequest s (.wake d) else requestDomain s d.val) s)

/-! ## SAT_STEP (15 R498, R499) -/

/-- SAT_STEP: a step of 100 ms ends, at a grid tick that is a multiple of 400. -/
def execSatStep (s : State) : Host.Outcome State Fault Refusal :=
  if s.tick % 400 ≠ 0 then done s else
  let h := s.shed
  let sheds := !h.ctx.isEmpty || h.bb || h.floor || h.obs || h.truss || forced s .saturated 0
  let n := if sheds then satAt 31 (getF s Fld.FLT_SAT_SHED_STEPS + 1) else 0
  let q := if sheds then 0 else satAt 127 (getF s Fld.FLT_SAT_QUIET_STEPS + 1)
  let was := getB s Fld.FLT_SAT_SATURATED
  let mask (lo : Nat) : Nat := (h.ctx.filter (fun c => lo ≤ c && c < lo + 32)).foldl (fun m c => setBit m (c - lo) true) 0
  let s := setFs { s with shed := {} } [(Fld.FLT_SAT_SHED_STEPS, n), (Fld.FLT_SAT_QUIET_STEPS, q), (Fld.FLT_SAT_FLOOR, b2n h.floor),
    (Fld.FLT_SAT_BACKBONE, b2n h.bb), (Fld.FLT_SAT_NE_QUEUE, b2n h.obs), (Fld.FLT_SAT_SMALL, b2n h.truss),
    (Fld.FLT_SAT_CTX_LO_CONTEXTS, mask 0), (Fld.FLT_SAT_CTX_HI_CONTEXTS, mask 32)]
  if !was && 20 ≤ n then done (raise (setF s Fld.FLT_SAT_SATURATED 1) .saturated)
  else if was && 100 ≤ q then done (logEvent (setF s Fld.FLT_SAT_SATURATED 0) (.note "SATURATED ends" []))
  else done s

/-! ## VIO33 (16 R515) -/

/-- VIO33_OVERLOAD: present while PD3 is powered; an injected overload does not fold it back. -/
def execVio33Overload (mA : Fin 65536) (s : State) : Host.Outcome State Fault Refusal :=
  if !domainOn s 3 then done s
  else
    let s := if forced s .vio33Overload 0 then s else startTime (mapPw s (fun p => { p with vio33Folded := true })) tmVio
    done (raiseFault s .vio33Overload 0 (Detector.severity .vio33Overload 0) mA.val)

/-- VIO33_RECOVER: 100 ms below 20 mA, so not before 100 ms after the overload. -/
def execVio33Recover (s : State) : Host.Outcome State Fault Refusal :=
  if timeRan s tmVio (100 * msCycles) then done (mapPw s (fun p => { p with vio33Folded := false })) else done s

/-! ## Injection begins (15 R490 to R492) -/

/-- The condition of a Force that acts as it starts (Table 1): the counters of a CAN channel, a PAUSE, a link dropped, a clock's window moved off its
value, PW_TEMP read as 115 °C. Each detector then acts as on the real condition. -/
def forceStart (s : State) (d : Detector) (n : Nat) : State :=
  match d with
  | .canPassive => if n < 12 then (let s := setF s (Fld.CANn_STAT_TEC n) 128; errorPassive s n (getF s (Fld.CANn_STAT_REC n))) else s
  | .canBusoff => if n < 12 then busOff (setF s (Fld.CANn_STAT_TEC n) 256) n else s
  | .macPauseWd =>
    if n < 6 && getB s (Fld.MACn_CFG_RX_PAUSE_EN n) && !getB s (Fld.MACn_STATUS_PAUSE_STUCK n) && !getB s (Fld.MACn_STATUS_PAUSED n) then
      setF (startTime s (tmHeld n)) (Fld.MACn_STATUS_PAUSED n) 1 else s
  | .macLinkLost => if n < 6 then loseLink s n false else s
  | .clkLocal => if 5 ≤ n && n ≤ 7 then clockLoss s n (tabGet 0 s.pw.clkErr n) else s
  | .tempHot => raise (setFs s [(Fld.PW_TEMP_TEMP, 115), (Fld.PW_TEMP_HOT, 1)]) .tempHot
  | _ => s

/-- A Raise carries out the reaction that is not the collector's own (R491): a tamper source's, by its ACTION. -/
def raiseReact (s : State) (d : Detector) (n : Nat) : State :=
  if d = .tmpSource && n < 9 then
    let a := tamperAction s n
    if 2 ≤ a then kerf (tamperMark s n a) else tamperMark s n a
  else s

/-- START with the identity of FLT_INJ (R490, R491): a Raise records its entry and ends at once, a Force stays active. -/
def injStart (s : State) (q : Requester) : State :=
  let r := injResult s q
  let s := setFs s [(Fld.FLT_INJ_CTL_OP, 1), (Fld.FLT_INJ_CTL_RESULT, r), (Fld.FLT_INJ_CTL_BUSY, 0), (Fld.FLT_INJ_CTL_GO, 0)]
  if r ≠ 0 then s
  else match Detector.ofCode? (getF s Fld.FLT_INJ_DETECTOR) with
    | none => s
    | some d =>
      let n := getF s Fld.FLT_INJ_INSTANCE
      let arg := getF s Fld.FLT_INJ_ARG_ARG
      if !getB s Fld.FLT_INJ_KIND then raiseReact (raiseFault s d n (d.severity n) arg true) d n
      else
        let dur := getF s Fld.FLT_INJ_DURATION_MS
        let stop := if dur = 0 then none else some (s.mono + 4 * dur)
        let j : Injection := { det := d, inst := n, arg := arg, symbols := getF s Fld.FLT_INJ_CTL_SYMBOLS, endAt := stop }
        forceStart { s with flt := { s.flt with inj := some j } } d n

/-- INJ_START: FLT_INJ_CTL START by requester `q` for the identity, kind and argument given. -/
def execInjStart (q : Requester) (det : Fin 256) (n : Fin 4096) (force : Bool) (durationMs : Fin 256) (arg : Word) (symbols : Fin 0x100000)
    (s : State) : Host.Outcome State Fault Refusal :=
  done (injStart (setFs s [(Fld.FLT_INJ_DETECTOR, det.val), (Fld.FLT_INJ_INSTANCE, n.val), (Fld.FLT_INJ_KIND, b2n force),
    (Fld.FLT_INJ_DURATION_MS, durationMs.val), (Fld.FLT_INJ_ARG_ARG, arg.toNat), (Fld.FLT_INJ_CTL_SYMBOLS, symbols.val)]) q)

end Sys2Proof.Machine
end

