-- ==== Sys2Proof/Machine/RegRead.lean ====
section
/-! DEFINITION. Machine/RegRead.lean: reading a system register (00 R4 to R6, R538): the register of an address, its stored fields, and the registers
that show other state of the machine. -/

namespace Sys2Proof.Machine

/-! ## The register at an address (R4) -/

/-- The indices that an offset has along dimensions (count, stride), outermost first. An address inside a register's word that is not its first byte falls
in no register: the spec does not say (DESIGN CHOICE, log 99). -/
def decompose : List (Nat × Nat) → Nat → Option (List Nat)
  | [], off => if off = 0 then some [] else none
  | (n, stride) :: t, off =>
    if off / stride < n then (decompose t (off % stride)).map (fun l => off / stride :: l) else none

/-- The registers of a part of the map that hold address `a`, with its indices. -/
def findIn (a : Nat) : List RegDesc → Option (RegDesc × List Nat)
  | [] => none
  | r :: t => if a < r.base then findIn a t else match decompose r.dims (a - r.base) with
    | some ix => some (r, ix)
    | none => findIn a t

/-- The register at an address. Offset 0x22C of a MAC is reserved (09 Table 12): no register. -/
def findReg (a : Nat) : Option (RegDesc × List Nat) :=
  match findIn a regMap with
  | some (r, ix) => if r.base = (Fld.MACn_CNT_COUNT 0 0).addr && ix.getD 1 0 = 11 then none else some (r, ix)
  | none => none

/-- The bank that a requester, or its selected loop, has of a register kept per requester or per loop (06 R193, 13 R436). -/
def regBank (s : State) (q : Requester) (base : Nat) : Nat :=
  if base = Fld.LP_SEL_LOOP.addr || base = Fld.LP_G_SEL_GROUP.addr || base = Fld.KS_SEL_PAIR.addr || base = Fld.KS_CMD_OP.addr
    || base = Fld.KS_EXPECT_CHECK.addr || base = (Fld.KS_BUF_DATA 0).addr then q.num
  else if base = Fld.LP_L_CMD_OP.addr then 16 + getF s (Fld.LP_SEL_LOOP.bank q.num) else 0

/-- Reset value of a field where it differs along an index (09 R305, 08 Table 3). -/
def fieldRst (r : RegDesc) (ix : List Nat) (f : FieldDesc) : Nat :=
  if r.base = (Fld.MACn_CFG_RX_PAUSE_EN 0).addr && f.lo = 4 then macRxPauseReset (ix.getD 0 0)
  else if r.base = (Fld.MACn_ID_KIND 0).addr then (if f.lo = 0 then macKind (ix.getD 0 0) else macIndex (ix.getD 0 0))
  else if r.base = (Fld.TR_POOL_FREE 0 0).addr && f.lo < 31 then poolSize (ix.getD 1 0)
  else f.rst

/-- A field of the register at `a`. -/
def fieldRF (s : State) (q : Requester) (r : RegDesc) (ix : List Nat) (a : Nat) (f : FieldDesc) : RF :=
  ({ addr := a, lo := f.lo, w := f.w, rst := fieldRst r ix f, lvl := f.lvl } : RF).bank (regBank s q r.base)

/-- A field that this MAC has: floor and backbone fields read zero and ignore writes on the other kind (09 R305). -/
def fieldPresent (r : RegDesc) (ix : List Nat) (f : FieldDesc) : Bool :=
  let floor := decide (2 ≤ ix.getD 0 0)
  if r.base = (Fld.MACn_CFG_MODE 0).addr then floor || decide (4 ≤ f.lo)
  else if r.base = (Fld.MACn_STAG_EN 0).addr || r.base = (Fld.MACn_BB_RX_CTX 0).addr then !floor
  else if r.base = (Fld.MACn_EEE_IDLE_US 0).addr then floor
  else if r.base = (Fld.MACn_LINK_UP 0).addr then floor || f.lo ≠ 7
  else true

/-- The word of stored fields: WO fields read zero (R6). -/
def storedWord (s : State) (q : Requester) (r : RegDesc) (ix : List Nat) (a : Nat) : Nat :=
  (r.fields.filter (fun f => f.acc != .wo && fieldPresent r ix f)).foldl (fun n f => n + getF s (fieldRF s q r ix a f) * 2 ^ f.lo) 0

/-! ## Registers that show other state -/

/-- A signed value as `w` bits. -/
def sbits (w : Nat) (i : Int) : Nat := (i % (2 ^ w : Nat)).toNat

/-- LP_L_CFG to LP_L_COST of the loop that requester `q` selects (06 Table 9). -/
def loopView (s : State) (q : Requester) (a : Nat) : Nat :=
  let n := getF s (Fld.LP_SEL_LOOP.bank q.num)
  match tabGet? s.loops n with
  | none => 0
  | some l =>
    let d := l.dfn
    if a = Fld.LP_L_CFG_NSEC.addr then
      d.secs.length % 16 + b2n ((d.secs.getLast?.map (fun x => x.integ)).getD false) * 2 ^ 4 + b2n d.groupEn * 2 ^ 5 + d.group % 512 * 2 ^ 6
        + d.tenant % 4096 * 2 ^ 16 + 2 ^ 31
    else if a = Fld.LP_L_STATE_STATE.addr then
      l.state.code + l.sat * 2 ^ 3 + b2n l.losing * 2 ^ 5 + b2n l.badPv * 2 ^ 6 + b2n l.inSat * 2 ^ 7 + b2n l.secSat * 2 ^ 8 + l.ovrConsec % 16 * 2 ^ 9
        + l.supv * 2 ^ 13 + l.cnt % 256 * 2 ^ 16 + l.safeCause * 2 ^ 24
    else if a = Fld.LP_L_MANUAL_VALUE.addr then sbits 16 l.manual
    else if a = Fld.LP_L_SP_WORKING.addr then sbits 16 l.w + sbits 16 l.target * 2 ^ 16
    else if a = Fld.LP_L_OUT_APPLIED.addr then sbits 16 l.applied + sbits 16 l.raw * 2 ^ 16
    else if a = Fld.LP_L_MODEL_YM.addr then sbits 16 l.ym + sbits 16 l.residual * 2 ^ 16
    else if a = Fld.LP_L_COUNTS_OVERRUNS.addr then satAt 0xFFFF l.overruns + satAt 0xFFFF l.badPvCount * 2 ^ 16
    else if a = Fld.LP_L_FAULTS_FE_EVENTS.addr then satAt 0xFFFF l.feEvents + satAt 0xFFFF l.plEvents * 2 ^ 16
    else if a = Fld.LP_L_LAT_LAST.addr then satAt 0xFFFF l.latLast + satAt 0xFFFF l.latMax * 2 ^ 16
    else if a = Fld.LP_L_COST_CYCLES.addr then
      let clock := getF s (Fld.LP_E_UTIL_CLOCK (loopEngine n))
      satAt 0xFFFF (loopCost clock (ptType s) s.groups d) + satAt 0xFFFF (loopUnits clock (ptType s) s.groups d) * 2 ^ 16
    else 0

/-- LP_G_STAT of the selected group. -/
def groupView (s : State) (q : Requester) : Nat :=
  match tabGet? s.groups (getF s (Fld.LP_G_SEL_GROUP.bank q.num)) with
  | none => 0
  | some g => sbits 16 g.output + g.winner % 8 * 2 ^ 16 + b2n g.none * 2 ^ 19 + g.members.length % 16 * 2 ^ 20 + 2 ^ 31

/-- LG_C_* of circuit `c` (07 Table 13). -/
def vigView (s : State) (a c : Nat) : Nat :=
  let v := vigAt s c
  if a = (Fld.LG_C_VCHG_CHARGE 0).addr then v.charge % 2 ^ 32
  else if a = (Fld.LG_C_VEST_ESTIMATE 0).addr then v.est % 2 ^ 32
  else if a = (Fld.LG_C_VSEEN_WINDOWS 0).addr then satAt 0xFFFF v.windows + satAt 0xFFFF v.episodes * 2 ^ 16
  else v.first % 2 ^ 16

/-- Milliseconds since grid tick `m` of the elapsed count, saturating; 0xFFFF for none. -/
def ageMs (s : State) (m : Option Nat) : Nat := match m with | none => 0xFFFF | some x => satAt 0xFFFF ((s.mono - x) / 4)

/-- TR_DIR_ENT and TR_DIR_SER of the selected module (08 Table 8). -/
def dirView (s : State) (a : Nat) : Nat :=
  let e := dirAt s (getF s Fld.TR_DIR_SEL_MODULE)
  if a = Fld.TR_DIR_ENT_STATE.addr then
    e.state + e.lanes % 4 * 2 ^ 2 + b2n e.steered * 2 ^ 4 + e.mode % 8 * 2 ^ 5 + e.scf % 8 * 2 ^ 8 + e.severity % 4 * 2 ^ 12 + ageMs s e.lastHb * 2 ^ 16
  else if a = Fld.TR_DIR_SER_LO_SERIAL.addr then bitsOf e.serial 0 32 else bitsOf e.serial 32 32

/-- CANn_RC_NODE and CANn_RC_UID of the selected node (11 Table 8). -/
def rcView (s : State) (n word : Nat) : Nat :=
  match tabGet? (canAt s n).nodes (getF s (Fld.CANn_RC_SEL_NODE n)) with
  | none => if word = 0 then 0xFFFF0000 else 0
  | some d =>
    match word with
    | 0 => d.st + b2n d.learned * 4 + d.status % 256 * 2 ^ 8
        + (match d.last with | none => 0xFFFF | some t => satAt 0xFFFF ((elapsedUs s - t) / 1000)) * 2 ^ 16
    | 1 => bitsOf d.uid 0 32
    | _ => bitsOf d.uid 32 32

/-- UARTn_ST_STAT of the selected station (11 Table 15). -/
def stationView (s : State) (u : Nat) : Nat :=
  let st := getF s (Fld.UARTn_ST_SEL_STATION u)
  let mapped := s.field.maps.any (fun kv => (kv.2.kind == .mbRead || kv.2.kind == .mbWrite) && kv.2.channel == uartWriter u && kv.2.node == st)
  let x := stationAt s u st
  (if !mapped then 0 else if x.absent then 2 else 1) + x.lastExc % 256 * 2 ^ 8 + satAt 0xFFFF x.timeouts * 2 ^ 16

/-- The gaps in effect in µs, rounded up (11 R363); zero while the line is not in use. A gap that does not fit its field: the spec states no value
(log 4). -/
def gapView (s : State) (u : Nat) : Nat :=
  if !getB s (Fld.UARTn_CFG_EN u) then 0
  else
    let fit (v : Nat) : Nat := if v < 2 ^ 16 then v else Config.crypto 29 [v] % 2 ^ 16
    fit (gapUs s u).1 + fit (gapUs s u).2 * 2 ^ 16

/-- KS_PAIR, KS_POLICY and KS_KCV of the requester's pair (13 R436). -/
def pairView (s : State) (q : Requester) (a : Nat) : Nat :=
  let x := tabGet ({} : SlotPair) s.se.slots (getF s (Fld.KS_SEL_PAIR.bank q.num))
  if a = Fld.KS_PAIR_TYPE.addr then
    x.ty % 8 + x.active % 2 * 2 ^ 3 + b2n x.key0.isSome * 2 ^ 4 + b2n x.key1.isSome * 2 ^ 5 + x.binding % 4096 * 2 ^ 8 + x.gen % 4096 * 2 ^ 20
  else if a = Fld.KS_POLICY_POLICY.addr then x.policy % 2 ^ 16
  else if a = Fld.KS_KCV0_CHECK.addr then x.kcv0 % 2 ^ 24 else x.kcv1 % 2 ^ 24

/-- FLT_STAT's computed bits (15 Table 7); the stored counters keep their places. -/
def fltStatView (s : State) : Nat :=
  (match presented s with | some e => e.sev.code | none => 0) * 2 ^ 6 + s.flt.queue.length % 64 + s.flt.backlog.length % 32 * 2 ^ 8
    + b2n s.flt.inj.isSome * 2 ^ 13 + getF s Fld.FLT_STAT_INJ_FUSE * 2 ^ 14 + getF s Fld.FLT_SAT_SATURATED * 2 ^ 15
    + getF s Fld.FLT_STAT_OVERWRITTEN * 2 ^ 16 + getF s Fld.FLT_STAT_DROPPED * 2 ^ 24

/-- The level at PULSEk while the output drives it (16 R505, R530); none where the carrier or a pull gives the level. -/
def pulseLevel (s : State) (k : Nat) : Option Bool :=
  if !getB s (Fld.MT_PULSE_CFG_EN k) || !domainOn s 9 then none
  else
    let active := (pulseAt s k).active
    let level := active != getB s (Fld.MT_PULSE_CFG_POL k)
    if bitOf (getF s Fld.PULSE_PAD_OPEN_DRAIN) k && level then none else some level

/-- SB_STAT (16 R524). -/
def sbStat (s : State) : Nat :=
  let txdis (m : Nat) : Bool := getB s (Fld.MACn_LINK_DISABLED m) || (!domainOn s 10 && !getB s (Fld.MACn_STATUS_WAKE_ARMED m))
  b2n (macAt s 0).los + b2n (txdis 0) * 2 + b2n (macAt s 1).los * 4 + b2n (txdis 1) * 8

/-- Any task has a cycle in progress (04 Table 12, IN_CYCLE). -/
def anyInCycle (s : State) : Bool := s.tasks.any (fun kt => kt.2.phase != .idle)

/-- The requester's RTC shadow is open. -/
def rtcShadow (s : State) (q : Requester) : Bool := (tabGet? s.shadows (shadowKey 2 q)).isSome

/-- Whether the last drift measurement completed in the last 200 s. -/
def driftFresh (s : State) : Bool := match s.rtc.driftAt with | some m => decide (s.mono ≤ m + 800000) | none => false

/-- Word `w` of FLT_HEAD or FLT_FIRST. -/
def entryView (e : Option FltEntry) (w : Nat) : Nat := match e with | some x => entryWord x w | none => 0

/-- The word of a register that shows other state, by its base address and indices; `none`: its stored fields are what it reads. -/
def viewWord (s : State) (q : Requester) (b : Nat) (ix : List Nat) (st : Nat) : Option Nat :=
  let i := ix.getD 0 0
  let j := ix.getD 1 0
  if b < 0x200000 then
    if b = Fld.PW_GOV_STAT_WAITING.addr then some (st - st % 256 + satAt 255 s.pw.waiting.length)
    else if b = Fld.CLK_MON_FREQ_ERROR.addr then some (tabGet 0 s.pw.clkErr (getF s Fld.CLK_MON_SEL_CLOCK) % 2 ^ 24)
    else if b = Fld.FLT_STAT_COUNT.addr then some (fltStatView s)
    else if b = (Fld.FLT_HEAD_ENTRY 0).addr then some (entryView (presented s) i)
    else if b = (Fld.FLT_FIRST_ENTRY 0).addr then some (entryView s.flt.first i)
    else if b = Fld.SCF_STATE_STATE.addr then some (st - bitsOf st 4 1 * 16 + b2n (!s.pt.locked.isEmpty) * 16)
    else if b = Fld.SCF_QUEUE_DEPTH.addr then some (st - st % 32 + s.scf.queue.length % 32)
    else none
  else if b < 0x220000 then
    if b = Fld.PT_COUNT_DEFINED.addr then some (s.pt.recs.filter (fun kv => kv.2.defined)).length
    else if b = Fld.PT_FCOUNT_FORCED.addr then some (s.pt.recs.filter (fun kv => kv.2.force)).length
    else if b = Fld.PT_USEC_USEC.addr then some (usecNow s)
    else if b = Fld.PT_STALE_LATCHED.addr then some (s.pt.recs.filter (fun kv => kv.2.staleLatch)).length
    else if b = Fld.LE_GSTAT_STEERED.addr then some (st - bitsOf st 4 1 * 16 + b2n (modeOf s = 2 && !anyInCycle s) * 16)
    else if b = (Fld.LE_T_EVDROP_COUNT 0 0).addr then
      some (match tabGet? s.tasks (i * 8 + j) with | some t => satAt 0xFFFF t.run.evDrop | none => 0)
    else none
  else if b < 0x230000 then
    if b = (Fld.LP_E_UTIL_UTIL 0).addr then
      some (st - bitsOf st 28 1 * 2 ^ 28 + b2n (s.loops.all (fun kl => loopEngine kl.1 != i || kl.2.due.isNone)) * 2 ^ 28)
    else if b = Fld.LP_G_STAT_OUTPUT.addr then some (groupView s q)
    else if b = Fld.LP_SEL_LOOP.addr || b = Fld.LP_L_CMD_OP.addr || b = Fld.LP_G_SEL_GROUP.addr || b < Fld.LP_SEL_LOOP.addr then none
    else some (loopView s q b)
  else if b < 0x300000 then
    if b = (Fld.MT_PULSE_BKLG_BACKLOG 0).addr then some (tabGet 0 s.me.backlogs i % 2 ^ 32)
    else if (Fld.LG_C_VCHG_CHARGE 0).addr ≤ b && b ≤ (Fld.LG_C_VFIRST_WINDOW 0).addr then some (vigView s b i)
    else if b = (Fld.LG_A_TOT_LO_TOTAL_LO 0 0).addr then some ((accView s q i j).getD 1 0 % 2 ^ 32)
    else if b = (Fld.LG_A_RES_RESIDUE 0 0).addr then some ((accView s q i j).getD 3 0 % 2 ^ 16)
    else none
  else if b < 0x330000 then
    if b = Fld.NE_TIME_SEC_LO_SEC_LO.addr then some (timeSec s q % 2 ^ 32)
    else if b = Fld.TR_SELF_NUMBER.addr then some (st - bitsOf st 26 1 * 2 ^ 26 + b2n (synced s) * 2 ^ 26)
    else if b = Fld.TR_MARKS_RECEIVED.addr then some (st % 2 ^ 16 + ageMs s s.tr.lastMark * 2 ^ 16)
    else if b = Fld.TR_DIR_ENT_STATE.addr || b = Fld.TR_DIR_SER_LO_SERIAL.addr || b = Fld.TR_DIR_SER_HI_SERIAL.addr then some (dirView s b)
    else none
  else if b < 0x500000 then
    if b = (Fld.CANn_RC_NODE_STATE 0).addr then some (rcView s i 0)
    else if b = (Fld.CANn_RC_UID_LO_UID 0).addr then some (rcView s i 1)
    else if b = (Fld.CANn_RC_UID_HI_UID 0).addr then some (rcView s i 2)
    else if b = (Fld.CANn_RC_STAT_REFUSED 0).addr then
      some (((canAt s i).nodes.filter (fun kv => kv.2.st == 3)).length % 128 + (canAt s i).nodes.length % 128 * 2 ^ 8
        + getF s (Fld.CANn_RC_STAT_REFUSED i) * 2 ^ 16)
    else if b = (Fld.CANn_FIFO_LEVEL0 0).addr then some ((canAt s i).fifo0.length % 128 + (canAt s i).fifo1.length % 128 * 2 ^ 16)
    else if b = (Fld.CANn_CNT_COUNT 0 0).addr then (if j = 13 then some (txPending s i) else none)
    else if b = (Fld.UARTn_ST_STAT_STATE 0).addr then some (stationView s i)
    else if b = (Fld.UARTn_STAT_IDLE 0).addr then
      some (st % 2 ^ 16 - bitsOf st 1 1 * 2 + b2n (deOn s i) * 2 + ((uartAt s i).writes.length + (uartAt s i).due.length) % 4096 * 2 ^ 16)
    else if b = (Fld.UARTn_GAPEFF_T15 0).addr then some (gapView s i)
    else none
  else if b = Fld.RTC_DRIFT_PPM.addr then some (st - bitsOf st 25 1 * 2 ^ 25 + b2n (driftFresh s) * 2 ^ 25)
  else if b = Fld.RTC_STAT_LOADS.addr then some (st - st % 2 + b2n (rtcShadow s q))
  else if b = Fld.KS_STAT_ROOT.addr then some (st - st % 128 + (s.se.slots.filter (fun kv => !kv.2.empty)).length % 128)
  else if b = Fld.KS_PAIR_TYPE.addr || b = Fld.KS_POLICY_POLICY.addr || b = Fld.KS_KCV0_CHECK.addr || b = Fld.KS_KCV1_CHECK.addr then some (pairView s q b)
  else if b = Fld.FUSE_ID_PART.addr then some (if getB s Fld.RST_LOAD_FUSE_VALID then st else 0)
  else if b = Fld.SB_STAT_BB0_LOS.addr then some (sbStat s)
  else none

/-! ## Reading (R4, R6, R538) -/

/-- Replaces the bits of `st` in a measured field by a free value: no command of the table gives the measurement (log 4). -/
def measured (s : State) (st lo w : Nat) : State :=
  let (v, s) := freshFree s
  setReply s [st - bitsOf st lo w * 2 ^ lo + v % 2 ^ w * 2 ^ lo]

/-- The levels at the PULSE lands: those that the outputs drive, and a free value for each other (log 4). -/
def readPulse (s : State) : State :=
  let (v, s) := freshFree s
  setReply s [(List.range 8).foldl (fun n k => n + b2n ((pulseLevel s k).getD (bitOf v k)) * 2 ^ k) 0]


/-- A read by requester `q` of the register `r` with indices `ix` at address `a`: the reply is its word. RS registers open, refresh or close the
requester's shadow (R538). -/
def readFound (s : State) (q : Requester) (r : RegDesc) (ix : List Nat) (a : Nat) : State :=
  let i := ix.getD 0 0
  let j := ix.getD 1 0
  let st := storedWord s q r ix a
  if r.base = Fld.LE_GRID_LO_TICK_LO.addr then
    setReply { s with shadows := tabPut s.shadows (shadowKey 0 q) [s.tick] } [bitsOf s.tick 0 32]
  else if r.base = Fld.LE_GRID_HI_TICK_HI.addr then
    (match tabGet? s.shadows (shadowKey 0 q) with
    | some (t :: _) => setReply { s with shadows := tabDel s.shadows (shadowKey 0 q) } [bitsOf t 32 16]
    | _ => setReply s [bitsOf s.tick 32 16])
  else if r.base = Fld.RTC_TICK_LO_TICK_LO.addr then readTickLo s q
  else if r.base = Fld.RTC_TICK_HI_TICK_HI.addr then readTickHi s q
  else if r.base = Fld.NE_TIME_NS_NS.addr then readTimeNs s q
  else if r.base = Fld.NE_TIME_SEC_HI_SEC_HI.addr then readTimeSecHi s q
  else if r.base = (Fld.LG_A_INT_INTERVAL 0 0).addr then readAccInt s q i j
  else if r.base = (Fld.LG_A_TOT_HI_TOTAL_HI 0 0).addr then readAccHi s q i j
  else if r.base = Fld.PW_TEMP_TEMP.addr then measured s st 0 8
  else if r.base = Fld.TMP_MON_VSILL.addr then
    (let s := measured s st 0 12; measured s (s.reply.getD 0 0) 16 8)
  else if r.base = Fld.PULSE_LEVEL_LEVEL.addr then readPulse s

  else setReply s [(viewWord s q r.base ix st).getD st]

/-- A read of the register at `a` by requester `q`; an address in no register reads zero and raises a Note fault (R4). -/
def readReg (s : State) (q : Requester) (a : Nat) : State :=
  match findReg a with
  | none => setReply (raise s .regNone) [0]
  | some (r, ix) => readFound s q r ix a

/-- The word the last read returned. -/
def replyWord (s : State) : Word := Word.ofNat (s.reply.getD 0 0)

end Sys2Proof.Machine
end

