-- ==== Sys2Proof/Machine/RegWrite.lean ====
section
/-! DEFINITION. Machine/RegWrite.lean: what a write to a system register does to its fields (00 R5 to R9); the actions that a write starts are in
Machine/Registers.lean. -/

namespace Sys2Proof.Machine

/-- The fields of register `r` that this one of its index has, with an access that satisfies `p`. -/
def fieldsWith (r : RegDesc) (ix : List Nat) (p : Acc → Bool) : List FieldDesc := r.fields.filter (fun f => p f.acc && fieldPresent r ix f)

/-- Those fields take their bits of word `w`. -/
def setWord (s : State) (q : Requester) (r : RegDesc) (ix : List Nat) (a w : Nat) (p : Acc → Bool) : State :=
  (fieldsWith r ix p).foldl (fun s f => setF s (fieldRF s q r ix a f) (bitsOf w f.lo f.w)) s

/-- Each W1C bit that `w` holds as 1 is cleared, but for those that hardware has set in this fabric cycle (R7). -/
def clearWord (s : State) (q : Requester) (r : RegDesc) (ix : List Nat) (a w : Nat) : State :=
  (fieldsWith r ix (· == .w1c)).foldl (fun s f =>
    let g := fieldRF s q r ix a f
    let old := getF s g
    let bits := bitsOf w f.lo f.w
    let clear := bits - (bits &&& tabGet 0 s.cyc.latched g.key)
    setF s g (old - (old &&& clear))) s

/-- Access codes whose write takes effect at once or at a boundary. -/
def Acc.direct (c : Acc) : Bool := c == .rw || c == .lv

/-- Access codes that a commit applies (R6, R103). -/
def Acc.committed (c : Acc) : Bool := c == .rw || c == .lv || c == .st

/-- In Deployed, a write that would clear EN or lower ACTION of tamper source `i` keeps the old value (13 R426). -/
def tamperGuard (s : State) (base i w : Nat) : Bool :=
  base = (Fld.TMP_SRC_EN 0).addr && getF s Fld.LC_STATE_STATE = 2
    && ((getB s (Fld.TMP_SRC_EN i) && !bitOf w 0) || decide (bitsOf w 1 2 < getF s (Fld.TMP_SRC_ACTION i)))

/-- The value fields of the register at `a` as a commit applies word `w` (05 R146). -/
def commitWord (s : State) (a w : Nat) : State :=
  match findReg a with
  | none => s
  | some (r, ix) => if tamperGuard s r.base (ix.getD 0 0) w then raise s .stOutside (a / 65536 % 256) else setWord s .sv r ix a w Acc.committed

/-- A write outside a commit (R6, R9): RW and LV fields take their bits, RO and RS fields ignore it, and a register with an ST field keeps that and raises
a Note fault. -/
def directWord (s : State) (q : Requester) (r : RegDesc) (ix : List Nat) (a w : Nat) : State :=
  let s := setWord s q r ix a w Acc.direct
  if (fieldsWith r ix (· == .st)).isEmpty then s else raise s .stOutside (a / 65536 % 256)

end Sys2Proof.Machine
end

