-- ==== Sys2Proof/Machine/ImageFmt.lean ====
section
/-! DEFINITION. Machine/ImageFmt.lean: the Decend image (03 R72 to R77): header, signature step, version, sections and task descriptors, steps 1 to 5 of the
verifier (R108). -/

namespace Sys2Proof.Machine

/-- A rejection by the verifier, the record of R108 without its IMAGE_ID. -/
structure Rej where
  code : Nat
  sec : Nat := 0
  task : Nat := 0xFF
  off : Nat := 0
  detail : Nat := 0
deriving DecidableEq, Repr

/-- The first rejection among checks in order. -/
def firstRej : List (Option Rej) → Option Rej
  | [] => none
  | some r :: _ => some r
  | none :: t => firstRej t

/-- A little-endian word at octet `off`. -/
def leWord (b : List Nat) (off : Nat) : Nat :=
  b.getD off 0 + b.getD (off + 1) 0 * 2 ^ 8 + b.getD (off + 2) 0 * 2 ^ 16 + b.getD (off + 3) 0 * 2 ^ 24

/-- Octets as little-endian words. -/
def packWords : List Nat → List Nat
  | a :: b :: c :: d :: t => (a + b * 2 ^ 8 + c * 2 ^ 16 + d * 2 ^ 24) :: packWords t
  | _ => []

/-- An image taken apart: header fields, its sections in words, its joinery's local types, and its task descriptors in TASK_NO order. -/
structure Parsed where
  alg : Nat := 0
  keySlot : Nat := 0
  tenant : Nat := 0
  nTasks : Nat := 0
  imageId : Nat := 0
  version : Nat := 0
  length : Nat := 0
  task : List Nat := []
  joinery : List Nat := []
  consts : List Word := []
  table : List Word := []
  tasks : List TaskDef := []
deriving DecidableEq, Repr

/-- Bits of header words 0 to 15 that Table 1 names. -/
def headerMask (i : Nat) : Nat :=
  match i with | 1 => 0x3FFFFFFF | 2 => 0x007F0FFF | 6 => 0 | 7 => 0 | _ => 0xFFFFFFFF

/-- The first of words 0 to 15 with a reserved bit set, then the first nonzero octet from 0x40 to 0xFF: its offset. -/
def headerStray (b : List Nat) : Option Nat :=
  match (List.range 16).find? (fun i => leWord b (4 * i) - (leWord b (4 * i) &&& headerMask i) ≠ 0) with
  | some i => some (4 * i)
  | none => ((List.range 192).find? (fun i => b.getD (0x40 + i) 0 ≠ 0)).map (0x40 + ·)

/-- Step 1 (R72): MAGIC, FORMAT, reserved bits. -/
def headerCheck (b : List Nat) : Option Rej :=
  if b.length < 0x100 then some { code := 0x01, off := b.length / 4, detail := b.length }
  else if leWord b 0 ≠ 0x444E4344 then some { code := 0x01 }
  else if leWord b 4 % 2 ^ 16 ≠ 1 then some { code := 0x01, off := 1, detail := 4 }
  else (headerStray b).map (fun o => { code := 0x01, off := o / 4, detail := o })

/-- Octets of a signature by SIG_ALG (R74). -/
def sigLen (alg : Nat) : Option Nat := match alg with | 1 => some 64 | 2 => some 96 | _ => none

/-- The key slot permits the image's verification (R74, 13 R415): its type is that of the algorithm, its policy permits VERIFY_IMAGE, it is bound to the
image's tenant or to 4095, it holds a key, and SE serves verifications in this life-cycle state. -/
def imageKeyOk (s : State) (alg slot tenant : Nat) : Bool :=
  let p := tabGet ({} : SlotPair) s.se.slots slot
  let st := getF s Fld.LC_STATE_STATE
  decide (p.ty = if alg = 1 then 4 else 5) && bitOf p.policy 0 && (p.binding = tenant || p.binding = 4095) && (p.key0.isSome || p.key1.isSome)
    && st ≠ 3 && st ≠ 4

/-- The highest VERSION accepted for a tenant and image (R75). -/
def versionOf (s : State) (tenant image : Nat) : Option Nat :=
  (s.scf.versions.find? (fun v => v.1 = tenant && v.2.1 = image)).map (fun v => v.2.2)

/-- Step 2 (R74): SIG_ALG, length, key slot, signature. -/
def signatureCheck (s : State) (img : Image) (alg slot tenant length : Nat) : Option Rej :=
  match sigLen alg with
  | none => some { code := 0x02, off := 1, detail := alg }
  | some n =>
    if img.bytes.length ≠ length + n then some { code := 0x02, off := 1, detail := alg }
    else if !imageKeyOk s alg slot tenant then some { code := 0x03, off := 1, detail := slot }
    else if !img.sigOk then some { code := 0x02, off := 1, detail := alg }
    else none

/-- Largest section lengths (R73). -/
def secLimit (k : Nat) : Nat := match k with | 0 => 2 ^ 22 | 1 => 2 ^ 20 | 2 => 2 ^ 18 | _ => 2 ^ 28

/-- The sections k, k+1, … after octet `floor` (R73), the last nonempty one being `last`: the first section that
breaks the rule; then an image without code (DETAIL 0), and a LENGTH that is not the end of the last section. A .joinery shorter than its 260 octets of
header breaks it too (DESIGN CHOICE, log 113). -/
def sectionsCheck (b : List Nat) (length : Nat) : Nat → Nat → Nat → Nat → Option Nat
  | 0, _, floor, last => if leWord b 0x24 = 0 && leWord b 0x2C = 0 then some 0 else if floor = length then none else some last
  | n + 1, k, floor, last =>
    let o := leWord b (0x20 + 8 * k)
    let l := leWord b (0x24 + 8 * k)
    if l = 0 then (if o ≠ 0 then some k else sectionsCheck b length n (k + 1) floor last)
    else if o % 64 ≠ 0 || o < floor || l % 4 ≠ 0 || secLimit k < l || length < o + l || (k = 1 && l < 260) then some k
    else sectionsCheck b length n (k + 1) (o + l) k

/-- Step 4 (R73, R539). The record names the section by its number from 1 and word 0 (DESIGN CHOICE, log 112). -/
def sectionCheck (b : List Nat) (length : Nat) : Option Rej :=
  (sectionsCheck b length 4 0 0x100 0).map (fun k => { code := 0x05, sec := k + 1, detail := k })

/-- Section k in words. -/
def sectionWords (b : List Nat) (k : Nat) : List Nat := packWords ((b.drop (leWord b (0x20 + 8 * k))).take (leWord b (0x24 + 8 * k)))

/-! ## Task descriptors (R77) -/

/-- Fields of a descriptor with a range: word, low bit, width, least, most. -/
def descRanges : List (Nat × Nat × Nat × Nat × Nat) :=
  [(0, 0, 8, 0, 63), (0, 12, 4, 1, 15), (0, 16, 16, 2, 40000), (1, 0, 9, 1, 256), (1, 16, 9, 0, 256), (2, 0, 9, 0, 256), (2, 16, 11, 0, 1024),
   (3, 0, 13, 0, 4096), (3, 16, 11, 0, 1024), (4, 0, 9, 0, 256), (4, 16, 5, 0, 16), (5, 0, 17, 1, 65536)]

/-- Bits of a descriptor's words that Table 2 names. -/
def descMask (i : Nat) : Nat :=
  match i with
  | 0 => 0xFFFFF1FF | 1 => 0x01FF01FF | 2 => 0x07FF01FF | 3 => 0x07FF1FFF | 4 => 0xBF1F01FF | 5 => 0x0001FFFF | 14 => 0 | 15 => 0 | _ => 0xFFFFFFFF

/-- The lists of a descriptor: word of the offset, where the count lies (word, low bit, width), octets of an item. -/
def descLists : List (Nat × Nat × Nat × Nat × Nat) :=
  [(6, 1, 0, 9, 1), (7, 3, 0, 13, 8), (8, 3, 16, 11, 16), (9, 1, 16, 9, 4), (10, 2, 0, 9, 4), (11, 4, 0, 9, 4), (12, 4, 16, 5, 4), (13, 5, 0, 17, 4)]

/-- The words of an item, and what each may hold: an item of list `w` at octet `o` of .task breaks its layout. -/
def itemBad (t : List Nat) (w o : Nat) : Bool :=
  let x (i : Nat) : Nat := t.getD (o / 4 + i) 0
  match w with
  | 6 => decide (5 < bitsOf (x 0) (8 * (o % 4)) 8)
  | 7 => x 0 - (x 0 &&& 0x71FFFFFF) ≠ 0 || x 1 ≠ 0 || decide (5 < bitsOf (x 0) 28 3)
  | 8 => x 0 - (x 0 &&& 0x0017FFFF) ≠ 0 || x 3 ≠ 0 || decide (5 < bitsOf (x 0) 16 3)
  | 11 => 0x1FF < x 0
  | 12 => x 0 < 16 || 1048576 < x 0
  | _ => false

/-- A rejection of a descriptor: TASK_NO, and the octet of .task at fault. -/
def descRej (no o : Nat) : Rej := { code := 0x10, sec := 1, task := no % 256, off := o / 4, detail := o }

/-- Judges the descriptor at octet `d`; `seen`: TASK_NOs judged before. -/
def descCheck (t : List Nat) (seen : List Nat) (d : Nat) : Option Rej :=
  let w (i : Nat) : Nat := t.getD (d / 4 + i) 0
  let no := w 0 % 256
  match (List.range 16).find? (fun i => w i - (w i &&& descMask i) ≠ 0) with
  | some i => some (descRej no (d + 4 * i))
  | none =>
    match descRanges.find? (fun (i, lo, n, a, b) => bitsOf (w i) lo n < a || b < bitsOf (w i) lo n || (i = 0 && lo = 0 && seen.contains no)) with
    | some (i, _) => some (descRej no (d + 4 * i))
    | none =>
      descLists.foldl (fun r (i, c, lo, n, sz) =>
        match r with
        | some x => some x
        | none =>
          let o := w i
          let m := bitsOf (w c) lo n
          if o % 4 ≠ 0 || 4 * t.length < o + m * sz then some (descRej no (d + 4 * i))
          else ((List.range m).find? (fun k => itemBad t i (o + k * sz))).map (fun k => descRej no (o + k * sz))) none

/-- Descriptor offsets with their TASK_NO, in TASK_NO order (R108). -/
def descInsert (x : Nat × Nat) : List (Nat × Nat) → List (Nat × Nat)
  | [] => [x]
  | y :: t => if x.1 < y.1 then x :: y :: t else y :: descInsert x t

/-- The descriptors of .task in TASK_NO order. -/
def descOrder (t : List Nat) (n : Nat) : List (Nat × Nat) :=
  (List.range n).foldl (fun l i => descInsert (t.getD (16 * i) 0 % 256, 64 * i) l) []

/-- Judges the descriptors in order. -/
def descsCheck (t : List Nat) : List (Nat × Nat) → List Nat → Option Rej
  | [], _ => none
  | (no, d) :: r, seen => match descCheck t seen d with | some x => some x | none => descsCheck t r (no :: seen)

/-- A type code. -/
def vtype (n : Nat) : VType := (VType.ofCode? n).getD .bool

/-- The task of the descriptor at octet `d`. -/
def descTask (t : List Nat) (p : Parsed) (d : Nat) : TaskDef :=
  let w (i : Nat) : Nat := t.getD (d / 4 + i) 0
  let item (i k sz j : Nat) : Nat := t.getD ((w i + k * sz) / 4 + j) 0
  { taskNo := w 0 % 256, express := bitOf (w 0) 8, overrunLimit := bitsOf (w 0) 12 4, period := bitsOf (w 0) 16 16,
    types := (List.range (bitsOf (w 1) 0 9)).map (fun k => vtype (bitsOf (item 6 k 1 0) (8 * ((w 6 + k) % 4)) 3)),
    imports := (List.range (bitsOf (w 3) 0 13)).map (fun k => (bitsOf (item 7 k 8 0) 0 25, vtype (bitsOf (item 7 k 8 0) 28 3))),
    outs := (List.range (bitsOf (w 3) 16 11)).map (fun k =>
      let x := item 8 k 16 0
      { index := bitsOf x 0 16, ty := vtype (bitsOf x 16 3), stopMode := bitOf x 20, initial := Word.ofNat (item 8 k 16 1),
        stopValue := Word.ofNat (item 8 k 16 2) }),
    timers := (List.range (bitsOf (w 1) 16 9)).map (fun k => item 9 k 4 0),
    counters := (List.range (bitsOf (w 2) 0 9)).map (fun k => Word.ofNat (item 10 k 4 0)),
    nEdges := bitsOf (w 2) 16 11,
    alarms := (List.range (bitsOf (w 4) 0 9)).map (fun k => (item 11 k 4 0 % 256, bitOf (item 11 k 4 0) 8)),
    trends := (List.range (bitsOf (w 4) 16 5)).map (fun k => item 12 k 4 0),
    signSlot := bitsOf (w 4) 24 6, signEn := bitOf (w 4) 31,
    code := (List.range (bitsOf (w 5) 0 17)).map (fun k => Word.ofNat (item 13 k 4 0)),
    consts := p.consts, table := p.table, tenant := p.tenant, imageId := p.imageId, version := p.version }

/-- Step 5 (R77): N_TASKS, then the descriptors. -/
def descriptorCheck (p : Parsed) : Option Rej :=
  if 64 < p.nTasks || decide (p.nTasks = 0) != p.task.isEmpty || (p.nTasks ≠ 0 && p.task.length ≤ 16 * p.nTasks) then
    some { code := 0x10, off := 2, detail := 0x08 }
  else descsCheck p.task (descOrder p.task p.nTasks) []

/-- Takes an image apart, its tasks left out. -/
def parseImage (b : List Nat) : Parsed :=
  { alg := bitsOf (leWord b 4) 16 8, keySlot := bitsOf (leWord b 4) 24 6, tenant := leWord b 8 % 4096, nTasks := bitsOf (leWord b 8) 16 7,
    imageId := leWord b 12, version := leWord b 16, length := leWord b 20,
    task := sectionWords b 0, joinery := sectionWords b 1, consts := (sectionWords b 2).map Word.ofNat, table := (sectionWords b 3).map Word.ofNat }

/-- Steps 1 to 5 of the verifier: the image taken apart, or its rejection. -/
def openImage (s : State) (img : Image) : Except Rej Parsed :=
  match headerCheck img.bytes with
  | some r => .error r
  | none =>
    let p := parseImage img.bytes
    let early := firstRej [
      signatureCheck s img p.alg p.keySlot p.tenant p.length,
      (match versionOf s p.tenant p.imageId with
        | some v => if p.version < v then some { code := 0x04, off := 4, detail := v } else none
        | none => none),
      sectionCheck img.bytes p.length,
      descriptorCheck p]
    match early with
    | some r => .error r
    | none => .ok { p with tasks := (descOrder p.task p.nTasks).map (fun nd => descTask p.task p nd.2) }

/-- The record that SV returns with the reply (R108): four words. -/
def rejRecord (r : Option Rej) (imageId : Nat) : List Nat :=
  match r with
  | none => [0xFF * 2 ^ 16, 0, 0, imageId % 2 ^ 32]
  | some r => [r.code % 256 + r.sec % 8 * 2 ^ 8 + r.task % 256 * 2 ^ 16, r.off % 2 ^ 32, satAt 0xFFFFFFFF r.detail, imageId % 2 ^ 32]

end Sys2Proof.Machine
end

