-- ==== Sys2Proof/Machine/CodeCheck.lean ====
section
/-! DEFINITION. Machine/CodeCheck.lean: steps 6, 8 and 9 of the verifier (03 R78 to R100, R103, R106, R108): the opcode tables, what it checks of each
instruction, of loops, paths and slots, the cost bound, and tables. -/

namespace Sys2Proof.Machine

/-! ## The opcode tables (R78, Tables 7 to 19) -/

/-- Forms of Table 3. -/
inductive OForm where
  | l3 | l3c | lh | x
deriving DecidableEq, Repr

/-- Where an opcode may stand: anywhere, in tasks, in joinery, in joinery and in tasks of tenant 4095 (R103, R106). -/
inductive Place where
  | both | task | joinery | sys
deriving DecidableEq, Repr

/-- What field C, or the second word of an edge instruction, names: nothing but a local, a count up to a limit, a slot of a store, an event code, or a
table of given KINDs whose YTYPE A has and whose XTYPE B has. -/
inductive CNum where
  | none | count (m : Nat) | timer | counter | alarm | trend | event | edge | table (kinds : List Nat) (y x : Bool)
deriving DecidableEq, Repr

/-- What field H is: nothing, an import or export (A of its type), a .const word, a jump, a loop bound, a descriptor of some words. -/
inductive HUse where
  | none | imp (typed : Bool) | exp (typed : Bool) | konst | jump | bound | desc (words : Nat)
deriving DecidableEq, Repr

/-- A row of the opcode tables. `sig`: groups of the fields A, B, C (0, 1, 2) that name locals, each group of one type among those listed. -/
structure OpInfo where
  form : OForm := .l3
  place : Place := .both
  sig : List (List Nat × List VType) := []
  cnum : CNum := .none
  huse : HUse := .none
  writes : Bool := true
  cost : Nat := 1
deriving DecidableEq, Repr

/-- Every type. -/
def anyT : List VType := [.bool, .int32, .uint32, .fix16, .real32, .ticks]

/-- Opcodes 0x00 to 0x3F (Tables 7 to 10). -/
def opLow : Nat → Option OpInfo
  | 0x00 => some { writes := false }   -- NOP
  | 0x01 => some { sig := [([0, 1], anyT)] }   -- MOV
  | 0x02 => some { form := .x, sig := [([0], anyT)], cost := 2 }   -- LDI
  | 0x03 => some { form := .lh, sig := [([0], anyT)], huse := .konst, cost := 3 }   -- LDK
  | 0x04 => some { sig := [([0], [.real32]), ([1], [.int32])], cost := 2 }   -- ITOR
  | 0x05 => some { sig := [([0], [.real32]), ([1], [.uint32, .ticks])], cost := 2 }   -- UTOR
  | 0x06 => some { sig := [([0], [.int32]), ([1], [.real32])], cost := 2 }   -- RTOI
  | 0x07 => some { sig := [([0], [.uint32]), ([1], [.real32])], cost := 2 }   -- RTOU
  | 0x08 => some { sig := [([0], [.real32]), ([1], [.fix16])] }   -- FTOR
  | 0x09 => some { sig := [([0], [.fix16]), ([1], [.real32])], cost := 2 }   -- RTOF
  | 0x0A => some { sig := [([0], [.uint32]), ([1], [.int32])] }   -- ITOU
  | 0x0B => some { sig := [([0], [.int32]), ([1], [.uint32])] }   -- UTOI
  | 0x0C => some { sig := [([0], [.int32, .uint32]), ([1], [.bool])] }   -- BTOI
  | 0x0D => some { sig := [([0], [.bool]), ([1], [.int32, .uint32])] }   -- ITOB
  | 0x0E => some { sig := [([0], [.ticks])] }   -- TREL
  | 0x0F => some { sig := [([0], [.uint32])] }   -- FLAGS
  | 0x10 => some { sig := [([0, 1, 2], [.int32, .uint32])] }   -- ADD
  | 0x11 => some { sig := [([0, 1, 2], [.int32, .uint32])] }   -- SUB
  | 0x12 => some { sig := [([0, 1, 2], [.int32, .uint32])], cost := 2 }   -- MUL
  | 0x13 => some { sig := [([0, 1, 2], [.int32, .uint32])], cost := 20 }   -- DIV
  | 0x14 => some { sig := [([0, 1, 2], [.int32, .uint32])], cost := 20 }   -- MOD
  | 0x15 => some { sig := [([0, 1], [.int32])] }   -- NEG
  | 0x16 => some { sig := [([0, 1], [.int32])] }   -- ABS
  | 0x17 => some { sig := [([0, 1, 2], [.int32, .uint32])] }   -- MIN
  | 0x18 => some { sig := [([0, 1, 2], [.int32, .uint32])] }   -- MAX
  | 0x19 => some { sig := [([0, 1, 2], [.int32, .uint32])] }   -- LIM
  | 0x1A => some { sig := [([0, 1, 2], [.int32, .uint32, .ticks])] }   -- ADDW
  | 0x1B => some { sig := [([0, 1, 2], [.int32, .uint32, .ticks])] }   -- SUBW
  | 0x20 => some { sig := [([0, 1, 2], [.bool, .int32, .uint32])] }   -- AND
  | 0x21 => some { sig := [([0, 1, 2], [.bool, .int32, .uint32])] }   -- OR
  | 0x22 => some { sig := [([0, 1, 2], [.bool, .int32, .uint32])] }   -- XOR
  | 0x23 => some { sig := [([0, 1], [.bool, .int32, .uint32])] }   -- NOT
  | 0x24 => some { form := .l3c, sig := [([0, 1], [.int32, .uint32])], cnum := .count 31 }   -- SHL
  | 0x25 => some { form := .l3c, sig := [([0, 1], [.int32, .uint32])], cnum := .count 31 }   -- SHR
  | 0x26 => some { form := .l3c, sig := [([0, 1], [.int32, .uint32])], cnum := .count 31 }   -- SAR
  | 0x27 => some { form := .l3c, sig := [([0, 1], [.int32, .uint32])], cnum := .count 31 }   -- ROL
  | 0x28 => some { form := .l3c, sig := [([0], [.bool]), ([1], [.int32, .uint32])], cnum := .count 31 }   -- BTST
  | 0x29 => some { form := .l3c, sig := [([0, 1], [.int32, .uint32])], cnum := .count 31 }   -- BSET
  | 0x2A => some { form := .l3c, sig := [([0, 1], [.int32, .uint32])], cnum := .count 31 }   -- BCLR
  | 0x2B => some { sig := [([0, 1], [.int32, .uint32]), ([2], [.uint32])] }   -- SHLV
  | 0x2C => some { sig := [([0, 1], [.int32, .uint32]), ([2], [.uint32])] }   -- SHRV
  | 0x2D => some { sig := [([0], [.uint32]), ([1], [.int32, .uint32])] }   -- POPC
  | 0x2E => some { sig := [([0], [.uint32]), ([1], [.int32, .uint32])] }   -- CLZ
  | 0x30 => some { sig := [([0, 1, 2], [.real32])], cost := 2 }   -- RADD
  | 0x31 => some { sig := [([0, 1, 2], [.real32])], cost := 2 }   -- RSUB
  | 0x32 => some { sig := [([0, 1, 2], [.real32])], cost := 2 }   -- RMUL
  | 0x33 => some { sig := [([0, 1, 2], [.real32])], cost := 14 }   -- RDIV
  | 0x34 => some { sig := [([0, 1], [.real32])] }   -- RNEG
  | 0x35 => some { sig := [([0, 1], [.real32])] }   -- RABS
  | 0x36 => some { sig := [([0, 1, 2], [.real32])] }   -- RMIN
  | 0x37 => some { sig := [([0, 1, 2], [.real32])] }   -- RMAX
  | 0x38 => some { sig := [([0, 1, 2], [.real32])] }   -- RLIM
  | 0x39 => some { sig := [([0, 1], [.real32])], cost := 16 }   -- RSQRT
  | 0x3A => some { sig := [([0, 1, 2], [.real32])], cost := 3 }   -- RMAC
  | 0x3B => some { sig := [([0, 1], [.real32])], cost := 2 }   -- RRND
  | 0x3C => some { sig := [([0, 1], [.real32])], cost := 2 }   -- RTRN
  | _ => none

/-- Opcodes 0x40 to 0x5F (Tables 10 to 12, 16). -/
def opMid : Nat → Option OpInfo
  | 0x40 => some { sig := [([0, 1, 2], [.fix16])] }   -- FADD
  | 0x41 => some { sig := [([0, 1, 2], [.fix16])] }   -- FSUB
  | 0x42 => some { sig := [([0, 1, 2], [.fix16])] }   -- FMUL
  | 0x43 => some { sig := [([0, 1, 2], [.fix16])], cost := 18 }   -- FDIV
  | 0x44 => some { sig := [([0, 1], [.fix16])] }   -- FNEG
  | 0x45 => some { sig := [([0, 1], [.fix16])] }   -- FABS
  | 0x46 => some { sig := [([0, 1, 2], [.fix16])] }   -- FLIM
  | 0x47 => some { form := .l3c, sig := [([0, 1], [.fix16])], cnum := .count 15 }   -- FSHR
  | 0x48 => some { sig := [([0], [.bool]), ([1, 2], anyT)] }   -- EQ
  | 0x49 => some { sig := [([0], [.bool]), ([1, 2], anyT)] }   -- NE
  | 0x4A => some { sig := [([0], [.bool]), ([1, 2], [.int32, .uint32, .fix16, .real32, .ticks])] }   -- LT
  | 0x4B => some { sig := [([0], [.bool]), ([1, 2], [.int32, .uint32, .fix16, .real32, .ticks])] }   -- LE
  | 0x4C => some { sig := [([0], [.bool]), ([1, 2], [.int32, .uint32, .fix16, .real32, .ticks])] }   -- GT
  | 0x4D => some { sig := [([0], [.bool]), ([1, 2], [.int32, .uint32, .fix16, .real32, .ticks])] }   -- GE
  | 0x4E => some { sig := [([0], [.bool]), ([1, 2], [.ticks])] }   -- TBEF
  | 0x50 => some { form := .lh, huse := .jump, writes := false, cost := 2 }   -- JMP
  | 0x51 => some { form := .lh, sig := [([0], [.bool])], huse := .jump, writes := false, cost := 2 }   -- JT
  | 0x52 => some { form := .lh, sig := [([0], [.bool])], huse := .jump, writes := false, cost := 2 }   -- JF
  | 0x53 => some { form := .lh, sig := [([0], [.uint32])], huse := .bound, cost := 2 }   -- LOOP
  | 0x54 => some { writes := false, cost := 2 }   -- ENDL
  | 0x55 => some { sig := [([0, 2], anyT), ([1], [.bool])] }   -- SEL
  | 0x56 => some { writes := false }   -- END
  | 0x58 => some { sig := [([0], anyT), ([1], anyT)], cnum := .table [0] true true }   -- LUTL
  | 0x59 => some { sig := [([0], anyT), ([1], anyT)], cnum := .table [0, 1] true true }   -- LUTS
  | 0x5A => some { sig := [([0], anyT), ([1], anyT)], cnum := .table [2] true true }   -- HFIND
  | 0x5B => some { sig := [([0], [.bool]), ([1], anyT)], cnum := .table [2] false true }   -- HHAS
  | 0x5C => some { sig := [([0], [.uint32])], cnum := .table [0, 1, 2, 3] false false, cost := 2 }   -- TLEN
  | 0x5D => some { sig := [([0], anyT), ([1], [.uint32])], cnum := .table [3] true false }   -- TRD
  | _ => none

/-- Opcodes from 0x60 on (Tables 13, 14, 17, 19). -/
def opHigh : Nat → Option OpInfo
  | 0x60 => some { form := .lh, place := .task, sig := [([0], anyT)], huse := .imp true, cost := 3 }   -- GET
  | 0x61 => some { form := .lh, place := .task, sig := [([0], [.uint32])], huse := .imp false, cost := 3 }   -- GETQ
  | 0x62 => some { form := .lh, place := .task, sig := [([0], [.uint32])], huse := .imp false, cost := 3 }   -- GETS
  | 0x63 => some { form := .lh, place := .task, sig := [([0], anyT)], huse := .exp true, cost := 3 }   -- GETO
  | 0x64 => some { form := .lh, place := .task, sig := [([0], anyT)], huse := .exp true, writes := false, cost := 3 }   -- PUT
  | 0x65 => some { form := .lh, place := .task, sig := [([0], anyT)], huse := .exp true, writes := false, cost := 3 }   -- PUTG
  | 0x66 => some { form := .lh, place := .task, huse := .exp false, writes := false, cost := 2 }   -- PUTF
  | 0x70 => some { form := .x, place := .task, sig := [([0], [.bool]), ([1], [.bool])], cnum := .edge, cost := 3 }   -- EDGR
  | 0x71 => some { form := .x, place := .task, sig := [([0], [.bool]), ([1], [.bool])], cnum := .edge, cost := 3 }   -- EDGF
  | 0x72 => some { form := .x, place := .task, sig := [([0], [.bool]), ([1], anyT)], cnum := .edge, cost := 3 }   -- EDGC
  | 0x73 => some { form := .x, place := .task, cnum := .edge, writes := false, cost := 2 }   -- EDGCLR
  | 0x74 => some { place := .task, sig := [([0], [.bool]), ([1], [.bool])], cnum := .timer, cost := 4 }   -- TON
  | 0x75 => some { place := .task, sig := [([0], [.bool]), ([1], [.bool])], cnum := .timer, cost := 4 }   -- TOF
  | 0x76 => some { place := .task, sig := [([0], [.bool]), ([1], [.bool])], cnum := .timer, cost := 4 }   -- TP
  | 0x77 => some { place := .task, sig := [([1], [.ticks])], cnum := .timer, writes := false, cost := 2 }   -- TPRE
  | 0x78 => some { place := .task, sig := [([0], [.ticks])], cnum := .timer, cost := 2 }   -- TELP
  | 0x79 => some { place := .task, cnum := .timer, writes := false, cost := 2 }   -- TRST
  | 0x7A => some { place := .task, sig := [([0], [.bool]), ([1], [.bool])], cnum := .counter, cost := 3 }   -- CTU
  | 0x7B => some { place := .task, sig := [([0], [.bool]), ([1], [.bool])], cnum := .counter, cost := 3 }   -- CTD
  | 0x7C => some { place := .task, cnum := .counter, writes := false, cost := 2 }   -- CRST
  | 0x7D => some { place := .task, cnum := .counter, writes := false, cost := 2 }   -- CLD
  | 0x7E => some { place := .task, sig := [([1], [.int32])], cnum := .counter, writes := false, cost := 2 }   -- CPRE
  | 0x7F => some { place := .task, sig := [([0], [.int32])], cnum := .counter, cost := 2 }   -- CGET
  | 0x80 => some { place := .task, sig := [([1], [.bool])], cnum := .alarm, writes := false, cost := 4 }   -- ALM
  | 0x81 => some { place := .task, sig := [([0], [.uint32])], cnum := .alarm, cost := 2 }   -- ALMQ
  | 0x82 => some { place := .task, sig := [([1], anyT)], cnum := .event, writes := false, cost := 4 }   -- EVT
  | 0x83 => some { place := .task, sig := [([1], anyT)], cnum := .trend, writes := false, cost := 4 }   -- TRND
  | 0x84 => some { place := .task, sig := [([1], anyT)], cnum := .event, writes := false, cost := 4 }   -- EVSIG
  | 0x85 => some { place := .task, cnum := .event, writes := false }   -- EVDIG
  | 0x90 => some { form := .lh, place := .joinery, huse := .desc 4, writes := false }   -- DEFPT
  | 0x91 => some { form := .lh, place := .joinery, huse := .desc 3, writes := false }   -- DEFGR
  | 0x92 => some { form := .lh, place := .joinery, huse := .desc 2, writes := false }   -- DEFCTX
  | 0x93 => some { form := .lh, place := .joinery, huse := .desc 2, writes := false }   -- DEFVID
  | 0x94 => some { form := .lh, place := .joinery, huse := .desc 42, writes := false }   -- DEFLOOP
  | 0x95 => some { form := .lh, place := .joinery, huse := .desc 8, writes := false }   -- DEFGRP
  | 0x96 => some { form := .lh, place := .joinery, huse := .desc 20, writes := false }   -- DEFCIRC
  | 0x97 => some { form := .lh, place := .joinery, huse := .desc 8, writes := false }   -- DEFMAP
  | 0x98 => some { form := .lh, place := .joinery, huse := .desc 8, writes := false }   -- DEFEXP
  | 0x99 => some { form := .lh, place := .joinery, huse := .desc 1, writes := false }   -- ADMIT
  | 0x9A => some { form := .lh, place := .joinery, huse := .desc 1, writes := false }   -- DELDEF
  | 0x9C => some { place := .sys, sig := [([0, 1], [.uint32])], cost := 60 }   -- SYSRD
  | 0x9D => some { place := .sys, sig := [([0, 1], [.uint32])], writes := false, cost := 60 }   -- SYSWR
  | 0x9E => some { form := .x, place := .sys, sig := [([0], [.uint32])], cost := 60 }   -- SYSRDX
  | 0x9F => some { form := .x, place := .sys, sig := [([0], [.uint32])], writes := false, cost := 60 }   -- SYSWRX
  | _ => none

/-- The row of an opcode; none for one that no table assigns (R87). -/
def opInfo (op : Nat) : Option OpInfo := if op < 0x40 then opLow op else if op < 0x60 then opMid op else opHigh op

/-! ## Instructions of a body of code -/

/-- An instruction at word `addr`: its first word, and its second if its form has one and the code holds it. -/
structure Ins where
  addr : Nat
  w : Nat
  imm : Option Nat := none
deriving DecidableEq, Repr

/-- Opcode, and fields A, B, C, H. -/
def Ins.op (i : Ins) : Nat := bitsOf i.w 24 8
/-- Field A. -/
def Ins.a (i : Ins) : Nat := bitsOf i.w 16 8
/-- Field B. -/
def Ins.b (i : Ins) : Nat := bitsOf i.w 8 8
/-- Field C. -/
def Ins.c (i : Ins) : Nat := i.w % 256
/-- Field H. -/
def Ins.h (i : Ins) : Nat := i.w % 65536
/-- Field A, B or C by number. -/
def Ins.fieldAt (i : Ins) (k : Nat) : Nat := match k with | 0 => i.a | 1 => i.b | _ => i.c
/-- Its row. -/
def Ins.info (i : Ins) : OpInfo := (opInfo i.op).getD {}
/-- The form of an opcode takes two words. -/
def isX (op : Nat) : Bool := match opInfo op with | some r => r.form == .x | none => false
/-- The word after it. -/
def Ins.next (i : Ins) : Nat := i.addr + if isX i.op then 2 else 1
/-- The word a jump goes to (R79). -/
def Ins.target (i : Ins) : Nat := i.addr + 1 + i.h

/-- The instructions of code from word `at_` on. -/
def instrs : Nat → List Nat → List Ins
  | _, [] => []
  | at_, [w] => [{ addr := at_, w := w }]
  | at_, w :: v :: t => if isX (bitsOf w 24 8) then { addr := at_, w := w, imm := some v } :: instrs (at_ + 2) t
    else { addr := at_, w := w } :: instrs (at_ + 1) (v :: t)

/-- What a body of code is judged against: the section and TASK_NO that a rejection names, the word of the section where the code starts, its tenant,
the task (for joinery: its local types alone), the length of .const, and the tables. -/
structure CodeCtx where
  sec : Nat
  task : Nat
  base : Nat
  joinery : Bool := false
  tenant : Nat
  td : TaskDef
  nConst : Nat
  dirs : List TblDesc := []
  code : List Ins := []
  words : Nat := 0
deriving DecidableEq, Repr

/-- A rejection at word `i` of the code. -/
def CodeCtx.rej (x : CodeCtx) (code i detail : Nat) : Rej := { code := code, sec := x.sec, task := x.task, off := x.base + i, detail := detail }

/-- CONTEXT (Table 20). -/
def contextBad (x : CodeCtx) (r : OpInfo) : Bool :=
  match r.place with
  | .both => false
  | .task => x.joinery
  | .joinery => !x.joinery
  | .sys => !x.joinery && x.tenant != 4095

/-- The fields A, B, C that an opcode uses. -/
def usedFields (r : OpInfo) : List Nat :=
  (r.sig.map (fun g => g.1)).flatten ++ (match r.cnum with | .none => [] | .edge => [] | _ => [2])

/-- FORM: a field that the opcode does not use is not zero, a second word is missing, or a second word or handle has a bit that it does not use. The
word at fault. -/
def formBad (r : OpInfo) (i : Ins) : Option Nat :=
  let fields := if r.form = .lh then [0] else [0, 1, 2]
  if r.form = .x && i.imm.isNone then some i.w
  else if fields.any (fun k => i.fieldAt k ≠ 0 && !(usedFields r).contains k) then some i.w
  else if r.cnum = .edge && 0x3FF < i.imm.getD 0 then i.imm
  else match r.huse with
    | .imp _ => if bitsOf i.h 12 3 ≠ 0 then some i.w else none
    | .exp _ => if bitsOf i.h 12 3 ≠ 0 then some i.w else none
    | _ => none

/-- LOCAL: the first field A, B, C that names a local beyond N_LOCALS. -/
def localBad (x : CodeCtx) (r : OpInfo) (i : Ins) : Option Nat :=
  ([0, 1, 2].find? (fun k => r.sig.any (fun g => g.1.contains k) && x.td.types.length ≤ i.fieldAt k)).map i.fieldAt

/-- HANDLE (Table 20): the number at fault. -/
def handleBad (x : CodeCtx) (r : OpInfo) (i : Ins) : Option Nat :=
  let beyond (v n : Nat) : Option Nat := if n ≤ v then some v else none
  let byC : Option Nat := match r.cnum with
    | .timer => beyond i.c x.td.timers.length
    | .counter => beyond i.c x.td.counters.length
    | .alarm => beyond i.c x.td.alarms.length
    | .trend => beyond i.c x.td.trends.length
    | .edge => beyond (i.imm.getD 0) x.td.nEdges
    | .table kinds _ _ => (match x.dirs[i.c]? with | some d => if kinds.contains d.kind then none else some i.c | none => some i.c)
    | _ => none
  match r.huse with
  | .imp _ => if bitOf i.h 15 || x.td.imports.length ≤ i.h % 4096 then some i.h else none
  | .exp _ => if !bitOf i.h 15 || x.td.outs.length ≤ i.h % 4096 then some i.h else none
  | .konst => beyond i.h x.nConst
  | .desc n => if x.nConst < i.h + n then some i.h else none
  | _ => byC

/-- Type of local `l`. -/
def CodeCtx.ty (x : CodeCtx) (l : Nat) : VType := x.td.types.getD l .bool

/-- MOV also moves between UINT32 and TICKS (R86). -/
def movPair (op : Nat) (a b : VType) : Bool := op = 0x01 && (a = .uint32 || a = .ticks) && (b = .uint32 || b = .ticks)

/-- TYPE: the first field A, B, C whose local does not have a type that the opcode, or the import, export or table it names, asks for. -/
def typeBad (x : CodeCtx) (r : OpInfo) (i : Ins) : Option Nat :=
  let asked (k : Nat) : Option VType :=
    match r.huse, r.cnum, k with
    | .imp true, _, 0 => (x.td.imports[i.h % 4096]?).map (fun p => p.2)
    | .exp true, _, 0 => (x.td.outs[i.h % 4096]?).map (fun o => o.ty)
    | _, .table _ true _, 0 => (x.dirs[i.c]?).map (fun d => d.yty)
    | _, .table _ _ true, 1 => (x.dirs[i.c]?).map (fun d => d.xty)
    | _, _, _ => none
  let bad (k : Nat) : Bool := r.sig.any (fun (g, ts) => g.contains k &&
    (let t := x.ty (i.fieldAt k)
     let f := x.ty (i.fieldAt (g.headD 0))
     !ts.contains t || (t ≠ f && !movPair i.op t f) || (match asked k with | some want => decide (t ≠ want) | none => false)))
  ([0, 1, 2].find? bad).map i.fieldAt

/-- IMMEDIATE: a value of LDI that is no stored form of A's type, or a shift count out of range. -/
def immediateBad (x : CodeCtx) (r : OpInfo) (i : Ins) : Option Nat :=
  match r.cnum with
  | .count m => if m < i.c then some i.c else none
  | _ =>
    if i.op ≠ 0x02 then none
    else
      let v := i.imm.getD 0
      let w := Word.ofNat v
      match x.ty i.a with
      | .bool => if 1 < v then some v else none
      | .fix16 => if normalise .fix16 w ≠ w then some v else none
      | .real32 => if realSpecial w then some v else none
      | _ => none

/-- JUMP: a target beyond the code or inside an extended word. DETAIL counts words from the start of the section (DESIGN CHOICE, log 110). -/
def jumpBad (x : CodeCtx) (r : OpInfo) (i : Ins) : Option Nat :=
  if r.huse ≠ .jump || x.code.any (fun j => j.addr = i.target) then none else some (x.base + i.target)

/-- The checks of one instruction in the order of R108. -/
def instrCheck (x : CodeCtx) (i : Ins) : Option Rej :=
  match opInfo i.op with
  | none => some (x.rej 0x11 i.addr i.op)
  | some r =>
    if contextBad x r then some (x.rej 0x1B i.addr i.op)
    else firstRej [(formBad r i).map (x.rej 0x12 i.addr), (localBad x r i).map (x.rej 0x15 i.addr), (handleBad x r i).map (x.rej 0x16 i.addr),
      (typeBad x r i).map (x.rej 0x14 i.addr), (immediateBad x r i).map (x.rej 0x13 i.addr), (jumpBad x r i).map (x.rej 0x17 i.addr)]

/-! ## Loops, ends, slots (R89, R90, R94, R95) -/

/-- A LOOP and its ENDL: their words, and the index local. -/
structure Span where
  loop : Nat
  endl : Nat
  index : Nat
deriving DecidableEq, Repr

/-- Matches LOOPs and ENDLs; `stack`: LOOPs not closed, innermost first. The word of the first breach, or the spans. -/
def matchLoops : List Ins → List Ins → List Span → Except Nat (List Span)
  | [], st, acc => match st.getLast? with | none => .ok acc | some l => .error l.addr
  | i :: t, st, acc =>
    if i.op = 0x53 then (if i.h = 0 || 4 ≤ st.length then .error i.addr else matchLoops t (i :: st) acc)
    else if i.op = 0x54 then
      match st with
      | [] => .error i.addr
      | l :: st' => matchLoops t st' ({ loop := l.addr, endl := i.addr, index := l.a } :: acc)
    else matchLoops t st acc

/-- An instruction that enters a body from outside, or writes the index local of a body around it. -/
def bodyBreach (sp : List Span) (i : Ins) : Bool :=
  sp.any (fun s => (i.info.writes && !i.info.sig.isEmpty && s.loop < i.addr && i.addr < s.endl && i.a = s.index)
    || (i.info.huse = .jump && s.loop < i.target && i.target ≤ s.endl && !(s.loop < i.addr && i.addr ≤ s.endl)))

/-- LOOP: the word of the breach, or the spans. -/
def loopCheck (code : List Ins) : Except Nat (List Span) :=
  match matchLoops code [] [] with
  | .error a => .error a
  | .ok sp => match code.find? (bodyBreach sp) with | some i => .error i.addr | none => .ok sp

/-- Words that control reaches next from `i`, an END excepted. -/
def succs (i : Ins) : List Nat :=
  if i.op = 0x56 then [] else if i.op = 0x50 then [i.target] else if i.op = 0x51 || i.op = 0x52 then [i.next, i.target] else [i.next]

/-- NO_END: the first reachable instruction after which control leaves the code. -/
def noEnd (words : Nat) : List Ins → List Nat → Option Nat
  | [], _ => none
  | i :: t, reach =>
    if !reach.contains i.addr then noEnd words t reach
    else if (succs i).any (fun a => words ≤ a) then some i.addr else noEnd words t (reach ++ succs i)

/-- SLOT_USE: `seen` holds slots with the kind of their use. The instruction and slot of the first clash. -/
def slotClash (x : CodeCtx) : List Ins → List (Nat × Nat) → Option (Nat × Nat)
  | [], _ => none
  | i :: t, seen =>
    let use : Option (Nat × Nat) :=
      if i.op = 0x70 || i.op = 0x71 || i.op = 0x72 then some (i.imm.getD 0, (x.ty i.b).code)
      else if i.op = 0x74 || i.op = 0x75 || i.op = 0x76 then some (1024 + i.c, i.op)
      else none
    match use with
    | none => slotClash x t seen
    | some (k, v) =>
      match seen.find? (fun p => p.1 = k) with
      | some p => if p.2 = v then slotClash x t seen else some (i.addr, k % 1024)
      | none => slotClash x t ((k, v) :: seen)

/-- Step 6 for one body of code. -/
def codeCheck (x : CodeCtx) : Option Rej :=
  match (x.code.filterMap (instrCheck x)).head? with
  | some r => some r
  | none =>
    match loopCheck x.code with
    | .error a => some (x.rej 0x18 a (x.base + a))
    | .ok _ =>
      firstRej [(noEnd x.words x.code [0]).map (fun a => x.rej 0x19 a (x.base + a)),
        (slotClash x x.code []).map (fun p => x.rej 0x1A p.1 p.2)]

/-! ## The cost bound (R90) -/

/-- Cost of an instruction (Tables 7 to 19); in joinery each counts 1 (R103). -/
def insCost (x : CodeCtx) (i : Ins) : Nat :=
  if x.joinery then 1
  else if i.op = 0x85 then 6 + (x.td.outs.length + 3) / 4
  else match x.dirs[i.c]?, i.op with
    | some d, 0x58 => lutCost 8 d
    | some d, 0x59 => lutCost 6 d
    | some d, 0x5A => 10 + 120 * d.probes
    | some d, 0x5B => 10 + 120 * d.probes
    | some d, 0x5D => if d.inTable then 122 else 3
    | _, _ => i.info.cost

/-- The longest cost at which each word is reached. -/
def reachAt (t : Tab Nat) (a v : Nat) : Tab Nat := tabPut t a (max v (tabGet 0 t a))

/-- One step of the walk in address order: words below the first component belong to a loop already replaced by its node. `inner`: the walk of a body. An
END inside a body is no way out that W counts, while another way exists; it adds the loop's own weight (DESIGN CHOICE, log 109). -/
def walkStep (x : CodeCtx) (sp : List Span) (inner : List Ins → Tab Nat → Tab Nat) (ins : List Ins) (acc : Nat × Tab Nat) (i : Ins) : Nat × Tab Nat :=
  if i.addr < acc.1 then acc
  else
    match sp.find? (fun s => s.loop = i.addr), tabGet? acc.2 i.addr with
    | some s, none => (s.endl + 1, acc.2)
    | none, none => acc
    | none, some v =>
      let c := v + insCost x i
      (acc.1, if i.op = 0x56 then reachAt acc.2 x.words c else (succs i).foldl (fun t a => reachAt t a c) acc.2)
    | some s, some v =>
      let out := (inner (ins.filter (fun j => s.loop < j.addr && j.addr < s.endl)) [(s.loop + 1, 0)]).filter (fun p => s.endl ≤ p.1)
      let ways := out.filter (fun p => p.1 < x.words)
      let w := (if ways.isEmpty then out else ways).foldl (fun m p => max m p.2) 0
      let c := v + insCost x i + i.h * (w + (if x.joinery then 1 else 2))
      (s.endl + 1, out.foldl (fun t p => reachAt t (if p.1 = s.endl then s.endl + 1 else p.1) c) acc.2)

/-- The walk of a region, loops in it nested at most `depth` deep. -/
def walk (x : CodeCtx) (sp : List Span) : Nat → List Ins → Tab Nat → Tab Nat
  | 0, _, t => t
  | d + 1, ins, t => (ins.foldl (walkStep x sp (walk x sp d) ins) (0, t)).2

/-- The cost bound of a body of code: the longest cost at an END, which the walk keeps at the word after the code. -/
def costBound (x : CodeCtx) : Nat :=
  match loopCheck x.code with
  | .error _ => 0
  | .ok sp => tabGet 0 (walk x sp 5 x.code [(0, 0)]) x.words

/-! ## Tables (R98, R100) -/

/-- The directory: entries that .const holds, of the number that its word 0 gives. -/
def tableDirs (consts : List Word) : List TblDesc :=
  (List.range (min (consts.getD 0 0).toNat (min 256 ((consts.length - 1) / 4)))).map (fun t => ({ consts := consts } : Run).tbl t)

/-- Breakpoints strictly pairsAscend: `n` pairs from pair `i`, `prev` the x before. -/
def pairsAscend (r : Run) (d : TblDesc) : Nat → Nat → Option Rat → Bool
  | 0, _, _ => true
  | n + 1, i, prev =>
    let w := r.tblWord d (2 * i)
    let v := tblNum d.xty w
    !(d.xty == .real32 && realNan w) && (match prev with | none => true | some p => decide (p < v)) && pairsAscend r d n (i + 1) (some v)

/-- A directory entry that keeps R98 and R100. -/
def tableOk (r : Run) (t : Nat) : Bool :=
  let d := r.tbl t
  let w (i : Nat) : Nat := (r.consts.getD (1 + 4 * t + i) 0).toNat
  let types := decide (bitsOf (w 0) 4 3 ≤ 5) && decide (bitsOf (w 0) 8 3 ≤ 5)
  let size := 4 * (if d.inTable then r.table.length else r.consts.length)
  let fits := decide (d.off + 4 * ((if d.kind = 3 then 1 else 2) * d.count) ≤ size)
  w 0 - (w 0 &&& 0x001F0777) = 0 && w 3 = 0 && types && d.off % 8 = 0 && fits &&
    match d.kind with
    | 2 =>
      let k := Nat.log2 d.count
      d.count = 2 ^ k && 4 ≤ k && k ≤ 24 && d.inTable && (d.xty == .int32 || d.xty == .uint32) && 1 ≤ d.probes && d.probes ≤ 16
        && (List.range d.count).all (fun i => let key := r.tblWord d (2 * i)
            key == 0xFFFFFFFF || (hashFind r d key).isSome)
    | 3 => 1 ≤ d.count && d.count ≤ 16777216
    | k =>
      2 ≤ d.count && d.count ≤ 65536 && (k = 1 || (d.xty == d.yty && (d.xty == .fix16 || d.xty == .real32))) && pairsAscend r d d.count 0 none

/-- Step 9. The record names .const and the word of the directory entry, wherever in the table the fault lies (DESIGN CHOICE, log 111). -/
def tablesCheck (consts table : List Word) : Option Rej :=
  if consts.isEmpty then none
  else
    let n := (tableDirs consts).length
    if n < (consts.getD 0 0).toNat then some { code := 0x31, sec := 3, off := 0, detail := n }
    else ((List.range n).find? (fun t => !tableOk { consts := consts, table := table } t)).map (fun t =>
      { code := 0x31, sec := 3, off := 1 + 4 * t, detail := t })

/-! ## The code of an image -/

/-- What a task's code is judged against; `off`: the word of .task at which its code starts. -/
def taskCtx (p : Parsed) (td : TaskDef) (off : Nat) : CodeCtx :=
  let ws := td.code.map (fun w => w.toNat)
  { sec := 1, task := td.taskNo, base := off, tenant := p.tenant, td := td, nConst := p.consts.length, dirs := tableDirs p.consts,
    code := instrs 0 ws, words := ws.length }

/-- Words of .task at which the tasks' code starts, in TASK_NO order. -/
def codeOffs (p : Parsed) : List Nat := (descOrder p.task p.nTasks).map (fun nd => p.task.getD (nd.2 / 4 + 13) 0 / 4)

/-- The tasks' contexts in TASK_NO order. -/
def taskCtxs (p : Parsed) : List CodeCtx := (List.zip p.tasks (codeOffs p)).map (fun x => taskCtx p x.1 x.2)

/-- The octets of the joinery's local table (R539). -/
def joinLocal (p : Parsed) (i : Nat) : Nat := bitsOf (p.joinery.getD (i / 4) 0) (8 * (i % 4)) 8

/-- What joinery code is judged against. -/
def joinCtx (p : Parsed) : CodeCtx :=
  let ws := p.joinery.drop 64
  { sec := 2, task := 0xFF, base := 64, joinery := true, tenant := p.tenant,
    td := { types := (List.range 256).map (fun i => vtype (joinLocal p i)), code := ws.map Word.ofNat, tenant := p.tenant },
    nConst := p.consts.length, dirs := tableDirs p.consts, code := instrs 0 ws, words := ws.length }

/-- Step 6: the tasks in TASK_NO order, then the joinery with its local table. -/
def codesCheck (p : Parsed) : Option Rej :=
  match ((taskCtxs p).filterMap codeCheck).head? with
  | some r => some r
  | none =>
    if p.joinery.isEmpty then none
    else match (List.range 256).find? (fun i => 5 < joinLocal p i) with
      | some i => some { code := 0x14, sec := 2, off := i / 4, detail := i }
      | none => codeCheck (joinCtx p)

/-- Step 8: the tasks' cost bounds, then the joinery's. -/
def boundsCheck (p : Parsed) : Option Rej :=
  match ((taskCtxs p).filterMap (fun x => if 2 ^ 31 - 1 < costBound x then some (x.rej 0x30 0 (costBound x)) else none)).head? with
  | some r => some r
  | none =>
    if p.joinery.isEmpty then none
    else if 16777216 < costBound (joinCtx p) then some ((joinCtx p).rej 0x40 0 (costBound (joinCtx p))) else none

/-- The tasks with their cost bounds. -/
def boundTasks (p : Parsed) : List TaskDef := (taskCtxs p).map (fun x => { x.td with bound := costBound x })

end Sys2Proof.Machine
end

