-- ==== Sys2Proof/Machine/Stage.lean ====
section
/-! DEFINITION. Machine/Stage.lean: what a change stages, and the configuration as it will stand after its commit (05 R139 to R147): definitions, register
fields, point records, claims, users and proxies. -/

namespace Sys2Proof.Machine

/-! ## Staged items (03 R103, R104) -/

/-- The key of a definition object: KIND of DELDEF and number. -/
def itemKey (kind n : Nat) : Nat := kind * 65536 + n

/-- Stages an item; a later one for the same object replaces it. -/
def stageItem (g : Staging) (kind n : Nat) (x : Staged) : Staging := { g with items := tabPut g.items (itemKey kind n) x }

/-- Stages the word of a register. -/
def stageWord (g : Staging) (a w : Nat) : Staging := { g with words := tabPut g.words a (w % 2 ^ 32) }

/-- Stages a system write. -/
def stageWrite (g : Staging) (a w : Nat) : Staging := let g := stageWord g a w; { g with writes := g.writes ++ [(a, w % 2 ^ 32)] }

/-- The item staged for an object. -/
def staged? (g : Staging) (kind n : Nat) : Option Staged := tabGet? g.items (itemKey kind n)

/-- The descriptor staged for an object. -/
def stagedWords? (g : Staging) (kind n : Nat) : Option (List Nat) := (staged? g kind n).bind (fun x => x.words)

/-- Staged items of a kind, with their numbers. -/
def itemsOf (g : Staging) (kind : Nat) : List (Nat × Staged) := (g.items.filter (fun kv => kv.1 / 65536 = kind)).map (fun kv => (kv.1 % 65536, kv.2))

/-- The slot whose task an ADMIT replaces. -/
def replaces? (x : Staged) : Option Nat :=
  match x.words with
  | some (w :: _) => if bitsOf w 24 8 = 0xFF then none else some (bitsOf w 24 8)
  | _ => none

/-- Slots whose tasks the ADMITs of a change replace. -/
def replacedSlots (g : Staging) : List Nat := (itemsOf g 9).filterMap (fun kx => replaces? kx.2)

/-! ## Descriptors of maps and exports (11 R357, 10 R310) -/

/-- KIND of a map entry. -/
def mapKind (n : Nat) : MapKind :=
  match n with | 0 => .node | 1 => .canIn | 2 => .canOut | 3 => .mbRead | 4 => .mbWrite | 5 => .gpioIn | _ => .gpioOut

/-- A map entry's descriptor (Table 3). -/
def parseMap (ws : List Nat) (tenant : Nat) : MapEntry :=
  let w (k : Nat) : Nat := ws.getD k 0
  let m : MapEntry := { kind := mapKind (bitsOf (w 0) 12 4), channel := bitsOf (w 0) 16 5, node := bitsOf (w 0) 24 8, tenant := tenant }
  let field (m : MapEntry) : MapEntry :=
    { m with index := bitsOf (w 1) 0 16, pos := bitsOf (w 3) 0 9, width := bitsOf (w 3) 9 6, signed := bitOf (w 3) 15, msbFirst := bitOf (w 3) 16,
             float := bitOf (w 3) 17, scale := Word.ofNat (w 4), offset := Word.ofNat (w 5), period := bitsOf (w 6) 0 16 }
  let can (m : MapEntry) : MapEntry :=
    { field m with ident := bitsOf (w 2) 0 29, ide := bitOf (w 2) 29, fdf := bitOf (w 2) 30, brs := bitOf (w 2) 31 }
  match m.kind with
  | .node => { m with uid := w 2 + 2 ^ 32 * w 3, hb := w 4 % 256 }
  | .canIn => { can m with timeout := bitsOf (w 6) 16 16, filter := bitsOf (w 7) 0 6, period := 0 }
  | .canOut => { can m with dlc := bitsOf (w 3) 24 7 }
  | .mbRead => { field m with addr := bitsOf (w 2) 0 16, fn := bitsOf (w 2) 16 8 }
  | .mbWrite => { field m with addr := bitsOf (w 2) 0 16, fn := bitsOf (w 2) 16 8 }
  | .gpioIn => { m with index := bitsOf (w 1) 0 16, pin := bitsOf (w 2) 0 6, invert := bitOf (w 2) 6, debounce := bitsOf (w 6) 0 8 }
  | .gpioOut => { m with index := bitsOf (w 1) 0 16, pin := bitsOf (w 2) 0 6, invert := bitOf (w 2) 6 }

/-- An export's or endpoint import's descriptor (Table 1). -/
def parseExp (ws : List Nat) : ExportDef :=
  let w (k : Nat) : Nat := ws.getD k 0
  { number := bitsOf (w 0) 0 15, dir := bitsOf (w 0) 15 2, usras := bitOf (w 0) 17, ctx := bitsOf (w 0) 18 6, deliver := bitOf (w 0) 24,
    index := bitsOf (w 1) 0 16, object := w 2, cls := bitsOf (w 2) 0 4, item := bitsOf (w 2) 4 8, inst := bitsOf (w 2) 16 16,
    units := bitsOf (w 3) 0 16, states := bitsOf (w 3) 16 8, maxAge := bitsOf (w 3) 0 16,
    addr := w 4 * 2 ^ 96 + w 5 * 2 ^ 64 + w 6 * 2 ^ 32 + w 7 }

/-- A point definition (03 Table 19). -/
def parsePoint (ws : List Nat) : PointDef :=
  let w (k : Nat) : Nat := ws.getD k 0
  { ty := bitsOf (w 0) 16 3, tenant := bitsOf (w 0) 20 12, refresh := bitsOf (w 1) 0 16, initial := Word.ofNat (w 2), cov := Word.ofNat (w 3) }

/-! ## The definitions after the commit -/

/-- A table of definitions with the staged items of its kind laid over it. -/
def laid {α : Type} (old : Tab α) (g : Staging) (kind : Nat) (make : Staged → List Nat → α) : Tab α :=
  (itemsOf g kind).foldl (fun t kx => match kx.2.words with | none => tabDel t kx.1 | some ws => tabPut t kx.1 (make kx.2 ws)) old

/-- The task table: removals, then replaced tasks, then admissions. -/
def laidTasks (old : Tab Admission) (g : Staging) : Tab Admission :=
  let gone := ((itemsOf g 9).filter (fun kx => kx.2.words.isNone)).map (fun kx => kx.1) ++ replacedSlots g
  (itemsOf g 9).foldl (fun t kx => match kx.2.words, kx.2.task with
    | some ws, some d => tabPut t kx.1 { dfn := d, start := bitOf (ws.headD 0) 16 }
    | _, _ => t) (old.filter (fun kv => !gone.contains kv.1))

/-- The definitions in effect with everything staged laid over them. -/
def viewDefs (d : Defs) (g : Staging) : Defs :=
  { points := laid d.points g 0 (fun _ ws => parsePoint ws),
    loops := laid d.loops g 4 (fun x ws => parseLoop ws x.tenant),
    groups := laid d.groups g 5 (fun x ws => ((parseGroup ws).2, x.tenant)),
    circs := laid d.circs g 6 (fun _ ws => parseCirc ws),
    maps := laid d.maps g 7 (fun x ws => parseMap ws x.tenant),
    exports := laid d.exports g 8 (fun _ ws => parseExp ws),
    tasks := laidTasks d.tasks g }

/-! ## Claims (02 R55) -/

/-- A claim of writership: the record, the writer, its tenant, and the object that claims. -/
structure Claim where
  index : Nat
  kind : WriterKind
  ident : Nat
  tenant : Nat
  tag : Nat
deriving DecidableEq, Repr

/-- Quantity codes that a circuit writes (07 R202). -/
def selectedCodes (d : CircDef) : List Nat := (List.range 64).filter (fun q => bitOf d.qmask q)

/-- Input kinds of map entries (11 R358). -/
def MapKind.isInput : MapKind → Bool
  | .canIn => true | .mbRead => true | .gpioIn => true | _ => false

/-- Every claim of local definitions, by object. -/
def claims (s : State) (d : Defs) : List Claim :=
  d.tasks.flatMap (fun kt => kt.2.dfn.outs.map (fun o => { index := o.index, kind := .task, ident := kt.1, tenant := kt.2.dfn.tenant, tag := itemKey 9 kt.1 }))
    ++ (d.loops.filter (fun kl => !kl.2.groupEn && kl.2.out ≠ 0xFFFF)).map (fun kl =>
        { index := kl.2.out, kind := .loop, ident := kl.1, tenant := kl.2.tenant, tag := itemKey 4 kl.1 })
    ++ d.groups.map (fun kg => { index := kg.2.1.out, kind := .loop, ident := kg.2.1.members.headD 0, tenant := kg.2.2, tag := itemKey 5 kg.1 })
    ++ (d.maps.filter (fun km => km.2.kind.isInput)).map (fun km =>
        { index := km.2.index, kind := .field, ident := km.2.channel, tenant := km.2.tenant, tag := itemKey 7 km.1 })
    ++ d.circs.flatMap (fun kc => (selectedCodes kc.2).map (fun q =>
        { index := kc.2.pointBase + q, kind := .meter, ident := kc.1 + 256 * q, tenant := kc.2.tenant, tag := itemKey 6 kc.1 }))
    ++ (d.exports.filter (fun kx => kx.2.dir = 1 || kx.2.dir = 2)).map (fun kx =>
        { index := kx.2.index, kind := .endpoint, ident := kx.2.ctx, tenant := (ctxTenant? s kx.2.ctx).getD 4095, tag := itemKey 8 kx.1 })

/-! ## Proxies (02 R41, 08 R259) -/

/-- A remote point that admitted tasks import: GPA, TYPE, smallest period. -/
structure RemoteUse where
  gpa : Nat
  ty : VType
  period : Nat
deriving DecidableEq, Repr

/-- A GPA names a record of this module. -/
def localGpa (s : State) (gpa : Nat) : Bool :=
  gpa / 65536 % 512 = 511 || (getB s Fld.TR_SELF_NUMBERED && gpa / 65536 % 512 = getF s Fld.TR_SELF_NUMBER)

/-- The remote points that a set of tasks imports. -/
def remoteUses (s : State) (ts : Tab Admission) : List RemoteUse :=
  let all := ts.flatMap (fun kt => (kt.2.dfn.imports.filter (fun im => !localGpa s im.1)).map (fun im =>
    { gpa := im.1, ty := im.2, period := kt.2.dfn.period : RemoteUse }))
  (dedup (all.map (fun u => u.gpa))).filterMap (fun g =>
    let mine := all.filter (fun u => u.gpa == g)
    mine.head?.map (fun u => { u with period := mine.foldl (fun p x => min p x.period) u.period }))

/-- The highest index from 0xFFFF down to 0xC000 that no definition and no proxy holds. -/
def freeProxy (points : Tab PointDef) (used : List Nat) : Option Nat :=
  ((List.range 16384).find? (fun k => (tabGet? points (0xFFFF - k)).isNone && !used.contains (0xFFFF - k))).map (0xFFFF - ·)

/-- Milliseconds of three subscription periods, rounded up (08 R259). -/
def proxyRefresh (period : Nat) : Nat := (3 * period + 3) / 4

/-- The proxies after the commit, by index: those in effect whose point is still imported, and one for each further remote point while an index is free,
with the TYPE and TENANT of its remote point. -/
def viewProxies (s : State) (d : Defs) : Tab PtRec :=
  let uses := remoteUses s d.tasks
  let keep := s.pt.recs.filterMap (fun kr =>
    if !kr.2.proxy || !kr.2.defined || (tabGet? d.points kr.1).isSome then none
    else (uses.find? (fun u => u.gpa == kr.2.remoteGpa)).map (fun u => (kr.1, { kr.2 with ty := u.ty, refreshLimit := proxyRefresh u.period })))
  uses.foldl (fun t u =>
    if t.any (fun kr => kr.2.remoteGpa == u.gpa) then t
    else match freeProxy d.points (t.map (fun kr => kr.1)) with
      | none => t
      | some i =>
        let r : PtRec := { defined := true, proxy := true, ty := u.ty, tenant := tabGet 0 s.tr.tenants u.gpa, wq := .absent, writerKind := .truss,
                           refreshLimit := proxyRefresh u.period, stamp := usecNow s, remoteGpa := u.gpa }
        tabPut t i r) keep

/-! ## Records and registers after the commit -/

/-- Export fields of a record: number and network engine (10 R311). -/
def exportOf (s : State) (d : Defs) (i : Nat) : Nat × Nat :=
  match d.exports.find? (fun kx => (kx.2.dir = 0 || kx.2.dir = 2) && kx.2.index = i) with
  | some kx => (kx.1, ctxNe s kx.2.ctx)
  | none => (0, 0)

/-- A record after the commit (05 R147): new, or of a new TYPE: as defined; else its state stays. -/
def viewRec (s v : State) (cs : List Claim) (i : Nat) (p : PointDef) : PtRec :=
  let old := ptAt s i
  let ty := vtype p.ty
  let base : PtRec := if old.defined && !old.proxy && old.ty = ty then old
    else { value := normalise ty p.initial, stamp := usecNow s }
  let c := cs.find? (fun c => c.index = i)
  let e := exportOf v v.scf.defs i
  { base with defined := true, ty := ty, tenant := p.tenant, refreshLimit := p.refresh, cov := p.cov, proxy := false, remoteGpa := 0,
              writerKind := (c.map (fun c => c.kind)).getD .none, writerId := (c.map (fun c => c.ident)).getD 0, exportTag := e.1, exportNe := e.2 }

/-- The register fields of a word as a commit leaves them: as `commitWord`, without its fault. -/
def viewWordOf (s : State) (a w : Nat) : State :=
  match findReg a with
  | none => s
  | some (r, ix) => if tamperGuard s r.base (ix.getD 0 0) w then s else setWord s .sv r ix a w Acc.committed

/-- The configuration as it will stand after the commit: register fields, definitions and records. -/
def viewOf (s : State) (g : Staging) : State :=
  let v := g.words.foldl (fun v aw => viewWordOf v aw.1 aw.2) s
  let v := { v with scf := { v.scf with defs := viewDefs v.scf.defs g } }
  let cs := claims v v.scf.defs
  let own : Tab PtRec := v.scf.defs.points.map (fun kp => (kp.1, viewRec s v cs kp.1 kp.2))
  { v with pt := { v.pt with recs := (viewProxies s v.scf.defs).foldl (fun t kr => tabPut t kr.1 kr.2) own } }

/-! ## Users of records (02 R58, R66) -/

/-- A user of a record: the right it needs, the tenant it acts for, and its object. -/
structure PtUser where
  index : Nat
  right : Nat
  tenant : Nat
  tag : Nat
deriving DecidableEq, Repr

/-- Every user of a local record, by object. -/
def users (s : State) (d : Defs) : List PtUser :=
  d.tasks.flatMap (fun kt =>
      (kt.2.dfn.imports.filter (fun im => localGpa s im.1)).map (fun im =>
        { index := im.1 % 65536, right := rightRead, tenant := kt.2.dfn.tenant, tag := itemKey 9 kt.1 })
      ++ kt.2.dfn.outs.map (fun o => { index := o.index, right := rightWrite, tenant := kt.2.dfn.tenant, tag := itemKey 9 kt.1 }))
    ++ d.loops.flatMap (fun kl =>
      { index := kl.2.fb, right := rightRead, tenant := kl.2.tenant, tag := itemKey 4 kl.1 }
        :: ((if kl.2.sp = 0xFFFF then [] else [{ index := kl.2.sp, right := rightRead, tenant := kl.2.tenant, tag := itemKey 4 kl.1 : PtUser }])
          ++ (if kl.2.groupEn || kl.2.out = 0xFFFF then [] else [{ index := kl.2.out, right := rightWrite, tenant := kl.2.tenant, tag := itemKey 4 kl.1 : PtUser }])))
    ++ d.groups.map (fun kg => { index := kg.2.1.out, right := rightWrite, tenant := kg.2.2, tag := itemKey 5 kg.1 })
    ++ (d.maps.filter (fun km => km.2.kind ≠ .node)).map (fun km =>
        { index := km.2.index, right := if km.2.kind.isInput then rightWrite else rightRead, tenant := km.2.tenant, tag := itemKey 7 km.1 })
    ++ d.exports.flatMap (fun kx =>
      match ctxTenant? s kx.2.ctx with
      | none => []
      | some t =>
        (if kx.2.dir = 0 || kx.2.dir = 2 then [{ index := kx.2.index, right := rightPublish, tenant := t, tag := itemKey 8 kx.1 : PtUser }] else [])
          ++ (if kx.2.dir = 1 || kx.2.dir = 2 then [{ index := kx.2.index, right := rightWrite, tenant := t, tag := itemKey 8 kx.1 : PtUser }] else []))

end Sys2Proof.Machine
end

