-- ==== Sys2Proof/Machine/Joinery.lean ====
section
/-! DEFINITION. Machine/Joinery.lean: joinery (03 R103 to R107, R539): the definition instructions, and the run of an image's joinery by SV. -/

namespace Sys2Proof.Machine

/-! ## Definition instructions (Table 19) -/

/-- Applies `f` to the scarf's state. -/
def mapScf (s : State) (f : ScarfState → ScarfState) : State := { s with scf := f s.scf }

/-- The KIND and the descriptor's words of a definition instruction. -/
def defKind (op : Nat) : Nat × Nat :=
  match op with
  | 0x90 => (0, 4) | 0x91 => (1, 3) | 0x92 => (2, 2) | 0x93 => (3, 2) | 0x94 => (4, 42) | 0x95 => (5, 8) | 0x96 => (6, 20) | 0x97 => (7, 8)
  | 0x98 => (8, 8) | 0x99 => (9, 1) | _ => (9, 1)

/-- The largest number of a KIND. -/
def kindMax (kind : Nat) : Nat :=
  match kind with
  | 0 => 65535 | 1 => 1023 | 2 => 63 | 3 => 4095 | 4 => 4095 | 5 => 511 | 6 => 15 | 7 => 4095 | 8 => 32767 | _ => 63

/-- The tenant of a defined object; none: no such object. -/
def objTenant? (s : State) (kind n : Nat) : Option Nat :=
  let d := s.scf.defs
  let ofCtx (c : Nat) : Nat := (ctxTenant? s c).getD 4095
  match kind with
  | 0 => (tabGet? d.points n).map (fun p => p.tenant)
  | 1 => if getB s (Fld.PT_GRANT_ACC_VALID n) then some (getF s (Fld.PT_GRANT_ACC_OWNER n)) else none
  | 2 => ctxTenant? s n
  | 3 => if getB s (Fld.PT_VID_VALID n) then some (ofCtx (getF s (Fld.PT_VID_CTX n))) else none
  | 4 => (tabGet? d.loops n).map (fun l => l.tenant)
  | 5 => (tabGet? d.groups n).map (fun g => g.2)
  | 6 => (tabGet? d.circs n).map (fun c => c.tenant)
  | 7 => (tabGet? d.maps n).map (fun m => m.tenant)
  | 8 => (tabGet? d.exports n).map (fun x => ofCtx x.ctx)
  | _ => (tabGet? d.tasks n).map (fun t => t.dfn.tenant)

/-- The tenant of an object in effect or staged by the change so far. -/
def knownTenant? (s : State) (kind n : Nat) : Option Nat := (objTenant? (viewOf s s.scf.staging) kind n).or (objTenant? s kind n)

/-- A breach of R105 by joinery of a tenant other than 4095. -/
def joinBreach (s : State) (op : Nat) (w : Nat → Nat) : Bool :=
  let t := s.jrun.tenant
  t ≠ 4095 &&
    match op with
    | 0x90 => bitsOf (w 0) 20 12 ≠ t
    | 0x91 => bitsOf (w 2) 0 12 ≠ t
    | 0x92 => true
    | 0x93 => true
    | 0x99 => bitsOf (w 0) 24 8 ≠ 0xFF && (match objTenant? s 9 (bitsOf (w 0) 24 8) with | some o => decide (o ≠ t) | none => false)
    | 0x9A => (match knownTenant? s (w 0 % 16) (bitsOf (w 0) 16 16) with | some o => decide (o ≠ t) | none => false)
    | _ => false

/-- A descriptor field out of range (0x42): an unnamed bit, a number its table does not have, a task not of the image, an object that does not exist. The
fields of loops, groups, circuits, maps and exports are judged by the scarf check. -/
def descBad (s : State) (op : Nat) (w : Nat → Nat) : Bool :=
  match op with
  | 0x90 => bitOf (w 0) 19 || decide (0xFFFF < w 1)
  | 0x91 => decide (1023 < w 0)
  | 0x92 => decide (63 < w 0)
  | 0x93 => decide (4095 < w 0)
  | 0x99 => !within (w 0) 0xFF0177FF || !s.scf.jtasks.any (fun d => d.taskNo = w 0 % 256) || (63 < bitsOf (w 0) 24 8 && bitsOf (w 0) 24 8 ≠ 0xFF)
  | 0x9A => !within (w 0) 0xFFFF000F || decide (9 < w 0 % 16) || decide (kindMax (w 0 % 16) < bitsOf (w 0) 16 16)
      || (knownTenant? s (w 0 % 16) (bitsOf (w 0) 16 16)).isNone
  | _ => false

/-- Registers of a grant entry, a context, a VID entry, with the words that define it. -/
def regItem (g : Staging) (kind n : Nat) (a b : Nat) : Staging :=
  match kind with
  | 1 => stageWord (stageWord g (Fld.PT_GRANT_RNG_LOW n).addr a) (Fld.PT_GRANT_ACC_OWNER n).addr b
  | 2 => stageWord g (Fld.PT_CTX_TENANT n).addr a
  | 3 => stageWord g (Fld.PT_VID_CTX n).addr a
  | _ => g

/-- The number that a definition's descriptor names. -/
def defNumber (op : Nat) (w0 : Nat) : Nat :=
  match op with
  | 0x90 => w0 % 65536 | 0x94 => w0 % 4096 | 0x95 => w0 % 512 | 0x96 => w0 % 16 | 0x97 => w0 % 4096 | 0x98 => w0 % 32768
  | 0x99 => bitsOf w0 8 3 * 8 + bitsOf w0 12 3 | _ => w0

/-- The item that a definition instruction stages. -/
def stageDef (s : State) (op : Nat) (ws : List Nat) : Staging :=
  let g := s.scf.staging
  let w0 := ws.headD 0
  let t := s.jrun.tenant
  if op = 0x9A then
    let kind := w0 % 16
    let n := bitsOf w0 16 16
    regItem (stageItem g kind n { tenant := t }) kind n 0 0
  else
    let kind := (defKind op).1
    let n := defNumber op w0
    let task := if op = 0x99 then s.scf.jtasks.find? (fun d => d.taskNo = w0 % 256) else none
    regItem (stageItem g kind n { words := some ws, tenant := t, task := task }) kind n (ws.getD 1 0) (ws.getD 2 0)

/-- A definition instruction of joinery with descriptor at .const word `h`: the item is staged, or the run aborts with CODE and DETAIL of Table 20. -/
def joinItem (s : State) (op h : Nat) : State × Option (Nat × Nat) :=
  let w (k : Nat) : Nat := (s.jrun.consts.getD (h + k) 0).toNat
  if joinBreach s op w then (s, some (0x41, op))
  else if descBad s op w then (s, some (0x42, h))
  else ({ mapScf s (fun x => { x with staging := stageDef s op ((List.range (defKind op).2).map w) }) with jrun := s.jrun.fin 0 1 1 }, none)

/-- A definition instruction as a command: joinery runs only while the scarf is in STAGING (log 2); an abort stages nothing and ends the run. -/
def joinRow (s : State) (op h : Nat) : State :=
  if getF s Fld.SCF_STATE_STATE ≠ 1 || s.jrun.ended then s
  else match joinItem s op h with
    | (t, none) => t
    | (_, some _) => { s with jrun := { s.jrun with ended := true } }

/-- DEFPT. -/
def execOpDefpt (h : Fin 65536) (s : State) : Host.Outcome State Fault Refusal := done (joinRow s 0x90 h.val)
/-- DEFGR. -/
def execOpDefgr (h : Fin 65536) (s : State) : Host.Outcome State Fault Refusal := done (joinRow s 0x91 h.val)
/-- DEFCTX. -/
def execOpDefctx (h : Fin 65536) (s : State) : Host.Outcome State Fault Refusal := done (joinRow s 0x92 h.val)
/-- DEFVID. -/
def execOpDefvid (h : Fin 65536) (s : State) : Host.Outcome State Fault Refusal := done (joinRow s 0x93 h.val)
/-- DEFLOOP. -/
def execOpDefloop (h : Fin 65536) (s : State) : Host.Outcome State Fault Refusal := done (joinRow s 0x94 h.val)
/-- DEFGRP. -/
def execOpDefgrp (h : Fin 65536) (s : State) : Host.Outcome State Fault Refusal := done (joinRow s 0x95 h.val)
/-- DEFCIRC. -/
def execOpDefcirc (h : Fin 65536) (s : State) : Host.Outcome State Fault Refusal := done (joinRow s 0x96 h.val)
/-- DEFMAP. -/
def execOpDefmap (h : Fin 65536) (s : State) : Host.Outcome State Fault Refusal := done (joinRow s 0x97 h.val)
/-- DEFEXP. -/
def execOpDefexp (h : Fin 65536) (s : State) : Host.Outcome State Fault Refusal := done (joinRow s 0x98 h.val)
/-- ADMIT. -/
def execOpAdmit (h : Fin 65536) (s : State) : Host.Outcome State Fault Refusal := done (joinRow s 0x99 h.val)
/-- DELDEF. -/
def execOpDeldef (h : Fin 65536) (s : State) : Host.Outcome State Fault Refusal := done (joinRow s 0x9A h.val)

/-! ## System access in joinery (R104 to R106) -/

/-- SYSRD, SYSRDX in joinery: local `a` takes the word in effect at address `addr`; `qs`: qualities of source locals. -/
def joinRead (s : State) (a addr words : Nat) (qs : List Quality) : State × Option (Nat × Nat) :=
  if s.jrun.tenant ≠ 4095 then (s, some (0x41, if words = 1 then 0x9C else 0x9E))
  else
    let s := readReg s .sv addr
    ({ s with jrun := s.jrun.put a { w := replyWord s } qs words 1 }, none)

/-- SYSWR, SYSWRX in joinery: a staged write. -/
def joinWrite (s : State) (addr w words : Nat) : State × Option (Nat × Nat) :=
  if s.jrun.tenant ≠ 4095 then (s, some (0x41, if words = 1 then 0x9D else 0x9F))
  else if (findReg addr).isNone then (s, some (0x43, addr))
  else ({ mapScf s (fun x => { x with staging := stageWrite x.staging addr w }) with jrun := s.jrun.fin 0 words 1 }, none)

/-! ## The run of an image's joinery (R539) -/

/-- Opcodes 0x00 to 0x2F in joinery. -/
def joinLow (i : Ins) : Run → Run :=
  match i.op with
  | 0x00 => rNop   -- NOP
  | 0x01 => rMov i.a i.b   -- MOV
  | 0x02 => rLdi i.a (Word.ofNat (i.imm.getD 0))   -- LDI
  | 0x03 => rLdk i.a i.h   -- LDK
  | 0x04 => rToReal 2 i.a i.b   -- ITOR
  | 0x05 => rToReal 2 i.a i.b   -- UTOR
  | 0x06 => rFromReal .int32 1 i.a i.b   -- RTOI
  | 0x07 => rFromReal .uint32 1 i.a i.b   -- RTOU
  | 0x08 => rFtor i.a i.b   -- FTOR
  | 0x09 => rFromReal .fix16 32768 i.a i.b   -- RTOF
  | 0x0A => rConvInt .uint32 i.a i.b   -- ITOU
  | 0x0B => rConvInt .int32 i.a i.b   -- UTOI
  | 0x0C => rBtoi i.a i.b   -- BTOI
  | 0x0D => rItob i.a i.b   -- ITOB
  | 0x0E => rTrel i.a   -- TREL
  | 0x0F => rFlags i.a   -- FLAGS
  | 0x10 => rAdd i.a i.b i.c   -- ADD
  | 0x11 => rSub i.a i.b i.c   -- SUB
  | 0x12 => rMul i.a i.b i.c   -- MUL
  | 0x13 => rDiv i.a i.b i.c   -- DIV
  | 0x14 => rMod i.a i.b i.c   -- MOD
  | 0x15 => rNeg i.a i.b   -- NEG
  | 0x16 => rAbs i.a i.b   -- ABS
  | 0x17 => rMin i.a i.b i.c   -- MIN
  | 0x18 => rMax i.a i.b i.c   -- MAX
  | 0x19 => rLim i.a i.b i.c   -- LIM
  | 0x1A => rAddw i.a i.b i.c   -- ADDW
  | 0x1B => rSubw i.a i.b i.c   -- SUBW
  | 0x20 => rBits (fun x y => x &&& y) i.a i.b i.c   -- AND
  | 0x21 => rBits (fun x y => x ||| y) i.a i.b i.c   -- OR
  | 0x22 => rBits (fun x y => x ^^^ y) i.a i.b i.c   -- XOR
  | 0x23 => rNot i.a i.b   -- NOT
  | 0x24 => rBitC (fun x n => x <<< n) i.a i.b i.c   -- SHL
  | 0x25 => rBitC (fun x n => x >>> n) i.a i.b i.c   -- SHR
  | 0x26 => rBitC (fun x n => x.sshiftRight n) i.a i.b i.c   -- SAR
  | 0x27 => rBitC (fun x n => x.rotateLeft n) i.a i.b i.c   -- ROL
  | 0x28 => rBitC (fun x n => if x.getLsbD n then 1 else 0) i.a i.b i.c   -- BTST
  | 0x29 => rBitC (fun x n => x ||| (1#32 <<< n)) i.a i.b i.c   -- BSET
  | 0x2A => rBitC (fun x n => x &&& ~~~(1#32 <<< n)) i.a i.b i.c   -- BCLR
  | 0x2B => rBits (fun x y => x <<< (y.toNat % 32)) i.a i.b i.c   -- SHLV
  | 0x2C => rBits (fun x y => x >>> (y.toNat % 32)) i.a i.b i.c   -- SHRV
  | 0x2D => rCount (fun n => popCount n 32) i.a i.b   -- POPC
  | 0x2E => rCount (fun n => leadingZeros n 32) i.a i.b   -- CLZ
  | _ => fun r => r

/-- Opcodes 0x30 to 0x4F. -/
def joinMid (i : Ins) : Run → Run :=
  match i.op with
  | 0x30 => rBin realAdd 2 i.a i.b i.c   -- RADD
  | 0x31 => rBin realSub 2 i.a i.b i.c   -- RSUB
  | 0x32 => rBin realMul 2 i.a i.b i.c   -- RMUL
  | 0x33 => rBin realDiv 14 i.a i.b i.c   -- RDIV
  | 0x34 => rUn realNegate 1 i.a i.b   -- RNEG
  | 0x35 => rUn realAbs 1 i.a i.b   -- RABS
  | 0x36 => rBin (realPick true) 1 i.a i.b i.c   -- RMIN
  | 0x37 => rBin (realPick false) 1 i.a i.b i.c   -- RMAX
  | 0x38 => rTri realLim 1 i.a i.b i.c   -- RLIM
  | 0x39 => rUn realSqrt 16 i.a i.b   -- RSQRT
  | 0x3A => rTri realMac 3 i.a i.b i.c   -- RMAC
  | 0x3B => rUn (realIntegral ratRound) 2 i.a i.b   -- RRND
  | 0x3C => rUn (realIntegral ratTrunc) 2 i.a i.b   -- RTRN
  | 0x40 => rBin (fun x y => satInt .fix16 (x.toInt + y.toInt)) 1 i.a i.b i.c   -- FADD
  | 0x41 => rBin (fun x y => satInt .fix16 (x.toInt - y.toInt)) 1 i.a i.b i.c   -- FSUB
  | 0x42 => rBin fixMul 1 i.a i.b i.c   -- FMUL
  | 0x43 => rBin fixDiv 18 i.a i.b i.c   -- FDIV
  | 0x44 => rUn (fun x => satInt .fix16 (-x.toInt)) 1 i.a i.b   -- FNEG
  | 0x45 => rUn (fun x => satInt .fix16 x.toInt.natAbs) 1 i.a i.b   -- FABS
  | 0x46 => rLim i.a i.b i.c   -- FLIM
  | 0x47 => (fun r => r.opC (fun _ x n => fixShr x n) 1 i.a i.b i.c)   -- FSHR
  | 0x48 => rCmp .eq i.a i.b i.c   -- EQ
  | 0x49 => rCmp .ne i.a i.b i.c   -- NE
  | 0x4A => rCmp .lt i.a i.b i.c   -- LT
  | 0x4B => rCmp .le i.a i.b i.c   -- LE
  | 0x4C => rCmp .gt i.a i.b i.c   -- GT
  | 0x4D => rCmp .ge i.a i.b i.c   -- GE
  | 0x4E => rTbef i.a i.b i.c   -- TBEF
  | _ => fun r => r

/-- Opcodes 0x50 to 0x5F. -/
def joinHigh (i : Ins) : Run → Run :=
  match i.op with
  | 0x50 => rJump i.h   -- JMP
  | 0x51 => rJumpIf true i.a i.h   -- JT
  | 0x52 => rJumpIf false i.a i.h   -- JF
  | 0x53 => rLoop i.a i.h   -- LOOP
  | 0x54 => rEndl   -- ENDL
  | 0x55 => rSel i.a i.b i.c   -- SEL
  | 0x56 => rEnd   -- END
  | 0x58 => rLutl i.a i.b i.c   -- LUTL
  | 0x59 => rLuts i.a i.b i.c   -- LUTS
  | 0x5A => rHfind i.a i.b i.c   -- HFIND
  | 0x5B => rHhas i.a i.b i.c   -- HHAS
  | 0x5C => rTlen i.a i.c   -- TLEN
  | 0x5D => rTrd i.a i.b i.c   -- TRD
  | _ => fun r => r

/-- One instruction of joinery. -/
def joinStep (s : State) (i : Ins) : State × Option (Nat × Nat) :=
  let r := s.jrun
  if i.op < 0x30 then ({ s with jrun := joinLow i r }, none)
  else if i.op < 0x50 then ({ s with jrun := joinMid i r }, none)
  else if i.op < 0x60 then ({ s with jrun := joinHigh i r }, none)
  else match i.op with
    | 0x9C => joinRead s i.a (r.loc i.b).value.toNat 1 [(r.loc i.b).q]
    | 0x9D => joinWrite s (r.loc i.a).value.toNat (r.loc i.b).value.toNat 1
    | 0x9E => joinRead s i.a (i.imm.getD 0) 2 []
    | 0x9F => joinWrite s (i.imm.getD 0) (r.loc i.a).value.toNat 2
    | op => joinItem s op i.h

/-- The instruction at the run's pc. -/
def joinAt (r : Run) : Option Ins :=
  (r.code[r.pc]?).map (fun w => { addr := r.pc, w := w.toNat, imm := (r.code[r.pc + 1]?).map (fun v => v.toNat) })

/-- The run to its END, in at most as many instructions as the first argument; an abort gives its word, CODE and DETAIL. -/
def joinRun : Nat → State → State × Option (Nat × Nat × Nat)
  | 0, s => (s, none)
  | n + 1, s =>
    if s.jrun.ended then (s, none)
    else match joinAt s.jrun with
      | none => (s, none)
      | some i => match joinStep s i with
        | (t, none) => joinRun n t
        | (t, some e) => (t, some (i.addr, e))

/-- Starts the run of an image's joinery: locals zero and GOOD, flags clear, TREL the microseconds of the last grid tick. -/
def joinStart (s : State) (p : Parsed) (tasks : List TaskDef) : State :=
  let x := joinCtx p
  mapScf { s with jrun := { types := x.td.types, locals := x.td.types.map (fun _ => {}), code := x.td.code, consts := p.consts, table := p.table,
                            relTime := s.tick * 250 % 2 ^ 32, tenant := p.tenant } }
    (fun f => { f with jtasks := tasks })

/-- Runs an image's joinery; an abort gives its record. -/
def joinImage (s : State) (p : Parsed) (tasks : List TaskDef) : State × Option Rej :=
  let s := joinStart s p tasks
  if p.joinery.isEmpty then (s, none)
  else
    let (s, e) := joinRun 16777217 s
    (s, e.map (fun (a, c, d) => (joinCtx p).rej c a d))

end Sys2Proof.Machine
end

