-- ==== Sys2Proof/Machine/Check.lean ====
section
/-! DEFINITION. Machine/Check.lean: step 7 of the verifier (03 R108) and the scarf check (05 R145): the configuration that would stand after the commit is
judged, and the first cause in the order of Table 2 is reported. -/

namespace Sys2Proof.Machine

/-! ## Shared parts -/

/-- A cause: CODE and DETAIL. -/
abbrev Cause := Option (Nat × Nat)

/-- The first cause of a list. -/
def firstCause : List Cause → Cause
  | [] => none
  | some c :: _ => some c
  | none :: t => firstCause t

/-- The least number of a list. -/
def leastOf : List Nat → Option Nat
  | [] => none
  | a :: t => some (t.foldl min a)

/-- The least number of a list as the DETAIL of a cause. -/
def leastCause (code : Nat) (ns : List Nat) : Cause := (leastOf ns).map (fun n => (code, n))

/-- A DETAIL that the spec does not state (log 4). -/
def openDetail (code n : Nat) : Nat := Config.crypto 31 [code, n] % 2 ^ 32

/-- A cause without a stated DETAIL. -/
def openCause (bad : Bool) (code n : Nat) : Cause := if bad then some (code, openDetail code n) else none

/-- An object that the change neither replaces nor removes; a task goes also where an ADMIT into another slot replaces it. -/
def persists (g : Staging) (tag : Nat) : Bool := (tabGet? g.items tag).isNone && !(replacedSlots g).any (fun k => itemKey 9 k == tag)

/-- The records that the change's own PT_FCMD writes release (02 R66). -/
def releasedBy (g : Staging) : List Nat :=
  g.writes.filterMap (fun aw => if aw.1 = Fld.PT_FCMD_GO.addr && bitOf aw.2 31 && bitsOf aw.2 16 2 = 2 then some (aw.2 % 65536) else none)

/-- A force that the change leaves on a record. -/
def forceLeft (s : State) (g : Staging) (i : Nat) : Bool := (ptAt s i).defined && (ptAt s i).force && !(releasedBy g).contains i

/-- Indices of the records that metered quantities claim. -/
def meteredOf (s v : State) : List Nat := ((claims s v.scf.defs).filter (fun c => c.kind == .meter)).map (fun c => c.index)

/-- A record of FIX16 or REAL32 that is defined and no proxy, on which a tenant holds a right (06 R192). -/
def loopRecOk (v : State) (t i right : Nat) : Bool :=
  let r := ptAt v i
  r.defined && !r.proxy && (r.ty == .fix16 || r.ty == .real32) && holdsRight v t i right

/-! ## 0x01 to 0x04: types, claims, grants -/

/-- TYPE 6 or 7 (R35), or a change of TYPE with dependents (R107). -/
def checkTypes (s v : State) (g : Staging) : Cause :=
  let us := (users s s.scf.defs).filter (fun u => persists g u.tag)
  leastCause 0x01 (v.scf.defs.points.filterMap (fun kp =>
    let changed := match tabGet? s.scf.defs.points kp.1 with | some o => o.ty ≠ kp.2.ty | none => false
    if 5 < kp.2.ty || (changed && ((ptAt s kp.1).force || us.any (fun u => u.index = kp.1))) then some kp.1 else none))

/-- A record with two claimants (R55). -/
def checkWriters (v : State) : Cause :=
  let cs := (claims v v.scf.defs).map (fun c => c.index) ++ v.pt.recs.filterMap (fun kr => if kr.2.proxy then some kr.1 else none)
  leastCause 0x02 (cs.filter (fun i => (ptAt v i).defined && decide (2 ≤ cs.count i)))

/-- WRITE granted on, or a force left on, a metered quantity (R56). -/
def checkMetered (s v : State) (g : Staging) : Cause :=
  leastCause 0x03 ((meteredOf v v).filter (fun i =>
    forceLeft s g i || (validGrants v).any (fun n =>
      getF v (Fld.PT_GRANT_ACC_OWNER n) == (ptAt v i).tenant && decide (getF v (Fld.PT_GRANT_RNG_LOW n) ≤ i) && decide (i ≤ getF v (Fld.PT_GRANT_RNG_HIGH n))
        && getB v (Fld.PT_GRANT_ACC_WRITE n))))

/-- A grant entry outside the staging tenant's ownership, LOW > HIGH, or grantee equal to owner (R65). -/
def checkGrants (s v : State) (g : Staging) : Cause :=
  let foreign := (itemsOf g 1).filterMap (fun kx =>
    let other (q : State) : Bool := getB q (Fld.PT_GRANT_ACC_VALID kx.1) && getF q (Fld.PT_GRANT_ACC_OWNER kx.1) != kx.2.tenant
    if kx.2.tenant ≠ 4095 && (other s || other v) then some kx.1 else none)
  leastCause 0x04 (foreign ++ (validGrants v).filter (fun n =>
    getF v (Fld.PT_GRANT_RNG_HIGH n) < getF v (Fld.PT_GRANT_RNG_LOW n) || getF v (Fld.PT_GRANT_ACC_GRANTEE n) = getF v (Fld.PT_GRANT_ACC_OWNER n)))

/-! ## 0x05 to 0x09: rights in use, deletions, contexts, slots -/

/-- DETAIL of a right lost on a record: the least entry that gave it and no longer does; lost without an entry, the spec states none. -/
def withdrawn (s v : State) (t i right : Nat) : Nat :=
  let o := (ptAt s i).tenant
  (leastOf ((validGrants s).filter (fun n => grantGives s n t o i right && !(getB v (Fld.PT_GRANT_ACC_VALID n) && grantGives v n t o i right)))).getD
    (openDetail 0x05 i)

/-- A right withdrawn while a user or a force depends on it (R66). -/
def checkRights (s v : State) (g : Staging) : Cause :=
  let lost (t i right : Nat) : Bool := (ptAt v i).defined && holdsRight s t i right && !holdsRight v t i right
  let us := ((users s s.scf.defs).filter (fun u => persists g u.tag && lost u.tenant u.index u.right)).map (fun u => (u.tenant, u.index, u.right))
  let fs := (s.pt.forcers.filter (fun kt => forceLeft s g kt.1 && lost kt.2 kt.1 rightForce)).map (fun kt => (kt.2, kt.1, rightForce))
  (us ++ fs).head?.map (fun x => (0x05, withdrawn s v x.1 x.2.1 x.2.2))

/-- Records that the change deletes. -/
def deletedBy (s v : State) : List Nat :=
  s.scf.defs.points.filterMap (fun kp => if (tabGet? v.scf.defs.points kp.1).isNone then some kp.1 else none)

/-- A use for which R58 keeps a record: an import, a loop's sample, a field-bus or endpoint map entry, an export to the network; writing a record from a
task, a loop or a group is none. -/
def keepsRecord (u : PtUser) : Bool := u.right != rightWrite || u.tag / 65536 == 7 || u.tag / 65536 == 8

/-- A record deleted while still used (R58). -/
def checkDeleted (s v : State) : Cause :=
  let used := ((users v v.scf.defs).filter keepsRecord).map (fun u => u.index)
  leastCause 0x06 ((deletedBy s v).filter used.contains)

/-- A forced record deleted (R62). -/
def checkForced (s v : State) : Cause := leastCause 0x07 ((deletedBy s v).filter (fun i => (ptAt s i).force))

/-- Numbers of the valid VID entries. -/
def validVids (s : State) : List Nat :=
  s.regs.filterMap (fun kv =>
    let a := kv.1 / 256
    if kv.1 % 256 = 15 * 8 + 2 && 0x204000 ≤ a && a < 0x208000 && a % 4 = 0 && kv.2 = 1 then some ((a - 0x204000) / 4) else none)

/-- A context breaching R67, or NE = 0b11; of two contexts for one tenant the higher is the one in breach (log 29). -/
def ctxBad (v : State) (n : Nat) : Bool :=
  let tx := getF v (Fld.PT_CTX_TX_VID n)
  getF v (Fld.PT_CTX_NE n) == 3
    || (getB v (Fld.PT_CTX_VALID n)
      && (getF v (Fld.PT_CTX_TENANT n) == 4095
        || (List.range n).any (fun m => ctxTenant? v m == some (getF v (Fld.PT_CTX_TENANT n)))
        || (tx != 0 && !(getB v (Fld.PT_VID_VALID tx) && getF v (Fld.PT_VID_CTX tx) == n))))

/-- A context or VID entry breaching R67 or R68. -/
def checkContexts (v : State) : Cause :=
  firstCause [leastCause 0x08 ((List.range 64).filter (ctxBad v)),
    leastCause 0x08 ((validVids v).filter (fun n => n = 4095 || (ctxTenant? v (getF v (Fld.PT_VID_CTX n))).isNone))]

/-- ADMITs onto held slots, or whose REPLACE names no task in effect (R107), by slot. -/
def checkSlots (s : State) (g : Staging) : Cause :=
  let rec go (taken : List Nat) : List (Nat × Staged) → Cause
    | [] => none
    | (k, x) :: t =>
      if x.words.isNone then go taken t
      else
        let r := replaces? x
        let removed (q : Nat) : Bool := match staged? g 9 q with | some y => y.words.isNone | none => false
        if (tabGet? s.scf.defs.tasks k).isSome && r ≠ some k then some (0x09, k)
        else match r with
          | none => go taken t
          | some q => if (tabGet? s.scf.defs.tasks q).isNone || removed q || taken.contains q then some (0x09, q) else go (q :: taken) t
  go [] (itemsOf g 9)

/-! ## 0x0A and 0x0B: admission and capacity -/

/-- Tasks of an engine. -/
def tasksOn (ts : Tab Admission) (e : Nat) : List TaskDef := (ts.filter (fun kt => kt.1 / 8 = e)).map (fun kt => kt.2.dfn)

/-- An engine's set failing R118 at the clocks after the change. -/
def checkAdmission (v : State) : Cause :=
  let p := getF v Fld.PW_CFG_PROFILE
  leastCause 0x0A ((List.range 8).filter (fun e =>
    let ds := tasksOn v.scf.defs.tasks e
    p ≠ 3 && decide (52428 < utilSum (clockOf p (ds.any (fun d => d.express))) ds)))

/-- Whole pages of a number of bytes. -/
def pagesOf (n : Nat) : Nat := (n + 4095) / 4096

/-- Pages of the task pool that a task takes (12 R382). -/
def taskPages (d : TaskDef) : Nat :=
  pagesOf (768 + 4 * d.code.length
    + 8 * (d.imports.length + d.outs.length + d.nEdges + d.types.length + d.counters.length + d.alarms.length) + 24 * d.timers.length)

/-- Tasks after the change with those that it replaces, and one of them for each image. -/
def heldTasks (s v : State) (g : Staging) : List TaskDef :=
  v.scf.defs.tasks.map (fun kt => kt.2.dfn) ++ (replacedSlots g).filterMap (fun q => (tabGet? s.scf.defs.tasks q).map (fun a => a.dfn))

/-- One task for each image, by tenant, IMAGE_ID and VERSION. -/
def oneEach (ds : List TaskDef) : List TaskDef :=
  ds.foldl (fun l d => if l.any (fun x => x.tenant = d.tenant && x.imageId = d.imageId && x.version = d.version) then l else l ++ [d]) []

/-- The memories of R382 and R389 cannot hold the tasks. -/
def memoryShort (ds : List TaskDef) : Bool :=
  let sum (f : TaskDef → Nat) (l : List TaskDef) : Nat := l.foldl (fun n d => n + f d) 0
  decide (2560 < sum taskPages ds + sum (fun d => pagesOf (4 * d.consts.length)) (oneEach ds))
    || decide (2048 * 256 < sum (fun d => pagesOf (4 * d.table.length)) (oneEach ds))
    || decide (3200 * 2 ^ 20 < 16 * sum (fun d => d.trends.foldl (· + ·) 0) ds)

/-- Remote points imported after the change for which no proxy index is free (R41). -/
def proxyShort (v : State) : Bool :=
  (remoteUses v v.scf.defs.tasks).any (fun u => !v.pt.recs.any (fun kr => kr.2.proxy && kr.2.remoteGpa == u.gpa))

/-- A breach of R120, no free index for a proxy (R41), or the budget of 14 R449. -/
def checkCapacity (s v : State) (g : Staging) : Cause :=
  let ts := v.scf.defs.tasks
  let p := getF v Fld.PW_CFG_PROFILE
  let b := getF v Fld.PW_BUDGET_BUDGET
  firstCause [
    if 4 < (ts.filter (fun kt => kt.2.dfn.express)).length then some (0x0B, 0xFFFFFFFF) else none,
    leastCause 0x0B (ts.filterMap (fun kt => if !kt.2.dfn.express && kt.2.dfn.period < 4 then some (kt.1 / 8) else none)),
    if memoryShort (heldTasks s v g) || proxyShort v then some (0x0B, 0xFFFFFFFF) else none,
    openCause (p == 3) 0x0B 0,
    if b < 600 || 1350 < b || b < standingSum p (2 ^ 14 - 1) 14 + 150 then some (0x0B, 0xFFFFFFFE) else none,
    openCause (getF v Fld.FLT_CFG_AUTO_ACK == 3) 0x0B 1]

/-! ## 0x0C: loops and groups (06 R192) -/

/-- Every loop descriptor after the change. -/
def loopDefs (v : State) : List LoopDef := v.scf.defs.loops.map (fun kl => kl.2)

/-- A loop breaks a check of R192. -/
def loopBad (v : State) (g : Staging) (n : Nat) (d : LoopDef) : Bool :=
  (match stagedWords? g 4 n with | some ws => !loopFieldsOk ws | none => false)
    || !loopRecOk v d.tenant d.fb rightRead
    || (d.sp != 0xFFFF && !loopRecOk v d.tenant d.sp rightRead)
    || (if d.groupEn then
          d.out != 0xFFFF
            || (match tabGet? v.scf.defs.groups d.group with
                | none => true
                | some gt => loopEngine n != d.group / 256
                    || gt.1.members.any (fun m => match tabGet? v.scf.defs.loops m with
                        | some o => o.period != d.period || o.phase != d.phase
                        | none => false))
            || decide (2 ≤ (v.scf.defs.groups.filter (fun kg => kg.2.1.members.contains n)).length)
        else d.out == 0xFFFF || !loopRecOk v d.tenant d.out rightWrite || (meteredOf v v).contains d.out)

/-- A group breaks a check of R192. -/
def groupBad (v : State) (g : Staging) (n : Nat) (x : Group) (tenant : Nat) : Bool :=
  (match stagedWords? g 5 n with | some ws => !groupFieldsOk ws | none => false)
    || x.members.any (fun m => match tabGet? v.scf.defs.loops m with | some d => !(d.groupEn && d.group == n) | none => true)
    || (loopDefs v).any (fun d => d.groupEn && d.group == n && !x.members.contains d.loop)
    || !loopRecOk v tenant x.out rightWrite || (meteredOf v v).contains x.out

/-- Loops, then groups, then each loop engine's sum (R166). -/
def checkLoops (v : State) (g : Staging) : Cause :=
  let clock := min (getF v Fld.PW_CFG_PROFILE) 2
  let gs := v.scf.defs.groups.map (fun kg => (kg.1, kg.2.1))
  firstCause [
    leastCause 0x0C (v.scf.defs.loops.filterMap (fun kl => if loopBad v g kl.1 kl.2 then some kl.1 else none)),
    leastCause 0x0C (v.scf.defs.groups.filterMap (fun kg => if groupBad v g kg.1 kg.2.1 kg.2.2 then some (0x1000 + kg.1) else none)),
    leastCause 0x0C ([0, 1].filterMap (fun e => if 52428 < loopUtil clock (ptType v) (loopDefs v) gs e then some (0xFFFFF000 + e) else none))]

/-! ## 0x0D: circuits (07 R201, R227) -/

/-- Current inputs of every circuit, with their circuit. -/
def currentInputs (v : State) : List Nat := v.scf.defs.circs.flatMap (fun kc => kc.2.phases.map (fun p => p.mi))

/-- A selected quantity's record does not fit. -/
def quantityBad (v : State) (d : CircDef) (q : Nat) : Bool :=
  let i := d.pointBase + q
  let r := ptAt v i
  decide (0xFFFF < i) || !r.defined || r.proxy || r.tenant != d.tenant || (match quantityType q with | some t => t != r.ty | none => true)

/-- A circuit breaks a check of R201. -/
def circuitBad (s v : State) (g : Staging) (n : Nat) (d : CircDef) : Bool :=
  let c := vsRegs v d.vset
  (match staged? g 6 n with
    | some { words := some ws, tenant := t, .. } =>
      !circFieldsOk ws || !(t == 4095 || (t == 0 && d.tenant == 0))
        || !c.en || (d.vigilEn && !d.phases.any (fun p => decide (p.mi ≤ 15)))
        || (match tabGet? s.scf.defs.circs n with | some o => o.tenant != d.tenant && !d.resetLedger | none => false)
    | _ => false)
    || (d.tenant != 0 && (selectedCodes d).any (fun q => !holdsRight v 0 (d.pointBase + q) rightRead))
    || (c.single && d.phases.any (fun p => p.vph != 0))
    || d.phases.any (fun p => decide (2 ≤ (currentInputs v).count p.mi))
    || (selectedCodes d).any (quantityBad v d)

/-- A pulse output whose backlog is not bounded (R227). -/
def pulseBad (v : State) (k : Nat) : Bool :=
  getB v (Fld.MT_PULSE_CFG_EN k)
    && (match tabGet? v.scf.defs.circs (getF v (Fld.MT_PULSE_CFG_CIRCUIT k)) with
        | none => false
        | some d =>
          decide (((getF v (Fld.MT_PULSE_CFG_QPP k) * 500 : Nat) : Rat)
            < 3 / 2 * (d.phases.length : Nat) * realVal d.imax * udinOf (vsRegs v d.vset) / 36 * (getF v (Fld.MT_PULSE_CFG_WIDTH k) : Nat)))

/-- A voltage set that the change disables while a circuit uses it (R201), or an enabled one that it leaves with UDIN outside 10.0 V to 300.0 V
(R198): no rule gives the DETAIL of the second, and the first's is used (DESIGN CHOICE, log 115). -/
def setBad (s v : State) (n : Nat) : Bool :=
  let u := getF v (Fld.MT_VS_CFG_UDIN n)
  getB s (Fld.MT_VS_CFG_EN n) && !getB v (Fld.MT_VS_CFG_EN n) && v.scf.defs.circs.any (fun kc => kc.2.vset == n)
    || getB v (Fld.MT_VS_CFG_EN n) && (decide (u < 100) || decide (3000 < u))

/-- Circuits, pulse outputs, voltage sets, and the Vigil window. -/
def checkCircuits (s v : State) (g : Staging) : Cause :=
  firstCause [
    leastCause 0x0D (v.scf.defs.circs.filterMap (fun kc => if circuitBad s v g kc.1 kc.2 then some kc.1 else none)),
    leastCause 0x0D (((List.range 8).filter (pulseBad v)).map (0x100 + ·)),
    leastCause 0x0D (((List.range 4).filter (setBad s v)).map (0x200 + ·)),
    openCause (getF v Fld.MT_VIGIL_CFG_WIN == 3) 0x0D 0]

/-! ## 0x0E: field-bus maps (11 R360) -/

/-- A DEFMAP descriptor has a field out of range, a nonzero unnamed bit, or a KIND that does not belong to its CHANNEL. -/
def mapFieldsOk (ws : List Nat) : Bool :=
  let w (k : Nat) : Nat := ws.getD k 0
  let kind := bitsOf (w 0) 12 4
  let ch := bitsOf (w 0) 16 5
  let node := bitsOf (w 0) 24 8
  let width := bitsOf (w 3) 9 6
  let widthOk := decide (1 ≤ width) && decide (width ≤ 32)
  let identOk := bitOf (w 2) 29 || decide (bitsOf (w 2) 0 29 ≤ 0x7FF)
  within (w 0) 0xFF1FFFFF && (match kind with
    | 0 => decide (ch ≤ 11) && decide (1 ≤ node) && decide (node ≤ 127) && w 1 == 0 && decide (1 ≤ w 4) && decide (w 4 ≤ 255)
        && w 5 == 0 && w 6 == 0 && w 7 == 0
    | 1 => decide (ch ≤ 11) && decide (node ≤ 127) && within (w 1) 0xFFFF && identOk && within (w 3) 0x3FFFF && widthOk
        && within (w 6) (if node = 0 then 0xFFFF0000 else 0) && decide (w 7 ≤ 62)
    | 2 => decide (ch ≤ 11) && decide (node ≤ 127) && within (w 1) 0xFFFF && identOk && within (w 3) 0x7F03FFFF && widthOk
        && decide (bitsOf (w 3) 24 7 ≤ 64) && within (w 6) 0xFFFF && w 7 == 0
    | 3 => decide (16 ≤ ch) && decide (ch ≤ 23) && decide (node ≤ 247) && within (w 1) 0xFFFF && within (w 2) 0xFFFFFF && within (w 3) 0x3FFFF && widthOk
        && decide (10 ≤ w 6) && decide (w 6 ≤ 65535) && w 7 == 0
    | 4 => decide (16 ≤ ch) && decide (ch ≤ 23) && decide (node ≤ 247) && within (w 1) 0xFFFF && within (w 2) 0xFFFFFF && within (w 3) 0x3FFFF && widthOk
        && within (w 6) 0xFFFF && w 7 == 0
    | 5 => ch == 24 && node == 0 && within (w 1) 0xFFFF && within (w 2) 0x7F && w 3 == 0 && w 4 == 0 && w 5 == 0 && within (w 6) 0xFF && w 7 == 0
    | 6 => ch == 24 && node == 0 && within (w 1) 0xFFFF && within (w 2) 0x7F && w 3 == 0 && w 4 == 0 && w 5 == 0 && w 6 == 0 && w 7 == 0
    | _ => false)

/-- A Modbus FUNCTION that Table 4 permits for the KIND and the record's TYPE. -/
def modbusOk (e : MapEntry) (ty : VType) : Bool :=
  match e.kind with
  | .mbRead =>
    e.node != 0 && (if e.fn = 1 || e.fn = 2 then ty == .bool && e.width == 1 else (e.fn == 3 || e.fn == 4) && ty != .bool)
  | .mbWrite => if e.fn = 5 then ty == .bool else if e.fn = 6 then decide (e.width ≤ 16) else e.fn == 0x10
  | _ => true

/-- Bits of a frame that a CAN entry's field takes, by octet × 8 + bit of the octet (R359). -/
def fieldBits (e : MapEntry) : List Nat :=
  (List.range e.width).map (fun k => let p := e.pos + k; if e.msbFirst then p / 8 * 8 + (7 - p % 8) else p)

/-- The rules of a CAN entry beyond its fields. -/
def canEntryBad (v : State) (e : MapEntry) : Bool :=
  decide ((if e.fdf then 512 else 64) < e.pos + e.width)
    || (e.fdf && !getB v (Fld.CANn_CFG_FD_EN e.channel)) || (e.brs && !e.fdf)
    || (e.node != 0 && !v.scf.defs.maps.any (fun km => km.2.kind == .node && km.2.channel == e.channel && km.2.node == e.node))
    || (e.kind == .canIn && (!getB v (Fld.CANn_FID_EN e.channel e.filter) || (e.filter == 63 && getB v (Fld.CANn_RC_CFG_EN e.channel))))

/-- Entries of the same frame as `e`, of a lower number. -/
def frameBefore (v : State) (n : Nat) (e : MapEntry) : List MapEntry :=
  (v.scf.defs.maps.filter (fun km => km.1 < n && km.2.kind == .canOut && km.2.channel == e.channel && km.2.key == e.key)).map (fun km => km.2)

/-- Keys of a channel's output frames among the entries up to a number. -/
def framesUpTo (v : State) (n ch : Nat) : Nat :=
  (dedup ((v.scf.defs.maps.filter (fun km => km.1 ≤ n && km.2.kind == .canOut && km.2.channel == ch)).map (fun km => km.2.key))).length

/-- A map entry conflicts with one of a lower number (R360). -/
def mapClash (v : State) (n : Nat) (e : MapEntry) : Bool :=
  let before := (v.scf.defs.maps.filter (fun km => km.1 < n && km.2.channel == e.channel)).map (fun km => km.2)
  match e.kind with
  | .node =>
    let ns := before.filter (fun x => x.kind == .node)
    decide (127 ≤ ns.length) || ns.any (fun x => x.node == e.node || x.uid == e.uid)
  | .canOut =>
    decide (256 < framesUpTo v n e.channel)
      || (frameBefore v n e).any (fun x => x.dlc != e.dlc || x.period != e.period || (fieldBits x).any (fieldBits e).contains)
  | .gpioIn => before.any (fun x => x.pin == e.pin)
  | .gpioOut => before.any (fun x => x.pin == e.pin)
  | _ => false

/-- A map entry breaks a check of R360. -/
def mapBad (v : State) (g : Staging) (n : Nat) (e : MapEntry) : Bool :=
  let r := ptAt v e.index
  (match stagedWords? g 7 n with | some ws => !mapFieldsOk ws | none => false)
    || (if e.kind == .node then !(e.tenant == 0 || e.tenant == 4095)
        else
          !r.defined || r.proxy || r.ty == .ticks || (e.kind.isInput && (meteredOf v v).contains e.index)
            || !holdsRight v e.tenant e.index (if e.kind.isInput then rightWrite else rightRead)
            || ((e.kind != .gpioIn && e.kind != .gpioOut)
                && ((r.ty == .fix16 && e.width != 16) || (e.float && !(e.width == 32 && r.ty == .real32))))
            || !modbusOk e r.ty
            || ((e.kind == .canIn || e.kind == .canOut) && canEntryBad v e))
    || mapClash v n e

/-! ## 0x0E: endpoint definitions (10 R312) -/

/-- Fields of a DEFEXP descriptor within range, unnamed bits zero (R310). -/
def expFieldsOk (ws : List Nat) : Bool :=
  let w (k : Nat) : Nat := ws.getD k 0
  let d := parseExp ws
  let addrUsed := d.usras && (d.dir == 1 || d.deliver)
  let ty := bitsOf (w 2) 22 10
  within (w 0) 0x1FFFFFF && decide (1 ≤ d.number) && decide (d.dir ≤ 2) && (!d.deliver || (d.usras && d.dir != 1))
    && within (w 1) 0xFFFF && (addrUsed || d.addr == 0)
    && (if d.usras then
          within (w 2) 0xFFFF0FFF && (if d.dir = 1 then within (w 3) 0xFFFF && decide (1 ≤ d.maxAge) && decide (d.maxAge ≤ 3600) else w 3 == 0)
        else within (w 3) (if ty ≤ 2 then 0xFFFF else if ty = 19 then 0xFF0000 else 0) && (ty != 19 || decide (2 ≤ d.states)))

/-- Record TYPE and directions of a BACnet object type (R314 Table 2). -/
def bacnetType (t : Nat) : Option (VType × List Nat) :=
  match t with
  | 0 => some (.real32, [0]) | 1 => some (.real32, [2]) | 2 => some (.real32, [0, 2])
  | 3 => some (.bool, [0]) | 4 => some (.bool, [2]) | 5 => some (.bool, [0, 2])
  | 19 => some (.uint32, [0, 2]) | _ => none

/-- Record TYPE of a Usras item, and whether the endpoint serves it (R323 Table 5). -/
def usrasItem (cls item : Nat) : Option (VType × Bool) :=
  match cls, item with
  | 0, 0 => some (.real32, false) | 0, 1 => some (.bool, false) | 0, 2 => some (.uint32, false) | 0, 3 => some (.uint32, false)
  | 0, 4 => some (.real32, true) | 0, 5 => some (.uint32, true)
  | 1, 0 => some (.bool, true) | 1, 1 => some (.real32, true) | 1, 2 => some (.real32, true) | 1, 3 => some (.real32, true) | 1, 4 => some (.real32, true)
  | 2, 0 => some (.uint32, true) | 2, 1 => some (.uint32, true)
  | 3, 0 => some (.bool, true) | 3, 1 => some (.bool, false) | 3, 2 => some (.bool, true) | 3, 3 => some (.bool, true) | 3, 4 => some (.uint32, true)
  | _, _ => none

/-- The object or resource a definition names within its context. -/
def expName (d : ExportDef) : List Nat := if d.usras then [d.ctx, 1, d.cls, d.item, d.inst] else [d.ctx, 0, d.object]

/-- An endpoint definition breaks a check of R312. -/
def expBad (v : State) (g : Staging) (n : Nat) (d : ExportDef) : Bool :=
  let r := ptAt v d.index
  let before := (v.scf.defs.exports.filter (fun kx => kx.1 < n)).map (fun kx => kx.2)
  (match stagedWords? g 8 n with | some ws => !expFieldsOk ws | none => false)
    || (ctxTenant? v d.ctx).isNone || !r.defined || r.proxy || (d.dir == 1 && !d.usras)
    || (if d.usras then (match usrasItem d.cls d.item with | some (t, ep) => t != r.ty || ep != (d.dir == 1) | none => true)
        else (match bacnetType (d.object / 2 ^ 22) with | some (t, ds) => t != r.ty || !ds.contains d.dir | none => true))
    || before.any (fun x => expName x == expName d || (x.dir != 1 && d.dir != 1 && x.index == d.index))
    || ((d.dir == 0 || d.dir == 2) && !ctxHolds v d.ctx d.index rightPublish)
    || ((d.dir == 1 || d.dir == 2) && (!ctxHolds v d.ctx d.index rightWrite || (meteredOf v v).contains d.index))

/-! ## 0x0E: channels, pads and other registers -/

/-- A CAN channel's setting breaks a rule of 11 R340. -/
def canSetBad (v : State) (n : Nat) : Bool :=
  let q1 := 3 + getF v (Fld.CANn_NBT_TSEG1_M1 n) + getF v (Fld.CANn_NBT_TSEG2_M1 n)
  let q2 := 3 + getF v (Fld.CANn_DBT_TSEG1_M1 n) + getF v (Fld.CANn_DBT_TSEG2_M1 n)
  let c1 := (1 + getF v (Fld.CANn_NBT_BRP_M1 n)) * q1
  let c2 := (1 + getF v (Fld.CANn_DBT_BRP_M1 n)) * q2
  let fd := getB v (Fld.CANn_CFG_FD_EN n)
  decide (c1 < 80) || (fd && (decide (c2 < 10) || decide (c1 < c2)))
    || decide (getF v (Fld.CANn_NBT_TSEG2_M1 n) < getF v (Fld.CANn_NBT_SJW_M1 n))
    || decide (getF v (Fld.CANn_DBT_TSEG2_M1 n) < getF v (Fld.CANn_DBT_SJW_M1 n))
    || decide (q1 < 8) || decide (q2 < 5) || (fd && decide (c2 < 80) && !getB v (Fld.CANn_CFG_TDC_EN n))

/-- Register fields that the scarf check rejects without a stated CODE or DETAIL, by their chapters' tables. -/
def fieldCauses (v : State) : List Cause :=
  let ports := (List.range 6).filter (fun m => getB v (Fld.NE_PTP_PORT_EN m))
  [openCause (decide (getF v Fld.TR_CFG2_ETYPE < 0x600)) 0x0E 0,
   openCause (!bitOf (getF v Fld.TR_GROUP_LO_ADDR_LO) 0) 0x0E 1,
   openCause (getF v Fld.NE_PTP_CFG_TYPE == 3 || (getF v Fld.NE_PTP_CFG_TYPE == 1 && ports.length != 1)) 0x0E 2,
   openCause ((List.range 6).any (fun m => getF v (Fld.NE_PTP_PORT_TRANSPORT m) == 3)) 0x0E 3,
   openCause ((List.range 8).any (fun u => getF v (Fld.UARTn_CFG_PARITY u) == 3)) 0x0E 4,
   openCause ((List.range 8).any (fun u => getF v (Fld.UARTn_GAP_T35_US u) != 0
     && decide (getF v (Fld.UARTn_GAP_T35_US u) ≤ getF v (Fld.UARTn_GAP_T15_US u)))) 0x0E 5]

/-- Maps, endpoint definitions, channels, pads, then the rest. -/
def checkMaps (v : State) (g : Staging) : Cause :=
  firstCause ([
    leastCause 0x0E (v.scf.defs.maps.filterMap (fun km => if mapBad v g km.1 km.2 then some km.1 else none)),
    leastCause 0x0E (v.scf.defs.exports.filterMap (fun kx => if expBad v g kx.1 kx.2 then some kx.1 else none)),
    leastCause 0x0E (((List.range 12).filter (canSetBad v)).map (0x10000 + ·)),
    leastCause 0x0E (((List.range 64).filter (fun k => getF v (Fld.GPIO_PAD_PULL k) == 3)).map (0x20000 + ·))] ++ fieldCauses v)

/-! ## 0x0F and 0x10: limits and remote imports -/

/-- Records whose definition words the change alters (R149), or that it stages. -/
def changedRecords (s v : State) (g : Staging) : Nat :=
  let words (r : PtRec) : List Nat := [b2n r.defined, r.ty.code, r.tenant, r.writerKind.code, r.writerId, r.refreshLimit, r.exportTag, r.exportNe,
    r.cov.toNat, r.remoteGpa, b2n r.proxy]
  (dedup (s.pt.recs.map (fun kr => kr.1) ++ v.pt.recs.map (fun kr => kr.1))).countP (fun i =>
    (staged? g 0 i).isSome || words (ptAt s i) != words (ptAt v i))

/-- A limit of R149. -/
def checkLimits (s v : State) (g : Staging) : Cause :=
  firstCause [
    if 8192 < changedRecords s v g then some (0x0F, 0) else none,
    if 4096 < g.writes.length then some (0x0F, 1) else none,
    if 64 < (itemsOf g 9).length then some (0x0F, 2) else none]

/-- The answer to a verifier query for a remote point. -/
def remoteAnswer (s : State) (e : SubEntry) : Option Nat := (s.tr.answers.find? (fun a => a.1 == e)).map (fun a => a.2)

/-- The query of an import by a task. -/
def remoteEntry (s : State) (d : TaskDef) (im : Nat × VType) : Option SubEntry :=
  if localGpa s im.1 then none else some { gpa := im.1, period := d.period, tenant := d.tenant, ty := im.2 }

/-- Remote imports of tasks, each once. -/
def remoteEntries (s : State) (ds : List TaskDef) : List SubEntry := dedup (ds.flatMap (fun d => d.imports.filterMap (remoteEntry s d)))

/-- Tasks that a change admits. -/
def admittedBy (g : Staging) : List TaskDef := (itemsOf g 9).filterMap (fun kx => kx.2.task)

/-- In an estate change, a remote import that the holding module's grant table refuses (reason 3 of TR_REFUSE). -/
def checkRemote (s : State) (g : Staging) (estate : Bool) : Cause :=
  if estate then
    ((remoteEntries s (admittedBy g)).find? (fun e => remoteAnswer s e == some 3)).map (fun e => (0x10, e.gpa))
  else none

/-! ## The check (R145) -/

/-- The first cause of Table 2, in its order, for the staging `g` over the state `s`. -/
def scarfCheck (s : State) (g : Staging) (estate : Bool) : Cause :=
  let v := viewOf s g
  firstCause [checkTypes s v g, checkWriters v, checkMetered s v g, checkGrants s v g, checkRights s v g, checkDeleted s v, checkForced s v, checkContexts v,
    checkSlots s g, checkAdmission v, checkCapacity s v g, checkLoops v g, checkCircuits s v g, checkMaps v g, checkLimits s v g, checkRemote s g estate]

/-- A task that the change leaves admitted in its slot loses COHERENT (04 R123). -/
def losesCoherence (s : State) (g : Staging) : Bool :=
  let v := viewOf s g
  let w := recomputeAll { v with tasks := v.scf.defs.tasks.map (fun kt => (kt.1, ({ dfn := kt.2.dfn } : Task))) }
  v.scf.defs.tasks.any (fun kt => (tabGet? s.tasks kt.1).isSome && getB s (Fld.LE_T_CFG_COHERENT (kt.1 / 8) (kt.1 % 8))
    && !getB w (Fld.LE_T_CFG_COHERENT (kt.1 / 8) (kt.1 % 8)))

/-! ## Step 7 of the verifier (03 R108) -/

/-- Octet in .task of an item of a task's import (7) or output (8) list. -/
def pointOff (p : Parsed) (d : TaskDef) (list k : Nat) : Nat :=
  match (descOrder p.task p.nTasks).find? (fun nd => nd.1 = d.taskNo) with
  | some nd => (p.task.getD (nd.2 / 4 + list) 0 + k * (if list = 7 then 8 else 16)) / 4
  | none => 0

/-- Judges an import of a task. -/
def importCheck (s v : State) (estate : Bool) (d : TaskDef) (im : Nat × VType) : Option (Nat × Nat) :=
  match remoteEntry s d im with
  | some e =>
    match remoteAnswer s e with
    | some 0 | none =>
      if v.scf.defs.tasks.any (fun kt => kt.2.dfn.imports.contains im) && !v.pt.recs.any (fun kr => kr.2.proxy && kr.2.remoteGpa == im.1) then some (0x27, im.1)
      else none
    | some why => if estate && why = 3 then none else some (0x23, im.1)
  | none =>
    let r := ptAt v (im.1 % 65536)
    if !r.defined then some (0x20, im.1)
    else if r.ty ≠ im.2 then some (0x21, im.1)
    else if !holdsRight v d.tenant (im.1 % 65536) rightRead then some (0x22, im.1)
    else none

/-- A claim of another claimant than this task. -/
def otherClaim (v : State) (g : Staging) (d : TaskDef) (c : Claim) : Bool :=
  !(c.kind == .task && (match staged? g 9 c.ident with
    | some { task := some x, .. } => x.tenant == d.tenant && x.imageId == d.imageId && x.version == d.version && x.taskNo == d.taskNo
    | _ => false)) && (ptAt v c.index).defined

/-- Judges an output point of a task. -/
def outCheck (v : State) (g : Staging) (cs : List Claim) (tasks : List TaskDef) (d : TaskDef) (o : TaskOut) : Option (Nat × Nat) :=
  let r := ptAt v o.index
  if !r.defined then some (0x28, o.index)
  else if r.ty ≠ o.ty then some (0x29, o.index)
  else if !holdsRight v d.tenant o.index rightWrite || r.proxy || cs.any (fun c => c.kind == .meter && c.index = o.index) then some (0x24, o.index)
  else if cs.any (fun c => c.index = o.index && otherClaim v g d c)
    || 2 ≤ (tasks.flatMap (fun x => x.outs.map (fun y => y.index))).count o.index then some (0x25, o.index)
  else none

/-- The first item of a list that is rejected, with its place. -/
def firstAt {α : Type} (f : α → Option (Nat × Nat)) : Nat → List α → Option (Nat × (Nat × Nat))
  | _, [] => none
  | k, a :: t => match f a with | some c => some (k, c) | none => firstAt f (k + 1) t

/-- Step 7 over the tasks of an image, in TASK_NO order: imports, outputs, SIGN_SLOT. -/
def pointsCheck (s : State) (g : Staging) (estate : Bool) (p : Parsed) : Option Rej :=
  let v := viewOf s g
  let cs := claims v v.scf.defs
  let rej (d : TaskDef) (off : Nat) (c : Nat × Nat) : Rej := { code := c.1, sec := 1, task := d.taskNo, off := off, detail := c.2 }
  firstRej (p.tasks.map (fun d =>
    match firstAt (importCheck s v estate d) 0 d.imports with
    | some (k, c) => some (rej d (pointOff p d 7 k) c)
    | none =>
      match firstAt (outCheck v g cs p.tasks d) 0 d.outs with
      | some (k, c) => some (rej d (pointOff p d 8 k) c)
      | none =>
        if d.signEn && !keyUsable s d.signSlot .signEvent d.tenant then
          some (rej d (match (descOrder p.task p.nTasks).find? (fun nd => nd.1 = d.taskNo) with | some nd => nd.2 / 4 + 4 | none => 0) (0x26, d.signSlot))
        else none))

end Sys2Proof.Machine
end

