-- ==== Sys2Proof/Machine/Scarf.lean ====
section
/-! DEFINITION. Machine/Scarf.lean: submission, staging and the states of the scarf (05 R141 to R145, R153), estate changes (R154 to R159), and the Truss frames
that carry them. -/

namespace Sys2Proof.Machine


/-- The status of a reply that the spec does not state (log 4). -/
def openStatus (id : Nat) : Nat := Config.crypto 32 [id] % 4


/-! ## The queue (R142, R143) -/


/-- SCF_QUEUE.DEPTH. -/
def updQueue (s : State) : State := setF s Fld.SCF_QUEUE_DEPTH (min s.scf.queue.length 16)

/-- TENANT of an image. -/
def imageTenant (i : Image) : Nat := leWord i.bytes 8 % 4096

/-- A change joins the queue; false: refused with BUSY or by mode, and counted. -/
def submitChange (s : State) (c : Change) : State × Bool :=
  if 3 < modeOf s || 16 ≤ s.scf.queue.length || 2 ≤ (s.scf.queue.filter (fun x => x.tenant = c.tenant)).length then (incSatF s Fld.SCF_QUEUE_REFUSED, false)
  else (updQueue (mapScf s (fun f => { f with queue := f.queue ++ [c] })), true)

/-- A change carries 1 to 8 images on every module it is for (R141). -/
def countOk (images : List Image) (parts : List (Nat × List Image)) : Bool :=
  let ok (l : List Image) : Bool := decide (1 ≤ l.length) && decide (l.length ≤ 8)
  if parts.isEmpty then ok images else parts.all (fun p => ok p.2)

/-- CHANGE_SUBMIT (R141): a local change, or at the manager an estate change with its participants. -/
def submitRequest (s : State) (id tenant : Nat) (images : List Image) (tick : Option Nat) (parts : List (Nat × List Image)) (policy : Bool) : State :=
  if getF s Fld.LC_STATE_STATE = 4 || (!parts.isEmpty && !isManager s) then mgmtReply s id 2 []
  else if !countOk images parts then mgmtReply s id (openStatus id) []
  else
    let (n, s) := freshFree s
    let own := if parts.isEmpty then images else (parts.filter (fun p => p.1 = selfNumber s)).flatMap (fun p => p.2)
    let t := match (if parts.isEmpty then images else parts.flatMap (fun p => p.2)) with | i :: _ => imageTenant i | [] => tenant
    let c : Change := { id := n % 2 ^ 32, images := own, tenant := t, tick := tick, request := some (id, tenant), estate := !parts.isEmpty,
                        manager := selfNumber s, policy := policy, parts := parts }
    let r := submitChange s c
    if r.2 then r.1 else mgmtReply r.1 id 2 []

/-- A request over the management UART: performed for tenant 4095 while the debug path is open, else answered with status 1 (08 R271). -/
def mgmtUart (s : State) (id : Nat) (perform : State → Nat → State) : State :=
  let s := mapTr s (fun t => { t with askers := tabDel t.askers id })
  if getB s Fld.LC_STATE_DEBUG_OPEN then perform s 4095 else mgmtReply s id 1 []

/-- CHANGE_SUBMIT: in a frame, or over the management UART. -/
def execChangeSubmit (q : ChangeAsk) (target : Fin 512) (tenant : Fin 4096) (images : List Image) (tick : Option (Fin 281474976710656))
    (estate : List (Fin 512 × List Image)) (policy : Bool) (s : State) : Host.Outcome State Fault Refusal :=
  let perform (s : State) (t : Nat) : State :=
    submitRequest s q.id.toNat t images (tick.map (fun t => t.val)) (estate.map (fun p => (p.1.val, p.2))) policy
  match q.via with
  | some h => done (mgmtAt s h q.id.toNat target.val tenant.val ((MgmtOp.change images tick).args ++
      b2n policy :: estate.flatMap (fun p => p.1.val :: imageWords p.2)) perform)
  | none => done (mgmtUart s q.id.toNat perform)

/-! ## The end of a change (R144) -/


/-- The state returns to IDLE with an OUTCOME; the head of the queue leaves it. -/
def endChange (s : State) (outcome : Nat) : State :=
  let s := setFs s [(Fld.SCF_STATE_STATE, 0), (Fld.SCF_STATE_ESTATE, 0), (Fld.SCF_STATE_LOCKED, 0), (Fld.SCF_STATE_IMAGES, 0), (Fld.SCF_STATE_RECORDS, 0),
    (Fld.SCF_ESTATE_GO_HELD, 0), (Fld.SCF_RESULT_OUTCOME, outcome)]
  let s := mapScf s (fun f => { f with queue := f.queue.tail, staging := {}, jtasks := [], loses := false, view := none, readyAt := none })
  updQueue (mapMem (mapTr { s with pt := { s.pt with locked := [] } } (fun t => { t with asked := [], answers := [] })) (fun m => { m with restage := false }))

/-- A change waiting in the queue, not in hand, is dropped. -/
def dropWaiting (s : State) (change : Nat) : State :=
  let keep (l : List Change) : List Change := l.filter (fun c => !(c.estate && c.id = change))
  updQueue (mapScf s (fun f => { f with queue := if scfState s = 0 then keep f.queue else f.queue.take 1 ++ keep (f.queue.drop 1) }))

/-! ## Arming (R144, R161) -/

/-- A target that R144 accepts. -/
def targetOk (s : State) (t : Nat) : Bool := decide (s.tick + 2 ≤ t) && decide (t ≤ s.tick + 345600000)

/-- The change in hand is armed for a tick. -/
def armFor (s : State) (t : Nat) : State :=
  mapScf (setFs s [(Fld.SCF_STATE_STATE, 4), (Fld.SCF_ARMED_LO_ARMED_LO, t % 2 ^ 32), (Fld.SCF_ARMED_HI_ARMED_HI, t / 2 ^ 32)]) (fun f => { f with target := t })

/-- SCF_CMD's fields after a GO. -/
def scfFields (s : State) (op result : Nat) : State :=
  setFs s [(Fld.SCF_CMD_OP, op), (Fld.SCF_CMD_RESULT, result), (Fld.SCF_CMD_BUSY, 0), (Fld.SCF_CMD_GO, 0)]


/-- A command through SCF_CMD (Table 6): ABORT ends any change in STAGED, and a local one in ARMED before its tick (R144). -/
def scfCmd (s : State) (op : Nat) : State :=
  let estate := match inHand? s with | some c => c.estate | none => false
  match op with
  | 1 =>
    if s.scf.lastCommit = some s.el || (scfState s = 4 && !estate && s.scf.target ≤ s.tick) then scfFields s 1 2
    else if scfState s = 3 || (scfState s = 4 && !estate) then endChange (scfFields s 1 0) 3
    else scfFields s 1 1
  | 2 =>
    let t := getF s Fld.SCF_TICK_LO_TARGET_LO + 2 ^ 32 * getF s Fld.SCF_TICK_HI_TARGET_HI
    if scfState s ≠ 3 || estate then scfFields s 2 1
    else if targetOk s t then armFor (scfFields s 2 0) t
    else scfFields s 2 3
  | 3 => setFs (scfFields s 3 0) [(Fld.SCF_STAT_COMMITS, 0), (Fld.SCF_STAT_LATE, 0), (Fld.SCF_STAT_LOCK_REFUSALS, 0)]
  | _ => scfFields s op 1

/-- SCF_ABORT. -/
def execScfAbort (s : State) : Host.Outcome State Fault Refusal := done (scfCmd s 1)
/-- ARM_AT. -/
def execArmAt (s : State) : Host.Outcome State Fault Refusal := done (scfCmd s 2)
/-- SCF_CLEAR_STAT. -/
def execScfClearStat (s : State) : Host.Outcome State Fault Refusal := done (scfCmd s 3)

/-! ## A participant (R154 to R157) -/

/-- ARM: a participant in STAGED whose grid is steered arms, before the decision tick; true: it answers ACK. -/
def armPart (s : State) (change t : Nat) : State × Bool :=
  match inHand? s with
  | some c =>
    if c.estate && c.id = change && scfState s = 3 && getB s Fld.LE_GSTAT_STEERED && s.tick + 200 < t then (armFor s t, true) else (s, false)
  | none => (s, false)

/-- GO for the armed change. -/
def goPart (s : State) (change : Nat) : State :=
  match inHand? s with
  | some c => if c.estate && c.id = change && scfState s = 4 then setF s Fld.SCF_ESTATE_GO_HELD 1 else s
  | none => s

/-- CANCEL: the change is discarded with an OUTCOME; one that is IN_DOUBT waits for an OUTCOME frame. -/
def cancelPart (s : State) (change outcome : Nat) : State :=
  match inHand? s with
  | some c => if c.estate && c.id = change then (if scfState s = 5 then s else endChange s outcome) else dropWaiting s change
  | none => dropWaiting s change

/-- A GO or CANCEL at this participant; a Force on detector 0x06 withholds the next one (15 Table 1). -/
def decisionHeard (s : State) (f : State → State) : State := if forcedOnce s .scfInDoubt 0 then useForce s else f s

/-- A READY of this module to the manager of a change. -/
def sendReady (s : State) (manager change code : Nat) : State := trSend s 0x21 manager [change, code]

/-- A change of the estate that comes with an OUTCOME joins the queue, or takes the place of its offer that still waits there. -/
def queueLate (s : State) (change t : Nat) (images : List Image) (manager : Nat) : State :=
  let c : Change := { id := change, images := images, tenant := match images with | i :: _ => imageTenant i | [] => 4095,
                      estate := true, manager := manager, late := some t }
  if s.scf.queue.any (fun x => x.estate && x.id = change) then
    mapScf s (fun f => { f with queue := f.queue.map (fun x => if x.estate && x.id = change then { x with late := some t, manager := manager } else x) })
  else (submitChange s c).1

/-- OUTCOME (R157): a participant in doubt, or one that was excluded or lost its change, discards it or stages it again; one that holds it already, in
effect or armed for its tick, says so with READY (log 55). -/
def outcomePart (s : State) (change : Nat) (go : Bool) (t : Nat) (images : List Image) (manager : Nat) : State :=
  match inHand? s with
  | some c =>
    if !(c.estate && c.id = change) then
      if !go then dropWaiting s change
      else if s.scf.applied.contains change then sendReady s manager change 0
      else queueLate s change t images manager
    else if !go then endChange s 3
    else if scfState s = 4 && c.late.isSome then sendReady s manager change 0
    else
      let s := mapScf s (fun f => { f with queue := match f.queue with
        | c :: r => { c with images := if images.isEmpty then c.images else images, late := some t, manager := manager } :: r
        | [] => [] })
      if scfState s = 5 then mapMem s (fun m => { m with restage := true })
      else if scfState s = 3 || scfState s = 4 then sendReady (setF (armFor s t) Fld.SCF_ESTATE_GO_HELD 1) manager change 0
      else s
  | none =>
    if !go then dropWaiting s change
    else if s.scf.applied.contains change then sendReady s manager change 0
    else queueLate s change t images manager

/-! ## The coordinating manager (R154 to R158) -/

/-- Applies a change to the coordination in progress. -/
def mapCoord (s : State) (f : Coord → Coord) : State := mapScf s (fun x => { x with coord := x.coord.map f })

/-- The coordination ends; the change leaves the manager's queue unless its own part is in hand. -/
def endCoord (s : State) : State :=
  match s.scf.coord with
  | none => s
  | some c =>
    let s := setFs s [(Fld.SCF_ESTATE_PARTICIPANTS, 0), (Fld.SCF_ESTATE_ACKED, 0), (Fld.SCF_ESTATE_DEPART_POLICY, 0), (Fld.SCF_ESTATE_DECIDED, 0),
      (Fld.SCF_ESTATE_COORD, 0)]
    dropWaiting (mapScf s (fun f => { f with coord := none })) c.id

/-- Participants other than the manager whose decision is not known to have reached them. -/
def awaitAll (s : State) (c : Coord) (go late : Bool) : State :=
  let us := (c.parts.filter (fun p => p.module_ ≠ selfNumber s)).map (fun p =>
    { module_ := p.module_, change := c.id, go := go, images := if go then p.images else [],
      away := late || p.excluded || (dirAt s p.module_).state ≠ 1, tick := c.target.getD s.tick : Unresolved })
  mapScf s (fun f => { f with unresolved := f.unresolved ++ us })

/-- The management request of an estate change is answered with the verifier's records: at its arming, or as it is cancelled (03 R108). -/
def answerRequest (s : State) (go : Bool) : State :=
  match s.scf.coord with
  | some { request := some (id, _), recs := recs, .. } =>
    mapCoord (mgmtReply s id (if go then 0 else openStatus id) recs) (fun c => { c with request := none })
  | _ => s

/-- The decision is recorded with the standby: its SYNC is acknowledged, or there is no standby to record it with (R158, 08 R254). -/
def recorded (s : State) (c : Coord) : Bool :=
  match c.sync with | some q => !s.tr.syncWait.contains q || (standbyOf s).isNone | none => true

/-- The decision goes out once it is recorded (R154 step 5, R158): GO to the participants not excluded, CANCEL to all; a GO that is recorded only after T
finds every participant in doubt, and goes as OUTCOME frames (log 54). -/
def sendDecision (s : State) : State :=
  match s.scf.coord with
  | none => s
  | some c =>
    match c.decided with
    | none => s
    | some go =>
      if c.sent || !recorded s c then s
      else
        let late := go && (match c.target with | some t => decide (t ≤ s.tick) | none => false)
        let s := setF (mapCoord (awaitAll s c go late) (fun c => { c with sent := true })) Fld.SCF_ESTATE_DECIDED 1
        c.parts.foldl (fun s p =>
          if p.module_ = selfNumber s then
            if !go then cancelPart s c.id c.outcome else if late then outcomePart s c.id true (s.tick + 800) [] p.module_ else goPart s c.id
          else if late || (go && p.excluded) then s
          else trSend s (if go then 0x24 else 0x25) p.module_ [c.id]) s

/-- The manager decides: the decision is told to the standby, and sent when it is recorded. -/
def takeDecision (s : State) (go : Bool) (outcome : Nat) : State :=
  match s.scf.coord with
  | none => s
  | some c =>
    if c.decided.isSome then s
    else
      let q := if (standbyOf s).isSome then some (s.tr.syncSeq + 1) else none
      let s := syncOut s (decisionArgs c.id go (c.target.getD s.tick) (c.parts.map (fun p => (p.module_, if go then p.images else []))))
      sendDecision (mapCoord (if go then s else answerRequest s false) (fun c => { c with decided := some go, outcome := outcome, sync := q }))

/-- CANCEL to every participant; the manager's own part ends with an OUTCOME. -/
def cancelEstate (s : State) (outcome : Nat) : State := takeDecision s false outcome

/-- An ACK. -/
def ackEffect (s : State) (m change : Nat) : State :=
  match s.scf.coord with
  | none => s
  | some c =>
    if c.id ≠ change || c.target.isNone || c.decided.isSome || !c.parts.any (fun p => p.module_ = m && !p.acked && !p.excluded) then s
    else
      setF (mapCoord s (fun c => { c with parts := c.parts.map (fun p => if p.module_ = m then { p with acked := true } else p) })) Fld.SCF_ESTATE_ACKED
        (getF s Fld.SCF_ESTATE_ACKED + 1)

/-- A tick that the manager names: at least 800 and at most 345,600,000 ticks ahead; how far, no rule states (R144, R154, R157; log 4). -/
def nameTick (s : State) : Nat × State :=
  let (n, s) := freshFree s
  ((s.tick + 800 + n % 345599201) % tickMod, s)

/-- ARM to every participant that is not excluded, naming a tick at least 800 ticks ahead (step 3). -/
def sendArm (s : State) : State :=
  match s.scf.coord with
  | none => s
  | some c =>
    let (t, s) := nameTick s
    let s := mapCoord (answerRequest s true) (fun c => { c with target := some t })
    c.parts.foldl (fun s p =>
      if p.excluded then s
      else if p.module_ = selfNumber s then (let r := armPart s c.id t; if r.2 then ackEffect r.1 p.module_ c.id else r.1)
      else trSend s 0x22 p.module_ (c.id :: words64 t)) s

/-- With every READY in, the manager arms the change. -/
def armIfReady (s : State) : State :=
  match s.scf.coord with
  | none => s
  | some c => if c.target.isNone && c.decided.isNone && c.parts.all (fun p => p.excluded || p.ready == some 0) then sendArm s else s

/-- A READY: of the change in coordination, or the answer to an OUTCOME, which resolves the participant. -/
def readyEffect (s : State) (m change code : Nat) : State :=
  let s := mapScf s (fun f => { f with unresolved := f.unresolved.filter (fun u => !(u.module_ = m && u.change = change && u.told)) })
  match s.scf.coord with
  | none => s
  | some c =>
    if c.id ≠ change || c.target.isSome || c.decided.isSome || !c.parts.any (fun p => p.module_ = m) then s
    else if code ≠ 0 then cancelEstate s 3
    else armIfReady (mapCoord s (fun c => { c with parts := c.parts.map (fun p => if p.module_ = m then { p with ready := some code } else p) }))

/-- A participant's READY goes to its manager, or is the manager's own. -/
def tellReady (s : State) (c : Change) (code : Nat) : State :=
  if c.manager = selfNumber s && s.scf.coord.isSome then readyEffect s c.manager c.id code else trSend s 0x21 c.manager [c.id, code]

/-- The manager starts an estate change: OFFER to every participant (step 1). -/
def startEstate (s : State) (c : Change) : State :=
  let k : Coord := { id := c.id, policy := c.policy, parts := c.parts.map (fun p => { module_ := p.1, images := p.2 }), offered := s.mono, request := c.request }
  let s := setFs (mapScf s (fun f => { f with coord := some k })) [(Fld.SCF_ESTATE_COORD, 1), (Fld.SCF_ESTATE_PARTICIPANTS, c.parts.length),
    (Fld.SCF_ESTATE_ACKED, 0), (Fld.SCF_ESTATE_DECIDED, 0), (Fld.SCF_ESTATE_DEPART_POLICY, b2n c.policy)]
  let s := syncOut s (6 :: c.id :: c.parts.map (fun p => p.1))
  c.parts.foldl (fun s p => if p.1 = selfNumber s then s else trSend s 0x20 p.1 (c.id :: b2n c.policy :: imageWords p.2)) s

/-- The decision at tick T − 200 (step 5, R155). -/
def decideEstate (s : State) : State :=
  match s.scf.coord with
  | none => s
  | some c =>
    if c.target.isNone || c.decided.isSome then s
    else
      let missing := c.parts.filter (fun p => !p.excluded && !p.acked)
      if missing.isEmpty || (c.policy && !missing.any (fun p => p.module_ = selfNumber s)) then
        takeDecision (mapCoord s (fun c => { c with parts := c.parts.map (fun p => { p with excluded := p.excluded || !p.acked }) })) true 0
      else cancelEstate s 3

/-- READYs are missing: at the end of the 10 s, or for a module declared gone (R156). -/
def missReady (s : State) (gone : Option Nat) : State :=
  match s.scf.coord with
  | none => s
  | some c =>
    let missing (p : Participant) : Bool := !p.excluded && p.ready.isNone && (match gone with | some n => p.module_ = n | none => true)
    if c.target.isSome || c.decided.isSome || !c.parts.any missing then s
    else if !c.policy || c.parts.any (fun p => missing p && p.module_ = selfNumber s) then cancelEstate s 4
    else armIfReady (mapCoord s (fun c => { c with parts := c.parts.map (fun p => if missing p then { p with excluded := true } else p) }))

/-- A module is away, or has just come back: what it does not have is sent again when it can be. -/
def partAway (s : State) (n : Nat) : State :=
  mapScf s (fun f => { f with unresolved := f.unresolved.map (fun u => if u.module_ = n then { u with away := true, told := false } else u) })

/-- A module has been declared departed or left: its part of a decided change is resolved later, its missing READY counts at once. -/
def estateGone (s : State) (n : Nat) : State := missReady (partAway s n) (some n)

/-- OUTCOME to one participant, naming a new tick with GO (R157). -/
def sendOutcome (s : State) (u : Unresolved) : State :=
  if u.go then
    let (t, s) := nameTick s
    trSend s 0x26 u.module_ ([u.change, 1] ++ words64 t ++ imageWords u.images)
  else trSend s 0x26 u.module_ [u.change, 0, 0, 0]

/-- A HEARTBEAT from a participant that is not known to have a decision (R157, 08 R270): OUTCOME to one that was away, at the first that reports
STEERED = 1, to one in doubt, and with GO also to one that has had 10 ms since T to apply the change and has not said so; it answers READY (log 55).
Where CANCEL has been sent, one that is not in doubt needs none. -/
def resolveAt (s : State) (n : Nat) (steered : Bool) (scf : Nat) : State :=
  let due (u : Unresolved) : Bool :=
    u.module_ = n && !u.told && (if u.away then steered else scf = 5 || (u.go && decide (u.tick + 40 ≤ s.tick)))
  let settled (u : Unresolved) : Bool := u.module_ = n && !u.go && (due u || (!u.away && decide (u.tick + 40 ≤ s.tick)))
  let mine := s.scf.unresolved.filter due
  let s := mapScf s (fun f => { f with unresolved := (f.unresolved.filter (fun u => !settled u)).map (fun u => if due u then { u with told := true } else u) })
  mine.foldl sendOutcome s

/-- The manager's own part of a decided change that it has lost to a reset is staged again (R157). -/
def resolveSelf (s : State) : State :=
  let mine := s.scf.unresolved.filter (fun u => u.module_ = selfNumber s)
  if mine.isEmpty || !getB s Fld.LE_GSTAT_STEERED then s
  else
    let s := mapScf s (fun f => { f with unresolved := f.unresolved.filter (fun u => u.module_ ≠ selfNumber s) })
    mine.foldl (fun s u => let (t, s) := nameTick s; outcomePart s u.change u.go t u.images (selfNumber s)) s

/-- A standby that has become manager (R158): each recorded decision goes out as OUTCOME frames, and is repeated to who was away; an estate change with no
decision recorded is cancelled. -/
def sendDecisions (s : State) : State :=
  let me := selfNumber s
  let us (d : Decision) : List Unresolved := d.parts.map (fun p => { module_ := p.1.val, change := d.change.toNat, go := d.go, images := p.2, tick := d.tick, told := true })
  let cancelled (o : Nat × List Nat) : List Unresolved := o.2.map (fun m => { module_ := m, change := o.1, go := false, away := false, tick := s.tick })
  let dec := s.scf.decisions.flatMap us
  let off := s.scf.offers.flatMap cancelled
  let s := mapScf s (fun f => { f with decisions := [], offers := [],
                                       unresolved := f.unresolved ++ dec.filter (fun u => u.module_ ≠ me && u.go) ++ off.filter (fun u => u.module_ ≠ me) })
  let s := dec.foldl (fun s u => if u.module_ = me then outcomePart s u.change u.go (s.tick + 800) u.images me else sendOutcome s u) s
  off.foldl (fun s u => if u.module_ = me then outcomePart s u.change false 0 [] me else trSend s 0x25 u.module_ [u.change]) s

/-- Every grid tick: a decision that is recorded by now goes out, and the coordination ends at T, or with a CANCEL that has been sent. -/
def coordTick (s : State) : State :=
  let cancelSent := match s.scf.coord with | some c => c.sent && c.decided == some false | none => false
  let s := resolveSelf (sendDecision s)
  match s.scf.coord with
  | some c => if cancelSent || (c.sent && (match c.target with | some t => decide (t ≤ s.tick) | none => false)) then endCoord s else s
  | none => s

/-! ## Staging (R104, R108, R144, R145) -/

/-- How a staging attempt ends: queries to ask first, a rejection (image, CODE, DETAIL), or accepted; with the verifier's records so far. -/
inductive StageEnd where
  | asks (es : List SubEntry)
  | refused (source code detail : Nat)
  | passed
deriving DecidableEq, Repr

/-- Verifies one image and runs its joinery: queries without an answer, or a rejection. -/
def stageImage (s : State) (estate : Bool) (img : Image) : State × List SubEntry × Option Rej :=
  match openImage s img with
  | .error r => (s, [], some r)
  | .ok p =>
    match codesCheck p with
    | some r => (s, [], some r)
    | none =>
      let tasks := boundTasks p
      let asks := (remoteEntries s tasks).filter (fun e => (remoteAnswer s e).isNone)
      if !asks.isEmpty then (s, asks, none)
      else
        let (t, abort) := joinImage s p tasks
        (t, [], firstRej [pointsCheck t t.scf.staging estate p, boundsCheck p, tablesCheck p.consts p.table, abort])

/-- The images of a change in order: the state with all staged, the staging after each, the records, the end. -/
def stageImages (estate : Bool) : List Image → Nat → List Staging → List Nat → State → State × List Staging × List Nat × StageEnd
  | [], _, gs, recs, s => (s, gs, recs, .passed)
  | img :: t, k, gs, recs, s =>
    match stageImage s estate img with
    | (_, es@(_ :: _), _) => (s, gs, recs, .asks es)
    | (q, [], some r) => (q, gs, recs ++ rejRecord (some r) (leWord img.bytes 12), .refused k r.code r.detail)
    | (q, [], none) => stageImages estate t (k + 1) (gs ++ [q.scf.staging]) (recs ++ rejRecord none (leWord img.bytes 12)) q

/-- The first image after which the check finds a cause (SCF_RESULT.SOURCE). -/
def causeSource (s : State) (estate : Bool) (c : Nat × Nat) (gs : List Staging) : Nat :=
  (gs.findIdx? (fun g => scarfCheck s g estate == some c)).getD 0xFF

/-- Verification, joinery and the check of a whole change. -/
def stageAll (s : State) (c : Change) : State × List Nat × StageEnd :=
  let (q, gs, recs, e) := stageImages c.estate c.images 0 [] [] (mapScf (setF s Fld.SCF_STATE_STATE 1) (fun f => { f with staging := {} }))
  match e with
  | .passed =>
    match scarfCheck q q.scf.staging c.estate with
    | some x => (q, recs, .refused (causeSource q c.estate x gs) x.1 x.2)
    | none => (q, recs, .passed)
  | e => (q, recs, e)

/-- The record number of an image in NAND: its old one, else the lowest free, else none is left (R76). -/
def imageSlot (f : ScarfState) (t i : Nat) : Option Nat :=
  match f.stored.find? (fun kx => kx.2.1 = t && kx.2.2.1 = i) with
  | some kx => some kx.1
  | none => (List.range 4096).find? (fun k => (tabGet? f.stored k).isNone)

/-- An accepted image: the highest VERSION of its identifier, and the image itself in NAND, in place of an older one (R75, R76). -/
def acceptImage (s : State) (img : Image) : State :=
  let t := imageTenant img
  let i := leWord img.bytes 12
  let v := leWord img.bytes 16
  mapScf s (fun f =>
    let top := (f.versions.filter (fun x => x.1 = t && x.2.1 = i)).foldl (fun m x => max m x.2.2) v
    { f with versions := f.versions.filter (fun x => !(x.1 = t && x.2.1 = i)) ++ [(t, i, top)],
             stored := match imageSlot f t i with | some k => tabPut f.stored k (t, i, img.bytes, imageTag img.bytes) | none => f.stored })

/-- The verifier's records of the manager's own part of the estate change that it coordinates. -/
def keepRecs (s : State) (c : Change) (recs : List Nat) : State :=
  mapCoord s (fun k => if c.estate && k.id = c.id then { k with recs := recs } else k)

/-- A rejected change. -/
def refuseChange (s : State) (c : Change) (first : Bool) (source code detail : Nat) (recs : List Nat) : State :=
  let s := setFs s [(Fld.SCF_RESULT_CODE, code % 256), (Fld.SCF_RESULT_SOURCE, source), (Fld.SCF_DETAIL_DETAIL, detail % 2 ^ 32)]
  let s := keepRecs (endChange s 2) c recs
  let s := if c.late.isSome then raise s .scfLateReject 0 else s
  let s := if c.estate then tellReady s c code else s
  match c.request with
  | some (id, _) => if first && !c.estate then mgmtReply s id (openStatus id) recs else s
  | none => s

/-- A change that has passed every check enters STAGED (R144, R153), and goes on as it is local, of the estate, or late. -/
def passChange (s : State) (c : Change) (recs : List Nat) : State :=
  let g := s.scf.staging
  let v := viewOf s g
  let loses := losesCoherence s g
  let lock := deletedBy s v
  let s := keepRecs (c.images.foldl acceptImage s) c recs
  let s := setFs s [(Fld.SCF_STATE_STATE, 3), (Fld.SCF_STATE_LOCKED, b2n (!lock.isEmpty)), (Fld.SCF_STATE_RECORDS, changedRecords s v g), (Fld.SCF_RESULT_CODE, 0),
    (Fld.SCF_RESULT_SOURCE, 0xFF), (Fld.SCF_DETAIL_DETAIL, if loses then openDetail 0 c.id else 0)]
  let s := { s with pt := { s.pt with locked := lock } }
  let s := mapScf s (fun f => { f with loses := loses, readyAt := some s.mono, view := if c.estate then some (v.regs, v.pt.recs) else none })
  if c.estate then
    let s := match c.late with | some t => setF (armFor s t) Fld.SCF_ESTATE_GO_HELD 1 | none => s
    tellReady s c 0
  else
    let t := c.tick.getD (s.tick + 2)
    let reply (s : State) (status : Nat) : State := match c.request with | some (id, _) => mgmtReply s id status recs | none => s
    if targetOk s t then reply (armFor s t) 0 else reply s 2

/-- SCF_STATE for a change as its staging begins. -/
def beginStage (s : State) (c : Change) : State :=
  setFs s [(Fld.SCF_STATE_STATE, 1), (Fld.SCF_STATE_ESTATE, b2n c.estate), (Fld.SCF_STATE_IMAGES, min c.images.length 8), (Fld.SCF_CHANGE_ID_ID, c.id)]

/-- The head of the queue may be staged in this mode (R143): in Safe, if every image of the change, on every module, carries TENANT 4095. -/
def stageMode (s : State) (c : Change) : Bool :=
  decide (modeOf s ≤ 2) || (modeOf s = 3 && (c.images ++ c.parts.flatMap (fun p => p.2)).all (fun i => imageTenant i = 4095))

/-- Stages the change in hand from its first image, with the pegs of its signature checks (R28, 14 R448); `first`: for the first time. -/
def stageInHand (s : State) (c : Change) (first : Bool) : State :=
  withGrant s .crypto (fun s =>
  let st := scfState s
  match stageAll s c with
  | (_, _, .asks es) => es.foldl askImport s
  | (q, recs, .refused k code detail) => refuseChange q c first k code detail recs
  | (q, recs, .passed) =>
    if first then passChange q c recs
    else
      let q := mapMem (setF q Fld.SCF_STATE_STATE st) (fun m => { m with restage := false })
      if st = 5 && c.late.isSome then tellReady q c 0 else q)

/-- The head of the queue is taken in hand: an estate change of this manager is offered first. -/
def takeHead (s : State) (c : Change) : State :=
  if !stageMode s c then s
  else if c.parts.isEmpty then stageInHand (beginStage s c) c true
  else if s.scf.coord.isSome then s
  else
    let s := startEstate s c
    if c.parts.any (fun p => p.1 = selfNumber s) then stageInHand (beginStage s c) c true else s

/-- Verification, joinery and check of the change at the head of the queue. -/
def scarfStage (s : State) : State :=
  match s.scf.queue.head? with
  | none => s
  | some c =>
    if scfState s = 0 then takeHead s c
    else if !s.tr.asked.isEmpty then s
    else if scfState s = 1 then stageInHand s c true
    else if s.mem.restage then stageInHand s c false
    else s

/-- SCARF_STAGE. -/
def execScarfStage (s : State) : Host.Outcome State Fault Refusal := done (scarfStage s)

/-! ## CONFIG_NAND_WRITE (R160) -/

/-- A stored field is an ST field of the map. -/
def isStaged (k : Nat) : Bool :=
  match findReg (k / 256) with
  | some (r, _) => r.fields.any (fun d => d.lo = k / 8 % 32 && d.acc == .st)
  | none => false

/-- CONFIG_NAND_WRITE: definitions and ST fields are recorded. -/
def execConfigNandWrite (ok : Bool) (s : State) : Host.Outcome State Fault Refusal :=
  if !s.scf.nandDue then done s
  else done (withGrant s .nand (fun s =>
    if !ok then s
    else mapScf s (fun f => { f with nand := some { defs := f.defs, regs := s.regs.filter (fun kv => isStaged kv.1), applied := f.applied }, nandDue := false })))

/-! ## The Truss frames of an estate change (R154, R157; 08 R252, R254, R270) -/

/-- ESTATE_OFFER. -/
def execEstateOffer (h : TrussHdr) (change : Word) (policy : Bool) (images : List Image) (s : State) : Host.Outcome State Fault Refusal :=
  done (onTruss s h 0x20 (fun s =>
    if !countOk images [] then s
    else
      let t := match images with | i :: _ => imageTenant i | [] => 4095
      (submitChange s { id := change.toNat, images := images, tenant := t, estate := true, manager := h.src.val, policy := policy }).1))

/-- ESTATE_READY. -/
def execEstateReady (h : TrussHdr) (change : Word) (code : Fin 256) (s : State) : Host.Outcome State Fault Refusal :=
  done (onTruss s h 0x21 (fun s => readyEffect s h.src.val change.toNat code.val))

/-- ESTATE_ARM. -/
def execEstateArm (h : TrussHdr) (change : Word) (tick : Fin 281474976710656) (s : State) : Host.Outcome State Fault Refusal :=
  done (onTruss s h 0x22 (fun s =>
    let r := armPart s change.toNat tick.val
    if r.2 then trSend r.1 0x23 h.src.val [change.toNat] else r.1))

/-- ESTATE_ACK. -/
def execEstateAck (h : TrussHdr) (change : Word) (s : State) : Host.Outcome State Fault Refusal :=
  done (onTruss s h 0x23 (fun s => ackEffect s h.src.val change.toNat))

/-- ESTATE_DECISION. -/
def execEstateDecision (s : State) : Host.Outcome State Fault Refusal := done (decideEstate s)

/-- ESTATE_GO. -/
def execEstateGo (h : TrussHdr) (change : Word) (s : State) : Host.Outcome State Fault Refusal := done (onTruss s h 0x24 (fun s => decisionHeard s (fun s => goPart s change.toNat)))

/-- ESTATE_CANCEL. -/
def execEstateCancel (h : TrussHdr) (change : Word) (s : State) : Host.Outcome State Fault Refusal :=
  done (onTruss s h 0x25 (fun s => decisionHeard s (fun s => cancelPart s change.toNat 3)))

/-- ESTATE_OUTCOME. -/
def execEstateOutcome (h : TrussHdr) (change : Word) (go : Bool) (tick : Fin 281474976710656) (images : List Image) (s : State) :
    Host.Outcome State Fault Refusal :=
  done (onTruss s h 0x26 (fun s => outcomePart s change.toNat go tick.val images h.src.val))

/-- ESTATE_READY_TIMEOUT, after 10 s. -/
def execEstateReadyTimeout (s : State) : Host.Outcome State Fault Refusal :=
  match s.scf.coord with
  | some c => if c.offered + 40000 ≤ s.mono then done (missReady s none) else done s
  | none => done s

/-- ESTATE_ARM_TIMEOUT (R144): no ARM within 10 s of READY. -/
def execEstateArmTimeout (s : State) : Host.Outcome State Fault Refusal :=
  match inHand? s with
  | some c =>
    let late := match s.scf.readyAt with | some m => decide (m + 40000 ≤ s.mono) | none => true
    if c.estate && scfState s = 3 && late then done (endChange s 4) else done s
  | none => done s

/-- HELLO: a participant that has restarted is told again what it may have lost (R160). -/
def execHello (h : TrussHdr) (b : HelloBody) (role : Fin 4) (s : State) : Host.Outcome State Fault Refusal :=
  done (onTruss s h 0x01 (fun s =>
    let s := helloEffect s h b.pin.val role.val b.firmware.toNat b.bb0.toNat b.bb1.toNat
    match s.tr.bindings.find? (fun nb => nb.2 == h.serial.toNat) with
    | some nb => if isManager s then partAway s nb.1 else s
    | none => s))

/-- HEARTBEAT. -/
def execHeartbeat (h : TrussHdr) (mode : Fin 8) (severity : Fin 4) (steered : Bool) (scf : Fin 8) (demandControl demandManagement : Bool) (s : State) :
    Host.Outcome State Fault Refusal :=
  done (onTruss s h 0x03 (fun s =>
    let s := heartbeatEffect s h mode.val severity.val steered scf.val demandControl demandManagement
    if isManager s && (dirAt s h.src.val).state = 1 then resolveAt s h.src.val steered scf.val else s))

/-- DEPART. -/
def execDepart (h : TrussHdr) (module_ : Fin 512) (cause : Fin 3) (s : State) : Host.Outcome State Fault Refusal :=
  done (onTruss s h 0x05 (fun s =>
    let t := departEffect s module_.val cause.val
    if isManager s then estateGone t module_.val else t))

/-- No valid HEARTBEAT of a module on either lane for the departure time (08 R252). -/
def noHeartbeat (s : State) (n : Nat) : Bool := match (dirAt s n).lastHb with | some m => decide (m + departTicks s 1 ≤ s.mono) | none => true

/-- DEPART_TIMEOUT. -/
def execDepartTimeout (n : Fin 512) (s : State) : Host.Outcome State Fault Refusal :=
  if isManager s && (dirAt s n.val).state = 1 && noHeartbeat s n.val then done (estateGone (declareGone s n.val 2) n.val) else done s

/-- SYNC. -/
def execSync (h : TrussHdr) (b : SyncBody) (s : State) : Host.Outcome State Fault Refusal := done (onTruss s h 0x38 (fun s => syncEffect s h b))

/-- SYNC_ACK: a decision that is recorded now goes out (R158). -/
def execSyncAck (h : TrussHdr) (seq : Nat) (s : State) : Host.Outcome State Fault Refusal := done (onTruss s h 0x39 (fun s => sendDecision (syncAckEffect s seq)))

/-- STANDBY_TAKEOVER. -/
def execStandbyTakeover (handover : Bool) (s : State) : Host.Outcome State Fault Refusal := done (takeoverEffect s handover)

end Sys2Proof.Machine
end

