-- ==== Sys2Proof/Machine/Modes.lean ====
section
/-! DEFINITION. Machine/Modes.lean: operating modes: PW_MODE_CMD, the change at the grid tick, and the entry to Doze (14 R441 to R446), what a grant of pegs starts (R450), the loss and return of main power (R453 to R457). -/

namespace Sys2Proof.Machine

/-! ## Entering a mode (R442) -/

/-- PW_MODE takes a mode. -/
def putMode (s : State) (m : Nat) : State := incF (setF s Fld.PW_MODE_MODE m) Fld.PW_MODE_CHANGES

/-- A change between Commission, Run, Hold and Safe at a grid tick: tasks, loops, the network and an active injection follow. -/
def enterMode (s : State) (m : Nat) : State :=
  let prev := modeOf s
  let s := putMode (if m = 2 then setF s Fld.PW_MODE_PREV prev else s) m
  let s := if prev = 2 && m ≤ 1 then tasksLeaveHold s else s
  let s := match m with
    | 1 => tasksEnterRun s
    | 2 => tasksEnterHold s
    | 3 => netEnterSafe (tasksEnterSafe s)
    | _ => s
  let s := loopsMode s m
  if (prev = 0 || prev = 2) && !(m = 0 || m = 2) then injEnd s else s

/-- The mode change that falls due at a grid tick: a Safe cause first, then an accepted command. -/
def modeTick (s : State) : State :=
  let m := modeOf s
  let p := s.pw.pendMode
  let s := mapPw s (fun x => { x with pendMode := none })
  if m ≤ 2 && safeCause s then enterMode s 3
  else match p with
    | some t => if 3 < m || t = m || (m = 3 && safeCauseOther s) then s else enterMode s t
    | none => s

/-! ## Doze (R446) -/

/-- A wake source is armed. -/
def wakeArmed (s : State) : Bool :=
  !(armedMacs s).isEmpty || getB s Fld.RTC_WAKE_EN || (getB s Fld.RTC_CTRL_ALARM_ARM && getB s Fld.RTC_CTRL_ALARM_WAKE)

/-- The change queue is emptied, each entry refused (05 R143). -/
def emptyQueue (s : State) : State :=
  let s := s.scf.queue.foldl (fun s c =>
    let s := incSatF s Fld.SCF_QUEUE_REFUSED
    match c.request with | some (id, _) => mgmtReply s id 2 [] | none => s) s
  updQueue (mapScf s (fun f => { f with queue := [] }))

/-- The links of the armed MACs are kept alive from PD2, the others are down (09 R300). -/
def armMacs (s : State) (armed up : List Nat) : State :=
  armed.foldl (fun s m =>
    let s := setF s (Fld.MACn_STATUS_WAKE_ARMED m) 1
    if up.contains m then setFs s [(Fld.MACn_LINK_UP m, 1), (Fld.MACn_STATUS_IDLE m, 0)] else s) s

/-- The engines and bench banks hold no tasks (04 R129). -/
def dropTasks (s : State) : State :=
  recomputeAll { s with tasks := [], regs := s.regs.filter (fun kv => !(0x211000 ≤ kv.1 / 256 && kv.1 / 256 < 0x212000)) }

/-- The end of the entry to Doze: with the checkpoints written and every task cycle closed, or after 50 ms, the domains are powered down. -/
def finishDoze (s : State) : State :=
  match s.pw.dozeDue with
  | none => s
  | some m =>
    if (s.me.nandDue || s.tasks.any (fun kt => kt.2.phase != .idle)) && s.mono < m + 200 then s
    else
      let armed := armedMacs s
      let up := armed.filter (fun m => getB s (Fld.MACn_LINK_UP m))
      let s := mapPw s (fun p => { p with dozeDue := none })
      armMacs (dropTasks ([13, 12, 11, 10, 9, 8, 7, 6, 5, 4, 3, 1].foldl powerDown s)) armed up

/-- The entry to Doze: no task is released any more, the queue is emptied, DEPART, the checkpoints and the mode record. -/
def enterDoze (s : State) : State :=
  let prev := modeOf s
  let rec_ := { modeRecord s with mode := prev }
  let s := setF (putMode s 4) Fld.PW_MODE_PREV prev
  let s := sendLeave (emptyQueue s)
  let s := askCkpt (sillCkpt s true) true
  finishDoze { s with me := { s.me with dozeFrom := some s.rtc.count, dozeTo := none },
                      pw := { s.pw with modeRec := some rec_, pendMode := none, dozeDue := some s.mono } }

/-! ## PW_MODE_CMD (Table 3, R443 to R446) -/

/-- PW_MODE_CMD's fields after a GO. -/
def modeFields (s : State) (target result : Nat) : State :=
  setFs s [(Fld.PW_MODE_CMD_TARGET, target), (Fld.PW_MODE_CMD_RESULT, result), (Fld.PW_MODE_CMD_BUSY, 0), (Fld.PW_MODE_CMD_GO, 0)]

/-- An accepted mode waits for the next grid tick. -/
def acceptMode (s : State) (target : Nat) : State := mapPw (modeFields s target 0) (fun p => { p with pendMode := some target })

/-- A command to Commission or Run. -/
def commandMode (s : State) (target : Nat) : State :=
  let m := modeOf s
  if m = 3 then
    if safeCauseOther s then modeFields s target 2 else setF (acceptMode s target) Fld.PW_MODE_SAFE_COMMAND 0
  else if m ≤ 2 && m ≠ target then acceptMode s target
  else modeFields s target 1

/-- A command through PW_MODE_CMD. -/
def modeCmd (s : State) (target : Nat) : State :=
  let m := modeOf s
  match target with
  | 0 => commandMode s 0
  | 1 => commandMode s 1
  | 2 =>
    if (m = 0 || m = 1) && (getF s Fld.LC_STATE_STATE ≠ 2 || getB s Fld.LC_STATE_DEBUG_OPEN) then acceptMode s 2 else modeFields s 2 1
  | 3 => if m ≤ 2 then setF (acceptMode s 3) Fld.PW_MODE_SAFE_COMMAND 1 else modeFields s 3 1
  | 4 =>
    if !(m = 0 || m = 1 || m = 3) || scfState s ≠ 0 then modeFields s 4 1
    else if !wakeArmed s then modeFields s 4 3
    else enterDoze (modeFields s 4 0)
  | _ => modeFields s target 1

/-- MODE_COMMISSION. -/
def execModeCommission (s : State) : Host.Outcome State Fault Refusal := done (modeCmd s 0)
/-- MODE_RUN. -/
def execModeRun (s : State) : Host.Outcome State Fault Refusal := done (modeCmd s 1)
/-- MODE_HOLD. -/
def execModeHold (s : State) : Host.Outcome State Fault Refusal := done (modeCmd s 2)
/-- MODE_SAFE. -/
def execModeSafe (s : State) : Host.Outcome State Fault Refusal := done (modeCmd s 3)
/-- MODE_DOZE. -/
def execModeDoze (s : State) : Host.Outcome State Fault Refusal := done (modeCmd s 4)

/-! ## PEG_GRANT (R450) -/

/-- What starts with a grant: a domain is powered and awaits its release, with the wipes of R397 and a new pass of the patrol scrubber (17 R535); further operations of its bring-up ask in turn. -/
def startOp (s : State) (o : GovOp) : State :=
  match o with
  | .domain d =>
    let s := mapPw (setDom (setDom (startTime s (tmRelease d.val)) Fld.PW_PD_ON d.val true) Fld.CLK_PEND_RELEASE_PENDING d.val true) (fun p => { p with domsHeld := setBit p.domsHeld d.val true })
    let wipe (m : Nat) : State := setF s Fld.MEM_STAT_WIPING (getF s Fld.MEM_STAT_WIPING ||| m)
    (match d.val with
    | 4 => startTime (wipe 0b1011) (tmPass false)
    | 5 => govRequest (startTime (wipe 0b100000) (tmPass true)) .dram
    | 6 | 7 | 8 => govRequest s (.wake d)
    | 9 => govRequest (setF (wipe 0b1000000) Fld.MT_STAT_STARTING 1) .frontEnd
    | 13 => startTime (wipe 0b100) tmWipe
    | _ => s)
  | .nand => if s.me.nandDue then finishDoze { nandCkpt s true with me := { (nandCkpt s true).me with nandDue := false } } else s
  | .serdes m => setFs (startTime s (tmTrain m.val)) [(Fld.MACn_LINK_TRAINING m.val, 1), (Fld.MACn_LINK_PEG_WAIT m.val, 0)]
  | _ => s

/-- PEG_GRANT: the first waiting request that fits. -/
def execPegGrant (s : State) : Host.Outcome State Fault Refusal :=
  match govNext? s with
  | some r => done (startOp (govTake s r) r.op)
  | none => done s

/-! ## Loss and return of main power (R453 to R457) -/

/-- The SILL rail is fed from the main-derived supply, or from VSILL. -/
def sillSwitch (s : State) (main : Bool) : State :=
  if getB s Fld.PW_SILL_ON_MAIN == main then setB s Fld.TMP_MON_ON_VSILL (!main)
  else incF (setFs s [(Fld.PW_SILL_ON_MAIN, b2n main), (Fld.TMP_MON_ON_VSILL, b2n !main)]) Fld.PW_SILL_SWITCHES

/-- Steps 3 and 4 of Table 6: DEPART, and PD10 off. ME's part of step 3 is done with the warning. -/
def failStep4 (s : State) : State :=
  mapPw (powerDown (sendLeave s) 10) (fun p => { p with failStep := 4 })

/-- Step 5: a Sill checkpoint. -/
def failStep5 (s : State) : State := mapPw (sillCkpt s true) (fun p => { p with failStep := 5 })

/-- Step 6: the NAND checkpoint, together with the mode record, where NAND is mounted and the pegs of the domains already off are granted (07 R230). -/
def failStep6 (s : State) : State :=
  let s := mapPw s (fun p => { p with failStep := 6 })
  let r := grantNow s .nandFail
  if r.2 && getB s Fld.MEM_STAT_NAND_READY then
    let s := pegReturn (setF (nandCkpt r.1 true) Fld.LG_STATUS_NAND_AT_FAIL 1) .nandFail
    mapPw s (fun p => { p with modeRec := p.modeDram })
  else pegReturn r.1 .nandFail

/-- Step 7: what is left is powered down, the Sill switch takes VSILL, and the module is in Vigil. -/
def failStep7 (s : State) : State :=
  let prev := modeOf s
  let s := dropTasks ([13, 9, 5, 4, 3, 2, 1].foldl powerDown (emptyQueue s))
  let s := vigilStart (sillSwitch s false)
  let s := incF (setFs s [(Fld.PW_MODE_MODE, 5), (Fld.PW_MODE_PREV, prev)]) Fld.PW_MODE_CHANGES
  let s := mapPw s (fun p => { p with failStep := 0, pendMode := none, dozeDue := none, phase := .run })
  if s.pw.vmainBack then assertReset (sillSwitch (mapPw s (fun p => { p with vmainBack := false })) true) 1 else s

/-- VMAIN is in range (R453). -/
def vmainIn (mv : Nat) : Bool := decide (8800 ≤ mv) && decide (mv ≤ 15600)

/-- VMAIN calls for a power-fail warning (R453). -/
def vmainBad (mv : Nat) : Bool := decide (mv < 8500) || decide (16000 < mv)

/-- POWER_FAIL_WARNING: steps 1 and 2 of Table 6, and what ME does within 20 µs: partial line cycles and open events are closed (07 R224, R230). -/
def execPowerFailWarning (mv : Fin 32768) (partials : List (Fin 4 × SetCycle)) (s : State) : Host.Outcome State Fault Refusal :=
  if modeOf s = 4 || modeOf s = 5 || s.pw.failStep ≠ 0 || !vmainBad mv.val then done s
  else
    let s := incSatF (setFs s [(Fld.PW_VMAIN_MV, mv.val), (Fld.PW_VMAIN_IN_RANGE, 0), (Fld.PW_VMAIN_WARN, 1)]) Fld.PW_VMAIN_WARNINGS
    let s := mapPw s (fun p => { p with failStep := 2, failAt := s.mono, vmainBack := false, vmain := none, modeDram := if modeOf s ≤ 3 then some (modeRecord s) else p.modeDram })
    let s := [6, 7, 8, 11, 12].foldl powerDown s
    if !domainOn s 9 then done s
    else
      let s := partials.foldl (fun s nd => if getB s Fld.MT_STAT_FULL_PATH then closePartial s nd.1.val nd.2 else s) s
      done ((List.range 4).foldl (fun s n => closeEvents s n 1) s)

/-- The sequence advances with the grid ticks since the warning: steps 3 and 4 by the first, step 5 by 1,000 µs, steps 6 and 7 by 4,000 µs. -/
def failTick (s : State) : State :=
  if s.pw.failStep = 0 then s
  else
    let n := s.mono - s.pw.failAt
    let s := if s.pw.failStep < 4 && 1 ≤ n then failStep4 s else s
    let s := if s.pw.failStep = 4 && 4 ≤ n then failStep5 s else s
    if s.pw.failStep = 5 && 16 ≤ n then failStep7 (failStep6 s) else s

/-- HOLD_UP_END: conversion stops; the writes of steps not completed are lost, and what was recorded before stands (R454). -/
def execHoldUpEnd (s : State) : Host.Outcome State Fault Refusal :=
  if s.pw.failStep = 0 then done s else done (failStep7 (powerDown s 10))

/-- VMAIN_RETURN: VMAIN has been in range for 2 ms. During a power-fail sequence it waits for the sequence's end (R454). -/
def execVmainReturn (mv : Fin 32768) (s : State) : Host.Outcome State Fault Refusal :=
  if !vmainIn mv.val then done s
  else
    let s := showVmain (mapPw s (fun p => { p with vmain := some mv.val }))
    if s.pw.failStep ≠ 0 then done (mapPw s (fun p => { p with vmainBack := true }))
    else if getB s Fld.PW_SILL_ON_MAIN then done s
    else done (assertReset (sillSwitch s true) 1)

/-- VMAIN_LOSS_IN_DOZE: every domain but PD0 loses its supply, and the module is in Vigil, on VSILL. -/
def execVmainLossInDoze (s : State) : Host.Outcome State Fault Refusal :=
  if modeOf s ≠ 4 then done s
  else
    let s := { s with me := { s.me with dozeTo := some s.rtc.count }, pw := { s.pw with vmain := none, dozeDue := none } }
    let s := vigilStart (sillSwitch ([13, 12, 11, 10, 9, 8, 7, 6, 5, 4, 3, 2, 1].foldl powerDown s) false)
    done (incF (setFs s [(Fld.PW_MODE_MODE, 5), (Fld.PW_DOZE_LAST_EXIT, 5), (Fld.PW_VMAIN_IN_RANGE, 0)]) Fld.PW_MODE_CHANGES)

end Sys2Proof.Machine
end

