-- ==== Sys2Proof/Machine/Registers.lean ====
section
/-! DEFINITION. Machine/Registers.lean: writes to system registers with the commands and actions they start (00 R4 to R9, R537), system access by tasks and
joinery (03 R106), and management requests (08 R271). -/

namespace Sys2Proof.Machine

/-! ## Commands issued through a GO bit (R8, R537) -/

/-- PT_FCMD.GO (02 Table 14): through port 14 for the tenant in PT_FTEN. -/
def ptGo (s : State) (w : Nat) : State :=
  let i := bitsOf w 0 16
  let t := getF s Fld.PT_FTEN_TENANT
  match bitsOf w 16 2 with
  | 1 => (forceCmd s false i (Word.ofNat (getF s Fld.PT_FVAL_VALUE)) t).1
  | 2 => (releaseCmd s false i t).1
  | op => fcmdFields s i op .denied

/-- FLT_CMD.GO (15 Table 7). -/
def fltGo (s : State) (op : Nat) : State :=
  match op with
  | 1 => fltClearFirst s
  | 2 => fltClearLost s
  | 7 => fltClearTotals s
  | _ => fltCmd s op false

/-- FLT_INJ_CTL.GO. -/
def injGo (s : State) (q : Requester) (op : Nat) : State :=
  match op with
  | 1 => injStart s q
  | 2 => injStop s
  | _ => setFs s [(Fld.FLT_INJ_CTL_OP, op), (Fld.FLT_INJ_CTL_RESULT, 1), (Fld.FLT_INJ_CTL_BUSY, 0), (Fld.FLT_INJ_CTL_GO, 0)]


/-- The command that a GO bit of the register with base `b` and indices `ix` issues, from the word `w` written. -/
def goCmd (s : State) (q : Requester) (b : Nat) (ix : List Nat) (w : Nat) : State :=
  let i := ix.getD 0 0
  let op := bitsOf w 0 3
  if b < 0x200000 then
    if b = Fld.PW_MODE_CMD_TARGET.addr then modeCmd s op
    else if b = Fld.RST_CMD_OP.addr then rstCmd s op (bitsOf w 8 6)
    else if b = Fld.CLK_CMD_OP.addr then clkCmd s op (bitsOf w 8 4)
    else if b = Fld.FLT_ACK_SEQ.addr then ackCmd s (bitsOf w 0 12)
    else if b = Fld.FLT_CMD_OP.addr then fltGo s op
    else if b = Fld.FLT_INJ_CTL_OP.addr then injGo s q op
    else if b = Fld.SCF_CMD_OP.addr then scfCmd s op
    else s
  else if b < 0x300000 then
    if b = Fld.PT_FCMD_INDEX.addr then ptGo s w
    else if b = (Fld.LE_T_CMD_OP 0 0).addr then taskCmd s (i * 8 + ix.getD 1 0) op
    else if b = Fld.LP_L_CMD_OP.addr then loopCmd s (getF s (Fld.LP_SEL_LOOP.bank q.num)) op
    else if b = Fld.MT_CAL_CMD_INPUT.addr then calGo s
    else if b = Fld.LG_CMD_CIRCUIT.addr then lgCmd s (bitsOf w 0 4) (bitsOf w 4 3)
    else s
  else if b = (Fld.MACn_CMD_OP 0).addr then macCmd s i op
  else if b = Fld.NE_PTP_CMD_OP.addr then ptpCmd s op
  else if b = Fld.TR_CMD_OP.addr then trCmd s op (getF s Fld.TR_DIR_SEL_MODULE)
  else if b = (Fld.CANn_CMD_OP 0).addr then canCmd s i op
  else if b = (Fld.UARTn_CMD_OP 0).addr then uartCmd s i op
  else if b = Fld.MEM_CMD_OP.addr then memCmd s op
  else if b = Fld.KS_CMD_OP.addr then keyIssue s q.num (bitsOf w 0 4) (bitsOf w 4 1)
  else if b = Fld.TMP_CMD_OP.addr then tmpCmd s op
  else if b = Fld.LC_CMD_OP.addr then lcCmd s op (bitsOf w 4 3)
  else s

/-! ## Effects of a write beside its stored fields -/

/-- WO bits, writes with an effect of their own, and commands of a written word. -/
def actWord (s : State) (q : Requester) (b : Nat) (ix : List Nat) (w : Nat) : State :=
  let i := ix.getD 0 0
  let j := ix.getD 1 0
  let top := bitOf w 31
  if b = Fld.PT_LOST_COUNT.addr then (if top then ptLostClear s else s)
  else if b = Fld.PT_DENY_COUNT.addr then (if top then ptDenyClear s else s)
  else if b = (Fld.LE_T_MAXCOST_MAX 0 0).addr then (if top then setF s (Fld.LE_T_MAXCOST_MAX i j) 0 else s)
  else if b = Fld.MT_OVR_COUNT.addr then (if top then mtOvrClear s else s)
  else if b = (Fld.LG_A_TOT_HI_TOTAL_HI 0 0).addr then wrapWrite s i j (bitsOf w 16 8)
  else if b = Fld.MT_EV_SEL_VSET.addr then evSel s (bitsOf w 0 2) (bitsOf w 8 8)
  else if b = Fld.TMP_LOG_SEL_ENTRY.addr then tmpLogSel s (bitsOf w 0 5)
  else if b = Fld.TMP_STAT_LATCHED.addr then tamperCause s (getF s Fld.TMP_STAT_LATCHED)
  else if b = Fld.RTC_CTRL_LOAD.addr then (if bitOf w 0 then rtcCapture s else s)
  else if b = Fld.LP_L_MANUAL_VALUE.addr then manualWrite s (getF s (Fld.LP_SEL_LOOP.bank q.num)) (BitVec.ofNat 16 w).toInt
  else if top then goCmd s q b ix w
  else s

/-- A write by requester `q` of word `w` to the register at `a` outside a commit; an address in no register raises a Note fault (R4). -/
def writeReg (s : State) (q : Requester) (a w : Nat) : State :=
  match findReg a with
  | none => raise s .regNone
  | some (r, ix) => actWord (clearWord (directWord s q r ix a w) q r ix a w) q r.base ix w

/-- The requester reaches the registers: the debug port only while the debug path is open (R4, 13 R433). -/
def reaches (s : State) (q : Requester) : Bool := q != .debug || getB s Fld.LC_STATE_DEBUG_OPEN

/-- REGISTER_WRITE. -/
def execRegisterWrite (q : Requester) (addr : Nat) (w : Word) (s : State) : Host.Outcome State Fault Refusal :=
  if reaches s q then done (writeReg s q addr w.toNat) else done s

/-- UNMAPPED_ACCESS. -/
def execUnmappedAccess (q : Requester) (addr : Nat) (write : Bool) (s : State) : Host.Outcome State Fault Refusal :=
  if !reaches s q || (findReg addr).isSome then done s
  else if write then done (writeReg s q addr 0)
  else done (readReg s q addr)

/-- LE_GRID_LO_READ. -/
def execLeGridLoRead (q : Requester) (s : State) : Host.Outcome State Fault Refusal := done (readReg s q Fld.LE_GRID_LO_TICK_LO.addr)
/-- LE_GRID_HI_READ. -/
def execLeGridHiRead (q : Requester) (s : State) : Host.Outcome State Fault Refusal := done (readReg s q Fld.LE_GRID_HI_TICK_HI.addr)

/-! ## SYSRD, SYSWR, SYSRDX, SYSWRX (03 R106) -/

/-- System access by joinery as a command, while the scarf is in STAGING; an abort ends the run (log 2). -/
def joinSys (s : State) (r : State × Option (Nat × Nat)) : State :=
  if scfState s ≠ 1 || s.jrun.ended then s
  else match r with
    | (t, none) => t
    | (_, some _) => { s with jrun := { s.jrun with ended := true } }

/-- System access by a task of tenant 4095 whose engine executes it; in any other state nothing changes (log 2). -/
def taskSys (s : State) (e sl : Fin 8) (f : Run → State) : State :=
  match taskAt? s e sl with
  | some t => if t.phase = .running && !gathersFirst s e && t.run.tenant = 4095 then f t.run else s
  | none => s

/-- A task reads a register: 60 cycles. -/
def taskRead (s : State) (e sl : Fin 8) (a : Nat) (addr : Run → Nat) (qs : Run → List Quality) (words : Nat) : State :=
  taskSys s e sl (fun r =>
    let t := readReg s (.le e) (addr r)
    onTask t e sl (fun x => x.put a { w := replyWord t } (qs r) words 60))

/-- A task writes a register: 60 cycles; the write takes effect by the field's access code. -/
def taskWrite (s : State) (e sl : Fin 8) (addr w : Run → Nat) (words : Nat) : State :=
  taskSys s e sl (fun r => onTask (writeReg s (.le e) (addr r) (w r)) e sl (fun x => x.fin 0 words 60))

/-- SYSRD. -/
def execOpSysrd (r : Runner) (a b : Fin 256) (s : State) : Host.Outcome State Fault Refusal :=
  match r with
  | .task e sl => done (taskRead s e sl a.val (fun x => (x.loc b.val).value.toNat) (fun x => [(x.loc b.val).q]) 1)
  | .joinery => done (joinSys s (joinRead s a.val (s.jrun.loc b.val).value.toNat 1 [(s.jrun.loc b.val).q]))

/-- SYSWR. -/
def execOpSyswr (r : Runner) (a b : Fin 256) (s : State) : Host.Outcome State Fault Refusal :=
  match r with
  | .task e sl => done (taskWrite s e sl (fun x => (x.loc a.val).value.toNat) (fun x => (x.loc b.val).value.toNat) 1)
  | .joinery => done (joinSys s (joinWrite s (s.jrun.loc a.val).value.toNat (s.jrun.loc b.val).value.toNat 1))

/-- SYSRDX. -/
def execOpSysrdx (r : Runner) (a : Fin 256) (addr : Word) (s : State) : Host.Outcome State Fault Refusal :=
  match r with
  | .task e sl => done (taskRead s e sl a.val (fun _ => addr.toNat) (fun _ => []) 2)
  | .joinery => done (joinSys s (joinRead s a.val addr.toNat 2 []))

/-- SYSWRX. -/
def execOpSyswrx (r : Runner) (a : Fin 256) (addr : Word) (s : State) : Host.Outcome State Fault Refusal :=
  match r with
  | .task e sl => done (taskWrite s e sl (fun _ => addr.toNat) (fun x => (x.loc a.val).value.toNat) 2)
  | .joinery => done (joinSys s (joinWrite s addr.toNat (s.jrun.loc a.val).value.toNat 2))

/-! ## Management requests (08 R271) -/


/-- Status of a force or release: refused by rights, or by state (05 R153). -/
def ForceResult.status : ForceResult → Nat
  | .ok => 0 | .denied => 1 | .undef => 2 | .locked => 2

/-- The words of a fault entry. -/
def entryWords (e : FltEntry) : List Nat := (List.range 4).map (entryWord e)

/-- The fault queue as a reply carries it: in the order in which its entries come to be presented (15 R481). -/
def faultWords (s : State) : List Nat :=
  let of (v : Severity) : List FltEntry := s.flt.queue.filter (fun e => e.sev == v)
  (of .critical ++ of .severe ++ of .degraded ++ of .note).flatMap entryWords

/-- In Scrapped, only reads of the FUSE, LC and TMP blocks are answered (13 R434). -/
def scrappedOk (op : MgmtOp) : Bool :=
  match op with
  | .regRead a => [0x60, 0x53, 0x52].contains (a / 65536)
  | _ => false

/-- A request performed on this module by requester `q` for a tenant, and its reply. -/
def mgmtPerform (s : State) (q : Requester) (id tenant : Nat) (op : MgmtOp) : State :=
  if getF s Fld.LC_STATE_STATE = 4 && !scrappedOk op then mgmtReply s id 2 []
  else match op with
    | .regRead a =>
      if tenant ≠ 4095 then mgmtReply s id 1 []
      else
        let s := readReg s q a
        mgmtReply s id 0 [(replyWord s).toNat]
    | .regWrite a w => if tenant ≠ 4095 then mgmtReply s id 1 [] else mgmtReply (writeReg s q a w.toNat) id 0 []
    | .change is t => submitRequest s id tenant is (t.map (fun t => t.val)) [] false
    | .force i v =>
      let r := forceCmd s false i.val v tenant
      mgmtReply r.1 id r.2.status [r.2.code, b2n (r.2 == .locked)]
    | .release i =>
      let r := releaseCmd s false i.val tenant
      mgmtReply r.1 id r.2.status [r.2.code, 0]
    | .taskCmd e sl op =>
      let r := taskCmdResult s (taskKey e sl) op.val
      mgmtReply (taskCmd s (taskKey e sl) op.val) id (if r = 0 then 0 else 2) [r]
    | .loopCmd n op =>
      let r := loopCmdResult s n.val op.val
      mgmtReply (loopCmd s n.val op.val) id (if r = 0 then 0 else 2) [r]
    | .faultRead => mgmtReply s id 0 (faultWords s)

/-- A request through Truss. -/
def mgmtTruss (s : State) (q : MgmtAsk) (target : Fin 512) (tenant : Fin 4096) (op : MgmtOp) : State :=
  mgmtAt s q.hdr q.id.toNat target.val tenant.val op.args (fun s t => mgmtPerform s .ne1 q.id.toNat t op)

/-- MGMT_REGISTER_READ. -/
def execMgmtRegisterRead (q : MgmtAsk) (target : Fin 512) (tenant : Fin 4096) (addr : Nat) (s : State) : Host.Outcome State Fault Refusal :=
  done (mgmtTruss s q target tenant (.regRead addr))
/-- MGMT_REGISTER_WRITE. -/
def execMgmtRegisterWrite (q : MgmtAsk) (target : Fin 512) (tenant : Fin 4096) (addr : Nat) (w : Word) (s : State) : Host.Outcome State Fault Refusal :=
  done (mgmtTruss s q target tenant (.regWrite addr w))
/-- MGMT_FORCE. -/
def execMgmtForce (q : MgmtAsk) (target : Fin 512) (tenant : Fin 4096) (index : Fin 65536) (value : Word) (s : State) : Host.Outcome State Fault Refusal :=
  done (mgmtTruss s q target tenant (.force index value))
/-- MGMT_RELEASE. -/
def execMgmtRelease (q : MgmtAsk) (target : Fin 512) (tenant : Fin 4096) (index : Fin 65536) (s : State) : Host.Outcome State Fault Refusal :=
  done (mgmtTruss s q target tenant (.release index))
/-- MGMT_TASK_COMMAND. -/
def execMgmtTaskCommand (q : MgmtAsk) (target : Fin 512) (tenant : Fin 4096) (e sl op : Fin 8) (s : State) : Host.Outcome State Fault Refusal :=
  done (mgmtTruss s q target tenant (.taskCmd e sl op))
/-- MGMT_LOOP_COMMAND. -/
def execMgmtLoopCommand (q : MgmtAsk) (target : Fin 512) (tenant : Fin 4096) (n : Fin 4096) (op : Fin 8) (s : State) : Host.Outcome State Fault Refusal :=
  done (mgmtTruss s q target tenant (.loopCmd n op))
/-- MGMT_FAULT_READ. -/
def execMgmtFaultRead (q : MgmtAsk) (target : Fin 512) (tenant : Fin 4096) (s : State) : Host.Outcome State Fault Refusal :=
  done (mgmtTruss s q target tenant .faultRead)
/-- MGMT_UART_REQUEST: carried out by SV for tenant 4095 while the debug path is open, else status 1. -/
def execMgmtUartRequest (id : Word) (op : MgmtOp) (s : State) : Host.Outcome State Fault Refusal :=
  done (mgmtUart s id.toNat (fun s t => mgmtPerform s .sv id.toNat t op))

end Sys2Proof.Machine
end

