-- ==== Sys2Proof/Machine/Commit.lean ====
section
/-! DEFINITION. Machine/Commit.lean: the scarf commit (05 R146 to R152), and the commit of the recorded configuration at the end of bring-up (05 R160,
14 R443, R469). -/

namespace Sys2Proof.Machine

/-! ## Inheritance of a replaced task (R150) -/

/-- Edge slots that a task's code uses, with the type of their source. -/
def edgeUses (d : TaskDef) : List (Nat × VType) :=
  (instrs 0 (d.code.map (fun w => w.toNat))).filterMap (fun i =>
    if i.op = 0x70 || i.op = 0x71 || i.op = 0x72 then some (i.imm.getD 0, d.types.getD i.b .bool) else none)

/-- The type of the source of edge slot `k`, if the task uses it. -/
def edgeType? (us : List (Nat × VType)) (k : Nat) : Option VType := (us.find? (fun u => u.1 == k)).map (fun u => u.2)

/-- Element `i` of each list, by `f`: the new one changed by the old one where both exist. -/
def inheritList {α β : Type} (new : List α) (old : List β) (f : Nat → α → β → α) : List α :=
  new.zipIdx.map (fun xi => match old[xi.2]? with | some o => f xi.2 xi.1 o | none => xi.1)

/-- The run of the replacing task with the items that it inherits. -/
def inheritRun (nd od : TaskDef) (new old : Run) : Run :=
  let nu := edgeUses nd
  let ou := edgeUses od
  { new with
    locals := inheritList new.locals old.locals (fun i n o => if nd.types[i]? = od.types[i]? then o else n)
    timers := inheritList new.timers old.timers (fun _ n o => { o with preset := n.preset })
    counters := inheritList new.counters old.counters (fun _ n o => { n with cv := o.cv })
    edges := inheritList new.edges old.edges (fun i n o =>
      match edgeType? nu i, edgeType? ou i with | some a, some b => if a = b then o else n | _, _ => n)
    outs := (nd.outs.zip new.outs).map (fun xo => match od.outs.findIdx? (fun y => y.index == xo.1.index) with
      | some j => old.outs.getD j xo.2 | none => xo.2)
    alarms := inheritList new.alarms old.alarms (fun _ n o => { n with state := o.state, ackLatch := o.ackLatch, held := o.held }) }

/-! ## Tasks (R126, R150, R151) -/

/-- Slots whose tasks the change removes or replaces. -/
def goneSlots (g : Staging) : List Nat := ((itemsOf g 9).filter (fun kx => kx.2.words.isNone)).map (fun kx => kx.1) ++ replacedSlots g

/-- Before the commit: a scatter in progress ends under the old claims, and the event queue is drained, SE's part done. -/
def retireTask (s : State) (k : Nat) : State :=
  let s := match taskOf? s k with | some t => if t.phase = .scatter then scatterTask s k t else s | none => s
  let s := mapTask s k (fun t => { t with run := { t.run with events := t.run.events.map (fun e =>
    if unsigned e then signWith s t.dfn.signSlot e else if undigested e then digestOf e else e) } })
  match taskOf? s k with | some t => drainQueue s k t | none => s

/-- What a task leaves to the one that replaces it: STATE, STOP_CAUSE, HOLD_MODE, RESUME, and the task. -/
structure Heir where
  key : Nat
  state : Nat
  cause : Nat
  holdMode : Nat
  resume : Nat
  task : Task
deriving DecidableEq, Repr

/-- The heir's share of the task at a slot. -/
def heirOf (s : State) (k : Nat) : Option Heir :=
  let e := keyE k
  let sl := keyS k
  (taskOf? s k).map (fun t =>
    { key := k, state := taskState s k, cause := getF s (Fld.LE_T_STATE_STOP_CAUSE e sl), holdMode := getF s (Fld.LE_T_STATE_HOLD_MODE e sl),
      resume := getF s (Fld.LE_T_STATE_RESUME e sl), task := t })

/-- A replacing task is admitted in the state of the task it replaces; a Stop or Hold that waited for the boundary of the abandoned cycle follows at once. -/
def replaceTask (s : State) (k : Nat) (d : TaskDef) (h : Heir) : State :=
  let e := keyE k
  let sl := keyS k
  let s := admitTask s k d true
  let s := mapTask s k (fun t => { t with run := inheritRun d h.task.dfn t.run h.task.run, scatterDue := h.task.scatterDue, resumeHold := h.task.resumeHold })
  let s := setFs (setTaskState s k h.state h.cause) [(Fld.LE_T_STATE_HOLD_MODE e sl, h.holdMode), (Fld.LE_T_STATE_RESUME e sl, h.resume)]
  match h.task.stopDue, h.task.holdDue with
  | some c, _ => requestStop s k c
  | none, some m => requestHold s k m
  | none, none => s

/-- Engine figures and gating for the set and clocks now in effect (R118, R121, R123, R124). -/
def updEngines (s : State) : State :=
  (List.range 8).foldl (fun s e =>
    let s := updActivity s e
    if getF s (Fld.LE_E_UTIL_CLOCK e) = 2 then (if engineRuns s (if e < 4 then 6 else 7) then gateIdle s e else s) else setF s (Fld.LE_E_UTIL_GATED e) 0)
    (recomputeAll s)

/-- The task tables of the logic engines are switched; the change's tasks are released at this tick if it conforms. -/
def commitTasks (s : State) (g : Staging) : State :=
  let gone := goneSlots g
  let heirs := gone.filterMap (heirOf s)
  let s := gone.foldl clearSlot s
  let s := (itemsOf g 9).foldl (fun s kx =>
    match kx.2.words, kx.2.task with
    | some ws, some d =>
      match (replaces? kx.2).bind (fun r => heirs.find? (fun h => h.key == r)) with
      | some h => replaceTask s kx.1 d h
      | none => admitTask s kx.1 d (bitOf (ws.headD 0) 16)
    | _, _ => s) s
  releaseKeys (updEngines s) ((itemsOf g 9).map (fun kx => kx.1))

/-! ## Loops, circuits, maps, exports -/

/-- The descriptor tables of LP0 and LP1 (R152). -/
def commitLoops (s : State) (g : Staging) : State :=
  let s := (itemsOf g 4).foldl (fun s kx => match kx.2.words with
    | some ws => commitLoop s (parseLoop ws kx.2.tenant)
    | none => { s with loops := tabDel s.loops kx.1 }) s
  (itemsOf g 5).foldl (fun s kx => match kx.2.words with
    | some ws =>
      let n := (parseGroup ws).2
      let o := tabGet {} s.groups kx.1
      { s with groups := tabPut s.groups kx.1 { n with output := o.output, winner := o.winner, none := o.none } }
    | none => { s with groups := tabDel s.groups kx.1 }) s

/-- The circuit table of ME (R148, R220); a change that touches a circuit writes a NAND checkpoint (07 R229). -/
def commitCircs (s : State) (g : Staging) : State :=
  let cs := itemsOf g 6
  let s := cs.foldl (fun s kx => commitCircuit s kx.1 (kx.2.words.map parseCirc)) s
  if cs.isEmpty then s else if getB s Fld.MEM_STAT_NAND_READY then askCkpt s true else nandCkpt s false

/-- The map entries: those not staged keep what FE keeps for them. -/
def commitMaps (s : State) (g : Staging) : State :=
  let ms := s.scf.defs.maps.map (fun kv => if (staged? g 7 kv.1).isSome then kv else (kv.1, (mapEnt? s kv.1).getD kv.2))
  { s with field := { s.field with maps := ms } }

/-- Contexts whose exports a change touches, with the tenant that staged the item (10 R316). -/
def touchedCtxs (s : State) (old : Tab ExportDef) (g : Staging) : List (Nat × Nat) :=
  dedup ((itemsOf g 8).flatMap (fun kx =>
    (([tabGet? old kx.1, tabGet? s.scf.defs.exports kx.1].filterMap id).filter (fun d => d.dir != 1)).map (fun d => (d.ctx, kx.2.tenant))))

/-- A definition takes effect: UNDELIV of an export without its designated receiver (R327); an import's wait for notifications begins (R326). -/
def takeExport (s : State) (d : ExportDef) : State := if d.dir ≠ 1 then checkReceiver s d else startTime s (tmEndpoint d.number)

/-- Network exports and endpoint imports: observers and observations of those that are gone end; Database_Revision and the image named in the
Device object follow (10 R316), and UNDELIV (R327). -/
def commitExports (s : State) (g : Staging) (images : List Image) : State :=
  let old := s.net.defs
  let new := s.scf.defs.exports
  let touched := touchedCtxs s old g
  let s := mapNet s (fun n => { n with
    defs := new, obs := n.obs.filter (fun o => match tabGet? new o.number with | some d => d.dir != 1 | none => false),
    imps := n.imps.filter (fun kv => (staged? g 8 kv.1).isNone) })
  let s := touched.foldl (fun s ct => mapNet s (fun n => { n with
    dbRev := tabPut n.dbRev ct.1 (tabGet 0 n.dbRev ct.1 + 1),
    lastImage := match (images.filter (fun i => imageTenant i == ct.2)).getLast? with
      | some i => tabPut n.lastImage ct.1 (leWord i.bytes 12, leWord i.bytes 16) | none => n.lastImage })) s
  updObs ((itemsOf g 8).foldl (fun s kx => match tabGet? new kx.1 with | some d => takeExport s d | none => s) s)

/-! ## Registers and what follows from them -/

/-- Fields of a voltage set change: its open events close with END_CAUSE 2, and the line cycle in progress goes on as before (07 R148, R224). -/
def changeSets (s v : State) : State :=
  [0, 1, 2, 3].foldl (fun s n =>
    if vsRegs s n = vsRegs v n then s
    else
      let s := closeEvents s n 2
      let st := vsState s n
      if (vsRegs s n).en && getB s Fld.MT_STAT_FULL_PATH && st.held.isNone then setVs s n { st with held := some (vsRegs s n) } else s) s

/-- PULSE outputs whose EN is 0 return to the inactive state (16 R505). -/
def stopPulses (s : State) : State :=
  (List.range 8).foldl (fun s k =>
    if !getB s (Fld.MT_PULSE_CFG_EN k) && (pulseAt s k).active then setPulse s k { active := false, ended := some s.mono } else s) s

/-- PULSE outputs whose source or enable the registers of `s0` did not give (07 R237). -/
def resourcePulses (s0 s : State) : State :=
  let src (x : State) (k : Nat) : List Nat := [getF x (Fld.MT_PULSE_CFG_EN k), getF x (Fld.MT_PULSE_CFG_CIRCUIT k), getF x (Fld.MT_PULSE_CFG_ACC k)]
  (List.range 8).foldl (fun s k => if src s0 k = src s k then s else pulseSourced s k) s

/-- TR_CFG.ROLE has changed; the other-traffic pools follow it (08 R265). -/
def changeRole (s0 s : State) : State :=
  if trRole s0 = trRole s then s else updBb (takeRole s)

/-- PTP settings have changed: the ports decide anew (10 R334). -/
def changePtp (s0 s : State) : State :=
  let cfg (x : State) : List Nat := [getF x Fld.NE_PTP_CFG_TYPE, getF x Fld.NE_PTP_CFG_DOMAIN, getF x Fld.NE_PTP_CFG_SLAVE_ONLY, getF x Fld.NE_PTP_PRIO_PRIORITY1,
      getF x Fld.NE_PTP_PRIO_PRIORITY2]
    ++ (List.range 6).map (fun m => getF x (Fld.NE_PTP_PORT_EN m))
  if cfg s0 = cfg s then s else decidePorts s none

/-- MODE or RATE of a MAC has changed: it trains anew (09 R275). -/
def changeMacs (s0 s : State) : State :=
  (List.range 6).foldl (fun s m =>
    if getF s0 (Fld.MACn_CFG_MODE m) = getF s (Fld.MACn_CFG_MODE m) && getF s0 (Fld.MACn_CFG_RATE m) = getF s (Fld.MACn_CFG_RATE m)
      || getB s (Fld.MACn_LINK_DISABLED m) then s
    else retrain s m) s

/-- A MAC for which Energy-Efficient Ethernet is off from the commit tick on is in Low Power Idle no longer (09 R302). -/
def endLpi (s : State) : State := (List.range 6).foldl (fun s m => if eeeOn s m then s else setF s (Fld.MACn_LINK_LPI m) 0) s

/-- What follows from register fields that a commit has switched: pools, pegs, roles, ports, links, pulse outputs. -/
def changeRegs (s0 s : State) : State :=
  endLpi <| changeMacs s0 (changePtp s0 (changeRole s0 (stopPulses (resourcePulses s0 (recharge (if validCtxs s0 = validCtxs s then s else recomputePool s))))))

/-! ## Subscriptions (08 R259) -/

/-- Subscriptions that the task set has gained, changed or lost since `before` are sent, or settled by the manager itself. -/
def changeSubs (before : List SubEntry) (s : State) : State :=
  let now := ownSubs s
  let add := now.filter (fun e => !before.contains e)
  let gone := (before.map (fun e => e.gpa)).filter (fun g => !now.any (fun e => e.gpa == g))
  let s := if isManager s then
      gone.foldl (fun s g => unsubEffect s (selfNumber s) g) (add.foldl (fun s e => subEntryEffect s (selfNumber s) false e) s)
    else if getB s Fld.TR_SELF_NUMBERED && getB s Fld.TR_SELF_MGR_PRESENT then
      let m := getF s Fld.TR_SELF_MANAGER
      let s := if add.isEmpty then s else trSend s 0x10 m (subArgs false add)
      if gone.isEmpty then s else trSend s 0x12 m gone
    else s
  updPubs s

/-! ## SCARF_COMMIT -/

/-- The records of the point table as the commit leaves them (R147); forces go with deleted records. -/
def switchRecs (s : State) (recs : Tab PtRec) : State :=
  { s with pt := { s.pt with recs := recs, forcers := s.pt.forcers.filter (fun kv => (tabGet? recs kv.1).isSome) } }

/-- The switch of records `old` to those in effect changes the effective value or quality of an exported record: its index is posted (02 R54). -/
def postRecs (old s : State) : State :=
  s.pt.recs.foldl (fun s kr =>
    let o := ptAt old kr.1
    if kr.2.exportTag ≠ 0 && (decide (ptValue o ≠ ptValue kr.2) || decide (ptQuality old o ≠ ptQuality old kr.2)) then postChange s kr.2.exportNe kr.1
    else s) s

/-- The records are switched, and the changes of exported ones posted. -/
def commitRecs (s : State) (recs : Tab PtRec) : State := postRecs s (switchRecs s recs)

/-- The definitions and the RW, ST and LV fields of a change, switched in one fabric cycle (R146). -/
def applyFields (s : State) (g : Staging) (images : List Image) : State :=
  let s := (goneSlots g).foldl retireTask s
  let subs := ownSubs s
  let s0 := changeSets s (viewOf s g)
  let s := g.words.foldl (fun s aw => commitWord s aw.1 aw.2) s0
  let v := viewOf s g
  let s := commitRecs (mapScf s (fun f => { f with defs := v.scf.defs })) v.pt.recs
  let s := changeRegs s0 s
  let s := commitTasks (commitLoops s g) g
  let s := recomputeLoops (commitCircs s g)
  let s := commitExports (commitMaps s g) g images
  let s := fieldCommit s ((itemsOf g 7).map (fun kx => kx.1))
  changeSubs subs s

/-- The clears and commands of the staged words, in program order, each as SV's write of its whole word (03 R104). -/
def applyWrites (s : State) (ws : List (Nat × Nat)) : State :=
  ws.foldl (fun s aw => match findReg aw.1 with
    | some (r, ix) => actWord (clearWord s .sv r ix aw.1 aw.2) .sv r.base ix aw.2
    | none => s) s

/-- Tasks that the staged writes have put in Run since `before` are released at this tick if it conforms (04 R110). -/
def releaseStarted (before s : State) : State :=
  releaseKeys s ((s.tasks.filter (fun kt => kt.2.phase == .idle && taskState s kt.1 == 1 && taskState before kt.1 != 1)).map (fun kt => kt.1))

/-- The change in hand is applied at the present tick. -/
def applyChange (s : State) (c : Change) : State :=
  let g := s.scf.staging
  let late := c.late.isSome
  let loses := s.scf.loses
  let t := applyFields s g c.images
  let s := releaseStarted t (applyWrites t g.writes)
  let s := setFs s [(Fld.SCF_LAST_LO_LAST_LO, s.tick % 2 ^ 32), (Fld.SCF_LAST_HI_LAST_HI, s.tick / 2 ^ 32), (Fld.SCF_RESULT_COHERENCE_LOST, b2n loses),
    (Fld.SCF_RESULT_UNSTEERED, b2n (c.estate && !getB s Fld.LE_GSTAT_STEERED)), (Fld.SCF_STAT_COMMITS, getF s Fld.SCF_STAT_COMMITS + 1)]
  let s := if late then incSatF s Fld.SCF_STAT_LATE else s
  mapScf (endChange s (if late then 5 else 1)) (fun f =>
    { f with nandDue := true, lastCommit := some s.el, applied := if c.estate then c.id :: f.applied.filter (· != c.id) else f.applied })


/-- An armed estate change has reached its target without GO or CANCEL (R157). -/
def inDoubt (s : State) : Bool :=
  match inHand? s with
  | some c => scfState s = 4 && decide (s.scf.target ≤ s.tick) && c.estate && !getB s Fld.SCF_ESTATE_GO_HELD
  | none => false

/-- The commit tick. -/
def scarfCommit (s : State) : State :=
  match commitDue s with
  | some c => applyChange s c
  | none => if inDoubt s then raise (setF s Fld.SCF_STATE_STATE 5) .scfInDoubt else s

/-- SCARF_COMMIT. -/
def execScarfCommit (s : State) : Host.Outcome State Fault Refusal := done (scarfCommit s)

/-! ## CONFIG_COMMIT -/

/-- Records of images that are not restored: those whose tag fails, and those that NAND has lost (12 R400, 13 R417). -/
def badImages (s : State) (bad : List Nat) : List Nat :=
  (s.scf.stored.filter (fun kv => bad.contains kv.1 || imageTag kv.2.2.2.1 ≠ kv.2.2.2.2 || s.mem.lostImages.contains kv.1 || forced s .imageLost kv.1)).map (fun kv => kv.1)

/-- The recorded definitions without the tasks of those images. -/
def usableDefs (s : State) (d : Defs) (bad : List Nat) : Defs :=
  { d with tasks := d.tasks.filter (fun kt => !bad.any (fun b => ((tabGet? s.scf.stored b).map (fun x => (x.1, x.2.1)) == some (kt.2.dfn.tenant, kt.2.dfn.imageId)))) }

/-- Recorded register fields take effect; any other staged field is at its reset value. -/
def restoreRegs (s : State) (rs : List (Nat × Nat)) : State :=
  { s with regs := rs.foldl (fun t kv => tabPut t kv.1 kv.2) (s.regs.filter (fun kv => !isStaged kv.1)) }

/-- The code of a state that a loop takes from a mode record (14 R443, 06 R190). -/
def loopFrom (mode : Nat) (d : LoopDef) (code : Nat) : Loop :=
  let l := freshLoop mode { d with start := 0 }
  let l := { l with dfn := d }
  match code with
  | 0 => l
  | 1 => toState mode .manual 0 l
  | 2 => enterAuto mode true l
  | 3 => toState mode .track 0 { l with bumpless := true }
  | _ => toState mode .safe 0 l

/-- The circuits of the recorded configuration: one that ME still holds unchanged goes on. -/
def restoreCircs (s : State) (cs : Tab CircDef) : State :=
  let s := (s.me.circs.filter (fun kc => (tabGet? cs kc.1).isNone)).foldl (fun s kc => commitCircuit s kc.1 none) s
  cs.foldl (fun s kc => restoreCircuit s kc.1 kc.2) s

/-- FE takes its maps; bound nodes, learned ones among them, and stations start absent, and every input is ABSENT until it is heard (11 R367). -/
def restoreField (s : State) (maps : Tab MapEntry) : State :=
  let s := { s with field := { s.field with maps := maps } }
  let s := s.pw.learned.foldl (fun s kn => mapCan s kn.1 (fun x => { x with nodes := kn.2 })) s
  let s := fieldCommit s (maps.map (fun kv => kv.1))
  let s := (List.range 12).foldl (fun s n => canInsAbsent (mapCan s n (fun x => { x with nodes := x.nodes.map (fun kv => (kv.1, { kv.2 with st := 1 })) })) n) s
  (List.range 8).foldl (fun s u =>
    let sts := ((s.field.maps.filter (fun kv => kv.2.channel == uartWriter u && kv.2.node != 0)).map (fun kv => kv.2.node)).eraseDups
    sts.foldl (fun s st => mapStation s u st (fun d => { d with absent := true })) (uartInsAbsent s u)) s

/-- Trend logs that DRAM still holds go on for the tasks admitted again (01 R19). -/
def keepTrends (old new : Tab (List (List TrendEntry))) (ts : Tab Admission) : Tab (List (List TrendEntry)) :=
  ts.foldl (fun t kt => match tabGet? old kt.1 with
    | some ls => if ls.length = kt.2.dfn.trends.length then tabPut t kt.1 ls else t
    | none => t) new

/-- The recorded definitions take effect in the mode entered, after the register fields, which were those of `s0` before; `r`: the mode record whose
task and loop states are taken. -/
def restoreConfig (s0 s : State) (c : ConfigRec) (r : Option ModeRec) : State :=
  let d := c.defs
  let logs := s.trends
  let s := mapScf s (fun f => { f with defs := d, applied := c.applied })
  let cs := claims s d
  let own : Tab PtRec := d.points.map (fun kp => (kp.1, viewRec s s cs kp.1 kp.2))
  let s := commitRecs s ((viewProxies s d).foldl (fun t kr => tabPut t kr.1 kr.2) own)
  let s := changeRegs s0 s
  let code (l : List (Nat × Nat)) (k : Nat) : Option Nat := (l.find? (fun x => x.1 == k)).map (fun x => x.2)
  let s := { s with groups := d.groups.map (fun kg => (kg.1, kg.2.1)),
                    loops := d.loops.map (fun kl => (kl.1, match r.bind (fun m => code m.loops kl.1) with
                      | some st => loopFrom (modeOf s) kl.2 st | none => freshLoop (modeOf s) kl.2)) }
  let s := d.tasks.foldl (fun s kt => admitTask s kt.1 kt.2.dfn (match r.bind (fun m => code m.tasks kt.1) with
    | some st => st != 2 | none => kt.2.start)) s
  let s := { s with trends := keepTrends logs s.trends d.tasks }
  let s := recomputeLoops (restoreCircs (updEngines s) d.circs)
  let s := updObs (mapNet s (fun n => { n with defs := d.exports }))
  let s := d.exports.foldl (fun s kx => takeExport s kx.2) s
  changeSubs [] (restoreField s d.maps)

/-- The mode entered, and the record whose task and loop states go with it (R443). -/
def bringUpMode (s : State) : Nat × Option ModeRec :=
  let from_ (r : Option ModeRec) : Option (Nat × Option ModeRec) := r.map (fun m => (if m.mode = 2 then 1 else m.mode, some m))
  let start : Nat × Option ModeRec := (getF s Fld.PW_CFG_START_MODE, none)
  if safeCause s then (3, none)
  else if getF s Fld.LC_STATE_STATE ≤ 1 || s.scf.nand.isNone then (0, none)
  else if s.pw.fromSleep then (from_ s.pw.modeRec).getD start
  else if s.pw.fromWarm then (from_ s.pw.modeDram).getD start
  else start

/-- The module enters its first mode: SV confirms the boot image (R468), and what ME held back is written. -/
def confirmBoot (s : State) : State :=
  let s := setFs (setStarts s s.pw.checkB 0) [(Fld.RST_BOOT_CONFIRMED, 1), (Fld.RST_BOOT_STARTS, 0)]
  mapPw (meReturn s) (fun p => { p with fromSleep := false, fromWarm := false, learned := [] })

/-- The commit of the recorded configuration; in Scrapped nothing is restored (13 R434). -/
def configCommit (s : State) (bad : List Nat) : State :=
  if !s.pw.configDue then s
  else
    let recorded := if getF s Fld.LC_STATE_STATE = 4 then none else s.scf.nand
    let c : ConfigRec := recorded.getD {}
    let lost := if getF s Fld.LC_STATE_STATE = 4 then [] else badImages s bad
    let c := { c with defs := usableDefs s c.defs lost }
    let s := lost.foldl (fun s k => raise s .imageLost k) s
    let s0 := s
    let s := if recorded.isSome then restoreRegs s c.regs else s
    let m := bringUpMode s
    let s := putMode (mapPw s (fun p => { p with configDue := false, pendMode := none })) m.1
    let s := restoreConfig s0 s c m.2
    let s := if m.1 = 3 && m.2.isNone then loopsMode (netEnterSafe (tasksEnterSafe s)) 3 else s
    confirmBoot (releaseAll s)

/-- CONFIG_COMMIT: the tag checks of stored images are bulk cryptography (R28, 14 R448). -/
def execConfigCommit (badTags : List (Fin 4096)) (s : State) : Host.Outcome State Fault Refusal :=
  if !s.pw.configDue then done s
  else if s.scf.stored.isEmpty then done (configCommit s (badTags.map (fun b => b.val)))
  else done (withGrant s .crypto (fun s => configCommit s (badTags.map (fun b => b.val))))

end Sys2Proof.Machine
end

