-- ==== Sys2Proof/Machine/Tick.lean ====
section
/-! DEFINITION. Machine/Tick.lean: the grid tick (04 R109 to R111), and the passing of time between commands. -/

namespace Sys2Proof.Machine

/-- Slots whose tasks a commit due at the present tick removes or replaces: the commit precedes their release (05 R146, R151). -/
def retiringSlots (s : State) : List Nat := match commitDue s with | some _ => goneSlots s.scf.staging | none => []

/-- TASK_RELEASE and TASK_OVERRUN of the present tick (R110, R131). -/
def releaseTasks (s : State) : State :=
  let skip := retiringSlots s
  releaseKeys s ((taskKeys s).filter (fun k => !skip.contains k))

/-- The rest of the present grid tick passes, as long as the steered rate makes it, and the tick number goes on by one; the next tick's first sub-tick
has not been served yet (R25, R109, 08 R256). -/
def advanceTick (s : State) : State :=
  let acc := (Int.emod (tickShift s) 100000000).toNat
  let t := passTime s (tickLen s - s.fc)
  { t with tick := (t.tick + 1) % tickMod, mono := t.mono + 1, fc := 0, sub := 0, subEl := t.subEl + (4 - t.sub), gridAcc := acc,
           pt := { t.pt with loopOuts := [] } }

/-- Truss at a grid tick; a standby that becomes manager sends the decisions it has recorded (05 R158). -/
def trussAtTick (s : State) : State :=
  let t := trussTick s
  coordTick (if isManager t && !isManager s then sendDecisions t else t)

/-- What falls due at a grid tick: a mode change, the steps of a power-fail sequence, force releases, task releases, ME's writes, Truss, the field buses. -/
def gridTick (s : State) : State := feTick (trussAtTick (meTick (releaseTasks (releaseTick (finishDoze (failTick (modeTick (advanceTick s))))))))

/-- GRID_TICK. -/
def execGridTick (s : State) : Host.Outcome State Fault Refusal := done (gridTick s)

/-- With no command waiting a fabric cycle of 4 ns passes, up to the last before the next grid tick (log 1). -/
def idleCycle (s : State) : State := if s.fc + 1 < tickLen s then passTime s 1 else s

end Sys2Proof.Machine
end

