-- ==== Sys2Proof/Machine/Dispatch.lean ====
section
/-! DEFINITION. Machine/Dispatch.lean: the meaning of every command, one direct call per constructor of Instr. -/

namespace Sys2Proof.Machine

/-- The effect of a command on everything but the queue. -/
def exec (i : Instr) (s : State) : Host.Outcome State Fault Refusal :=
  match i with
  | .registerWrite q addr w => Sys2Proof.Machine.execRegisterWrite q addr w s
  | .unmappedAccess q addr write => Sys2Proof.Machine.execUnmappedAccess q addr write s
  | .leGridLoRead q => Sys2Proof.Machine.execLeGridLoRead q s
  | .leGridHiRead q => Sys2Proof.Machine.execLeGridHiRead q s
  | .gridTick => Sys2Proof.Machine.execGridTick s
  | .taskGather e => Sys2Proof.Machine.execTaskGather e s
  | .taskDispatch e => Sys2Proof.Machine.execTaskDispatch e s
  | .taskScatter e sl => Sys2Proof.Machine.execTaskScatter e sl s
  | .stopScatter e sl => Sys2Proof.Machine.execStopScatter e sl s
  | .taskRunCmd e sl => Sys2Proof.Machine.execTaskRunCmd e sl s
  | .taskStopCmd e sl => Sys2Proof.Machine.execTaskStopCmd e sl s
  | .taskHoldCmd e sl => Sys2Proof.Machine.execTaskHoldCmd e sl s
  | .taskStepCmd e sl => Sys2Proof.Machine.execTaskStepCmd e sl s
  | .taskClearStats e sl => Sys2Proof.Machine.execTaskClearStats e sl s
  | .maxcostClear e sl => Sys2Proof.Machine.execMaxcostClear e sl s
  | .taskResume e => Sys2Proof.Machine.execTaskResume e s
  | .opNop r => Sys2Proof.Machine.execOpNop r s
  | .opMov r a b => Sys2Proof.Machine.execOpMov r a b s
  | .opLdi r a imm => Sys2Proof.Machine.execOpLdi r a imm s
  | .opLdk r a h => Sys2Proof.Machine.execOpLdk r a h s
  | .opItor r a b => Sys2Proof.Machine.execOpItor r a b s
  | .opUtor r a b => Sys2Proof.Machine.execOpUtor r a b s
  | .opRtoi r a b => Sys2Proof.Machine.execOpRtoi r a b s
  | .opRtou r a b => Sys2Proof.Machine.execOpRtou r a b s
  | .opFtor r a b => Sys2Proof.Machine.execOpFtor r a b s
  | .opRtof r a b => Sys2Proof.Machine.execOpRtof r a b s
  | .opItou r a b => Sys2Proof.Machine.execOpItou r a b s
  | .opUtoi r a b => Sys2Proof.Machine.execOpUtoi r a b s
  | .opBtoi r a b => Sys2Proof.Machine.execOpBtoi r a b s
  | .opItob r a b => Sys2Proof.Machine.execOpItob r a b s
  | .opTrel r a => Sys2Proof.Machine.execOpTrel r a s
  | .opFlags r a => Sys2Proof.Machine.execOpFlags r a s
  | .opAdd r a b c => Sys2Proof.Machine.execOpAdd r a b c s
  | .opSub r a b c => Sys2Proof.Machine.execOpSub r a b c s
  | .opMul r a b c => Sys2Proof.Machine.execOpMul r a b c s
  | .opDiv r a b c => Sys2Proof.Machine.execOpDiv r a b c s
  | .opMod r a b c => Sys2Proof.Machine.execOpMod r a b c s
  | .opNeg r a b => Sys2Proof.Machine.execOpNeg r a b s
  | .opAbs r a b => Sys2Proof.Machine.execOpAbs r a b s
  | .opMin r a b c => Sys2Proof.Machine.execOpMin r a b c s
  | .opMax r a b c => Sys2Proof.Machine.execOpMax r a b c s
  | .opLim r a b c => Sys2Proof.Machine.execOpLim r a b c s
  | .opAddw r a b c => Sys2Proof.Machine.execOpAddw r a b c s
  | .opSubw r a b c => Sys2Proof.Machine.execOpSubw r a b c s
  | .opAnd r a b c => Sys2Proof.Machine.execOpAnd r a b c s
  | .opOr r a b c => Sys2Proof.Machine.execOpOr r a b c s
  | .opXor r a b c => Sys2Proof.Machine.execOpXor r a b c s
  | .opNot r a b => Sys2Proof.Machine.execOpNot r a b s
  | .opShl r a b c => Sys2Proof.Machine.execOpShl r a b c s
  | .opShr r a b c => Sys2Proof.Machine.execOpShr r a b c s
  | .opSar r a b c => Sys2Proof.Machine.execOpSar r a b c s
  | .opRol r a b c => Sys2Proof.Machine.execOpRol r a b c s
  | .opBtst r a b c => Sys2Proof.Machine.execOpBtst r a b c s
  | .opBset r a b c => Sys2Proof.Machine.execOpBset r a b c s
  | .opBclr r a b c => Sys2Proof.Machine.execOpBclr r a b c s
  | .opShlv r a b c => Sys2Proof.Machine.execOpShlv r a b c s
  | .opShrv r a b c => Sys2Proof.Machine.execOpShrv r a b c s
  | .opPopc r a b => Sys2Proof.Machine.execOpPopc r a b s
  | .opClz r a b => Sys2Proof.Machine.execOpClz r a b s
  | .opRadd r a b c => Sys2Proof.Machine.execOpRadd r a b c s
  | .opRsub r a b c => Sys2Proof.Machine.execOpRsub r a b c s
  | .opRmul r a b c => Sys2Proof.Machine.execOpRmul r a b c s
  | .opRdiv r a b c => Sys2Proof.Machine.execOpRdiv r a b c s
  | .opRneg r a b => Sys2Proof.Machine.execOpRneg r a b s
  | .opRabs r a b => Sys2Proof.Machine.execOpRabs r a b s
  | .opRmin r a b c => Sys2Proof.Machine.execOpRmin r a b c s
  | .opRmax r a b c => Sys2Proof.Machine.execOpRmax r a b c s
  | .opRlim r a b c => Sys2Proof.Machine.execOpRlim r a b c s
  | .opRsqrt r a b => Sys2Proof.Machine.execOpRsqrt r a b s
  | .opRmac r a b c => Sys2Proof.Machine.execOpRmac r a b c s
  | .opRrnd r a b => Sys2Proof.Machine.execOpRrnd r a b s
  | .opRtrn r a b => Sys2Proof.Machine.execOpRtrn r a b s
  | .opFadd r a b c => Sys2Proof.Machine.execOpFadd r a b c s
  | .opFsub r a b c => Sys2Proof.Machine.execOpFsub r a b c s
  | .opFmul r a b c => Sys2Proof.Machine.execOpFmul r a b c s
  | .opFdiv r a b c => Sys2Proof.Machine.execOpFdiv r a b c s
  | .opFneg r a b => Sys2Proof.Machine.execOpFneg r a b s
  | .opFabs r a b => Sys2Proof.Machine.execOpFabs r a b s
  | .opFlim r a b c => Sys2Proof.Machine.execOpFlim r a b c s
  | .opFshr r a b c => Sys2Proof.Machine.execOpFshr r a b c s
  | .opEq r a b c => Sys2Proof.Machine.execOpEq r a b c s
  | .opNe r a b c => Sys2Proof.Machine.execOpNe r a b c s
  | .opLt r a b c => Sys2Proof.Machine.execOpLt r a b c s
  | .opLe r a b c => Sys2Proof.Machine.execOpLe r a b c s
  | .opGt r a b c => Sys2Proof.Machine.execOpGt r a b c s
  | .opGe r a b c => Sys2Proof.Machine.execOpGe r a b c s
  | .opTbef r a b c => Sys2Proof.Machine.execOpTbef r a b c s
  | .opJmp r h => Sys2Proof.Machine.execOpJmp r h s
  | .opJt r a h => Sys2Proof.Machine.execOpJt r a h s
  | .opJf r a h => Sys2Proof.Machine.execOpJf r a h s
  | .opLoop r a h => Sys2Proof.Machine.execOpLoop r a h s
  | .opEndl r => Sys2Proof.Machine.execOpEndl r s
  | .opSel r a b c => Sys2Proof.Machine.execOpSel r a b c s
  | .opEnd r => Sys2Proof.Machine.execOpEnd r s
  | .opLutl r a b t => Sys2Proof.Machine.execOpLutl r a b t s
  | .opLuts r a b t => Sys2Proof.Machine.execOpLuts r a b t s
  | .opHfind r a b t => Sys2Proof.Machine.execOpHfind r a b t s
  | .opHhas r a b t => Sys2Proof.Machine.execOpHhas r a b t s
  | .opTlen r a t => Sys2Proof.Machine.execOpTlen r a t s
  | .opTrd r a b t => Sys2Proof.Machine.execOpTrd r a b t s
  | .opGet e sl a ix => Sys2Proof.Machine.execOpGet e sl a ix s
  | .opGetq e sl a ix => Sys2Proof.Machine.execOpGetq e sl a ix s
  | .opGets e sl a ix => Sys2Proof.Machine.execOpGets e sl a ix s
  | .opGeto e sl a x => Sys2Proof.Machine.execOpGeto e sl a x s
  | .opPut e sl a x => Sys2Proof.Machine.execOpPut e sl a x s
  | .opPutg e sl a x => Sys2Proof.Machine.execOpPutg e sl a x s
  | .opPutf e sl x => Sys2Proof.Machine.execOpPutf e sl x s
  | .opEdgr e sl a b k => Sys2Proof.Machine.execOpEdgr e sl a b k s
  | .opEdgf e sl a b k => Sys2Proof.Machine.execOpEdgf e sl a b k s
  | .opEdgc e sl a b k => Sys2Proof.Machine.execOpEdgc e sl a b k s
  | .opEdgclr e sl k => Sys2Proof.Machine.execOpEdgclr e sl k s
  | .opTon e sl a b c => Sys2Proof.Machine.execOpTon e sl a b c s
  | .opTof e sl a b c => Sys2Proof.Machine.execOpTof e sl a b c s
  | .opTp e sl a b c => Sys2Proof.Machine.execOpTp e sl a b c s
  | .opTpre e sl b c => Sys2Proof.Machine.execOpTpre e sl b c s
  | .opTelp e sl a c => Sys2Proof.Machine.execOpTelp e sl a c s
  | .opTrst e sl c => Sys2Proof.Machine.execOpTrst e sl c s
  | .opCtu e sl a b c => Sys2Proof.Machine.execOpCtu e sl a b c s
  | .opCtd e sl a b c => Sys2Proof.Machine.execOpCtd e sl a b c s
  | .opCrst e sl c => Sys2Proof.Machine.execOpCrst e sl c s
  | .opCld e sl c => Sys2Proof.Machine.execOpCld e sl c s
  | .opCpre e sl b c => Sys2Proof.Machine.execOpCpre e sl b c s
  | .opCget e sl a c => Sys2Proof.Machine.execOpCget e sl a c s
  | .opAlm e sl b c => Sys2Proof.Machine.execOpAlm e sl b c s
  | .opAlmq e sl a c => Sys2Proof.Machine.execOpAlmq e sl a c s
  | .opEvt e sl b c => Sys2Proof.Machine.execOpEvt e sl b c s
  | .opTrnd e sl b c => Sys2Proof.Machine.execOpTrnd e sl b c s
  | .opEvsig e sl b c => Sys2Proof.Machine.execOpEvsig e sl b c s
  | .opEvdig e sl c => Sys2Proof.Machine.execOpEvdig e sl c s
  | .eventSign e sl => Sys2Proof.Machine.execEventSign e sl s
  | .eventDigest e sl => Sys2Proof.Machine.execEventDigest e sl s
  | .eventQueueDrain e sl => Sys2Proof.Machine.execEventQueueDrain e sl s
  | .opDefpt h => Sys2Proof.Machine.execOpDefpt h s
  | .opDefgr h => Sys2Proof.Machine.execOpDefgr h s
  | .opDefctx h => Sys2Proof.Machine.execOpDefctx h s
  | .opDefvid h => Sys2Proof.Machine.execOpDefvid h s
  | .opDefloop h => Sys2Proof.Machine.execOpDefloop h s
  | .opDefgrp h => Sys2Proof.Machine.execOpDefgrp h s
  | .opDefcirc h => Sys2Proof.Machine.execOpDefcirc h s
  | .opDefmap h => Sys2Proof.Machine.execOpDefmap h s
  | .opDefexp h => Sys2Proof.Machine.execOpDefexp h s
  | .opAdmit h => Sys2Proof.Machine.execOpAdmit h s
  | .opDeldef h => Sys2Proof.Machine.execOpDeldef h s
  | .opSysrd r a b => Sys2Proof.Machine.execOpSysrd r a b s
  | .opSyswr r a b => Sys2Proof.Machine.execOpSyswr r a b s
  | .opSysrdx r a addr => Sys2Proof.Machine.execOpSysrdx r a addr s
  | .opSyswrx r a addr => Sys2Proof.Machine.execOpSyswrx r a addr s
  | .ptRead port index ctx due => Sys2Proof.Machine.execPtRead port index ctx due s
  | .ptWrite bank ws => Sys2Proof.Machine.execPtWrite bank ws s
  | .ptWriteRepeat port => Sys2Proof.Machine.execPtWriteRepeat port s
  | .staleSweep index writing => Sys2Proof.Machine.execStaleSweep index writing s
  | .forceSet port15 index value tenant => Sys2Proof.Machine.execForceSet port15 index value tenant s
  | .forceRelease port15 index tenant => Sys2Proof.Machine.execForceRelease port15 index tenant s
  | .forceReleaseComplete index => Sys2Proof.Machine.execForceReleaseComplete index s
  | .ptLostClear => Sys2Proof.Machine.execPtLostClear s
  | .ptDenyClear => Sys2Proof.Machine.execPtDenyClear s
  | .changeSubmit q target tenant images tick estate policy => Sys2Proof.Machine.execChangeSubmit q target tenant images tick estate policy s
  | .scarfStage => Sys2Proof.Machine.execScarfStage s
  | .armAt => Sys2Proof.Machine.execArmAt s
  | .scfAbort => Sys2Proof.Machine.execScfAbort s
  | .scfClearStat => Sys2Proof.Machine.execScfClearStat s
  | .scarfCommit => Sys2Proof.Machine.execScarfCommit s
  | .configNandWrite ok => Sys2Proof.Machine.execConfigNandWrite ok s
  | .estateOffer h change policy images => Sys2Proof.Machine.execEstateOffer h change policy images s
  | .estateReady h change code => Sys2Proof.Machine.execEstateReady h change code s
  | .estateArm h change tick => Sys2Proof.Machine.execEstateArm h change tick s
  | .estateAck h change => Sys2Proof.Machine.execEstateAck h change s
  | .estateDecision => Sys2Proof.Machine.execEstateDecision s
  | .estateGo h change => Sys2Proof.Machine.execEstateGo h change s
  | .estateCancel h change => Sys2Proof.Machine.execEstateCancel h change s
  | .estateOutcome h change go tick images => Sys2Proof.Machine.execEstateOutcome h change go tick images s
  | .estateReadyTimeout => Sys2Proof.Machine.execEstateReadyTimeout s
  | .estateArmTimeout => Sys2Proof.Machine.execEstateArmTimeout s
  | .subTick => Sys2Proof.Machine.execSubTick s
  | .loopSample n => Sys2Proof.Machine.execLoopSample n s
  | .groupSample g => Sys2Proof.Machine.execGroupSample g s
  | .loopDisable n => Sys2Proof.Machine.execLoopDisable n s
  | .loopManual n => Sys2Proof.Machine.execLoopManual n s
  | .loopAuto n => Sys2Proof.Machine.execLoopAuto n s
  | .loopClearStats n => Sys2Proof.Machine.execLoopClearStats n s
  | .lpManualWrite n v => Sys2Proof.Machine.execLpManualWrite n v s
  | .loopResume n => Sys2Proof.Machine.execLoopResume n s
  | .lineCycleEnd n d => Sys2Proof.Machine.execLineCycleEnd n d s
  | .aggregationEnd n dft harmonic => Sys2Proof.Machine.execAggregationEnd n dft harmonic s
  | .urmsRefresh n u2 => Sys2Proof.Machine.execUrmsRefresh n u2 s
  | .modulatorFail ix => Sys2Proof.Machine.execModulatorFail ix s
  | .ledgerCheckpoint ok => Sys2Proof.Machine.execLedgerCheckpoint ok s
  | .nandCheckpoint ok => Sys2Proof.Machine.execNandCheckpoint ok s
  | .ledgerAudit => Sys2Proof.Machine.execLedgerAudit s
  | .pulseEmit k => Sys2Proof.Machine.execPulseEmit k s
  | .pulseEnd k => Sys2Proof.Machine.execPulseEnd k s
  | .calMeasure input vset vph cycles => Sys2Proof.Machine.execCalMeasure input vset vph cycles s
  | .calDone results => Sys2Proof.Machine.execCalDone results s
  | .mtOvrClear => Sys2Proof.Machine.execMtOvrClear s
  | .mtEvSelWrite vset entry => Sys2Proof.Machine.execMtEvSelWrite vset entry s
  | .lgNandCheckpoint => Sys2Proof.Machine.execLgNandCheckpoint s
  | .resetInt c => Sys2Proof.Machine.execResetInt c s
  | .lgClearVigil c => Sys2Proof.Machine.execLgClearVigil c s
  | .lgAIntRead q c a => Sys2Proof.Machine.execLgAIntRead q c a s
  | .lgATotHiRead q c a => Sys2Proof.Machine.execLgATotHiRead q c a s
  | .lgWrapWrite c a v => Sys2Proof.Machine.execLgWrapWrite c a v s
  | .vigilWindow irms2 => Sys2Proof.Machine.execVigilWindow irms2 s
  | .hello h b role => Sys2Proof.Machine.execHello h b role s
  | .helloTimer => Sys2Proof.Machine.execHelloTimer s
  | .assign h number epoch => Sys2Proof.Machine.execAssign h number epoch s
  | .heartbeat h mode severity steered scf demandControl demandManagement => Sys2Proof.Machine.execHeartbeat h mode severity steered scf demandControl demandManagement s
  | .mark h tick epoch => Sys2Proof.Machine.execMark h tick epoch s
  | .depart h module_ cause => Sys2Proof.Machine.execDepart h module_ cause s
  | .credit h dowels => Sys2Proof.Machine.execCredit h dowels s
  | .takeover h => Sys2Proof.Machine.execTakeover h s
  | .subRsp h query results => Sys2Proof.Machine.execSubRsp h query results s
  | .unsub h gpas => Sys2Proof.Machine.execUnsub h gpas s
  | .data h n k publisher entries => Sys2Proof.Machine.execData h n k publisher entries s
  | .sync h b => Sys2Proof.Machine.execSync h b s
  | .syncAck h seq => Sys2Proof.Machine.execSyncAck h seq s
  | .mgmtRsp h id status data => Sys2Proof.Machine.execMgmtRsp h id status data s
  | .mgmtRegisterRead q target tenant addr => Sys2Proof.Machine.execMgmtRegisterRead q target tenant addr s
  | .mgmtRegisterWrite q target tenant addr w => Sys2Proof.Machine.execMgmtRegisterWrite q target tenant addr w s
  | .mgmtForce q target tenant index value => Sys2Proof.Machine.execMgmtForce q target tenant index value s
  | .mgmtRelease q target tenant index => Sys2Proof.Machine.execMgmtRelease q target tenant index s
  | .mgmtTaskCommand q target tenant e sl op => Sys2Proof.Machine.execMgmtTaskCommand q target tenant e sl op s
  | .mgmtLoopCommand q target tenant n op => Sys2Proof.Machine.execMgmtLoopCommand q target tenant n op s
  | .mgmtFaultRead q target tenant => Sys2Proof.Machine.execMgmtFaultRead q target tenant s
  | .mgmtUartRequest id op => Sys2Proof.Machine.execMgmtUartRequest id op s
  | .trussBadFrame h why => Sys2Proof.Machine.execTrussBadFrame h why s
  | .departTimeout n => Sys2Proof.Machine.execDepartTimeout n s
  | .managerLost => Sys2Proof.Machine.execManagerLost s
  | .standbyTakeover handover => Sys2Proof.Machine.execStandbyTakeover handover s
  | .markTimeout => Sys2Proof.Machine.execMarkTimeout s
  | .subQueryTimeout => Sys2Proof.Machine.execSubQueryTimeout s
  | .poolAudit => Sys2Proof.Machine.execPoolAudit s
  | .trussLeave => Sys2Proof.Machine.execTrussLeave s
  | .trussRejoin => Sys2Proof.Machine.execTrussRejoin s
  | .trussRelease n => Sys2Proof.Machine.execTrussRelease n s
  | .trussHandover => Sys2Proof.Machine.execTrussHandover s
  | .trClearErrors => Sys2Proof.Machine.execTrClearErrors s
  | .frameReceive m f => Sys2Proof.Machine.execFrameReceive m f s
  | .pauseReceive m quanta => Sys2Proof.Machine.execPauseReceive m quanta s
  | .pauseExpire m => Sys2Proof.Machine.execPauseExpire m s
  | .pauseWatchdog m => Sys2Proof.Machine.execPauseWatchdog m s
  | .pauseRearm m => Sys2Proof.Machine.execPauseRearm m s
  | .rxDescPost m k => Sys2Proof.Machine.execRxDescPost m k s
  | .txDescPost m k d => Sys2Proof.Machine.execTxDescPost m k d s
  | .frameTransmit m sec ns => Sys2Proof.Machine.execFrameTransmit m sec ns s
  | .tsqRemove m => Sys2Proof.Machine.execTsqRemove m s
  | .linkTrainEnd m rate => Sys2Proof.Machine.execLinkTrainEnd m rate s
  | .linkTrainTimeout m => Sys2Proof.Machine.execLinkTrainTimeout m s
  | .linkLoss m receiving => Sys2Proof.Machine.execLinkLoss m receiving s
  | .inbandRateChange m rate receiving => Sys2Proof.Machine.execInbandRateChange m rate receiving s
  | .macRetrain m => Sys2Proof.Machine.execMacRetrain m s
  | .macDisable m => Sys2Proof.Machine.execMacDisable m s
  | .macEnable m => Sys2Proof.Machine.execMacEnable m s
  | .macClearCounters m => Sys2Proof.Machine.execMacClearCounters m s
  | .wakeFrame m octets => Sys2Proof.Machine.execWakeFrame m octets s
  | .lpiEnter m => Sys2Proof.Machine.execLpiEnter m s
  | .bbLosChange m high => Sys2Proof.Machine.execBbLosChange m high s
  | .datagramDiscard ctx frame => Sys2Proof.Machine.execDatagramDiscard ctx frame s
  | .arpRequest ctx target => Sys2Proof.Machine.execArpRequest ctx target s
  | .neighborSolicit ctx target router => Sys2Proof.Machine.execNeighborSolicit ctx target router s
  | .echoRequest ctx v6 dst data => Sys2Proof.Machine.execEchoRequest ctx v6 dst data s
  | .bvlcNak ctx client fn => Sys2Proof.Machine.execBvlcNak ctx client fn s
  | .readProperty ctx client invoke obj prop idx => Sys2Proof.Machine.execReadProperty ctx client invoke obj prop idx s
  | .readPropertyMultiple ctx client invoke specs => Sys2Proof.Machine.execReadPropertyMultiple ctx client invoke specs s
  | .writeProperty ctx client invoke obj prop val => Sys2Proof.Machine.execWriteProperty ctx client invoke obj prop val s
  | .subscribeCov ctx client invoke pid obj confirmed lifetime => Sys2Proof.Machine.execSubscribeCov ctx client invoke pid obj confirmed lifetime s
  | .whoIs ctx range => Sys2Proof.Machine.execWhoIs ctx range s
  | .whoHas ctx range obj name => Sys2Proof.Machine.execWhoHas ctx range obj name s
  | .bacnetReject ctx client invoke why => Sys2Proof.Machine.execBacnetReject ctx client invoke why s
  | .bacnetUnconfirmedDiscard ctx => Sys2Proof.Machine.execBacnetUnconfirmedDiscard ctx s
  | .covNotify ne => Sys2Proof.Machine.execCovNotify ne s
  | .covRetry number client => Sys2Proof.Machine.execCovRetry number client s
  | .usrasRefresh number => Sys2Proof.Machine.execUsrasRefresh number s
  | .coapGet ctx client osc cls item inst observe => Sys2Proof.Machine.execCoapGet ctx client osc cls item inst observe s
  | .coapPut ctx client osc cls item inst payload => Sys2Proof.Machine.execCoapPut ctx client osc cls item inst payload s
  | .coapAckPost ctx client osc image taskNo alarm => Sys2Proof.Machine.execCoapAckPost ctx client osc image taskNo alarm s
  | .wellKnownCore ctx client multicast => Sys2Proof.Machine.execWellKnownCore ctx client multicast s
  | .coapRefused ctx client why multicast => Sys2Proof.Machine.execCoapRefused ctx client why multicast s
  | .coapRetransmit number client => Sys2Proof.Machine.execCoapRetransmit number client s
  | .observeRegister number => Sys2Proof.Machine.execObserveRegister number s
  | .observeRenew number => Sys2Proof.Machine.execObserveRenew number s
  | .endpointNotify number osc payload => Sys2Proof.Machine.execEndpointNotify number osc payload s
  | .endpointSilent number => Sys2Proof.Machine.execEndpointSilent number s
  | .endpointRst number => Sys2Proof.Machine.execEndpointRst number s
  | .endpointError number => Sys2Proof.Machine.execEndpointError number s
  | .ptpSync m seq t2 t1 => Sys2Proof.Machine.execPtpSync m seq t2 t1 s
  | .ptpFollowUp m seq t1 => Sys2Proof.Machine.execPtpFollowUp m seq t1 s
  | .ptpDelayReq m seq t4 requester => Sys2Proof.Machine.execPtpDelayReq m seq t4 requester s
  | .ptpDelayResp m seq t4 => Sys2Proof.Machine.execPtpDelayResp m seq t4 s
  | .ptpAnnounce m a => Sys2Proof.Machine.execPtpAnnounce m a s
  | .ptpDiscard m => Sys2Proof.Machine.execPtpDiscard m s
  | .ptpSyncSend m => Sys2Proof.Machine.execPtpSyncSend m s
  | .ptpAnnounceSend m => Sys2Proof.Machine.execPtpAnnounceSend m s
  | .ptpDelayReqSend m => Sys2Proof.Machine.execPtpDelayReqSend m s
  | .announceTimeout m => Sys2Proof.Machine.execAnnounceTimeout m s
  | .setTime => Sys2Proof.Machine.execSetTime s
  | .setTimeApply => Sys2Proof.Machine.execSetTimeApply s
  | .neClearCounters => Sys2Proof.Machine.execNeClearCounters s
  | .neTimeNsRead q => Sys2Proof.Machine.execNeTimeNsRead q s
  | .neTimeSecHiRead q => Sys2Proof.Machine.execNeTimeSecHiRead q s
  | .canFrameRx n ident ide remote fdf data behind => Sys2Proof.Machine.execCanFrameRx n ident ide remote fdf data behind s
  | .canTxLoad n begins => Sys2Proof.Machine.execCanTxLoad n begins s
  | .canTxDone n begins => Sys2Proof.Machine.execCanTxDone n begins s
  | .canTxError n ackOnly begins => Sys2Proof.Machine.execCanTxError n ackOnly begins s
  | .canErrorPassive n rec_ => Sys2Proof.Machine.execCanErrorPassive n rec_ s
  | .canBusoff n => Sys2Proof.Machine.execCanBusoff n s
  | .canRecovered n => Sys2Proof.Machine.execCanRecovered n s
  | .canRecover n => Sys2Proof.Machine.execCanRecover n s
  | .canDisable n => Sys2Proof.Machine.execCanDisable n s
  | .canEnable n => Sys2Proof.Machine.execCanEnable n s
  | .canDetect n => Sys2Proof.Machine.execCanDetect n s
  | .detectCandidateEnd n frames passed brs => Sys2Proof.Machine.execDetectCandidateEnd n frames passed brs s
  | .canClearCounters n => Sys2Proof.Machine.execCanClearCounters n s
  | .canInTimeout number => Sys2Proof.Machine.execCanInTimeout number s
  | .canAudit n => Sys2Proof.Machine.execCanAudit n s
  | .rollCallTimer n => Sys2Proof.Machine.execRollCallTimer n s
  | .answer n uid => Sys2Proof.Machine.execAnswer n uid s
  | .present n node status uid => Sys2Proof.Machine.execPresent n node status uid s
  | .leave n node uid => Sys2Proof.Machine.execLeave n node uid s
  | .nodeHeartbeatMiss n node => Sys2Proof.Machine.execNodeHeartbeatMiss n node s
  | .mbPollDue number => Sys2Proof.Machine.execMbPollDue number s
  | .mbRequestSend u => Sys2Proof.Machine.execMbRequestSend u s
  | .mbResponse u frame broken bad => Sys2Proof.Machine.execMbResponse u frame broken bad s
  | .mbTimeout u => Sys2Proof.Machine.execMbTimeout u s
  | .mbAbsentProbe u station => Sys2Proof.Machine.execMbAbsentProbe u station s
  | .uartDisable u => Sys2Proof.Machine.execUartDisable u s
  | .uartEnable u => Sys2Proof.Machine.execUartEnable u s
  | .uartClearCounters u => Sys2Proof.Machine.execUartClearCounters u s
  | .gpioInChange pin level => Sys2Proof.Machine.execGpioInChange pin level s
  | .fabricAudit => Sys2Proof.Machine.execFabricAudit s
  | .patrolScrub place addr find last => Sys2Proof.Machine.execPatrolScrub place addr find last s
  | .ceRateHour r hourEnds => Sys2Proof.Machine.execCeRateHour r hourEnds s
  | .pageRetire page => Sys2Proof.Machine.execPageRetire page s
  | .pageCopyDone => Sys2Proof.Machine.execPageCopyDone s
  | .nandRefresh block into => Sys2Proof.Machine.execNandRefresh block into s
  | .nandPatrol worn lost => Sys2Proof.Machine.execNandPatrol worn lost s
  | .nandRetentionRewrite block into => Sys2Proof.Machine.execNandRetentionRewrite block into s
  | .nandBlockFail block => Sys2Proof.Machine.execNandBlockFail block s
  | .sramScrubNow => Sys2Proof.Machine.execSramScrubNow s
  | .dramScrubNow => Sys2Proof.Machine.execDramScrubNow s
  | .nandPatrolNow => Sys2Proof.Machine.execNandPatrolNow s
  | .memClearCounters => Sys2Proof.Machine.execMemClearCounters s
  | .rtcTickLoRead q => Sys2Proof.Machine.execRtcTickLoRead q s
  | .rtcTickHiRead q => Sys2Proof.Machine.execRtcTickHiRead q s
  | .rtcLoad => Sys2Proof.Machine.execRtcLoad s
  | .rtcLoadApply => Sys2Proof.Machine.execRtcLoadApply s
  | .rtcAlarmFire => Sys2Proof.Machine.execRtcAlarmFire s
  | .rtcWakeEvent => Sys2Proof.Machine.execRtcWakeEvent s
  | .rtcDriftMeasure ppm => Sys2Proof.Machine.execRtcDriftMeasure ppm s
  | .keyImport q key => Sys2Proof.Machine.execKeyImport q key s
  | .generate q key => Sys2Proof.Machine.execGenerate q key s
  | .activate q key => Sys2Proof.Machine.execActivate q key s
  | .keyClear q key => Sys2Proof.Machine.execKeyClear q key s
  | .clearPair q => Sys2Proof.Machine.execClearPair q s
  | .readPublic q key => Sys2Proof.Machine.execReadPublic q key s
  | .readId q => Sys2Proof.Machine.execReadId q s
  | .tamperEvent t => Sys2Proof.Machine.execTamperEvent t s
  | .kerfAssert => Sys2Proof.Machine.execKerfAssert s
  | .tmpKerf => Sys2Proof.Machine.execTmpKerf s
  | .tmpClearLog => Sys2Proof.Machine.execTmpClearLog s
  | .tmpLogSelWrite entry => Sys2Proof.Machine.execTmpLogSelWrite entry s
  | .challenge => Sys2Proof.Machine.execChallenge s
  | .transition target => Sys2Proof.Machine.execTransition target s
  | .debugUnlock => Sys2Proof.Machine.execDebugUnlock s
  | .nonceLapse => Sys2Proof.Machine.execNonceLapse s
  | .modeCommission => Sys2Proof.Machine.execModeCommission s
  | .modeRun => Sys2Proof.Machine.execModeRun s
  | .modeHold => Sys2Proof.Machine.execModeHold s
  | .modeSafe => Sys2Proof.Machine.execModeSafe s
  | .modeDoze => Sys2Proof.Machine.execModeDoze s
  | .dozeExit cause => Sys2Proof.Machine.execDozeExit cause s
  | .vmainLossInDoze => Sys2Proof.Machine.execVmainLossInDoze s
  | .powerFailWarning mv partials => Sys2Proof.Machine.execPowerFailWarning mv partials s
  | .vmainReturn mv => Sys2Proof.Machine.execVmainReturn mv s
  | .sillPor => Sys2Proof.Machine.execSillPor s
  | .nresetPulse => Sys2Proof.Machine.execNresetPulse s
  | .coreUv => Sys2Proof.Machine.execCoreUv s
  | .clockLoss c err => Sys2Proof.Machine.execClockLoss c err s
  | .overtemp => Sys2Proof.Machine.execOvertemp s
  | .tempHot => Sys2Proof.Machine.execTempHot s
  | .svWatchdog => Sys2Proof.Machine.execSvWatchdog s
  | .debugReset => Sys2Proof.Machine.execDebugReset s
  | .rstWarm => Sys2Proof.Machine.execRstWarm s
  | .rstEngine => Sys2Proof.Machine.execRstEngine s
  | .rstBlock b => Sys2Proof.Machine.execRstBlock b s
  | .resetStretchEnd => Sys2Proof.Machine.execResetStretchEnd s
  | .fuseLoadDone fuseOk opt trim => Sys2Proof.Machine.execFuseLoadDone fuseOk opt trim s
  | .fuseLoadRetry => Sys2Proof.Machine.execFuseLoadRetry s
  | .bootCheckDone passed => Sys2Proof.Machine.execBootCheckDone passed s
  | .pegRequest o => Sys2Proof.Machine.execPegRequest o s
  | .pegGrant => Sys2Proof.Machine.execPegGrant s
  | .pegAgeing ix => Sys2Proof.Machine.execPegAgeing ix s
  | .govAudit => Sys2Proof.Machine.execGovAudit s
  | .dramTrainDone => Sys2Proof.Machine.execDramTrainDone s
  | .domainRelease d => Sys2Proof.Machine.execDomainRelease d s
  | .releaseTimeout d => Sys2Proof.Machine.execReleaseTimeout d s
  | .clkRetry d => Sys2Proof.Machine.execClkRetry d s
  | .configCommit badTags => Sys2Proof.Machine.execConfigCommit badTags s
  | .faultRaise d n sev detail => Sys2Proof.Machine.execFaultRaise d n sev detail s
  | .backlogDrain => Sys2Proof.Machine.execBacklogDrain s
  | .faultAck seq => Sys2Proof.Machine.execFaultAck seq s
  | .faultAutoAck => Sys2Proof.Machine.execFaultAutoAck s
  | .fltClearFirst => Sys2Proof.Machine.execFltClearFirst s
  | .fltClearLost => Sys2Proof.Machine.execFltClearLost s
  | .fltClearTotals => Sys2Proof.Machine.execFltClearTotals s
  | .injStart q det n force durationMs arg symbols => Sys2Proof.Machine.execInjStart q det n force durationMs arg symbols s
  | .injStop => Sys2Proof.Machine.execInjStop s
  | .injForceEnd => Sys2Proof.Machine.execInjForceEnd s
  | .satStep => Sys2Proof.Machine.execSatStep s
  | .vio33Overload mA => Sys2Proof.Machine.execVio33Overload mA s
  | .vio33Recover => Sys2Proof.Machine.execVio33Recover s
  | .subRequest h query entries => Sys2Proof.Machine.execSubRequest h query entries s
  | .notificationAck number client => Sys2Proof.Machine.execNotificationAck number client s
  | .covLifetimeExpiry number client => Sys2Proof.Machine.execCovLifetimeExpiry number client s
  | .tamperConditionClear source => Sys2Proof.Machine.execTamperConditionClear source s
  | .sillPorRelease => Sys2Proof.Machine.execSillPorRelease s
  | .resetSourceRelease source => Sys2Proof.Machine.execResetSourceRelease source s
  | .holdUpEnd => Sys2Proof.Machine.execHoldUpEnd s
  | .secureBankWipeEnd => Sys2Proof.Machine.execSecureBankWipeEnd s
  | .keyCommandDone => Sys2Proof.Machine.execKeyCommandDone s
  | .modulatorRecovery ix => Sys2Proof.Machine.execModulatorRecovery ix s
  | .pegReturn o => Sys2Proof.Machine.execPegReturn o s
  | .bootRecoveryImage ok => Sys2Proof.Machine.execBootRecoveryImage ok s

end Sys2Proof.Machine
end

