-- ==== Sys2Proof/Safety.lean ====
section
/-! DEFINITION. Safety.lean: what every state that a run reaches satisfies, in the terms that statements use. -/

namespace Sys2Proof.Machine

/-- The sparse register file is in its canonical form: keys strictly rising. -/
def regsWf (s : State) : Bool := tabSortedFrom none s.regs

/-- The clocks are in range: the tick number below 2^48 (R109), the fabric cycle at most the longest steered grid tick, at most four sub-ticks served (R25),
the RTC below 2^48. -/
def clocksWf (s : State) : Bool :=
  decide (s.tick < tickMod) && decide (s.fc ≤ fcTickMax) && decide (s.sub ≤ 4) && decide (s.rtc.count < 2 ^ 48)

/-- The queues are within their sizes: 32 fault entries and 16 held (R480, R485), 16 changes (R142). -/
def queuesWf (s : State) : Bool :=
  decide (s.flt.queue.length ≤ 32) && decide (s.flt.backlog.length ≤ 16) && decide (s.scf.queue.length ≤ 16)

/-- The invariant of the machine, as a Bool. -/
def invB (s : State) : Bool := regsWf s && clocksWf s && queuesWf s

/-- The invariant of the machine. -/
abbrev Inv (s : State) : Prop := invB s = true

/-! ## Runs of steps -/

/-- The outcome of `n` steps, one after another. -/
def steps : Nat → State → Host.Outcome State Fault Refusal
  | 0, s => .next s
  | n + 1, s => match step s with
    | .next t => steps n t
    | o => o

/-! ## What a Decend instruction runs on -/

/-- The run that a runner's instruction acts on: the running task's in its slot, with no released task of its engine waiting for its gather (R112, R113, R115), or joinery's (R539). -/
def runOf? (s : State) (r : Runner) : Option Run :=
  match r with
  | .task e sl => match taskAt? s e sl with
    | some t => if t.phase = .running && !gathersFirst s e then some t.run else none
    | none => none
  | .joinery => some s.jrun

/-- The state with a runner's run replaced, and nothing else changed. -/
def withRun (s : State) (r : Runner) (x : Run) : State :=
  match r with
  | .task e sl => match taskAt? s e sl with
    | some t => setTask s e sl { t with run := x }
    | none => s
  | .joinery => { s with jrun := x }

end Sys2Proof.Machine
end

