-- ==== Sys2Proof/Certificates/Slice0/Obligations.lean ====
section
/-! DEFINITION. Certificates/Slice0/Obligations.lean: the statements for the provers. -/

open Sys2Proof Sys2Proof.Machine

/-- The commands of the register space answer a next state with their own effect (00 R4 to R9, 03 R106). -/
def Obligations.RegisterCommandsComplete : Prop :=
  (∀ (q : Requester) (a : Nat) (w : Word) (r : RegDesc) (ix : List Nat) (s : State), reaches s q = true → findReg a = some (r, ix) →
    exec (.registerWrite q a w) s = .next (actWord (clearWord (directWord s q r ix a w.toNat) q r ix a w.toNat) q r.base ix w.toNat)) ∧
  (∀ (q : Requester) (a : Nat) (wr : Bool) (s : State), reaches s q = true → findReg a = none →
    exec (.unmappedAccess q a wr) s = .next (if wr then raise s .regNone else setReply (raise s .regNone) [0])) ∧
  (∀ (q : Requester) (s : State), exec (.leGridLoRead q) s = .next (setReply { s with shadows := tabPut s.shadows (shadowKey 0 q) [s.tick] } [s.tick % 2 ^ 32])) ∧
  (∀ (q : Requester) (t : Nat) (l : List Nat) (s : State), tabGet? s.shadows (shadowKey 0 q) = some (t :: l) →
    exec (.leGridHiRead q) s = .next (setReply { s with shadows := tabDel s.shadows (shadowKey 0 q) } [t / 2 ^ 32 % 2 ^ 16])) ∧
  (∀ (e sl : Fin 8) (a b : Fin 256) (x : Task) (s : State), taskAt? s e sl = some x → x.phase = .running → gathersFirst s e = false → x.run.tenant = 4095 →
    exec (.opSysrd (.task e sl) a b) s = .next (onTask (readReg s (.le e) (x.run.loc b.val).value.toNat) e sl
      (fun r => r.put a.val { w := replyWord (readReg s (.le e) (x.run.loc b.val).value.toNat) } [(x.run.loc b.val).q] 1 60))) ∧
  (∀ (a b : Fin 256) (s : State), scfState s = 1 → s.jrun.ended = false → s.jrun.tenant = 4095 →
    exec (.opSysrd .joinery a b) s = .next { readReg s .sv (s.jrun.loc b.val).value.toNat with
      jrun := (readReg s .sv (s.jrun.loc b.val).value.toNat).jrun.put a.val { w := replyWord (readReg s .sv (s.jrun.loc b.val).value.toNat) } [(s.jrun.loc b.val).q] 1 1 }) ∧
  (∀ (e sl : Fin 8) (a : Fin 256) (addr : Word) (x : Task) (s : State), taskAt? s e sl = some x → x.phase = .running → gathersFirst s e = false → x.run.tenant = 4095 →
    exec (.opSysrdx (.task e sl) a addr) s = .next (onTask (readReg s (.le e) addr.toNat) e sl
      (fun r => r.put a.val { w := replyWord (readReg s (.le e) addr.toNat) } [] 2 60))) ∧
  (∀ (e sl : Fin 8) (a b : Fin 256) (x : Task) (s : State), taskAt? s e sl = some x → x.phase = .running → gathersFirst s e = false → x.run.tenant = 4095 →
    exec (.opSyswr (.task e sl) a b) s = .next (onTask (writeReg s (.le e) (x.run.loc a.val).value.toNat (x.run.loc b.val).value.toNat) e sl (fun r => r.fin 0 1 60))) ∧
  (∀ (a b : Fin 256) (s : State), scfState s = 1 → s.jrun.ended = false → s.jrun.tenant = 4095 → (findReg (s.jrun.loc a.val).value.toNat).isSome = true →
    exec (.opSyswr .joinery a b) s = .next { s with
      scf := { s.scf with staging := stageWrite s.scf.staging (s.jrun.loc a.val).value.toNat (s.jrun.loc b.val).value.toNat }, jrun := s.jrun.fin 0 1 1 }) ∧
  (∀ (e sl : Fin 8) (a : Fin 256) (addr : Word) (x : Task) (s : State), taskAt? s e sl = some x → x.phase = .running → gathersFirst s e = false → x.run.tenant = 4095 →
    exec (.opSyswrx (.task e sl) a addr) s = .next (onTask (writeReg s (.le e) addr.toNat (x.run.loc a.val).value.toNat) e sl (fun r => r.fin 0 2 60)))

/-- Reading LE_GRID_LO captures the tick number; the requester's next read of LE_GRID_HI gives that number's upper bits even when the tick number has moved on, and another requester's shadow stays as it was (00 R538, 04 R109). -/
def Obligations.GridShadowReadsOneTick : Prop :=
  ∀ (q q' : Requester) (n : Nat) (s : State), s.tick < tickMod → q.num ≠ q'.num →
    ∃ t u, exec (.leGridLoRead q) s = .next t ∧ exec (.leGridHiRead q) { t with tick := n } = .next u ∧
      t.reply = [s.tick % 2 ^ 32] ∧ u.reply = [s.tick / 2 ^ 32] ∧
      tabGet? t.shadows (shadowKey 0 q') = tabGet? s.shadows (shadowKey 0 q')

/-- A step runs the command at the front (the model's queue, log 1). -/
def Obligations.StepRunsFrontCommand : Prop :=
  ∀ (c : Instr) (q : List Instr) (s : State), s.pending = c :: q → step s = exec c (s.withPending q)

/-- With no command waiting one fabric cycle passes (the model's choice, log 1). -/
def Obligations.EmptyQueuePassesFabricCycle : Prop :=
  ∀ s : State, s.pending = [] →
    (s.fc + 1 < tickLen s → ∃ t, step s = .next t ∧ t = passTime s 1 ∧ t.pending = [] ∧
      (s.pt.waiting = [] → t = passCycles s 1 ∧ t.fc = s.fc + 1 ∧ t.tick = s.tick ∧ t.mono = s.mono ∧ t.regs = s.regs)) ∧
    (tickLen s ≤ s.fc + 1 → step s = .next s)

/-- No row of the opcode table gives bits, so no word spells a command (log 3). -/
def Obligations.TableGivesNoWords : Prop :=
  ∀ (n w : Nat) (s : State), decodeTableWord n w = none ∧ s.withFetchWord n w = s

/-- The reset state meets the invariant (00 R10, 04 R109). -/
def Obligations.ResetStateMeetsInvariant : Prop :=
  Inv State.reset ∧ State.reset.pending = [] ∧ State.reset.tick = 0 ∧ modeOf State.reset = 7 ∧ presented State.reset = none ∧ tabWf {} State.reset.pt.recs = true ∧ (∀ i, (ptAt State.reset i).defined = false)

/-- No command stops the block, whatever its operands and the state, and none touches the queue. -/
def Obligations.EveryCommandAnswersNextState : Prop :=
  ∀ (c : Instr) (s : State), ∃ t, exec c s = .next t ∧ t.pending = s.pending

/-- Every step keeps the invariant. -/
def Obligations.StepKeepsInvariant : Prop :=
  ∀ s : State, Inv s → ∃ t, step s = .next t ∧ Inv t

/-- As many steps as commands wait run them all, and keep the invariant. -/
def Obligations.QueueDrains : Prop :=
  ∀ s : State, Inv s → ∃ t, steps s.pending.length s = .next t ∧ t.pending = [] ∧ Inv t

/-- Elapsed grid ticks and the life-cycle fuses never fall (13 R430: a thermometer code, so they never go back). -/
def Obligations.TimeAndFusesNeverFall : Prop :=
  ∀ s t : State, step s = .next t → s.mono ≤ t.mono ∧ s.se.fused ≤ t.se.fused

/-- Register fields read back and do not overlap. -/
def Obligations.RegisterFieldsKeepTheirPlace : Prop :=
  ∀ (s : State) (f g : RF) (v : Nat), regsWf s = true → getF (setF s f v) f = v % 2 ^ f.w ∧ (f.key ≠ g.key → getF (setF s f v) g = getF s g) ∧ regsWf (setF s f v) = true

/-- What a reset at level l does to the registers it covers (00 R10). -/
def Obligations.ResetLevelsRestoreTheirFields : Prop :=
  ∀ (s : State) (f : RF) (l : Nat) (p : Nat → Bool), regsWf s = true →
    ((l ≤ f.key % 8 ∧ f.key % 8 ≠ 7 ∧ p (f.key / 256 % 0x1000000) = true) → getF (resetRegs s l p) f = f.rst) ∧
    (¬ (l ≤ f.key % 8 ∧ f.key % 8 ≠ 7 ∧ p (f.key / 256 % 0x1000000) = true) → getF (resetRegs s l p) f = getF s f)

/-- The writer write (02 R33). -/
def Obligations.WriterWriteStampsRecord : Prop :=
  ∀ (s u : State) (k : WriterKind) (n i : Nat) (v : Word) (q : Wq), u = drainBank 16 s (subBank i) → (ptAt u i).defined = true → (ptAt u i).writerKind = k → (ptAt u i).writerId = n →
    ptAt (writerWrite s k n i v q) i = { ptAt u i with value := normalise (ptAt u i).ty v, wq := q, stamp := usecNow u, seq := ((ptAt u i).seq + 1) % 2 ^ 16, staleLatch := false } ∧
    (∀ j, j ≠ i → ptAt (writerWrite s k n i v q) j = ptAt u j) ∧ (writerWrite s k n i v q).regs = u.regs ∧
    (tabGet [] s.pt.waiting (subBank i) = [] → u = s)

/-- The effective quality (01 R14, 02 R36). -/
def Obligations.RecordShowsFirstQuality : Prop :=
  ∀ (s : State) (r : PtRec),
    (ptQuality s r = .forced ↔ r.force = true) ∧
    (ptQuality s r = .fault ↔ r.force = false ∧ r.wq = .fault) ∧
    (ptQuality s r = .absent ↔ r.force = false ∧ r.wq ≠ .fault ∧ (r.wq = .absent ∨ r.undeliv = true)) ∧
    (ptQuality s r = .uncalibrated ↔ r.force = false ∧ r.undeliv = false ∧ r.wq = .uncalibrated) ∧
    (ptQuality s r = .stale ↔ r.force = false ∧ r.undeliv = false ∧ r.wq = .good ∧ r.writerKind ≠ .none ∧ r.refreshLimit ≠ 0 ∧ (r.staleLatch = true ∨ r.refreshLimit * 1000 < ptAge s r)) ∧
    (ptQuality s r = .good ↔ r.force = false ∧ r.undeliv = false ∧ r.wq = .good ∧ ¬ (r.writerKind ≠ .none ∧ r.refreshLimit ≠ 0 ∧ (r.staleLatch = true ∨ r.refreshLimit * 1000 < ptAge s r)))

/-- The counters (03 R96). -/
def Obligations.CountersMoveByLevel : Prop :=
  ∀ (e sl : Fin 8) (a b c : Fin 256) (s : State) (x : Run) (up : Bool), runOf? s (.task e sl) = some x → c.val < x.counters.length →
    ∃ y, exec (if up then .opCtu e sl a b c else .opCtd e sl a b c) s = .next (withRun s (.task e sl) y) ∧
      (y.counters.getD c.val {}).cv.toInt = (if (x.loc b.val).value = 0 then (x.counters.getD c.val {}).cv.toInt
        else max (-2147483648) (min 2147483647 ((x.counters.getD c.val {}).cv.toInt + (if up then 1 else -1)))) ∧
      (y.counters.getD c.val {}).pv = (x.counters.getD c.val {}).pv ∧ (∀ d, d ≠ c.val → y.counters.getD d {} = x.counters.getD d {}) ∧
      (bitOf y.flags 0 = true ↔ bitOf x.flags 0 = true ∨ ((x.loc b.val).value ≠ 0 ∧
        ((x.counters.getD c.val {}).cv.toInt + (if up then 1 else -1) < -2147483648 ∨ 2147483647 < (x.counters.getD c.val {}).cv.toInt + (if up then 1 else -1))))

/-- Integer arithmetic (03 R83). -/
def Obligations.IntegerArithmeticSaturates : Prop :=
  (∀ op : Fin 0x48, 0x10 ≤ op.val → op.val ≠ 0x1A → op.val ≠ 0x1B → ((opInfo op.val).getD {}).sig.all (fun g => !g.2.contains .ticks) = true) ∧
  ∀ (t : VType), t = .int32 ∨ t = .uint32 →
    (∀ x : Int, asInt t (satInt t x).w = max (minOf t) (min (maxOf t) x) ∧ ((satInt t x).fl = flSat ↔ x < minOf t ∨ maxOf t < x) ∧ ((satInt t x).fl = 0 ↔ minOf t ≤ x ∧ x ≤ maxOf t)) ∧
    (∀ b c : Word, asInt t c ≠ 0 → ¬ (t = .int32 ∧ b.toInt = -2147483648 ∧ c.toInt = -1) → asInt t (intDiv t b c).w = Int.tdiv (asInt t b) (asInt t c) ∧ (intDiv t b c).fl = 0) ∧
    (∀ b c : Word, asInt t c ≠ 0 → asInt t (intMod t b c).w = Int.tmod (asInt t b) (asInt t c) ∧ (intMod t b c).fl = 0) ∧
    (∀ b c : Word, asInt t c = 0 → (intDiv t b c).fl = flDivz ∧ asInt t (intDiv t b c).w = (if 0 < asInt t b then maxOf t else if asInt t b < 0 then minOf t else 0) ∧
      intMod t b c = { w := 0, fl := flDivz }) ∧
    (intDiv .int32 0x80000000 0xFFFFFFFF = { w := 0x7FFFFFFF, fl := flSat }) ∧
    (∀ (r : Runner) (a b c : Fin 256) (s : State) (x : Run), runOf? s r = some x →
      exec (.opAddw r a b c) s = .next (withRun s r (x.put a.val { w := (x.loc b.val).value + (x.loc c.val).value } [(x.loc b.val).q, (x.loc c.val).q] 1 1)) ∧
      exec (.opSubw r a b c) s = .next (withRun s r (x.put a.val { w := (x.loc b.val).value - (x.loc c.val).value } [(x.loc b.val).q, (x.loc c.val).q] 1 1)) ∧
      (x.ty b.val = t →
        exec (.opAdd r a b c) s = .next (withRun s r (x.put a.val (satInt t (asInt t (x.loc b.val).value + asInt t (x.loc c.val).value)) [(x.loc b.val).q, (x.loc c.val).q] 1 1)) ∧
        exec (.opSub r a b c) s = .next (withRun s r (x.put a.val (satInt t (asInt t (x.loc b.val).value - asInt t (x.loc c.val).value)) [(x.loc b.val).q, (x.loc c.val).q] 1 1)) ∧
        exec (.opMul r a b c) s = .next (withRun s r (x.put a.val (satInt t (asInt t (x.loc b.val).value * asInt t (x.loc c.val).value)) [(x.loc b.val).q, (x.loc c.val).q] 1 2)) ∧
        exec (.opNeg r a b) s = .next (withRun s r (x.put a.val (satInt t (-asInt t (x.loc b.val).value)) [(x.loc b.val).q] 1 1)) ∧
        exec (.opAbs r a b) s = .next (withRun s r (x.put a.val (satInt t (asInt t (x.loc b.val).value).natAbs) [(x.loc b.val).q] 1 1)) ∧
        exec (.opDiv r a b c) s = .next (withRun s r (x.put a.val (intDiv t (x.loc b.val).value (x.loc c.val).value) [(x.loc b.val).q, (x.loc c.val).q] 1 20)) ∧
        exec (.opMod r a b c) s = .next (withRun s r (x.put a.val (intMod t (x.loc b.val).value (x.loc c.val).value) [(x.loc b.val).q, (x.loc c.val).q] 1 20))))

/-- FIX16 arithmetic (03 R84); a Q15 value x stands for x / 32768. -/
def Obligations.Fix16Arithmetic : Prop :=
  (∀ x : Int, (satInt .fix16 x).w.toInt = max (-32768) (min 32767 x) ∧ ((satInt .fix16 x).fl = flSat ↔ x < -32768 ∨ 32767 < x) ∧ ((satInt .fix16 x).fl = 0 ↔ -32768 ≤ x ∧ x ≤ 32767)) ∧
  (∀ b c : Word, (fixMul b c).w.toInt = max (-32768) (min 32767 ((b.toInt * c.toInt + 0x4000) / 2 ^ 15)) ∧
    ((fixMul b c).fl = flSat ↔ 32767 < (b.toInt * c.toInt + 0x4000) / 2 ^ 15 ∨ (b.toInt * c.toInt + 0x4000) / 2 ^ 15 < -32768)) ∧
  (∀ b c : Word, c.toInt ≠ 0 → ∃ n : Int, 2 * (n * c.toInt - b.toInt * 32768).natAbs ≤ c.toInt.natAbs ∧
    (2 * (n * c.toInt - b.toInt * 32768).natAbs = c.toInt.natAbs → (b.toInt * 32768).natAbs < (n * c.toInt).natAbs) ∧
    (fixDiv b c).w.toInt = max (-32768) (min 32767 n) ∧ ((fixDiv b c).fl = flSat ↔ n < -32768 ∨ 32767 < n) ∧ ((fixDiv b c).fl = 0 ↔ -32768 ≤ n ∧ n ≤ 32767)) ∧
  (∀ b c : Word, c.toInt = 0 → (fixDiv b c).w.toInt = (if b.toInt < 0 then -32768 else 32767) ∧ (fixDiv b c).fl = flDivz) ∧
  (∀ (b : Word) (n : Nat), -32768 ≤ b.toInt → b.toInt ≤ 32767 → (1 ≤ n → n ≤ 15 → (fixShr b n).w.toInt = (b.toInt + 2 ^ (n - 1)) / 2 ^ n ∧ (fixShr b n).fl = 0) ∧ fixShr b 0 = { w := b }) ∧
  fixMul 0xFFFF8000 0xFFFF8000 = { w := 0x7FFF, fl := flSat } ∧
  (∀ (r : Runner) (a b c : Fin 256) (n : Fin 32) (s : State) (x : Run), runOf? s r = some x →
    exec (.opFadd r a b c) s = .next (withRun s r (x.put a.val (satInt .fix16 ((x.loc b.val).value.toInt + (x.loc c.val).value.toInt)) [(x.loc b.val).q, (x.loc c.val).q] 1 1)) ∧
    exec (.opFsub r a b c) s = .next (withRun s r (x.put a.val (satInt .fix16 ((x.loc b.val).value.toInt - (x.loc c.val).value.toInt)) [(x.loc b.val).q, (x.loc c.val).q] 1 1)) ∧
    exec (.opFmul r a b c) s = .next (withRun s r (x.put a.val (fixMul (x.loc b.val).value (x.loc c.val).value) [(x.loc b.val).q, (x.loc c.val).q] 1 1)) ∧
    exec (.opFdiv r a b c) s = .next (withRun s r (x.put a.val (fixDiv (x.loc b.val).value (x.loc c.val).value) [(x.loc b.val).q, (x.loc c.val).q] 1 18)) ∧
    exec (.opFneg r a b) s = .next (withRun s r (x.put a.val (satInt .fix16 (-(x.loc b.val).value.toInt)) [(x.loc b.val).q] 1 1)) ∧
    exec (.opFabs r a b) s = .next (withRun s r (x.put a.val (satInt .fix16 (x.loc b.val).value.toInt.natAbs) [(x.loc b.val).q] 1 1)) ∧
    exec (.opFshr r a b n) s = .next (withRun s r (x.put a.val (fixShr (x.loc b.val).value n.val) [(x.loc b.val).q] 1 1)))

/-- The presented entry (15 R481). -/
def Obligations.PresentedEntryIsHighestEarliest : Prop :=
  ∀ l : List FltEntry, (presentedOf l = none ↔ l = []) ∧
    (∀ e, presentedOf l = some e → ∃ p q, l = p ++ e :: q ∧ (∀ x ∈ p, x.sev.code < e.sev.code) ∧ (∀ x ∈ q, x.sev.code ≤ e.sev.code))

/-- Storing records keeps the point table in canonical form. -/
def Obligations.PointTableKeepsCanonicalForm : Prop :=
  ∀ s : State, tabWf {} s.pt.recs = true → (∀ (i : Nat) (a b : PtRec), tabWf {} (commitPt s i a b).pt.recs = true) ∧
    (∀ (r : State) (k : WriterKind) (n i : Nat) (v : Word) (q : Wq), s = drainBank 16 r (subBank i) →
      ((ptAt s i).defined = true → (ptAt s i).writerKind = k ∧ (ptAt s i).writerId = n) → tabWf {} (writerWrite r k n i v q).pt.recs = true)

/-- The commands of the point table answer a next state with their own effect on the record (02 R36 to R71). -/
def Obligations.PointCommandsComplete : Prop :=
  (∀ (port : Fin 16) (i : Fin 65536) (ctx : Fin 64) (s : State), (ptSeen s i.val).defined = true → (port = 11 ∨ port = 12 → ctxHolds s ctx.val i.val rightRead = true) →
    exec (.ptRead port i ctx false) s = .next (setReply s (0 :: (ptValue (ptSeen s i.val)).toNat :: ptWords s (ptSeen s i.val)))) ∧
  (∀ (i : Fin 65536) (old : PtRec) (port : Fin 16) (ctx : Fin 64) (s : State), tabGet? s.cyc.before i.val = some old → old.defined = true → port ≠ 11 → port ≠ 12 →
    exec (.ptRead port i ctx false) s = .next (setReply s (0 :: (ptValue old).toNat :: ptWords s old))) ∧
  (∀ (bank : Fin 16) (w : PtWrite) (s : State), portBusy s w.port = false → tabGet [] s.pt.waiting bank.val = [] → (ptAt s w.index).defined = true → denyReason s (ptAt s w.index) w = none →
    ∃ t, exec (.ptWrite bank [w]) s = .next t ∧ ptAt t w.index = applyWrite s (ptAt s w.index) w ∧ t.regs = s.regs ∧
      t.sent = .ptStatus w.port.val w.index .ok :: s.sent ∧ ∀ j, j ≠ w.index → ptAt t j = ptAt s j) ∧
  (∀ (port : Fin 16) (w : PtWrite) (s : State), s.pt.lost = [w] → w.port = port → tabGet [] s.pt.waiting (subBank w.index) = [] →
    (ptAt s w.index).defined = true → denyReason s (ptAt s w.index) w = none →
    ∃ t, exec (.ptWriteRepeat port) s = .next t ∧ ptAt t w.index = applyWrite s (ptAt s w.index) w ∧
      t.sent = .ptStatus w.port.val w.index .ok :: s.sent) ∧
  (∀ (i : Fin 65536) (s : State), (ptAt s i.val).defined = true → (ptAt s i.val).refreshLimit ≠ 0 → (ptAt s i.val).refreshLimit * 1000 < ptAge s (ptAt s i.val) →
    ∃ t, exec (.staleSweep i false) s = .next t ∧ ptAt t i.val = { ptAt s i.val with staleLatch := true } ∧ (∀ j, j ≠ i.val → ptAt t j = ptAt s j) ∧
      t.pt.sweepAt = i.val) ∧
  (∀ (i : Fin 65536) (v : Word) (t : Fin 4096) (s : State), Inv s → (ptAt s i.val).defined = true → (ptAt s i.val).writerKind ≠ .meter → (ptAt s i.val).proxy = false →
    holdsRight s t.val i.val rightForce = true → s.pt.locked.contains i.val = false →
    ∃ u, exec (.forceSet false i v t) s = .next u ∧
      ptAt u i.val = { ptAt s i.val with forceValue := normalise (ptAt s i.val).ty v, force := true, relPend := false } ∧
      getF u Fld.PT_FCMD_RESULT = 0 ∧ getF u Fld.PT_FCMD_OP = 1 ∧ getF u Fld.PT_FCMD_INDEX = i.val ∧ u.reply = [0]) ∧
  (∀ (i : Fin 65536) (t : Fin 4096) (s : State), Inv s → (ptAt s i.val).defined = true → holdsRight s t.val i.val rightForce = true →
    ∃ u, exec (.forceRelease false i t) s = .next u ∧ ptAt u i.val = { ptAt s i.val with relPend := true } ∧ getF u Fld.PT_FCMD_RESULT = 0 ∧ u.reply = [0]) ∧
  (∀ (i : Fin 65536) (s : State), (ptAt s i.val).defined = true → (ptAt s i.val).relPend = true → heldForScatter s (ptAt s i.val) = false →
    ∃ t, exec (.forceReleaseComplete i) s = .next t ∧ ptAt t i.val = { ptAt s i.val with force := false, relPend := false } ∧ t.regs = s.regs) ∧
  (∀ s : State, Inv s → ∃ t, exec .ptLostClear s = .next t ∧ getF t Fld.PT_LOST_COUNT = 0 ∧ getF t Fld.PT_LOST_LAST_PORT = 0 ∧ t.pt = s.pt) ∧
  (∀ s : State, Inv s → ∃ t, exec .ptDenyClear s = .next t ∧ getF t Fld.PT_DENY_COUNT = 0 ∧ getF t Fld.PT_DENY_REASON = 0 ∧ t.pt = s.pt)

/-- The move, constant and convert instructions of Table 7 complete, and change their run alone (03 R81, R82, R86). -/
def Obligations.DecendMoveConvertComplete : Prop :=
  (∀ (r : Runner)  (s : State) (x : Run), runOf? s r = some x →
    exec (.opNop r ) s = .next (withRun s r (x.fin 0 1 1))) ∧
  (∀ (r : Runner) (a : Fin 256) (b : Fin 256) (s : State) (x : Run), runOf? s r = some x →
    exec (.opMov r a b) s = .next (withRun s r (x.putQ a.val (x.loc b.val).value (x.loc b.val).q 0 1 1))) ∧
  (∀ (r : Runner) (a : Fin 256) (imm : Word) (s : State) (x : Run), runOf? s r = some x →
    exec (.opLdi r a imm) s = .next (withRun s r (x.putQ a.val imm .good 0 2 2))) ∧
  (∀ (r : Runner) (a : Fin 256) (h : Fin 65536) (s : State) (x : Run), runOf? s r = some x →
    exec (.opLdk r a h) s = .next (withRun s r (x.putQ a.val (normalise (x.ty a.val) (x.consts.getD h.val 0)) .good 0 1 3))) ∧
  (∀ (r : Runner) (a : Fin 256) (b : Fin 256) (s : State) (x : Run), runOf? s r = some x →
    exec (.opItor r a b) s = .next (withRun s r (x.put a.val (realOf (mkRat (asInt (x.ty b.val) (x.loc b.val).value) 1)) [(x.loc b.val).q] 1 2))) ∧
  (∀ (r : Runner) (a : Fin 256) (b : Fin 256) (s : State) (x : Run), runOf? s r = some x →
    exec (.opUtor r a b) s = .next (withRun s r (x.put a.val (realOf (mkRat (asInt (x.ty b.val) (x.loc b.val).value) 1)) [(x.loc b.val).q] 1 2))) ∧
  (∀ (r : Runner) (a : Fin 256) (b : Fin 256) (s : State) (x : Run), runOf? s r = some x →
    exec (.opRtoi r a b) s = .next (withRun s r (x.put a.val (realToInt .int32 1 (x.loc b.val).value) [(x.loc b.val).q] 1 2))) ∧
  (∀ (r : Runner) (a : Fin 256) (b : Fin 256) (s : State) (x : Run), runOf? s r = some x →
    exec (.opRtou r a b) s = .next (withRun s r (x.put a.val (realToInt .uint32 1 (x.loc b.val).value) [(x.loc b.val).q] 1 2))) ∧
  (∀ (r : Runner) (a : Fin 256) (b : Fin 256) (s : State) (x : Run), runOf? s r = some x →
    exec (.opRtof r a b) s = .next (withRun s r (x.put a.val (realToInt .fix16 32768 (x.loc b.val).value) [(x.loc b.val).q] 1 2))) ∧
  (∀ (r : Runner) (a : Fin 256) (b : Fin 256) (s : State) (x : Run), runOf? s r = some x →
    exec (.opFtor r a b) s = .next (withRun s r (x.put a.val (realOf (mkRat (x.loc b.val).value.toInt 32768)) [(x.loc b.val).q] 1 1))) ∧
  (∀ (r : Runner) (a : Fin 256) (b : Fin 256) (s : State) (x : Run), runOf? s r = some x →
    exec (.opItou r a b) s = .next (withRun s r (x.put a.val (satInt .uint32 (asInt (x.ty b.val) (x.loc b.val).value)) [(x.loc b.val).q] 1 1))) ∧
  (∀ (r : Runner) (a : Fin 256) (b : Fin 256) (s : State) (x : Run), runOf? s r = some x →
    exec (.opUtoi r a b) s = .next (withRun s r (x.put a.val (satInt .int32 (asInt (x.ty b.val) (x.loc b.val).value)) [(x.loc b.val).q] 1 1))) ∧
  (∀ (r : Runner) (a : Fin 256) (b : Fin 256) (s : State) (x : Run), runOf? s r = some x →
    exec (.opBtoi r a b) s = .next (withRun s r (x.put a.val { w := (x.loc b.val).value } [(x.loc b.val).q] 1 1))) ∧
  (∀ (r : Runner) (a : Fin 256) (b : Fin 256) (s : State) (x : Run), runOf? s r = some x →
    exec (.opItob r a b) s = .next (withRun s r (x.put a.val { w := if (x.loc b.val).value = 0 then 0 else 1 } [(x.loc b.val).q] 1 1))) ∧
  (∀ (r : Runner) (a : Fin 256) (s : State) (x : Run), runOf? s r = some x →
    exec (.opTrel r a) s = .next (withRun s r (x.putQ a.val (Word.ofNat x.relTime) .good 0 1 1))) ∧
  (∀ (r : Runner) (a : Fin 256) (s : State) (x : Run), runOf? s r = some x →
    exec (.opFlags r a) s = .next (withRun s r (x.putQ a.val (Word.ofNat x.flags) .good 0 1 1)))

/-- The integer arithmetic of Table 8 and the bit logic of Table 9 complete, and change their run alone (03 R81, R83). -/
def Obligations.DecendIntegerComplete : Prop :=
  (∀ (r : Runner) (a : Fin 256) (b : Fin 256) (c : Fin 256) (s : State) (x : Run), runOf? s r = some x →
    exec (.opAdd r a b c) s = .next (withRun s r (x.put a.val (satInt (x.ty b.val) ((asInt (x.ty b.val) (x.loc b.val).value) + (asInt (x.ty b.val) (x.loc c.val).value))) [(x.loc b.val).q, (x.loc c.val).q] 1 1))) ∧
  (∀ (r : Runner) (a : Fin 256) (b : Fin 256) (c : Fin 256) (s : State) (x : Run), runOf? s r = some x →
    exec (.opSub r a b c) s = .next (withRun s r (x.put a.val (satInt (x.ty b.val) ((asInt (x.ty b.val) (x.loc b.val).value) - (asInt (x.ty b.val) (x.loc c.val).value))) [(x.loc b.val).q, (x.loc c.val).q] 1 1))) ∧
  (∀ (r : Runner) (a : Fin 256) (b : Fin 256) (c : Fin 256) (s : State) (x : Run), runOf? s r = some x →
    exec (.opMul r a b c) s = .next (withRun s r (x.put a.val (satInt (x.ty b.val) ((asInt (x.ty b.val) (x.loc b.val).value) * (asInt (x.ty b.val) (x.loc c.val).value))) [(x.loc b.val).q, (x.loc c.val).q] 1 2))) ∧
  (∀ (r : Runner) (a : Fin 256) (b : Fin 256) (c : Fin 256) (s : State) (x : Run), runOf? s r = some x →
    exec (.opDiv r a b c) s = .next (withRun s r (x.put a.val (intDiv (x.ty b.val) (x.loc b.val).value (x.loc c.val).value) [(x.loc b.val).q, (x.loc c.val).q] 1 20))) ∧
  (∀ (r : Runner) (a : Fin 256) (b : Fin 256) (c : Fin 256) (s : State) (x : Run), runOf? s r = some x →
    exec (.opMod r a b c) s = .next (withRun s r (x.put a.val (intMod (x.ty b.val) (x.loc b.val).value (x.loc c.val).value) [(x.loc b.val).q, (x.loc c.val).q] 1 20))) ∧
  (∀ (r : Runner) (a : Fin 256) (b : Fin 256) (s : State) (x : Run), runOf? s r = some x →
    exec (.opNeg r a b) s = .next (withRun s r (x.put a.val (satInt (x.ty b.val) (-(asInt (x.ty b.val) (x.loc b.val).value))) [(x.loc b.val).q] 1 1))) ∧
  (∀ (r : Runner) (a : Fin 256) (b : Fin 256) (s : State) (x : Run), runOf? s r = some x →
    exec (.opAbs r a b) s = .next (withRun s r (x.put a.val (satInt (x.ty b.val) (asInt (x.ty b.val) (x.loc b.val).value).natAbs) [(x.loc b.val).q] 1 1))) ∧
  (∀ (r : Runner) (a : Fin 256) (b : Fin 256) (c : Fin 256) (s : State) (x : Run), runOf? s r = some x →
    exec (.opMin r a b c) s = .next (withRun s r (x.put a.val { w := if (asInt (x.ty b.val) (x.loc c.val).value) < (asInt (x.ty b.val) (x.loc b.val).value) then (x.loc c.val).value else (x.loc b.val).value } [(x.loc b.val).q, (x.loc c.val).q] 1 1))) ∧
  (∀ (r : Runner) (a : Fin 256) (b : Fin 256) (c : Fin 256) (s : State) (x : Run), runOf? s r = some x →
    exec (.opMax r a b c) s = .next (withRun s r (x.put a.val { w := if (asInt (x.ty b.val) (x.loc b.val).value) < (asInt (x.ty b.val) (x.loc c.val).value) then (x.loc c.val).value else (x.loc b.val).value } [(x.loc b.val).q, (x.loc c.val).q] 1 1))) ∧
  (∀ (r : Runner) (a : Fin 256) (b : Fin 256) (c : Fin 256) (s : State) (x : Run), runOf? s r = some x →
    exec (.opLim r a b c) s = .next (withRun s r (x.put a.val { w := limWord (x.ty a.val) (x.loc a.val).value (x.loc b.val).value (x.loc c.val).value } [(x.loc a.val).q, (x.loc b.val).q, (x.loc c.val).q] 1 1))) ∧
  (∀ (r : Runner) (a : Fin 256) (b : Fin 256) (c : Fin 256) (s : State) (x : Run), runOf? s r = some x →
    exec (.opAddw r a b c) s = .next (withRun s r (x.put a.val { w := (x.loc b.val).value + (x.loc c.val).value } [(x.loc b.val).q, (x.loc c.val).q] 1 1))) ∧
  (∀ (r : Runner) (a : Fin 256) (b : Fin 256) (c : Fin 256) (s : State) (x : Run), runOf? s r = some x →
    exec (.opSubw r a b c) s = .next (withRun s r (x.put a.val { w := (x.loc b.val).value - (x.loc c.val).value } [(x.loc b.val).q, (x.loc c.val).q] 1 1))) ∧
  (∀ (r : Runner) (a : Fin 256) (b : Fin 256) (c : Fin 256) (s : State) (x : Run), runOf? s r = some x →
    exec (.opAnd r a b c) s = .next (withRun s r (x.put a.val { w := (x.loc b.val).value &&& (x.loc c.val).value } [(x.loc b.val).q, (x.loc c.val).q] 1 1))) ∧
  (∀ (r : Runner) (a : Fin 256) (b : Fin 256) (c : Fin 256) (s : State) (x : Run), runOf? s r = some x →
    exec (.opOr r a b c) s = .next (withRun s r (x.put a.val { w := (x.loc b.val).value ||| (x.loc c.val).value } [(x.loc b.val).q, (x.loc c.val).q] 1 1))) ∧
  (∀ (r : Runner) (a : Fin 256) (b : Fin 256) (c : Fin 256) (s : State) (x : Run), runOf? s r = some x →
    exec (.opXor r a b c) s = .next (withRun s r (x.put a.val { w := (x.loc b.val).value ^^^ (x.loc c.val).value } [(x.loc b.val).q, (x.loc c.val).q] 1 1))) ∧
  (∀ (r : Runner) (a : Fin 256) (b : Fin 256) (s : State) (x : Run), runOf? s r = some x →
    exec (.opNot r a b) s = .next (withRun s r (x.put a.val { w := if x.ty b.val = .bool then (~~~(x.loc b.val).value) &&& 1 else ~~~(x.loc b.val).value } [(x.loc b.val).q] 1 1))) ∧
  (∀ (r : Runner) (a : Fin 256) (b : Fin 256) (n : Fin 32) (s : State) (x : Run), runOf? s r = some x →
    exec (.opShl r a b n) s = .next (withRun s r (x.put a.val { w := (x.loc b.val).value <<< n.val } [(x.loc b.val).q] 1 1))) ∧
  (∀ (r : Runner) (a : Fin 256) (b : Fin 256) (n : Fin 32) (s : State) (x : Run), runOf? s r = some x →
    exec (.opShr r a b n) s = .next (withRun s r (x.put a.val { w := (x.loc b.val).value >>> n.val } [(x.loc b.val).q] 1 1))) ∧
  (∀ (r : Runner) (a : Fin 256) (b : Fin 256) (n : Fin 32) (s : State) (x : Run), runOf? s r = some x →
    exec (.opSar r a b n) s = .next (withRun s r (x.put a.val { w := (x.loc b.val).value.sshiftRight n.val } [(x.loc b.val).q] 1 1))) ∧
  (∀ (r : Runner) (a : Fin 256) (b : Fin 256) (n : Fin 32) (s : State) (x : Run), runOf? s r = some x →
    exec (.opRol r a b n) s = .next (withRun s r (x.put a.val { w := (x.loc b.val).value.rotateLeft n.val } [(x.loc b.val).q] 1 1))) ∧
  (∀ (r : Runner) (a : Fin 256) (b : Fin 256) (n : Fin 32) (s : State) (x : Run), runOf? s r = some x →
    exec (.opBtst r a b n) s = .next (withRun s r (x.put a.val { w := if (x.loc b.val).value.getLsbD n.val then 1 else 0 } [(x.loc b.val).q] 1 1))) ∧
  (∀ (r : Runner) (a : Fin 256) (b : Fin 256) (n : Fin 32) (s : State) (x : Run), runOf? s r = some x →
    exec (.opBset r a b n) s = .next (withRun s r (x.put a.val { w := (x.loc b.val).value ||| (1#32 <<< n.val) } [(x.loc b.val).q] 1 1))) ∧
  (∀ (r : Runner) (a : Fin 256) (b : Fin 256) (n : Fin 32) (s : State) (x : Run), runOf? s r = some x →
    exec (.opBclr r a b n) s = .next (withRun s r (x.put a.val { w := (x.loc b.val).value &&& ~~~(1#32 <<< n.val) } [(x.loc b.val).q] 1 1))) ∧
  (∀ (r : Runner) (a : Fin 256) (b : Fin 256) (c : Fin 256) (s : State) (x : Run), runOf? s r = some x →
    exec (.opShlv r a b c) s = .next (withRun s r (x.put a.val { w := (x.loc b.val).value <<< ((x.loc c.val).value.toNat % 32) } [(x.loc b.val).q, (x.loc c.val).q] 1 1))) ∧
  (∀ (r : Runner) (a : Fin 256) (b : Fin 256) (c : Fin 256) (s : State) (x : Run), runOf? s r = some x →
    exec (.opShrv r a b c) s = .next (withRun s r (x.put a.val { w := (x.loc b.val).value >>> ((x.loc c.val).value.toNat % 32) } [(x.loc b.val).q, (x.loc c.val).q] 1 1))) ∧
  (∀ (r : Runner) (a : Fin 256) (b : Fin 256) (s : State) (x : Run), runOf? s r = some x →
    exec (.opPopc r a b) s = .next (withRun s r (x.put a.val { w := Word.ofNat (popCount (x.loc b.val).value.toNat 32) } [(x.loc b.val).q] 1 1))) ∧
  (∀ (r : Runner) (a : Fin 256) (b : Fin 256) (s : State) (x : Run), runOf? s r = some x →
    exec (.opClz r a b) s = .next (withRun s r (x.put a.val { w := Word.ofNat (leadingZeros (x.loc b.val).value.toNat 32) } [(x.loc b.val).q] 1 1)))

/-- The REAL32 and FIX16 arithmetic of Table 10 completes, and changes its run alone (03 R81, R84, R85). -/
def Obligations.DecendRealFixComplete : Prop :=
  (∀ (r : Runner) (a : Fin 256) (b : Fin 256) (c : Fin 256) (s : State) (x : Run), runOf? s r = some x →
    exec (.opRadd r a b c) s = .next (withRun s r (x.put a.val (realAdd (x.loc b.val).value (x.loc c.val).value) [(x.loc b.val).q, (x.loc c.val).q] 1 2))) ∧
  (∀ (r : Runner) (a : Fin 256) (b : Fin 256) (c : Fin 256) (s : State) (x : Run), runOf? s r = some x →
    exec (.opRsub r a b c) s = .next (withRun s r (x.put a.val (realSub (x.loc b.val).value (x.loc c.val).value) [(x.loc b.val).q, (x.loc c.val).q] 1 2))) ∧
  (∀ (r : Runner) (a : Fin 256) (b : Fin 256) (c : Fin 256) (s : State) (x : Run), runOf? s r = some x →
    exec (.opRmul r a b c) s = .next (withRun s r (x.put a.val (realMul (x.loc b.val).value (x.loc c.val).value) [(x.loc b.val).q, (x.loc c.val).q] 1 2))) ∧
  (∀ (r : Runner) (a : Fin 256) (b : Fin 256) (c : Fin 256) (s : State) (x : Run), runOf? s r = some x →
    exec (.opRdiv r a b c) s = .next (withRun s r (x.put a.val (realDiv (x.loc b.val).value (x.loc c.val).value) [(x.loc b.val).q, (x.loc c.val).q] 1 14))) ∧
  (∀ (r : Runner) (a : Fin 256) (b : Fin 256) (c : Fin 256) (s : State) (x : Run), runOf? s r = some x →
    exec (.opRmin r a b c) s = .next (withRun s r (x.put a.val (realPick true (x.loc b.val).value (x.loc c.val).value) [(x.loc b.val).q, (x.loc c.val).q] 1 1))) ∧
  (∀ (r : Runner) (a : Fin 256) (b : Fin 256) (c : Fin 256) (s : State) (x : Run), runOf? s r = some x →
    exec (.opRmax r a b c) s = .next (withRun s r (x.put a.val (realPick false (x.loc b.val).value (x.loc c.val).value) [(x.loc b.val).q, (x.loc c.val).q] 1 1))) ∧
  (∀ (r : Runner) (a : Fin 256) (b : Fin 256) (c : Fin 256) (s : State) (x : Run), runOf? s r = some x →
    exec (.opFmul r a b c) s = .next (withRun s r (x.put a.val (fixMul (x.loc b.val).value (x.loc c.val).value) [(x.loc b.val).q, (x.loc c.val).q] 1 1))) ∧
  (∀ (r : Runner) (a : Fin 256) (b : Fin 256) (c : Fin 256) (s : State) (x : Run), runOf? s r = some x →
    exec (.opFdiv r a b c) s = .next (withRun s r (x.put a.val (fixDiv (x.loc b.val).value (x.loc c.val).value) [(x.loc b.val).q, (x.loc c.val).q] 1 18))) ∧
  (∀ (r : Runner) (a : Fin 256) (b : Fin 256) (s : State) (x : Run), runOf? s r = some x →
    exec (.opRneg r a b) s = .next (withRun s r (x.put a.val (realNegate (x.loc b.val).value) [(x.loc b.val).q] 1 1))) ∧
  (∀ (r : Runner) (a : Fin 256) (b : Fin 256) (s : State) (x : Run), runOf? s r = some x →
    exec (.opRabs r a b) s = .next (withRun s r (x.put a.val (realAbs (x.loc b.val).value) [(x.loc b.val).q] 1 1))) ∧
  (∀ (r : Runner) (a : Fin 256) (b : Fin 256) (s : State) (x : Run), runOf? s r = some x →
    exec (.opRsqrt r a b) s = .next (withRun s r (x.put a.val (realSqrt (x.loc b.val).value) [(x.loc b.val).q] 1 16))) ∧
  (∀ (r : Runner) (a : Fin 256) (b : Fin 256) (s : State) (x : Run), runOf? s r = some x →
    exec (.opRrnd r a b) s = .next (withRun s r (x.put a.val (realIntegral ratRound (x.loc b.val).value) [(x.loc b.val).q] 1 2))) ∧
  (∀ (r : Runner) (a : Fin 256) (b : Fin 256) (s : State) (x : Run), runOf? s r = some x →
    exec (.opRtrn r a b) s = .next (withRun s r (x.put a.val (realIntegral ratTrunc (x.loc b.val).value) [(x.loc b.val).q] 1 2))) ∧
  (∀ (r : Runner) (a : Fin 256) (b : Fin 256) (c : Fin 256) (s : State) (x : Run), runOf? s r = some x →
    exec (.opRlim r a b c) s = .next (withRun s r (x.put a.val (realLim (x.loc a.val).value (x.loc b.val).value (x.loc c.val).value) [(x.loc a.val).q, (x.loc b.val).q, (x.loc c.val).q] 1 1))) ∧
  (∀ (r : Runner) (a : Fin 256) (b : Fin 256) (c : Fin 256) (s : State) (x : Run), runOf? s r = some x →
    exec (.opRmac r a b c) s = .next (withRun s r (x.put a.val (realMac (x.loc a.val).value (x.loc b.val).value (x.loc c.val).value) [(x.loc a.val).q, (x.loc b.val).q, (x.loc c.val).q] 1 3))) ∧
  (∀ (r : Runner) (a : Fin 256) (b : Fin 256) (c : Fin 256) (s : State) (x : Run), runOf? s r = some x →
    exec (.opFadd r a b c) s = .next (withRun s r (x.put a.val (satInt .fix16 ((x.loc b.val).value.toInt + (x.loc c.val).value.toInt)) [(x.loc b.val).q, (x.loc c.val).q] 1 1))) ∧
  (∀ (r : Runner) (a : Fin 256) (b : Fin 256) (c : Fin 256) (s : State) (x : Run), runOf? s r = some x →
    exec (.opFsub r a b c) s = .next (withRun s r (x.put a.val (satInt .fix16 ((x.loc b.val).value.toInt - (x.loc c.val).value.toInt)) [(x.loc b.val).q, (x.loc c.val).q] 1 1))) ∧
  (∀ (r : Runner) (a : Fin 256) (b : Fin 256) (s : State) (x : Run), runOf? s r = some x →
    exec (.opFneg r a b) s = .next (withRun s r (x.put a.val (satInt .fix16 (-(x.loc b.val).value.toInt)) [(x.loc b.val).q] 1 1))) ∧
  (∀ (r : Runner) (a : Fin 256) (b : Fin 256) (s : State) (x : Run), runOf? s r = some x →
    exec (.opFabs r a b) s = .next (withRun s r (x.put a.val (satInt .fix16 (x.loc b.val).value.toInt.natAbs) [(x.loc b.val).q] 1 1))) ∧
  (∀ (r : Runner) (a : Fin 256) (b : Fin 256) (c : Fin 256) (s : State) (x : Run), runOf? s r = some x →
    exec (.opFlim r a b c) s = .next (withRun s r (x.put a.val { w := limWord (x.ty a.val) (x.loc a.val).value (x.loc b.val).value (x.loc c.val).value } [(x.loc a.val).q, (x.loc b.val).q, (x.loc c.val).q] 1 1))) ∧
  (∀ (r : Runner) (a : Fin 256) (b : Fin 256) (n : Fin 32) (s : State) (x : Run), runOf? s r = some x →
    exec (.opFshr r a b n) s = .next (withRun s r (x.put a.val (fixShr (x.loc b.val).value n.val) [(x.loc b.val).q] 1 1)))

/-- The compares of Table 11 and the control instructions of Table 12 complete, and change their run alone (03 R87 to R89). -/
def Obligations.DecendCompareControlComplete : Prop :=
  (∀ (r : Runner) (a : Fin 256) (b : Fin 256) (c : Fin 256) (s : State) (x : Run), runOf? s r = some x →
    exec (.opEq r a b c) s = .next (withRun s r (x.put a.val (cmpWord .eq (x.ty b.val) (x.loc b.val).value (x.loc c.val).value) [(x.loc b.val).q, (x.loc c.val).q] 1 1))) ∧
  (∀ (r : Runner) (a : Fin 256) (b : Fin 256) (c : Fin 256) (s : State) (x : Run), runOf? s r = some x →
    exec (.opNe r a b c) s = .next (withRun s r (x.put a.val (cmpWord .ne (x.ty b.val) (x.loc b.val).value (x.loc c.val).value) [(x.loc b.val).q, (x.loc c.val).q] 1 1))) ∧
  (∀ (r : Runner) (a : Fin 256) (b : Fin 256) (c : Fin 256) (s : State) (x : Run), runOf? s r = some x →
    exec (.opLt r a b c) s = .next (withRun s r (x.put a.val (cmpWord .lt (x.ty b.val) (x.loc b.val).value (x.loc c.val).value) [(x.loc b.val).q, (x.loc c.val).q] 1 1))) ∧
  (∀ (r : Runner) (a : Fin 256) (b : Fin 256) (c : Fin 256) (s : State) (x : Run), runOf? s r = some x →
    exec (.opLe r a b c) s = .next (withRun s r (x.put a.val (cmpWord .le (x.ty b.val) (x.loc b.val).value (x.loc c.val).value) [(x.loc b.val).q, (x.loc c.val).q] 1 1))) ∧
  (∀ (r : Runner) (a : Fin 256) (b : Fin 256) (c : Fin 256) (s : State) (x : Run), runOf? s r = some x →
    exec (.opGt r a b c) s = .next (withRun s r (x.put a.val (cmpWord .gt (x.ty b.val) (x.loc b.val).value (x.loc c.val).value) [(x.loc b.val).q, (x.loc c.val).q] 1 1))) ∧
  (∀ (r : Runner) (a : Fin 256) (b : Fin 256) (c : Fin 256) (s : State) (x : Run), runOf? s r = some x →
    exec (.opGe r a b c) s = .next (withRun s r (x.put a.val (cmpWord .ge (x.ty b.val) (x.loc b.val).value (x.loc c.val).value) [(x.loc b.val).q, (x.loc c.val).q] 1 1))) ∧
  (∀ (r : Runner) (a : Fin 256) (b : Fin 256) (c : Fin 256) (s : State) (x : Run), runOf? s r = some x →
    exec (.opTbef r a b c) s = .next (withRun s r (x.put a.val { w := if 2 ^ 31 ≤ ((x.loc b.val).value - (x.loc c.val).value).toNat then 1 else 0 } [(x.loc b.val).q, (x.loc c.val).q] 1 1))) ∧
  (∀ (r : Runner) (h : Fin 65536) (s : State) (x : Run), runOf? s r = some x →
    exec (.opJmp r h) s = .next (withRun s r ({ x with pc := x.pc + 1 + h.val, cycles := x.cycles + 2, loops := leaveLoops x.loops (x.pc + 1 + h.val) }))) ∧
  (∀ (r : Runner) (a : Fin 256) (h : Fin 65536) (s : State) (x : Run), runOf? s r = some x → (x.loc a.val).value ≠ 0 →
    exec (.opJt r a h) s = .next (withRun s r ({ x with pc := x.pc + 1 + h.val, cycles := x.cycles + 2, loops := leaveLoops x.loops (x.pc + 1 + h.val) }))) ∧
  (∀ (r : Runner) (a : Fin 256) (h : Fin 65536) (s : State) (x : Run), runOf? s r = some x → (x.loc a.val).value = 0 →
    exec (.opJt r a h) s = .next (withRun s r (x.fin 0 1 2))) ∧
  (∀ (r : Runner) (a : Fin 256) (h : Fin 65536) (s : State) (x : Run), runOf? s r = some x → (x.loc a.val).value = 0 →
    exec (.opJf r a h) s = .next (withRun s r ({ x with pc := x.pc + 1 + h.val, cycles := x.cycles + 2, loops := leaveLoops x.loops (x.pc + 1 + h.val) }))) ∧
  (∀ (r : Runner) (a : Fin 256) (h : Fin 65536) (s : State) (x : Run), runOf? s r = some x → (x.loc a.val).value ≠ 0 →
    exec (.opJf r a h) s = .next (withRun s r (x.fin 0 1 2))) ∧
  (∀ (r : Runner) (a : Fin 256) (h : Fin 65536) (s : State) (x : Run), runOf? s r = some x →
    exec (.opLoop r a h) s = .next (withRun s r ({ x.putQ a.val 0 .good 0 1 2 with
      loops := { index := a.val, bound := h.val, body := x.pc + 1, endl := findEndl x.code.length (x.code.drop (x.pc + 1)) (x.pc + 1) 0 } :: x.loops }))) ∧
  (∀ (r : Runner) (f : LoopFrame) (l : List LoopFrame) (s : State) (x : Run), runOf? s r = some x → x.loops = f :: l →
    exec (.opEndl r) s = .next (withRun s r (let y := x.putQ f.index ((x.loc f.index).value + 1) .good 0 1 2
      if ((x.loc f.index).value + 1).toNat < f.bound then { y with pc := f.body } else { y with loops := l }))) ∧
  (∀ (r : Runner) (a : Fin 256) (b : Fin 256) (c : Fin 256) (s : State) (x : Run), runOf? s r = some x →
    exec (.opSel r a b c) s = .next (withRun s r (if (x.loc b.val).value = 0 then x.fin 0 1 1 else x.putQ a.val (x.loc c.val).value (worstQ [(x.loc b.val).q, (x.loc c.val).q]) 0 1 1)))

/-- The table instructions of Table 16 and the point access of Table 13 complete, and change their run alone (03 R92, R98 to R100). -/
def Obligations.DecendTablesPointsComplete : Prop :=
  (∀ (r : Runner) (a : Fin 256) (b : Fin 256) (t : Fin 256) (s : State) (x : Run), runOf? s r = some x →
    exec (.opLutl r a b t) s = .next (withRun s r (x.reading a.val (x.tbl t.val) (lutReads true x (x.tbl t.val) (x.loc b.val).value) (lutCost 8 (x.tbl t.val)) (x.put a.val (lut true x (x.tbl t.val) (x.loc b.val).value) [(x.loc b.val).q] 1 (lutCost 8 (x.tbl t.val)))))) ∧
  (∀ (r : Runner) (a : Fin 256) (b : Fin 256) (t : Fin 256) (s : State) (x : Run), runOf? s r = some x →
    exec (.opLuts r a b t) s = .next (withRun s r (x.reading a.val (x.tbl t.val) (lutReads false x (x.tbl t.val) (x.loc b.val).value) (lutCost 6 (x.tbl t.val)) (x.put a.val (lut false x (x.tbl t.val) (x.loc b.val).value) [(x.loc b.val).q] 1 (lutCost 6 (x.tbl t.val)))))) ∧
  (∀ (r : Runner) (a b t : Fin 256) (s : State) (x : Run), runOf? s r = some x →
    exec (.opHfind r a b t) s = .next (withRun s r (x.reading a.val (x.tbl t.val) (hashReads x (x.tbl t.val) (x.loc b.val).value (x.tbl t.val).probes (hashHome (x.loc b.val).value (x.tbl t.val).count)) (10 + 120 * (x.tbl t.val).probes) (match hashFind x (x.tbl t.val) (x.loc b.val).value with | some v => x.put a.val { w := v } [(x.loc b.val).q] 1 (10 + 120 * (x.tbl t.val).probes) | none => x.putQ a.val 0 .good flRng 1 (10 + 120 * (x.tbl t.val).probes))))) ∧
  (∀ (r : Runner) (a b t : Fin 256) (s : State) (x : Run), runOf? s r = some x →
    exec (.opHhas r a b t) s = .next (withRun s r (x.reading a.val (x.tbl t.val) (hashReads x (x.tbl t.val) (x.loc b.val).value (x.tbl t.val).probes (hashHome (x.loc b.val).value (x.tbl t.val).count)) (10 + 120 * (x.tbl t.val).probes) (match hashFind x (x.tbl t.val) (x.loc b.val).value with | some _ => x.put a.val { w := 1 } [(x.loc b.val).q] 1 (10 + 120 * (x.tbl t.val).probes) | none => x.putQ a.val 0 .good 0 1 (10 + 120 * (x.tbl t.val).probes))))) ∧
  (∀ (r : Runner) (a : Fin 256) (t : Fin 256) (s : State) (x : Run), runOf? s r = some x →
    exec (.opTlen r a t) s = .next (withRun s r (x.putQ a.val (Word.ofNat (x.tbl t.val).count) .good 0 1 2))) ∧
  (∀ (r : Runner) (a : Fin 256) (b : Fin 256) (t : Fin 256) (s : State) (x : Run), runOf? s r = some x →
    exec (.opTrd r a b t) s = .next (withRun s r (if (x.tbl t.val).count ≤ (x.loc b.val).value.toNat then x.putQ a.val 0 .fault flRng 1 (if (x.tbl t.val).inTable then 122 else 3)
      else x.reading a.val (x.tbl t.val) [(x.loc b.val).value.toNat] (if (x.tbl t.val).inTable then 122 else 3) (x.put a.val { w := x.tblWord (x.tbl t.val) (x.loc b.val).value.toNat } [(x.loc b.val).q] 1 (if (x.tbl t.val).inTable then 122 else 3))))) ∧
  (∀ (e sl : Fin 8) (a : Fin 256) (i : Fin 4096) (s : State) (x : Run), runOf? s (.task e sl) = some x →
    exec (.opGet e sl a i) s = .next (withRun s (.task e sl) (x.putQ a.val (x.imports.getD i.val {}).value (x.imports.getD i.val {}).q (if (x.imports.getD i.val {}).q = .good ∨ (x.imports.getD i.val {}).q = .forced then 0 else flQual) 1 3))) ∧
  (∀ (e sl : Fin 8) (a : Fin 256) (i : Fin 4096) (s : State) (x : Run), runOf? s (.task e sl) = some x →
    exec (.opGetq e sl a i) s = .next (withRun s (.task e sl) (x.putQ a.val (Word.ofNat (Quality.code (x.imports.getD i.val {}).q)) .good 0 1 3))) ∧
  (∀ (e sl : Fin 8) (a : Fin 256) (i : Fin 4096) (s : State) (x : Run), runOf? s (.task e sl) = some x →
    exec (.opGets e sl a i) s = .next (withRun s (.task e sl) (x.putQ a.val (Word.ofNat (x.imports.getD i.val {}).seq) .good 0 1 3))) ∧
  (∀ (e sl : Fin 8) (a : Fin 256) (o : Fin 1024) (s : State) (x : Run), runOf? s (.task e sl) = some x →
    exec (.opGeto e sl a o) s = .next (withRun s (.task e sl) (x.putQ a.val (x.outs.getD o.val {}).value (if (x.outs.getD o.val {}).faultReq then .fault else .good) 0 1 3))) ∧
  (∀ (e sl : Fin 8) (a : Fin 256) (o : Fin 1024) (s : State) (x : Run), runOf? s (.task e sl) = some x →
    exec (.opPut e sl a o) s = .next (withRun s (.task e sl) (({ x with outs := listSet x.outs o.val { value := (x.loc a.val).value, faultReq := decide ((x.loc a.val).q = Quality.fault ∨ (x.loc a.val).q = Quality.absent) } }).fin 0 1 3))) ∧
  (∀ (e sl : Fin 8) (a : Fin 256) (o : Fin 1024) (s : State) (x : Run), runOf? s (.task e sl) = some x →
    exec (.opPutg e sl a o) s = .next (withRun s (.task e sl) (({ x with outs := listSet x.outs o.val { value := (x.loc a.val).value, faultReq := false } }).fin 0 1 3))) ∧
  (∀ (e sl : Fin 8) (o : Fin 1024) (s : State) (x : Run), runOf? s (.task e sl) = some x →
    exec (.opPutf e sl o) s = .next (withRun s (.task e sl) (({ x with outs := listSet x.outs o.val { (x.outs.getD o.val {}) with faultReq := true } }).fin 0 1 2)))

/-- The edge, timer and counter instructions of Tables 14 and 15 and the alarms and events of Table 17 complete, and change their run alone (03 R93 to R102). -/
def Obligations.DecendBlocksComplete : Prop :=
  (∀ (e sl : Fin 8) (a : Fin 256) (b : Fin 256) (k : Fin 1024) (s : State) (x : Run), runOf? s (.task e sl) = some x →
    exec (.opEdgr e sl a b k) s = .next (withRun s (.task e sl) (({ x with edges := listSet x.edges k.val { prev := (x.loc b.val).value, primed := true } }).put a.val
      { w := if (x.edges.getD k.val {}).primed && ((x.edges.getD k.val {}).prev = 0 && (x.loc b.val).value != 0) then 1 else 0 } [(x.loc b.val).q] 2 3))) ∧
  (∀ (e sl : Fin 8) (a : Fin 256) (b : Fin 256) (k : Fin 1024) (s : State) (x : Run), runOf? s (.task e sl) = some x →
    exec (.opEdgf e sl a b k) s = .next (withRun s (.task e sl) (({ x with edges := listSet x.edges k.val { prev := (x.loc b.val).value, primed := true } }).put a.val
      { w := if (x.edges.getD k.val {}).primed && ((x.edges.getD k.val {}).prev != 0 && (x.loc b.val).value = 0) then 1 else 0 } [(x.loc b.val).q] 2 3))) ∧
  (∀ (e sl : Fin 8) (a : Fin 256) (b : Fin 256) (k : Fin 1024) (s : State) (x : Run), runOf? s (.task e sl) = some x →
    exec (.opEdgc e sl a b k) s = .next (withRun s (.task e sl) (({ x with edges := listSet x.edges k.val { prev := (x.loc b.val).value, primed := true } }).put a.val
      { w := if (x.edges.getD k.val {}).primed && ((x.edges.getD k.val {}).prev != (x.loc b.val).value) then 1 else 0 } [(x.loc b.val).q] 2 3))) ∧
  (∀ (e sl : Fin 8) (k : Fin 1024) (s : State) (x : Run), runOf? s (.task e sl) = some x →
    exec (.opEdgclr e sl k) s = .next (withRun s (.task e sl) (({ x with edges := listSet x.edges k.val { (x.edges.getD k.val {}) with primed := false } }).fin 0 2 2))) ∧
  (∀ (e sl : Fin 8) (a : Fin 256) (b : Fin 256) (c : Fin 256) (s : State) (x : Run), runOf? s (.task e sl) = some x →
    exec (.opTon e sl a b c) s = .next (withRun s (.task e sl) (({ x with timers := listSet x.timers c.val (tonStep (x.timers.getD c.val {}) ((x.loc b.val).value != 0) x.relTime) }).put a.val { w := if (tonStep (x.timers.getD c.val {}) ((x.loc b.val).value != 0) x.relTime).q then 1 else 0 } [(x.loc b.val).q] 1 4))) ∧
  (∀ (e sl : Fin 8) (a : Fin 256) (b : Fin 256) (c : Fin 256) (s : State) (x : Run), runOf? s (.task e sl) = some x →
    exec (.opTof e sl a b c) s = .next (withRun s (.task e sl) (({ x with timers := listSet x.timers c.val (tofStep (x.timers.getD c.val {}) ((x.loc b.val).value != 0) x.relTime) }).put a.val { w := if (tofStep (x.timers.getD c.val {}) ((x.loc b.val).value != 0) x.relTime).q then 1 else 0 } [(x.loc b.val).q] 1 4))) ∧
  (∀ (e sl : Fin 8) (a : Fin 256) (b : Fin 256) (c : Fin 256) (s : State) (x : Run), runOf? s (.task e sl) = some x →
    exec (.opTp e sl a b c) s = .next (withRun s (.task e sl) (({ x with timers := listSet x.timers c.val (tpStep (x.timers.getD c.val {}) ((x.loc b.val).value != 0) x.relTime) }).put a.val { w := if (tpStep (x.timers.getD c.val {}) ((x.loc b.val).value != 0) x.relTime).q then 1 else 0 } [(x.loc b.val).q] 1 4))) ∧
  (∀ (e sl : Fin 8) (b : Fin 256) (c : Fin 256) (s : State) (x : Run), runOf? s (.task e sl) = some x →
    exec (.opTpre e sl b c) s = .next (withRun s (.task e sl) (({ x with timers := listSet x.timers c.val { (x.timers.getD c.val {}) with preset := (x.loc b.val).value.toNat } }).fin 0 1 2))) ∧
  (∀ (e sl : Fin 8) (a : Fin 256) (c : Fin 256) (s : State) (x : Run), runOf? s (.task e sl) = some x →
    exec (.opTelp e sl a c) s = .next (withRun s (.task e sl) (x.putQ a.val (Word.ofNat (x.timers.getD c.val {}).et) .good 0 1 2))) ∧
  (∀ (e sl : Fin 8) (c : Fin 256) (s : State) (x : Run), runOf? s (.task e sl) = some x →
    exec (.opTrst e sl c) s = .next (withRun s (.task e sl) (({ x with timers := listSet x.timers c.val { (x.timers.getD c.val {}) with run := false, et := 0, q := false, inPrev := false } }).fin 0 1 2))) ∧
  (∀ (e sl : Fin 8) (a : Fin 256) (b : Fin 256) (c : Fin 256) (s : State) (x : Run), runOf? s (.task e sl) = some x →
    exec (.opCtu e sl a b c) s = .next (withRun s (.task e sl) (({ x with counters := listSet x.counters c.val { (x.counters.getD c.val {}) with cv := (if (x.loc b.val).value = 0 then { w := (x.counters.getD c.val {}).cv } else satInt .int32 ((x.counters.getD c.val {}).cv.toInt + 1) : Res).w } }).put a.val
      { w := if (x.counters.getD c.val {}).pv.toInt ≤ (if (x.loc b.val).value = 0 then { w := (x.counters.getD c.val {}).cv } else satInt .int32 ((x.counters.getD c.val {}).cv.toInt + 1) : Res).w.toInt then 1 else 0, fl := (if (x.loc b.val).value = 0 then { w := (x.counters.getD c.val {}).cv } else satInt .int32 ((x.counters.getD c.val {}).cv.toInt + 1) : Res).fl } [(x.loc b.val).q] 1 3))) ∧
  (∀ (e sl : Fin 8) (a : Fin 256) (b : Fin 256) (c : Fin 256) (s : State) (x : Run), runOf? s (.task e sl) = some x →
    exec (.opCtd e sl a b c) s = .next (withRun s (.task e sl) (({ x with counters := listSet x.counters c.val { (x.counters.getD c.val {}) with cv := (if (x.loc b.val).value = 0 then { w := (x.counters.getD c.val {}).cv } else satInt .int32 ((x.counters.getD c.val {}).cv.toInt - 1) : Res).w } }).put a.val
      { w := if (if (x.loc b.val).value = 0 then { w := (x.counters.getD c.val {}).cv } else satInt .int32 ((x.counters.getD c.val {}).cv.toInt - 1) : Res).w.toInt ≤ 0 then 1 else 0, fl := (if (x.loc b.val).value = 0 then { w := (x.counters.getD c.val {}).cv } else satInt .int32 ((x.counters.getD c.val {}).cv.toInt - 1) : Res).fl } [(x.loc b.val).q] 1 3))) ∧
  (∀ (e sl : Fin 8) (c : Fin 256) (s : State) (x : Run), runOf? s (.task e sl) = some x →
    exec (.opCrst e sl c) s = .next (withRun s (.task e sl) (({ x with counters := listSet x.counters c.val { (x.counters.getD c.val {}) with cv := 0 } }).fin 0 1 2))) ∧
  (∀ (e sl : Fin 8) (c : Fin 256) (s : State) (x : Run), runOf? s (.task e sl) = some x →
    exec (.opCld e sl c) s = .next (withRun s (.task e sl) (({ x with counters := listSet x.counters c.val { (x.counters.getD c.val {}) with cv := (x.counters.getD c.val {}).pv } }).fin 0 1 2))) ∧
  (∀ (e sl : Fin 8) (b : Fin 256) (c : Fin 256) (s : State) (x : Run), runOf? s (.task e sl) = some x →
    exec (.opCpre e sl b c) s = .next (withRun s (.task e sl) (({ x with counters := listSet x.counters c.val { (x.counters.getD c.val {}) with pv := (x.loc b.val).value } }).fin 0 1 2))) ∧
  (∀ (e sl : Fin 8) (a : Fin 256) (c : Fin 256) (s : State) (x : Run), runOf? s (.task e sl) = some x →
    exec (.opCget e sl a c) s = .next (withRun s (.task e sl) (x.putQ a.val (x.counters.getD c.val {}).cv .good 0 1 2))) ∧
  (∀ (e sl : Fin 8) (b : Fin 256) (c : Fin 256) (s : State) (x : Run), runOf? s (.task e sl) = some x → ((x.alarms.getD c.val {}).held = none ∧ (x.alarms.getD c.val {}).ackLatch = false ∧ (x.loc b.val).q ≠ .fault ∧ (x.loc b.val).q ≠ .absent) →
    exec (.opAlm e sl b c) s = .next (withRun s (.task e sl) (({ (almEval x (x.alarms.getD c.val {}) ((x.loc b.val).value != 0) (x.loc b.val) (x.ty b.val)).1 with
      alarms := listSet (almEval x (x.alarms.getD c.val {}) ((x.loc b.val).value != 0) (x.loc b.val) (x.ty b.val)).1.alarms c.val (almEval x (x.alarms.getD c.val {}) ((x.loc b.val).value != 0) (x.loc b.val) (x.ty b.val)).2 }).fin 0 1 4))) ∧
  (∀ (e sl : Fin 8) (a : Fin 256) (c : Fin 256) (s : State) (x : Run), runOf? s (.task e sl) = some x →
    exec (.opAlmq e sl a c) s = .next (withRun s (.task e sl) (x.putQ a.val (Word.ofNat ((x.alarms.getD c.val {}).state.code + (if (x.alarms.getD c.val {}).held.isSome then 4 else 0))) .good 0 1 2))) ∧
  (∀ (e sl : Fin 8) (b : Fin 256) (c : Fin 256) (s : State) (x : Run), runOf? s (.task e sl) = some x →
    exec (.opEvt e sl b c) s = .next (withRun s (.task e sl) ((x.post (x.event .evt c.val (x.loc b.val) (x.ty b.val))).fin 0 1 4))) ∧
  (∀ (e sl : Fin 8) (b : Fin 256) (c : Fin 256) (s : State) (x : Run), runOf? s (.task e sl) = some x →
    exec (.opTrnd e sl b c) s = .next (withRun s (.task e sl) ((x.post (x.event .trend c.val (x.loc b.val) (x.ty b.val))).fin 0 1 4))) ∧
  (∀ (e sl : Fin 8) (b : Fin 256) (c : Fin 256) (s : State) (x : Run), runOf? s (.task e sl) = some x →
    exec (.opEvsig e sl b c) s = .next (withRun s (.task e sl) ((x.post (x.event .evsig c.val (x.loc b.val) (x.ty b.val))).fin 0 1 4))) ∧
  (∀ (e sl : Fin 8) (c : Fin 256) (s : State) (x : Run), runOf? s (.task e sl) = some x →
    exec (.opEvdig e sl c) s = .next (withRun s (.task e sl) ((x.post { x.event .evdig c.val {} .bool with image := x.outs }).fin 0 1 (6 + (x.outs.length + 3) / 4))))

/-- The commands of cyclic execution answer a next state with their own effect (04 R110 to R138, 03 R101). -/
def Obligations.TaskCommandsComplete : Prop :=
  (∀ s : State, ∃ t, exec .gridTick s = .next t ∧ t.pending = s.pending ∧ s.mono ≤ t.mono ∧
    t = feTick (trussAtTick (meTick (releaseTasks (releaseTick (finishDoze (failTick (modeTick (advanceTick s))))))))) ∧
  (∀ s : State, s.pt.waiting = [] →
    advanceTick s = { passCycles s (tickLen s - s.fc) with
      tick := (s.tick + 1) % tickMod, mono := s.mono + 1, fc := 0, sub := 0, subEl := s.subEl + (4 - s.sub),
      gridAcc := (Int.emod (tickShift s) 100000000).toNat, pt := { s.pt with loopOuts := [] } }) ∧
  (∀ (e : Fin 8) (k : Nat) (x : Task) (s : State), commitDue s = none →
    leastBy gatherBefore (s.tasks.filter (fun kt => kt.1 / 8 == e.val && kt.2.phase == .released)) = some (k, x) →
    ∃ t, exec (.taskGather e) s = .next t ∧ t.pt = s.pt ∧
      t.tasks = tabPut s.tasks k { x with phase := .ready, run := { x.run with imports := x.dfn.imports.map (gatherOne s) } }) ∧
  (∀ (e : Fin 8) (k : Nat) (x : Task) (s : State), engineBusy s e.val = false →
    leastBy runBefore (s.tasks.filter (fun kt => kt.1 / 8 == e.val && (kt.2.phase == .ready || kt.2.phase == .preempted))) = some (k, x) →
    s.tasks.find? (fun kt => kt.1 / 8 == e.val && kt.2.phase == .running) = none →
    exec (.taskDispatch e) s = .next (updActivity (putTask s k { x with phase := .running }) e.val)) ∧
  (∀ (e : Fin 8) (k k0 : Nat) (x x0 : Task) (s : State), engineBusy s e.val = false →
    leastBy runBefore (s.tasks.filter (fun kt => kt.1 / 8 == e.val && (kt.2.phase == .ready || kt.2.phase == .preempted))) = some (k, x) →
    s.tasks.find? (fun kt => kt.1 / 8 == e.val && kt.2.phase == .running) = some (k0, x0) → x.deadline < x0.deadline →
    exec (.taskDispatch e) s = .next (updActivity (incF (putTask (putTask s k0 { x0 with phase := .preempted }) k { x with phase := .running })
      (Fld.LE_E_STAT_PREEMPTS e.val)) e.val)) ∧
  (∀ (e sl : Fin 8) (x : Task) (s : State), taskAt? s e sl = some x → x.phase = .running → gathersFirst s e = false → forced s .taskOverrun (taskKey e sl) = false →
    forced s .taskLimit (taskKey e sl) = false →
    exec (.opEnd (.task e sl)) s = .next (updActivity (endReport (putTask s (taskKey e sl) { x with run := rEnd x.run, phase := .scatter }) (taskKey e sl)
      { x with run := rEnd x.run, phase := .scatter }) e.val)) ∧
  (∀ s : State, exec (.opEnd .joinery) s = .next { s with jrun := rEnd s.jrun }) ∧
  (∀ (e sl : Fin 8) (x : Task) (s : State), taskAt? s e sl = some x → x.phase = .scatter → gathersFirst s e = false →
    exec (.taskScatter e sl) s = .next (scatterTask s (taskKey e sl) x)) ∧
  (∀ (e sl : Fin 8) (x : Task) (s : State), taskAt? s e sl = some x → x.scatterDue = true →
    exec (.stopScatter e sl) s = .next (scatterOuts (putTask s (taskKey e sl) { x with scatterDue := false, run := { x.run with outs := stopOuts x.dfn.outs x.run.outs } })
      (taskKey e sl) x.dfn.outs (stopOuts x.dfn.outs x.run.outs))) ∧
  (∀ (e sl : Fin 8) (s : State), (modeOf s = 0 ∨ modeOf s = 1) → taskState s (taskKey e sl) = 2 →
    exec (.taskRunCmd e sl) s = .next (requestRun (setFs s [(Fld.LE_T_CMD_OP e.val sl.val, 1), (Fld.LE_T_CMD_RESULT e.val sl.val, 0),
      (Fld.LE_T_CMD_BUSY e.val sl.val, 0), (Fld.LE_T_CMD_GO e.val sl.val, 0)]) (taskKey e sl))) ∧
  (∀ (e sl : Fin 8) (s : State), modeOf s ≤ 2 → taskState s (taskKey e sl) ≠ 0 → Inv s →
    exec (.taskStopCmd e sl) s = .next (requestStop (setFs s [(Fld.LE_T_CMD_OP e.val sl.val, 2), (Fld.LE_T_CMD_RESULT e.val sl.val, 0),
      (Fld.LE_T_CMD_BUSY e.val sl.val, 0), (Fld.LE_T_CMD_GO e.val sl.val, 0)]) (taskKey e sl) 1)) ∧
  (∀ (e sl : Fin 8) (s : State), modeOf s = 0 → taskState s (taskKey e sl) ≠ 0 → Inv s →
    exec (.taskHoldCmd e sl) s = .next (requestHold (setFs s [(Fld.LE_T_CMD_OP e.val sl.val, 3), (Fld.LE_T_CMD_RESULT e.val sl.val, 0),
      (Fld.LE_T_CMD_BUSY e.val sl.val, 0), (Fld.LE_T_CMD_GO e.val sl.val, 0)]) (taskKey e sl) false)) ∧
  (∀ (e sl : Fin 8) (s : State), (modeOf s = 0 ∨ modeOf s = 2) → taskState s (taskKey e sl) = 3 →
    exec (.taskStepCmd e sl) s = .next (requestStep (setFs s [(Fld.LE_T_CMD_OP e.val sl.val, 4), (Fld.LE_T_CMD_RESULT e.val sl.val, 0),
      (Fld.LE_T_CMD_BUSY e.val sl.val, 0), (Fld.LE_T_CMD_GO e.val sl.val, 0)]) (taskKey e sl))) ∧
  (∀ (e sl : Fin 8) (s : State), taskState s (taskKey e sl) ≠ 0 →
    exec (.taskClearStats e sl) s = .next (setFs s [(Fld.LE_T_CMD_OP e.val sl.val, 7), (Fld.LE_T_CMD_RESULT e.val sl.val, 0),
      (Fld.LE_T_CMD_BUSY e.val sl.val, 0), (Fld.LE_T_CMD_GO e.val sl.val, 0), (Fld.LE_T_MAXCOST_MAX e.val sl.val, 0), (Fld.LE_T_FLAGS_STICKY e.val sl.val, 0),
      (Fld.LE_T_SNAP_MAX_END e.val sl.val, 0), (Fld.LE_T_RESP_MAX_US e.val sl.val, 0)])) ∧
  (∀ (e sl : Fin 8) (s : State), Inv s →
    ∃ t, exec (.maxcostClear e sl) s = .next t ∧ getF t (Fld.LE_T_MAXCOST_MAX e.val sl.val) = 0 ∧ t = setF s (Fld.LE_T_MAXCOST_MAX e.val sl.val) 0) ∧
  (∀ (e : Fin 8) (s : State), engineRuns s (if e.val < 4 then 6 else 7) = true → blockHeld s e.val = false →
    exec (.taskResume e) s = .next ((engineKeys s e.val).foldl resumeTask s)) ∧
  (∀ (e sl : Fin 8) (x : Task) (s : State), taskAt? s e sl = some x → runOver x = true →
    exec (.eventSign e sl) s = .next { s with tasks := tabPut s.tasks (taskKey e sl) { x with run := { x.run with
      events := updFirst unsigned (signWith s x.dfn.signSlot) x.run.events } } }) ∧
  (∀ (e sl : Fin 8) (x : Task) (s : State), taskAt? s e sl = some x → runOver x = true →
    exec (.eventDigest e sl) s = .next { s with tasks := tabPut s.tasks (taskKey e sl) { x with run := { x.run with
      events := updFirst undigested digestOf x.run.events } } }) ∧
  (∀ (e sl : Fin 8) (x : Task) (s : State), taskAt? s e sl = some x →
    exec (.eventQueueDrain e sl) s = .next ((drainable x.run.events).foldl (fun s r => drainRec s (taskKey e sl) r)
      (putTask s (taskKey e sl) { x with run := { x.run with events := x.run.events.drop (drainable x.run.events).length } })))

/-- A definition instruction of a joinery run in STAGING stages the item that its descriptor spells, and an aborting one stages nothing and ends the run (03 R103 to R105, R539). -/
def Obligations.JoineryDefinitionsStage : Prop :=
  (∀ (h : Fin 65536) (s : State), scfState s = 1 → s.jrun.ended = false → joinBreach s 0x90 (fun k => (s.jrun.consts.getD (h.val + k) 0).toNat) = false → descBad s 0x90 (fun k => (s.jrun.consts.getD (h.val + k) 0).toNat) = false →
    exec (.opDefpt h) s = .next { s with
      scf := { s.scf with staging := stageDef s 0x90 ((List.range (defKind 0x90).2).map (fun k => (s.jrun.consts.getD (h.val + k) 0).toNat)) }, jrun := s.jrun.fin 0 1 1 }) ∧
  (∀ (h : Fin 65536) (s : State), scfState s = 1 → s.jrun.ended = false → joinBreach s 0x91 (fun k => (s.jrun.consts.getD (h.val + k) 0).toNat) = false → descBad s 0x91 (fun k => (s.jrun.consts.getD (h.val + k) 0).toNat) = false →
    exec (.opDefgr h) s = .next { s with
      scf := { s.scf with staging := stageDef s 0x91 ((List.range (defKind 0x91).2).map (fun k => (s.jrun.consts.getD (h.val + k) 0).toNat)) }, jrun := s.jrun.fin 0 1 1 }) ∧
  (∀ (h : Fin 65536) (s : State), scfState s = 1 → s.jrun.ended = false → joinBreach s 0x92 (fun k => (s.jrun.consts.getD (h.val + k) 0).toNat) = false → descBad s 0x92 (fun k => (s.jrun.consts.getD (h.val + k) 0).toNat) = false →
    exec (.opDefctx h) s = .next { s with
      scf := { s.scf with staging := stageDef s 0x92 ((List.range (defKind 0x92).2).map (fun k => (s.jrun.consts.getD (h.val + k) 0).toNat)) }, jrun := s.jrun.fin 0 1 1 }) ∧
  (∀ (h : Fin 65536) (s : State), scfState s = 1 → s.jrun.ended = false → joinBreach s 0x93 (fun k => (s.jrun.consts.getD (h.val + k) 0).toNat) = false → descBad s 0x93 (fun k => (s.jrun.consts.getD (h.val + k) 0).toNat) = false →
    exec (.opDefvid h) s = .next { s with
      scf := { s.scf with staging := stageDef s 0x93 ((List.range (defKind 0x93).2).map (fun k => (s.jrun.consts.getD (h.val + k) 0).toNat)) }, jrun := s.jrun.fin 0 1 1 }) ∧
  (∀ (h : Fin 65536) (s : State), scfState s = 1 → s.jrun.ended = false → joinBreach s 0x94 (fun k => (s.jrun.consts.getD (h.val + k) 0).toNat) = false → descBad s 0x94 (fun k => (s.jrun.consts.getD (h.val + k) 0).toNat) = false →
    exec (.opDefloop h) s = .next { s with
      scf := { s.scf with staging := stageDef s 0x94 ((List.range (defKind 0x94).2).map (fun k => (s.jrun.consts.getD (h.val + k) 0).toNat)) }, jrun := s.jrun.fin 0 1 1 }) ∧
  (∀ (h : Fin 65536) (s : State), scfState s = 1 → s.jrun.ended = false → joinBreach s 0x95 (fun k => (s.jrun.consts.getD (h.val + k) 0).toNat) = false → descBad s 0x95 (fun k => (s.jrun.consts.getD (h.val + k) 0).toNat) = false →
    exec (.opDefgrp h) s = .next { s with
      scf := { s.scf with staging := stageDef s 0x95 ((List.range (defKind 0x95).2).map (fun k => (s.jrun.consts.getD (h.val + k) 0).toNat)) }, jrun := s.jrun.fin 0 1 1 }) ∧
  (∀ (h : Fin 65536) (s : State), scfState s = 1 → s.jrun.ended = false → joinBreach s 0x96 (fun k => (s.jrun.consts.getD (h.val + k) 0).toNat) = false → descBad s 0x96 (fun k => (s.jrun.consts.getD (h.val + k) 0).toNat) = false →
    exec (.opDefcirc h) s = .next { s with
      scf := { s.scf with staging := stageDef s 0x96 ((List.range (defKind 0x96).2).map (fun k => (s.jrun.consts.getD (h.val + k) 0).toNat)) }, jrun := s.jrun.fin 0 1 1 }) ∧
  (∀ (h : Fin 65536) (s : State), scfState s = 1 → s.jrun.ended = false → joinBreach s 0x97 (fun k => (s.jrun.consts.getD (h.val + k) 0).toNat) = false → descBad s 0x97 (fun k => (s.jrun.consts.getD (h.val + k) 0).toNat) = false →
    exec (.opDefmap h) s = .next { s with
      scf := { s.scf with staging := stageDef s 0x97 ((List.range (defKind 0x97).2).map (fun k => (s.jrun.consts.getD (h.val + k) 0).toNat)) }, jrun := s.jrun.fin 0 1 1 }) ∧
  (∀ (h : Fin 65536) (s : State), scfState s = 1 → s.jrun.ended = false → joinBreach s 0x98 (fun k => (s.jrun.consts.getD (h.val + k) 0).toNat) = false → descBad s 0x98 (fun k => (s.jrun.consts.getD (h.val + k) 0).toNat) = false →
    exec (.opDefexp h) s = .next { s with
      scf := { s.scf with staging := stageDef s 0x98 ((List.range (defKind 0x98).2).map (fun k => (s.jrun.consts.getD (h.val + k) 0).toNat)) }, jrun := s.jrun.fin 0 1 1 }) ∧
  (∀ (h : Fin 65536) (s : State), scfState s = 1 → s.jrun.ended = false → joinBreach s 0x99 (fun k => (s.jrun.consts.getD (h.val + k) 0).toNat) = false → descBad s 0x99 (fun k => (s.jrun.consts.getD (h.val + k) 0).toNat) = false →
    exec (.opAdmit h) s = .next { s with
      scf := { s.scf with staging := stageDef s 0x99 ((List.range (defKind 0x99).2).map (fun k => (s.jrun.consts.getD (h.val + k) 0).toNat)) }, jrun := s.jrun.fin 0 1 1 }) ∧
  (∀ (h : Fin 65536) (s : State), scfState s = 1 → s.jrun.ended = false → joinBreach s 0x9A (fun k => (s.jrun.consts.getD (h.val + k) 0).toNat) = false → descBad s 0x9A (fun k => (s.jrun.consts.getD (h.val + k) 0).toNat) = false →
    exec (.opDeldef h) s = .next { s with
      scf := { s.scf with staging := stageDef s 0x9A ((List.range (defKind 0x9A).2).map (fun k => (s.jrun.consts.getD (h.val + k) 0).toNat)) }, jrun := s.jrun.fin 0 1 1 }) ∧
  (∀ (h : Fin 65536) (s : State), scfState s = 1 → s.jrun.ended = false → (joinBreach s 0x90 (fun k => (s.jrun.consts.getD (h.val + k) 0).toNat) = true ∨ descBad s 0x90 (fun k => (s.jrun.consts.getD (h.val + k) 0).toNat) = true) →
    exec (.opDefpt h) s = .next { s with jrun := { s.jrun with ended := true } })

/-- The commands of the scarf at one module answer a next state with their own effect (05 R141 to R161). -/
def Obligations.ScarfCommandsComplete : Prop :=
  (∀ (h : TrussHdr) (id : Word) (target : Fin 512) (tenant : Fin 4096) (images : List Image) (tick : Option (Fin 281474976710656)) (ps : List (Fin 512 × List Image)) (policy : Bool) (tn : Nat)
    (c : Change) (s u : State),
    c = { id := (freshFree u).1 % 2 ^ 32, images := if ps.isEmpty then images else (ps.filter (fun p => p.1.val = selfNumber u)).flatMap (fun p => p.2),
          tenant := (match (if ps.isEmpty then images else ps.flatMap (fun p => p.2)) with | i :: _ => imageTenant i | [] => tn), tick := tick.map (fun t => t.val),
          request := some (id.toNat, tn), estate := !ps.isEmpty, manager := selfNumber u, policy := policy, parts := ps.map (fun p => (p.1.val, p.2)) } →
    getF u Fld.LC_STATE_STATE ≠ 4 → (ps = [] ∨ isManager u = true) → countOk images (ps.map (fun p => (p.1.val, p.2))) = true →
    modeOf u ≤ 3 → u.scf.queue.length < 16 → (u.scf.queue.filter (fun x => x.tenant = c.tenant)).length < 2 →
    takeRequest s h id.toNat tenant.val = (u, some tn) → (target.val = selfNumber u ∨ getB u Fld.TR_SELF_NUMBERED = false) →
    exec (.changeSubmit ⟨some h, id⟩ target tenant images tick ps policy) s = .next (updQueue { (freshFree u).2 with scf := { u.scf with queue := u.scf.queue ++ [c] } })) ∧
  (∀ (id : Word) (target : Fin 512) (tenant : Fin 4096) (images : List Image) (tick : Option (Fin 281474976710656)) (ps : List (Fin 512 × List Image)) (policy : Bool)
    (c : Change) (s u : State),
    c = { id := (freshFree u).1 % 2 ^ 32, images := if ps.isEmpty then images else (ps.filter (fun p => p.1.val = selfNumber u)).flatMap (fun p => p.2),
          tenant := (match (if ps.isEmpty then images else ps.flatMap (fun p => p.2)) with | i :: _ => imageTenant i | [] => 4095), tick := tick.map (fun t => t.val),
          request := some (id.toNat, 4095), estate := !ps.isEmpty, manager := selfNumber u, policy := policy, parts := ps.map (fun p => (p.1.val, p.2)) } →
    getF u Fld.LC_STATE_STATE ≠ 4 → (ps = [] ∨ isManager u = true) → countOk images (ps.map (fun p => (p.1.val, p.2))) = true →
    modeOf u ≤ 3 → u.scf.queue.length < 16 → (u.scf.queue.filter (fun x => x.tenant = c.tenant)).length < 2 →
    u = { s with tr := { s.tr with askers := tabDel s.tr.askers id.toNat } } → getB u Fld.LC_STATE_DEBUG_OPEN = true →
    exec (.changeSubmit ⟨none, id⟩ target tenant images tick ps policy) s = .next (updQueue { (freshFree u).2 with scf := { u.scf with queue := u.scf.queue ++ [c] } })) ∧
  (∀ (c : Change) (r : List Change) (s : State), s.scf.queue = c :: r → scfState s = 0 → modeOf s ≤ 2 → c.parts = [] →
    exec .scarfStage s = .next (stageInHand (setFs s [(Fld.SCF_STATE_STATE, 1), (Fld.SCF_STATE_ESTATE, b2n c.estate), (Fld.SCF_STATE_IMAGES, min c.images.length 8),
      (Fld.SCF_CHANGE_ID_ID, c.id)]) c true)) ∧
  (∀ (c : Change) (r : List Change) (s : State), s.scf.queue = c :: r → scfState s = 3 → c.estate = false →
    targetOk s (getF s Fld.SCF_TICK_LO_TARGET_LO + 2 ^ 32 * getF s Fld.SCF_TICK_HI_TARGET_HI) = true →
    exec .armAt s = .next (armFor (setFs s [(Fld.SCF_CMD_OP, 2), (Fld.SCF_CMD_RESULT, 0), (Fld.SCF_CMD_BUSY, 0), (Fld.SCF_CMD_GO, 0)])
      (getF s Fld.SCF_TICK_LO_TARGET_LO + 2 ^ 32 * getF s Fld.SCF_TICK_HI_TARGET_HI))) ∧
  (∀ s : State, scfState s = 3 → s.scf.lastCommit ≠ some s.el →
    exec .scfAbort s = .next (endChange (setFs s [(Fld.SCF_CMD_OP, 1), (Fld.SCF_CMD_RESULT, 0), (Fld.SCF_CMD_BUSY, 0), (Fld.SCF_CMD_GO, 0)]) 3)) ∧
  (∀ (c : Change) (r : List Change) (s : State), s.scf.queue = c :: r → scfState s = 4 → c.estate = false → s.tick < s.scf.target → s.scf.lastCommit ≠ some s.el →
    exec .scfAbort s = .next (endChange (setFs s [(Fld.SCF_CMD_OP, 1), (Fld.SCF_CMD_RESULT, 0), (Fld.SCF_CMD_BUSY, 0), (Fld.SCF_CMD_GO, 0)]) 3)) ∧
  (∀ s : State, exec .scfClearStat s = .next (setFs s [(Fld.SCF_CMD_OP, 3), (Fld.SCF_CMD_RESULT, 0), (Fld.SCF_CMD_BUSY, 0), (Fld.SCF_CMD_GO, 0),
    (Fld.SCF_STAT_COMMITS, 0), (Fld.SCF_STAT_LATE, 0), (Fld.SCF_STAT_LOCK_REFUSALS, 0)])) ∧
  (∀ (c : Change) (r : List Change) (s : State), s.scf.queue = c :: r → scfState s = 4 → c.estate = false → s.scf.target ≤ s.tick →
    exec .scarfCommit s = .next (applyChange s c)) ∧
  (∀ (c : Change) (r : List Change) (s : State), s.scf.queue = c :: r → scfState s = 4 → c.estate = true → getB s Fld.SCF_ESTATE_GO_HELD = false →
    s.scf.target ≤ s.tick → exec .scarfCommit s = .next (raise (setF s Fld.SCF_STATE_STATE 5) .scfInDoubt)) ∧
  (∀ s u : State, s.scf.nandDue = true → grantNow s .nand = (u, true) → exec (.configNandWrite true) s = .next (pegReturn { u with
    scf := { u.scf with nand := some { defs := u.scf.defs, regs := u.regs.filter (fun kv => isStaged kv.1), applied := u.scf.applied }, nandDue := false } } .nand)) ∧
  (∀ (ok : Bool) (s u : State), s.scf.nandDue = true → grantNow s .nand = (u, false) → exec (.configNandWrite ok) s = .next u)

/-- The frames of an estate change that Truss accepts, and its timed events, answer a next state with their own effect (05 R154 to R158). -/
def Obligations.EstateCommandsComplete : Prop :=
  (∀ (h : TrussHdr) (change : Word) (policy : Bool) (images : List Image) (c : Change) (s u : State), trussAccept s h 0x20 = (u, true) → 1 ≤ images.length → images.length ≤ 8 →
    c = { id := change.toNat, images := images, tenant := (match images with | i :: _ => imageTenant i | [] => 4095), estate := true, manager := h.src.val, policy := policy } →
    modeOf u ≤ 3 → u.scf.queue.length < 16 → (u.scf.queue.filter (fun x => x.tenant = c.tenant)).length < 2 →
    exec (.estateOffer h change policy images) s = .next (updQueue { u with scf := { u.scf with queue := u.scf.queue ++ [c] } })) ∧
  (∀ (h : TrussHdr) (change : Word) (c : Coord) (s u : State), trussAccept s h 0x21 = (u, true) → u.scf.coord = some c → c.id = change.toNat → c.target = none → c.decided = none →
    c.parts.any (fun p => p.module_ = h.src.val) = true →
    exec (.estateReady h change 0) s = .next (armIfReady (mapCoord (mapScf u (fun f => { f with unresolved := f.unresolved.filter (fun x => !(x.module_ = h.src.val && x.change = change.toNat && x.told)) }))
      (fun c => { c with parts := c.parts.map (fun p => if p.module_ = h.src.val then { p with ready := some 0 } else p) })))) ∧
  (∀ (h : TrussHdr) (change : Word) (tick : Fin 281474976710656) (c : Change) (r : List Change) (s u : State), trussAccept s h 0x22 = (u, true) → u.scf.queue = c :: r → scfState u = 3 → c.estate = true → c.id = change.toNat →
    getB u Fld.LE_GSTAT_STEERED = true → u.tick + 200 < tick.val →
    exec (.estateArm h change tick) s = .next (trSend (armFor u tick.val) 0x23 h.src.val [change.toNat])) ∧
  (∀ (h : TrussHdr) (change : Word) (c : Coord) (s u : State), trussAccept s h 0x23 = (u, true) → u.scf.coord = some c → c.id = change.toNat → c.target.isSome = true → c.decided = none →
    c.parts.any (fun p => p.module_ = h.src.val && !p.acked && !p.excluded) = true →
    exec (.estateAck h change) s = .next (setF (mapCoord u (fun c => { c with parts := c.parts.map (fun p => if p.module_ = h.src.val then { p with acked := true } else p) })) Fld.SCF_ESTATE_ACKED
      (getF u Fld.SCF_ESTATE_ACKED + 1))) ∧
  (∀ (c : Coord) (s : State), s.scf.coord = some c → c.target.isSome = true → c.decided = none → c.parts.filter (fun p => !p.excluded && !p.acked) = [] →
    exec .estateDecision s = .next (takeDecision (mapCoord s (fun c => { c with parts := c.parts.map (fun p => { p with excluded := p.excluded || !p.acked }) })) true 0)) ∧
  (∀ (h : TrussHdr) (change : Word) (c : Change) (r : List Change) (s u : State), trussAccept s h 0x24 = (u, true) → forcedOnce u .scfInDoubt 0 = false → u.scf.queue = c :: r → scfState u = 4 → c.estate = true → c.id = change.toNat →
    exec (.estateGo h change) s = .next (setF u Fld.SCF_ESTATE_GO_HELD 1)) ∧
  (∀ (h : TrussHdr) (change : Word) (c : Change) (r : List Change) (s u : State), trussAccept s h 0x25 = (u, true) → forcedOnce u .scfInDoubt 0 = false → u.scf.queue = c :: r → (scfState u = 3 ∨ scfState u = 4) → c.estate = true → c.id = change.toNat →
    exec (.estateCancel h change) s = .next (endChange u 3)) ∧
  (∀ (h : TrussHdr) (change : Word) (tick : Fin 281474976710656) (images : List Image) (c : Change) (r : List Change) (s u : State), trussAccept s h 0x26 = (u, true) → u.scf.queue = c :: r → scfState u ≠ 0 → c.estate = true → c.id = change.toNat →
    exec (.estateOutcome h change false tick images) s = .next (endChange u 3)) ∧
  (∀ (c : Coord) (s : State), s.scf.coord = some c → c.offered + 40000 ≤ s.mono → c.target = none → c.decided = none → c.policy = false →
    c.parts.any (fun p => !p.excluded && p.ready.isNone) = true → exec .estateReadyTimeout s = .next (cancelEstate s 4)) ∧
  (∀ (c : Change) (r : List Change) (m : Nat) (s : State), s.scf.queue = c :: r → scfState s = 3 → c.estate = true → s.scf.readyAt = some m → m + 40000 ≤ s.mono →
    exec .estateArmTimeout s = .next (endChange s 4))

/-- The commands of the loop engines answer a next state with their own effect (06 R163 to R193, 01 R25). -/
def Obligations.LoopCommandsComplete : Prop :=
  (∀ s : State, s.sub < 4 → engineRuns s 8 = true →
    exec .subTick s = .next (((nextSubTick s).loops.map (fun kl => kl.1)).filter (fun n => !blockHeld (nextSubTick s) (8 + loopEngine n)) |>.foldl subTickLoop (nextSubTick s))) ∧
  (∀ s : State, s.sub < 4 → engineRuns s 8 = false → exec .subTick s = .next (nextSubTick s)) ∧
  (∀ s : State, s.pt.waiting = [] → nextSubTick s = { passCycles s (15625 * s.sub - s.fc) with sub := s.sub + 1, subEl := s.subEl + 1 }) ∧
  (∀ (n : Fin 4096) (l : Loop) (s : State), loopAt? s n.val = some l → l.dfn.groupEn = false → nextUnit s (loopEngine n.val) = some n.val → commitDue s = none →
    exec (.loopSample n) s = .next (sampleLoop s n.val l)) ∧
  (∀ (g : Fin 512) (gr : Group) (s : State), groupAt? s g.val = some gr → nextUnit s (loopEngine (gr.members.headD 0)) = some (gr.members.headD 0) → commitDue s = none →
    exec (.groupSample g) s = .next (sampleGroup s g.val gr)) ∧
  (∀ (n : Fin 4096) (l : Loop) (s : State), loopAt? s n.val = some l → modeOf s ≤ 3 →
    exec (.loopDisable n) s = .next (setLoop (setFs s [(loopF Fld.LP_L_CMD_OP n.val, 1), (loopF Fld.LP_L_CMD_RESULT n.val, 0), (loopF Fld.LP_L_CMD_BUSY n.val, 0),
      (loopF Fld.LP_L_CMD_GO n.val, 0)]) n.val { l with cmds := l.cmds ++ [.disable] })) ∧
  (∀ (n : Fin 4096) (l : Loop) (s : State), loopAt? s n.val = some l → modeOf s ≤ 3 →
    exec (.loopManual n) s = .next (setLoop (setFs s [(loopF Fld.LP_L_CMD_OP n.val, 2), (loopF Fld.LP_L_CMD_RESULT n.val, 0), (loopF Fld.LP_L_CMD_BUSY n.val, 0),
      (loopF Fld.LP_L_CMD_GO n.val, 0)]) n.val { l with cmds := l.cmds ++ [.manual] })) ∧
  (∀ (n : Fin 4096) (l : Loop) (s : State), loopAt? s n.val = some l → modeOf s ≤ 2 →
    exec (.loopAuto n) s = .next (setLoop (setFs s [(loopF Fld.LP_L_CMD_OP n.val, 3), (loopF Fld.LP_L_CMD_RESULT n.val, 0), (loopF Fld.LP_L_CMD_BUSY n.val, 0),
      (loopF Fld.LP_L_CMD_GO n.val, 0)]) n.val { l with cmds := l.cmds ++ [.auto] })) ∧
  (∀ (n : Fin 4096) (l : Loop) (s : State), loopAt? s n.val = some l → modeOf s ≤ 3 →
    exec (.loopClearStats n) s = .next (setLoop (setFs s [(loopF Fld.LP_L_CMD_OP n.val, 7), (loopF Fld.LP_L_CMD_RESULT n.val, 0), (loopF Fld.LP_L_CMD_BUSY n.val, 0),
      (loopF Fld.LP_L_CMD_GO n.val, 0)]) n.val { l with cmds := l.cmds ++ [.clear] })) ∧
  (∀ (n : Fin 4096) (v : BitVec 16) (l : Loop) (s : State), loopAt? s n.val = some l →
    exec (.lpManualWrite n v) s = .next (setLoop s n.val { l with manual := v.toInt })) ∧
  (∀ (n : Fin 4096) (l : Loop) (q : Int × Bool) (s : State), loopAt? s n.val = some l → l.reread = true → engineRuns s 8 = true → blockHeld s (8 + loopEngine n.val) = false →
    toQ15 (ptAt s (outputOf s l).1).ty (ptValue (ptAt s (outputOf s l).1)) (outputOf s l).2.1 (outputOf s l).2.2 = some q →
    exec (.loopResume n) s = .next (setLoop s n.val { l with applied := q.1, reread := false }))

/-- The commands of the metering engine and the Ledger answer a next state with their own effect (07 R195 to R240). -/
def Obligations.MeteringCommandsComplete : Prop :=
  (∀ (n : Fin 4) (d : SetCycle) (s x a b e : State) (v : VsCfg) (ref : Option Nat) (locked : Bool) (dur : Rat), meCounts s = true →
    x = cross s dcqMeter → a = (if aggDue x n.val = true then aggregate x n.val else x) → b = stepChans (takeOverranges a n.val d) n.val d → v = vsCfg b n.val →
    ref = refPhase b v n.val (cycleSamples d) → locked = (v.en && ref.isSome && freqOk (d.measured.getD 0)) →
    dur = (if locked then d.measured.getD 0 else if v.f60 then 1 / 60 else 1 / 50) → e = useOverrange x (cycleCircuits b n.val v d dur) n.val →
    exec (.lineCycleEnd n d) s = .next (pegReturn (setFs (takeRate (calCycle (endSet e n.val ref locked dur
      (delayed (tabGet {} e.me.chans (getF e Fld.MT_HSEL_INPUT)).past (cycleSamples d) 0)) n.val d)) [(Fld.MT_STAT_STARTING, 0), (Fld.MT_STAT_FULL_PATH, 1)]) .frontEnd)) ∧
  (∀ (n : Fin 4) (d : SetCycle) (s : State), meCounts s = false → exec (.lineCycleEnd n d) s = .next s) ∧
  (∀ (n : Fin 4) (s a b : State), domainOn s 9 = true → (if (vsCfg s n.val).f60 then 12 else 10) ≤ (vsState s n.val).aggCycles →
    a = showHarmonic (((s.me.circs.filter (fun kc => kc.2.dfn.vset == n.val)).map (fun kc => kc.1)).foldl (fun u c => aggCircuit u n.val c) s) n.val →
    b = setF a (Fld.MT_VS_STAT_FLAGGED n.val) (b2n (vsState a n.val).flagged) →
    exec (.aggregationEnd n () ()) s = .next (setVs b n.val
      { vsState a n.val with flagged := (vsState a n.val).under.isSome || (vsState a n.val).swell.isSome, aggCycles := 0, hsel := none })) ∧
  (∀ (n : Fin 4) (u2 us : List Rat) (s : State) (u w : Option OpenEv), domainOn s 9 = true → (vsRegs s n.val).en = true →
    us = (List.range (setPhases (vsRegs s n.val))).map (fun p => u2.getD p 0 * vScale (vsRegs s n.val) p * vScale (vsRegs s n.val) p) →
    underStep s n.val (vsRegs s n.val) us (vsState s n.val).under = (u, none) → swellStep s n.val (vsRegs s n.val) us (vsState s n.val).swell = (w, none) →
    exec (.urmsRefresh n u2) s = .next (
      if (vsState s n.val).under.map (fun e => e.kind) ≠ u.map (fun e => e.kind) ∨ (vsState s n.val).swell.map (fun e => e.kind) ≠ w.map (fun e => e.kind) then
        showEvents (setVs s n.val { vsState s n.val with under := u, swell := w, flagged := (vsState s n.val).flagged || u.isSome || w.isSome }) n.val
      else setVs s n.val { vsState s n.val with under := u, swell := w, flagged := (vsState s n.val).flagged || u.isSome || w.isSome })) ∧
  (∀ (n : Fin 4) (u2 us : List Rat) (s : State) (u : Option OpenEv) (e : OpenEv) (w : Option OpenEv × Option OpenEv), domainOn s 9 = true → (vsRegs s n.val).en = true →
    us = (List.range (setPhases (vsRegs s n.val))).map (fun p => u2.getD p 0 * vScale (vsRegs s n.val) p * vScale (vsRegs s n.val) p) →
    underStep s n.val (vsRegs s n.val) us (vsState s n.val).under = (u, some e) → swellStep s n.val (vsRegs s n.val) us (vsState s n.val).swell = (w.1, none) →
    (vsState s n.val).under.map (fun e => e.kind) ≠ u.map (fun e => e.kind) →
    exec (.urmsRefresh n u2) s = .next (showEvents (closeEvent
      (setVs s n.val { vsState s n.val with under := u, swell := w.1, flagged := (vsState s n.val).flagged || u.isSome || w.1.isSome }) n.val e 0) n.val)) ∧
  (∀ (i : Fin 60) (s : State), exec (.modulatorFail i) s = .next (raise (setChFault { s with me := { s.me with modBad := if s.me.modBad.contains i.val then s.me.modBad else s.me.modBad ++ [i.val] } } i.val) .mtChannel i.val)) ∧
  (∀ (i : Fin 60) (s : State), exec (.modulatorRecovery i) s = .next { s with me := { s.me with modBad := s.me.modBad.erase i.val } }) ∧
  (∀ (v : Fin 4) (e : Fin 256) (r : EvRec) (s : State), tabGet? s.me.ring (v.val * 256 + e.val) = some r →
    exec (.mtEvSelWrite v e) s = .next ((List.range 4).foldl (fun u w => setF u (Fld.MT_EV_W_WORD w) (r.words.getD w 0))
      { setFs s [(Fld.MT_EV_SEL_VSET, v.val), (Fld.MT_EV_SEL_ENTRY, e.val)] with me := { s.me with ring := tabPut s.me.ring (v.val * 256 + e.val) { r with read := true } } })) ∧
  (∀ (k : Fin 8) (s : State), getB s (Fld.MT_PULSE_CFG_EN k.val) = true → getF s (Fld.MT_PULSE_CFG_QPP k.val) ≠ 0 →
    getF s (Fld.MT_PULSE_CFG_QPP k.val) ≤ tabGet 0 s.me.backlogs k.val → pulseReady s k.val = true → domainOn s 9 = true →
    exec (.pulseEmit k) s = .next (incF (setPulse { s with timers := tabPut s.timers (tmPulse k.val) s.el, me := { s.me with
        backlogs := tabSet 0 s.me.backlogs k.val (tabGet 0 s.me.backlogs k.val - getF s (Fld.MT_PULSE_CFG_QPP k.val)),
        pulsed := tabAdd s.me.pulsed k.val (getF s (Fld.MT_PULSE_CFG_QPP k.val)) } } k.val { pulseAt s k.val with active := true }) (Fld.MT_PULSE_CNT_COUNT k.val))) ∧
  (∀ (k : Fin 8) (m : Nat) (s : State), (pulseAt s k.val).active = true → tabGet? s.timers (tmPulse k.val) = some m →
    m + getF s (Fld.MT_PULSE_CFG_WIDTH k.val) * msCycles ≤ s.el → exec (.pulseEnd k) s = .next (setPulse s k.val { active := false, ended := some s.mono })) ∧
  (∀ (s : State) (t : State), domainOn s 9 = true → s.tick % 4000 = 0 → meHeld s = false →
    t = { s with me := if (match currentSlot s with | some (_, b) => !b | none => false) then
        { s.me with slotB := some { ckptOf s ((getF s Fld.LG_SEQ_SEQ + 1) % 2 ^ 32) with valid := true } }
      else { s.me with slotA := some { ckptOf s ((getF s Fld.LG_SEQ_SEQ + 1) % 2 ^ 32) with valid := true } } } →
    exec (.ledgerCheckpoint true) s = .next (setF t Fld.LG_SEQ_SEQ ((getF s Fld.LG_SEQ_SEQ + 1) % 2 ^ 32))) ∧
  (∀ s : State, domainOn s 9 = true → s.tick % 4000 = 0 → meHeld s = false → currentSlot s = none →
    exec (.ledgerCheckpoint false) s = .next (latchF { s with me := { s.me with slotA := some { ckptOf s ((getF s Fld.LG_SEQ_SEQ + 1) % 2 ^ 32) with valid := false } } }
      Fld.LG_STATUS_CKPT_FAIL 1)) ∧
  (∀ (s u : State) (c : Ckpt) (b : Bool), s.tick % (max 1 (getF s Fld.LG_CFG_NAND_PERIOD) * 240000) = 0 → grantNow s .nand = (u, true) → currentSlot u = some (c, b) →
    exec (.nandCheckpoint true) s = .next (pegReturn { ledgerRecord (setF { u with me := { u.me with nand := (c :: u.me.nand).take 64 } } Fld.LG_NAND_SEQ_SEQ c.seq) with
      me := { (ledgerRecord (setF { u with me := { u.me with nand := (c :: u.me.nand).take 64 } } Fld.LG_NAND_SEQ_SEQ c.seq)).me with nandDue := false } } .nand) ∧
    exec (.nandCheckpoint false) s = .next (pegReturn { latchF u Fld.LG_STATUS_CKPT_FAIL 1 with me := { u.me with nandDue := false } } .nand)) ∧
  (∀ (ok : Bool) (s u : State), s.tick % (max 1 (getF s Fld.LG_CFG_NAND_PERIOD) * 240000) = 0 → grantNow s .nand = (u, false) →
    exec (.nandCheckpoint ok) s = .next { u with me := { u.me with nandDue := true } }) ∧
  (∀ s : State, domainOn s 9 = true → s.tick % 4000 = 0 → (∀ c, takeOffset s .lgAudit c = (0, s)) →
    (∀ kc ∈ s.me.circs, (List.range 8).all (auditAcc s 0 kc.1) = true) →
    exec .ledgerAudit s = .next (incF (auditMark s) Fld.LG_AUDIT_AUDITS)) ∧
  (∀ (s : State) (c : Nat) (x : Circ), domainOn s 9 = true → s.tick % 4000 = 0 → s.me.circs = [(c, x)] → takeOffset s .lgAudit c = (0, s) → (List.range 8).all (auditAcc s 0 c) = false →
    exec .ledgerAudit s = .next (incF (auditMark (raise (latchF (latchF s Fld.LG_STATUS_AUDIT_FAIL 1) Fld.LG_AUDIT_MISMATCH (2 ^ c)) .lgAudit c)) Fld.LG_AUDIT_AUDITS)) ∧
  (∀ s : State, exec .lgNandCheckpoint s = .next (askCkpt (setFs s [(Fld.LG_CMD_CIRCUIT, getF s Fld.LG_CMD_CIRCUIT), (Fld.LG_CMD_OP, 1), (Fld.LG_CMD_RESULT, 0), (Fld.LG_CMD_BUSY, 0), (Fld.LG_CMD_GO, 0)]) true)) ∧
  (∀ (c : Fin 16) (x : Circ) (s : State), circAt? s c.val = some x → s.me.resetInt.contains c.val = false →
    exec (.resetInt c) s = .next { setFs s [(Fld.LG_CMD_CIRCUIT, c.val), (Fld.LG_CMD_OP, 2), (Fld.LG_CMD_RESULT, 0), (Fld.LG_CMD_BUSY, 1), (Fld.LG_CMD_GO, 1)] with
      me := { s.me with resetInt := s.me.resetInt ++ [c.val] } }) ∧
  (∀ (c : Fin 16) (x : Circ) (s : State), circAt? s c.val = some x →
    exec (.lgClearVigil c) s = .next (writeVigil (setVig (lgFields s c.val 3 0 false) c.val
      { vigAt s c.val with charge := 0, chargeRes := 0, est := 0, estRes := 0, windows := 0, episodes := 0 }) c.val)) ∧
  (∀ (q : Requester) (c : Fin 16) (a : Fin 8) (s : State), exec (.lgAIntRead q c a) s =
    .next (setReply { s with shadows := tabPut s.shadows (accShadow q c.val a.val) (accWords (accAt s c.val a.val)) } [(accAt s c.val a.val).interval])) ∧
  (∀ (q : Requester) (c : Fin 16) (a : Fin 8) (x : Acc13) (s : State), accView s q c.val a.val = accWords x →
    exec (.lgATotHiRead q c a) s = .next (setReply { s with shadows := tabDel s.shadows (accShadow q c.val a.val) } [bitsOf x.total 32 16 + 65536 * x.wrap])) ∧
  (∀ (c : Fin 16) (a : Fin 8) (v : Fin 256) (s : State), exec (.lgWrapWrite c a v) s =
    .next (setAcc s c.val a.val { accAt s c.val a.val with wrap := (accAt s c.val a.val).wrap - v.val })) ∧
  (∀ (i : Fin 64) (v p : Fin 4) (y : Fin 256) (s a : State), Inv s → i.val < 48 → p.val ≠ 3 → y.val ≠ 0 → getB s Fld.MT_CAL_CMD_BUSY = false →
    a = setFs s [(Fld.MT_CAL_CMD_INPUT, i.val), (Fld.MT_CAL_CMD_VSET, v.val), (Fld.MT_CAL_CMD_VPH, p.val), (Fld.MT_CAL_CMD_CYCLES, y.val)] →
    exec (.calMeasure i v p y) s = .next (setFs { a with me := { a.me with cal := {} } } [(Fld.MT_CAL_CMD_BUSY, 1), (Fld.MT_CAL_CMD_GO, 1)])) ∧
  (∀ (i : Fin 64) (v p : Fin 4) (y : Fin 256) (s a : State), Inv s → 48 ≤ i.val ∨ p.val = 3 ∨ y.val = 0 →
    a = setFs s [(Fld.MT_CAL_CMD_INPUT, i.val), (Fld.MT_CAL_CMD_VSET, v.val), (Fld.MT_CAL_CMD_VPH, p.val), (Fld.MT_CAL_CMD_CYCLES, y.val)] →
    exec (.calMeasure i v p y) s = .next (setF a Fld.MT_CAL_CMD_GO (getF a Fld.MT_CAL_CMD_BUSY))) ∧
  (∀ s : State, getB s Fld.MT_CAL_CMD_BUSY = true → getF s Fld.MT_CAL_CMD_CYCLES ≤ s.me.cal.cycles → s.cyc.asked = [] → exec (.calDone ()) s = .next (setFs
    ((List.range 5).foldl (fun u i => setF u (Fld.MT_CAL_RES_RESULT i) (meReal ((calResults s.me.cal).getD i 0)).toNat) s) [(Fld.MT_CAL_CMD_BUSY, 0), (Fld.MT_CAL_CMD_GO, 0)])) ∧
  (∀ s : State, exec .mtOvrClear s = .next (setFs s [(Fld.MT_OVR_COUNT, 0), (Fld.MT_OVR_LAST_INPUT, 0)])) ∧
  (∀ (r : List Rat) (s : State), modeOf s = 5 → getB s Fld.MT_VIGIL_CFG_EN = true → s.rtc.count % (vigilPeriod s * 32768) = 0 → s.me.vigilWindow ≠ 0 →
    exec (.vigilWindow r) s = .next (sillCkpt (
      { s.me.circs.foldl (fun u kc => vigilCircuit u r kc.1 kc.2) s with me :=
        { (s.me.circs.foldl (fun u kc => vigilCircuit u r kc.1 kc.2) s).me with
          vigilWindow := min ((s.me.circs.foldl (fun u kc => vigilCircuit u r kc.1 kc.2) s).me.vigilWindow + 1) 0xFFFE } }) true))

/-- Frames that Truss accepts, timers and TR_CMD of the estate's membership answer a next state with their own effect (08 R243 to R263, R272). -/
def Obligations.EstateMembershipCompletes : Prop :=
  (∀ (h : TrussHdr) (pin : Fin 512) (role : Fin 4) (fw : Word) (b0 b1 : BitVec 48) (n : Nat) (s u a b x : State), trussAccept s h 0x01 = (u, true) → isManager u = true →
    numberFor (tabPut u.tr.bindings (selfNumber u) (ownSerial u)) h.serial.toNat pin.val = some n →
    a = mapTr u (fun t => { t with bindings := tabPut t.bindings n h.serial.toNat, addrs := tabPut (tabPut t.addrs n b0.toNat) (1024 + n) b1.toNat }) →
    b = dropData (setDir a n { dirAt a n with serial := h.serial.toNat, state := 1, lastHb := some a.mono, role := role.val, firmware := fw.toNat }) n →
    x = (if role.val = 3 then syncAll else id) (resumePubs (reallot (updDir (trSend (if (tabGet? u.tr.bindings n).isNone then syncOut b (1 :: n :: words64 h.serial.toNat) else b) 0x02 n
      (n :: getF (if (tabGet? u.tr.bindings n).isNone then syncOut b (1 :: n :: words64 h.serial.toNat) else b) Fld.TR_TERM_TERM ::
        words64 ((if (tabGet? u.tr.bindings n).isNone then syncOut b (1 :: n :: words64 h.serial.toNat) else b).tr.epoch.getD 0))))) n) →
    exec (.hello h ⟨pin, fw, b0, b1⟩ role) s = .next (match x.tr.bindings.find? (fun nb => nb.2 == h.serial.toNat) with
      | some nb => if isManager x then partAway x nb.1 else x
      | none => x)) ∧
  (∀ (m : Nat) (s : State), seeksManager s = true → tabGet? s.timers tmHello = some m → m + 1000 * msCycles ≤ s.el → exec .helloTimer s = .next (sendHello s)) ∧
  (∀ (h : TrussHdr) (number : Fin 512) (epoch : Fin 281474976710656) (s u a b : State), trussAccept s h 0x02 = (u, true) → isManager u = false → getF u Fld.TR_TERM_TERM ≤ h.term.val →
    a = learnEpoch (setFs u [(Fld.TR_SELF_NUMBER, number.val), (Fld.TR_SELF_NUMBERED, 1), (Fld.TR_SELF_MANAGER, h.src.val), (Fld.TR_SELF_MGR_PRESENT, 1),
      (Fld.TR_TERM_TERM, h.term.val)]) epoch.val →
    b = mapTr a (fun t => { t with lastMark := some a.mono, helloWait := false, left := false, held := [], dataSent := false }) →
    exec (.assign h number epoch) s = .next (sendSubs ([0, 1, 3].foldl (fun s p => grantBoth s p h.src.val (poolBuffers 1 p)) (reclaimAll (dropData b h.src.val) h.src.val)))) ∧
  (∀ (h : TrussHdr) (mode : Fin 8) (sev : Fin 4) (st : Bool) (scf : Fin 8) (dc dm : Bool) (s u a x : State), trussAccept s h 0x03 = (u, true) → isManager u = true → (dirAt u h.src.val).state = 1 →
    a = setDir u h.src.val { dirAt u h.src.val with mode := mode.val, severity := sev.val, steered := st, scf := scf.val, lanes := (dirAt u h.src.val).lanes ||| 2 ^ h.lane.val, lastHb := some u.mono, wants := (if dc then [1] else []) ++ (if dm then [3] else []) } → x = grantRound (grantRound a 1) 3 →
    exec (.heartbeat h mode sev st scf dc dm) s = .next (if isManager x && (dirAt x h.src.val).state = 1 then resolveAt x h.src.val st scf.val else x)) ∧
  (∀ (h : TrussHdr) (k epoch : Fin 281474976710656) (s u a b : State), trussAccept s h 0x04 = (u, true) → isManager u = false → getF u Fld.TR_TERM_TERM ≤ h.term.val →
    a = incF (mapTr u (fun t => { t with lastMark := some u.mono })) Fld.TR_MARKS_RECEIVED 1 → b = (if a.tr.epoch.isSome = true then a else learnEpoch a epoch.val) →
    exec (.mark h k epoch) s = .next (steer (if 1 < (if b.tick ≤ k.val then k.val - b.tick else b.tick - k.val) then setF b Fld.LE_GSTAT_STEERED 0 else b))) ∧
  (∀ s : State, isManager s = false → noMarkFor s (departTicks s 2 + 40000) = true → exec .markTimeout s = .next (setF s Fld.LE_GSTAT_STEERED 0)) ∧
  (∀ (h : TrussHdr) (m : Fin 512) (cause : Fin 3) (s u : State), trussAccept s h 0x05 = (u, true) → isManager u = true →
    exec (.depart h m cause) s = .next (estateGone (declareGone u m.val 3) m.val)) ∧
  (∀ (n : Fin 512) (m : Nat) (s : State), isManager s = true → (dirAt s n.val).state = 1 → (dirAt s n.val).lastHb = some m → m + departTicks s 1 ≤ s.mono →
    exec (.departTimeout n) s = .next (estateGone (declareGone s n.val 2) n.val)) ∧
  (∀ (h : TrussHdr)  (s u : State), trussAccept s h 0x07 = (u, true) → getF u Fld.TR_TERM_TERM ≤ h.term.val →
    exec (.takeover h ) s = .next (setF u Fld.TR_SELF_MANAGER h.src.val)) ∧
  (∀ (m : Nat) (s : State), activeRole s = 3 → s.tr.lastSyncAck = some m → s.mono ≤ m + 4000 → Inv s →
    ∃ t, exec (.standbyTakeover true) s = .next t ∧ t.pending = s.pending ∧ t = mapTr (trSend (setF s Fld.TR_TERM_TERM (getF s Fld.TR_TERM_TERM + 1)) 0x07 dstAll
      [(getF s Fld.TR_TERM_TERM + 1) % 2 ^ 16]) (fun x => { x with takeover := true })) ∧
  (∀ s a : State, (activeRole s = 1 ∨ activeRole s = 3) → getB s Fld.TR_SELF_MGR_PRESENT = true → noMarkFor s (departTicks s 1) = true →
    a = setF s Fld.TR_SELF_MGR_PRESENT 0 →
    exec .managerLost s = .next (sendHello (pubsUndeliv (proxiesAbsent (mapTr (dropData a (getF a Fld.TR_SELF_MANAGER)) (fun t => { t with dataSent := false })) (fun _ => true)) true))) ∧
  (∀ (h : TrussHdr) (b : SyncBody) (s u a : State), trussAccept s h 0x38 = (u, true) → activeRole u = 3 →
    a = noteSelfGpas u (b.subs.map (fun e => e.1.gpa) ++ b.unsubs.map (fun u => u.1)) →
    exec (.sync h b) s = .next (trSend { a with tr := { applySync a.tr b with lastSyncAck := some a.mono }, scf := applyDecisions a.scf b } 0x39 h.src.val [b.seq])) ∧
  (∀ (h : TrussHdr) (seq : Nat) (s u : State), trussAccept s h 0x39 = (u, true) →
    exec (.syncAck h seq) s = .next (sendDecision { u with tr := { u.tr with syncWait := u.tr.syncWait.filter (fun n => decide (seq < n)), lastSyncAck := some u.mono } })) ∧
  (∀ s : State, (activeRole s = 1 ∨ activeRole s = 3) → getB s Fld.TR_SELF_NUMBERED = true → s.tr.left = false →
    exec .trussLeave s = .next (mapTr (sendLeave (setFs s [(Fld.TR_CMD_OP, 1), (Fld.TR_CMD_RESULT, 0), (Fld.TR_CMD_BUSY, 0), (Fld.TR_CMD_GO, 0)])) (fun t => { t with left := true }))) ∧
  (∀ s : State, (activeRole s = 1 ∨ activeRole s = 3) →
    exec .trussRejoin s = .next (sendHello (mapTr (setFs s [(Fld.TR_CMD_OP, 2), (Fld.TR_CMD_RESULT, 0), (Fld.TR_CMD_BUSY, 0), (Fld.TR_CMD_GO, 0)]) (fun t => { t with left := false })))) ∧
  (∀ (n : Fin 512) (s : State), isManager s = true → ((dirAt s n.val).state = 2 ∨ (dirAt s n.val).state = 3) →
    exec (.trussRelease n) s = .next (releaseModule (setFs s [(Fld.TR_CMD_OP, 3), (Fld.TR_CMD_RESULT, 0), (Fld.TR_CMD_BUSY, 0), (Fld.TR_CMD_GO, 0)]) n.val)) ∧
  (∀ (m : Nat) (s : State), isManager s = true → s.tr.lastSyncAck = some m → s.mono ≤ m + 4000 → Inv s →
    exec .trussHandover s = .next (sendMsg (setFs s [(Fld.TR_CMD_OP, 4), (Fld.TR_CMD_RESULT, 0), (Fld.TR_CMD_BUSY, 0), (Fld.TR_CMD_GO, 0)]) (.note "HANDOVER" [getF s Fld.TR_TERM_TERM]))) ∧
  (∀ s : State, exec .trClearErrors s = .next (setFs s [(Fld.TR_CMD_OP, 7), (Fld.TR_CMD_RESULT, 0), (Fld.TR_CMD_BUSY, 0), (Fld.TR_CMD_GO, 0),
    (Fld.TR_ERR1_AUTH_FAIL, 0), (Fld.TR_ERR1_REPLAY, 0), (Fld.TR_ERR2_DUP, 0), (Fld.TR_ERR2_NO_DOWEL, 0), (Fld.TR_ERR3_SMALL_DROP, 0), (Fld.TR_ERR3_LATE, 0),
    (Fld.TR_LANES_SINGLE_SENT, 0)]))

/-- Frames of Truss traffic that are accepted, and its timed events, answer a next state with their own effect (02 R40, 08 R249 to R271). -/
def Obligations.TrussTrafficCompletes : Prop :=
  (∀ (h : TrussHdr) (ds : List Nat) (s u : State), trussAccept s h 0x06 = (u, true) →
    exec (.credit h ds) s = .next (flushOut ((ds.zip [0, 1, 2, 3, 4]).foldl (fun s np => if np.1 = 0 then s else
      cycleReturned (mapTr s (fun t => { t with held := tabAdd t.held (heldKey h.lane.val np.2 h.src.val) np.1 })) h.src.val np.2) u))) ∧
  (∀ (h : TrussHdr) (query : Bool) (es : List SubEntry) (s u : State), trussAccept s h 0x10 = (u, true) →
    exec (.subRequest h query es) s = .next (es.foldl (fun s e => if gpaModule e.gpa = 511 then raise s .trussSelfGpa else subEntryEffect s h.src.val query e) u)) ∧
  (∀ (h : TrussHdr) (query : Bool) (rs : List (SubEntry × Fin 8 × Fin 4096)) (s u : State), trussAccept s h 0x11 = (u, true) →
    exec (.subRsp h query rs) s = .next (rs.foldl (fun s r => if gpaModule r.1.gpa = 511 then raise s .trussSelfGpa else subRspEffect s query r.1 r.2.1.val r.2.2.val) u)) ∧
  (∀ (h : TrussHdr) (gs : List Nat) (s u : State), trussAccept s h 0x12 = (u, true) →
    exec (.unsub h gs) s = .next ((gs.filter (fun g => gpaModule g != 511)).foldl (fun s g => unsubEffect s h.src.val g)
      (gs.foldl (fun s g => if gpaModule g = 511 then raise s .trussSelfGpa else s) u))) ∧
  (∀ (m : Nat) (s : State), tabGet? s.timers tmQuery = some m → m + 2000 * msCycles ≤ s.el →
    exec .subQueryTimeout s = .next (s.tr.asked.foldl (fun s e => takeResult s true e 7 0) s)) ∧
  (∀ (h : TrussHdr) (n : Nat) (k : Word) (m : Fin 512) (es : List DataEntry) (s u : State), trussAccept s h 0x13 = (u, true) → m.val ≠ 511 → isManager u = false → modeOf u ≠ 3 →
    exec (.data h n k m es) s = .next (es.foldl (fun s e => writeProxy s m.val k.toNat e)
      (if laterTick (u.tick % 2 ^ 32) ((k.toNat + n) % 2 ^ 32) = true then incSatF u Fld.TR_ERR3_LATE 1 else u))) ∧
  (∀ (h : TrussHdr) (n : Nat) (k : Word) (m : Fin 512) (es : List DataEntry) (s u : State), trussAccept s h 0x13 = (u, true) → m.val ≠ 511 → isManager u = true → modeOf u ≠ 3 →
    exec (.data h n k m es) s = .next (deliver u n k.toNat m.val es)) ∧
  (∀ (h : TrussHdr) (s u : State), trRole s ≠ 0 → senderKey s h = (u, true) → exec (.trussBadFrame h .tag) s = .next (authFail u h.lane.val)) ∧
  (∀ s : State, domainOn s 4 = true → s.tick % 400 = 0 → exec .poolAudit s = .next ([0, 1].foldl (fun s l => [0, 1, 2, 3, 4].foldl (fun s p => auditPool s l p) s) s)) ∧
  (∀ (h : TrussHdr) (id : Word) (status : Fin 4) (d : List Nat) (src : Nat) (s u : State), trussAccept s h 0x31 = (u, true) → tabGet? u.tr.askers id.toNat = some src →
    exec (.mgmtRsp h id status d) s = .next (trSend { u with tr := { u.tr with askers := tabDel u.tr.askers id.toNat } } 0x31 src (id.toNat :: status.val :: d))) ∧
  (∀ (h : TrussHdr) (id : Word) (status : Fin 4) (d : List Nat) (s u : State), trussAccept s h 0x31 = (u, true) → tabGet? u.tr.askers id.toNat = none →
    exec (.mgmtRsp h id status d) s = .next (sendMsg u (.note "MGMT_RSP" (id.toNat :: status.val :: d))))

/-- A management request to this module, outside Scrapped, is performed and answered (08 R271, 05 R153). -/
def Obligations.ManagementRequestsComplete : Prop :=
  (∀ (h : TrussHdr) (id : Word) (g : Fin 512) (tn : Fin 4096) (a : Nat) (t : Nat) (s u : State), takeRequest s h id.toNat tn.val = (u, some t) → (g.val = selfNumber u ∨ getB u Fld.TR_SELF_NUMBERED = false) → getF u Fld.LC_STATE_STATE ≠ 4 →
    exec (.mgmtRegisterRead ⟨h, id⟩ g tn a) s = .next (if t = 4095 then mgmtReply (readReg u .ne1 a) id.toNat 0 [(replyWord (readReg u .ne1 a)).toNat] else mgmtReply u id.toNat 1 [])) ∧
  (∀ (h : TrussHdr) (id : Word) (g : Fin 512) (tn : Fin 4096) (a : Nat) (t : Nat) (s u : State), takeRequest s h id.toNat tn.val = (u, some t) → g.val ≠ selfNumber u → getB u Fld.TR_SELF_NUMBERED = true →
    exec (.mgmtRegisterRead ⟨h, id⟩ g tn a) s = .next (if isManager u && (dirAt u g.val).state = 1 then trSend u 0x30 g.val (id.toNat :: g.val :: t :: MgmtOp.args (.regRead a)) else mgmtReply u id.toNat 3 [])) ∧
  (∀ (h : TrussHdr) (id : Word) (g : Fin 512) (tn : Fin 4096) (a : Nat) (w : Word) (t : Nat) (s u : State), takeRequest s h id.toNat tn.val = (u, some t) → (g.val = selfNumber u ∨ getB u Fld.TR_SELF_NUMBERED = false) → getF u Fld.LC_STATE_STATE ≠ 4 →
    exec (.mgmtRegisterWrite ⟨h, id⟩ g tn a w) s = .next (if t = 4095 then mgmtReply (writeReg u .ne1 a w.toNat) id.toNat 0 [] else mgmtReply u id.toNat 1 [])) ∧
  (∀ (h : TrussHdr) (id : Word) (g : Fin 512) (tn : Fin 4096) (a : Nat) (w : Word) (t : Nat) (s u : State), takeRequest s h id.toNat tn.val = (u, some t) → g.val ≠ selfNumber u → getB u Fld.TR_SELF_NUMBERED = true →
    exec (.mgmtRegisterWrite ⟨h, id⟩ g tn a w) s = .next (if isManager u && (dirAt u g.val).state = 1 then trSend u 0x30 g.val (id.toNat :: g.val :: t :: MgmtOp.args (.regWrite a w)) else mgmtReply u id.toNat 3 [])) ∧
  (∀ (h : TrussHdr) (id : Word) (g : Fin 512) (tn : Fin 4096) (i : Fin 65536) (v : Word) (t : Nat) (s u : State), takeRequest s h id.toNat tn.val = (u, some t) → (g.val = selfNumber u ∨ getB u Fld.TR_SELF_NUMBERED = false) → getF u Fld.LC_STATE_STATE ≠ 4 →
    exec (.mgmtForce ⟨h, id⟩ g tn i v) s = .next (mgmtReply (forceCmd u false i.val v t).1 id.toNat (forceCmd u false i.val v t).2.status
      [(forceCmd u false i.val v t).2.code, b2n ((forceCmd u false i.val v t).2 == .locked)])) ∧
  (∀ (h : TrussHdr) (id : Word) (g : Fin 512) (tn : Fin 4096) (i : Fin 65536) (v : Word) (t : Nat) (s u : State), takeRequest s h id.toNat tn.val = (u, some t) → g.val ≠ selfNumber u → getB u Fld.TR_SELF_NUMBERED = true →
    exec (.mgmtForce ⟨h, id⟩ g tn i v) s = .next (if isManager u && (dirAt u g.val).state = 1 then trSend u 0x30 g.val (id.toNat :: g.val :: t :: MgmtOp.args (.force i v)) else mgmtReply u id.toNat 3 [])) ∧
  (∀ (h : TrussHdr) (id : Word) (g : Fin 512) (tn : Fin 4096) (i : Fin 65536) (t : Nat) (s u : State), takeRequest s h id.toNat tn.val = (u, some t) → (g.val = selfNumber u ∨ getB u Fld.TR_SELF_NUMBERED = false) → getF u Fld.LC_STATE_STATE ≠ 4 →
    exec (.mgmtRelease ⟨h, id⟩ g tn i) s = .next (mgmtReply (releaseCmd u false i.val t).1 id.toNat (releaseCmd u false i.val t).2.status [(releaseCmd u false i.val t).2.code, 0])) ∧
  (∀ (h : TrussHdr) (id : Word) (g : Fin 512) (tn : Fin 4096) (i : Fin 65536) (t : Nat) (s u : State), takeRequest s h id.toNat tn.val = (u, some t) → g.val ≠ selfNumber u → getB u Fld.TR_SELF_NUMBERED = true →
    exec (.mgmtRelease ⟨h, id⟩ g tn i) s = .next (if isManager u && (dirAt u g.val).state = 1 then trSend u 0x30 g.val (id.toNat :: g.val :: t :: MgmtOp.args (.release i)) else mgmtReply u id.toNat 3 [])) ∧
  (∀ (h : TrussHdr) (id : Word) (g : Fin 512) (tn : Fin 4096) (e sl op : Fin 8) (t : Nat) (s u : State), takeRequest s h id.toNat tn.val = (u, some t) → (g.val = selfNumber u ∨ getB u Fld.TR_SELF_NUMBERED = false) → getF u Fld.LC_STATE_STATE ≠ 4 →
    exec (.mgmtTaskCommand ⟨h, id⟩ g tn e sl op) s = .next (mgmtReply (taskCmd u (taskKey e sl) op.val) id.toNat (if taskCmdResult u (taskKey e sl) op.val = 0 then 0 else 2) [taskCmdResult u (taskKey e sl) op.val])) ∧
  (∀ (h : TrussHdr) (id : Word) (g : Fin 512) (tn : Fin 4096) (e sl op : Fin 8) (t : Nat) (s u : State), takeRequest s h id.toNat tn.val = (u, some t) → g.val ≠ selfNumber u → getB u Fld.TR_SELF_NUMBERED = true →
    exec (.mgmtTaskCommand ⟨h, id⟩ g tn e sl op) s = .next (if isManager u && (dirAt u g.val).state = 1 then trSend u 0x30 g.val (id.toNat :: g.val :: t :: MgmtOp.args (.taskCmd e sl op)) else mgmtReply u id.toNat 3 [])) ∧
  (∀ (h : TrussHdr) (id : Word) (g : Fin 512) (tn : Fin 4096) (n : Fin 4096) (op : Fin 8) (t : Nat) (s u : State), takeRequest s h id.toNat tn.val = (u, some t) → (g.val = selfNumber u ∨ getB u Fld.TR_SELF_NUMBERED = false) → getF u Fld.LC_STATE_STATE ≠ 4 →
    exec (.mgmtLoopCommand ⟨h, id⟩ g tn n op) s = .next (mgmtReply (loopCmd u n.val op.val) id.toNat (if loopCmdResult u n.val op.val = 0 then 0 else 2) [loopCmdResult u n.val op.val])) ∧
  (∀ (h : TrussHdr) (id : Word) (g : Fin 512) (tn : Fin 4096) (n : Fin 4096) (op : Fin 8) (t : Nat) (s u : State), takeRequest s h id.toNat tn.val = (u, some t) → g.val ≠ selfNumber u → getB u Fld.TR_SELF_NUMBERED = true →
    exec (.mgmtLoopCommand ⟨h, id⟩ g tn n op) s = .next (if isManager u && (dirAt u g.val).state = 1 then trSend u 0x30 g.val (id.toNat :: g.val :: t :: MgmtOp.args (.loopCmd n op)) else mgmtReply u id.toNat 3 [])) ∧
  (∀ (h : TrussHdr) (id : Word) (g : Fin 512) (tn : Fin 4096) (t : Nat) (s u : State), takeRequest s h id.toNat tn.val = (u, some t) → (g.val = selfNumber u ∨ getB u Fld.TR_SELF_NUMBERED = false) → getF u Fld.LC_STATE_STATE ≠ 4 →
    exec (.mgmtFaultRead ⟨h, id⟩ g tn ) s = .next (mgmtReply u id.toNat 0 (faultWords u))) ∧
  (∀ (h : TrussHdr) (id : Word) (g : Fin 512) (tn : Fin 4096) (t : Nat) (s u : State), takeRequest s h id.toNat tn.val = (u, some t) → g.val ≠ selfNumber u → getB u Fld.TR_SELF_NUMBERED = true →
    exec (.mgmtFaultRead ⟨h, id⟩ g tn ) s = .next (if isManager u && (dirAt u g.val).state = 1 then trSend u 0x30 g.val (id.toNat :: g.val :: t :: MgmtOp.args (.faultRead)) else mgmtReply u id.toNat 3 [])) ∧
  (∀ (id : Word) (op : MgmtOp) (s u : State), u = { s with tr := { s.tr with askers := tabDel s.tr.askers id.toNat } } →
    exec (.mgmtUartRequest id op) s = .next (if getB u Fld.LC_STATE_DEBUG_OPEN then mgmtPerform u .sv id.toNat 4095 op else mgmtReply u id.toNat 1 []))

/-- The commands of the MACs answer a next state with their own effect (09 R275 to R306; 16 R524). -/
def Obligations.MacCommandsComplete : Prop :=
  (∀ (m : Fin 6) (f : RxFrame) (tags vid pcp cls ring ctx : Nat) (c : Bool) (s : State), linkUp s m.val = true → domainOn s (macDomain m.val) = true →
    ¬ fifoSize s m.val < f.waiting + f.octets.length → f.pcsErr = false → 64 ≤ f.octets.length → f.octets.length ≤ 1518 + 4 * min (tagCount f.octets) (if isBackbone m.val then 2 else 1) →
    fcsOk f.octets = true → f16 f.octets 12 ≠ 0x8808 → addrOk s m.val (f.octets.take 6) = true →
    (if isBackbone m.val then bbTags s m.val f.octets else floorTags s m.val f.octets) = .ok tags vid pcp c →
    frameClass s m.val (untagged f.octets tags) vid = some (cls, ring, ctx) →
    exec (.frameReceive m f) s = .next (storeFrame (cross s dcqMacRx) m.val f (untagged f.octets tags) tags vid pcp cls ring ctx)) ∧
  (∀ (m : Fin 6) (f : RxFrame) (u : List Nat) (tags vid pcp ring ctx b : Nat) (d : RxDesc) (s s1 s2 : State), rxBuffer s m.val 2 ctx u = some s1 →
    getB s1 (Fld.MACn_RING_EN m.val ring) = true → (tabGet {} (macAt s1 m.val).rx (ring * 4096 + getF s1 (Fld.MACn_RPTR_HEAD m.val ring))).own = true →
    freshFree s1 = (b, s2) → d = { own := false, buf := b % 2 ^ 23, len := u.length % 2048, tags := tags, cls := 2, ctx := ctx, vid := vid, pcp := pcp, tsNs := (stampOf f.sec f.ns (getF s (Fld.MACn_TSLAT_RX_ADJ m.val))).2, tsSec := (stampOf f.sec f.ns (getF s (Fld.MACn_TSLAT_RX_ADJ m.val))).1 % 4, frame := u } →
    storeFrame s m.val f u tags vid pcp 2 ring ctx = queueRequest (macCount (macCount (ringStep (mapMac s2 m.val (fun x =>
        { x with rx := tabSet {} x.rx (ring * 4096 + getF s1 (Fld.MACn_RPTR_HEAD m.val ring)) d })) m.val ring (Fld.MACn_RPTR_HEAD m.val ring)) m.val 0) m.val 1 f.octets.length)
      m.val ring (getF s1 (Fld.MACn_RPTR_HEAD m.val ring)) ctx vid u.length) ∧
  (∀ (m : Fin 6) (f : RxFrame) (s : State), linkUp s m.val = true → domainOn s (macDomain m.val) = true →
    (fifoSize s m.val < f.waiting + f.octets.length → exec (.frameReceive m f) s = .next (macCount s m.val 14)) ∧
    (¬ fifoSize s m.val < f.waiting + f.octets.length → f.pcsErr = true → exec (.frameReceive m f) s = .next (macCount s m.val 2)) ∧
    (¬ fifoSize s m.val < f.waiting + f.octets.length → f.pcsErr = false → f.octets.length < 64 → exec (.frameReceive m f) s = .next (macCount s m.val 3)) ∧
    (¬ fifoSize s m.val < f.waiting + f.octets.length → f.pcsErr = false → 1518 + 4 * min (tagCount f.octets) (if isBackbone m.val then 2 else 1) < f.octets.length →
      exec (.frameReceive m f) s = .next (macCount s m.val 4)) ∧
    (¬ fifoSize s m.val < f.waiting + f.octets.length → f.pcsErr = false → 64 ≤ f.octets.length → f.octets.length ≤ 1518 + 4 * min (tagCount f.octets) (if isBackbone m.val then 2 else 1) →
      fcsOk f.octets = false → exec (.frameReceive m f) s = .next (macCount s m.val 5)) ∧
    (¬ fifoSize s m.val < f.waiting + f.octets.length → f.pcsErr = false → 64 ≤ f.octets.length → f.octets.length ≤ 1518 + 4 * min (tagCount f.octets) (if isBackbone m.val then 2 else 1) →
      fcsOk f.octets = true → f16 f.octets 12 ≠ 0x8808 → addrOk s m.val (f.octets.take 6) = false → exec (.frameReceive m f) s = .next (macCount s m.val 7))) ∧
  (∀ (m : Fin 6) (q : Fin 65536) (s u : State), u = startTime (macCount s m.val 15) (tmPause m.val) → getB u (Fld.MACn_CFG_RX_PAUSE_EN m.val) = true →
    getB u (Fld.MACn_STATUS_PAUSE_STUCK m.val) = false →
    exec (.pauseReceive m q) s = .next (mapMac (setB (startTime (if getB u (Fld.MACn_STATUS_PAUSED m.val) then u else startTime u (tmHeld m.val)) (tmQuanta m.val))
      (Fld.MACn_STATUS_PAUSED m.val) (q.val ≠ 0)) m.val (fun x => { x with quanta := q.val }))) ∧
  (∀ (m : Fin 6) (s : State), forced s .macPauseWd m.val = false → timeRan s (tmQuanta m.val) (quantaCycles s m.val) = true →
    exec (.pauseExpire m) s = .next (mapMac (setF s (Fld.MACn_STATUS_PAUSED m.val) 0) m.val (fun x => { x with quanta := 0 }))) ∧
  (∀ (m : Fin 6) (s : State), getB s (Fld.MACn_STATUS_PAUSED m.val) = true → timeRan s (tmHeld m.val) (pwdCycles s m.val) = true →
    exec (.pauseWatchdog m) s = .next (raise (macCount (mapMac
      (setFs s [(Fld.MACn_STATUS_PAUSED m.val, 0), (Fld.MACn_STATUS_PAUSE_STUCK m.val, 1)]) m.val (fun x => { x with quanta := 0 })) m.val 21) .macPauseWd m.val)) ∧
  (∀ (m : Fin 6) (s : State), timeRan s (tmPause m.val) (1000 * msCycles) = true → exec (.pauseRearm m) s = .next (setF s (Fld.MACn_STATUS_PAUSE_STUCK m.val) 0)) ∧
  (∀ (m : Fin 6) (k : Fin 4) (s u : State), u = ringSetUp s m.val k.val → ringCount u m.val k.val + 1 ≠ ringSize u m.val k.val →
    (tabGet {} (macAt u m.val).rx (k.val * 4096 + getF u (Fld.MACn_RPTR_TAIL m.val k.val))).len = 0 →
    exec (.rxDescPost m k) s = .next (ringStep (mapMac u m.val (fun x => { x with rx := tabSet {} x.rx (k.val * 4096 + getF u (Fld.MACn_RPTR_TAIL m.val k.val)) { own := true } }))
      m.val k.val (Fld.MACn_RPTR_TAIL m.val k.val))) ∧
  (∀ (m : Fin 6) (k : Fin 3) (d : TxPost) (s u v : State), u = ringSetUp s m.val (k.val + 4) → ringCount u m.val (k.val + 4) + 1 ≠ ringSize u m.val (k.val + 4) →
    (if d.forModule then takeNeBuf u else takeCtxBuf u d.ctx.val) = some v →
    exec (.txDescPost m k d) s = .next (startTime (setF (ringStep (mapMac v m.val (fun x => { x with tx := tabSet {} x.tx ((k.val + 4) * 4096 + getF v (Fld.MACn_RPTR_TAIL m.val (k.val + 4))) { own := true, post := d } }))
      m.val (k.val + 4) (Fld.MACn_RPTR_TAIL m.val (k.val + 4))) (Fld.MACn_LINK_LPI m.val) 0) (tmTx m.val))) ∧
  (∀ (m : Fin 6) (sec : Fin 0x1000000000000) (ns : Fin 1000000000) (k : Nat) (x : MacState) (d : TxDesc) (tags : List Nat) (s : State),
    domainOn s (macDomain m.val) = true → getB s (Fld.MACn_STATUS_PAUSED m.val) = false → pickRing s m.val = some (k, x) → txHead? (setMac s m.val x) m.val k = some d →
    linkUp (setMac s m.val x) m.val = true → 14 ≤ d.post.len.val → d.post.len.val ≤ 1514 → d.post.buf.val + d.post.len.val ≤ areaEnd d.post.buf.val →
    txTags (setMac s m.val x) m.val k d.post = some tags → d.post.tsReq = false →
    exec (.frameTransmit m sec ns) s = .next (completeTx (macCount (macCount (startTime (sendMsg (cross (setMac s m.val x) dcqMacTx) (.note "FRAME" (m.val :: wireFrame d.post tags))) (tmTx m.val)) m.val 16)
      m.val 17 (wireFrame d.post tags).length) m.val k d 0)) ∧
  (∀ (m : Fin 6) (sec : Fin 0x1000000000000) (ns : Fin 1000000000) (k : Nat) (x : MacState) (d : TxDesc) (s : State),
    domainOn s (macDomain m.val) = true → getB s (Fld.MACn_STATUS_PAUSED m.val) = false → pickRing s m.val = some (k, x) → txHead? (setMac s m.val x) m.val k = some d →
    linkUp (setMac s m.val x) m.val = false → exec (.frameTransmit m sec ns) s = .next (completeTx (macCount (setMac s m.val x) m.val 19) m.val k d 3)) ∧
  (∀ (m : Fin 6) (e : TsEntry) (t : List TsEntry) (s : State), forced s .macTsqOvf m.val = false → (macAt s m.val).tsq = e :: t → 2 ≤ e.msgType →
    exec (.tsqRemove m) s = .next (setReply (setF (mapMac s m.val (fun x => { x with tsq := t })) (Fld.MACn_STATUS_TSQ_LEVEL m.val) t.length) (tsWords e))) ∧
  (∀ (m : Fin 6) (r : Fin 8) (s : State), getB s (Fld.MACn_LINK_TRAINING m.val) = true → forcedOnce s .macTrain m.val = false →
    exec (.linkTrainEnd m r) s = .next (flushOut (setF (setLink (stopTraining s m.val) m.val true) (Fld.MACn_LINK_RATE m.val)
      (if isBackbone m.val then 0 else if forcedRate (setLink (stopTraining s m.val) m.val true) m.val ≠ 0 then forcedRate (setLink (stopTraining s m.val) m.val true) m.val else r.val)))) ∧
  (∀ (m : Fin 6) (s : State), getB s (Fld.MACn_LINK_TRAINING m.val) = true → timeRan s (tmTrain m.val) (500 * msCycles) = true → forced s .macTrain m.val = false →
    exec (.linkTrainTimeout m) s = .next (raise (stopTraining s m.val) .macTrain m.val)) ∧
  (∀ (m : Fin 6) (r : Bool) (s : State), linkUp s m.val = true →
    exec (.linkLoss m r) s = .next (askTraining (raise (if r then macCount (setLink s m.val false) m.val 2 else setLink s m.val false) .macLinkLost m.val) m.val)) ∧
  (∀ (m : Fin 6) (rate : Fin 8) (r : Bool) (s : State), isBackbone m.val = false → forcedRate s m.val = 0 → linkUp s m.val = true → rateOffered (getF s (Fld.MACn_CFG_MODE m.val)) rate.val = true →
    exec (.inbandRateChange m rate r) s = .next (if r then macCount (setF s (Fld.MACn_LINK_RATE m.val) rate.val) m.val 2 else setF s (Fld.MACn_LINK_RATE m.val) rate.val)) ∧
  (∀ (m : Fin 6) (s : State), getB s (Fld.MACn_LINK_DISABLED m.val) = false → exec (.macRetrain m) s = .next (retrain (macFields s m.val 1 0) m.val)) ∧
  (∀ (m : Fin 6) (s : State), exec (.macDisable m) s = .next (setF (setLink (stopTraining (macFields s m.val 2 0) m.val) m.val false) (Fld.MACn_LINK_DISABLED m.val) 1)) ∧
  (∀ (m : Fin 6) (s : State), getB s (Fld.MACn_LINK_DISABLED m.val) = true →
    exec (.macEnable m) s = .next (askTraining (mapMac (setF (macFields s m.val 3 0) (Fld.MACn_LINK_DISABLED m.val) 0) m.val (fun x => { x with down := false })) m.val)) ∧
  (∀ (m : Fin 6) (s : State), exec (.macClearCounters m) s = .next ((List.range 24).foldl (fun u i => setF u (Fld.MACn_CNT_COUNT m.val i) 0) (macFields s m.val 7 0))) ∧
  (∀ (m : Fin 6) (s : State), eeeOn s m.val = true → linkUp s m.val = true → getB s (Fld.MACn_LINK_LPI m.val) = false → pickRing s m.val = none →
    timeRan s (tmTx m.val) (idleCycles s m.val) = true →
    exec (.lpiEnter m) s = .next (macCount (setF s (Fld.MACn_LINK_LPI m.val) 1) m.val 23)) ∧
  (∀ (m : Fin 2) (s : State),
    (linkUp s m.val = true → getB s (Fld.MACn_LINK_TRAINING m.val) = false → getB s (Fld.MACn_LINK_PEG_WAIT m.val) = false →
      exec (.bbLosChange m true) s = .next (loseLink (mapMac s m.val (fun x => { x with los := true })) m.val false)) ∧
    (getB s (Fld.MACn_LINK_TRAINING m.val) = true → exec (.bbLosChange m true) s =
      .next (mapMac (stopTraining (mapMac s m.val (fun x => { x with los := true })) m.val) m.val (fun x => { x with trainDue := true }))) ∧
    ((macAt s m.val).trainDue = true → exec (.bbLosChange m false) s = .next (askTraining (mapMac s m.val (fun x => { x with los := false, trainDue := false })) m.val))) ∧
  (∀ (m : Fin 6) (l : List Nat) (s : State), modeOf s = 4 → getB s (Fld.MACn_STATUS_WAKE_ARMED m.val) = true → wakeCause s m.val l ≠ 0 →
    exec (.wakeFrame m l) s = .next (macCount (setF (dozeWake s 1) (Fld.MACn_STATUS_WAKE_CAUSE m.val) (wakeCause s m.val l)) m.val 22))

/-- The IP and BACnet/IP commands answer a next state with their own effect (10 R308 to R320, R331, R332). -/
def Obligations.BacnetCommandsComplete : Prop :=
  (∀ (c : Fin 64) (l : List Nat) (s : State), neRuns s = true → mayServe s c.val = true →
    (ipVerdict (served s c.val) c.val l = some .ip → exec (.datagramDiscard c l) s = .next (incSatF (served s c.val) Fld.NE_DISC_IP_DISC)) ∧
    (ipVerdict (served s c.val) c.val l = some .bac → modeOf s ≠ 3 → exec (.datagramDiscard c l) s = .next (incSatF (served s c.val) Fld.NE_DISC_BAC_DISC)) ∧
    (ipVerdict (served s c.val) c.val l = some .app → modeOf s ≠ 3 → exec (.datagramDiscard c l) s = .next (served s c.val)) ∧
    (ipVerdict (served s c.val) c.val l = some .bac ∨ ipVerdict (served s c.val) c.val l = some .app → modeOf s = 3 →
      exec (.datagramDiscard c l) s = .next (incSatF (served s c.val) Fld.NE_DISC2_SAFE_DISC)) ∧
    (ipVerdict (served s c.val) c.val l = none → exec (.datagramDiscard c l) s = .next (served s c.val))) ∧
  (∀ (c : Fin 64) (a : Word) (s : State), neRuns s = true → getB s (Fld.PT_CTX_VALID c.val) = true → mayServe s c.val = true → getB s (Fld.NE_CTX_CFG_V4_EN c.val) = true →
    getF s (Fld.NE_CTX_V4_ADDR c.val) = a.toNat → exec (.arpRequest c a) s = .next (sendMsg (served s c.val) (.note "ARP_REPLY" (c.val :: a.toNat :: viaArgs (replyVia (served s c.val) c.val))))) ∧
  (∀ (c : Fin 64) (a : BitVec 128) (r : Bool) (s : State), neRuns s = true → getB s (Fld.PT_CTX_VALID c.val) = true → mayServe s c.val = true → getB s (Fld.NE_CTX_CFG_V6_EN c.val) = true →
    (r = true ∨ (ctxV6 s c.val).contains a.toNat = true) → exec (.neighborSolicit c a r) s = .next (sendMsg (served s c.val) (.note "ND_REPLY" (c.val :: a.toNat :: b2n r :: viaArgs (replyVia (served s c.val) c.val))))) ∧
  (∀ (c : Fin 64) (v6 : Bool) (a : BitVec 128) (l : List Nat) (q : List Nat) (s : State), neRuns s = true → getB s (Fld.PT_CTX_VALID c.val) = true → mayServe s c.val = true →
    (if v6 then (ctxV6 s c.val).contains a.toNat
     else getB s (Fld.NE_CTX_CFG_V4_EN c.val) && (a.toNat == getF s (Fld.NE_CTX_V4_ADDR c.val) || a.toNat == v4Broadcast s c.val)) = true →
    q = (tabGet [] s.net.echo c.val).filter (fun t => decide (s.mono < t + 4000)) → q.length < 10 →
    exec (.echoRequest c v6 a l) s = .next (sendMsg (mapNet (served s c.val) (fun n => { n with echo := tabSet [] n.echo c.val (s.mono :: q) }))
      (.note "ECHO_REPLY" (c.val :: b2n v6 :: viaArgs (replyVia (served s c.val) c.val) ++ l)))) ∧
  (∀ (c : Fin 64) (a : NetAddr) (f : Fin 256) (s : State), neRuns s = true → getB s (Fld.PT_CTX_VALID c.val) = true → mayServe s c.val = true → modeOf s ≠ 3 → getB s (Fld.NE_CTX_CFG_BAC_EN c.val) = true → f ≠ 4 → f ≠ 10 → f ≠ 11 →
    exec (.bvlcNak c a f) s = .next (bacSend (served s c.val) c.val a.toNat 0 "BVLC-Result" [.num (bvlcNak f.val)])) ∧
  (∀ (c : Fin 64) (a : NetAddr) (i : Fin 256) (o : Word) (p : BacProp) (x : Option Nat) (n : Nat) (s : State), neRuns s = true → getB s (Fld.PT_CTX_VALID c.val) = true → mayServe s c.val = true → modeOf s ≠ 3 → getB s (Fld.NE_CTX_CFG_BAC_EN c.val) = true → readProp (served s c.val) c.val o.toNat p x = .num n →
    exec (.readProperty c a i o p x) s = .next (bacSend (served s c.val) c.val a.toNat i.val "ReadProperty-ACK" [.num n])) ∧
  (∀ (c : Fin 64) (a : NetAddr) (i : Fin 256) (o : Word) (p : BacProp) (x : Option Nat) (w : Word) (s : State), neRuns s = true → getB s (Fld.PT_CTX_VALID c.val) = true → mayServe s c.val = true → modeOf s ≠ 3 → getB s (Fld.NE_CTX_CFG_BAC_EN c.val) = true → readProp (served s c.val) c.val o.toNat p x = .real w →
    exec (.readProperty c a i o p x) s = .next (bacSend (served s c.val) c.val a.toNat i.val "ReadProperty-ACK" [.real w])) ∧
  (∀ (c : Fin 64) (a : NetAddr) (i : Fin 256) (o : Word) (p : BacProp) (x : Option Nat) (e : String) (s : State), neRuns s = true → getB s (Fld.PT_CTX_VALID c.val) = true → mayServe s c.val = true → modeOf s ≠ 3 → getB s (Fld.NE_CTX_CFG_BAC_EN c.val) = true → readProp (served s c.val) c.val o.toNat p x = .err e →
    exec (.readProperty c a i o p x) s = .next (bacSend (served s c.val) c.val a.toNat i.val "Error" [.err e])) ∧
  (∀ (c : Fin 64) (a : NetAddr) (i : Fin 256) (l : List (Word × List BacProp)) (s : State), neRuns s = true → getB s (Fld.PT_CTX_VALID c.val) = true → mayServe s c.val = true → modeOf s ≠ 3 → getB s (Fld.NE_CTX_CFG_BAC_EN c.val) = true →
    (rpmLen (rpmResults (served s c.val) c.val l) ≤ 1476 → exec (.readPropertyMultiple c a i l) s = .next (bacSend (served s c.val) c.val a.toNat i.val "ReadPropertyMultiple-ACK"
      ((rpmResults (served s c.val) c.val l).flatMap (fun r => .num r.1 :: r.2.map (fun pv => pv.2))))) ∧
    (1476 < rpmLen (rpmResults (served s c.val) c.val l) → exec (.readPropertyMultiple c a i l) s =
      .next (bacSend (served s c.val) c.val a.toNat i.val "Abort" [.text "SEGMENTATION_NOT_SUPPORTED"]))) ∧
  (∀ (c : Fin 64) (a : NetAddr) (i : Fin 256) (o w : Word) (v : BacVal) (d : ExportDef) (x : PropVal) (s : State), neRuns s = true → getB s (Fld.PT_CTX_VALID c.val) = true → mayServe s c.val = true → modeOf s ≠ 3 → getB s (Fld.NE_CTX_CFG_BAC_EN c.val) = true → readProp (served s c.val) c.val o.toNat .presentValue none = x → (∀ e, x ≠ .err e) →
    bacObject? (served s c.val) c.val o.toNat = some d → d.dir = 2 → writeWord d v = .ok w →
    exec (.writeProperty c a i o .presentValue v) s = .next (bacSend (writerWrite (served s c.val) .endpoint c.val d.index w .good) c.val a.toNat i.val "SimpleACK" [])) ∧
  (∀ (c : Fin 64) (a : NetAddr) (i : Fin 256) (pid o : Word) (conf : Bool) (l : Fin 28801) (d : ExportDef) (b : Observer) (s : State), neRuns s = true → getB s (Fld.PT_CTX_VALID c.val) = true → mayServe s c.val = true → modeOf s ≠ 3 → getB s (Fld.NE_CTX_CFG_BAC_EN c.val) = true → o.toNat ≠ deviceId (served s c.val) c.val →
    bacObject? (served s c.val) c.val o.toNat = some d → obsRoom (served s c.val) c.val = true →
    b = { number := d.number, client := a.toNat, usras := false, confirmed := conf, pid := pid.toNat, lifetime := l.val } →
    exec (.subscribeCov c a i pid o conf (some l)) s = .next (notifyOne (bacSend (startTime (updObs (mapNet (delObs (served s c.val) d.number a.toNat) (fun t => { t with obs := t.obs ++ [b] }))) (tmLife d.number a.toNat)) c.val a.toNat i.val "SimpleACK" []) d b false)) ∧
  (∀ (c : Fin 64) (a : NetAddr) (i : Fin 256) (pid o : Word) (conf : Bool) (s : State), neRuns s = true → getB s (Fld.PT_CTX_VALID c.val) = true → mayServe s c.val = true → modeOf s ≠ 3 → getB s (Fld.NE_CTX_CFG_BAC_EN c.val) = true →
    exec (.subscribeCov c a i pid o conf none) s = .next (bacSend (match bacObject? (served s c.val) c.val o.toNat with | some d => delObs (served s c.val) d.number a.toNat | none => served s c.val) c.val a.toNat i.val "SimpleACK" [])) ∧
  (∀ (c : Fin 64) (r : Option (Nat × Nat)) (s : State), neRuns s = true → getB s (Fld.PT_CTX_VALID c.val) = true → mayServe s c.val = true → modeOf s ≠ 3 → getB s (Fld.NE_CTX_CFG_BAC_EN c.val) = true → inRange (served s c.val) c.val r = true →
    exec (.whoIs c r) s = .next (bacSend (served s c.val) c.val (v4BroadcastAddr (served s c.val) c.val) 0 "I-Am" [.num (deviceId (served s c.val) c.val), .num 1476, .num 3, .num (getF (served s c.val) Fld.NE_BACNET_VENDOR_ID)])) ∧
  (∀ (c : Fin 64) (r : Option (Nat × Nat)) (o : Word) (n : String) (x : Nat × String) (s : State), neRuns s = true → getB s (Fld.PT_CTX_VALID c.val) = true → mayServe s c.val = true → modeOf s ≠ 3 → getB s (Fld.NE_CTX_CFG_BAC_EN c.val) = true → ((deviceId (served s c.val) c.val, deviceName (served s c.val) c.val) :: (bacObjects (served s c.val) c.val).map (fun d => (d.object, objectName (served s c.val) d))).find? (fun x => x.1 == o.toNat) = some x →
    inRange (served s c.val) c.val r = true →
    exec (.whoHas c r (some o) n) s = .next (bacSend (served s c.val) c.val (v4BroadcastAddr (served s c.val) c.val) 0 "I-Have" [.num (deviceId (served s c.val) c.val), .num x.1, .text x.2])) ∧
  (∀ (c : Fin 64) (a : NetAddr) (i : Fin 256) (w : BacRefusal) (s : State), neRuns s = true → getB s (Fld.PT_CTX_VALID c.val) = true → mayServe s c.val = true → modeOf s ≠ 3 → getB s (Fld.NE_CTX_CFG_BAC_EN c.val) = true →
    exec (.bacnetReject c a i w) s = .next (bacSend (served s c.val) c.val a.toNat i.val w.answer.1 [.text w.answer.2])) ∧
  (∀ (c : Fin 64)  (s : State), neRuns s = true → getB s (Fld.PT_CTX_VALID c.val) = true → mayServe s c.val = true → modeOf s ≠ 3 → getB s (Fld.NE_CTX_CFG_BAC_EN c.val) = true →
    exec (.bacnetUnconfirmedDiscard c ) s = .next (incSatF (served s c.val) Fld.NE_DISC_BAC_DISC)) ∧
  (∀ (ne : Fin 2) (i k : Nat) (d : ExportDef) (s u : State), neRuns s = true → takeChange s ne.val = (u, some i) →
    u.net.defs.find? (fun kd => kd.2.index == i && kd.2.dir != 1) = some (k, d) → modeOf u ≠ 3 →
    exec (.covNotify ne) s = .next (checkReceiver (notifyAll u d (fun v o => notifyDue v d o) false) d)) ∧
  (∀ (n : Fin 32768) (a : NetAddr) (o : Observer) (d : ExportDef) (k : Nat) (s : State), obsAt? s n.val a.toNat = some o → tabGet? s.net.defs n.val = some d →
    o.sent = some k → o.usras = false → timeRan s (tmNotify n.val a.toNat) (3000 * msCycles) = true → k < 4 →
    exec (.covRetry n a) s = .next (setObs (notifyOne s d o false) { (obsAt? (notifyOne s d o false) n.val a.toNat).getD o with sent := some (k + 1) })) ∧
  (∀ (n : Fin 32768) (a : NetAddr) (o : Observer) (d : ExportDef) (s : State), obsAt? s n.val a.toNat = some o → tabGet? s.net.defs n.val = some d →
    o.sent = some 4 → o.usras = false → timeRan s (tmNotify n.val a.toNat) (3000 * msCycles) = true → exec (.covRetry n a) s = .next (incSatF (setObs s { o with sent := none }) (Fld.NE_CTX_OBS_FAILED d.ctx))) ∧
  (∀ (n : Fin 32768) (a : NetAddr) (o : Observer) (s : State), obsAt? s n.val a.toNat = some o → o.usras = false → o.lifetime ≠ 0 → timeRan s (tmLife n.val a.toNat) (o.lifetime * (1000 * msCycles)) = true →
    exec (.covLifetimeExpiry n a) s = .next (delObs s n.val a.toNat)) ∧
  (∀ (n : Fin 32768) (a : NetAddr) (o : Observer) (d : ExportDef) (s : State), obsAt? s n.val a.toNat = some o → tabGet? s.net.defs n.val = some d → o.sent.isSome = true →
    exec (.notificationAck n a) s = .next (if isReceiver d o then setUndeliv (setObs s { o with sent := none }) d.index false else setObs s { o with sent := none }))

/-- The CoAP and Usras commands answer a next state with their own effect (10 R321 to R332). -/
def Obligations.CoapCommandsComplete : Prop :=
  (∀ (c : Fin 64) (a : NetAddr) (m : Option OscMsg) (p : Nat) (u : State) (k i : Fin 256) (n : Fin 65536) (d : ExportDef) (s : State), neRuns s = true → getB s (Fld.PT_CTX_VALID c.val) = true → mayServe s c.val = true → modeOf s ≠ 3 → getB s (Fld.NE_CTX_CFG_USRAS_EN c.val) = true → oscReceive (served s c.val) c.val m = (u, some p) → usras? u c.val k.val i.val n.val = some d →
    exec (.coapGet c a m k i n none) s = .next (coapSend u c.val a.toNat (some p) 205 [d.number, (ptValue (ptAt u d.index)).toNat, (ptAt u d.index).ty.code, (ptQuality u (ptAt u d.index)).code])) ∧
  (∀ (c : Fin 64) (a : NetAddr) (m : Option OscMsg) (p : Nat) (u : State) (k i : Fin 256) (n : Fin 65536) (x : Option Bool) (s : State), neRuns s = true → getB s (Fld.PT_CTX_VALID c.val) = true → mayServe s c.val = true → modeOf s ≠ 3 → getB s (Fld.NE_CTX_CFG_USRAS_EN c.val) = true → oscReceive (served s c.val) c.val m = (u, some p) → usras? u c.val k.val i.val n.val = none →
    exec (.coapGet c a m k i n x) s = .next (coapSend u c.val a.toNat (some p) 404 [])) ∧
  (∀ (c : Fin 64) (a : NetAddr) (m : Option OscMsg) (u : State) (k i : Fin 256) (n : Fin 65536) (x : Option Bool) (s : State), neRuns s = true → getB s (Fld.PT_CTX_VALID c.val) = true → mayServe s c.val = true → modeOf s ≠ 3 → getB s (Fld.NE_CTX_CFG_USRAS_EN c.val) = true → oscReceive (served s c.val) c.val m = (u, none) →
    exec (.coapGet c a m k i n x) s = .next (coapSend u c.val a.toNat none (oscRefusal (served s c.val) c.val m) [])) ∧
  (∀ (c : Fin 64) (a : NetAddr) (m : Option OscMsg) (p : Nat) (u : State) (k i : Fin 256) (n : Fin 65536) (d : ExportDef) (b : Observer) (s : State), neRuns s = true → getB s (Fld.PT_CTX_VALID c.val) = true → mayServe s c.val = true → modeOf s ≠ 3 → getB s (Fld.NE_CTX_CFG_USRAS_EN c.val) = true → oscReceive (served s c.val) c.val m = (u, some p) → usras? u c.val k.val i.val n.val = some d →
    (exec (.coapGet c a m k i n (some false)) s = .next (coapSend (checkReceiver (delObs u d.number a.toNat) d) c.val a.toNat (some p) 205
      [d.number, (ptValue (ptAt u d.index)).toNat, (ptAt u d.index).ty.code, (ptQuality u (ptAt u d.index)).code])) ∧
    (obsRoom u c.val = true → b = { number := d.number, client := a.toNat, usras := true, peer := p, lastVal := ptValue (ptAt u d.index), lastQ := ptQuality u (ptAt u d.index) } →
      exec (.coapGet c a m k i n (some true)) s = .next (coapSend (startTime (updObs (mapNet (delObs u d.number a.toNat) (fun t => { t with obs := t.obs ++ [if isReceiver d b then { b with sent := some 1 } else b] }))) (tmNotify d.number a.toNat))
        c.val a.toNat (some p) 205 [d.number, (ptValue (ptAt u d.index)).toNat, (ptAt u d.index).ty.code, (ptQuality u (ptAt u d.index)).code]))) ∧
  (∀ (c : Fin 64) (a : NetAddr) (m : Option OscMsg) (p : Nat) (u : State) (k i : Fin 256) (n : Fin 65536) (v : CborVal) (q : Nat) (w : Word) (d : ExportDef) (s : State), neRuns s = true → getB s (Fld.PT_CTX_VALID c.val) = true → mayServe s c.val = true → modeOf s ≠ 3 → getB s (Fld.NE_CTX_CFG_USRAS_EN c.val) = true → oscReceive (served s c.val) c.val m = (u, some p) → usras? u c.val k.val i.val n.val = some d → d.dir = 2 → cborWord (ptAt u d.index).ty v = some w →
    exec (.coapPut c a m k i n (.value v q)) s = .next (coapSend (writerWrite u .endpoint c.val d.index w .good) c.val a.toNat (some p) 204 [])) ∧
  (∀ (c : Fin 64) (a : NetAddr) (m : Option OscMsg) (p : Nat) (u : State) (g : Word) (t al k : Nat) (x : Task) (s : State), neRuns s = true → getB s (Fld.PT_CTX_VALID c.val) = true → mayServe s c.val = true → modeOf s ≠ 3 → getB s (Fld.NE_CTX_CFG_USRAS_EN c.val) = true → oscReceive (served s c.val) c.val m = (u, some p) → u.tasks.find? (fun kt => kt.2.dfn.imageId == g.toNat && kt.2.dfn.taskNo == t && some kt.2.dfn.tenant == ctxTenant? u c.val) = some (k, x) →
    al < x.run.alarms.length →
    exec (.coapAckPost c a m g t al) s = .next (coapSend { u with tasks := tabPut u.tasks k (latchAck x al) } c.val a.toNat (some p) 204 [])) ∧
  (∀ (c : Fin 64) (a : NetAddr) (mc : Bool) (s : State), neRuns s = true → getB s (Fld.PT_CTX_VALID c.val) = true → mayServe s c.val = true → modeOf s ≠ 3 → getB s (Fld.NE_CTX_CFG_USRAS_EN c.val) = true →
    exec (.wellKnownCore c a mc) s = .next (coapSend (served s c.val) c.val a.toNat none 205 (b2n mc :: ((published (served s c.val) c.val).filter (fun d => d.usras)).flatMap (fun d => [d.cls, d.inst, d.item])))) ∧
  (∀ (c : Fin 64) (a : NetAddr) (w : CoapRefusal) (s : State), neRuns s = true → getB s (Fld.PT_CTX_VALID c.val) = true → mayServe s c.val = true → modeOf s ≠ 3 → getB s (Fld.NE_CTX_CFG_USRAS_EN c.val) = true →
    exec (.coapRefused c a w false) s = .next (coapSend (served s c.val) c.val a.toNat none w.code []) ∧ exec (.coapRefused c a w true) s = .next (served s c.val)) ∧
  (∀ (n : Fin 32768) (d : ExportDef) (s : State), tabGet? s.net.defs n.val = some d → d.usras = true → d.dir ≠ 1 → neRuns s = true → modeOf s ≠ 3 →
    timeRan s (tmRefresh n.val) (getF s Fld.NE_CFG2_REFRESH * (1000 * msCycles)) = true →
    exec (.usrasRefresh n) s = .next (startTime (notifyAll s d (fun _ _ => true) true) (tmRefresh n.val))) ∧
  (∀ (n : Fin 32768) (d : ExportDef) (s : State), endpImport? s n.val = some d → neRuns s = true → modeOf s ≠ 3 → (impAt s n.val).registered = false → timeRan s (tmObserve n.val) (10000 * msCycles) = true →
    exec (.observeRegister n) s = .next (sendObserve s d 1)) ∧
  (∀ (n : Fin 32768) (d : ExportDef) (s : State), endpImport? s n.val = some d → neRuns s = true → modeOf s ≠ 3 → (impAt s n.val).registered = true → timeRan s (tmObserve n.val) (d.maxAge * 1000 * msCycles) = true →
    exec (.observeRenew n) s = .next (sendObserve s d 1)) ∧
  (∀ (n : Fin 32768) (a : NetAddr) (d : ExportDef) (k : Nat) (s : State), tabGet? s.net.defs n.val = some d → d.dir = 1 → (impAt s n.val).sent = some k → timeRan s (tmObserve n.val) (ackWaits k) = true →
    (k < 5 → exec (.coapRetransmit n a) s = .next (sendObserve s d (k + 1))) ∧ (5 ≤ k → exec (.coapRetransmit n a) s = .next (importAbsent s d))) ∧
  (∀ (n : Fin 32768) (a : NetAddr) (d : ExportDef) (o : Observer) (k : Nat) (s : State), tabGet? s.net.defs n.val = some d → d.dir ≠ 1 → obsAt? s n.val a.toNat = some o →
    o.sent = some k → o.usras = true → timeRan s (tmNotify n.val a.toNat) (ackWait k) = true →
    (k < 5 → exec (.coapRetransmit n a) s = .next (setObs (notifyOne s d o false) { (obsAt? (notifyOne s d o false) n.val a.toNat).getD o with sent := some (k + 1) })) ∧
    (5 ≤ k → exec (.coapRetransmit n a) s = .next (if isReceiver d o then setUndeliv (setObs s { o with sent := none }) d.index true else setObs s { o with sent := none }))) ∧
  (∀ (n : Fin 32768) (m : Option OscMsg) (v : CborVal) (q p : Nat) (w : Word) (d : ExportDef) (s u t : State), endpImport? s n.val = some d → neRuns s = true → modeOf s ≠ 3 →
    oscReceive s d.ctx m = (u, some p) → p = d.addr % 2 ^ 64 → t = startTime (setImp u n.val { registered := true }) (tmEndpoint n.val) →
    (forcedOnce t .neEndpoint d.ctx = false → cborWord (ptAt t d.index).ty v = some w →
      exec (.endpointNotify n m (.value v q)) s = .next (writerWrite t .endpoint d.ctx d.index w (if q = 0 then .good else .fault))) ∧
    (forcedOnce t .neEndpoint d.ctx = true → exec (.endpointNotify n m (.value v q)) s = .next (useForce (endpointFault t d)))) ∧
  (∀ (n : Fin 32768) (d : ExportDef) (s : State), endpImport? s n.val = some d → neRuns s = true → timeRan s (tmEndpoint n.val) (3 * d.maxAge * 1000 * msCycles) = true → exec (.endpointSilent n) s = .next (importAbsent s d)) ∧
  (∀ (n : Fin 32768) (d : ExportDef) (s : State), endpImport? s n.val = some d → exec (.endpointRst n) s = .next (importAbsent s d)) ∧
  (∀ (n : Fin 32768) (d : ExportDef) (s : State), endpImport? s n.val = some d → exec (.endpointError n) s = .next (raise (writerQuality s .endpoint d.ctx d.index .fault) .neEndpoint d.ctx))

/-- The commands of PTP and the time counter answer a next state with their own effect (10 R333 to R338). -/
def Obligations.PtpCommandsComplete : Prop :=
  (∀ (m : Fin 6) (q : Fin 65536) (t2 t1 : Nat) (s : State), ptpOn s m.val = true → portSlave s m.val = true →
    exec (.ptpSync m q t2 (some t1)) s = .next (exchange s m.val ((t2 : Int) - t1)) ∧ exec (.ptpSync m q t2 none) s = .next (mapPtp s (fun p => { p with syncWait := some (q.val, t2) }))) ∧
  (∀ (m d : Nat) (x : Int) (e : Int) (s : State), s.net.ptp.delay = some e → exchange s m x = servo (mapPtp s (fun p => { p with syncWait := none, lastMs := some x })) m (x - e)) ∧
  (∀ (m : Fin 6) (q : Fin 65536) (t2 t1 : Nat) (s : State), ptpOn s m.val = true → portSlave s m.val = true → s.net.ptp.syncWait = some (q.val, t2) →
    exec (.ptpFollowUp m q t1) s = .next (exchange s m.val ((t2 : Int) - t1))) ∧
  (∀ (m : Fin 6) (q : Fin 65536) (t4 : Nat) (r : BitVec 80) (s : State), ptpOn s m.val = true → portState s m.val = 6 →
    exec (.ptpDelayReq m q t4 r) s = .next (sendMsg s (.note "PTP_DELAY_RESP" (ptpVia s m.val ++ [q.val, t4, r.toNat, getF s Fld.NE_PTP_INTV_LOG_DELAY_REQ])))) ∧
  (∀ (m : Fin 6) (q : Fin 65536) (t4 t3 : Nat) (x e : Int) (s : State), ptpOn s m.val = true → portSlave s m.val = true → s.net.ptp.reqT3 = some (q.val, t3) → s.net.ptp.lastMs = some x → s.net.ptp.exch = some e →
    exec (.ptpDelayResp m q t4) s = .next (servo (mapPtp s (fun p => { p with delay := some ((x + ((t4 : Int) - t3)) / 2), exch := none, reqT3 := none })) m.val
      (e - (x + ((t4 : Int) - t3)) / 2))) ∧
  (∀ (m : Fin 6) (a : PtpAnnounce) (l : List (PtpAnnounce × Nat)) (s : State), ptpOn s m.val = true → l = tabGet [] s.net.ptp.foreign m.val →
    exec (.ptpAnnounce m a) s = .next (decidePorts (mapPtp (startTime s (tmAnn m.val)) (fun p => { p with foreign := tabSet [] p.foreign m.val ((a, min (((l.find? (fun x => x.1.sender == a.sender)).map (fun x => x.2)).getD 0 + 1) 2) :: l.filter (fun x => x.1.sender != a.sender)) })) none)) ∧
  (∀ (m : Fin 6) (s : State), ptpOn s m.val = true → timeRan s (tmAnn m.val) (annTimeout s) = true → exec (.announceTimeout m) s =
    .next (decidePorts (mapPtp s (fun p => { p with foreign := tabSet [] p.foreign m.val [] })) (some m.val))) ∧
  (∀ (m : Fin 6) (y : Fin 16) (d : Fin 256) (v : Fin 16) (b : Bool) (s : State), ptpOn s m.val = true →
    (d.val ≠ getF s Fld.NE_PTP_CFG_DOMAIN ∨ v.val ≠ 2 → exec (.ptpDiscard ⟨m, y, d, v, b⟩) s = .next (incSatF s Fld.NE_PTP_DISC_OTHER)) ∧
    (d.val = getF s Fld.NE_PTP_CFG_DOMAIN → v.val = 2 → ptpUnsup y.val b = true → exec (.ptpDiscard ⟨m, y, d, v, b⟩) s = .next (incSatF s Fld.NE_PTP_DISC_UNSUP))) ∧
  (∀ (m : Fin 6) (s : State), ptpOn s m.val = true → portState s m.val = 6 → timeRan s (tmSync m.val) (logCycles (getF s Fld.NE_PTP_INTV_LOG_SYNC)) = true → exec (.ptpSyncSend m) s =
    .next (mapPtp (sendMsg (startTime s (tmSync m.val)) (.note "PTP_SYNC" (ptpVia s m.val ++ [tabGet 0 s.net.ptp.syncSeq m.val, getF s Fld.NE_PTP_INTV_LOG_SYNC]))) (fun p =>
      { p with syncSeq := tabSet 0 p.syncSeq m.val ((tabGet 0 s.net.ptp.syncSeq m.val + 1) % 65536) }))) ∧
  (∀ (m : Fin 6) (d : List Nat) (s : State), ptpOn s m.val = true → portState s m.val = 6 → timeRan s (tmAnnSend m.val) (logCycles (getF s Fld.NE_PTP_INTV_LOG_ANNOUNCE)) = true →
    (getB s Fld.NE_PTP_STAT_GM = true ∧ d = ownDataSet s ∨
      getB s Fld.NE_PTP_STAT_GM = false ∧ (∃ k a, bestOf s = some (k, a) ∧ d = (dataSet a).take 6 ++ [a.steps.val + 1])) →
    exec (.ptpAnnounceSend m) s = .next (mapPtp (sendMsg (startTime s (tmAnnSend m.val)) (.note "PTP_ANNOUNCE"
      (ptpVia s m.val ++ tabGet 0 s.net.ptp.annSeq m.val :: getF s Fld.NE_PTP_INTV_LOG_ANNOUNCE :: d.take 7))) (fun p =>
        { p with annSeq := tabSet 0 p.annSeq m.val ((tabGet 0 s.net.ptp.annSeq m.val + 1) % 65536) }))) ∧
  (∀ (m : Fin 6) (s : State), ptpOn s m.val = true → portSlave s m.val = true → exec (.ptpDelayReqSend m) s =
    .next (mapPtp (sendMsg s (.note "PTP_DELAY_REQ" (ptpVia s m.val ++ [s.net.ptp.reqSeq]))) (fun p => { p with reqSeq := (s.net.ptp.reqSeq + 1) % 65536, reqT3 := none }))) ∧
  (∀ s : State, getF s Fld.NE_PTP_CFG_TYPE = 0 ∨ getB s Fld.NE_PTP_STAT_GM = true →
    exec .setTime s = .next (mapPtp (ptpFields s 1 0) (fun p => { p with pendSet := some (getF s Fld.NE_TIME_SET_LO_SECONDS + 2 ^ 32 * getF s Fld.NE_TIME_SET_HI_SECONDS, s.tc.sec) }))) ∧
  (∀ (v w : Nat) (s : State), s.net.ptp.pendSet = some (v, w) → s.tc.sec ≠ w → exec .setTimeApply s = .next (mapPtp { s with tc := { sec := v, ns := 0, frac := 0 } } (fun p => { p with pendSet := none }))) ∧
  (∀ s : State, exec .neClearCounters s = .next ((List.range 64).foldl (fun u c => setFs u [(Fld.NE_CTX_OBS_FAILED c, 0), (Fld.NE_CTX_OBS_OSCORE_FAIL c, 0),
      (Fld.NE_CTX_OBS_SHED c, 0)]) (setFs (ptpFields s 7 0) [(Fld.NE_PTP_DISC_UNSUP, 0), (Fld.NE_PTP_DISC_OTHER, 0), (Fld.NE_DISC_IP_DISC, 0), (Fld.NE_DISC_BAC_DISC, 0),
      (Fld.NE_DISC2_SAFE_DISC, 0)]))) ∧
  (∀ (q : Requester) (s : State), exec (.neTimeNsRead q) s = .next (setReply { s with shadows := tabPut s.shadows (shadowKey 3 q) [s.tc.sec] } [s.tc.ns])) ∧
  (∀ (q : Requester) (s : State), exec (.neTimeSecHiRead q) s = .next (setReply { s with shadows := tabDel s.shadows (shadowKey 3 q) } [bitsOf (timeSec s q) 32 16]))

/-- The commands of the CAN channels answer a next state with their own effect (11 R342 to R356). -/
def Obligations.CanCommandsComplete : Prop :=
  (∀ (n : Fin 12) (i : Fin 0x20000000) (ide fdf : Bool) (l : List Nat) (k : Nat) (s : State), canOn s n.val = true → (fdf = true → getB s (Fld.CANn_CFG_FD_EN n.val) = true) →
    filterOf (recDown s n.val) n.val i.val ide fdf = some k →
    exec (.canFrameRx n i ide false fdf l false) s = .next (serveCan (rxEnter (cross (recDown s n.val) dcqFieldRx) n.val { filter := k, ident := i.val, ide := ide, fdf := fdf, data := l }) n.val)) ∧
  (∀ (n : Fin 12) (i : Fin 0x20000000) (ide b : Bool) (l : List Nat) (s : State), canOn s n.val = true →
    (getB s (Fld.CANn_CFG_FD_EN n.val) = false → exec (.canFrameRx n i ide false true l b) s = .next (canCount s n.val 4)) ∧
    exec (.canFrameRx n i ide true false l b) s = .next (canCount (recDown s n.val) n.val 3) ∧
    (filterOf (recDown s n.val) n.val i.val ide false = none → exec (.canFrameRx n i ide false false l b) s = .next (canCount (recDown s n.val) n.val 1))) ∧
  (∀ (n : Fin 12) (b : Bool) (r : CanReq) (s u : State), canSends s n.val = true → u = cross s dcqFieldTx → nextReq u n.val (canAt u n.val).reqs = some r →
    forcedOnce u .canReqFailed n.val = false → (canAt u n.val).bufs.length < 3 → exec (.canTxLoad n b) s = .next (beginTx (loadReq u n.val r) n.val b)) ∧
  (∀ (n : Fin 12) (b : Bool) (r : CanReq) (s u : State), txReq s n.val = some r → canTransmits s n.val = true →
    u = setF s (Fld.CANn_STAT_TEC n.val) (getF s (Fld.CANn_STAT_TEC n.val) - 1) →
    exec (.canTxDone n b) s = .next (beginTx (canLeft (canCalm (sendMsg (endReq u n.val r .sent) (.note "CAN frame" ([n.val, r.key, b2n r.brs] ++ r.data))) n.val) n.val) n.val b)) ∧
  (∀ (n : Fin 12) (b : Bool) (r : CanReq) (s : State), txReq s n.val = some r → canTransmits s n.val = true →
    exec (.canTxError n false b) s = .next (beginTx (canLeft (attemptLost (setF s (Fld.CANn_STAT_TEC n.val) (satAt 511 (getF s (Fld.CANn_STAT_TEC n.val) + 8))) n.val r) n.val) n.val b)) ∧
  (∀ (n : Fin 12) (k : Fin 256) (s : State), canTransmits s n.val = true → canStatus s n.val = 0 → (128 ≤ getF s (Fld.CANn_STAT_TEC n.val) ∨ 128 ≤ k.val) →
    exec (.canErrorPassive n k) s = .next (raise (canCount (setF (setF s (Fld.CANn_STAT_REC n.val) k.val) (Fld.CANn_STAT_STATE n.val) 1) n.val 6) .canPassive n.val)) ∧
  (∀ (n : Fin 12) (s u v : State), canTransmits s n.val = true →
    u = canInsAbsent (endAll (raise (canCount (maxF (setF s (Fld.CANn_STAT_STATE n.val) 2) (Fld.CANn_STAT_TEC n.val) 256) n.val 7) .canBusoff n.val) n.val .busoff) n.val →
    v = ((canAt u n.val).nodes.filter (fun kv => kv.2.st == 3)).foldl (fun w kv => absentNode w n.val kv.1) u →
    exec (.canBusoff n) s = .next (canLeft (mapCan v n.val (fun x => { x with recovering := getB v (Fld.CANn_CFG_AUTO_RECOVER n.val) })) n.val)) ∧
  (∀ (n : Fin 12) (s u : State), feRuns s = true → canStatus s n.val = 2 → (canAt s n.val).recovering = true →
    u = setFs (mapCan s n.val (fun x => { x with recovering := false })) [(Fld.CANn_STAT_STATE n.val, 0), (Fld.CANn_STAT_TEC n.val, 0), (Fld.CANn_STAT_REC n.val, 0)] →
    exec (.canRecovered n) s = .next (requestAll u n.val (fun key => nodeReady u n.val key))) ∧
  (∀ (n : Fin 12) (s : State), feRuns s = true → canStatus s n.val = 2 →
    exec (.canRecover n) s = .next (mapCan (canFields s n.val 1 0) n.val (fun x => { x with recovering := true }))) ∧
  (∀ (n : Fin 12) (u : State) (s : State), feRuns s = true → u = mapCan (canFields s n.val 2 0) n.val (fun x => { x with off := true }) → canStatus u n.val ≠ 3 →
    exec (.canDisable n) s = .next (canLeave u n.val)) ∧
  (∀ (n : Fin 12) (u : State) (s : State), feRuns s = true → getB s (Fld.CANn_CFG_EN n.val) = true → u = mapCan (canFields s n.val 3 0) n.val (fun x => { x with off := false }) → canStatus u n.val = 3 →
    (canAt u n.val).detect = none →
    exec (.canEnable n) s = .next (canOnline u n.val)) ∧
  (∀ (n : Fin 12) (s : State), feRuns s = true → getB s (Fld.CANn_CFG_LISTEN n.val) = true → (canAt s n.val).leaving = false →
    exec (.canDetect n) s = .next (detectStart (canFields s n.val 4 0) n.val)) ∧
  (∀ (n : Fin 12) (s : State), feRuns s = true →
    exec (.canClearCounters n) s = .next ((List.range 8).foldl (fun u i => setF u (Fld.CANn_CNT_COUNT n.val i) 0) (canFields s n.val 7 0))) ∧
  (∀ (n : Fin 12) (f : Fin 65536) (p b : Bool) (c : Nat) (s u : State), u = incSatF s (Fld.CANn_ABR_FRAMES n.val) f.val →
    ((canAt s n.val).detect = some (false, c) → exec (.detectCandidateEnd n f true b) s =
      .next (startTime (setF (mapCan u n.val (fun x => { x with detect := some (true, 1) })) (Fld.CANn_ABR_NOM n.val) c) (tmDetect n.val))) ∧
    ((canAt s n.val).detect = some (false, c) → timeRan u (tmDetect n.val) (10000 * msCycles) = true → exec (.detectCandidateEnd n f false b) s = .next (detectEnd u n.val false)) ∧
    ((canAt s n.val).detect = some (false, c) → timeRan u (tmDetect n.val) (10000 * msCycles) = false → exec (.detectCandidateEnd n f false b) s =
      .next (mapCan u n.val (fun x => { x with detect := some (false, c % 9 + 1) }))) ∧
    ((canAt s n.val).detect = some (true, c) → exec (.detectCandidateEnd n f true true) s = .next (detectEnd (setF u (Fld.CANn_ABR_DATA n.val) c) n.val true)) ∧
    ((canAt s n.val).detect = some (true, c) → p = false ∨ b = false → timeRan u (tmDetect n.val) (1000 * msCycles) = true → exec (.detectCandidateEnd n f p b) s = .next (detectEnd u n.val true)) ∧
    ((canAt s n.val).detect = some (true, c) → p = false ∨ b = false → timeRan u (tmDetect n.val) (1000 * msCycles) = false → exec (.detectCandidateEnd n f p b) s =
      .next (mapCan u n.val (fun x => { x with detect := some (true, c % 4 + 1) })))) ∧
  (∀ (k : Fin 4096) (x : MapEntry) (s : State), mapEnt? s k.val = some x → x.kind = .canIn → x.node = 0 → x.timeout ≠ 0 → feRuns s = true → timeRan s (tmCanIn k.val) (x.timeout * msCycles) = true →
    exec (.canInTimeout k) s = .next (writerQuality s .field x.channel x.index .absent)) ∧
  (∀ (n : Fin 12) (s : State), feRuns s = true → s.tick % 4000 = 0 → takeOffset s .canAudit n.val = (0, s) →
    ((getF s (Fld.CANn_CNT_COUNT n.val 9) + getF s (Fld.CANn_CNT_COUNT n.val 10) + getF s (Fld.CANn_CNT_COUNT n.val 11) + getF s (Fld.CANn_CNT_COUNT n.val 12) + txPending s n.val) % 2 ^ 32 =
      getF s (Fld.CANn_CNT_COUNT n.val 8) → exec (.canAudit n) s = .next s) ∧
    ((getF s (Fld.CANn_CNT_COUNT n.val 9) + getF s (Fld.CANn_CNT_COUNT n.val 10) + getF s (Fld.CANn_CNT_COUNT n.val 11) + getF s (Fld.CANn_CNT_COUNT n.val 12) + txPending s n.val) % 2 ^ 32 ≠
      getF s (Fld.CANn_CNT_COUNT n.val 8) → exec (.canAudit n) s = .next (raise (latchF s (Fld.CANn_STAT_AUDIT_FAIL n.val) 1) .canAudit n.val))) ∧
  (∀ (n : Fin 12) (s : State), rcOn s n.val = true → timeRan s (tmCall n.val) (getF s (Fld.CANn_RC_CFG_CALL_PERIOD n.val) * 1000 * msCycles) = true →
    exec (.rollCallTimer n) s = .next (rcSend (startTime s (tmCall n.val)) n.val 0 0 0 [])) ∧
  (∀ (n : Fin 12) (uid : BitVec 64) (k : Nat) (d : CanNode) (s : State), canSends s n.val = true → rcOn s n.val = true →
    (canAt s n.val).nodes.find? (fun kv => kv.2.uid == uid.toNat) = some (k, d) →
    exec (.answer n uid) s = .next (mapNode (rcSend s n.val 2 k d.hb (octetsLe 8 uid.toNat)) n.val k (fun x => if x.st = 3 then x else { x with st := 2 }))) ∧
  (∀ (n : Fin 12) (k b : Fin 256) (uid : BitVec 64) (d : CanNode) (s : State), canOn s n.val = true → rcOn s n.val = true → forced s .rcEvent n.val = false →
    tabGet? (canAt s n.val).nodes k.val = some d → d.uid = uid.toNat → d.st = 3 →
    exec (.present n k b uid) s = .next (mapNode s n.val k.val (fun x => { x with st := 3, status := b.val, last := some (elapsedUs s) }))) ∧
  (∀ (n : Fin 12) (k : Fin 256) (uid : BitVec 64) (d : CanNode) (s : State), canOn s n.val = true → rcOn s n.val = true → tabGet? (canAt s n.val).nodes k.val = some d →
    d.uid = uid.toNat → d.st = 3 → exec (.leave n k uid) s = .next (absentNode s n.val k.val)) ∧
  (∀ (n : Fin 12) (k : Fin 128) (d : CanNode) (s : State), tabGet? (canAt s n.val).nodes k.val = some d → d.st = 3 → feRuns s = true → heartbeatMissed s n.val d = true →
    exec (.nodeHeartbeatMiss n k) s = .next (absentNode s n.val k.val))

/-- The commands of the Modbus lines and the GPIO pins answer a next state with their own effect (11 R358 to R371). -/
def Obligations.FieldLineCommandsComplete : Prop :=
  (∀ (k : Fin 4096) (x : MapEntry) (l : Nat) (y : MapEntry) (g : List (Nat × MapEntry)) (s : State), mapEnt? s k.val = some x → groupWith s (x.channel - 16) k.val = (l, y) :: g →
    x.kind = .mbRead → uartOn s (x.channel - 16) = true → (stationAt s (x.channel - 16) x.node).absent = false → (uartAt s (x.channel - 16)).due.contains l = false →
    timeRan s (tmPoll l) (x.period * msCycles) = true → exec (.mbPollDue k) s = .next (mapUart (startTime s (tmPoll l)) (x.channel - 16) (fun z => { z with due := z.due ++ [l] }))) ∧
  (∀ (u : Fin 8) (k : Nat) (t : List Nat) (x : MapEntry) (s v : State), uartOn s u.val = true → (uartAt s u.val).trans = none → lineQuiet s u.val = true → (uartAt s u.val).writes = k :: t →
    v = mapUart s u.val (fun z => { z with writes := t }) → mapEnt? v k = some x → x.node ≠ 0 →
    exec (.mbRequestSend u) s = .next (mbBegin (mapMap (if (writePdu v x).2 then uartCount v u.val 8 else v) k (fun e => { e with loaded := some (outValue v e) })) u.val
      { job := .write k, station := x.node, fn := x.fn, request := (writePdu v x).1 })) ∧
  (∀ (u : Fin 8) (k : Nat) (t : List Nat) (x : MapEntry) (s v : State), uartOn s u.val = true → (uartAt s u.val).trans = none → lineQuiet s u.val = true → (uartAt s u.val).writes = k :: t →
    v = mapUart s u.val (fun z => { z with writes := t }) → mapEnt? v k = some x → x.node = 0 →
    exec (.mbRequestSend u) s = .next (setUndeliv (mbBegin (mapMap (if (writePdu v x).2 then uartCount v u.val 8 else v) k (fun e => { e with loaded := some (outValue v e) })) u.val
      { job := .pause, request := (writePdu v x).1 }) x.index false)) ∧
  (∀ (u : Fin 8) (k l : Nat) (t : List Nat) (x : MapEntry) (g : List (Nat × MapEntry)) (s v : State), uartOn s u.val = true → (uartAt s u.val).trans = none → lineQuiet s u.val = true →
    (uartAt s u.val).writes = [] → (uartAt s u.val).due = k :: t → v = mapUart s u.val (fun z => { z with due := t }) → groupWith v u.val k = (l, x) :: g →
    exec (.mbRequestSend u) s = .next (mbBegin v u.val { job := .read l, station := x.node, fn := x.fn, request := readPdu ((l, x) :: g) })) ∧
  (∀ (u : Fin 8) (f : List Nat) (s : State), uartOn s u.val = true → forced s .mbEvent u.val = false → deOn s u.val = false → 4 ≤ f.length → f.length ≤ 256 →
    crc16 (f.take (f.length - 2)) = leOctets (f.drop (f.length - 2)) → exec (.mbResponse u f false false) s = .next (mbAccept (uartCount s u.val 1) u.val f)) ∧
  (∀ (u : Fin 8) (f : List Nat) (b : Bool) (s : State), uartOn s u.val = true → forced s .mbEvent u.val = false → deOn s u.val = false →
    exec (.mbResponse u f b true) s = .next (uartCount s u.val 4) ∧ (f.length ≤ 256 → exec (.mbResponse u f true false) s = .next (uartCount s u.val 3)) ∧
    (f.length < 4 → exec (.mbResponse u f false false) s = .next (uartCount s u.val 2))) ∧
  (∀ (u : Fin 8) (t : MbTrans) (s v : State), (uartAt s u.val).trans = some t → uartOn s u.val = true → timeRan s (tmMb u.val) (getF s (Fld.UARTn_TIMING_TIMEOUT_MS u.val) * msCycles) = true → t.job ≠ .pause → lineQuiet s u.val = true →
    v = mapStation (uartCount s u.val 5) u.val t.station (fun d => { d with timeouts := satAt 65535 (d.timeouts + 1) }) →
    (t.attempts ≤ getF v (Fld.UARTn_CFG_RETRIES u.val) → exec (.mbTimeout u) s =
      .next (mapUart (mbTransmit v u.val t.request) u.val (fun z => { z with trans := some { t with attempts := t.attempts + 1 } }))) ∧
    (getF v (Fld.UARTn_CFG_RETRIES u.val) < t.attempts → exec (.mbTimeout u) s = .next (stationAbsent (mbOver v u.val) u.val t.station))) ∧
  (∀ (u : Fin 8) (t : MbTrans) (s : State), (uartAt s u.val).trans = some t → uartOn s u.val = true → timeRan s (tmMb u.val) (getF s (Fld.UARTn_TIMING_TIMEOUT_MS u.val) * msCycles) = true →
    t.job = .pause → exec (.mbTimeout u) s = .next (mbOver s u.val)) ∧
  (∀ (u : Fin 8) (st : Fin 248) (l : Nat) (x : MapEntry) (g : List (Nat × MapEntry)) (s : State), uartOn s u.val = true → (stationAt s u.val st.val).absent = true → timeRan s (tmProbe u.val st.val) (getF s (Fld.UARTn_TIMING_ABSENT_POLL_MS u.val) * msCycles) = true →
    (pollGroups s u.val).find? (fun g => g.any (fun kv => kv.2.node == st.val)) = some ((l, x) :: g) → (uartAt s u.val).due.contains l = false →
    exec (.mbAbsentProbe u st) s = .next (mapUart (startTime s (tmProbe u.val st.val)) u.val (fun z => { z with due := z.due ++ [l] }))) ∧
  (∀ (u : Fin 8) (s : State), feRuns s = true → exec (.uartDisable u) s = .next (uartLeave (mapUart (uartFields s u.val 2 0) u.val (fun x => { x with off := true })) u.val)) ∧
  (∀ (u : Fin 8) (s v : State), feRuns s = true → getB s (Fld.UARTn_CFG_EN u.val) = true → v = mapUart (uartFields s u.val 3 0) u.val (fun x => { x with off := false }) → uartOn v u.val = false →
    exec (.uartEnable u) s = .next (uartOnline v u.val)) ∧
  (∀ (u : Fin 8) (s : State), feRuns s = true → exec (.uartClearCounters u) s = .next ((List.range 9).foldl (fun v i => setF v (Fld.UARTn_CNT_COUNT u.val i) 0) (uartFields s u.val 7 0))) ∧
  (∀ (p : Fin 64) (b : Bool) (s v : State) (kv : Nat × MapEntry), feRuns s = true → v = readLand { s with lands := tabPut s.lands p.val b } p.val →
    (entriesOf v .gpioIn 24).find? (fun kv => kv.2.pin == p.val) = some kv → exec (.gpioInChange p b) s = .next (gpioWrite v kv.2))

/-- The commands of the memories answer a next state with their own effect (12 R391 to R403). -/
def Obligations.MemoryCommandsComplete : Prop :=
  (∀ (p : MemPlace) (a : Fin 0x200000000) (l : Bool) (s : State), regionOn s p.region = true → placeHas p.region a.val = true → s.flt.inj = none →
    exec (.patrolScrub p a .clean l) s = .next (if l then passEnd s p.region else s) ∧
    (∀ y : Fin 20, exec (.patrolScrub p a (.corrected y) l) s = .next (if l then passEnd (corrected s p.region a.val y.val) p.region else corrected s p.region a.val y.val)) ∧
    (∀ y : Fin 20, exec (.patrolScrub p a (.due y) false) s =
      .next (raiseSev (dueAction (recordLast (incSatF s (Fld.MEM_DUE_DETECTED p.region)) p.region a.val y.val true false) p a.val) .memDue p.region p.severity))) ∧
  (∀ (r : Fin 7) (s : State),
    (getF s Fld.MEM_CE_CFG_LIMIT < tabGet 0 s.mem.hour r.val → s.mem.hourRaised.contains r.val = false →
      exec (.ceRateHour r false) s = .next (raise (mapMem s (fun m => { m with hourRaised := m.hourRaised ++ [r.val] })) .memCeRate r.val)) ∧
    (tabGet 0 s.mem.hour r.val ≤ getF s Fld.MEM_CE_CFG_LIMIT → timeRan s (tmHour r.val) hourCycles = true →
      exec (.ceRateHour r true) s = .next (startTime (mapMem s (fun m => { m with hour := tabDel m.hour r.val, hourRaised := m.hourRaised.filter (· != r.val) })) (tmHour r.val)))) ∧
  (∀ (p : Fin 0x200000) (s v : State), s.mem.qualify.contains p.val = true → s.mem.copying = none → v = mapMem s (fun m => { m with qualify := m.qualify.erase p.val }) →
    (getF v Fld.MEM_DRAM_STAT_SPARE_LEFT ≠ 0 → forced v .dramSpares 0 = false → exec (.pageRetire p) s = .next (mapMem v (fun m => { m with copying := some p.val }))) ∧
    (getF v Fld.MEM_DRAM_STAT_SPARE_LEFT = 0 → exec (.pageRetire p) s = .next (raise v .dramSpares))) ∧
  (∀ (p : Nat) (s : State), s.mem.copying = some p → exec .pageCopyDone s = .next (dramStat (mapMem s (fun m => { m with copying := none, retired := m.retired ++ [p] })))) ∧
  (∀ (b i : Fin 8192) (s u : State) (g : Bool), nandOn s = true → s.mem.refresh.contains b.val = true → b ≠ i → s.mem.badBlocks.contains i.val = false → s.mem.twin = none →
    grantNow s .refresh = (u, g) → exec (.nandRefresh b i) s = .next (if g then mapMem u (fun m => { m with twin := some (b.val, i.val) }) else u)) ∧
  (∀ (s : State) (b i : Nat), s.mem.twin = some (b, i) →
    refreshEnd s = incSatF (eraseBlock (mapMem s (fun m => { m with twin := none, refresh := m.refresh.filter (· != b) })) b) Fld.MEM_NAND_STAT2_REFRESHED) ∧
  (∀ (w : List (Fin 8192)) (s : State), nandOn s = true → modeOf s ≠ 7 → (s.mem.nandNow = true ∨ timeRan s tmPatrol (getF s Fld.MEM_SCRUB_CFG_NAND_DAYS * (24 * hourCycles)) = true) →
    exec (.nandPatrol w []) s = .next (mapMem (norCheck (setF (startTime s tmPatrol) Fld.MEM_NAND_STAT2_REFRESHED 0)) (fun m =>
      { m with nandNow := false, refresh := w.foldl (fun l b => if l.contains b.val || m.badBlocks.contains b.val then l else l ++ [b.val]) m.refresh }))) ∧
  (∀ (k : Fin 4096) (s u : State), nandOn s = true → modeOf s ≠ 7 → s.mem.nandNow = true → s.mem.lostImages.contains k.val = false →
    u = mapMem (norCheck (setF (startTime s tmPatrol) Fld.MEM_NAND_STAT2_REFRESHED 0)) (fun m => { m with nandNow := false }) →
    exec (.nandPatrol [] [k]) s = .next (raise (mapMem u (fun m => { m with lostImages := m.lostImages ++ [k.val] })) .imageLost k.val)) ∧
  (∀ (b i : Fin 8192) (s : State), nandOn s = true → modeOf s ≠ 7 → b ≠ i → s.mem.badBlocks.contains b.val = false → s.mem.badBlocks.contains i.val = false → s.mem.twin = none →
    exec (.nandRetentionRewrite b i) s = .next (withGrant s .refresh (fun u => eraseBlock (mapMem u (fun m => { m with refresh := m.refresh.filter (· != b.val) })) b.val))) ∧
  (∀ (b : Fin 8192) (s v : State), nandOn s = true → s.mem.badBlocks.contains b.val = false →
    v = nandStat (mapMem s (fun m => { m with badBlocks := m.badBlocks ++ [b.val], refresh := m.refresh.filter (· != b.val) })) →
    (sparesReported s = 0 → exec (.nandBlockFail b) s = .next (raiseSev s .nandSpares 0 .severe)) ∧
    (sparesReported s ≠ 0 → sparesReported v < 32 → exec (.nandBlockFail b) s = .next (raise v .nandSpares)) ∧
    (sparesReported s ≠ 0 → 32 ≤ sparesReported v → exec (.nandBlockFail b) s = .next v)) ∧
  (∀ s v : State, domainOn s 4 = true → s.tick % 400 = 0 → v = incF s Fld.MEM_AUDIT_AUDITS → (∀ b, takeOffset v .fabricAudit b = (0, v)) → (∀ b < 6, balanceOk v b 0 = true) →
    exec .fabricAudit s = .next v) ∧
  (∀ s : State, domainOn s 4 = true → exec .sramScrubNow s = .next (mapMem (memFields s 1 0) (fun m => { m with sramNow := true }))) ∧
  (∀ s : State, regionOn s 5 = true → exec .dramScrubNow s = .next (mapMem (memFields s 2 0) (fun m => { m with dramNow := true }))) ∧
  (∀ s : State, nandOn s = true → exec .nandPatrolNow s = .next (mapMem (memFields s 3 0) (fun m => { m with nandNow := true }))) ∧
  (∀ s : State, exec .memClearCounters s = .next ((List.range 64).foldl (fun u n => setF u (Fld.MEM_SHED_COUNT n) 0)
    ((List.range 4).foldl (fun u c => setFs u [(Fld.MEM_FAB_MAX_WAIT c, 0), (Fld.MEM_FAB_AGED c, 0)])
      ((List.range 7).foldl (fun u r => setFs u [(Fld.MEM_CE_CORRECTED r, 0), (Fld.MEM_DUE_DETECTED r, 0)]) (memFields s 7 0)))))

/-- The commands of the real-time counter and the tamper logic answer a next state with their own effect (13 R404 to R429, R437). -/
def Obligations.SillCommandsComplete : Prop :=
  (∀ (q : Requester) (s : State), exec (.rtcTickLoRead q) s = .next (setReply { s with shadows := tabPut s.shadows (shadowKey 2 q) [s.rtc.count] } [bitsOf s.rtc.count 0 32])) ∧
  (∀ (q : Requester) (c : Nat) (t : List Nat) (s : State), tabGet? s.shadows (shadowKey 2 q) = some (c :: t) →
    exec (.rtcTickHiRead q) s = .next (setReply { s with shadows := tabDel s.shadows (shadowKey 2 q) } [bitsOf c 32 16])) ∧
  (∀ (q : Requester) (s : State), tabGet? s.shadows (shadowKey 2 q) = none → exec (.rtcTickHiRead q) s = .next (setReply s [bitsOf s.rtc.count 32 16])) ∧
  (∀ s : State,
    (s.rtc.pendLoad = none → exec .rtcLoad s = .next (setF (startTime { s with rtc := { s.rtc with pendLoad := some (rtcSet s) } } tmLoad) Fld.RTC_CTRL_LOAD 1)) ∧
    (s.rtc.pendLoad ≠ none → askedAgain s Fld.RTC_CTRL_LOAD = false → exec .rtcLoad s =
      .next (setF (startTime { askAgain s Fld.RTC_CTRL_LOAD with rtc := { s.rtc with pendPrev := s.rtc.pendLoad, pendLoad := some (rtcSet s) } } tmLoad) Fld.RTC_CTRL_LOAD 1))) ∧
  (∀ (v : Nat) (s : State), s.rtc.pendLoad = some v →
    (askedAgain s Fld.RTC_CTRL_LOAD = false → timeRan s tmLoad usCycles = true →
      exec .rtcLoadApply s = .next (incF (setF { s with rtc := { s.rtc with count := v % 2 ^ 48, frac := 0, pendLoad := none } } Fld.RTC_CTRL_LOAD 0) Fld.RTC_STAT_LOADS)) ∧
    (askedAgain s Fld.RTC_CTRL_LOAD = true →
      exec .rtcLoadApply s = .next (incF { takeAsk s Fld.RTC_CTRL_LOAD with rtc := { s.rtc with count := (s.rtc.pendPrev.getD v) % 2 ^ 48, frac := 0 } } Fld.RTC_STAT_LOADS))) ∧
  (∀ s v : State, getB s Fld.RTC_CTRL_ALARM_ARM = true → rtcAlarm s ≤ s.rtc.count → v = setF (latchF s Fld.RTC_CTRL_ALARM 1) Fld.RTC_CTRL_ALARM_ARM 0 →
    exec .rtcAlarmFire s = .next (if getB v Fld.RTC_CTRL_ALARM_WAKE then wakeEvent v 3 else v)) ∧
  (∀ s : State, getB s Fld.RTC_WAKE_EN = true → s.rtc.count % (max 1 (getF s Fld.RTC_WAKE_PERIOD) * 32768) = 0 →
    (modeOf s = 4 → exec .rtcWakeEvent s = .next (dozeWake s 2)) ∧ (modeOf s = 5 → exec .rtcWakeEvent s = .next (latchF s Fld.RTC_WAKE_MISSED 1)) ∧
    (modeOf s ≠ 4 → modeOf s ≠ 5 → exec .rtcWakeEvent s = .next (incF s Fld.RTC_STAT_WAKES))) ∧
  (∀ (p : BitVec 24) (s v : State), getB s Fld.PW_VMAIN_IN_RANGE = true → timeRan s tmDrift (100000 * msCycles) = true → forcedOnce s .rtcDrift 0 = false →
    v = startTime { setFs s [(Fld.RTC_DRIFT_PPM, p.toNat), (Fld.RTC_DRIFT_AGAINST_PTP, getF s Fld.NE_PTP_STAT_LOCKED), (Fld.RTC_DRIFT_FRESH, 1)] with rtc := { s.rtc with driftAt := some s.mono } } tmDrift →
    (-10000 ≤ p.toInt → p.toInt ≤ 10000 → exec (.rtcDriftMeasure p) s = .next v) ∧
    (10000 < p.toInt → s.rtc.driftFault = none → exec (.rtcDriftMeasure p) s = .next (raise { v with rtc := { v.rtc with driftFault := some s.mono } } .rtcDrift))) ∧
  (∀ (n : Fin 9) (l : List TampRead) (s v : State), sourceMet s l n.val = true → getB s (Fld.TMP_SRC_EN n.val) = true →
    v = setF s Fld.TMP_LIVE_STATE (setBit (getF s Fld.TMP_LIVE_STATE) n.val true) →
    (tamperAction v n.val < 2 → exec (.tamperEvent ⟨[n], l⟩) s = .next (tamperOne v n.val)) ∧ (2 ≤ tamperAction v n.val → exec (.tamperEvent ⟨[n], l⟩) s = .next (kerf (tamperOne v n.val)))) ∧
  (∀ (n : Fin 9) (l : List TampRead) (s : State),
    (sourceMet s l n.val = true → getB s (Fld.TMP_SRC_EN n.val) = false →
      exec (.tamperEvent ⟨[n], l⟩) s = .next (setF s Fld.TMP_LIVE_STATE (setBit (getF s Fld.TMP_LIVE_STATE) n.val true))) ∧
    (sourceMet s l n.val = false → exec (.tamperEvent ⟨[n], l⟩) s = .next (setF s Fld.TMP_LIVE_STATE (getF s Fld.TMP_LIVE_STATE)))) ∧
  (∀ (n : Fin 9) (s : State), exec (.tamperConditionClear n) s = .next (setF s Fld.TMP_LIVE_STATE (setBit (getF s Fld.TMP_LIVE_STATE) n.val false))) ∧
  (∀ s : State, s.se.queue = [] →
    exec .kerfAssert s = .next (incSatF (latchF (wipeSecure (mapSe (clearMortise s) (fun e => { e with queue := [] }))) Fld.TMP_STAT_KERF 1) Fld.TMP_STAT_KERF_COUNT)) ∧
  (∀ s : State, timeRan s tmWipe 32768 = true → exec .secureBankWipeEnd s = .next (setF s Fld.MEM_STAT_WIPING (setBit (getF s Fld.MEM_STAT_WIPING) 2 false))) ∧
  (∀ s : State, exec .tmpKerf s = .next (kerf (setFs s [(Fld.TMP_CMD_OP, 1), (Fld.TMP_CMD_RESULT, 0), (Fld.TMP_CMD_BUSY, 0), (Fld.TMP_CMD_GO, 0)]))) ∧
  (∀ s : State, getF s Fld.LC_STATE_STATE ≠ 2 →
    exec .tmpClearLog s = .next (setFs (mapSe (tmpFields s 7 0) (fun e => { e with log := [] })) [(Fld.TMP_LOG_STAT_NEXT, 0), (Fld.TMP_LOG_STAT_OVERWRITTEN, 0)])) ∧
  (∀ (i : Fin 32) (s : State), exec (.tmpLogSelWrite i) s =
    .next ((List.range 4).foldl (fun u k => setF u (Fld.TMP_LOG_W_WORD k) ((tabGet [] s.se.log i.val).getD k 0)) (setF s Fld.TMP_LOG_SEL_ENTRY i.val)))

/-- The key commands and the life-cycle commands answer a next state with their own effect (13 R419 to R434). -/
def Obligations.KeyAndLifeCommandsComplete : Prop :=
  (∀ (q : Requester) (k : Fin 2) (s u : State), u = setFs s [(Fld.KS_CMD_OP.bank q.num, 1), (Fld.KS_CMD_KEY.bank q.num, k.val)] →
    (getB u (Fld.KS_CMD_BUSY.bank q.num) = false → exec (.keyImport q k) s = .next (mapSe (setFs u [(Fld.KS_CMD_BUSY.bank q.num, 1), (Fld.KS_CMD_GO.bank q.num, 1)])
      (fun e => { e with queue := e.queue ++ [{ req := q.num, op := 1, pair := getF u (Fld.KS_SEL_PAIR.bank q.num), key := k.val }] }))) ∧
    (getB u (Fld.KS_CMD_BUSY.bank q.num) = true → exec (.keyImport q k) s = .next (askAgain u (Fld.KS_CMD_GO.bank q.num)))) ∧
  (∀ (q : Requester) (k : Fin 2) (s u : State), u = setFs s [(Fld.KS_CMD_OP.bank q.num, 2), (Fld.KS_CMD_KEY.bank q.num, k.val)] →
    (getB u (Fld.KS_CMD_BUSY.bank q.num) = false → exec (.generate q k) s = .next (mapSe (setFs u [(Fld.KS_CMD_BUSY.bank q.num, 1), (Fld.KS_CMD_GO.bank q.num, 1)])
      (fun e => { e with queue := e.queue ++ [{ req := q.num, op := 2, pair := getF u (Fld.KS_SEL_PAIR.bank q.num), key := k.val }] }))) ∧
    (getB u (Fld.KS_CMD_BUSY.bank q.num) = true → exec (.generate q k) s = .next (askAgain u (Fld.KS_CMD_GO.bank q.num)))) ∧
  (∀ (q : Requester) (k : Fin 2) (s u : State), u = setFs s [(Fld.KS_CMD_OP.bank q.num, 3), (Fld.KS_CMD_KEY.bank q.num, k.val)] →
    (getB u (Fld.KS_CMD_BUSY.bank q.num) = false → exec (.activate q k) s = .next (mapSe (setFs u [(Fld.KS_CMD_BUSY.bank q.num, 1), (Fld.KS_CMD_GO.bank q.num, 1)])
      (fun e => { e with queue := e.queue ++ [{ req := q.num, op := 3, pair := getF u (Fld.KS_SEL_PAIR.bank q.num), key := k.val }] }))) ∧
    (getB u (Fld.KS_CMD_BUSY.bank q.num) = true → exec (.activate q k) s = .next (askAgain u (Fld.KS_CMD_GO.bank q.num)))) ∧
  (∀ (q : Requester) (k : Fin 2) (s u : State), u = setFs s [(Fld.KS_CMD_OP.bank q.num, 4), (Fld.KS_CMD_KEY.bank q.num, k.val)] →
    (getB u (Fld.KS_CMD_BUSY.bank q.num) = false → exec (.keyClear q k) s = .next (mapSe (setFs u [(Fld.KS_CMD_BUSY.bank q.num, 1), (Fld.KS_CMD_GO.bank q.num, 1)])
      (fun e => { e with queue := e.queue ++ [{ req := q.num, op := 4, pair := getF u (Fld.KS_SEL_PAIR.bank q.num), key := k.val }] }))) ∧
    (getB u (Fld.KS_CMD_BUSY.bank q.num) = true → exec (.keyClear q k) s = .next (askAgain u (Fld.KS_CMD_GO.bank q.num)))) ∧
  (∀ (q : Requester) (s u : State), u = setFs s [(Fld.KS_CMD_OP.bank q.num, 5), (Fld.KS_CMD_KEY.bank q.num, 0)] →
    (getB u (Fld.KS_CMD_BUSY.bank q.num) = false → exec (.clearPair q) s = .next (mapSe (setFs u [(Fld.KS_CMD_BUSY.bank q.num, 1), (Fld.KS_CMD_GO.bank q.num, 1)])
      (fun e => { e with queue := e.queue ++ [{ req := q.num, op := 5, pair := getF u (Fld.KS_SEL_PAIR.bank q.num), key := 0 }] }))) ∧
    (getB u (Fld.KS_CMD_BUSY.bank q.num) = true → exec (.clearPair q) s = .next (askAgain u (Fld.KS_CMD_GO.bank q.num)))) ∧
  (∀ (q : Requester) (k : Fin 2) (s u : State), u = setFs s [(Fld.KS_CMD_OP.bank q.num, 6), (Fld.KS_CMD_KEY.bank q.num, k.val)] →
    (getB u (Fld.KS_CMD_BUSY.bank q.num) = false → exec (.readPublic q k) s = .next (mapSe (setFs u [(Fld.KS_CMD_BUSY.bank q.num, 1), (Fld.KS_CMD_GO.bank q.num, 1)])
      (fun e => { e with queue := e.queue ++ [{ req := q.num, op := 6, pair := getF u (Fld.KS_SEL_PAIR.bank q.num), key := k.val }] }))) ∧
    (getB u (Fld.KS_CMD_BUSY.bank q.num) = true → exec (.readPublic q k) s = .next (askAgain u (Fld.KS_CMD_GO.bank q.num)))) ∧
  (∀ (q : Requester) (s u : State), u = setFs s [(Fld.KS_CMD_OP.bank q.num, 7), (Fld.KS_CMD_KEY.bank q.num, 0)] →
    (getB u (Fld.KS_CMD_BUSY.bank q.num) = false → exec (.readId q) s = .next (mapSe (setFs u [(Fld.KS_CMD_BUSY.bank q.num, 1), (Fld.KS_CMD_GO.bank q.num, 1)])
      (fun e => { e with queue := e.queue ++ [{ req := q.num, op := 7, pair := getF u (Fld.KS_SEL_PAIR.bank q.num), key := 0 }] }))) ∧
    (getB u (Fld.KS_CMD_BUSY.bank q.num) = true → exec (.readId q) s = .next (askAgain u (Fld.KS_CMD_GO.bank q.num)))) ∧
  (∀ (c : KeyCmd) (t : List KeyCmd) (r : Nat) (s u : State), s.se.queue = c :: t → seRuns s = true → keyEffect (mapSe s (fun e => { e with queue := t })) c = (u, r) →
    exec .keyCommandDone s = .next (keyAgain (setFs u [(Fld.KS_CMD_RESULT.bank c.req, r), (Fld.KS_CMD_BUSY.bank c.req, 0), (Fld.KS_CMD_GO.bank c.req, 0)]) c.req)) ∧
  (∀ (c : KeyCmd) (s : State), getF s Fld.LC_STATE_STATE ≠ 0 → getF s Fld.LC_STATE_STATE ≠ 4 → c.op = 5 → keyEffect s c = (setSlot s c.pair {}, 0)) ∧
  (∀ (c : KeyCmd) (x : SlotPair) (s : State), getF s Fld.LC_STATE_STATE ≠ 0 → getF s Fld.LC_STATE_STATE ≠ 4 → c.op = 3 → x = slotAt s c.pair → (x.key c.key).isSome = true →
    (if c.key = 0 then x.kcv0 else x.kcv1) = getF s (Fld.KS_EXPECT_CHECK.bank c.req) →
    keyEffect s c = ((if bitOf x.policy 4 then dropOscore (setSlot s c.pair { x with active := c.key, gen := (x.gen + 1) % 4096 }) c.pair
      else setSlot s c.pair { x with active := c.key, gen := (x.gen + 1) % 4096 }), 0)) ∧
  (∀ (c : KeyCmd) (s : State), (getF s Fld.LC_STATE_STATE = 0 ∨ getF s Fld.LC_STATE_STATE = 4) → keyEffect s c = (s, 1)) ∧
  (∀ s : State, exec .challenge s = .next (freshNonce (lcFields s 1 (getF s Fld.LC_CMD_TARGET) 0))) ∧
  (∀ s : State, getF s Fld.LC_STATE_STATE = 0 → exec (.transition 1) s = .next (enterLife (clearMortise (mapSe (lcFields s 2 1 0) (fun e => { e with ownerKey := (lcSig s).take 13 }))) 1) ∧
    exec (.transition 4) s = .next (enterLife (lcFields s 2 4 0) 4)) ∧
  (∀ (t : Fin 8) (s : State), ((getF s Fld.LC_STATE_STATE = 1 ∨ getF s Fld.LC_STATE_STATE = 3) ∧ t = 2) ∨ (getF s Fld.LC_STATE_STATE = 2 ∧ t = 3) ∨
      ((getF s Fld.LC_STATE_STATE = 1 ∨ getF s Fld.LC_STATE_STATE = 2 ∨ getF s Fld.LC_STATE_STATE = 3) ∧ t = 4) →
    (s.se.nonceOk = true → exec (.transition t) s = .next (if sigOk s t.val 2 then (if t = 2 ∧ deployReady s = false then lcFields (useNonce s) 2 t.val 2
      else enterLife (lcFields (useNonce s) 2 t.val 0) t.val) else lcFields (useNonce s) 2 t.val 3)) ∧
    (s.se.nonceOk = false → exec (.transition t) s = .next (lcFields s 2 t.val 4))) ∧
  (∀ s u : State, u = setF s Fld.LC_CMD_TARGET (getF s Fld.LC_CMD_TARGET) → getF u Fld.LC_STATE_STATE = 2 → u.se.nonceOk = true →
    exec .debugUnlock s = .next (if sigOk u (getF u Fld.LC_CMD_TARGET) 3 then setF (lcFields (useNonce u) 3 (getF u Fld.LC_CMD_TARGET) 0) Fld.LC_STATE_DEBUG_OPEN 1
      else lcFields (useNonce u) 3 (getF u Fld.LC_CMD_TARGET) 3)) ∧
  (∀ s u : State, u = setF s Fld.LC_CMD_TARGET (getF s Fld.LC_CMD_TARGET) → getF u Fld.LC_STATE_STATE ≠ 2 →
    exec .debugUnlock s = .next (lcFields u 3 (getF u Fld.LC_CMD_TARGET) 1)) ∧
  (∀ s : State, timeRan s tmNonce (600000 * msCycles) = true → exec .nonceLapse s = .next { s with se := { s.se with nonceOk := false } })

/-- The mode commands answer a next state with their own effect (14 R442 to R446, R455, R457). -/
def Obligations.ModeCommandsComplete : Prop :=
  (∀ s : State, modeOf s ≤ 2 → modeOf s ≠ 0 →
    exec .modeCommission s = .next (mapPw (modeFields s 0 0) (fun p => { p with pendMode := some 0 }))) ∧
  (∀ s : State, (modeOf s ≤ 2 → modeOf s ≠ 1 →
    exec .modeRun s = .next (mapPw (modeFields s 1 0) (fun p => { p with pendMode := some 1 }))) ∧
    (modeOf s = 3 → safeCauseOther s = false →
      exec .modeRun s = .next (setF (mapPw (modeFields s 1 0) (fun p => { p with pendMode := some 1 })) Fld.PW_MODE_SAFE_COMMAND 0))) ∧
  (∀ s : State, (modeOf s = 0 ∨ modeOf s = 1) → (getF s Fld.LC_STATE_STATE ≠ 2 ∨ getB s Fld.LC_STATE_DEBUG_OPEN = true) →
    exec .modeHold s = .next (mapPw (modeFields s 2 0) (fun p => { p with pendMode := some 2 }))) ∧
  (∀ s : State, modeOf s ≤ 2 →
    exec .modeSafe s = .next (setF (mapPw (modeFields s 3 0) (fun p => { p with pendMode := some 3 })) Fld.PW_MODE_SAFE_COMMAND 1)) ∧
  (∀ s : State, (modeOf s = 0 ∨ modeOf s = 1 ∨ modeOf s = 3) → scfState s = 0 → wakeArmed s = true →
    exec .modeDoze s = .next (enterDoze (modeFields s 4 0))) ∧
  (∀ (c : Fin 4) (s : State), modeOf s = 4 → exec (.dozeExit c) s = .next (assertReset (setF s Fld.PW_DOZE_LAST_EXIT c.val) 2)) ∧
  (∀ s : State, modeOf s = 4 → exec .vmainLossInDoze s = .next (incF (setFs (vigilStart (sillSwitch
      ([13, 12, 11, 10, 9, 8, 7, 6, 5, 4, 3, 2, 1].foldl powerDown { s with me := { s.me with dozeTo := some s.rtc.count }, pw := { s.pw with vmain := none, dozeDue := none } }) false))
    [(Fld.PW_MODE_MODE, 5), (Fld.PW_DOZE_LAST_EXIT, 5), (Fld.PW_VMAIN_IN_RANGE, 0)]) Fld.PW_MODE_CHANGES))

/-- The reset sources and RST_CMD answer a next state with their own effect (14 R455 to R473). -/
def Obligations.ResetSourcesComplete : Prop :=
  (∀ s : State, exec .sillPor s = .next (setDom (assertReset s 0 true) Fld.MEM_STAT_WIPING 4 true)) ∧
  (∀ s : State, s.pw.held = [0] → s.pw.phase = .asserted →
    exec .sillPorRelease s = .next (startTime { s with rtc := { s.rtc with running := true }, pw := { s.pw with held := [], phase := .stretch } } tmStretch)) ∧
  (∀ (i : Fin 14) (s : State), s.pw.held = [i.val] → s.pw.phase = .asserted →
    exec (.resetSourceRelease i) s = .next (startTime { s with pw := { s.pw with held := [], phase := .stretch } } tmStretch)) ∧
  (∀ s : State, s.pw.nResetLow = false → timeRan s tmPin (50 * usCycles) = true → modeOf s ≠ 4 →
    exec .nresetPulse s = .next (assertReset s 3 true)) ∧
  (∀ s : State, s.pw.nResetLow = false → timeRan s tmPin (50 * usCycles) = true → modeOf s = 4 →
    exec .nresetPulse s = .next (assertReset (setF s Fld.PW_DOZE_LAST_EXIT 4) 3 true)) ∧
  (∀ s : State, domainOn s 2 = true → exec .coreUv s = .next (assertReset s 4 true)) ∧
  (∀ (c : Fin 8) (err : Fin 0x1000000) (s : State), 1 ≤ c.val → c.val ≤ 4 →
    exec (.clockLoss c err) s = .next (assertReset (mapPw (setDom (setF (incSatF s Fld.CLK_LOSS_EVENTS) Fld.CLK_LOSS_LAST c.val) Fld.CLK_STAT_STABLE c.val false)
      (fun p => { p with clkErr := tabSet 0 p.clkErr c.val err.val })) 5 true)) ∧
  (∀ s : State, domainOn s 2 = true → exec .overtemp s = .next (setFs (assertReset s 6 true) [(Fld.PW_TEMP_TEMP, 125), (Fld.PW_TEMP_HOT, 1)])) ∧
  (∀ s : State, exec .tempHot s = .next (raise (setFs s [(Fld.PW_TEMP_TEMP, 115), (Fld.PW_TEMP_HOT, 1)]) .tempHot)) ∧
  (∀ s : State, engineRuns s 3 = true → exec .svWatchdog s = .next (assertReset s 7)) ∧
  (∀ s : State, domainOn s 3 = true → exec .debugReset s = .next (assertReset s 12)) ∧
  (∀ s : State, exec .rstWarm s = .next (assertReset (setFs s [(Fld.RST_CMD_OP, 1), (Fld.RST_CMD_RESULT, 0), (Fld.RST_CMD_BLOCK, getF s Fld.RST_CMD_BLOCK),
    (Fld.RST_CMD_BUSY, 0), (Fld.RST_CMD_GO, 0)]) 10)) ∧
  (∀ s : State, exec .rstEngine s = .next (assertReset (setFs s [(Fld.RST_CMD_OP, 2), (Fld.RST_CMD_RESULT, 0), (Fld.RST_CMD_BLOCK, getF s Fld.RST_CMD_BLOCK),
    (Fld.RST_CMD_BUSY, 0), (Fld.RST_CMD_GO, 0)]) 11)) ∧
  (∀ (b : Fin 64) (d : Nat) (s : State), blockDomain? b.val = some d → domainOn s d = true → resetActive s = false → blockIdle s b.val = true →
    exec (.rstBlock b) s = .next (mapPw (setDom (startTime (setF (incF (recordSource
      (resetRegs (blockLost (rstFields s 3 b.val 0) b.val) 4 (blockRegs b.val)) 13) Fld.RST_COUNT_BLOCK_RESETS) Fld.RST_CAUSE_LEVEL 4) (tmRelease d)) Fld.CLK_PEND_RELEASE_PENDING d true)
      (fun p => { p with blocksHeld := if p.blocksHeld.contains b.val then p.blocksHeld else p.blocksHeld ++ [b.val] })))

/-- The commands of bring-up answer a next state with their own effect (14 R440, R463 to R471, R476). -/
def Obligations.BringUpCommandsComplete : Prop :=
  (∀ s : State, s.pw.phase = .stretch → timeRan s tmStretch (stretchMs s * msCycles) = true → s.pw.level ≤ 1 →
    exec .resetStretchEnd s = .next (recharge (startTime { s with pw := { s.pw with phase := .loading, nResetLow := false } } tmPin))) ∧
  (∀ s : State, s.pw.phase = .stretch → timeRan s tmStretch (stretchMs s * msCycles) = true → s.pw.level = 2 →
    exec .resetStretchEnd s = .next (askBootCheck (debugPath (startTime { s with pw := { s.pw with phase := .boot, nResetLow := false } } tmPin)))) ∧
  (∀ (o t : Fin 3) (s : State), s.pw.phase = .loading → exec (.fuseLoadDone true (some o) (some t)) s = .next (loadOver s true (some o) (some t))) ∧
  (∀ (f : Bool) (o t : Option (Fin 3)) (s : State), s.pw.phase = .loading → f = false ∨ o = none ∨ t = none → Inv s →
    exec (.fuseLoadDone f o t) s = .next (if getF s Fld.RST_LOAD_FAILS < 2 then
        startTime (mapPw (setF s Fld.RST_LOAD_FAILS (getF s Fld.RST_LOAD_FAILS + 1)) (fun p => { p with phase := .loadWait })) tmRetry
      else setF (loadOver (setF s Fld.RST_LOAD_FAILS 3) f o t) Fld.PW_MODE_SAFE_LOAD 1)) ∧
  (∀ s : State, s.pw.phase = .loadWait → timeRan s tmRetry (100 * usCycles) = true →
    exec .fuseLoadRetry s = .next { s with pw := { s.pw with phase := .loading } }) ∧
  (∀ s : State, s.pw.phase = .boot → s.pw.grants.contains .crypto = true →
    exec (.bootCheckDone true) s = .next (bootRun (mapPw (pegReturn s .crypto) (fun p => { p with norOk := if p.checkB then (p.norOk.1, true) else (true, p.norOk.2) })))) ∧
  (∀ s : State, s.pw.phase = .boot → s.pw.grants.contains .crypto = true → s.pw.triedOther = false →
    ∃ t, exec (.bootCheckDone false) s = .next t ∧ t.pw.checkB = !s.pw.checkB ∧ t.pw.triedOther = true ∧ t.pw.phase = .boot) ∧
  (∀ s : State, s.pw.phase = .recovery →
    ∃ u, u.pw.norOk = (if s.pw.prefB then (true, s.pw.norOk.2) else (s.pw.norOk.1, true)) ∧ u.regs = s.regs ∧
      exec (.bootRecoveryImage true) s = .next (setF (incF (beginReset u 1 false) Fld.RST_COUNT_RESETS) Fld.RST_CAUSE_LEVEL 1)) ∧
  (∀ s : State, s.pw.grants.contains .dram = true → modeOf s ≠ 7 → Inv s →
    exec .dramTrainDone s = .next (refreshEnd (nandStat (dramStat (setFs (setDom (pegReturn s .dram) Fld.MEM_STAT_WIPING 5 false)
      [(Fld.MEM_STAT_DRAM_READY, 1), (Fld.MEM_STAT_SELF_REFRESH, 0), (Fld.MEM_STAT_NAND_READY, 1)]))))) ∧
  (∀ (d : Fin 14) (s : State), bitOf (getF s Fld.CLK_PEND_RELEASE_PENDING) d.val = true → domainOn s d.val = true → forcedOnce s .clkAbandon d.val = false →
    timeRan s (tmRelease d.val) (holdCycles s d.val) = true → bitOf s.pw.domsHeld d.val = true → Inv s →
    exec (.domainRelease d) s = .next (releaseWhole (setF (mapPw (setDom s Fld.CLK_PEND_RELEASE_PENDING d.val false)
      (fun p => { p with domsHeld := setBit p.domsHeld d.val false, blocksHeld := p.blocksHeld.filter (fun b => blockDomain? b != some d.val) }))
      Fld.CLK_STAT_STABLE ((domainClocks d.val).foldl (fun m c => setBit m c true) (getF s Fld.CLK_STAT_STABLE))) d.val)) ∧
  (∀ (d : Fin 14) (s : State), 5 ≤ d.val → bitOf (getF s Fld.CLK_PEND_RELEASE_PENDING) d.val = true → timeRan s (tmRelease d.val) (2 * msCycles) = true →
    forced (raise s .clkAbandon d.val) .clkAbandon d.val = false →
    exec (.releaseTimeout d) s = .next (latchF (powerDown (raise s .clkAbandon d.val) d.val) Fld.CLK_PEND_ABANDONED (2 ^ d.val))) ∧
  (∀ (d : Fin 16) (s : State), 5 ≤ d.val → d.val ≤ 13 → bitOf (getF s Fld.CLK_PEND_ABANDONED) d.val = true →
    exec (.clkRetry d) s = .next (requestDomain (setDom (setFs s [(Fld.CLK_CMD_OP, 1), (Fld.CLK_CMD_RESULT, 0), (Fld.CLK_CMD_DOMAIN, d.val), (Fld.CLK_CMD_BUSY, 0),
      (Fld.CLK_CMD_GO, 0)]) Fld.CLK_PEND_ABANDONED d.val false) d.val)) ∧
  (∀ (tags : List (Fin 4096)) (c : ConfigRec) (s : State), s.pw.configDue = true → s.scf.stored = [] → getF s Fld.LC_STATE_STATE ≠ 4 → s.scf.nand = some c →
    (bringUpMode (restoreRegs s c.regs)).1 ≠ 3 →
    exec (.configCommit tags) s = .next (confirmBoot (releaseAll (restoreConfig s
      (putMode (mapPw (restoreRegs s c.regs) (fun p => { p with configDue := false, pendMode := none })) (bringUpMode (restoreRegs s c.regs)).1)
      { c with defs := usableDefs s c.defs [] } (bringUpMode (restoreRegs s c.regs)).2)))) ∧
  (∀ (tags : List (Fin 4096)) (c : ConfigRec) (s u : State), s.pw.configDue = true → s.scf.stored ≠ [] → grantNow s .crypto = (u, true) →
    u.pw.configDue = true → getF u Fld.LC_STATE_STATE ≠ 4 → u.scf.nand = some c → badImages u (tags.map (fun b => b.val)) = [] →
    (bringUpMode (restoreRegs u c.regs)).1 ≠ 3 →
    exec (.configCommit tags) s = .next (pegReturn (confirmBoot (releaseAll (restoreConfig u
      (putMode (mapPw (restoreRegs u c.regs) (fun p => { p with configDue := false, pendMode := none })) (bringUpMode (restoreRegs u c.regs)).1)
      { c with defs := usableDefs u c.defs [] } (bringUpMode (restoreRegs u c.regs)).2))) .crypto)) ∧
  (∀ (tags : List (Fin 4096)) (s u : State), s.pw.configDue = true → s.scf.stored ≠ [] → grantNow s .crypto = (u, false) → exec (.configCommit tags) s = .next u)

/-- The commands of the governor, of main power, SAT_STEP and VIO33's answer a next state with their own effect (14 R448 to R455, 15 R498, R499, 16 R515). -/
def Obligations.GovernorCommandsComplete : Prop :=
  (∀ (d : Fin 14) (s : State), modeOf s ≠ 4 → modeOf s ≠ 5 → domainOn s d.val = false → s.pw.waiting = [] →
    exec (.pegRequest (.domain d)) s = .next { s with pw := { s.pw with waiting := [{ op := .domain d, cls := 1, since := s.mono }] } }) ∧
  (∀ (o : GovOp) (s : State), (∀ d, o ≠ .domain d) → (∀ m, o ≠ .serdes m) → domainOn s (opDomain o) = true →
    (o = .frontEnd → getB s Fld.MT_STAT_STARTING = false ∧ getB s Fld.MT_STAT_FULL_PATH = false) →
    exec (.pegRequest o) s = .next (govRequest (if o = .frontEnd then setF s Fld.MT_STAT_STARTING 1 else s) o) ∧
    (govRequest (if o = .frontEnd then setF s Fld.MT_STAT_STARTING 1 else s) o).pw.waiting = insertReq { op := o, cls := o.cls, since := s.mono } s.pw.waiting) ∧
  (∀ (r : GovReq) (w : List GovReq) (s : State), s.pw.waiting = r :: w → getF s Fld.PW_GOV_HELD + opPegs s r.op ≤ getF s Fld.PW_BUDGET_BUDGET →
    exec .pegGrant s = .next (startOp (govTake s r) r.op)) ∧
  (∀ (o : GovOp) (s : State), (∀ d, o ≠ .wake d) → o ≠ .refresh → s.pw.grants.contains o = true →
    exec (.pegReturn o) s = .next (setF { s with pw := { s.pw with grants := s.pw.grants.erase o } } Fld.PW_GOV_HELD (getF s Fld.PW_GOV_HELD - grantPegs o))) ∧
  (∀ (d : Fin 14) (s : State), s.pw.grants.contains (.wake d) = true → exec (.pegReturn (.wake d)) s = .next (wakesDone (Machine.pegReturn s (.wake d)))) ∧
  (∀ s : State, s.pw.grants.contains .refresh = true → exec (.pegReturn .refresh) s = .next (Machine.pegReturn (refreshEnd s) .refresh)) ∧
  (∀ (i : Fin 64) (r : GovReq) (s : State), s.pw.waiting[i.val]? = some r → r.cls ≠ 0 → ageDue s r = true →
    exec (.pegAgeing i) s = .next (incSatF { s with pw := { s.pw with waiting := insertReq { r with cls := r.cls - 1 } (s.pw.waiting.eraseIdx i.val) } } Fld.PW_GOV_STAT_AGED)) ∧
  (∀ s : State, domainOn s 4 = true → s.tick % 400 = 0 → (takeOffset s .govAudit 0).1 = 0 →
    (takeOffset s .govAudit 0).2 = s →
    exec .govAudit s = .next (if getF s Fld.PW_GOV_HELD = standingSum (getF s Fld.PW_CFG_PROFILE) (getF s Fld.PW_PD_ON) 14 + transientSum s.pw.grants ∧
        getF s Fld.PW_GOV_HELD ≤ getF s Fld.PW_BUDGET_BUDGET then s
      else raise (latchF s Fld.PW_GOV_AUDIT_FAIL 1) .govAudit)) ∧
  (∀ (mv : Fin 32768) (ps : List (Fin 4 × SetCycle)) (s v u : State), modeOf s ≤ 3 → s.pw.failStep = 0 → vmainBad mv.val = true → Inv s →
    v = incSatF (setFs s [(Fld.PW_VMAIN_MV, mv.val), (Fld.PW_VMAIN_IN_RANGE, 0), (Fld.PW_VMAIN_WARN, 1)]) Fld.PW_VMAIN_WARNINGS →
    u = [6, 7, 8, 11, 12].foldl powerDown (mapPw v (fun p => { p with failStep := 2, failAt := s.mono, vmainBack := false, vmain := none,
                                                                      modeDram := some (modeRecord v) })) →
    exec (.powerFailWarning mv ps) s = .next (if domainOn u 9 then (List.range 4).foldl (fun u n => closeEvents u n 1)
      (ps.foldl (fun u nd => if getB u Fld.MT_STAT_FULL_PATH then closePartial u nd.1.val nd.2 else u) u) else u)) ∧
  (∀ s : State, s.pw.failStep ≠ 0 → exec .holdUpEnd s = .next (failStep7 (powerDown s 10))) ∧
  (∀ (mv : Fin 32768) (s : State), vmainIn mv.val = true → s.pw.failStep = 0 → getB s Fld.PW_SILL_ON_MAIN = false → Inv s →
    exec (.vmainReturn mv) s = .next (assertReset (sillSwitch (setFs { s with pw := { s.pw with vmain := some mv.val } }
      [(Fld.PW_VMAIN_MV, mv.val), (Fld.PW_VMAIN_IN_RANGE, 1)]) true) 1)) ∧
  (∀ (mv : Fin 32768) (s : State), vmainIn mv.val = true → s.pw.failStep ≠ 0 →
    exec (.vmainReturn mv) s = .next (mapPw (setFs { s with pw := { s.pw with vmain := some mv.val } } [(Fld.PW_VMAIN_MV, mv.val), (Fld.PW_VMAIN_IN_RANGE, 1)])
      (fun p => { p with vmainBack := true }))) ∧
  (∀ s : State, s.tick % 400 = 0 → s.shed = {} → forced s .saturated 0 = false → getB s Fld.FLT_SAT_SATURATED = false →
    ∃ t, exec .satStep s = .next t ∧ t = setFs { s with shed := {} } [(Fld.FLT_SAT_SHED_STEPS, 0), (Fld.FLT_SAT_QUIET_STEPS, satAt 127 (getF s Fld.FLT_SAT_QUIET_STEPS + 1)),
      (Fld.FLT_SAT_FLOOR, 0), (Fld.FLT_SAT_BACKBONE, 0), (Fld.FLT_SAT_NE_QUEUE, 0), (Fld.FLT_SAT_SMALL, 0), (Fld.FLT_SAT_CTX_LO_CONTEXTS, 0), (Fld.FLT_SAT_CTX_HI_CONTEXTS, 0)]) ∧
  (∀ s : State, s.tick % 400 = 0 → s.shed.floor = true → getF s Fld.FLT_SAT_SHED_STEPS = 19 → getB s Fld.FLT_SAT_SATURATED = false →
    ∃ u, exec .satStep s = .next (raise (setF u Fld.FLT_SAT_SATURATED 1) .saturated) ∧ u.flt = s.flt ∧ u.pt = s.pt ∧ u.tasks = s.tasks) ∧
  (∀ (mA : Fin 65536) (s : State), domainOn s 3 = true → forced s .vio33Overload 0 = false →
    exec (.vio33Overload mA) s = .next (raiseFault (startTime { s with pw := { s.pw with vio33Folded := true } } tmVio) .vio33Overload 0 (Detector.severity .vio33Overload 0) mA.val)) ∧
  (∀ s : State, timeRan s tmVio (100 * msCycles) = true → exec .vio33Recover s = .next { s with pw := { s.pw with vio33Folded := false } })

/-- The commands of the fault collector answer a next state with their own effect (15 R480 to R492, R500). -/
def Obligations.FaultCommandsComplete : Prop :=
  (∀ (d : Detector) (n : Fin 4096) (sev : Severity) (detail : Word) (s : State), Inv s → detects s d n.val = true →
    s.flt.queue.findIdx? (sameIdent d n.val) = none → s.flt.backlog = [] → s.flt.queue.length < 32 → sev ≠ .critical →
    ∃ t e, exec (.faultRaise d n sev detail) s = .next t ∧ t.flt.queue = s.flt.queue ++ [e] ∧ e.det = d ∧ e.inst = n.val ∧ e.sev = sev ∧
      e.detail = detail.toNat ∧ e.mode = modeOf s ∧ e.rep = 0 ∧ e.seq = s.flt.seq ∧ t.flt.seq = (s.flt.seq + 1) % 4096) ∧
  (∀ (s : State) (e : FltEntry) (r : List FltEntry), s.flt.backlog = e :: r → s.flt.queue.length < 32 →
    ∃ t, exec .backlogDrain s = .next t ∧ t.flt.queue = s.flt.queue ++ [{ e with seq := s.flt.seq }] ∧ t.flt.backlog = r ∧
      t.flt.seq = (s.flt.seq + 1) % 4096) ∧
  (∀ (seq : Fin 4096) (s : State) (e : FltEntry), presented s = some e →
    exec (.faultAck seq) s = .next (setFs (if e.seq = seq.val then removeSeq (logEntry (logFirst s e) e) seq.val else s)
      [(Fld.FLT_ACK_SEQ, seq.val), (Fld.FLT_ACK_RESULT, if e.seq = seq.val then 0 else 1), (Fld.FLT_ACK_BUSY, 0), (Fld.FLT_ACK_GO, 0)])) ∧
  (∀ (s : State) (e : FltEntry), presented s = some e → s.flt.logged.contains e.seq = false →
    exec .faultAutoAck s = .next (if autoAckCovers (getF s Fld.FLT_CFG_AUTO_ACK) e.sev then
        removeSeq (logEntry (logFirst (logFirst s e) e) e) e.seq
      else logFirst s e)) ∧
  (∀ s : State, ∃ t, exec .fltClearFirst s = .next t ∧ t.flt.first = none ∧ t.flt.queue = s.flt.queue) ∧
  (∀ s : State, Inv s → ∃ t, exec .fltClearLost s = .next t ∧ getF t Fld.FLT_LOST_VALID = 0 ∧ getF t Fld.FLT_LOST_MULTIPLE = 0 ∧
    getF t Fld.FLT_LOST_DETECTOR = 0 ∧ getF t Fld.FLT_LOST_INSTANCE = 0 ∧ t.flt = s.flt) ∧
  (∀ s : State, Inv s → ∃ t, exec .fltClearTotals s = .next t ∧ (∀ v, getF t (totalField v) = 0) ∧ getF t Fld.FLT_STAT_OVERWRITTEN = 0 ∧
    getF t Fld.FLT_STAT_DROPPED = 0 ∧ t.flt = s.flt) ∧
  (∀ (q : Requester) (det : Fin 256) (n : Fin 4096) (durationMs : Fin 256) (arg : Word) (symbols : Fin 0x100000) (d : Detector) (s : State), Inv s →
    (modeOf s = 0 ∨ modeOf s = 2) → getF s Fld.LC_STATE_STATE < 2 → s.flt.inj = none → Detector.ofCode? det.val = some d → d.forceOffered = true →
    ∃ u j, exec (.injStart q det n true durationMs arg symbols) s = .next (forceStart u d n.val) ∧ u.flt.inj = some j ∧ getF u Fld.FLT_INJ_CTL_RESULT = 0 ∧ j.det = d ∧ j.inst = n.val ∧ j.arg = arg.toNat ∧
      j.symbols = symbols.val ∧ j.endAt = (if durationMs.val = 0 then none else some (s.mono + 4 * durationMs.val))) ∧
  (∀ s : State, Inv s → ∃ t, exec .injStop s = .next t ∧ t.flt.inj = none ∧ getF t Fld.FLT_INJ_CTL_RESULT = 0 ∧ getF t Fld.FLT_INJ_CTL_OP = 2) ∧
  (∀ s : State, forceOver s = true → exec .injForceEnd s = .next { s with flt := { s.flt with inj := none } })
end

