-- ==== Sys2Proof/Laws/Ints.lean ====
section
/-! SUPPORT. Laws/Ints.lean: what saturation, division and rounding give, said once (03 R83, R84). -/

namespace Sys2Proof.Machine

/-- Bit 0 of a disjunction. -/
theorem bitOf_or0 (n m : Nat) : bitOf (n ||| m) 0 = true ↔ bitOf n 0 = true ∨ bitOf m 0 = true := by
  have e : ∀ k : Nat, bitOf k 0 = k.testBit 0 := by
    intro k
    unfold bitOf bitsOf
    simp [Nat.testBit_zero, Bool.beq_eq_decide_eq]
  rw [e, e, e, Nat.testBit_or, Bool.or_eq_true]

/-- The word of an integer in the INT32 range stands for it. -/
theorem word_int32 (i : Int) (h1 : -2147483648 ≤ i) (h2 : i ≤ 2147483647) : (wordOfInt i).toInt = i := by
  unfold wordOfInt
  rw [BitVec.toInt_ofInt, Int.bmod_def]
  split <;> omega

/-- The word of an integer in the UINT32 range stands for it. -/
theorem word_uint32 (i : Int) (h1 : 0 ≤ i) (h2 : i ≤ 4294967295) : ((wordOfInt i).toNat : Int) = i := by
  unfold wordOfInt
  rw [BitVec.toNat_ofInt]
  omega

/-- A word stands for the integer it was made of. -/
theorem asInt_word (t : VType) (h : t = .int32 ∨ t = .uint32) (i : Int) (h1 : minOf t ≤ i) (h2 : i ≤ maxOf t) : asInt t (wordOfInt i) = i := by
  rcases h with rfl | rfl
  · exact word_int32 i h1 h2
  · exact word_uint32 i h1 h2

/-- A stored INT32 or UINT32 lies in its range. -/
theorem asInt_rng (t : VType) (h : t = .int32 ∨ t = .uint32) (w : Word) : minOf t ≤ asInt t w ∧ asInt t w ≤ maxOf t := by
  rcases h with rfl | rfl
  · have := w.toInt_lt; have := w.le_toInt; simp only [minOf, maxOf, asInt]; omega
  · have := w.isLt; simp only [minOf, maxOf, asInt]; omega

/-- What satInt gives for INT32 and UINT32: the integer held within the range, SAT exactly outside it. -/
theorem satInt_spec (t : VType) (h : t = .int32 ∨ t = .uint32) (x : Int) :
    asInt t (satInt t x).w = max (minOf t) (min (maxOf t) x) ∧ ((satInt t x).fl = flSat ↔ x < minOf t ∨ maxOf t < x) ∧ ((satInt t x).fl = 0 ↔ minOf t ≤ x ∧ x ≤ maxOf t) := by
  have hm : minOf t ≤ maxOf t := by rcases h with rfl | rfl <;> decide
  unfold satInt
  split
  · rw [asInt_word t h _ (Int.le_refl _) hm]; refine ⟨by omega, ?_, ?_⟩
    · simp; omega
    · simp [flSat]; omega
  · split
    · rw [asInt_word t h _ hm (Int.le_refl _)]; refine ⟨by omega, ?_, ?_⟩
      · simp; omega
      · simp [flSat]; omega
    · rw [asInt_word t h _ (by omega) (by omega)]; refine ⟨by omega, ?_, ?_⟩
      · simp [flSat]; omega
      · simp; omega

/-- A quotient truncated toward zero stays in the range but for the one overflow. -/
theorem tdiv_rng (t : VType) (h : t = .int32 ∨ t = .uint32) (x y : Int) (hx : minOf t ≤ x ∧ x ≤ maxOf t) (hy : minOf t ≤ y ∧ y ≤ maxOf t) (h0 : y ≠ 0)
    (hn : ¬ (t = .int32 ∧ x = -2147483648 ∧ y = -1)) : minOf t ≤ Int.tdiv x y ∧ Int.tdiv x y ≤ maxOf t := by
  have hab : (Int.tdiv x y).natAbs ≤ x.natAbs := by
    rw [Int.natAbs_tdiv]; exact Nat.div_le_self ..
  rcases h with rfl | rfl
  · simp only [minOf, maxOf] at *
    refine ⟨by omega, ?_⟩
    by_contra hc
    have h2 : Int.tdiv x y = 2147483648 := by omega
    have hx2 : x = -2147483648 := by
      have : x.natAbs ≥ 2147483648 := by rw [h2] at hab; exact hab
      omega
    subst hx2
    have hmul : (Int.tdiv (-2147483648) y).natAbs * y.natAbs ≤ 2147483648 := by
      rw [Int.natAbs_tdiv]; exact Nat.div_mul_le_self ..
    rw [h2] at hmul
    have hy1 : y.natAbs = 1 := by
      have : (2147483648:Int).natAbs = 2147483648 := rfl
      rw [this] at hmul; omega
    rcases Int.natAbs_eq y with h | h
    · rw [hy1] at h; subst h; simp at h2
    · rw [hy1] at h; exact hn ⟨trivial, rfl, by rw [h]; rfl⟩
  · simp only [minOf, maxOf] at *
    have := Int.tdiv_nonneg hx.1 hy.1
    omega

/-- A remainder with the sign of the dividend stays in the range. -/
theorem tmod_rng (t : VType) (h : t = .int32 ∨ t = .uint32) (x y : Int) (hx : minOf t ≤ x ∧ x ≤ maxOf t) (hy : minOf t ≤ y ∧ y ≤ maxOf t) :
    minOf t ≤ Int.tmod x y ∧ Int.tmod x y ≤ maxOf t := by
  have hab : (Int.tmod x y).natAbs ≤ x.natAbs := by
    rw [Int.natAbs_tmod]; exact Nat.mod_le ..
  rcases h with rfl | rfl
  · simp only [minOf, maxOf] at *
    by_cases hs : 0 ≤ x
    · have := Int.tmod_nonneg y hs; omega
    · have : Int.tmod x y ≤ 0 := by
        have := Int.tmod_nonneg y (a := -x) (by omega)
        rw [Int.neg_tmod] at this; omega
      omega
  · simp only [minOf, maxOf] at *
    have := Int.tmod_nonneg y hx.1
    omega

/-- The word of an integer in the Q15 range stands for it. -/
theorem word_fix (i : Int) (h1 : -32768 ≤ i) (h2 : i ≤ 32767) : (wordOfInt i).toInt = i := word_int32 i (by omega) (by omega)

/-- What satInt gives for FIX16. -/
theorem satFix_spec (x : Int) :
    (satInt .fix16 x).w.toInt = max (-32768) (min 32767 x) ∧ ((satInt .fix16 x).fl = flSat ↔ x < -32768 ∨ 32767 < x) ∧ ((satInt .fix16 x).fl = 0 ↔ -32768 ≤ x ∧ x ≤ 32767) := by
  have m1 : minOf .fix16 = -32768 := rfl
  have m2 : maxOf .fix16 = 32767 := rfl
  unfold satInt
  rw [m1, m2]
  split
  · rw [word_fix _ (by omega) (by omega)]; refine ⟨by omega, ?_, ?_⟩
    · simp; omega
    · simp [flSat]; omega
  · split
    · rw [word_fix _ (by omega) (by omega)]; refine ⟨by omega, ?_, ?_⟩
      · simp; omega
      · simp [flSat]; omega
    · rw [word_fix _ (by omega) (by omega)]; refine ⟨by omega, ?_, ?_⟩
      · simp [flSat]; omega
      · simp; omega

/-- The nearest multiple, halves up. -/
theorem round_nat (m k : Nat) (hk : 0 < k) : ∃ z, (2 * m + k) / (2 * k) * k = z ∧ 2 * z ≤ 2 * m + k ∧ 2 * m < 2 * z + k := by
  have h1 := Nat.div_mul_le_self (2 * m + k) (2 * k)
  have h2 := Nat.lt_div_mul_add (a := 2 * m + k) (b := 2 * k) (by omega)
  have e : (2 * m + k) / (2 * k) * (2 * k) = 2 * ((2 * m + k) / (2 * k) * k) := by rw [Nat.mul_left_comm]
  rw [e] at h1 h2
  exact ⟨_, rfl, h1, by omega⟩

/-- What roundHalfAway gives: nearest, ties away from zero. -/
theorem round_spec (a : Int) (k : Nat) (hk : 0 < k) : ∃ z : Int, roundHalfAway a k * k = z ∧ 2 * (z - a).natAbs ≤ k ∧ (2 * (z - a).natAbs = k → a.natAbs < z.natAbs) := by
  obtain ⟨z, e, h1, h2⟩ := round_nat a.natAbs k hk
  unfold roundHalfAway
  dsimp only
  split
  · refine ⟨-z, by rw [← e]; push_cast; ring, by omega, by omega⟩
  · refine ⟨z, by rw [← e]; push_cast; ring, by omega, by omega⟩

end Sys2Proof.Machine
end

