-- ==== Sys2Proof/Laws/Tables.lean ====
section
/-! SUPPORT. Laws/Tables.lean: reading a sparse table after a write, and the canonical form that every table operation keeps. -/

namespace Sys2Proof.Machine

variable {α : Type}

theorem tabSortedFrom_cons (lo : Option Nat) (j : Nat) (a : α) (t : Tab α) :
    tabSortedFrom lo ((j, a) :: t) = true ↔ (∀ l, lo = some l → l < j) ∧ tabSortedFrom (some j) t = true := by
  cases lo <;> simp [tabSortedFrom]

theorem tabSortedFrom_weaken {t : Tab α} {l m : Nat} (h : tabSortedFrom (some m) t = true) (hl : l ≤ m) : tabSortedFrom (some l) t = true := by
  cases t with
  | nil => rfl
  | cons p t =>
    obtain ⟨j, a⟩ := p
    rw [tabSortedFrom_cons] at h ⊢
    exact ⟨fun n hn => by have := h.1 m rfl; cases hn; omega, h.2⟩

theorem tabSortedFrom_none {t : Tab α} {m : Nat} (h : tabSortedFrom (some m) t = true) : tabSortedFrom none t = true := by
  cases t with
  | nil => rfl
  | cons p t => obtain ⟨j, a⟩ := p; rw [tabSortedFrom_cons] at h ⊢; exact ⟨by simp, h.2⟩

/-- Below the least key of a table nothing is listed. -/
theorem tabGet?_below {t : Tab α} {l k : Nat} (h : tabSortedFrom (some l) t = true) (hk : k ≤ l) : tabGet? t k = none := by
  cases t with
  | nil => rfl
  | cons p t =>
    obtain ⟨j, a⟩ := p
    rw [tabSortedFrom_cons] at h
    have := h.1 l rfl
    simp only [tabGet?]
    rw [if_neg (by omega), if_pos (by omega)]

theorem tabGet?_tabPut_same (t : Tab α) (k : Nat) (a : α) : tabGet? (tabPut t k a) k = some a := by
  induction t with
  | nil => simp [tabPut, tabGet?]
  | cons p t ih =>
    obtain ⟨j, b⟩ := p
    simp only [tabPut]
    split
    · simp [tabGet?]
    · split
      · simp [tabGet?]
      · simp only [tabGet?]
        rw [if_neg ‹_›, if_neg ‹_›, ih]

theorem tabGet?_tabPut_ne (t : Tab α) {k m : Nat} (a : α) (hne : k ≠ m) : tabGet? (tabPut t k a) m = tabGet? t m := by
  induction t with
  | nil => simp [tabPut, tabGet?, hne]
  | cons p t ih =>
    obtain ⟨j, b⟩ := p
    simp only [tabPut]
    split
    · simp only [tabGet?]
      rw [if_neg hne]
      split
      · rw [if_neg (by omega), if_pos (by omega)]
      · rfl
    · split
      · subst_vars
        simp only [tabGet?]
        rw [if_neg hne, if_neg hne]
      · simp only [tabGet?, ih]

theorem tabGet?_tabDel_same {t : Tab α} (h : tabSortedFrom none t = true) (k : Nat) : tabGet? (tabDel t k) k = none := by
  induction t with
  | nil => rfl
  | cons p t ih =>
    obtain ⟨j, b⟩ := p
    rw [tabSortedFrom_cons] at h
    simp only [tabDel]
    split
    · subst_vars; exact tabGet?_below h.2 (Nat.le_refl _)
    · simp only [tabGet?]
      rw [if_neg ‹_›, ih (tabSortedFrom_none h.2)]
      simp

theorem tabGet?_tabDel_ne {t : Tab α} (h : tabSortedFrom none t = true) {k m : Nat} (hne : k ≠ m) : tabGet? (tabDel t k) m = tabGet? t m := by
  induction t with
  | nil => rfl
  | cons p t ih =>
    obtain ⟨j, b⟩ := p
    rw [tabSortedFrom_cons] at h
    simp only [tabDel]
    split
    · subst_vars
      simp only [tabGet?]
      rw [if_neg hne]
      split
      · exact tabGet?_below h.2 (by omega)
      · rfl
    · simp only [tabGet?, ih (tabSortedFrom_none h.2)]

/-- A table read at the key just written gives the value written. -/
theorem tabGet_tabSet_same [DecidableEq α] {d : α} {t : Tab α} (h : tabSortedFrom none t = true) (k : Nat) (a : α) :
    tabGet d (tabSet d t k a) k = a := by
  unfold tabGet tabSet
  split
  · subst_vars; rw [tabGet?_tabDel_same h]; rfl
  · rw [tabGet?_tabPut_same]; rfl

/-- A table read at any other key gives what it gave. -/
theorem tabGet_tabSet_ne [DecidableEq α] {d e : α} {t : Tab α} (h : tabSortedFrom none t = true) {k m : Nat} (a : α) (hne : k ≠ m) :
    tabGet e (tabSet d t k a) m = tabGet e t m := by
  unfold tabGet tabSet
  split
  · rw [tabGet?_tabDel_ne h hne]
  · rw [tabGet?_tabPut_ne _ _ hne]

theorem tabGet_tabPut_same (d : α) (t : Tab α) (k : Nat) (a : α) : tabGet d (tabPut t k a) k = a := by
  unfold tabGet; rw [tabGet?_tabPut_same]; rfl

theorem tabGet_tabPut_ne (d : α) (t : Tab α) {k m : Nat} (a : α) (hne : k ≠ m) : tabGet d (tabPut t k a) m = tabGet d t m := by
  unfold tabGet; rw [tabGet?_tabPut_ne _ _ hne]

theorem tabPut_sorted {t : Tab α} {lo : Option Nat} (h : tabSortedFrom lo t = true) {k : Nat} (hk : ∀ l, lo = some l → l < k) (a : α) :
    tabSortedFrom lo (tabPut t k a) = true := by
  induction t generalizing lo with
  | nil => simp only [tabPut]; rw [tabSortedFrom_cons]; exact ⟨hk, rfl⟩
  | cons p t ih =>
    obtain ⟨j, b⟩ := p
    rw [tabSortedFrom_cons] at h
    simp only [tabPut]
    split
    · rw [tabSortedFrom_cons]
      exact ⟨hk, by rw [tabSortedFrom_cons]; exact ⟨fun l hl => by cases hl; assumption, h.2⟩⟩
    · split
      · subst_vars; rw [tabSortedFrom_cons]; exact ⟨hk, h.2⟩
      · rw [tabSortedFrom_cons]
        exact ⟨h.1, ih h.2 (fun l hl => by cases hl; omega)⟩

theorem tabDel_sorted {t : Tab α} {lo : Option Nat} (h : tabSortedFrom lo t = true) (k : Nat) : tabSortedFrom lo (tabDel t k) = true := by
  induction t generalizing lo with
  | nil => rfl
  | cons p t ih =>
    obtain ⟨j, b⟩ := p
    rw [tabSortedFrom_cons] at h
    simp only [tabDel]
    split
    · cases lo with
      | none => exact tabSortedFrom_none h.2
      | some l => exact tabSortedFrom_weaken h.2 (Nat.le_of_lt (h.1 l rfl))
    · rw [tabSortedFrom_cons]; exact ⟨h.1, ih h.2⟩

theorem tabSet_sorted [DecidableEq α] {t : Tab α} (h : tabSortedFrom none t = true) (d : α) (k : Nat) (a : α) :
    tabSortedFrom none (tabSet d t k a) = true := by
  unfold tabSet
  split
  · exact tabDel_sorted h k
  · exact tabPut_sorted h (by simp) a

theorem filter_sorted {t : Tab α} {lo : Option Nat} (h : tabSortedFrom lo t = true) (p : Nat × α → Bool) :
    tabSortedFrom lo (t.filter p) = true := by
  induction t generalizing lo with
  | nil => rfl
  | cons q t ih =>
    obtain ⟨j, b⟩ := q
    rw [tabSortedFrom_cons] at h
    rw [List.filter_cons]
    split
    · rw [tabSortedFrom_cons]; exact ⟨h.1, ih h.2⟩
    · cases lo with
      | none => exact tabSortedFrom_none (ih h.2)
      | some l => exact tabSortedFrom_weaken (ih h.2) (Nat.le_of_lt (h.1 l rfl))

/-- Writing keeps a table free of entries equal to what an unlisted key reads as. -/
theorem tabSet_wf [DecidableEq α] {d : α} {t : Tab α} (h : tabWf d t = true) (k : Nat) (a : α) : tabWf d (tabSet d t k a) = true := by
  unfold tabWf at h ⊢
  rw [Bool.and_eq_true] at h ⊢
  refine ⟨tabSet_sorted h.1 d k a, ?_⟩
  have h2 := h.2
  rw [List.all_eq_true] at h2 ⊢
  unfold tabSet
  split
  · intro p hp
    refine h2 p ?_
    clear h h2
    induction t with
    | nil => exact hp
    | cons q t ih =>
      obtain ⟨j, b⟩ := q
      simp only [tabDel] at hp
      split at hp
      · exact List.mem_cons_of_mem _ hp
      · rcases List.mem_cons.1 hp with rfl | hp
        · exact List.mem_cons_self
        · exact List.mem_cons_of_mem _ (ih hp)
  · intro p hp
    have hm : p = (k, a) ∨ p ∈ t := by
      clear h h2
      induction t with
      | nil => simpa [tabPut] using hp
      | cons q t ih =>
        obtain ⟨j, b⟩ := q
        simp only [tabPut] at hp
        split at hp
        · rcases List.mem_cons.1 hp with rfl | hp
          · exact .inl rfl
          · exact .inr hp
        · split at hp
          · rcases List.mem_cons.1 hp with rfl | hp
            · exact .inl rfl
            · exact .inr (List.mem_cons_of_mem _ hp)
          · rcases List.mem_cons.1 hp with rfl | hp
            · exact .inr List.mem_cons_self
            · exact (ih hp).imp_right (List.mem_cons_of_mem _)
    rcases hm with rfl | hm
    · simpa using ‹¬_›
    · exact h2 p hm

end Sys2Proof.Machine
end

