-- ==== Sys2Proof/Laws/State.lean ====
section
/-! SUPPORT. Laws/State.lean: what every shared update of State leaves in each field, one lemma per field and update. -/

namespace Sys2Proof.Machine

@[simp] theorem setF_tick (s : State) (f : RF) (v : Nat) : (setF s f v).tick = s.tick := rfl
@[simp] theorem setF_mono (s : State) (f : RF) (v : Nat) : (setF s f v).mono = s.mono := rfl
@[simp] theorem setF_fc (s : State) (f : RF) (v : Nat) : (setF s f v).fc = s.fc := rfl
@[simp] theorem setF_el (s : State) (f : RF) (v : Nat) : (setF s f v).el = s.el := rfl
@[simp] theorem setF_gridAcc (s : State) (f : RF) (v : Nat) : (setF s f v).gridAcc = s.gridAcc := rfl
@[simp] theorem setF_freeCtr (s : State) (f : RF) (v : Nat) : (setF s f v).freeCtr = s.freeCtr := rfl
@[simp] theorem setF_sent (s : State) (f : RF) (v : Nat) : (setF s f v).sent = s.sent := rfl
@[simp] theorem setF_reply (s : State) (f : RF) (v : Nat) : (setF s f v).reply = s.reply := rfl
@[simp] theorem setF_evlog (s : State) (f : RF) (v : Nat) : (setF s f v).evlog = s.evlog := rfl
@[simp] theorem setF_flt (s : State) (f : RF) (v : Nat) : (setF s f v).flt = s.flt := rfl
@[simp] theorem setF_pw (s : State) (f : RF) (v : Nat) : (setF s f v).pw = s.pw := rfl
@[simp] theorem setF_pt (s : State) (f : RF) (v : Nat) : (setF s f v).pt = s.pt := rfl
@[simp] theorem setF_tasks (s : State) (f : RF) (v : Nat) : (setF s f v).tasks = s.tasks := rfl
@[simp] theorem setF_trends (s : State) (f : RF) (v : Nat) : (setF s f v).trends = s.trends := rfl
@[simp] theorem setF_jrun (s : State) (f : RF) (v : Nat) : (setF s f v).jrun = s.jrun := rfl
@[simp] theorem setF_rtc (s : State) (f : RF) (v : Nat) : (setF s f v).rtc = s.rtc := rfl
@[simp] theorem setF_shadows (s : State) (f : RF) (v : Nat) : (setF s f v).shadows = s.shadows := rfl
@[simp] theorem setF_loops (s : State) (f : RF) (v : Nat) : (setF s f v).loops = s.loops := rfl
@[simp] theorem setF_groups (s : State) (f : RF) (v : Nat) : (setF s f v).groups = s.groups := rfl
@[simp] theorem setF_sub (s : State) (f : RF) (v : Nat) : (setF s f v).sub = s.sub := rfl
@[simp] theorem setF_subEl (s : State) (f : RF) (v : Nat) : (setF s f v).subEl = s.subEl := rfl
@[simp] theorem setF_me (s : State) (f : RF) (v : Nat) : (setF s f v).me = s.me := rfl
@[simp] theorem setF_tr (s : State) (f : RF) (v : Nat) : (setF s f v).tr = s.tr := rfl
@[simp] theorem setF_tc (s : State) (f : RF) (v : Nat) : (setF s f v).tc = s.tc := rfl
@[simp] theorem setF_macs (s : State) (f : RF) (v : Nat) : (setF s f v).macs = s.macs := rfl
@[simp] theorem setF_neArea (s : State) (f : RF) (v : Nat) : (setF s f v).neArea = s.neArea := rfl
@[simp] theorem setF_shed (s : State) (f : RF) (v : Nat) : (setF s f v).shed = s.shed := rfl
@[simp] theorem setF_se (s : State) (f : RF) (v : Nat) : (setF s f v).se = s.se := rfl
@[simp] theorem setF_net (s : State) (f : RF) (v : Nat) : (setF s f v).net = s.net := rfl
@[simp] theorem setF_field (s : State) (f : RF) (v : Nat) : (setF s f v).field = s.field := rfl
@[simp] theorem setF_lands (s : State) (f : RF) (v : Nat) : (setF s f v).lands = s.lands := rfl
@[simp] theorem setF_mem (s : State) (f : RF) (v : Nat) : (setF s f v).mem = s.mem := rfl
@[simp] theorem setF_scf (s : State) (f : RF) (v : Nat) : (setF s f v).scf = s.scf := rfl
@[simp] theorem setF_cyc (s : State) (f : RF) (v : Nat) : (setF s f v).cyc = s.cyc := rfl
@[simp] theorem setF_timers (s : State) (f : RF) (v : Nat) : (setF s f v).timers = s.timers := rfl
@[simp] theorem setF_pending (s : State) (f : RF) (v : Nat) : (setF s f v).pending = s.pending := rfl

@[simp] theorem setB_tick (s : State) (f : RF) (b : Bool) : (setB s f b).tick = s.tick := rfl
@[simp] theorem setB_mono (s : State) (f : RF) (b : Bool) : (setB s f b).mono = s.mono := rfl
@[simp] theorem setB_fc (s : State) (f : RF) (b : Bool) : (setB s f b).fc = s.fc := rfl
@[simp] theorem setB_el (s : State) (f : RF) (b : Bool) : (setB s f b).el = s.el := rfl
@[simp] theorem setB_gridAcc (s : State) (f : RF) (b : Bool) : (setB s f b).gridAcc = s.gridAcc := rfl
@[simp] theorem setB_freeCtr (s : State) (f : RF) (b : Bool) : (setB s f b).freeCtr = s.freeCtr := rfl
@[simp] theorem setB_sent (s : State) (f : RF) (b : Bool) : (setB s f b).sent = s.sent := rfl
@[simp] theorem setB_reply (s : State) (f : RF) (b : Bool) : (setB s f b).reply = s.reply := rfl
@[simp] theorem setB_evlog (s : State) (f : RF) (b : Bool) : (setB s f b).evlog = s.evlog := rfl
@[simp] theorem setB_flt (s : State) (f : RF) (b : Bool) : (setB s f b).flt = s.flt := rfl
@[simp] theorem setB_pw (s : State) (f : RF) (b : Bool) : (setB s f b).pw = s.pw := rfl
@[simp] theorem setB_pt (s : State) (f : RF) (b : Bool) : (setB s f b).pt = s.pt := rfl
@[simp] theorem setB_tasks (s : State) (f : RF) (b : Bool) : (setB s f b).tasks = s.tasks := rfl
@[simp] theorem setB_trends (s : State) (f : RF) (b : Bool) : (setB s f b).trends = s.trends := rfl
@[simp] theorem setB_jrun (s : State) (f : RF) (b : Bool) : (setB s f b).jrun = s.jrun := rfl
@[simp] theorem setB_rtc (s : State) (f : RF) (b : Bool) : (setB s f b).rtc = s.rtc := rfl
@[simp] theorem setB_shadows (s : State) (f : RF) (b : Bool) : (setB s f b).shadows = s.shadows := rfl
@[simp] theorem setB_loops (s : State) (f : RF) (b : Bool) : (setB s f b).loops = s.loops := rfl
@[simp] theorem setB_groups (s : State) (f : RF) (b : Bool) : (setB s f b).groups = s.groups := rfl
@[simp] theorem setB_sub (s : State) (f : RF) (b : Bool) : (setB s f b).sub = s.sub := rfl
@[simp] theorem setB_subEl (s : State) (f : RF) (b : Bool) : (setB s f b).subEl = s.subEl := rfl
@[simp] theorem setB_me (s : State) (f : RF) (b : Bool) : (setB s f b).me = s.me := rfl
@[simp] theorem setB_tr (s : State) (f : RF) (b : Bool) : (setB s f b).tr = s.tr := rfl
@[simp] theorem setB_tc (s : State) (f : RF) (b : Bool) : (setB s f b).tc = s.tc := rfl
@[simp] theorem setB_macs (s : State) (f : RF) (b : Bool) : (setB s f b).macs = s.macs := rfl
@[simp] theorem setB_neArea (s : State) (f : RF) (b : Bool) : (setB s f b).neArea = s.neArea := rfl
@[simp] theorem setB_shed (s : State) (f : RF) (b : Bool) : (setB s f b).shed = s.shed := rfl
@[simp] theorem setB_se (s : State) (f : RF) (b : Bool) : (setB s f b).se = s.se := rfl
@[simp] theorem setB_net (s : State) (f : RF) (b : Bool) : (setB s f b).net = s.net := rfl
@[simp] theorem setB_field (s : State) (f : RF) (b : Bool) : (setB s f b).field = s.field := rfl
@[simp] theorem setB_lands (s : State) (f : RF) (b : Bool) : (setB s f b).lands = s.lands := rfl
@[simp] theorem setB_mem (s : State) (f : RF) (b : Bool) : (setB s f b).mem = s.mem := rfl
@[simp] theorem setB_scf (s : State) (f : RF) (b : Bool) : (setB s f b).scf = s.scf := rfl
@[simp] theorem setB_cyc (s : State) (f : RF) (b : Bool) : (setB s f b).cyc = s.cyc := rfl
@[simp] theorem setB_timers (s : State) (f : RF) (b : Bool) : (setB s f b).timers = s.timers := rfl
@[simp] theorem setB_pending (s : State) (f : RF) (b : Bool) : (setB s f b).pending = s.pending := rfl

@[simp] theorem incF_tick (s : State) (f : RF) (n : Nat) : (incF s f n).tick = s.tick := rfl
@[simp] theorem incF_mono (s : State) (f : RF) (n : Nat) : (incF s f n).mono = s.mono := rfl
@[simp] theorem incF_fc (s : State) (f : RF) (n : Nat) : (incF s f n).fc = s.fc := rfl
@[simp] theorem incF_el (s : State) (f : RF) (n : Nat) : (incF s f n).el = s.el := rfl
@[simp] theorem incF_gridAcc (s : State) (f : RF) (n : Nat) : (incF s f n).gridAcc = s.gridAcc := rfl
@[simp] theorem incF_freeCtr (s : State) (f : RF) (n : Nat) : (incF s f n).freeCtr = s.freeCtr := rfl
@[simp] theorem incF_sent (s : State) (f : RF) (n : Nat) : (incF s f n).sent = s.sent := rfl
@[simp] theorem incF_reply (s : State) (f : RF) (n : Nat) : (incF s f n).reply = s.reply := rfl
@[simp] theorem incF_evlog (s : State) (f : RF) (n : Nat) : (incF s f n).evlog = s.evlog := rfl
@[simp] theorem incF_flt (s : State) (f : RF) (n : Nat) : (incF s f n).flt = s.flt := rfl
@[simp] theorem incF_pw (s : State) (f : RF) (n : Nat) : (incF s f n).pw = s.pw := rfl
@[simp] theorem incF_pt (s : State) (f : RF) (n : Nat) : (incF s f n).pt = s.pt := rfl
@[simp] theorem incF_tasks (s : State) (f : RF) (n : Nat) : (incF s f n).tasks = s.tasks := rfl
@[simp] theorem incF_trends (s : State) (f : RF) (n : Nat) : (incF s f n).trends = s.trends := rfl
@[simp] theorem incF_jrun (s : State) (f : RF) (n : Nat) : (incF s f n).jrun = s.jrun := rfl
@[simp] theorem incF_rtc (s : State) (f : RF) (n : Nat) : (incF s f n).rtc = s.rtc := rfl
@[simp] theorem incF_shadows (s : State) (f : RF) (n : Nat) : (incF s f n).shadows = s.shadows := rfl
@[simp] theorem incF_loops (s : State) (f : RF) (n : Nat) : (incF s f n).loops = s.loops := rfl
@[simp] theorem incF_groups (s : State) (f : RF) (n : Nat) : (incF s f n).groups = s.groups := rfl
@[simp] theorem incF_sub (s : State) (f : RF) (n : Nat) : (incF s f n).sub = s.sub := rfl
@[simp] theorem incF_subEl (s : State) (f : RF) (n : Nat) : (incF s f n).subEl = s.subEl := rfl
@[simp] theorem incF_me (s : State) (f : RF) (n : Nat) : (incF s f n).me = s.me := rfl
@[simp] theorem incF_tr (s : State) (f : RF) (n : Nat) : (incF s f n).tr = s.tr := rfl
@[simp] theorem incF_tc (s : State) (f : RF) (n : Nat) : (incF s f n).tc = s.tc := rfl
@[simp] theorem incF_macs (s : State) (f : RF) (n : Nat) : (incF s f n).macs = s.macs := rfl
@[simp] theorem incF_neArea (s : State) (f : RF) (n : Nat) : (incF s f n).neArea = s.neArea := rfl
@[simp] theorem incF_shed (s : State) (f : RF) (n : Nat) : (incF s f n).shed = s.shed := rfl
@[simp] theorem incF_se (s : State) (f : RF) (n : Nat) : (incF s f n).se = s.se := rfl
@[simp] theorem incF_net (s : State) (f : RF) (n : Nat) : (incF s f n).net = s.net := rfl
@[simp] theorem incF_field (s : State) (f : RF) (n : Nat) : (incF s f n).field = s.field := rfl
@[simp] theorem incF_lands (s : State) (f : RF) (n : Nat) : (incF s f n).lands = s.lands := rfl
@[simp] theorem incF_mem (s : State) (f : RF) (n : Nat) : (incF s f n).mem = s.mem := rfl
@[simp] theorem incF_scf (s : State) (f : RF) (n : Nat) : (incF s f n).scf = s.scf := rfl
@[simp] theorem incF_cyc (s : State) (f : RF) (n : Nat) : (incF s f n).cyc = s.cyc := rfl
@[simp] theorem incF_timers (s : State) (f : RF) (n : Nat) : (incF s f n).timers = s.timers := rfl
@[simp] theorem incF_pending (s : State) (f : RF) (n : Nat) : (incF s f n).pending = s.pending := rfl

@[simp] theorem incSatF_tick (s : State) (f : RF) (n : Nat) : (incSatF s f n).tick = s.tick := rfl
@[simp] theorem incSatF_mono (s : State) (f : RF) (n : Nat) : (incSatF s f n).mono = s.mono := rfl
@[simp] theorem incSatF_fc (s : State) (f : RF) (n : Nat) : (incSatF s f n).fc = s.fc := rfl
@[simp] theorem incSatF_el (s : State) (f : RF) (n : Nat) : (incSatF s f n).el = s.el := rfl
@[simp] theorem incSatF_gridAcc (s : State) (f : RF) (n : Nat) : (incSatF s f n).gridAcc = s.gridAcc := rfl
@[simp] theorem incSatF_freeCtr (s : State) (f : RF) (n : Nat) : (incSatF s f n).freeCtr = s.freeCtr := rfl
@[simp] theorem incSatF_sent (s : State) (f : RF) (n : Nat) : (incSatF s f n).sent = s.sent := rfl
@[simp] theorem incSatF_reply (s : State) (f : RF) (n : Nat) : (incSatF s f n).reply = s.reply := rfl
@[simp] theorem incSatF_evlog (s : State) (f : RF) (n : Nat) : (incSatF s f n).evlog = s.evlog := rfl
@[simp] theorem incSatF_flt (s : State) (f : RF) (n : Nat) : (incSatF s f n).flt = s.flt := rfl
@[simp] theorem incSatF_pw (s : State) (f : RF) (n : Nat) : (incSatF s f n).pw = s.pw := rfl
@[simp] theorem incSatF_pt (s : State) (f : RF) (n : Nat) : (incSatF s f n).pt = s.pt := rfl
@[simp] theorem incSatF_tasks (s : State) (f : RF) (n : Nat) : (incSatF s f n).tasks = s.tasks := rfl
@[simp] theorem incSatF_trends (s : State) (f : RF) (n : Nat) : (incSatF s f n).trends = s.trends := rfl
@[simp] theorem incSatF_jrun (s : State) (f : RF) (n : Nat) : (incSatF s f n).jrun = s.jrun := rfl
@[simp] theorem incSatF_rtc (s : State) (f : RF) (n : Nat) : (incSatF s f n).rtc = s.rtc := rfl
@[simp] theorem incSatF_shadows (s : State) (f : RF) (n : Nat) : (incSatF s f n).shadows = s.shadows := rfl
@[simp] theorem incSatF_loops (s : State) (f : RF) (n : Nat) : (incSatF s f n).loops = s.loops := rfl
@[simp] theorem incSatF_groups (s : State) (f : RF) (n : Nat) : (incSatF s f n).groups = s.groups := rfl
@[simp] theorem incSatF_sub (s : State) (f : RF) (n : Nat) : (incSatF s f n).sub = s.sub := rfl
@[simp] theorem incSatF_subEl (s : State) (f : RF) (n : Nat) : (incSatF s f n).subEl = s.subEl := rfl
@[simp] theorem incSatF_me (s : State) (f : RF) (n : Nat) : (incSatF s f n).me = s.me := rfl
@[simp] theorem incSatF_tr (s : State) (f : RF) (n : Nat) : (incSatF s f n).tr = s.tr := rfl
@[simp] theorem incSatF_tc (s : State) (f : RF) (n : Nat) : (incSatF s f n).tc = s.tc := rfl
@[simp] theorem incSatF_macs (s : State) (f : RF) (n : Nat) : (incSatF s f n).macs = s.macs := rfl
@[simp] theorem incSatF_neArea (s : State) (f : RF) (n : Nat) : (incSatF s f n).neArea = s.neArea := rfl
@[simp] theorem incSatF_shed (s : State) (f : RF) (n : Nat) : (incSatF s f n).shed = s.shed := rfl
@[simp] theorem incSatF_se (s : State) (f : RF) (n : Nat) : (incSatF s f n).se = s.se := rfl
@[simp] theorem incSatF_net (s : State) (f : RF) (n : Nat) : (incSatF s f n).net = s.net := rfl
@[simp] theorem incSatF_field (s : State) (f : RF) (n : Nat) : (incSatF s f n).field = s.field := rfl
@[simp] theorem incSatF_lands (s : State) (f : RF) (n : Nat) : (incSatF s f n).lands = s.lands := rfl
@[simp] theorem incSatF_mem (s : State) (f : RF) (n : Nat) : (incSatF s f n).mem = s.mem := rfl
@[simp] theorem incSatF_scf (s : State) (f : RF) (n : Nat) : (incSatF s f n).scf = s.scf := rfl
@[simp] theorem incSatF_cyc (s : State) (f : RF) (n : Nat) : (incSatF s f n).cyc = s.cyc := rfl
@[simp] theorem incSatF_timers (s : State) (f : RF) (n : Nat) : (incSatF s f n).timers = s.timers := rfl
@[simp] theorem incSatF_pending (s : State) (f : RF) (n : Nat) : (incSatF s f n).pending = s.pending := rfl

@[simp] theorem sendMsg_regs (s : State) (m : Msg) : (sendMsg s m).regs = s.regs := rfl
@[simp] theorem sendMsg_tick (s : State) (m : Msg) : (sendMsg s m).tick = s.tick := rfl
@[simp] theorem sendMsg_mono (s : State) (m : Msg) : (sendMsg s m).mono = s.mono := rfl
@[simp] theorem sendMsg_fc (s : State) (m : Msg) : (sendMsg s m).fc = s.fc := rfl
@[simp] theorem sendMsg_el (s : State) (m : Msg) : (sendMsg s m).el = s.el := rfl
@[simp] theorem sendMsg_gridAcc (s : State) (m : Msg) : (sendMsg s m).gridAcc = s.gridAcc := rfl
@[simp] theorem sendMsg_freeCtr (s : State) (m : Msg) : (sendMsg s m).freeCtr = s.freeCtr := rfl
@[simp] theorem sendMsg_sent (s : State) (m : Msg) : (sendMsg s m).sent = m :: s.sent := rfl
@[simp] theorem sendMsg_reply (s : State) (m : Msg) : (sendMsg s m).reply = s.reply := rfl
@[simp] theorem sendMsg_evlog (s : State) (m : Msg) : (sendMsg s m).evlog = s.evlog := rfl
@[simp] theorem sendMsg_flt (s : State) (m : Msg) : (sendMsg s m).flt = s.flt := rfl
@[simp] theorem sendMsg_pw (s : State) (m : Msg) : (sendMsg s m).pw = s.pw := rfl
@[simp] theorem sendMsg_pt (s : State) (m : Msg) : (sendMsg s m).pt = s.pt := rfl
@[simp] theorem sendMsg_tasks (s : State) (m : Msg) : (sendMsg s m).tasks = s.tasks := rfl
@[simp] theorem sendMsg_trends (s : State) (m : Msg) : (sendMsg s m).trends = s.trends := rfl
@[simp] theorem sendMsg_jrun (s : State) (m : Msg) : (sendMsg s m).jrun = s.jrun := rfl
@[simp] theorem sendMsg_rtc (s : State) (m : Msg) : (sendMsg s m).rtc = s.rtc := rfl
@[simp] theorem sendMsg_shadows (s : State) (m : Msg) : (sendMsg s m).shadows = s.shadows := rfl
@[simp] theorem sendMsg_loops (s : State) (m : Msg) : (sendMsg s m).loops = s.loops := rfl
@[simp] theorem sendMsg_groups (s : State) (m : Msg) : (sendMsg s m).groups = s.groups := rfl
@[simp] theorem sendMsg_sub (s : State) (m : Msg) : (sendMsg s m).sub = s.sub := rfl
@[simp] theorem sendMsg_subEl (s : State) (m : Msg) : (sendMsg s m).subEl = s.subEl := rfl
@[simp] theorem sendMsg_me (s : State) (m : Msg) : (sendMsg s m).me = s.me := rfl
@[simp] theorem sendMsg_tr (s : State) (m : Msg) : (sendMsg s m).tr = s.tr := rfl
@[simp] theorem sendMsg_tc (s : State) (m : Msg) : (sendMsg s m).tc = s.tc := rfl
@[simp] theorem sendMsg_macs (s : State) (m : Msg) : (sendMsg s m).macs = s.macs := rfl
@[simp] theorem sendMsg_neArea (s : State) (m : Msg) : (sendMsg s m).neArea = s.neArea := rfl
@[simp] theorem sendMsg_shed (s : State) (m : Msg) : (sendMsg s m).shed = s.shed := rfl
@[simp] theorem sendMsg_se (s : State) (m : Msg) : (sendMsg s m).se = s.se := rfl
@[simp] theorem sendMsg_net (s : State) (m : Msg) : (sendMsg s m).net = s.net := rfl
@[simp] theorem sendMsg_field (s : State) (m : Msg) : (sendMsg s m).field = s.field := rfl
@[simp] theorem sendMsg_lands (s : State) (m : Msg) : (sendMsg s m).lands = s.lands := rfl
@[simp] theorem sendMsg_mem (s : State) (m : Msg) : (sendMsg s m).mem = s.mem := rfl
@[simp] theorem sendMsg_scf (s : State) (m : Msg) : (sendMsg s m).scf = s.scf := rfl
@[simp] theorem sendMsg_cyc (s : State) (m : Msg) : (sendMsg s m).cyc = s.cyc := rfl
@[simp] theorem sendMsg_timers (s : State) (m : Msg) : (sendMsg s m).timers = s.timers := rfl
@[simp] theorem sendMsg_pending (s : State) (m : Msg) : (sendMsg s m).pending = s.pending := rfl

@[simp] theorem setReply_regs (s : State) (r : List Nat) : (setReply s r).regs = s.regs := rfl
@[simp] theorem setReply_tick (s : State) (r : List Nat) : (setReply s r).tick = s.tick := rfl
@[simp] theorem setReply_mono (s : State) (r : List Nat) : (setReply s r).mono = s.mono := rfl
@[simp] theorem setReply_fc (s : State) (r : List Nat) : (setReply s r).fc = s.fc := rfl
@[simp] theorem setReply_el (s : State) (r : List Nat) : (setReply s r).el = s.el := rfl
@[simp] theorem setReply_gridAcc (s : State) (r : List Nat) : (setReply s r).gridAcc = s.gridAcc := rfl
@[simp] theorem setReply_freeCtr (s : State) (r : List Nat) : (setReply s r).freeCtr = s.freeCtr := rfl
@[simp] theorem setReply_sent (s : State) (r : List Nat) : (setReply s r).sent = s.sent := rfl
@[simp] theorem setReply_reply (s : State) (r : List Nat) : (setReply s r).reply = r := rfl
@[simp] theorem setReply_evlog (s : State) (r : List Nat) : (setReply s r).evlog = s.evlog := rfl
@[simp] theorem setReply_flt (s : State) (r : List Nat) : (setReply s r).flt = s.flt := rfl
@[simp] theorem setReply_pw (s : State) (r : List Nat) : (setReply s r).pw = s.pw := rfl
@[simp] theorem setReply_pt (s : State) (r : List Nat) : (setReply s r).pt = s.pt := rfl
@[simp] theorem setReply_tasks (s : State) (r : List Nat) : (setReply s r).tasks = s.tasks := rfl
@[simp] theorem setReply_trends (s : State) (r : List Nat) : (setReply s r).trends = s.trends := rfl
@[simp] theorem setReply_jrun (s : State) (r : List Nat) : (setReply s r).jrun = s.jrun := rfl
@[simp] theorem setReply_rtc (s : State) (r : List Nat) : (setReply s r).rtc = s.rtc := rfl
@[simp] theorem setReply_shadows (s : State) (r : List Nat) : (setReply s r).shadows = s.shadows := rfl
@[simp] theorem setReply_loops (s : State) (r : List Nat) : (setReply s r).loops = s.loops := rfl
@[simp] theorem setReply_groups (s : State) (r : List Nat) : (setReply s r).groups = s.groups := rfl
@[simp] theorem setReply_sub (s : State) (r : List Nat) : (setReply s r).sub = s.sub := rfl
@[simp] theorem setReply_subEl (s : State) (r : List Nat) : (setReply s r).subEl = s.subEl := rfl
@[simp] theorem setReply_me (s : State) (r : List Nat) : (setReply s r).me = s.me := rfl
@[simp] theorem setReply_tr (s : State) (r : List Nat) : (setReply s r).tr = s.tr := rfl
@[simp] theorem setReply_tc (s : State) (r : List Nat) : (setReply s r).tc = s.tc := rfl
@[simp] theorem setReply_macs (s : State) (r : List Nat) : (setReply s r).macs = s.macs := rfl
@[simp] theorem setReply_neArea (s : State) (r : List Nat) : (setReply s r).neArea = s.neArea := rfl
@[simp] theorem setReply_shed (s : State) (r : List Nat) : (setReply s r).shed = s.shed := rfl
@[simp] theorem setReply_se (s : State) (r : List Nat) : (setReply s r).se = s.se := rfl
@[simp] theorem setReply_net (s : State) (r : List Nat) : (setReply s r).net = s.net := rfl
@[simp] theorem setReply_field (s : State) (r : List Nat) : (setReply s r).field = s.field := rfl
@[simp] theorem setReply_lands (s : State) (r : List Nat) : (setReply s r).lands = s.lands := rfl
@[simp] theorem setReply_mem (s : State) (r : List Nat) : (setReply s r).mem = s.mem := rfl
@[simp] theorem setReply_scf (s : State) (r : List Nat) : (setReply s r).scf = s.scf := rfl
@[simp] theorem setReply_cyc (s : State) (r : List Nat) : (setReply s r).cyc = s.cyc := rfl
@[simp] theorem setReply_timers (s : State) (r : List Nat) : (setReply s r).timers = s.timers := rfl
@[simp] theorem setReply_pending (s : State) (r : List Nat) : (setReply s r).pending = s.pending := rfl

@[simp] theorem logEvent_regs (s : State) (m : Msg) : (logEvent s m).regs = s.regs := rfl
@[simp] theorem logEvent_tick (s : State) (m : Msg) : (logEvent s m).tick = s.tick := rfl
@[simp] theorem logEvent_mono (s : State) (m : Msg) : (logEvent s m).mono = s.mono := rfl
@[simp] theorem logEvent_fc (s : State) (m : Msg) : (logEvent s m).fc = s.fc := rfl
@[simp] theorem logEvent_el (s : State) (m : Msg) : (logEvent s m).el = s.el := rfl
@[simp] theorem logEvent_gridAcc (s : State) (m : Msg) : (logEvent s m).gridAcc = s.gridAcc := rfl
@[simp] theorem logEvent_freeCtr (s : State) (m : Msg) : (logEvent s m).freeCtr = s.freeCtr := rfl
@[simp] theorem logEvent_sent (s : State) (m : Msg) : (logEvent s m).sent = s.sent := rfl
@[simp] theorem logEvent_reply (s : State) (m : Msg) : (logEvent s m).reply = s.reply := rfl
@[simp] theorem logEvent_evlog (s : State) (m : Msg) : (logEvent s m).evlog = m :: s.evlog := rfl
@[simp] theorem logEvent_flt (s : State) (m : Msg) : (logEvent s m).flt = s.flt := rfl
@[simp] theorem logEvent_pw (s : State) (m : Msg) : (logEvent s m).pw = s.pw := rfl
@[simp] theorem logEvent_pt (s : State) (m : Msg) : (logEvent s m).pt = s.pt := rfl
@[simp] theorem logEvent_tasks (s : State) (m : Msg) : (logEvent s m).tasks = s.tasks := rfl
@[simp] theorem logEvent_trends (s : State) (m : Msg) : (logEvent s m).trends = s.trends := rfl
@[simp] theorem logEvent_jrun (s : State) (m : Msg) : (logEvent s m).jrun = s.jrun := rfl
@[simp] theorem logEvent_rtc (s : State) (m : Msg) : (logEvent s m).rtc = s.rtc := rfl
@[simp] theorem logEvent_shadows (s : State) (m : Msg) : (logEvent s m).shadows = s.shadows := rfl
@[simp] theorem logEvent_loops (s : State) (m : Msg) : (logEvent s m).loops = s.loops := rfl
@[simp] theorem logEvent_groups (s : State) (m : Msg) : (logEvent s m).groups = s.groups := rfl
@[simp] theorem logEvent_sub (s : State) (m : Msg) : (logEvent s m).sub = s.sub := rfl
@[simp] theorem logEvent_subEl (s : State) (m : Msg) : (logEvent s m).subEl = s.subEl := rfl
@[simp] theorem logEvent_me (s : State) (m : Msg) : (logEvent s m).me = s.me := rfl
@[simp] theorem logEvent_tr (s : State) (m : Msg) : (logEvent s m).tr = s.tr := rfl
@[simp] theorem logEvent_tc (s : State) (m : Msg) : (logEvent s m).tc = s.tc := rfl
@[simp] theorem logEvent_macs (s : State) (m : Msg) : (logEvent s m).macs = s.macs := rfl
@[simp] theorem logEvent_neArea (s : State) (m : Msg) : (logEvent s m).neArea = s.neArea := rfl
@[simp] theorem logEvent_shed (s : State) (m : Msg) : (logEvent s m).shed = s.shed := rfl
@[simp] theorem logEvent_se (s : State) (m : Msg) : (logEvent s m).se = s.se := rfl
@[simp] theorem logEvent_net (s : State) (m : Msg) : (logEvent s m).net = s.net := rfl
@[simp] theorem logEvent_field (s : State) (m : Msg) : (logEvent s m).field = s.field := rfl
@[simp] theorem logEvent_lands (s : State) (m : Msg) : (logEvent s m).lands = s.lands := rfl
@[simp] theorem logEvent_mem (s : State) (m : Msg) : (logEvent s m).mem = s.mem := rfl
@[simp] theorem logEvent_scf (s : State) (m : Msg) : (logEvent s m).scf = s.scf := rfl
@[simp] theorem logEvent_cyc (s : State) (m : Msg) : (logEvent s m).cyc = s.cyc := rfl
@[simp] theorem logEvent_timers (s : State) (m : Msg) : (logEvent s m).timers = s.timers := rfl
@[simp] theorem logEvent_pending (s : State) (m : Msg) : (logEvent s m).pending = s.pending := rfl

@[simp] theorem resetRegs_tick (s : State) (l : Nat) (p : Nat → Bool) : (resetRegs s l p).tick = s.tick := rfl
@[simp] theorem resetRegs_mono (s : State) (l : Nat) (p : Nat → Bool) : (resetRegs s l p).mono = s.mono := rfl
@[simp] theorem resetRegs_fc (s : State) (l : Nat) (p : Nat → Bool) : (resetRegs s l p).fc = s.fc := rfl
@[simp] theorem resetRegs_el (s : State) (l : Nat) (p : Nat → Bool) : (resetRegs s l p).el = s.el := rfl
@[simp] theorem resetRegs_gridAcc (s : State) (l : Nat) (p : Nat → Bool) : (resetRegs s l p).gridAcc = s.gridAcc := rfl
@[simp] theorem resetRegs_freeCtr (s : State) (l : Nat) (p : Nat → Bool) : (resetRegs s l p).freeCtr = s.freeCtr := rfl
@[simp] theorem resetRegs_sent (s : State) (l : Nat) (p : Nat → Bool) : (resetRegs s l p).sent = s.sent := rfl
@[simp] theorem resetRegs_reply (s : State) (l : Nat) (p : Nat → Bool) : (resetRegs s l p).reply = s.reply := rfl
@[simp] theorem resetRegs_evlog (s : State) (l : Nat) (p : Nat → Bool) : (resetRegs s l p).evlog = s.evlog := rfl
@[simp] theorem resetRegs_flt (s : State) (l : Nat) (p : Nat → Bool) : (resetRegs s l p).flt = s.flt := rfl
@[simp] theorem resetRegs_pw (s : State) (l : Nat) (p : Nat → Bool) : (resetRegs s l p).pw = s.pw := rfl
@[simp] theorem resetRegs_pt (s : State) (l : Nat) (p : Nat → Bool) : (resetRegs s l p).pt = s.pt := rfl
@[simp] theorem resetRegs_tasks (s : State) (l : Nat) (p : Nat → Bool) : (resetRegs s l p).tasks = s.tasks := rfl
@[simp] theorem resetRegs_trends (s : State) (l : Nat) (p : Nat → Bool) : (resetRegs s l p).trends = s.trends := rfl
@[simp] theorem resetRegs_jrun (s : State) (l : Nat) (p : Nat → Bool) : (resetRegs s l p).jrun = s.jrun := rfl
@[simp] theorem resetRegs_rtc (s : State) (l : Nat) (p : Nat → Bool) : (resetRegs s l p).rtc = s.rtc := rfl
@[simp] theorem resetRegs_shadows (s : State) (l : Nat) (p : Nat → Bool) : (resetRegs s l p).shadows = s.shadows := rfl
@[simp] theorem resetRegs_loops (s : State) (l : Nat) (p : Nat → Bool) : (resetRegs s l p).loops = s.loops := rfl
@[simp] theorem resetRegs_groups (s : State) (l : Nat) (p : Nat → Bool) : (resetRegs s l p).groups = s.groups := rfl
@[simp] theorem resetRegs_sub (s : State) (l : Nat) (p : Nat → Bool) : (resetRegs s l p).sub = s.sub := rfl
@[simp] theorem resetRegs_subEl (s : State) (l : Nat) (p : Nat → Bool) : (resetRegs s l p).subEl = s.subEl := rfl
@[simp] theorem resetRegs_me (s : State) (l : Nat) (p : Nat → Bool) : (resetRegs s l p).me = s.me := rfl
@[simp] theorem resetRegs_tr (s : State) (l : Nat) (p : Nat → Bool) : (resetRegs s l p).tr = s.tr := rfl
@[simp] theorem resetRegs_tc (s : State) (l : Nat) (p : Nat → Bool) : (resetRegs s l p).tc = s.tc := rfl
@[simp] theorem resetRegs_macs (s : State) (l : Nat) (p : Nat → Bool) : (resetRegs s l p).macs = s.macs := rfl
@[simp] theorem resetRegs_neArea (s : State) (l : Nat) (p : Nat → Bool) : (resetRegs s l p).neArea = s.neArea := rfl
@[simp] theorem resetRegs_shed (s : State) (l : Nat) (p : Nat → Bool) : (resetRegs s l p).shed = s.shed := rfl
@[simp] theorem resetRegs_se (s : State) (l : Nat) (p : Nat → Bool) : (resetRegs s l p).se = s.se := rfl
@[simp] theorem resetRegs_net (s : State) (l : Nat) (p : Nat → Bool) : (resetRegs s l p).net = s.net := rfl
@[simp] theorem resetRegs_field (s : State) (l : Nat) (p : Nat → Bool) : (resetRegs s l p).field = s.field := rfl
@[simp] theorem resetRegs_lands (s : State) (l : Nat) (p : Nat → Bool) : (resetRegs s l p).lands = s.lands := rfl
@[simp] theorem resetRegs_mem (s : State) (l : Nat) (p : Nat → Bool) : (resetRegs s l p).mem = s.mem := rfl
@[simp] theorem resetRegs_scf (s : State) (l : Nat) (p : Nat → Bool) : (resetRegs s l p).scf = s.scf := rfl
@[simp] theorem resetRegs_cyc (s : State) (l : Nat) (p : Nat → Bool) : (resetRegs s l p).cyc = s.cyc := rfl
@[simp] theorem resetRegs_timers (s : State) (l : Nat) (p : Nat → Bool) : (resetRegs s l p).timers = s.timers := rfl
@[simp] theorem resetRegs_pending (s : State) (l : Nat) (p : Nat → Bool) : (resetRegs s l p).pending = s.pending := rfl

@[simp] theorem freshFree_regs (s : State)  : ((freshFree s).2).regs = s.regs := rfl
@[simp] theorem freshFree_tick (s : State)  : ((freshFree s).2).tick = s.tick := rfl
@[simp] theorem freshFree_mono (s : State)  : ((freshFree s).2).mono = s.mono := rfl
@[simp] theorem freshFree_fc (s : State)  : ((freshFree s).2).fc = s.fc := rfl
@[simp] theorem freshFree_el (s : State)  : ((freshFree s).2).el = s.el := rfl
@[simp] theorem freshFree_gridAcc (s : State)  : ((freshFree s).2).gridAcc = s.gridAcc := rfl
@[simp] theorem freshFree_freeCtr (s : State)  : ((freshFree s).2).freeCtr = s.freeCtr + 1 := rfl
@[simp] theorem freshFree_sent (s : State)  : ((freshFree s).2).sent = s.sent := rfl
@[simp] theorem freshFree_reply (s : State)  : ((freshFree s).2).reply = s.reply := rfl
@[simp] theorem freshFree_evlog (s : State)  : ((freshFree s).2).evlog = s.evlog := rfl
@[simp] theorem freshFree_flt (s : State)  : ((freshFree s).2).flt = s.flt := rfl
@[simp] theorem freshFree_pw (s : State)  : ((freshFree s).2).pw = s.pw := rfl
@[simp] theorem freshFree_pt (s : State)  : ((freshFree s).2).pt = s.pt := rfl
@[simp] theorem freshFree_tasks (s : State)  : ((freshFree s).2).tasks = s.tasks := rfl
@[simp] theorem freshFree_trends (s : State)  : ((freshFree s).2).trends = s.trends := rfl
@[simp] theorem freshFree_jrun (s : State)  : ((freshFree s).2).jrun = s.jrun := rfl
@[simp] theorem freshFree_rtc (s : State)  : ((freshFree s).2).rtc = s.rtc := rfl
@[simp] theorem freshFree_shadows (s : State)  : ((freshFree s).2).shadows = s.shadows := rfl
@[simp] theorem freshFree_loops (s : State)  : ((freshFree s).2).loops = s.loops := rfl
@[simp] theorem freshFree_groups (s : State)  : ((freshFree s).2).groups = s.groups := rfl
@[simp] theorem freshFree_sub (s : State)  : ((freshFree s).2).sub = s.sub := rfl
@[simp] theorem freshFree_subEl (s : State)  : ((freshFree s).2).subEl = s.subEl := rfl
@[simp] theorem freshFree_me (s : State)  : ((freshFree s).2).me = s.me := rfl
@[simp] theorem freshFree_tr (s : State)  : ((freshFree s).2).tr = s.tr := rfl
@[simp] theorem freshFree_tc (s : State)  : ((freshFree s).2).tc = s.tc := rfl
@[simp] theorem freshFree_macs (s : State)  : ((freshFree s).2).macs = s.macs := rfl
@[simp] theorem freshFree_neArea (s : State)  : ((freshFree s).2).neArea = s.neArea := rfl
@[simp] theorem freshFree_shed (s : State)  : ((freshFree s).2).shed = s.shed := rfl
@[simp] theorem freshFree_se (s : State)  : ((freshFree s).2).se = s.se := rfl
@[simp] theorem freshFree_net (s : State)  : ((freshFree s).2).net = s.net := rfl
@[simp] theorem freshFree_field (s : State)  : ((freshFree s).2).field = s.field := rfl
@[simp] theorem freshFree_lands (s : State)  : ((freshFree s).2).lands = s.lands := rfl
@[simp] theorem freshFree_mem (s : State)  : ((freshFree s).2).mem = s.mem := rfl
@[simp] theorem freshFree_scf (s : State)  : ((freshFree s).2).scf = s.scf := rfl
@[simp] theorem freshFree_cyc (s : State)  : ((freshFree s).2).cyc = s.cyc := rfl
@[simp] theorem freshFree_timers (s : State)  : ((freshFree s).2).timers = s.timers := rfl
@[simp] theorem freshFree_pending (s : State)  : ((freshFree s).2).pending = s.pending := rfl

@[simp] theorem withPending_regs (s : State) (q : List Instr) : (s.withPending q).regs = s.regs := rfl
@[simp] theorem withPending_tick (s : State) (q : List Instr) : (s.withPending q).tick = s.tick := rfl
@[simp] theorem withPending_mono (s : State) (q : List Instr) : (s.withPending q).mono = s.mono := rfl
@[simp] theorem withPending_fc (s : State) (q : List Instr) : (s.withPending q).fc = s.fc := rfl
@[simp] theorem withPending_el (s : State) (q : List Instr) : (s.withPending q).el = s.el := rfl
@[simp] theorem withPending_gridAcc (s : State) (q : List Instr) : (s.withPending q).gridAcc = s.gridAcc := rfl
@[simp] theorem withPending_freeCtr (s : State) (q : List Instr) : (s.withPending q).freeCtr = s.freeCtr := rfl
@[simp] theorem withPending_sent (s : State) (q : List Instr) : (s.withPending q).sent = s.sent := rfl
@[simp] theorem withPending_reply (s : State) (q : List Instr) : (s.withPending q).reply = s.reply := rfl
@[simp] theorem withPending_evlog (s : State) (q : List Instr) : (s.withPending q).evlog = s.evlog := rfl
@[simp] theorem withPending_flt (s : State) (q : List Instr) : (s.withPending q).flt = s.flt := rfl
@[simp] theorem withPending_pw (s : State) (q : List Instr) : (s.withPending q).pw = s.pw := rfl
@[simp] theorem withPending_pt (s : State) (q : List Instr) : (s.withPending q).pt = s.pt := rfl
@[simp] theorem withPending_tasks (s : State) (q : List Instr) : (s.withPending q).tasks = s.tasks := rfl
@[simp] theorem withPending_trends (s : State) (q : List Instr) : (s.withPending q).trends = s.trends := rfl
@[simp] theorem withPending_jrun (s : State) (q : List Instr) : (s.withPending q).jrun = s.jrun := rfl
@[simp] theorem withPending_rtc (s : State) (q : List Instr) : (s.withPending q).rtc = s.rtc := rfl
@[simp] theorem withPending_shadows (s : State) (q : List Instr) : (s.withPending q).shadows = s.shadows := rfl
@[simp] theorem withPending_loops (s : State) (q : List Instr) : (s.withPending q).loops = s.loops := rfl
@[simp] theorem withPending_groups (s : State) (q : List Instr) : (s.withPending q).groups = s.groups := rfl
@[simp] theorem withPending_sub (s : State) (q : List Instr) : (s.withPending q).sub = s.sub := rfl
@[simp] theorem withPending_subEl (s : State) (q : List Instr) : (s.withPending q).subEl = s.subEl := rfl
@[simp] theorem withPending_me (s : State) (q : List Instr) : (s.withPending q).me = s.me := rfl
@[simp] theorem withPending_tr (s : State) (q : List Instr) : (s.withPending q).tr = s.tr := rfl
@[simp] theorem withPending_tc (s : State) (q : List Instr) : (s.withPending q).tc = s.tc := rfl
@[simp] theorem withPending_macs (s : State) (q : List Instr) : (s.withPending q).macs = s.macs := rfl
@[simp] theorem withPending_neArea (s : State) (q : List Instr) : (s.withPending q).neArea = s.neArea := rfl
@[simp] theorem withPending_shed (s : State) (q : List Instr) : (s.withPending q).shed = s.shed := rfl
@[simp] theorem withPending_se (s : State) (q : List Instr) : (s.withPending q).se = s.se := rfl
@[simp] theorem withPending_net (s : State) (q : List Instr) : (s.withPending q).net = s.net := rfl
@[simp] theorem withPending_field (s : State) (q : List Instr) : (s.withPending q).field = s.field := rfl
@[simp] theorem withPending_lands (s : State) (q : List Instr) : (s.withPending q).lands = s.lands := rfl
@[simp] theorem withPending_mem (s : State) (q : List Instr) : (s.withPending q).mem = s.mem := rfl
@[simp] theorem withPending_scf (s : State) (q : List Instr) : (s.withPending q).scf = s.scf := rfl
@[simp] theorem withPending_cyc (s : State) (q : List Instr) : (s.withPending q).cyc = s.cyc := rfl
@[simp] theorem withPending_timers (s : State) (q : List Instr) : (s.withPending q).timers = s.timers := rfl
@[simp] theorem withPending_pending (s : State) (q : List Instr) : (s.withPending q).pending = q := rfl

@[simp] theorem passCycles_regs (s : State) (n : Nat) : (passCycles s n).regs = s.regs := rfl
@[simp] theorem passCycles_tick (s : State) (n : Nat) : (passCycles s n).tick = s.tick := rfl
@[simp] theorem passCycles_mono (s : State) (n : Nat) : (passCycles s n).mono = s.mono := rfl
@[simp] theorem passCycles_fc (s : State) (n : Nat) : (passCycles s n).fc = s.fc + n := rfl
@[simp] theorem passCycles_el (s : State) (n : Nat) : (passCycles s n).el = s.el + n := rfl
@[simp] theorem passCycles_gridAcc (s : State) (n : Nat) : (passCycles s n).gridAcc = s.gridAcc := rfl
@[simp] theorem passCycles_freeCtr (s : State) (n : Nat) : (passCycles s n).freeCtr = s.freeCtr := rfl
@[simp] theorem passCycles_sent (s : State) (n : Nat) : (passCycles s n).sent = s.sent := rfl
@[simp] theorem passCycles_reply (s : State) (n : Nat) : (passCycles s n).reply = s.reply := rfl
@[simp] theorem passCycles_evlog (s : State) (n : Nat) : (passCycles s n).evlog = s.evlog := rfl
@[simp] theorem passCycles_flt (s : State) (n : Nat) : (passCycles s n).flt = s.flt := rfl
@[simp] theorem passCycles_pw (s : State) (n : Nat) : (passCycles s n).pw = s.pw := rfl
@[simp] theorem passCycles_pt (s : State) (n : Nat) : (passCycles s n).pt = s.pt := rfl
@[simp] theorem passCycles_tasks (s : State) (n : Nat) : (passCycles s n).tasks = s.tasks := rfl
@[simp] theorem passCycles_trends (s : State) (n : Nat) : (passCycles s n).trends = s.trends := rfl
@[simp] theorem passCycles_jrun (s : State) (n : Nat) : (passCycles s n).jrun = s.jrun := rfl
@[simp] theorem passCycles_shadows (s : State) (n : Nat) : (passCycles s n).shadows = s.shadows := rfl
@[simp] theorem passCycles_loops (s : State) (n : Nat) : (passCycles s n).loops = s.loops := rfl
@[simp] theorem passCycles_groups (s : State) (n : Nat) : (passCycles s n).groups = s.groups := rfl
@[simp] theorem passCycles_sub (s : State) (n : Nat) : (passCycles s n).sub = s.sub := rfl
@[simp] theorem passCycles_subEl (s : State) (n : Nat) : (passCycles s n).subEl = s.subEl := rfl
@[simp] theorem passCycles_me (s : State) (n : Nat) : (passCycles s n).me = s.me := rfl
@[simp] theorem passCycles_tr (s : State) (n : Nat) : (passCycles s n).tr = s.tr := rfl
@[simp] theorem passCycles_tc (s : State) (n : Nat) : (passCycles s n).tc = s.tc.run n (timeAdj s) := rfl
@[simp] theorem passCycles_macs (s : State) (n : Nat) : (passCycles s n).macs = s.macs := rfl
@[simp] theorem passCycles_neArea (s : State) (n : Nat) : (passCycles s n).neArea = s.neArea := rfl
@[simp] theorem passCycles_shed (s : State) (n : Nat) : (passCycles s n).shed = s.shed := rfl
@[simp] theorem passCycles_net (s : State) (n : Nat) : (passCycles s n).net = s.net := rfl
@[simp] theorem passCycles_field (s : State) (n : Nat) : (passCycles s n).field = s.field := rfl
@[simp] theorem passCycles_lands (s : State) (n : Nat) : (passCycles s n).lands = s.lands := rfl
@[simp] theorem passCycles_scf (s : State) (n : Nat) : (passCycles s n).scf = s.scf := rfl
@[simp] theorem passCycles_timers (s : State) (n : Nat) : (passCycles s n).timers = s.timers := rfl
@[simp] theorem passCycles_pending (s : State) (n : Nat) : (passCycles s n).pending = s.pending := rfl

@[simp] theorem startTime_regs (s : State) (k : Nat) : (startTime s k).regs = s.regs := rfl
@[simp] theorem startTime_tick (s : State) (k : Nat) : (startTime s k).tick = s.tick := rfl
@[simp] theorem startTime_mono (s : State) (k : Nat) : (startTime s k).mono = s.mono := rfl
@[simp] theorem startTime_fc (s : State) (k : Nat) : (startTime s k).fc = s.fc := rfl
@[simp] theorem startTime_el (s : State) (k : Nat) : (startTime s k).el = s.el := rfl
@[simp] theorem startTime_gridAcc (s : State) (k : Nat) : (startTime s k).gridAcc = s.gridAcc := rfl
@[simp] theorem startTime_freeCtr (s : State) (k : Nat) : (startTime s k).freeCtr = s.freeCtr := rfl
@[simp] theorem startTime_sent (s : State) (k : Nat) : (startTime s k).sent = s.sent := rfl
@[simp] theorem startTime_reply (s : State) (k : Nat) : (startTime s k).reply = s.reply := rfl
@[simp] theorem startTime_evlog (s : State) (k : Nat) : (startTime s k).evlog = s.evlog := rfl
@[simp] theorem startTime_flt (s : State) (k : Nat) : (startTime s k).flt = s.flt := rfl
@[simp] theorem startTime_pw (s : State) (k : Nat) : (startTime s k).pw = s.pw := rfl
@[simp] theorem startTime_pt (s : State) (k : Nat) : (startTime s k).pt = s.pt := rfl
@[simp] theorem startTime_tasks (s : State) (k : Nat) : (startTime s k).tasks = s.tasks := rfl
@[simp] theorem startTime_trends (s : State) (k : Nat) : (startTime s k).trends = s.trends := rfl
@[simp] theorem startTime_jrun (s : State) (k : Nat) : (startTime s k).jrun = s.jrun := rfl
@[simp] theorem startTime_rtc (s : State) (k : Nat) : (startTime s k).rtc = s.rtc := rfl
@[simp] theorem startTime_shadows (s : State) (k : Nat) : (startTime s k).shadows = s.shadows := rfl
@[simp] theorem startTime_loops (s : State) (k : Nat) : (startTime s k).loops = s.loops := rfl
@[simp] theorem startTime_groups (s : State) (k : Nat) : (startTime s k).groups = s.groups := rfl
@[simp] theorem startTime_sub (s : State) (k : Nat) : (startTime s k).sub = s.sub := rfl
@[simp] theorem startTime_subEl (s : State) (k : Nat) : (startTime s k).subEl = s.subEl := rfl
@[simp] theorem startTime_me (s : State) (k : Nat) : (startTime s k).me = s.me := rfl
@[simp] theorem startTime_tr (s : State) (k : Nat) : (startTime s k).tr = s.tr := rfl
@[simp] theorem startTime_tc (s : State) (k : Nat) : (startTime s k).tc = s.tc := rfl
@[simp] theorem startTime_macs (s : State) (k : Nat) : (startTime s k).macs = s.macs := rfl
@[simp] theorem startTime_neArea (s : State) (k : Nat) : (startTime s k).neArea = s.neArea := rfl
@[simp] theorem startTime_shed (s : State) (k : Nat) : (startTime s k).shed = s.shed := rfl
@[simp] theorem startTime_se (s : State) (k : Nat) : (startTime s k).se = s.se := rfl
@[simp] theorem startTime_net (s : State) (k : Nat) : (startTime s k).net = s.net := rfl
@[simp] theorem startTime_field (s : State) (k : Nat) : (startTime s k).field = s.field := rfl
@[simp] theorem startTime_lands (s : State) (k : Nat) : (startTime s k).lands = s.lands := rfl
@[simp] theorem startTime_mem (s : State) (k : Nat) : (startTime s k).mem = s.mem := rfl
@[simp] theorem startTime_scf (s : State) (k : Nat) : (startTime s k).scf = s.scf := rfl
@[simp] theorem startTime_cyc (s : State) (k : Nat) : (startTime s k).cyc = s.cyc := rfl
@[simp] theorem startTime_timers (s : State) (k : Nat) : (startTime s k).timers = tabPut s.timers k s.el := rfl
@[simp] theorem startTime_pending (s : State) (k : Nat) : (startTime s k).pending = s.pending := rfl

@[simp] theorem askAgain_regs (s : State) (f : RF) : (askAgain s f).regs = s.regs := rfl
@[simp] theorem askAgain_tick (s : State) (f : RF) : (askAgain s f).tick = s.tick := rfl
@[simp] theorem askAgain_mono (s : State) (f : RF) : (askAgain s f).mono = s.mono := rfl
@[simp] theorem askAgain_fc (s : State) (f : RF) : (askAgain s f).fc = s.fc := rfl
@[simp] theorem askAgain_el (s : State) (f : RF) : (askAgain s f).el = s.el := rfl
@[simp] theorem askAgain_gridAcc (s : State) (f : RF) : (askAgain s f).gridAcc = s.gridAcc := rfl
@[simp] theorem askAgain_freeCtr (s : State) (f : RF) : (askAgain s f).freeCtr = s.freeCtr := rfl
@[simp] theorem askAgain_sent (s : State) (f : RF) : (askAgain s f).sent = s.sent := rfl
@[simp] theorem askAgain_reply (s : State) (f : RF) : (askAgain s f).reply = s.reply := rfl
@[simp] theorem askAgain_evlog (s : State) (f : RF) : (askAgain s f).evlog = s.evlog := rfl
@[simp] theorem askAgain_flt (s : State) (f : RF) : (askAgain s f).flt = s.flt := rfl
@[simp] theorem askAgain_pw (s : State) (f : RF) : (askAgain s f).pw = s.pw := rfl
@[simp] theorem askAgain_pt (s : State) (f : RF) : (askAgain s f).pt = s.pt := rfl
@[simp] theorem askAgain_tasks (s : State) (f : RF) : (askAgain s f).tasks = s.tasks := rfl
@[simp] theorem askAgain_trends (s : State) (f : RF) : (askAgain s f).trends = s.trends := rfl
@[simp] theorem askAgain_jrun (s : State) (f : RF) : (askAgain s f).jrun = s.jrun := rfl
@[simp] theorem askAgain_rtc (s : State) (f : RF) : (askAgain s f).rtc = s.rtc := rfl
@[simp] theorem askAgain_shadows (s : State) (f : RF) : (askAgain s f).shadows = s.shadows := rfl
@[simp] theorem askAgain_loops (s : State) (f : RF) : (askAgain s f).loops = s.loops := rfl
@[simp] theorem askAgain_groups (s : State) (f : RF) : (askAgain s f).groups = s.groups := rfl
@[simp] theorem askAgain_sub (s : State) (f : RF) : (askAgain s f).sub = s.sub := rfl
@[simp] theorem askAgain_subEl (s : State) (f : RF) : (askAgain s f).subEl = s.subEl := rfl
@[simp] theorem askAgain_me (s : State) (f : RF) : (askAgain s f).me = s.me := rfl
@[simp] theorem askAgain_tr (s : State) (f : RF) : (askAgain s f).tr = s.tr := rfl
@[simp] theorem askAgain_tc (s : State) (f : RF) : (askAgain s f).tc = s.tc := rfl
@[simp] theorem askAgain_macs (s : State) (f : RF) : (askAgain s f).macs = s.macs := rfl
@[simp] theorem askAgain_neArea (s : State) (f : RF) : (askAgain s f).neArea = s.neArea := rfl
@[simp] theorem askAgain_shed (s : State) (f : RF) : (askAgain s f).shed = s.shed := rfl
@[simp] theorem askAgain_se (s : State) (f : RF) : (askAgain s f).se = s.se := rfl
@[simp] theorem askAgain_net (s : State) (f : RF) : (askAgain s f).net = s.net := rfl
@[simp] theorem askAgain_field (s : State) (f : RF) : (askAgain s f).field = s.field := rfl
@[simp] theorem askAgain_lands (s : State) (f : RF) : (askAgain s f).lands = s.lands := rfl
@[simp] theorem askAgain_mem (s : State) (f : RF) : (askAgain s f).mem = s.mem := rfl
@[simp] theorem askAgain_scf (s : State) (f : RF) : (askAgain s f).scf = s.scf := rfl
@[simp] theorem askAgain_timers (s : State) (f : RF) : (askAgain s f).timers = s.timers := rfl
@[simp] theorem askAgain_pending (s : State) (f : RF) : (askAgain s f).pending = s.pending := rfl

@[simp] theorem takeAsk_regs (s : State) (f : RF) : (takeAsk s f).regs = s.regs := rfl
@[simp] theorem takeAsk_tick (s : State) (f : RF) : (takeAsk s f).tick = s.tick := rfl
@[simp] theorem takeAsk_mono (s : State) (f : RF) : (takeAsk s f).mono = s.mono := rfl
@[simp] theorem takeAsk_fc (s : State) (f : RF) : (takeAsk s f).fc = s.fc := rfl
@[simp] theorem takeAsk_el (s : State) (f : RF) : (takeAsk s f).el = s.el := rfl
@[simp] theorem takeAsk_gridAcc (s : State) (f : RF) : (takeAsk s f).gridAcc = s.gridAcc := rfl
@[simp] theorem takeAsk_freeCtr (s : State) (f : RF) : (takeAsk s f).freeCtr = s.freeCtr := rfl
@[simp] theorem takeAsk_sent (s : State) (f : RF) : (takeAsk s f).sent = s.sent := rfl
@[simp] theorem takeAsk_reply (s : State) (f : RF) : (takeAsk s f).reply = s.reply := rfl
@[simp] theorem takeAsk_evlog (s : State) (f : RF) : (takeAsk s f).evlog = s.evlog := rfl
@[simp] theorem takeAsk_flt (s : State) (f : RF) : (takeAsk s f).flt = s.flt := rfl
@[simp] theorem takeAsk_pw (s : State) (f : RF) : (takeAsk s f).pw = s.pw := rfl
@[simp] theorem takeAsk_pt (s : State) (f : RF) : (takeAsk s f).pt = s.pt := rfl
@[simp] theorem takeAsk_tasks (s : State) (f : RF) : (takeAsk s f).tasks = s.tasks := rfl
@[simp] theorem takeAsk_trends (s : State) (f : RF) : (takeAsk s f).trends = s.trends := rfl
@[simp] theorem takeAsk_jrun (s : State) (f : RF) : (takeAsk s f).jrun = s.jrun := rfl
@[simp] theorem takeAsk_rtc (s : State) (f : RF) : (takeAsk s f).rtc = s.rtc := rfl
@[simp] theorem takeAsk_shadows (s : State) (f : RF) : (takeAsk s f).shadows = s.shadows := rfl
@[simp] theorem takeAsk_loops (s : State) (f : RF) : (takeAsk s f).loops = s.loops := rfl
@[simp] theorem takeAsk_groups (s : State) (f : RF) : (takeAsk s f).groups = s.groups := rfl
@[simp] theorem takeAsk_sub (s : State) (f : RF) : (takeAsk s f).sub = s.sub := rfl
@[simp] theorem takeAsk_subEl (s : State) (f : RF) : (takeAsk s f).subEl = s.subEl := rfl
@[simp] theorem takeAsk_me (s : State) (f : RF) : (takeAsk s f).me = s.me := rfl
@[simp] theorem takeAsk_tr (s : State) (f : RF) : (takeAsk s f).tr = s.tr := rfl
@[simp] theorem takeAsk_tc (s : State) (f : RF) : (takeAsk s f).tc = s.tc := rfl
@[simp] theorem takeAsk_macs (s : State) (f : RF) : (takeAsk s f).macs = s.macs := rfl
@[simp] theorem takeAsk_neArea (s : State) (f : RF) : (takeAsk s f).neArea = s.neArea := rfl
@[simp] theorem takeAsk_shed (s : State) (f : RF) : (takeAsk s f).shed = s.shed := rfl
@[simp] theorem takeAsk_se (s : State) (f : RF) : (takeAsk s f).se = s.se := rfl
@[simp] theorem takeAsk_net (s : State) (f : RF) : (takeAsk s f).net = s.net := rfl
@[simp] theorem takeAsk_field (s : State) (f : RF) : (takeAsk s f).field = s.field := rfl
@[simp] theorem takeAsk_lands (s : State) (f : RF) : (takeAsk s f).lands = s.lands := rfl
@[simp] theorem takeAsk_mem (s : State) (f : RF) : (takeAsk s f).mem = s.mem := rfl
@[simp] theorem takeAsk_scf (s : State) (f : RF) : (takeAsk s f).scf = s.scf := rfl
@[simp] theorem takeAsk_timers (s : State) (f : RF) : (takeAsk s f).timers = s.timers := rfl
@[simp] theorem takeAsk_pending (s : State) (f : RF) : (takeAsk s f).pending = s.pending := rfl

@[simp] theorem latchF_tick (s : State) (f : RF) (v : Nat) : (latchF s f v).tick = s.tick := rfl
@[simp] theorem latchF_mono (s : State) (f : RF) (v : Nat) : (latchF s f v).mono = s.mono := rfl
@[simp] theorem latchF_fc (s : State) (f : RF) (v : Nat) : (latchF s f v).fc = s.fc := rfl
@[simp] theorem latchF_el (s : State) (f : RF) (v : Nat) : (latchF s f v).el = s.el := rfl
@[simp] theorem latchF_gridAcc (s : State) (f : RF) (v : Nat) : (latchF s f v).gridAcc = s.gridAcc := rfl
@[simp] theorem latchF_freeCtr (s : State) (f : RF) (v : Nat) : (latchF s f v).freeCtr = s.freeCtr := rfl
@[simp] theorem latchF_sent (s : State) (f : RF) (v : Nat) : (latchF s f v).sent = s.sent := rfl
@[simp] theorem latchF_reply (s : State) (f : RF) (v : Nat) : (latchF s f v).reply = s.reply := rfl
@[simp] theorem latchF_evlog (s : State) (f : RF) (v : Nat) : (latchF s f v).evlog = s.evlog := rfl
@[simp] theorem latchF_flt (s : State) (f : RF) (v : Nat) : (latchF s f v).flt = s.flt := rfl
@[simp] theorem latchF_pw (s : State) (f : RF) (v : Nat) : (latchF s f v).pw = s.pw := rfl
@[simp] theorem latchF_pt (s : State) (f : RF) (v : Nat) : (latchF s f v).pt = s.pt := rfl
@[simp] theorem latchF_tasks (s : State) (f : RF) (v : Nat) : (latchF s f v).tasks = s.tasks := rfl
@[simp] theorem latchF_trends (s : State) (f : RF) (v : Nat) : (latchF s f v).trends = s.trends := rfl
@[simp] theorem latchF_jrun (s : State) (f : RF) (v : Nat) : (latchF s f v).jrun = s.jrun := rfl
@[simp] theorem latchF_rtc (s : State) (f : RF) (v : Nat) : (latchF s f v).rtc = s.rtc := rfl
@[simp] theorem latchF_shadows (s : State) (f : RF) (v : Nat) : (latchF s f v).shadows = s.shadows := rfl
@[simp] theorem latchF_loops (s : State) (f : RF) (v : Nat) : (latchF s f v).loops = s.loops := rfl
@[simp] theorem latchF_groups (s : State) (f : RF) (v : Nat) : (latchF s f v).groups = s.groups := rfl
@[simp] theorem latchF_sub (s : State) (f : RF) (v : Nat) : (latchF s f v).sub = s.sub := rfl
@[simp] theorem latchF_subEl (s : State) (f : RF) (v : Nat) : (latchF s f v).subEl = s.subEl := rfl
@[simp] theorem latchF_me (s : State) (f : RF) (v : Nat) : (latchF s f v).me = s.me := rfl
@[simp] theorem latchF_tr (s : State) (f : RF) (v : Nat) : (latchF s f v).tr = s.tr := rfl
@[simp] theorem latchF_tc (s : State) (f : RF) (v : Nat) : (latchF s f v).tc = s.tc := rfl
@[simp] theorem latchF_macs (s : State) (f : RF) (v : Nat) : (latchF s f v).macs = s.macs := rfl
@[simp] theorem latchF_neArea (s : State) (f : RF) (v : Nat) : (latchF s f v).neArea = s.neArea := rfl
@[simp] theorem latchF_shed (s : State) (f : RF) (v : Nat) : (latchF s f v).shed = s.shed := rfl
@[simp] theorem latchF_se (s : State) (f : RF) (v : Nat) : (latchF s f v).se = s.se := rfl
@[simp] theorem latchF_net (s : State) (f : RF) (v : Nat) : (latchF s f v).net = s.net := rfl
@[simp] theorem latchF_field (s : State) (f : RF) (v : Nat) : (latchF s f v).field = s.field := rfl
@[simp] theorem latchF_lands (s : State) (f : RF) (v : Nat) : (latchF s f v).lands = s.lands := rfl
@[simp] theorem latchF_mem (s : State) (f : RF) (v : Nat) : (latchF s f v).mem = s.mem := rfl
@[simp] theorem latchF_scf (s : State) (f : RF) (v : Nat) : (latchF s f v).scf = s.scf := rfl
@[simp] theorem latchF_timers (s : State) (f : RF) (v : Nat) : (latchF s f v).timers = s.timers := rfl
@[simp] theorem latchF_pending (s : State) (f : RF) (v : Nat) : (latchF s f v).pending = s.pending := rfl

@[simp] theorem cross_regs (s : State) (q : Nat) : (cross s q).regs = s.regs := rfl
@[simp] theorem cross_tick (s : State) (q : Nat) : (cross s q).tick = s.tick := rfl
@[simp] theorem cross_mono (s : State) (q : Nat) : (cross s q).mono = s.mono := rfl
@[simp] theorem cross_fc (s : State) (q : Nat) : (cross s q).fc = s.fc := rfl
@[simp] theorem cross_el (s : State) (q : Nat) : (cross s q).el = s.el := rfl
@[simp] theorem cross_gridAcc (s : State) (q : Nat) : (cross s q).gridAcc = s.gridAcc := rfl
@[simp] theorem cross_freeCtr (s : State) (q : Nat) : (cross s q).freeCtr = s.freeCtr := rfl
@[simp] theorem cross_sent (s : State) (q : Nat) : (cross s q).sent = s.sent := rfl
@[simp] theorem cross_reply (s : State) (q : Nat) : (cross s q).reply = s.reply := rfl
@[simp] theorem cross_evlog (s : State) (q : Nat) : (cross s q).evlog = s.evlog := rfl
@[simp] theorem cross_flt (s : State) (q : Nat) : (cross s q).flt = s.flt := rfl
@[simp] theorem cross_pw (s : State) (q : Nat) : (cross s q).pw = s.pw := rfl
@[simp] theorem cross_pt (s : State) (q : Nat) : (cross s q).pt = s.pt := rfl
@[simp] theorem cross_tasks (s : State) (q : Nat) : (cross s q).tasks = s.tasks := rfl
@[simp] theorem cross_trends (s : State) (q : Nat) : (cross s q).trends = s.trends := rfl
@[simp] theorem cross_jrun (s : State) (q : Nat) : (cross s q).jrun = s.jrun := rfl
@[simp] theorem cross_rtc (s : State) (q : Nat) : (cross s q).rtc = s.rtc := rfl
@[simp] theorem cross_shadows (s : State) (q : Nat) : (cross s q).shadows = s.shadows := rfl
@[simp] theorem cross_loops (s : State) (q : Nat) : (cross s q).loops = s.loops := rfl
@[simp] theorem cross_groups (s : State) (q : Nat) : (cross s q).groups = s.groups := rfl
@[simp] theorem cross_sub (s : State) (q : Nat) : (cross s q).sub = s.sub := rfl
@[simp] theorem cross_subEl (s : State) (q : Nat) : (cross s q).subEl = s.subEl := rfl
@[simp] theorem cross_me (s : State) (q : Nat) : (cross s q).me = s.me := rfl
@[simp] theorem cross_tr (s : State) (q : Nat) : (cross s q).tr = s.tr := rfl
@[simp] theorem cross_tc (s : State) (q : Nat) : (cross s q).tc = s.tc := rfl
@[simp] theorem cross_macs (s : State) (q : Nat) : (cross s q).macs = s.macs := rfl
@[simp] theorem cross_neArea (s : State) (q : Nat) : (cross s q).neArea = s.neArea := rfl
@[simp] theorem cross_shed (s : State) (q : Nat) : (cross s q).shed = s.shed := rfl
@[simp] theorem cross_se (s : State) (q : Nat) : (cross s q).se = s.se := rfl
@[simp] theorem cross_net (s : State) (q : Nat) : (cross s q).net = s.net := rfl
@[simp] theorem cross_field (s : State) (q : Nat) : (cross s q).field = s.field := rfl
@[simp] theorem cross_lands (s : State) (q : Nat) : (cross s q).lands = s.lands := rfl
@[simp] theorem cross_scf (s : State) (q : Nat) : (cross s q).scf = s.scf := rfl
@[simp] theorem cross_cyc (s : State) (q : Nat) : (cross s q).cyc = s.cyc := rfl
@[simp] theorem cross_timers (s : State) (q : Nat) : (cross s q).timers = s.timers := rfl
@[simp] theorem cross_pending (s : State) (q : Nat) : (cross s q).pending = s.pending := rfl

@[simp] theorem maxF_tick (s : State) (f : RF) (v : Nat) : (maxF s f v).tick = s.tick := by unfold maxF; split <;> rfl
@[simp] theorem maxF_mono (s : State) (f : RF) (v : Nat) : (maxF s f v).mono = s.mono := by unfold maxF; split <;> rfl
@[simp] theorem maxF_fc (s : State) (f : RF) (v : Nat) : (maxF s f v).fc = s.fc := by unfold maxF; split <;> rfl
@[simp] theorem maxF_el (s : State) (f : RF) (v : Nat) : (maxF s f v).el = s.el := by unfold maxF; split <;> rfl
@[simp] theorem maxF_gridAcc (s : State) (f : RF) (v : Nat) : (maxF s f v).gridAcc = s.gridAcc := by unfold maxF; split <;> rfl
@[simp] theorem maxF_freeCtr (s : State) (f : RF) (v : Nat) : (maxF s f v).freeCtr = s.freeCtr := by unfold maxF; split <;> rfl
@[simp] theorem maxF_sent (s : State) (f : RF) (v : Nat) : (maxF s f v).sent = s.sent := by unfold maxF; split <;> rfl
@[simp] theorem maxF_reply (s : State) (f : RF) (v : Nat) : (maxF s f v).reply = s.reply := by unfold maxF; split <;> rfl
@[simp] theorem maxF_evlog (s : State) (f : RF) (v : Nat) : (maxF s f v).evlog = s.evlog := by unfold maxF; split <;> rfl
@[simp] theorem maxF_flt (s : State) (f : RF) (v : Nat) : (maxF s f v).flt = s.flt := by unfold maxF; split <;> rfl
@[simp] theorem maxF_pw (s : State) (f : RF) (v : Nat) : (maxF s f v).pw = s.pw := by unfold maxF; split <;> rfl
@[simp] theorem maxF_pt (s : State) (f : RF) (v : Nat) : (maxF s f v).pt = s.pt := by unfold maxF; split <;> rfl
@[simp] theorem maxF_tasks (s : State) (f : RF) (v : Nat) : (maxF s f v).tasks = s.tasks := by unfold maxF; split <;> rfl
@[simp] theorem maxF_trends (s : State) (f : RF) (v : Nat) : (maxF s f v).trends = s.trends := by unfold maxF; split <;> rfl
@[simp] theorem maxF_jrun (s : State) (f : RF) (v : Nat) : (maxF s f v).jrun = s.jrun := by unfold maxF; split <;> rfl
@[simp] theorem maxF_rtc (s : State) (f : RF) (v : Nat) : (maxF s f v).rtc = s.rtc := by unfold maxF; split <;> rfl
@[simp] theorem maxF_shadows (s : State) (f : RF) (v : Nat) : (maxF s f v).shadows = s.shadows := by unfold maxF; split <;> rfl
@[simp] theorem maxF_loops (s : State) (f : RF) (v : Nat) : (maxF s f v).loops = s.loops := by unfold maxF; split <;> rfl
@[simp] theorem maxF_groups (s : State) (f : RF) (v : Nat) : (maxF s f v).groups = s.groups := by unfold maxF; split <;> rfl
@[simp] theorem maxF_sub (s : State) (f : RF) (v : Nat) : (maxF s f v).sub = s.sub := by unfold maxF; split <;> rfl
@[simp] theorem maxF_subEl (s : State) (f : RF) (v : Nat) : (maxF s f v).subEl = s.subEl := by unfold maxF; split <;> rfl
@[simp] theorem maxF_me (s : State) (f : RF) (v : Nat) : (maxF s f v).me = s.me := by unfold maxF; split <;> rfl
@[simp] theorem maxF_tr (s : State) (f : RF) (v : Nat) : (maxF s f v).tr = s.tr := by unfold maxF; split <;> rfl
@[simp] theorem maxF_tc (s : State) (f : RF) (v : Nat) : (maxF s f v).tc = s.tc := by unfold maxF; split <;> rfl
@[simp] theorem maxF_macs (s : State) (f : RF) (v : Nat) : (maxF s f v).macs = s.macs := by unfold maxF; split <;> rfl
@[simp] theorem maxF_neArea (s : State) (f : RF) (v : Nat) : (maxF s f v).neArea = s.neArea := by unfold maxF; split <;> rfl
@[simp] theorem maxF_shed (s : State) (f : RF) (v : Nat) : (maxF s f v).shed = s.shed := by unfold maxF; split <;> rfl
@[simp] theorem maxF_se (s : State) (f : RF) (v : Nat) : (maxF s f v).se = s.se := by unfold maxF; split <;> rfl
@[simp] theorem maxF_net (s : State) (f : RF) (v : Nat) : (maxF s f v).net = s.net := by unfold maxF; split <;> rfl
@[simp] theorem maxF_field (s : State) (f : RF) (v : Nat) : (maxF s f v).field = s.field := by unfold maxF; split <;> rfl
@[simp] theorem maxF_lands (s : State) (f : RF) (v : Nat) : (maxF s f v).lands = s.lands := by unfold maxF; split <;> rfl
@[simp] theorem maxF_mem (s : State) (f : RF) (v : Nat) : (maxF s f v).mem = s.mem := by unfold maxF; split <;> rfl
@[simp] theorem maxF_scf (s : State) (f : RF) (v : Nat) : (maxF s f v).scf = s.scf := by unfold maxF; split <;> rfl
@[simp] theorem maxF_cyc (s : State) (f : RF) (v : Nat) : (maxF s f v).cyc = s.cyc := by unfold maxF; split <;> rfl
@[simp] theorem maxF_timers (s : State) (f : RF) (v : Nat) : (maxF s f v).timers = s.timers := by unfold maxF; split <;> rfl
@[simp] theorem maxF_pending (s : State) (f : RF) (v : Nat) : (maxF s f v).pending = s.pending := by unfold maxF; split <;> rfl

@[simp] theorem setFs_tick (l : List (RF × Nat)) (s : State) : (setFs s l).tick = s.tick := by
  induction l generalizing s with
  | nil => rfl
  | cons p l ih => exact ih _
@[simp] theorem setFs_mono (l : List (RF × Nat)) (s : State) : (setFs s l).mono = s.mono := by
  induction l generalizing s with
  | nil => rfl
  | cons p l ih => exact ih _
@[simp] theorem setFs_fc (l : List (RF × Nat)) (s : State) : (setFs s l).fc = s.fc := by
  induction l generalizing s with
  | nil => rfl
  | cons p l ih => exact ih _
@[simp] theorem setFs_el (l : List (RF × Nat)) (s : State) : (setFs s l).el = s.el := by
  induction l generalizing s with
  | nil => rfl
  | cons p l ih => exact ih _
@[simp] theorem setFs_gridAcc (l : List (RF × Nat)) (s : State) : (setFs s l).gridAcc = s.gridAcc := by
  induction l generalizing s with
  | nil => rfl
  | cons p l ih => exact ih _
@[simp] theorem setFs_freeCtr (l : List (RF × Nat)) (s : State) : (setFs s l).freeCtr = s.freeCtr := by
  induction l generalizing s with
  | nil => rfl
  | cons p l ih => exact ih _
@[simp] theorem setFs_sent (l : List (RF × Nat)) (s : State) : (setFs s l).sent = s.sent := by
  induction l generalizing s with
  | nil => rfl
  | cons p l ih => exact ih _
@[simp] theorem setFs_reply (l : List (RF × Nat)) (s : State) : (setFs s l).reply = s.reply := by
  induction l generalizing s with
  | nil => rfl
  | cons p l ih => exact ih _
@[simp] theorem setFs_evlog (l : List (RF × Nat)) (s : State) : (setFs s l).evlog = s.evlog := by
  induction l generalizing s with
  | nil => rfl
  | cons p l ih => exact ih _
@[simp] theorem setFs_flt (l : List (RF × Nat)) (s : State) : (setFs s l).flt = s.flt := by
  induction l generalizing s with
  | nil => rfl
  | cons p l ih => exact ih _
@[simp] theorem setFs_pw (l : List (RF × Nat)) (s : State) : (setFs s l).pw = s.pw := by
  induction l generalizing s with
  | nil => rfl
  | cons p l ih => exact ih _
@[simp] theorem setFs_pt (l : List (RF × Nat)) (s : State) : (setFs s l).pt = s.pt := by
  induction l generalizing s with
  | nil => rfl
  | cons p l ih => exact ih _
@[simp] theorem setFs_tasks (l : List (RF × Nat)) (s : State) : (setFs s l).tasks = s.tasks := by
  induction l generalizing s with
  | nil => rfl
  | cons p l ih => exact ih _
@[simp] theorem setFs_trends (l : List (RF × Nat)) (s : State) : (setFs s l).trends = s.trends := by
  induction l generalizing s with
  | nil => rfl
  | cons p l ih => exact ih _
@[simp] theorem setFs_jrun (l : List (RF × Nat)) (s : State) : (setFs s l).jrun = s.jrun := by
  induction l generalizing s with
  | nil => rfl
  | cons p l ih => exact ih _
@[simp] theorem setFs_rtc (l : List (RF × Nat)) (s : State) : (setFs s l).rtc = s.rtc := by
  induction l generalizing s with
  | nil => rfl
  | cons p l ih => exact ih _
@[simp] theorem setFs_shadows (l : List (RF × Nat)) (s : State) : (setFs s l).shadows = s.shadows := by
  induction l generalizing s with
  | nil => rfl
  | cons p l ih => exact ih _
@[simp] theorem setFs_loops (l : List (RF × Nat)) (s : State) : (setFs s l).loops = s.loops := by
  induction l generalizing s with
  | nil => rfl
  | cons p l ih => exact ih _
@[simp] theorem setFs_groups (l : List (RF × Nat)) (s : State) : (setFs s l).groups = s.groups := by
  induction l generalizing s with
  | nil => rfl
  | cons p l ih => exact ih _
@[simp] theorem setFs_sub (l : List (RF × Nat)) (s : State) : (setFs s l).sub = s.sub := by
  induction l generalizing s with
  | nil => rfl
  | cons p l ih => exact ih _
@[simp] theorem setFs_subEl (l : List (RF × Nat)) (s : State) : (setFs s l).subEl = s.subEl := by
  induction l generalizing s with
  | nil => rfl
  | cons p l ih => exact ih _
@[simp] theorem setFs_me (l : List (RF × Nat)) (s : State) : (setFs s l).me = s.me := by
  induction l generalizing s with
  | nil => rfl
  | cons p l ih => exact ih _
@[simp] theorem setFs_tr (l : List (RF × Nat)) (s : State) : (setFs s l).tr = s.tr := by
  induction l generalizing s with
  | nil => rfl
  | cons p l ih => exact ih _
@[simp] theorem setFs_tc (l : List (RF × Nat)) (s : State) : (setFs s l).tc = s.tc := by
  induction l generalizing s with
  | nil => rfl
  | cons p l ih => exact ih _
@[simp] theorem setFs_macs (l : List (RF × Nat)) (s : State) : (setFs s l).macs = s.macs := by
  induction l generalizing s with
  | nil => rfl
  | cons p l ih => exact ih _
@[simp] theorem setFs_neArea (l : List (RF × Nat)) (s : State) : (setFs s l).neArea = s.neArea := by
  induction l generalizing s with
  | nil => rfl
  | cons p l ih => exact ih _
@[simp] theorem setFs_shed (l : List (RF × Nat)) (s : State) : (setFs s l).shed = s.shed := by
  induction l generalizing s with
  | nil => rfl
  | cons p l ih => exact ih _
@[simp] theorem setFs_se (l : List (RF × Nat)) (s : State) : (setFs s l).se = s.se := by
  induction l generalizing s with
  | nil => rfl
  | cons p l ih => exact ih _
@[simp] theorem setFs_net (l : List (RF × Nat)) (s : State) : (setFs s l).net = s.net := by
  induction l generalizing s with
  | nil => rfl
  | cons p l ih => exact ih _
@[simp] theorem setFs_field (l : List (RF × Nat)) (s : State) : (setFs s l).field = s.field := by
  induction l generalizing s with
  | nil => rfl
  | cons p l ih => exact ih _
@[simp] theorem setFs_lands (l : List (RF × Nat)) (s : State) : (setFs s l).lands = s.lands := by
  induction l generalizing s with
  | nil => rfl
  | cons p l ih => exact ih _
@[simp] theorem setFs_mem (l : List (RF × Nat)) (s : State) : (setFs s l).mem = s.mem := by
  induction l generalizing s with
  | nil => rfl
  | cons p l ih => exact ih _
@[simp] theorem setFs_scf (l : List (RF × Nat)) (s : State) : (setFs s l).scf = s.scf := by
  induction l generalizing s with
  | nil => rfl
  | cons p l ih => exact ih _
@[simp] theorem setFs_cyc (l : List (RF × Nat)) (s : State) : (setFs s l).cyc = s.cyc := by
  induction l generalizing s with
  | nil => rfl
  | cons p l ih => exact ih _
@[simp] theorem setFs_timers (l : List (RF × Nat)) (s : State) : (setFs s l).timers = s.timers := by
  induction l generalizing s with
  | nil => rfl
  | cons p l ih => exact ih _
@[simp] theorem setFs_pending (l : List (RF × Nat)) (s : State) : (setFs s l).pending = s.pending := by
  induction l generalizing s with
  | nil => rfl
  | cons p l ih => exact ih _

end Sys2Proof.Machine
end

