-- ==== Sys2Proof/Laws/Regs.lean ====
section
/-! SUPPORT. Laws/Regs.lean: reading a register field after a write (00 R4 to R10), and that every register operation keeps the canonical form. -/

namespace Sys2Proof.Machine

theorem Inv.regs {s : State} (h : Inv s) : regsWf s = true := by
  unfold Inv invB at h; simp only [Bool.and_eq_true] at h; exact h.1.1

theorem Inv.clocks {s : State} (h : Inv s) : clocksWf s = true := by
  unfold Inv invB at h; simp only [Bool.and_eq_true] at h; exact h.1.2

theorem Inv.queues {s : State} (h : Inv s) : queuesWf s = true := by
  unfold Inv invB at h; simp only [Bool.and_eq_true] at h; exact h.2

theorem Inv.mk {s : State} (h : regsWf s = true) (c : clocksWf s = true) (q : queuesWf s = true) : Inv s := by
  unfold Inv invB; rw [h, c, q]; rfl

/-- A field is read from the register file and from nothing else. -/
theorem getF_of_regs {s t : State} (h : t.regs = s.regs) (f : RF) : getF t f = getF s f := by unfold getF; rw [h]

theorem getB_of_regs {s t : State} (h : t.regs = s.regs) (f : RF) : getB t f = getB s f := by unfold getB; rw [getF_of_regs h]

theorem regsWf_of_regs {s t : State} (h : t.regs = s.regs) (w : regsWf s = true) : regsWf t = true := by unfold regsWf; rw [h]; exact w

theorem getF_setF_same {s : State} (h : regsWf s = true) (f : RF) (v : Nat) : getF (setF s f v) f = v % 2 ^ f.w :=
  tabGet_tabSet_same h _ _

theorem getF_setF_ne {s : State} (h : regsWf s = true) {f g : RF} (v : Nat) (hne : f.key ≠ g.key) : getF (setF s f v) g = getF s g :=
  tabGet_tabSet_ne h _ hne

theorem regsWf_setF {s : State} (h : regsWf s = true) (f : RF) (v : Nat) : regsWf (setF s f v) = true :=
  tabSet_sorted h _ _ _

theorem regsWf_resetRegs {s : State} (h : regsWf s = true) (l : Nat) (p : Nat → Bool) : regsWf (resetRegs s l p) = true :=
  filter_sorted h _

theorem regsWf_setB {s : State} (h : regsWf s = true) (f : RF) (b : Bool) : regsWf (setB s f b) = true := regsWf_setF h _ _

theorem regsWf_incF {s : State} (h : regsWf s = true) (f : RF) (n : Nat) : regsWf (incF s f n) = true := regsWf_setF h _ _

theorem regsWf_incSatF {s : State} (h : regsWf s = true) (f : RF) (n : Nat) : regsWf (incSatF s f n) = true := regsWf_setF h _ _

theorem regsWf_maxF {s : State} (h : regsWf s = true) (f : RF) (v : Nat) : regsWf (maxF s f v) = true := by
  unfold maxF; split
  · exact regsWf_setF h _ _
  · exact h

theorem regsWf_setFs (l : List (RF × Nat)) {s : State} (h : regsWf s = true) : regsWf (setFs s l) = true := by
  induction l generalizing s with
  | nil => exact h
  | cons p l ih => exact ih (regsWf_setF h _ _)

theorem getF_setFs_ne (l : List (RF × Nat)) {s : State} (h : regsWf s = true) {g : RF} (hne : ∀ p ∈ l, p.1.key ≠ g.key) :
    getF (setFs s l) g = getF s g := by
  induction l generalizing s with
  | nil => rfl
  | cons p l ih =>
    show getF (setFs (setF s p.1 p.2) l) g = _
    rw [ih (regsWf_setF h _ _) (fun q hq => hne q (List.mem_cons_of_mem _ hq)), getF_setF_ne h _ (hne p List.mem_cons_self)]

theorem getB_setB_same {s : State} (h : regsWf s = true) (f : RF) (hw : f.w = 1) (b : Bool) : getB (setB s f b) f = b := by
  unfold getB setB
  rw [getF_setF_same h, hw]
  cases b <;> rfl

theorem getB_setF_ne {s : State} (h : regsWf s = true) {f g : RF} (v : Nat) (hne : f.key ≠ g.key) : getB (setF s f v) g = getB s g := by
  unfold getB; rw [getF_setF_ne h v hne]

theorem getF_resetRegs {s : State} (f : RF) (l : Nat) (p : Nat → Bool)
    (h : ¬ (l ≤ f.key % 8 ∧ f.key % 8 ≠ 7 ∧ p (f.key / 256 % 0x1000000) = true)) (w : regsWf s = true) : getF (resetRegs s l p) f = getF s f := by
  have key : ∀ (t : Tab Nat) (lo : Option Nat) (q : Nat × Nat → Bool), tabSortedFrom lo t = true → (∀ v, q (f.key, v) = true) →
      tabGet? (t.filter q) f.key = tabGet? t f.key := by
    intro t
    induction t with
    | nil => intros; rfl
    | cons e t ih =>
      obtain ⟨j, b⟩ := e
      intro lo q hs hq
      rw [tabSortedFrom_cons] at hs
      rw [List.filter_cons]
      split
      · simp only [tabGet?, ih _ q hs.2 hq]
      · simp only [tabGet?]
        rw [if_neg (fun he => by subst he; exact absurd (hq b) ‹_›)]
        split
        · exact tabGet?_below (filter_sorted hs.2 q) (by omega)
        · exact ih _ q hs.2 hq
  show tabGet _ _ _ = tabGet _ _ _
  unfold tabGet resetRegs
  rw [key _ none _ w (fun v => by
    simp at h ⊢
    by_cases a : l ≤ f.key % 8
    · by_cases b : f.key % 8 = 7
      · exact .inl (.inr b)
      · exact .inr (h a b)
    · exact .inl (.inl (by omega)))]

/-- A field that a reset restores reads as its reset value after it. -/
theorem getF_resetRegs_same {s : State} (f : RF) (l : Nat) (p : Nat → Bool)
    (h : l ≤ f.key % 8 ∧ f.key % 8 ≠ 7 ∧ p (f.key / 256 % 0x1000000) = true) : getF (resetRegs s l p) f = f.rst := by
  have key : ∀ (t : Tab Nat) (q : Nat × Nat → Bool), (∀ v, q (f.key, v) = false) → tabGet? (t.filter q) f.key = none := by
    intro t
    induction t with
    | nil => intros; rfl
    | cons e t ih =>
      obtain ⟨j, b⟩ := e
      intro q hq
      rw [List.filter_cons]
      split
      · simp only [tabGet?]
        rw [if_neg (fun he => by subst he; rw [hq] at *; contradiction), ih q hq]
        simp
      · exact ih q hq
  show tabGet _ _ _ = _
  unfold tabGet resetRegs
  rw [key _ _ (fun v => by simp [h])]
  rfl

theorem getF_lt_setF {s : State} (h : regsWf s = true) (f : RF) (v : Nat) (hv : v < 2 ^ f.w) : getF (setF s f v) f = v := by
  rw [getF_setF_same h, Nat.mod_eq_of_lt hv]

/-! ## The register file as data: for states written as record updates, where `getF` of the state reduces to `getR` of its register file -/

/-- The value of a field in a register file. -/
def getR (r : Tab Nat) (f : RF) : Nat := tabGet f.rst r f.key

/-- A register file with a field written. -/
def setR (r : Tab Nat) (f : RF) (v : Nat) : Tab Nat := tabSet f.rst r f.key (v % 2 ^ f.w)

/-- Keys strictly rising. -/
def wfR (r : Tab Nat) : Prop := tabSortedFrom none r = true

theorem Inv.wfR {s : State} (h : Inv s) : wfR s.regs := h.regs

theorem wfR_of {s : State} (h : regsWf s = true) : wfR s.regs := h

theorem getF_eq (s : State) (f : RF) : getF s f = getR s.regs f := rfl

theorem getB_eq (s : State) (f : RF) : getB s f = (getR s.regs f == 1) := rfl

theorem setF_regs (s : State) (f : RF) (v : Nat) : (setF s f v).regs = setR s.regs f v := rfl

theorem setB_regs (s : State) (f : RF) (b : Bool) : (setB s f b).regs = setR s.regs f (b2n b) := rfl

theorem incF_regs (s : State) (f : RF) (n : Nat) : (incF s f n).regs = setR s.regs f (getR s.regs f + n) := rfl

theorem incSatF_regs (s : State) (f : RF) (n : Nat) :
    (incSatF s f n).regs = setR s.regs f (satAt (2 ^ f.w - 1) (getR s.regs f + n)) := rfl

theorem setFs_nil_regs (s : State) : (setFs s []).regs = s.regs := rfl

theorem setFs_cons_regs (s : State) (f : RF) (v : Nat) (l : List (RF × Nat)) :
    (setFs s ((f, v) :: l)).regs = (setFs (setF s f v) l).regs := rfl

theorem wfR_setR {r : Tab Nat} (h : wfR r) (f : RF) (v : Nat) : wfR (setR r f v) := tabSet_sorted h _ _ _

theorem getR_setR_same {r : Tab Nat} (h : wfR r) (f : RF) (v : Nat) : getR (setR r f v) f = v % 2 ^ f.w := tabGet_tabSet_same h _ _

theorem getR_setR_ne {r : Tab Nat} (h : wfR r) {f g : RF} (v : Nat) (hne : f.key ≠ g.key) : getR (setR r f v) g = getR r g :=
  tabGet_tabSet_ne h _ hne

end Sys2Proof.Machine
end

