-- ==== Sys2Proof/Laws/Kept.lean ====
section
/-! SUPPORT. Laws/Kept.lean: what every operation on the way from one state to another keeps: the invariant, the queue of commands, elapsed time, the
life-cycle fuses; and how it composes. -/

namespace Sys2Proof.Machine

set_option linter.unusedTactic false
set_option linter.unreachableTactic false

/-- From `s` to `t` the invariant is kept, the queue of commands is as it was, elapsed grid ticks and the life-cycle fuses do not fall. -/
structure Kept (s t : State) : Prop where
  inv : Inv s → Inv t
  pending : t.pending = s.pending
  mono : s.mono ≤ t.mono
  fused : s.se.fused ≤ t.se.fused

/-- A command answers a next state that it keeps. -/
def Answers (s : State) (o : Host.Outcome State Fault Refusal) : Prop := ∃ t, o = .next t ∧ Kept s t

theorem Kept.refl (s : State) : Kept s s := ⟨id, rfl, Nat.le_refl _, Nat.le_refl _⟩

theorem Kept.trans {s t u : State} (h : Kept s t) (k : Kept t u) : Kept s u :=
  ⟨fun i => k.inv (h.inv i), k.pending.trans h.pending, Nat.le_trans h.mono k.mono, Nat.le_trans h.fused k.fused⟩

theorem Answers.next {s t : State} (h : Kept s t) : Answers s (done t) := ⟨t, rfl, h⟩

theorem kept_ite {s₀ a b : State} {c : Prop} [Decidable c] (ha : Kept s₀ a) (hb : Kept s₀ b) : Kept s₀ (if c then a else b) := by
  split
  · exact ha
  · exact hb

theorem answers_ite {s₀ : State} {a b : Host.Outcome State Fault Refusal} {c : Prop} [Decidable c] (ha : Answers s₀ a)
    (hb : Answers s₀ b) : Answers s₀ (if c then a else b) := by
  split
  · exact ha
  · exact hb

/-- A state, if there is one, that it keeps. -/
structure KeptOpt (s : State) (o : Option State) : Prop where
  kept : ∀ t, o = some t → Kept s t

theorem keptOpt_none (s : State) : KeptOpt s none := ⟨fun _ h => by cases h⟩

theorem keptOpt_some {s t : State} (h : Kept s t) : KeptOpt s (some t) := ⟨fun _ e => by cases e; exact h⟩

theorem keptOpt_ite {s₀ : State} {a b : Option State} {c : Prop} [Decidable c] (ha : KeptOpt s₀ a) (hb : KeptOpt s₀ b) :
    KeptOpt s₀ (if c then a else b) := by
  split
  · exact ha
  · exact hb

theorem foldl_kept {α : Type} {s₀ : State} {f : State → α → State} (hf : ∀ s a, Kept s₀ s → Kept s₀ (f s a)) (l : List α) {s : State}
    (h : Kept s₀ s) : Kept s₀ (l.foldl f s) := by
  induction l generalizing s with
  | nil => exact h
  | cons a l ih => exact ih (hf s a h)

theorem foldl_pair_kept {α β : Type} {s₀ : State} {f : State × β → α → State × β} (hf : ∀ p a, Kept s₀ p.1 → Kept s₀ (f p a).1) (l : List α)
    {p : State × β} (h : Kept s₀ p.1) : Kept s₀ (l.foldl f p).1 := by
  induction l generalizing p with
  | nil => exact h
  | cons a l ih => exact ih (hf p a h)

/-- An update that leaves the register file, the clocks, the queues and the fuses. -/
theorem kept_mk {s₀ s : State} (h : Kept s₀ s) {el gridAcc freeCtr sent reply evlog flt pw pt tasks trends jrun rtc shadows loops groups subEl me tr tc macs neArea shed se
    net field lands mem scf cyc timers} (h1 : rtc.count = s.rtc.count) (h2 : flt.queue.length ≤ s.flt.queue.length) (h3 : flt.backlog.length ≤ s.flt.backlog.length)
    (h4 : scf.queue.length ≤ s.scf.queue.length) (h5 : se.fused = s.se.fused) :
    Kept s₀ (State.mk s.regs s.tick s.mono s.fc el gridAcc freeCtr sent reply evlog flt pw pt tasks trends jrun rtc shadows loops groups s.sub subEl me
      tr tc macs neArea shed se net field lands mem scf cyc timers s.pending) := by
  refine ⟨fun i => ?_, h.pending, h.mono, by dsimp only; rw [h5]; exact h.fused⟩
  have k := h.inv i
  refine Inv.mk k.regs ?_ ?_
  · have := k.clocks; unfold clocksWf at this ⊢; dsimp only; rw [h1]; exact this
  · have := k.queues
    unfold queuesWf at this ⊢
    simp only [Bool.and_eq_true, decide_eq_true_eq] at this ⊢
    exact ⟨⟨Nat.le_trans h2 this.1.1, Nat.le_trans h3 this.1.2⟩, Nat.le_trans h4 this.2⟩

/-- An update that touches the clocks or the queues. -/
theorem kept_core {s₀ s t : State} (h : Kept s₀ s) (hr : regsWf s = true → regsWf t = true) (hc : clocksWf s = true → clocksWf t = true)
    (hq : queuesWf s = true → queuesWf t = true) (hp : t.pending = s.pending) (hm : s.mono ≤ t.mono) (hf : s.se.fused ≤ t.se.fused) : Kept s₀ t :=
  ⟨fun i => have k := h.inv i; Inv.mk (hr k.regs) (hc k.clocks) (hq k.queues), hp.trans h.pending, Nat.le_trans h.mono hm, Nat.le_trans h.fused hf⟩

theorem setF_kept {s₀ s : State} (h : Kept s₀ s) (f : RF) (v : Nat) : Kept s₀ (setF s f v) :=
  ⟨fun i => have k := h.inv i; Inv.mk (regsWf_setF k.regs f v) k.clocks k.queues, h.pending, h.mono, h.fused⟩

theorem setB_kept {s₀ s : State} (h : Kept s₀ s) (f : RF) (b : Bool) : Kept s₀ (setB s f b) := setF_kept h _ _

theorem incF_kept {s₀ s : State} (h : Kept s₀ s) (f : RF) (n : Nat) : Kept s₀ (incF s f n) := setF_kept h _ _

theorem incSatF_kept {s₀ s : State} (h : Kept s₀ s) (f : RF) (n : Nat) : Kept s₀ (incSatF s f n) := setF_kept h _ _

theorem maxF_kept {s₀ s : State} (h : Kept s₀ s) (f : RF) (v : Nat) : Kept s₀ (maxF s f v) := by
  unfold maxF; split
  · exact setF_kept h _ _
  · exact h

theorem setFs_kept {s₀ s : State} (h : Kept s₀ s) (l : List (RF × Nat)) : Kept s₀ (setFs s l) := by
  induction l generalizing s with
  | nil => exact h
  | cons p l ih => exact ih (setF_kept h _ _)

theorem resetRegs_kept {s₀ s : State} (h : Kept s₀ s) (l : Nat) (p : Nat → Bool) : Kept s₀ (resetRegs s l p) :=
  ⟨fun i => have k := h.inv i; Inv.mk (regsWf_resetRegs k.regs l p) k.clocks k.queues, h.pending, h.mono, h.fused⟩

theorem sendMsg_kept {s₀ s : State} (h : Kept s₀ s) (m : Msg) : Kept s₀ (sendMsg s m) := kept_mk h rfl (Nat.le_refl _) (Nat.le_refl _) (Nat.le_refl _) rfl

theorem setReply_kept {s₀ s : State} (h : Kept s₀ s) (r : List Nat) : Kept s₀ (setReply s r) := kept_mk h rfl (Nat.le_refl _) (Nat.le_refl _) (Nat.le_refl _) rfl

theorem logEvent_kept {s₀ s : State} (h : Kept s₀ s) (m : Msg) : Kept s₀ (logEvent s m) := kept_mk h rfl (Nat.le_refl _) (Nat.le_refl _) (Nat.le_refl _) rfl

theorem freshFree_kept {s₀ s : State} (h : Kept s₀ s) : Kept s₀ (freshFree s).2 := kept_mk h rfl (Nat.le_refl _) (Nat.le_refl _) (Nat.le_refl _) rfl

theorem freshFree_eq_kept {s₀ s t : State} {n : Nat} (e : freshFree s = (n, t)) (h : Kept s₀ s) : Kept s₀ t := by
  have := freshFree_kept h; rw [e] at this; exact this

theorem latchF_kept {s₀ s : State} (h : Kept s₀ s) (f : RF) (n : Nat) : Kept s₀ (latchF s f n) := by
  unfold latchF
  exact kept_mk (setF_kept h _ _) rfl (Nat.le_refl _) (Nat.le_refl _) (Nat.le_refl _) rfl

theorem askAgain_kept {s₀ s : State} (h : Kept s₀ s) (f : RF) : Kept s₀ (askAgain s f) :=
  kept_mk h rfl (Nat.le_refl _) (Nat.le_refl _) (Nat.le_refl _) rfl

theorem takeAsk_kept {s₀ s : State} (h : Kept s₀ s) (f : RF) : Kept s₀ (takeAsk s f) :=
  kept_mk h rfl (Nat.le_refl _) (Nat.le_refl _) (Nat.le_refl _) rfl

theorem startTime_kept {s₀ s : State} (h : Kept s₀ s) (k : Nat) : Kept s₀ (startTime s k) :=
  kept_mk h rfl (Nat.le_refl _) (Nat.le_refl _) (Nat.le_refl _) rfl

theorem cross_kept {s₀ s : State} (h : Kept s₀ s) (q : Nat) : Kept s₀ (cross s q) :=
  kept_mk h rfl (Nat.le_refl _) (Nat.le_refl _) (Nat.le_refl _) rfl

theorem clocksWf_iff (s : State) : clocksWf s = true ↔ s.tick < tickMod ∧ s.fc ≤ fcTickMax ∧ s.sub ≤ 4 ∧ s.rtc.count < 2 ^ 48 := by
  unfold clocksWf; simp only [Bool.and_eq_true, decide_eq_true_eq, and_assoc]

theorem queuesWf_iff (s : State) : queuesWf s = true ↔ s.flt.queue.length ≤ 32 ∧ s.flt.backlog.length ≤ 16 ∧ s.scf.queue.length ≤ 16 := by
  unfold queuesWf; simp only [Bool.and_eq_true, decide_eq_true_eq, and_assoc]

/-- The RTC stays below 2^48 as time passes. -/
theorem passCycles_rtc (s : State) (n : Nat) (h : s.rtc.count < 2 ^ 48) : (passCycles s n).rtc.count < 2 ^ 48 := by
  unfold passCycles
  dsimp only
  split
  · exact Nat.mod_lt _ (by decide)
  · exact h

/-- `n` fabric cycles pass within the grid tick. -/
theorem passCycles_kept {s₀ s : State} (h : Kept s₀ s) (n : Nat) (hn : s.fc ≤ fcTickMax → s.fc + n ≤ fcTickMax) : Kept s₀ (passCycles s n) :=
  kept_core h (fun k => k) (fun k => by
    rw [clocksWf_iff] at k ⊢
    exact ⟨k.1, hn k.2.1, k.2.2.1, passCycles_rtc s n k.2.2.2⟩) (fun k => k) rfl (Nat.le_refl _) (Nat.le_refl _)

end Sys2Proof.Machine
end

