-- ==== Sys2Proof/Laws/KeptOperands.lean ====
section
/-! SUPPORT. Laws/KeptOperands.lean: what the operations of Machine/Operands.lean keep. -/

namespace Sys2Proof.Machine

set_option linter.unusedTactic false
set_option linter.unreachableTactic false

theorem setTask_kept {s₀ s : State} (e sl : Fin 8) (t : Task) (hK : Kept s₀ s) : Kept s₀ (setTask s e sl t) := by
  unfold setTask
  repeat' first
    | with_reducible first
      | assumption
    | dsimp only | fail_if_no_progress with_reducible refine kept_mk ?_ rfl ?_ ?_ ?_ rfl | exact Nat.le_refl _ | exact Nat.zero_le _

theorem onTask_kept {s₀ s : State} (e sl : Fin 8) (f : Run → Run) (hK : Kept s₀ s) : Kept s₀ (onTask s e sl f) := by
  unfold onTask
  repeat' first
    | with_reducible first
      | assumption | intro _ | apply setTask_kept | apply kept_ite
    | dsimp only | split | fail_if_no_progress with_reducible refine kept_mk ?_ rfl ?_ ?_ ?_ rfl | exact Nat.le_refl _ | exact Nat.zero_le _

theorem onRun_kept {s₀ s : State} (r : Runner) (f : Run → Run) (hK : Kept s₀ s) : Kept s₀ (onRun s r f) := by
  unfold onRun
  repeat' first
    | with_reducible first
      | assumption | intro _ | apply onTask_kept
    | dsimp only | split | fail_if_no_progress with_reducible refine kept_mk ?_ rfl ?_ ?_ ?_ rfl | exact Nat.le_refl _ | exact Nat.zero_le _

end Sys2Proof.Machine
end

