-- ==== Sys2Proof/Laws/KeptPtCore.lean ====
section
/-! SUPPORT. Laws/KeptPtCore.lean: what the operations of Machine/PtCore.lean keep. -/

namespace Sys2Proof.Machine

set_option linter.unusedTactic false
set_option linter.unreachableTactic false

theorem setPt_kept {s₀ s : State} (i : Nat) (r : PtRec) (hK : Kept s₀ s) : Kept s₀ (setPt s i r) := by
  unfold setPt
  repeat' first
    | with_reducible first
      | assumption
    | dsimp only | fail_if_no_progress with_reducible refine kept_mk ?_ rfl ?_ ?_ ?_ rfl | exact Nat.le_refl _ | exact Nat.zero_le _

theorem postChange_kept {s₀ s : State} (ne i : Nat) (hK : Kept s₀ s) : Kept s₀ (postChange s ne i) := by
  unfold postChange
  repeat' first
    | with_reducible first
      | assumption | apply kept_ite
    | dsimp only | split | fail_if_no_progress with_reducible refine kept_mk ?_ rfl ?_ ?_ ?_ rfl | exact Nat.le_refl _ | exact Nat.zero_le _

theorem keepBefore_kept {s₀ s : State} (i : Nat) (old : PtRec) (hK : Kept s₀ s) : Kept s₀ (keepBefore s i old) := by
  unfold keepBefore
  repeat' first
    | with_reducible first
      | assumption | intro _
    | dsimp only | split | fail_if_no_progress with_reducible refine kept_mk ?_ rfl ?_ ?_ ?_ rfl | exact Nat.le_refl _ | exact Nat.zero_le _

theorem commitPt_kept {s₀ s : State} (i : Nat) (old new : PtRec) (hK : Kept s₀ s) : Kept s₀ (commitPt s i old new) := by
  unfold commitPt
  repeat' first
    | with_reducible first
      | assumption | apply setPt_kept | apply postChange_kept | apply keepBefore_kept | apply kept_ite
    | dsimp only | split

theorem setUndeliv_kept {s₀ s : State} (i : Nat) (b : Bool) (hK : Kept s₀ s) : Kept s₀ (setUndeliv s i b) := by
  unfold setUndeliv
  repeat' first
    | with_reducible first
      | assumption | apply commitPt_kept | apply kept_ite
    | dsimp only | split | fail_if_no_progress with_reducible refine kept_mk ?_ rfl ?_ ?_ ?_ rfl | exact Nat.le_refl _ | exact Nat.zero_le _

end Sys2Proof.Machine
end

