-- ==== Sys2Proof/Laws/KeptFieldCore.lean ====
section
/-! SUPPORT. Laws/KeptFieldCore.lean: what the operations of Machine/FieldCore.lean keep. -/

namespace Sys2Proof.Machine

set_option linter.unusedTactic false
set_option linter.unreachableTactic false

theorem mapCan_kept {s₀ s : State} (n : Nat) (f : CanState → CanState) (hK : Kept s₀ s) : Kept s₀ (mapCan s n f) := by
  unfold mapCan
  repeat' first
    | with_reducible first
      | assumption
    | dsimp only | fail_if_no_progress with_reducible refine kept_mk ?_ rfl ?_ ?_ ?_ rfl | exact Nat.le_refl _ | exact Nat.zero_le _

theorem mapUart_kept {s₀ s : State} (u : Nat) (f : UartState → UartState) (hK : Kept s₀ s) : Kept s₀ (mapUart s u f) := by
  unfold mapUart
  repeat' first
    | with_reducible first
      | assumption
    | dsimp only | fail_if_no_progress with_reducible refine kept_mk ?_ rfl ?_ ?_ ?_ rfl | exact Nat.le_refl _ | exact Nat.zero_le _

theorem mapMap_kept {s₀ s : State} (number : Nat) (f : MapEntry → MapEntry) (hK : Kept s₀ s) : Kept s₀ (mapMap s number f) := by
  unfold mapMap
  repeat' first
    | with_reducible first
      | assumption | intro _
    | dsimp only | split | fail_if_no_progress with_reducible refine kept_mk ?_ rfl ?_ ?_ ?_ rfl | exact Nat.le_refl _ | exact Nat.zero_le _

theorem frameUndeliv_kept {s₀ s : State} (n key : Nat) (b : Bool) (hK : Kept s₀ s) : Kept s₀ (frameUndeliv s n key b) := by
  unfold frameUndeliv
  repeat' first
    | with_reducible first
      | assumption | intro _ | apply setUndeliv_kept | apply foldl_kept | apply foldl_pair_kept
    | dsimp only | split

theorem canCount_kept {s₀ s : State} (n i k : Nat) (hK : Kept s₀ s) : Kept s₀ (canCount s n i k) := by
  unfold canCount
  repeat' first
    | with_reducible first
      | assumption | apply incF_kept
    | dsimp only

theorem uartCount_kept {s₀ s : State} (u i : Nat) (hK : Kept s₀ s) : Kept s₀ (uartCount s u i) := by
  unfold uartCount
  repeat' first
    | with_reducible first
      | assumption | apply incF_kept
    | dsimp only

theorem endReq_kept {s₀ s : State} (n : Nat) (r : CanReq) (o : CanEnd) (hK : Kept s₀ s) : Kept s₀ (endReq s n r o) := by
  unfold endReq
  repeat' first
    | with_reducible first
      | assumption | intro _ | apply mapCan_kept | apply frameUndeliv_kept | apply canCount_kept
    | dsimp only | split | fail_if_no_progress with_reducible refine kept_mk ?_ rfl ?_ ?_ ?_ rfl | exact Nat.le_refl _ | exact Nat.zero_le _

theorem endAll_kept {s₀ s : State} (n : Nat) (o : CanEnd) (hK : Kept s₀ s) : Kept s₀ (endAll s n o) := by
  unfold endAll
  repeat' first
    | with_reducible first
      | assumption | intro _ | apply endReq_kept | apply foldl_kept | apply foldl_pair_kept
    | dsimp only | split

theorem flushReqs_kept {s₀ s : State} (n : Nat) (hK : Kept s₀ s) : Kept s₀ (flushReqs s n) := by
  unfold flushReqs
  repeat' first
    | with_reducible first
      | assumption | intro _ | apply mapCan_kept | apply endReq_kept | apply foldl_kept | apply foldl_pair_kept
    | dsimp only | split | fail_if_no_progress with_reducible refine kept_mk ?_ rfl ?_ ?_ ?_ rfl | exact Nat.le_refl _ | exact Nat.zero_le _

theorem flushUart_kept {s₀ s : State} (u : Nat) (hK : Kept s₀ s) : Kept s₀ (flushUart s u) := by
  unfold flushUart
  repeat' first
    | with_reducible first
      | assumption | intro _ | apply setFs_kept | apply setUndeliv_kept | apply mapUart_kept | apply foldl_kept | apply foldl_pair_kept
    | dsimp only | split | fail_if_no_progress with_reducible refine kept_mk ?_ rfl ?_ ?_ ?_ rfl | exact Nat.le_refl _ | exact Nat.zero_le _

theorem resetCan_kept {s₀ s : State} (n : Nat) (off : Bool) (hK : Kept s₀ s) : Kept s₀ (resetCan s n off) := by
  unfold resetCan
  repeat' first
    | with_reducible first
      | assumption | intro _ | apply mapCan_kept | apply endAll_kept
    | dsimp only | split | fail_if_no_progress with_reducible refine kept_mk ?_ rfl ?_ ?_ ?_ rfl | exact Nat.le_refl _ | exact Nat.zero_le _

theorem resetUart_kept {s₀ s : State} (u : Nat) (off : Bool) (hK : Kept s₀ s) : Kept s₀ (resetUart s u off) := by
  unfold resetUart
  repeat' first
    | with_reducible first
      | assumption | intro _ | apply mapUart_kept | apply flushUart_kept
    | dsimp only | split | fail_if_no_progress with_reducible refine kept_mk ?_ rfl ?_ ?_ ?_ rfl | exact Nat.le_refl _ | exact Nat.zero_le _

theorem resetFe_kept {s₀ s : State} (hK : Kept s₀ s) : Kept s₀ (resetFe s) := by
  unfold resetFe
  repeat' first
    | with_reducible first
      | assumption | intro _ | apply resetCan_kept | apply resetUart_kept | apply foldl_kept | apply foldl_pair_kept
    | dsimp only | split

end Sys2Proof.Machine
end

