-- ==== Sys2Proof/Laws/KeptReset.lean ====
section
/-! SUPPORT. Laws/KeptReset.lean: what the operations of Machine/Reset.lean keep. -/

namespace Sys2Proof.Machine

set_option linter.unusedTactic false
set_option linter.unreachableTactic false

theorem recharge_kept {s₀ s : State} (hK : Kept s₀ s) : Kept s₀ (recharge s) := by
  unfold recharge
  repeat' first
    | with_reducible first
      | assumption | apply setFs_kept
    | dsimp only

theorem taskResetRegs_kept {s₀ s : State} (e sl : Nat) (hK : Kept s₀ s) : Kept s₀ (taskResetRegs s e sl) := by
  unfold taskResetRegs
  repeat' first
    | with_reducible first
      | assumption | apply setFs_kept | apply kept_ite
    | dsimp only | split

theorem resetTasks_kept {s₀ s : State} (es : List Nat) (hK : Kept s₀ s) : Kept s₀ (resetTasks s es) := by
  unfold resetTasks
  repeat' first
    | with_reducible first
      | assumption | intro _ | apply taskResetRegs_kept | apply kept_ite | apply foldl_kept | apply foldl_pair_kept
    | dsimp only | split | fail_if_no_progress with_reducible refine kept_mk ?_ rfl ?_ ?_ ?_ rfl | exact Nat.le_refl _ | exact Nat.zero_le _

theorem resetLoops_kept {s₀ s : State} (p : Nat → Bool) (hK : Kept s₀ s) : Kept s₀ (resetLoops s p) := by
  unfold resetLoops
  repeat' first
    | with_reducible first
      | assumption | intro _ | apply kept_ite
    | dsimp only | split | fail_if_no_progress with_reducible refine kept_mk ?_ rfl ?_ ?_ ?_ rfl | exact Nat.le_refl _ | exact Nat.zero_le _

theorem clearLatencies_kept {s₀ s : State} (hK : Kept s₀ s) : Kept s₀ (clearLatencies s) := by
  unfold clearLatencies
  repeat' first
    | with_reducible first
      | assumption | intro _
    | dsimp only | split | fail_if_no_progress with_reducible refine kept_mk ?_ rfl ?_ ?_ ?_ rfl | exact Nat.le_refl _ | exact Nat.zero_le _

theorem scarfL3_kept {s₀ s : State} (hK : Kept s₀ s) : Kept s₀ (scarfL3 s) := by
  unfold scarfL3
  repeat' first
    | with_reducible first
      | assumption | intro _ | apply sendMsg_kept | apply kept_ite | apply foldl_kept | apply foldl_pair_kept
    | dsimp only | split | fail_if_no_progress with_reducible refine kept_mk ?_ rfl ?_ ?_ ?_ rfl | exact Nat.le_refl _ | exact Nat.zero_le _
    | exact List.length_filter_le _ _ | (apply Nat.le_of_eq; simp; done) | (simp; done) | (rw [(by assumption : _ = _ :: _)]; exact Nat.le_refl _)

theorem updPool_kept {s₀ s : State} (hK : Kept s₀ s) : Kept s₀ (updPool s) := by
  unfold updPool
  repeat' first
    | with_reducible first
      | assumption | intro _ | apply setFs_kept | apply kept_ite | apply foldl_kept | apply foldl_pair_kept
    | dsimp only | split

theorem updBb_kept {s₀ s : State} (hK : Kept s₀ s) : Kept s₀ (updBb s) := by
  unfold updBb
  repeat' first
    | with_reducible first
      | assumption | intro _ | apply setF_kept | apply foldl_kept
    | dsimp only

theorem initPools_kept {s₀ s : State} (hK : Kept s₀ s) : Kept s₀ (initPools s) := by
  unfold initPools
  repeat' first
    | with_reducible first
      | assumption | intro _ | apply setFs_kept | apply updPool_kept | apply updBb_kept | apply foldl_kept | apply foldl_pair_kept
    | dsimp only | split | fail_if_no_progress with_reducible refine kept_mk ?_ rfl ?_ ?_ ?_ rfl | exact Nat.le_refl _ | exact Nat.zero_le _

theorem resetL3_kept {s₀ s : State} (hK : Kept s₀ s) : Kept s₀ (resetL3 s) := by
  unfold resetL3
  repeat' first
    | with_reducible first
      | assumption | intro _ | apply initPools_kept | apply resetFe_kept | apply resetTasks_kept | apply resetLoops_kept | apply clearLatencies_kept | apply scarfL3_kept
    | dsimp only | split | fail_if_no_progress with_reducible refine kept_mk ?_ rfl ?_ ?_ ?_ rfl | exact Nat.le_refl _ | exact Nat.zero_le _
    | exact List.length_filter_le _ _ | (apply Nat.le_of_eq; simp; done) | (simp; done) | (rw [(by assumption : _ = _ :: _)]; exact Nat.le_refl _)

theorem resetL2_kept {s₀ s : State} (hK : Kept s₀ s) : Kept s₀ (resetL2 s) := by
  unfold resetL2
  repeat' first
    | with_reducible first
      | assumption | intro _ | apply kept_ite
    | dsimp only | split | fail_if_no_progress with_reducible refine kept_mk ?_ rfl ?_ ?_ ?_ rfl | exact Nat.le_refl _ | exact Nat.zero_le _

theorem resetL1_kept {s₀ s : State} (h : Kept s₀ s) : Kept s₀ (resetL1 s) := by
  refine kept_core h (fun k => k) (fun k => ?_) (fun k => k) rfl (Nat.le_refl _) (Nat.le_refl _)
  unfold clocksWf resetL1 at *
  simp only [Bool.and_eq_true, decide_eq_true_eq] at k ⊢
  exact ⟨⟨⟨by decide, by decide⟩, by decide⟩, k.2⟩

theorem resetL0_kept {s₀ s : State} (h : Kept s₀ s) : Kept s₀ (resetL0 s) := by
  refine kept_core h (fun k => k) (fun k => ?_) (fun k => ?_) rfl (Nat.le_refl _) (Nat.le_refl _)
  · unfold clocksWf resetL0 at *
    simp only [Bool.and_eq_true, decide_eq_true_eq] at k ⊢
    exact ⟨k.1, by decide⟩
  · unfold queuesWf resetL0 at *
    simp only [Bool.and_eq_true, decide_eq_true_eq] at k ⊢
    exact ⟨⟨by decide, by decide⟩, k.2⟩

theorem wipeSecure_kept {s₀ s : State} (hK : Kept s₀ s) : Kept s₀ (wipeSecure s) := by
  unfold wipeSecure
  repeat' first
    | with_reducible first
      | assumption | apply setF_kept | apply startTime_kept | apply kept_ite
    | dsimp only | split | fail_if_no_progress with_reducible refine kept_mk ?_ rfl ?_ ?_ ?_ rfl | exact Nat.le_refl _ | exact Nat.zero_le _

theorem macIdle_kept {s₀ s : State} (hK : Kept s₀ s) : Kept s₀ (macIdle s) := by
  unfold macIdle
  repeat' first
    | with_reducible first
      | assumption | intro _ | apply setB_kept | apply foldl_kept | apply foldl_pair_kept
    | dsimp only | split

theorem showVmain_kept {s₀ s : State} (hK : Kept s₀ s) : Kept s₀ (showVmain s) := by
  unfold showVmain
  repeat' first
    | with_reducible first
      | assumption | intro _ | apply setFs_kept
    | dsimp only | split

theorem applyLevel_kept {s₀ s : State} (l : Nat) (hK : Kept s₀ s) : Kept s₀ (applyLevel s l) := by
  unfold applyLevel
  repeat' first
    | with_reducible first
      | assumption | intro _ | apply incF_kept | apply resetRegs_kept | apply setF_kept | apply recharge_kept | apply resetL3_kept
      | apply resetL2_kept | apply resetL1_kept | apply resetL0_kept | apply wipeSecure_kept | apply macIdle_kept | apply showVmain_kept
      | apply kept_ite
    | dsimp only | split

theorem recordSource_kept {s₀ s : State} (i : Nat) (hK : Kept s₀ s) : Kept s₀ (recordSource s i) := by
  unfold recordSource
  repeat' first
    | with_reducible first
      | assumption | apply latchF_kept | apply kept_ite
    | dsimp only | split

theorem startReleases_kept {s₀ s : State} (m : Nat) (hK : Kept s₀ s) : Kept s₀ (startReleases s m) := by
  unfold startReleases
  repeat' first
    | with_reducible first
      | assumption | intro _ | apply startTime_kept | apply kept_ite | apply foldl_kept | apply foldl_pair_kept
    | dsimp only | split

theorem holdDomains_kept {s₀ s : State} (l : Nat) (hK : Kept s₀ s) : Kept s₀ (holdDomains s l) := by
  unfold holdDomains
  repeat' first
    | with_reducible first
      | assumption | apply setF_kept | apply startReleases_kept
    | dsimp only | fail_if_no_progress with_reducible refine kept_mk ?_ rfl ?_ ?_ ?_ rfl | exact Nat.le_refl _ | exact Nat.zero_le _

theorem warmMemories_kept {s₀ s : State} (hK : Kept s₀ s) : Kept s₀ (warmMemories s) := by
  unfold warmMemories
  repeat' first
    | with_reducible first
      | assumption | apply setF_kept | apply setFs_kept | apply kept_ite
    | dsimp only | split

theorem beginReset_kept {s₀ s : State} (l : Nat) (held : Bool) (hK : Kept s₀ s) : Kept s₀ (beginReset s l held) := by
  unfold beginReset
  repeat' first
    | with_reducible first
      | assumption | apply startTime_kept | apply applyLevel_kept | apply holdDomains_kept | apply warmMemories_kept | apply kept_ite
    | dsimp only | split | fail_if_no_progress with_reducible refine kept_mk ?_ rfl ?_ ?_ ?_ rfl | exact Nat.le_refl _ | exact Nat.zero_le _

theorem assertReset_kept {s₀ s : State} (i : Nat) (held : Bool) (hK : Kept s₀ s) : Kept s₀ (assertReset s i held) := by
  unfold assertReset
  repeat' first
    | with_reducible first
      | assumption | intro _ | apply incF_kept | apply incSatF_kept | apply resetRegs_kept | apply setF_kept | apply startTime_kept
      | apply recordSource_kept | apply beginReset_kept | apply kept_ite
    | dsimp only | split | fail_if_no_progress with_reducible refine kept_mk ?_ rfl ?_ ?_ ?_ rfl | exact Nat.le_refl _ | exact Nat.zero_le _

end Sys2Proof.Machine
end

