-- ==== Sys2Proof/Laws/KeptFaults.lean ====
section
/-! SUPPORT. Laws/KeptFaults.lean: what the operations of Machine/Faults.lean keep. -/

namespace Sys2Proof.Machine

set_option linter.unusedTactic false
set_option linter.unreachableTactic false

theorem captureFirst_kept {s₀ s : State} (e : FltEntry) (hK : Kept s₀ s) : Kept s₀ (captureFirst s e) := by
  unfold captureFirst
  repeat' first
    | with_reducible first
      | assumption | intro _ | apply kept_ite
    | dsimp only | split | fail_if_no_progress with_reducible refine kept_mk ?_ rfl ?_ ?_ ?_ rfl | exact Nat.le_refl _ | exact Nat.zero_le _

theorem captureFirst_flt_queues (s : State) (e : FltEntry) :
    (captureFirst s e).flt.queue = s.flt.queue ∧ (captureFirst s e).flt.backlog = s.flt.backlog := by
  unfold captureFirst; split
  · exact ⟨rfl, rfl⟩
  · split <;> exact ⟨rfl, rfl⟩

theorem enqueue_kept {s₀ s : State} (e : FltEntry) (h : Kept s₀ s) (hq : Inv s₀ → s.flt.queue.length < 32) :
    Kept s₀ (enqueue s e) := by
  unfold enqueue
  refine captureFirst_kept _ ⟨fun i => ?_, h.pending, h.mono, h.fused⟩
  have k := h.inv i
  have := hq i
  refine Inv.mk k.regs k.clocks ?_
  have k := k.queues
  unfold queuesWf at k ⊢
  simp only [Bool.and_eq_true, decide_eq_true_eq, List.length_append, List.length_cons, List.length_nil] at k ⊢
  exact ⟨⟨by omega, k.1.2⟩, k.2⟩

theorem drainOne_kept {s₀ s : State} (h : Kept s₀ s) : Kept s₀ (drainOne s) := by
  unfold drainOne
  split
  · exact h
  · split
    · rename_i e t hb hl
      refine enqueue_kept _ (kept_mk h rfl (Nat.le_refl _) ?_ (Nat.le_refl _) rfl) (fun _ => by exact hl)
      rw [hb]; simp
    · exact h

theorem drainAll_kept {s₀ : State} (n : Nat) {s : State} (h : Kept s₀ s) : Kept s₀ (drainAll n s) := by
  induction n generalizing s with
  | zero => exact h
  | succ n ih => exact ih (drainOne_kept h)

theorem loseEntry_kept {s₀ s : State} (e : FltEntry) (hK : Kept s₀ s) : Kept s₀ (loseEntry s e) := by
  unfold loseEntry
  repeat' first
    | with_reducible first
      | assumption | apply setFs_kept | apply assertReset_kept | apply kept_ite
    | dsimp only | split

theorem oldestOf_lt {q : List FltEntry} {v : Severity} {i : Nat} (h : oldestOf q v = some i) : i < q.length := by
  unfold oldestOf at h
  exact (List.findIdx?_eq_some_iff_getElem.1 h).1

theorem arrive_kept {s₀ s : State} (e : FltEntry) (h : Kept s₀ s) : Kept s₀ (arrive s e).1 := by
  unfold arrive
  split
  · exact enqueue_kept _ h (fun _ => ‹_›)
  · dsimp only
    split
    · rename_i i hv
      have hi : i < s.flt.queue.length := by
        revert hv
        cases e.sev <;> dsimp only <;> intro hv
        · exact oldestOf_lt hv
        all_goals
          rcases Option.or_eq_some_iff.1 hv with hv | hv
          · exact oldestOf_lt hv
          · exact oldestOf_lt hv.2
      have hl : (s.flt.queue.eraseIdx i).length = s.flt.queue.length - 1 := List.length_eraseIdx_of_lt hi
      have hk : Kept s₀ { s with flt := { s.flt with queue := s.flt.queue.eraseIdx i } } :=
        kept_core h (fun k => k) (fun k => k) (fun k => by
          unfold queuesWf at k ⊢
          simp only [Bool.and_eq_true, decide_eq_true_eq] at k ⊢
          exact ⟨⟨by omega, k.1.2⟩, k.2⟩) rfl (Nat.le_refl _) (Nat.le_refl _)
      refine enqueue_kept _ (incSatF_kept hk _ _) (fun k => ?_)
      show (s.flt.queue.eraseIdx i).length < 32
      have k := (h.inv k).queues
      unfold queuesWf at k
      simp only [Bool.and_eq_true, decide_eq_true_eq] at k
      omega
    · split
      · exact incSatF_kept h _ _
      · exact incSatF_kept h _ _
      · split
        · refine kept_core h (fun k => k) (fun k => k) (fun k => ?_) rfl (Nat.le_refl _) (Nat.le_refl _)
          rename_i hb
          unfold queuesWf at k ⊢
          simp only [Bool.and_eq_true, decide_eq_true_eq, List.length_append, List.length_cons, List.length_nil, backlogDepth] at k hb ⊢
          exact ⟨⟨k.1.1, by omega⟩, k.2⟩
        · exact h
      · exact h

theorem arrive_eq_kept {s₀ : State} {s t : State} {e : FltEntry} {a : Arrival} (he : arrive s e = (t, a)) (h : Kept s₀ s) : Kept s₀ t := by
  have := arrive_kept e h; rw [he] at this; exact this

theorem react_kept {s₀ s : State} (e : FltEntry) (first : Bool) (hK : Kept s₀ s) : Kept s₀ (react s e first) := by
  unfold react
  repeat' first
    | with_reducible first
      | assumption | apply latchF_kept | apply assertReset_kept | apply kept_ite
    | dsimp only | split

theorem repeatQueued_kept {s₀ s : State} (i : Nat) (old : FltEntry) (sev : Severity) (hK : Kept s₀ s) : Kept s₀ (repeatQueued s i old sev)
    := by
  unfold repeatQueued
  repeat' first
    | with_reducible first
      | assumption | apply captureFirst_kept | apply react_kept | apply kept_ite
    | dsimp only | split | fail_if_no_progress with_reducible refine kept_mk ?_ rfl ?_ ?_ ?_ rfl | exact Nat.le_refl _ | exact Nat.zero_le _
    | exact List.length_filter_le _ _ | (apply Nat.le_of_eq; simp; done) | (simp; done) | (rw [(by assumption : _ = _ :: _)]; exact Nat.le_refl _)

theorem raiseFault_kept {s₀ s : State} (d : Detector) (n : Nat) (sev : Severity) (detail : Nat) (injected : Bool) (hK : Kept s₀ s) : Kept s₀
    (raiseFault s d n sev detail injected) := by
  unfold raiseFault
  repeat' first
    | with_reducible first
      | assumption | intro _ | apply incF_kept | apply drainAll_kept | apply loseEntry_kept | apply arrive_kept
      | refine arrive_eq_kept (by assumption) ?_ | apply react_kept | apply repeatQueued_kept | apply kept_ite
    | dsimp only | split | fail_if_no_progress with_reducible refine kept_mk ?_ rfl ?_ ?_ ?_ rfl | exact Nat.le_refl _ | exact Nat.zero_le _
    | exact List.length_filter_le _ _ | (apply Nat.le_of_eq; simp; done) | (simp; done) | (rw [(by assumption : _ = _ :: _)]; exact Nat.le_refl _)

theorem raiseSev_kept {s₀ s : State} (d : Detector) (n : Nat) (sev : Severity) (hK : Kept s₀ s) : Kept s₀ (raiseSev s d n sev) := by
  unfold raiseSev
  repeat' first
    | with_reducible first
      | assumption | apply freshFree_kept | refine freshFree_eq_kept (by assumption) ?_ | apply raiseFault_kept
    | dsimp only | split

theorem raise_kept {s₀ s : State} (d : Detector) (n : Nat) (hK : Kept s₀ s) : Kept s₀ (raise s d n) := by
  unfold raise
  repeat' first
    | with_reducible first
      | assumption | apply raiseSev_kept
    | dsimp only

theorem storageLost_kept {s₀ s : State} (k : Nat) (hK : Kept s₀ s) : Kept s₀ (storageLost s k) := by
  unfold storageLost
  repeat' first
    | with_reducible first
      | assumption | intro _ | apply freshFree_kept | refine freshFree_eq_kept (by assumption) ?_ | apply incF_kept | apply captureFirst_kept
      | apply react_kept | apply kept_ite
    | dsimp only | split | fail_if_no_progress with_reducible refine kept_mk ?_ rfl ?_ ?_ ?_ rfl | exact Nat.le_refl _ | exact Nat.zero_le _
    | exact List.length_filter_le _ _ | (apply Nat.le_of_eq; simp; done) | (simp; done) | (rw [(by assumption : _ = _ :: _)]; exact Nat.le_refl _)

theorem execFaultRaise_answers (s : State) (d : Detector) (n : Fin 4096) (sev : Severity) (detail : Word) : Answers s (execFaultRaise d n sev detail
    s) := by
  have hK := Kept.refl s
  unfold execFaultRaise
  repeat' first
    | with_reducible first
      | assumption | apply raiseFault_kept | apply Answers.next
    | dsimp only

theorem execBacklogDrain_answers (s : State) : Answers s (execBacklogDrain s) := by
  have hK := Kept.refl s
  unfold execBacklogDrain
  repeat' first
    | with_reducible first
      | assumption | apply drainOne_kept | apply Answers.next
    | dsimp only

theorem logEntry_kept {s₀ s : State} (e : FltEntry) (hK : Kept s₀ s) : Kept s₀ (logEntry s e) := by
  unfold logEntry
  repeat' first
    | with_reducible first
      | assumption | apply logEvent_kept
    | dsimp only

theorem removeSeq_kept {s₀ s : State} (seq : Nat) (hK : Kept s₀ s) : Kept s₀ (removeSeq s seq) := by
  unfold removeSeq
  repeat' first
    | with_reducible first
      | assumption | intro _
    | dsimp only | split | fail_if_no_progress with_reducible refine kept_mk ?_ rfl ?_ ?_ ?_ rfl | exact Nat.le_refl _ | exact Nat.zero_le _
    | exact List.length_filter_le _ _ | (apply Nat.le_of_eq; simp; done) | (simp; done) | (rw [(by assumption : _ = _ :: _)]; exact Nat.le_refl _)

theorem logFirst_kept {s₀ s : State} (e : FltEntry) (hK : Kept s₀ s) : Kept s₀ (logFirst s e) := by
  unfold logFirst
  repeat' first
    | with_reducible first
      | assumption | intro _ | apply logEntry_kept | apply kept_ite
    | dsimp only | split | fail_if_no_progress with_reducible refine kept_mk ?_ rfl ?_ ?_ ?_ rfl | exact Nat.le_refl _ | exact Nat.zero_le _

theorem ackEntry_kept {s₀ s : State} (seq : Nat) (hK : Kept s₀ s) : Kept s₀ (ackEntry s seq).1 := by
  unfold ackEntry
  repeat' first
    | with_reducible first
      | assumption | intro _ | apply logFirst_kept | apply logEntry_kept | apply removeSeq_kept | apply kept_ite
    | dsimp only | split

theorem ackEntry_eq_kept {s₀ s : State} {seq : Nat} {u₁ : State} {out : Nat} (he : ackEntry s seq = (u₁, out)) (hK : Kept s₀ s) : Kept s₀ u₁
    := by
  have := ackEntry_kept (s₀ := s₀) (hK := hK) (s := s) (seq := seq); rw [he] at this; exact this

theorem ackCmd_kept {s₀ s : State} (seq : Nat) (hK : Kept s₀ s) : Kept s₀ (ackCmd s seq) := by
  unfold ackCmd
  repeat' first
    | with_reducible first
      | assumption | apply setFs_kept | apply ackEntry_kept | refine ackEntry_eq_kept (by assumption) ?_
    | dsimp only | split

theorem execFaultAck_answers (s : State) (seq : Fin 4096) : Answers s (execFaultAck seq s) := by
  have hK := Kept.refl s
  unfold execFaultAck
  repeat' first
    | with_reducible first
      | assumption | apply ackCmd_kept | apply Answers.next
    | dsimp only

theorem execFaultAutoAck_answers (s : State) : Answers s (execFaultAutoAck s) := by
  have hK := Kept.refl s
  unfold execFaultAutoAck
  repeat' first
    | with_reducible first
      | assumption | intro _ | apply logFirst_kept | apply ackEntry_kept | refine ackEntry_eq_kept (by assumption) ?_ | apply kept_ite
      | apply Answers.next | apply answers_ite
    | dsimp only | split | fail_if_no_progress with_reducible refine kept_mk ?_ rfl ?_ ?_ ?_ rfl | exact Nat.le_refl _ | exact Nat.zero_le _

theorem fltCmd_kept {s₀ s : State} (op : Nat) (accepted : Bool) (hK : Kept s₀ s) : Kept s₀ (fltCmd s op accepted) := by
  unfold fltCmd
  repeat' first
    | with_reducible first
      | assumption | apply setFs_kept | apply kept_ite
    | dsimp only | split

theorem fltClearFirst_kept {s₀ s : State} (hK : Kept s₀ s) : Kept s₀ (fltClearFirst s) := by
  unfold fltClearFirst
  repeat' first
    | with_reducible first
      | assumption | apply fltCmd_kept
    | dsimp only | fail_if_no_progress with_reducible refine kept_mk ?_ rfl ?_ ?_ ?_ rfl | exact Nat.le_refl _ | exact Nat.zero_le _

theorem fltClearLost_kept {s₀ s : State} (hK : Kept s₀ s) : Kept s₀ (fltClearLost s) := by
  unfold fltClearLost
  repeat' first
    | with_reducible first
      | assumption | apply setFs_kept | apply fltCmd_kept
    | dsimp only

theorem fltClearTotals_kept {s₀ s : State} (hK : Kept s₀ s) : Kept s₀ (fltClearTotals s) := by
  unfold fltClearTotals
  repeat' first
    | with_reducible first
      | assumption | apply setFs_kept | apply fltCmd_kept
    | dsimp only

theorem execFltClearFirst_answers (s : State) : Answers s (execFltClearFirst s) := by
  have hK := Kept.refl s
  unfold execFltClearFirst
  repeat' first
    | with_reducible first
      | assumption | apply fltClearFirst_kept | apply Answers.next
    | dsimp only

theorem execFltClearLost_answers (s : State) : Answers s (execFltClearLost s) := by
  have hK := Kept.refl s
  unfold execFltClearLost
  repeat' first
    | with_reducible first
      | assumption | apply fltClearLost_kept | apply Answers.next
    | dsimp only

theorem execFltClearTotals_answers (s : State) : Answers s (execFltClearTotals s) := by
  have hK := Kept.refl s
  unfold execFltClearTotals
  repeat' first
    | with_reducible first
      | assumption | apply fltClearTotals_kept | apply Answers.next
    | dsimp only

theorem useForce_kept {s₀ s : State} (hK : Kept s₀ s) : Kept s₀ (useForce s) := by
  unfold useForce
  repeat' first
    | with_reducible first
      | assumption | intro _
    | dsimp only | split | fail_if_no_progress with_reducible refine kept_mk ?_ rfl ?_ ?_ ?_ rfl | exact Nat.le_refl _ | exact Nat.zero_le _

theorem injEnd_kept {s₀ s : State} (hK : Kept s₀ s) : Kept s₀ (injEnd s) := by
  unfold injEnd
  repeat' first
    | with_reducible first
      | assumption
    | dsimp only | fail_if_no_progress with_reducible refine kept_mk ?_ rfl ?_ ?_ ?_ rfl | exact Nat.le_refl _ | exact Nat.zero_le _

theorem injStop_kept {s₀ s : State} (hK : Kept s₀ s) : Kept s₀ (injStop s) := by
  unfold injStop
  repeat' first
    | with_reducible first
      | assumption | apply setFs_kept | apply injEnd_kept
    | dsimp only

theorem execInjStop_answers (s : State) : Answers s (execInjStop s) := by
  have hK := Kept.refl s
  unfold execInjStop
  repeat' first
    | with_reducible first
      | assumption | apply injStop_kept | apply Answers.next
    | dsimp only

theorem execInjForceEnd_answers (s : State) : Answers s (execInjForceEnd s) := by
  have hK := Kept.refl s
  unfold execInjForceEnd
  repeat' first
    | with_reducible first
      | assumption | apply injEnd_kept | apply kept_ite | apply Answers.next | apply answers_ite
    | dsimp only | split

theorem takeOffset_kept {s₀ s : State} (d : Detector) (n : Nat) (hK : Kept s₀ s) : Kept s₀ (takeOffset s d n).2 := by
  unfold takeOffset
  repeat' first
    | with_reducible first
      | assumption | apply useForce_kept | apply kept_ite
    | dsimp only | split

theorem takeOffset_eq_kept {s₀ s : State} {d : Detector} {n : Nat} {u₁ : State} {out : Nat} (he : takeOffset s d n = (out, u₁)) (hK : Kept
    s₀ s) : Kept s₀ u₁ := by
  have := takeOffset_kept (s₀ := s₀) (hK := hK) (s := s) (d := d) (n := n); rw [he] at this; exact this

end Sys2Proof.Machine
end

