-- ==== Sys2Proof/Laws/KeptPoints.lean ====
section
/-! SUPPORT. Laws/KeptPoints.lean: what the operations of Machine/Points.lean keep. -/

namespace Sys2Proof.Machine

set_option linter.unusedTactic false
set_option linter.unreachableTactic false

theorem deny_kept {s₀ s : State} (port i reason : Nat) (hK : Kept s₀ s) : Kept s₀ (deny s port i reason) := by
  unfold deny
  repeat' first
    | with_reducible first
      | assumption | apply incSatF_kept | apply setFs_kept | apply raise_kept
    | dsimp only

theorem noteForce_kept {s₀ s : State} (w : PtWrite) (hK : Kept s₀ s) : Kept s₀ (noteForce s w) := by
  unfold noteForce
  repeat' first
    | with_reducible first
      | assumption | intro _ | apply kept_ite
    | dsimp only | split | fail_if_no_progress with_reducible refine kept_mk ?_ rfl ?_ ?_ ?_ rfl | exact Nat.le_refl _ | exact Nat.zero_le _

theorem answer_kept {s₀ s : State} (w : PtWrite) (st : PtStatus) (hK : Kept s₀ s) : Kept s₀ (answer s w st) := by
  unfold answer
  repeat' first
    | with_reducible first
      | assumption | apply sendMsg_kept
    | dsimp only

theorem lose_kept {s₀ s : State} (w : PtWrite) (hK : Kept s₀ s) : Kept s₀ (lose s w) := by
  unfold lose
  repeat' first
    | with_reducible first
      | assumption | apply incSatF_kept | apply setF_kept | apply answer_kept | apply kept_ite
    | dsimp only | split | fail_if_no_progress with_reducible refine kept_mk ?_ rfl ?_ ?_ ?_ rfl | exact Nat.le_refl _ | exact Nat.zero_le _

theorem performAll_kept {s₀ s : State} (used : List Nat) (ws : List PtWrite) (h : Kept s₀ s) : Kept s₀ (performAll s used ws) := by
  induction ws generalizing s used with
  | nil => exact h
  | cons w t ih =>
    unfold performAll
    dsimp only
    split
    · exact ih _ (answer_kept _ _ h)
    · split
      · exact ih _ (answer_kept _ _ (deny_kept _ _ _ h))
      · split
        · exact ih _ (lose_kept _ h)
        · exact ih _ (answer_kept _ _ (noteForce_kept _ (commitPt_kept _ _ _ h)))

theorem serveBank_kept {s₀ s : State} (bank : Nat) (ws : List PtWrite) (hK : Kept s₀ s) : Kept s₀ (serveBank s bank ws) := by
  unfold serveBank
  repeat' first
    | with_reducible first
      | assumption | intro _ | apply performAll_kept
    | dsimp only | split | fail_if_no_progress with_reducible refine kept_mk ?_ rfl ?_ ?_ ?_ rfl | exact Nat.le_refl _ | exact Nat.zero_le _

theorem serveAll_kept {s₀ s : State} (hK : Kept s₀ s) : Kept s₀ (serveAll s) := by
  unfold serveAll
  repeat' first
    | with_reducible first
      | assumption | intro _ | apply serveBank_kept | apply foldl_kept | apply foldl_pair_kept
    | dsimp only | split

theorem serveCycles_kept {s₀ : State} (n : Nat) {s : State} (h : Kept s₀ s) : Kept s₀ (serveCycles n s) := by
  induction n generalizing s with
  | zero => exact h
  | succ n ih =>
    unfold serveCycles
    exact kept_ite h (ih (serveAll_kept h))

theorem drainBank_kept {s₀ : State} (n : Nat) {s : State} (b : Nat) (h : Kept s₀ s) : Kept s₀ (drainBank n s b) := by
  induction n generalizing s with
  | zero => exact h
  | succ n ih =>
    unfold drainBank
    exact kept_ite h (ih (serveBank_kept _ _ h))

theorem passTime_kept {s₀ s : State} (n : Nat) (h : Kept s₀ s) (hn : s.fc ≤ fcTickMax → s.fc + n ≤ fcTickMax) :
    Kept s₀ (passTime s n) := serveCycles_kept _ (passCycles_kept h n hn)

theorem execPtWrite_answers (s : State) (bank : Fin 16) (ws : List PtWrite) : Answers s (execPtWrite bank ws s) := by
  have hK := Kept.refl s
  unfold execPtWrite
  repeat' first
    | with_reducible first
      | assumption | intro _ | apply serveBank_kept | apply Answers.next
    | dsimp only | split

theorem execPtWriteRepeat_answers (s : State) (port : Fin 16) : Answers s (execPtWriteRepeat port s) := by
  have hK := Kept.refl s
  unfold execPtWriteRepeat
  repeat' first
    | with_reducible first
      | assumption | intro _ | apply serveBank_kept | apply Answers.next
    | dsimp only | split | fail_if_no_progress with_reducible refine kept_mk ?_ rfl ?_ ?_ ?_ rfl | exact Nat.le_refl _ | exact Nat.zero_le _

theorem writerWrite_kept {s₀ s : State} (k : WriterKind) (ident i : Nat) (v : Word) (q : Wq) (hK : Kept s₀ s) : Kept s₀ (writerWrite s k
    ident i v q) := by
  unfold writerWrite
  repeat' first
    | with_reducible first
      | assumption | apply commitPt_kept | apply deny_kept | apply drainBank_kept | apply kept_ite
    | dsimp only | split

theorem writerQuality_kept {s₀ s : State} (k : WriterKind) (ident i : Nat) (q : Wq) (hK : Kept s₀ s) : Kept s₀ (writerQuality s k ident i q)
    := by
  unfold writerQuality
  repeat' first
    | with_reducible first
      | assumption | apply writerWrite_kept
    | dsimp only

theorem ptDue_kept {s₀ s : State} (i : Nat) (hK : Kept s₀ s) : Kept s₀ (ptDue s i) := by
  unfold ptDue
  repeat' first
    | with_reducible first
      | assumption | apply freshFree_kept | refine freshFree_eq_kept (by assumption) ?_ | apply incSatF_kept | apply setFs_kept | apply raiseSev_kept
    | dsimp only | split

theorem execPtRead_answers (s : State) (port : Fin 16) (index : Fin 65536) (ctx : Fin 64) (due : Bool) : Answers s (execPtRead port index ctx due s)
    := by
  have hK := Kept.refl s
  unfold execPtRead
  repeat' first
    | with_reducible first
      | assumption | apply setReply_kept | apply deny_kept | apply ptDue_kept | apply kept_ite | apply Answers.next | apply answers_ite
    | dsimp only | split

theorem sweepOn_kept {s₀ s : State} (i : Nat) (hK : Kept s₀ s) : Kept s₀ (sweepOn s i) := by
  unfold sweepOn
  repeat' first
    | with_reducible first
      | assumption | intro _ | apply setF_kept | apply kept_ite
    | dsimp only | split | fail_if_no_progress with_reducible refine kept_mk ?_ rfl ?_ ?_ ?_ rfl | exact Nat.le_refl _ | exact Nat.zero_le _

theorem execStaleSweep_answers (s : State) (index : Fin 65536) (writing : Bool) : Answers s (execStaleSweep index writing s) := by
  have hK := Kept.refl s
  unfold execStaleSweep
  repeat' first
    | with_reducible first
      | assumption | apply commitPt_kept | apply sweepOn_kept | apply kept_ite | apply Answers.next | apply answers_ite
    | dsimp only | split | fail_if_no_progress with_reducible refine kept_mk ?_ rfl ?_ ?_ ?_ rfl | exact Nat.le_refl _ | exact Nat.zero_le _

theorem forceOp_kept {s₀ s : State} (port15 : Bool) (i : Nat) (v : Word) (tenant : Nat) (hK : Kept s₀ s) : Kept s₀ (forceOp s port15 i v
    tenant).1 := by
  unfold forceOp
  repeat' first
    | with_reducible first
      | assumption | apply incSatF_kept | apply commitPt_kept | apply deny_kept | apply kept_ite
    | dsimp only | split | fail_if_no_progress with_reducible refine kept_mk ?_ rfl ?_ ?_ ?_ rfl | exact Nat.le_refl _ | exact Nat.zero_le _

theorem forceOp_eq_kept {s₀ s : State} {port15 : Bool} {i : Nat} {v : Word} {tenant : Nat} {u₁ : State} {out : ForceResult} (he : forceOp s
    port15 i v tenant = (u₁, out)) (hK : Kept s₀ s) : Kept s₀ u₁ := by
  have := forceOp_kept (s₀ := s₀) (hK := hK) (s := s) (port15 := port15) (i := i) (v := v) (tenant := tenant); rw [he] at this; exact this

theorem releaseOp_kept {s₀ s : State} (port15 : Bool) (i tenant : Nat) (hK : Kept s₀ s) : Kept s₀ (releaseOp s port15 i tenant).1 := by
  unfold releaseOp
  repeat' first
    | with_reducible first
      | assumption | apply commitPt_kept | apply deny_kept | apply kept_ite
    | dsimp only | split | fail_if_no_progress with_reducible refine kept_mk ?_ rfl ?_ ?_ ?_ rfl | exact Nat.le_refl _ | exact Nat.zero_le _

theorem releaseOp_eq_kept {s₀ s : State} {port15 : Bool} {i tenant : Nat} {u₁ : State} {out : ForceResult} (he : releaseOp s port15 i tenant
    = (u₁, out)) (hK : Kept s₀ s) : Kept s₀ u₁ := by
  have := releaseOp_kept (s₀ := s₀) (hK := hK) (s := s) (port15 := port15) (i := i) (tenant := tenant); rw [he] at this; exact this

theorem fcmdFields_kept {s₀ s : State} (i op : Nat) (r : ForceResult) (hK : Kept s₀ s) : Kept s₀ (fcmdFields s i op r) := by
  unfold fcmdFields
  repeat' first
    | with_reducible first
      | assumption | apply setFs_kept
    | dsimp only

theorem forceCmd_kept {s₀ s : State} (port15 : Bool) (i : Nat) (v : Word) (tenant : Nat) (hK : Kept s₀ s) : Kept s₀ (forceCmd s port15 i v
    tenant).1 := by
  unfold forceCmd
  repeat' first
    | with_reducible first
      | assumption | apply setFs_kept | apply setReply_kept | apply forceOp_kept | refine forceOp_eq_kept (by assumption) ?_ | apply fcmdFields_kept
      | apply kept_ite
    | dsimp only | split

theorem forceCmd_eq_kept {s₀ s : State} {port15 : Bool} {i : Nat} {v : Word} {tenant : Nat} {u₁ : State} {out : ForceResult} (he : forceCmd
    s port15 i v tenant = (u₁, out)) (hK : Kept s₀ s) : Kept s₀ u₁ := by
  have := forceCmd_kept (s₀ := s₀) (hK := hK) (s := s) (port15 := port15) (i := i) (v := v) (tenant := tenant); rw [he] at this; exact this

theorem releaseCmd_kept {s₀ s : State} (port15 : Bool) (i tenant : Nat) (hK : Kept s₀ s) : Kept s₀ (releaseCmd s port15 i tenant).1 := by
  unfold releaseCmd
  repeat' first
    | with_reducible first
      | assumption | apply setF_kept | apply setReply_kept | apply releaseOp_kept | refine releaseOp_eq_kept (by assumption) ?_
      | apply fcmdFields_kept | apply kept_ite
    | dsimp only | split

theorem releaseCmd_eq_kept {s₀ s : State} {port15 : Bool} {i tenant : Nat} {u₁ : State} {out : ForceResult} (he : releaseCmd s port15 i
    tenant = (u₁, out)) (hK : Kept s₀ s) : Kept s₀ u₁ := by
  have := releaseCmd_kept (s₀ := s₀) (hK := hK) (s := s) (port15 := port15) (i := i) (tenant := tenant); rw [he] at this; exact this

theorem execForceSet_answers (s : State) (port15 : Bool) (index : Fin 65536) (value : Word) (tenant : Fin 4096) : Answers s (execForceSet port15 index
    value tenant s) := by
  have hK := Kept.refl s
  unfold execForceSet
  repeat' first
    | with_reducible first
      | assumption | apply forceCmd_kept | refine forceCmd_eq_kept (by assumption) ?_ | apply Answers.next
    | dsimp only

theorem execForceRelease_answers (s : State) (port15 : Bool) (index : Fin 65536) (tenant : Fin 4096) : Answers s (execForceRelease port15 index tenant
    s) := by
  have hK := Kept.refl s
  unfold execForceRelease
  repeat' first
    | with_reducible first
      | assumption | apply releaseCmd_kept | refine releaseCmd_eq_kept (by assumption) ?_ | apply Answers.next
    | dsimp only

theorem completeRelease_kept {s₀ s : State} (i : Nat) (hK : Kept s₀ s) : Kept s₀ (completeRelease s i) := by
  unfold completeRelease
  repeat' first
    | with_reducible first
      | assumption | apply commitPt_kept | apply kept_ite
    | dsimp only | split | fail_if_no_progress with_reducible refine kept_mk ?_ rfl ?_ ?_ ?_ rfl | exact Nat.le_refl _ | exact Nat.zero_le _

theorem execForceReleaseComplete_answers (s : State) (index : Fin 65536) : Answers s (execForceReleaseComplete index s) := by
  have hK := Kept.refl s
  unfold execForceReleaseComplete
  repeat' first
    | with_reducible first
      | assumption | apply completeRelease_kept | apply kept_ite | apply Answers.next | apply answers_ite
    | dsimp only | split

theorem releaseTick_kept {s₀ s : State} (hK : Kept s₀ s) : Kept s₀ (releaseTick s) := by
  unfold releaseTick
  repeat' first
    | with_reducible first
      | assumption | intro _ | apply completeRelease_kept | apply foldl_kept | apply foldl_pair_kept
    | dsimp only

theorem scatterWrite_kept {s₀ s : State} (ident i : Nat) (v : Word) (q : Wq) (hK : Kept s₀ s) : Kept s₀ (scatterWrite s ident i v q) := by
  unfold scatterWrite
  repeat' first
    | with_reducible first
      | assumption | apply commitPt_kept | apply deny_kept | apply drainBank_kept | apply kept_ite
    | dsimp only | split | fail_if_no_progress with_reducible refine kept_mk ?_ rfl ?_ ?_ ?_ rfl | exact Nat.le_refl _ | exact Nat.zero_le _

theorem ptLostClear_kept {s₀ s : State} (hK : Kept s₀ s) : Kept s₀ (ptLostClear s) := by
  unfold ptLostClear
  repeat' first
    | with_reducible first
      | assumption | apply setFs_kept
    | dsimp only

theorem ptDenyClear_kept {s₀ s : State} (hK : Kept s₀ s) : Kept s₀ (ptDenyClear s) := by
  unfold ptDenyClear
  repeat' first
    | with_reducible first
      | assumption | apply setFs_kept
    | dsimp only

theorem execPtLostClear_answers (s : State) : Answers s (execPtLostClear s) := by
  have hK := Kept.refl s
  unfold execPtLostClear
  repeat' first
    | with_reducible first
      | assumption | apply ptLostClear_kept | apply Answers.next
    | dsimp only

theorem execPtDenyClear_answers (s : State) : Answers s (execPtDenyClear s) := by
  have hK := Kept.refl s
  unfold execPtDenyClear
  repeat' first
    | with_reducible first
      | assumption | apply ptDenyClear_kept | apply Answers.next
    | dsimp only

end Sys2Proof.Machine
end

