-- ==== Sys2Proof/Laws/KeptKeys.lean ====
section
/-! SUPPORT. Laws/KeptKeys.lean: what the operations of Machine/Keys.lean keep. -/

namespace Sys2Proof.Machine

set_option linter.unusedTactic false
set_option linter.unreachableTactic false

theorem mapSe_kept {s₀ s : State} (f : SeState → SeState) (h : Kept s₀ s) (hf : s.se.fused ≤ (f s.se).fused) : Kept s₀ (mapSe s f) :=
  kept_core h (fun k => k) (fun k => k) (fun k => k) rfl (Nat.le_refl _) hf

theorem setSlot_kept {s₀ s : State} (p : Nat) (x : SlotPair) (hK : Kept s₀ s) : Kept s₀ (setSlot s p x) := by
  unfold setSlot
  repeat' first
    | with_reducible first
      | assumption | intro _ | apply mapSe_kept | apply kept_ite
    | dsimp only | split | fail_if_no_progress with_reducible refine kept_mk ?_ rfl ?_ ?_ ?_ rfl | exact Nat.le_refl _ | exact Nat.zero_le _

theorem clearMortise_kept {s₀ s : State} (hK : Kept s₀ s) : Kept s₀ (clearMortise s) := by
  unfold clearMortise
  repeat' first
    | with_reducible first
      | assumption | intro _ | apply mapSe_kept
    | dsimp only | split | fail_if_no_progress with_reducible refine kept_mk ?_ rfl ?_ ?_ ?_ rfl | exact Nat.le_refl _ | exact Nat.zero_le _

end Sys2Proof.Machine
end

