-- ==== Sys2Proof/Laws/KeptDecend.lean ====
section
/-! SUPPORT. Laws/KeptDecend.lean: what the operations of Machine/Decend.lean keep. -/

namespace Sys2Proof.Machine

set_option linter.unusedTactic false
set_option linter.unreachableTactic false

theorem execOpNop_answers (s : State) (r : Runner) : Answers s (execOpNop r s) := by
  have hK := Kept.refl s
  unfold execOpNop
  repeat' first
    | with_reducible first
      | assumption | apply onRun_kept | apply Answers.next
    | dsimp only

theorem execOpMov_answers (s : State) (r : Runner) (a : Fin 256) (b : Fin 256) : Answers s (execOpMov r a b s) := by
  have hK := Kept.refl s
  unfold execOpMov
  repeat' first
    | with_reducible first
      | assumption | apply onRun_kept | apply Answers.next
    | dsimp only

theorem execOpLdi_answers (s : State) (r : Runner) (a : Fin 256) (imm : Word) : Answers s (execOpLdi r a imm s) := by
  have hK := Kept.refl s
  unfold execOpLdi
  repeat' first
    | with_reducible first
      | assumption | apply onRun_kept | apply Answers.next
    | dsimp only

theorem execOpLdk_answers (s : State) (r : Runner) (a : Fin 256) (h : Fin 65536) : Answers s (execOpLdk r a h s) := by
  have hK := Kept.refl s
  unfold execOpLdk
  repeat' first
    | with_reducible first
      | assumption | apply onRun_kept | apply Answers.next
    | dsimp only

theorem execOpItor_answers (s : State) (r : Runner) (a : Fin 256) (b : Fin 256) : Answers s (execOpItor r a b s) := by
  have hK := Kept.refl s
  unfold execOpItor
  repeat' first
    | with_reducible first
      | assumption | apply onRun_kept | apply Answers.next
    | dsimp only

theorem execOpUtor_answers (s : State) (r : Runner) (a : Fin 256) (b : Fin 256) : Answers s (execOpUtor r a b s) := by
  have hK := Kept.refl s
  unfold execOpUtor
  repeat' first
    | with_reducible first
      | assumption | apply onRun_kept | apply Answers.next
    | dsimp only

theorem execOpRtoi_answers (s : State) (r : Runner) (a : Fin 256) (b : Fin 256) : Answers s (execOpRtoi r a b s) := by
  have hK := Kept.refl s
  unfold execOpRtoi
  repeat' first
    | with_reducible first
      | assumption | apply onRun_kept | apply Answers.next
    | dsimp only

theorem execOpRtou_answers (s : State) (r : Runner) (a : Fin 256) (b : Fin 256) : Answers s (execOpRtou r a b s) := by
  have hK := Kept.refl s
  unfold execOpRtou
  repeat' first
    | with_reducible first
      | assumption | apply onRun_kept | apply Answers.next
    | dsimp only

theorem execOpFtor_answers (s : State) (r : Runner) (a : Fin 256) (b : Fin 256) : Answers s (execOpFtor r a b s) := by
  have hK := Kept.refl s
  unfold execOpFtor
  repeat' first
    | with_reducible first
      | assumption | apply onRun_kept | apply Answers.next
    | dsimp only

theorem execOpRtof_answers (s : State) (r : Runner) (a : Fin 256) (b : Fin 256) : Answers s (execOpRtof r a b s) := by
  have hK := Kept.refl s
  unfold execOpRtof
  repeat' first
    | with_reducible first
      | assumption | apply onRun_kept | apply Answers.next
    | dsimp only

theorem execOpItou_answers (s : State) (r : Runner) (a : Fin 256) (b : Fin 256) : Answers s (execOpItou r a b s) := by
  have hK := Kept.refl s
  unfold execOpItou
  repeat' first
    | with_reducible first
      | assumption | apply onRun_kept | apply Answers.next
    | dsimp only

theorem execOpUtoi_answers (s : State) (r : Runner) (a : Fin 256) (b : Fin 256) : Answers s (execOpUtoi r a b s) := by
  have hK := Kept.refl s
  unfold execOpUtoi
  repeat' first
    | with_reducible first
      | assumption | apply onRun_kept | apply Answers.next
    | dsimp only

theorem execOpBtoi_answers (s : State) (r : Runner) (a : Fin 256) (b : Fin 256) : Answers s (execOpBtoi r a b s) := by
  have hK := Kept.refl s
  unfold execOpBtoi
  repeat' first
    | with_reducible first
      | assumption | apply onRun_kept | apply Answers.next
    | dsimp only

theorem execOpItob_answers (s : State) (r : Runner) (a : Fin 256) (b : Fin 256) : Answers s (execOpItob r a b s) := by
  have hK := Kept.refl s
  unfold execOpItob
  repeat' first
    | with_reducible first
      | assumption | apply onRun_kept | apply Answers.next
    | dsimp only

theorem execOpTrel_answers (s : State) (r : Runner) (a : Fin 256) : Answers s (execOpTrel r a s) := by
  have hK := Kept.refl s
  unfold execOpTrel
  repeat' first
    | with_reducible first
      | assumption | apply onRun_kept | apply Answers.next
    | dsimp only

theorem execOpFlags_answers (s : State) (r : Runner) (a : Fin 256) : Answers s (execOpFlags r a s) := by
  have hK := Kept.refl s
  unfold execOpFlags
  repeat' first
    | with_reducible first
      | assumption | apply onRun_kept | apply Answers.next
    | dsimp only

theorem execOpAdd_answers (s : State) (r : Runner) (a : Fin 256) (b : Fin 256) (c : Fin 256) : Answers s (execOpAdd r a b c s) := by
  have hK := Kept.refl s
  unfold execOpAdd
  repeat' first
    | with_reducible first
      | assumption | apply onRun_kept | apply Answers.next
    | dsimp only

theorem execOpSub_answers (s : State) (r : Runner) (a : Fin 256) (b : Fin 256) (c : Fin 256) : Answers s (execOpSub r a b c s) := by
  have hK := Kept.refl s
  unfold execOpSub
  repeat' first
    | with_reducible first
      | assumption | apply onRun_kept | apply Answers.next
    | dsimp only

theorem execOpMul_answers (s : State) (r : Runner) (a : Fin 256) (b : Fin 256) (c : Fin 256) : Answers s (execOpMul r a b c s) := by
  have hK := Kept.refl s
  unfold execOpMul
  repeat' first
    | with_reducible first
      | assumption | apply onRun_kept | apply Answers.next
    | dsimp only

theorem execOpDiv_answers (s : State) (r : Runner) (a : Fin 256) (b : Fin 256) (c : Fin 256) : Answers s (execOpDiv r a b c s) := by
  have hK := Kept.refl s
  unfold execOpDiv
  repeat' first
    | with_reducible first
      | assumption | apply onRun_kept | apply Answers.next
    | dsimp only

theorem execOpMod_answers (s : State) (r : Runner) (a : Fin 256) (b : Fin 256) (c : Fin 256) : Answers s (execOpMod r a b c s) := by
  have hK := Kept.refl s
  unfold execOpMod
  repeat' first
    | with_reducible first
      | assumption | apply onRun_kept | apply Answers.next
    | dsimp only

theorem execOpNeg_answers (s : State) (r : Runner) (a : Fin 256) (b : Fin 256) : Answers s (execOpNeg r a b s) := by
  have hK := Kept.refl s
  unfold execOpNeg
  repeat' first
    | with_reducible first
      | assumption | apply onRun_kept | apply Answers.next
    | dsimp only

theorem execOpAbs_answers (s : State) (r : Runner) (a : Fin 256) (b : Fin 256) : Answers s (execOpAbs r a b s) := by
  have hK := Kept.refl s
  unfold execOpAbs
  repeat' first
    | with_reducible first
      | assumption | apply onRun_kept | apply Answers.next
    | dsimp only

theorem execOpMin_answers (s : State) (r : Runner) (a : Fin 256) (b : Fin 256) (c : Fin 256) : Answers s (execOpMin r a b c s) := by
  have hK := Kept.refl s
  unfold execOpMin
  repeat' first
    | with_reducible first
      | assumption | apply onRun_kept | apply Answers.next
    | dsimp only

theorem execOpMax_answers (s : State) (r : Runner) (a : Fin 256) (b : Fin 256) (c : Fin 256) : Answers s (execOpMax r a b c s) := by
  have hK := Kept.refl s
  unfold execOpMax
  repeat' first
    | with_reducible first
      | assumption | apply onRun_kept | apply Answers.next
    | dsimp only

theorem execOpLim_answers (s : State) (r : Runner) (a : Fin 256) (b : Fin 256) (c : Fin 256) : Answers s (execOpLim r a b c s) := by
  have hK := Kept.refl s
  unfold execOpLim
  repeat' first
    | with_reducible first
      | assumption | apply onRun_kept | apply Answers.next
    | dsimp only

theorem execOpAddw_answers (s : State) (r : Runner) (a : Fin 256) (b : Fin 256) (c : Fin 256) : Answers s (execOpAddw r a b c s) := by
  have hK := Kept.refl s
  unfold execOpAddw
  repeat' first
    | with_reducible first
      | assumption | apply onRun_kept | apply Answers.next
    | dsimp only

theorem execOpSubw_answers (s : State) (r : Runner) (a : Fin 256) (b : Fin 256) (c : Fin 256) : Answers s (execOpSubw r a b c s) := by
  have hK := Kept.refl s
  unfold execOpSubw
  repeat' first
    | with_reducible first
      | assumption | apply onRun_kept | apply Answers.next
    | dsimp only

theorem execOpAnd_answers (s : State) (r : Runner) (a : Fin 256) (b : Fin 256) (c : Fin 256) : Answers s (execOpAnd r a b c s) := by
  have hK := Kept.refl s
  unfold execOpAnd
  repeat' first
    | with_reducible first
      | assumption | intro _ | apply onRun_kept | apply Answers.next
    | dsimp only | split

theorem execOpOr_answers (s : State) (r : Runner) (a : Fin 256) (b : Fin 256) (c : Fin 256) : Answers s (execOpOr r a b c s) := by
  have hK := Kept.refl s
  unfold execOpOr
  repeat' first
    | with_reducible first
      | assumption | intro _ | apply onRun_kept | apply Answers.next
    | dsimp only | split

theorem execOpXor_answers (s : State) (r : Runner) (a : Fin 256) (b : Fin 256) (c : Fin 256) : Answers s (execOpXor r a b c s) := by
  have hK := Kept.refl s
  unfold execOpXor
  repeat' first
    | with_reducible first
      | assumption | intro _ | apply onRun_kept | apply Answers.next
    | dsimp only | split

theorem execOpNot_answers (s : State) (r : Runner) (a : Fin 256) (b : Fin 256) : Answers s (execOpNot r a b s) := by
  have hK := Kept.refl s
  unfold execOpNot
  repeat' first
    | with_reducible first
      | assumption | apply onRun_kept | apply Answers.next
    | dsimp only

theorem execOpShl_answers (s : State) (r : Runner) (a : Fin 256) (b : Fin 256) (c : Fin 32) : Answers s (execOpShl r a b c s) := by
  have hK := Kept.refl s
  unfold execOpShl
  repeat' first
    | with_reducible first
      | assumption | intro _ | apply onRun_kept | apply Answers.next
    | dsimp only | split

theorem execOpShr_answers (s : State) (r : Runner) (a : Fin 256) (b : Fin 256) (c : Fin 32) : Answers s (execOpShr r a b c s) := by
  have hK := Kept.refl s
  unfold execOpShr
  repeat' first
    | with_reducible first
      | assumption | intro _ | apply onRun_kept | apply Answers.next
    | dsimp only | split

theorem execOpSar_answers (s : State) (r : Runner) (a : Fin 256) (b : Fin 256) (c : Fin 32) : Answers s (execOpSar r a b c s) := by
  have hK := Kept.refl s
  unfold execOpSar
  repeat' first
    | with_reducible first
      | assumption | intro _ | apply onRun_kept | apply Answers.next
    | dsimp only | split

theorem execOpRol_answers (s : State) (r : Runner) (a : Fin 256) (b : Fin 256) (c : Fin 32) : Answers s (execOpRol r a b c s) := by
  have hK := Kept.refl s
  unfold execOpRol
  repeat' first
    | with_reducible first
      | assumption | intro _ | apply onRun_kept | apply Answers.next
    | dsimp only | split

theorem execOpBtst_answers (s : State) (r : Runner) (a : Fin 256) (b : Fin 256) (c : Fin 32) : Answers s (execOpBtst r a b c s) := by
  have hK := Kept.refl s
  unfold execOpBtst
  repeat' first
    | with_reducible first
      | assumption | intro _ | apply onRun_kept | apply kept_ite | apply Answers.next | apply answers_ite
    | dsimp only | split

theorem execOpBset_answers (s : State) (r : Runner) (a : Fin 256) (b : Fin 256) (c : Fin 32) : Answers s (execOpBset r a b c s) := by
  have hK := Kept.refl s
  unfold execOpBset
  repeat' first
    | with_reducible first
      | assumption | intro _ | apply onRun_kept | apply Answers.next
    | dsimp only | split

theorem execOpBclr_answers (s : State) (r : Runner) (a : Fin 256) (b : Fin 256) (c : Fin 32) : Answers s (execOpBclr r a b c s) := by
  have hK := Kept.refl s
  unfold execOpBclr
  repeat' first
    | with_reducible first
      | assumption | intro _ | apply onRun_kept | apply Answers.next
    | dsimp only | split

theorem execOpShlv_answers (s : State) (r : Runner) (a : Fin 256) (b : Fin 256) (c : Fin 256) : Answers s (execOpShlv r a b c s) := by
  have hK := Kept.refl s
  unfold execOpShlv
  repeat' first
    | with_reducible first
      | assumption | intro _ | apply onRun_kept | apply Answers.next
    | dsimp only | split

theorem execOpShrv_answers (s : State) (r : Runner) (a : Fin 256) (b : Fin 256) (c : Fin 256) : Answers s (execOpShrv r a b c s) := by
  have hK := Kept.refl s
  unfold execOpShrv
  repeat' first
    | with_reducible first
      | assumption | intro _ | apply onRun_kept | apply Answers.next
    | dsimp only | split

theorem execOpPopc_answers (s : State) (r : Runner) (a : Fin 256) (b : Fin 256) : Answers s (execOpPopc r a b s) := by
  have hK := Kept.refl s
  unfold execOpPopc
  repeat' first
    | with_reducible first
      | assumption | intro _ | apply onRun_kept | apply Answers.next
    | dsimp only | split

theorem execOpClz_answers (s : State) (r : Runner) (a : Fin 256) (b : Fin 256) : Answers s (execOpClz r a b s) := by
  have hK := Kept.refl s
  unfold execOpClz
  repeat' first
    | with_reducible first
      | assumption | intro _ | apply onRun_kept | apply Answers.next
    | dsimp only | split

theorem execOpRadd_answers (s : State) (r : Runner) (a : Fin 256) (b : Fin 256) (c : Fin 256) : Answers s (execOpRadd r a b c s) := by
  have hK := Kept.refl s
  unfold execOpRadd
  repeat' first
    | with_reducible first
      | assumption | apply onRun_kept | apply Answers.next
    | dsimp only

theorem execOpRsub_answers (s : State) (r : Runner) (a : Fin 256) (b : Fin 256) (c : Fin 256) : Answers s (execOpRsub r a b c s) := by
  have hK := Kept.refl s
  unfold execOpRsub
  repeat' first
    | with_reducible first
      | assumption | apply onRun_kept | apply Answers.next
    | dsimp only

theorem execOpRmul_answers (s : State) (r : Runner) (a : Fin 256) (b : Fin 256) (c : Fin 256) : Answers s (execOpRmul r a b c s) := by
  have hK := Kept.refl s
  unfold execOpRmul
  repeat' first
    | with_reducible first
      | assumption | apply onRun_kept | apply Answers.next
    | dsimp only

theorem execOpRdiv_answers (s : State) (r : Runner) (a : Fin 256) (b : Fin 256) (c : Fin 256) : Answers s (execOpRdiv r a b c s) := by
  have hK := Kept.refl s
  unfold execOpRdiv
  repeat' first
    | with_reducible first
      | assumption | apply onRun_kept | apply Answers.next
    | dsimp only

theorem execOpRneg_answers (s : State) (r : Runner) (a : Fin 256) (b : Fin 256) : Answers s (execOpRneg r a b s) := by
  have hK := Kept.refl s
  unfold execOpRneg
  repeat' first
    | with_reducible first
      | assumption | apply onRun_kept | apply Answers.next
    | dsimp only

theorem execOpRabs_answers (s : State) (r : Runner) (a : Fin 256) (b : Fin 256) : Answers s (execOpRabs r a b s) := by
  have hK := Kept.refl s
  unfold execOpRabs
  repeat' first
    | with_reducible first
      | assumption | apply onRun_kept | apply Answers.next
    | dsimp only

theorem execOpRmin_answers (s : State) (r : Runner) (a : Fin 256) (b : Fin 256) (c : Fin 256) : Answers s (execOpRmin r a b c s) := by
  have hK := Kept.refl s
  unfold execOpRmin
  repeat' first
    | with_reducible first
      | assumption | apply onRun_kept | apply Answers.next
    | dsimp only

theorem execOpRmax_answers (s : State) (r : Runner) (a : Fin 256) (b : Fin 256) (c : Fin 256) : Answers s (execOpRmax r a b c s) := by
  have hK := Kept.refl s
  unfold execOpRmax
  repeat' first
    | with_reducible first
      | assumption | apply onRun_kept | apply Answers.next
    | dsimp only

theorem execOpRlim_answers (s : State) (r : Runner) (a : Fin 256) (b : Fin 256) (c : Fin 256) : Answers s (execOpRlim r a b c s) := by
  have hK := Kept.refl s
  unfold execOpRlim
  repeat' first
    | with_reducible first
      | assumption | apply onRun_kept | apply Answers.next
    | dsimp only

theorem execOpRsqrt_answers (s : State) (r : Runner) (a : Fin 256) (b : Fin 256) : Answers s (execOpRsqrt r a b s) := by
  have hK := Kept.refl s
  unfold execOpRsqrt
  repeat' first
    | with_reducible first
      | assumption | apply onRun_kept | apply Answers.next
    | dsimp only

theorem execOpRmac_answers (s : State) (r : Runner) (a : Fin 256) (b : Fin 256) (c : Fin 256) : Answers s (execOpRmac r a b c s) := by
  have hK := Kept.refl s
  unfold execOpRmac
  repeat' first
    | with_reducible first
      | assumption | apply onRun_kept | apply Answers.next
    | dsimp only

theorem execOpRrnd_answers (s : State) (r : Runner) (a : Fin 256) (b : Fin 256) : Answers s (execOpRrnd r a b s) := by
  have hK := Kept.refl s
  unfold execOpRrnd
  repeat' first
    | with_reducible first
      | assumption | apply onRun_kept | apply Answers.next
    | dsimp only

theorem execOpRtrn_answers (s : State) (r : Runner) (a : Fin 256) (b : Fin 256) : Answers s (execOpRtrn r a b s) := by
  have hK := Kept.refl s
  unfold execOpRtrn
  repeat' first
    | with_reducible first
      | assumption | apply onRun_kept | apply Answers.next
    | dsimp only

theorem execOpFadd_answers (s : State) (r : Runner) (a : Fin 256) (b : Fin 256) (c : Fin 256) : Answers s (execOpFadd r a b c s) := by
  have hK := Kept.refl s
  unfold execOpFadd
  repeat' first
    | with_reducible first
      | assumption | intro _ | apply onRun_kept | apply Answers.next
    | dsimp only | split

theorem execOpFsub_answers (s : State) (r : Runner) (a : Fin 256) (b : Fin 256) (c : Fin 256) : Answers s (execOpFsub r a b c s) := by
  have hK := Kept.refl s
  unfold execOpFsub
  repeat' first
    | with_reducible first
      | assumption | intro _ | apply onRun_kept | apply Answers.next
    | dsimp only | split

theorem execOpFmul_answers (s : State) (r : Runner) (a : Fin 256) (b : Fin 256) (c : Fin 256) : Answers s (execOpFmul r a b c s) := by
  have hK := Kept.refl s
  unfold execOpFmul
  repeat' first
    | with_reducible first
      | assumption | apply onRun_kept | apply Answers.next
    | dsimp only

theorem execOpFdiv_answers (s : State) (r : Runner) (a : Fin 256) (b : Fin 256) (c : Fin 256) : Answers s (execOpFdiv r a b c s) := by
  have hK := Kept.refl s
  unfold execOpFdiv
  repeat' first
    | with_reducible first
      | assumption | apply onRun_kept | apply Answers.next
    | dsimp only

theorem execOpFneg_answers (s : State) (r : Runner) (a : Fin 256) (b : Fin 256) : Answers s (execOpFneg r a b s) := by
  have hK := Kept.refl s
  unfold execOpFneg
  repeat' first
    | with_reducible first
      | assumption | intro _ | apply onRun_kept | apply Answers.next
    | dsimp only | split

theorem execOpFabs_answers (s : State) (r : Runner) (a : Fin 256) (b : Fin 256) : Answers s (execOpFabs r a b s) := by
  have hK := Kept.refl s
  unfold execOpFabs
  repeat' first
    | with_reducible first
      | assumption | intro _ | apply onRun_kept | apply Answers.next
    | dsimp only | split

theorem execOpFlim_answers (s : State) (r : Runner) (a : Fin 256) (b : Fin 256) (c : Fin 256) : Answers s (execOpFlim r a b c s) := by
  have hK := Kept.refl s
  unfold execOpFlim
  repeat' first
    | with_reducible first
      | assumption | apply onRun_kept | apply Answers.next
    | dsimp only

theorem execOpFshr_answers (s : State) (r : Runner) (a : Fin 256) (b : Fin 256) (c : Fin 32) : Answers s (execOpFshr r a b c s) := by
  have hK := Kept.refl s
  unfold execOpFshr
  repeat' first
    | with_reducible first
      | assumption | intro _ | apply onRun_kept | apply Answers.next
    | dsimp only | split

theorem execOpEq_answers (s : State) (r : Runner) (a : Fin 256) (b : Fin 256) (c : Fin 256) : Answers s (execOpEq r a b c s) := by
  have hK := Kept.refl s
  unfold execOpEq
  repeat' first
    | with_reducible first
      | assumption | apply onRun_kept | apply Answers.next
    | dsimp only

theorem execOpNe_answers (s : State) (r : Runner) (a : Fin 256) (b : Fin 256) (c : Fin 256) : Answers s (execOpNe r a b c s) := by
  have hK := Kept.refl s
  unfold execOpNe
  repeat' first
    | with_reducible first
      | assumption | apply onRun_kept | apply Answers.next
    | dsimp only

theorem execOpLt_answers (s : State) (r : Runner) (a : Fin 256) (b : Fin 256) (c : Fin 256) : Answers s (execOpLt r a b c s) := by
  have hK := Kept.refl s
  unfold execOpLt
  repeat' first
    | with_reducible first
      | assumption | apply onRun_kept | apply Answers.next
    | dsimp only

theorem execOpLe_answers (s : State) (r : Runner) (a : Fin 256) (b : Fin 256) (c : Fin 256) : Answers s (execOpLe r a b c s) := by
  have hK := Kept.refl s
  unfold execOpLe
  repeat' first
    | with_reducible first
      | assumption | apply onRun_kept | apply Answers.next
    | dsimp only

theorem execOpGt_answers (s : State) (r : Runner) (a : Fin 256) (b : Fin 256) (c : Fin 256) : Answers s (execOpGt r a b c s) := by
  have hK := Kept.refl s
  unfold execOpGt
  repeat' first
    | with_reducible first
      | assumption | apply onRun_kept | apply Answers.next
    | dsimp only

theorem execOpGe_answers (s : State) (r : Runner) (a : Fin 256) (b : Fin 256) (c : Fin 256) : Answers s (execOpGe r a b c s) := by
  have hK := Kept.refl s
  unfold execOpGe
  repeat' first
    | with_reducible first
      | assumption | apply onRun_kept | apply Answers.next
    | dsimp only

theorem execOpTbef_answers (s : State) (r : Runner) (a : Fin 256) (b : Fin 256) (c : Fin 256) : Answers s (execOpTbef r a b c s) := by
  have hK := Kept.refl s
  unfold execOpTbef
  repeat' first
    | with_reducible first
      | assumption | apply onRun_kept | apply Answers.next
    | dsimp only

theorem execOpJmp_answers (s : State) (r : Runner) (h : Fin 65536) : Answers s (execOpJmp r h s) := by
  have hK := Kept.refl s
  unfold execOpJmp
  repeat' first
    | with_reducible first
      | assumption | apply onRun_kept | apply Answers.next
    | dsimp only

theorem execOpJt_answers (s : State) (r : Runner) (a : Fin 256) (h : Fin 65536) : Answers s (execOpJt r a h s) := by
  have hK := Kept.refl s
  unfold execOpJt
  repeat' first
    | with_reducible first
      | assumption | apply onRun_kept | apply Answers.next
    | dsimp only

theorem execOpJf_answers (s : State) (r : Runner) (a : Fin 256) (h : Fin 65536) : Answers s (execOpJf r a h s) := by
  have hK := Kept.refl s
  unfold execOpJf
  repeat' first
    | with_reducible first
      | assumption | apply onRun_kept | apply Answers.next
    | dsimp only

theorem execOpLoop_answers (s : State) (r : Runner) (a : Fin 256) (h : Fin 65536) : Answers s (execOpLoop r a h s) := by
  have hK := Kept.refl s
  unfold execOpLoop
  repeat' first
    | with_reducible first
      | assumption | apply onRun_kept | apply Answers.next
    | dsimp only

theorem execOpEndl_answers (s : State) (r : Runner) : Answers s (execOpEndl r s) := by
  have hK := Kept.refl s
  unfold execOpEndl
  repeat' first
    | with_reducible first
      | assumption | apply onRun_kept | apply Answers.next
    | dsimp only

theorem execOpSel_answers (s : State) (r : Runner) (a : Fin 256) (b : Fin 256) (c : Fin 256) : Answers s (execOpSel r a b c s) := by
  have hK := Kept.refl s
  unfold execOpSel
  repeat' first
    | with_reducible first
      | assumption | apply onRun_kept | apply Answers.next
    | dsimp only

theorem execOpLutl_answers (s : State) (r : Runner) (a : Fin 256) (b : Fin 256) (t : Fin 256) : Answers s (execOpLutl r a b t s) := by
  have hK := Kept.refl s
  unfold execOpLutl
  repeat' first
    | with_reducible first
      | assumption | apply onRun_kept | apply Answers.next
    | dsimp only

theorem execOpLuts_answers (s : State) (r : Runner) (a : Fin 256) (b : Fin 256) (t : Fin 256) : Answers s (execOpLuts r a b t s) := by
  have hK := Kept.refl s
  unfold execOpLuts
  repeat' first
    | with_reducible first
      | assumption | apply onRun_kept | apply Answers.next
    | dsimp only

theorem execOpHfind_answers (s : State) (r : Runner) (a : Fin 256) (b : Fin 256) (t : Fin 256) : Answers s (execOpHfind r a b t s) := by
  have hK := Kept.refl s
  unfold execOpHfind
  repeat' first
    | with_reducible first
      | assumption | apply onRun_kept | apply Answers.next
    | dsimp only

theorem execOpHhas_answers (s : State) (r : Runner) (a : Fin 256) (b : Fin 256) (t : Fin 256) : Answers s (execOpHhas r a b t s) := by
  have hK := Kept.refl s
  unfold execOpHhas
  repeat' first
    | with_reducible first
      | assumption | apply onRun_kept | apply Answers.next
    | dsimp only

theorem execOpTrd_answers (s : State) (r : Runner) (a : Fin 256) (b : Fin 256) (t : Fin 256) : Answers s (execOpTrd r a b t s) := by
  have hK := Kept.refl s
  unfold execOpTrd
  repeat' first
    | with_reducible first
      | assumption | apply onRun_kept | apply Answers.next
    | dsimp only

theorem execOpTlen_answers (s : State) (r : Runner) (a : Fin 256) (t : Fin 256) : Answers s (execOpTlen r a t s) := by
  have hK := Kept.refl s
  unfold execOpTlen
  repeat' first
    | with_reducible first
      | assumption | apply onRun_kept | apply Answers.next
    | dsimp only

theorem execOpGet_answers (s : State) (e : Fin 8) (sl : Fin 8) (a : Fin 256) (i : Fin 4096) : Answers s (execOpGet e sl a i s) := by
  have hK := Kept.refl s
  unfold execOpGet
  repeat' first
    | with_reducible first
      | assumption | apply onTask_kept | apply Answers.next
    | dsimp only

theorem execOpGetq_answers (s : State) (e : Fin 8) (sl : Fin 8) (a : Fin 256) (i : Fin 4096) : Answers s (execOpGetq e sl a i s) := by
  have hK := Kept.refl s
  unfold execOpGetq
  repeat' first
    | with_reducible first
      | assumption | apply onTask_kept | apply Answers.next
    | dsimp only

theorem execOpGets_answers (s : State) (e : Fin 8) (sl : Fin 8) (a : Fin 256) (i : Fin 4096) : Answers s (execOpGets e sl a i s) := by
  have hK := Kept.refl s
  unfold execOpGets
  repeat' first
    | with_reducible first
      | assumption | apply onTask_kept | apply Answers.next
    | dsimp only

theorem execOpGeto_answers (s : State) (e : Fin 8) (sl : Fin 8) (a : Fin 256) (x : Fin 1024) : Answers s (execOpGeto e sl a x s) := by
  have hK := Kept.refl s
  unfold execOpGeto
  repeat' first
    | with_reducible first
      | assumption | apply onTask_kept | apply Answers.next
    | dsimp only

theorem execOpPut_answers (s : State) (e : Fin 8) (sl : Fin 8) (a : Fin 256) (x : Fin 1024) : Answers s (execOpPut e sl a x s) := by
  have hK := Kept.refl s
  unfold execOpPut
  repeat' first
    | with_reducible first
      | assumption | apply onTask_kept | apply Answers.next
    | dsimp only

theorem execOpPutg_answers (s : State) (e : Fin 8) (sl : Fin 8) (a : Fin 256) (x : Fin 1024) : Answers s (execOpPutg e sl a x s) := by
  have hK := Kept.refl s
  unfold execOpPutg
  repeat' first
    | with_reducible first
      | assumption | apply onTask_kept | apply Answers.next
    | dsimp only

theorem execOpPutf_answers (s : State) (e : Fin 8) (sl : Fin 8) (x : Fin 1024) : Answers s (execOpPutf e sl x s) := by
  have hK := Kept.refl s
  unfold execOpPutf
  repeat' first
    | with_reducible first
      | assumption | apply onTask_kept | apply Answers.next
    | dsimp only

theorem execOpEdgr_answers (s : State) (e : Fin 8) (sl : Fin 8) (a : Fin 256) (b : Fin 256) (k : Fin 1024) : Answers s (execOpEdgr e sl a b k s) := by
  have hK := Kept.refl s
  unfold execOpEdgr
  repeat' first
    | with_reducible first
      | assumption | intro _ | apply onTask_kept | apply Answers.next
    | dsimp only | split

theorem execOpEdgf_answers (s : State) (e : Fin 8) (sl : Fin 8) (a : Fin 256) (b : Fin 256) (k : Fin 1024) : Answers s (execOpEdgf e sl a b k s) := by
  have hK := Kept.refl s
  unfold execOpEdgf
  repeat' first
    | with_reducible first
      | assumption | intro _ | apply onTask_kept | apply Answers.next
    | dsimp only | split

theorem execOpEdgc_answers (s : State) (e : Fin 8) (sl : Fin 8) (a : Fin 256) (b : Fin 256) (k : Fin 1024) : Answers s (execOpEdgc e sl a b k s) := by
  have hK := Kept.refl s
  unfold execOpEdgc
  repeat' first
    | with_reducible first
      | assumption | intro _ | apply onTask_kept | apply Answers.next
    | dsimp only | split

theorem execOpEdgclr_answers (s : State) (e : Fin 8) (sl : Fin 8) (k : Fin 1024) : Answers s (execOpEdgclr e sl k s) := by
  have hK := Kept.refl s
  unfold execOpEdgclr
  repeat' first
    | with_reducible first
      | assumption | apply onTask_kept | apply Answers.next
    | dsimp only

theorem execOpTon_answers (s : State) (e : Fin 8) (sl : Fin 8) (a : Fin 256) (b : Fin 256) (c : Fin 256) : Answers s (execOpTon e sl a b c s) := by
  have hK := Kept.refl s
  unfold execOpTon
  repeat' first
    | with_reducible first
      | assumption | apply onTask_kept | apply Answers.next
    | dsimp only

theorem execOpTof_answers (s : State) (e : Fin 8) (sl : Fin 8) (a : Fin 256) (b : Fin 256) (c : Fin 256) : Answers s (execOpTof e sl a b c s) := by
  have hK := Kept.refl s
  unfold execOpTof
  repeat' first
    | with_reducible first
      | assumption | apply onTask_kept | apply Answers.next
    | dsimp only

theorem execOpTp_answers (s : State) (e : Fin 8) (sl : Fin 8) (a : Fin 256) (b : Fin 256) (c : Fin 256) : Answers s (execOpTp e sl a b c s) := by
  have hK := Kept.refl s
  unfold execOpTp
  repeat' first
    | with_reducible first
      | assumption | apply onTask_kept | apply Answers.next
    | dsimp only

theorem execOpTpre_answers (s : State) (e : Fin 8) (sl : Fin 8) (b : Fin 256) (c : Fin 256) : Answers s (execOpTpre e sl b c s) := by
  have hK := Kept.refl s
  unfold execOpTpre
  repeat' first
    | with_reducible first
      | assumption | apply onTask_kept | apply Answers.next
    | dsimp only

theorem execOpTelp_answers (s : State) (e : Fin 8) (sl : Fin 8) (a : Fin 256) (c : Fin 256) : Answers s (execOpTelp e sl a c s) := by
  have hK := Kept.refl s
  unfold execOpTelp
  repeat' first
    | with_reducible first
      | assumption | apply onTask_kept | apply Answers.next
    | dsimp only

theorem execOpTrst_answers (s : State) (e : Fin 8) (sl : Fin 8) (c : Fin 256) : Answers s (execOpTrst e sl c s) := by
  have hK := Kept.refl s
  unfold execOpTrst
  repeat' first
    | with_reducible first
      | assumption | apply onTask_kept | apply Answers.next
    | dsimp only

theorem execOpCtu_answers (s : State) (e : Fin 8) (sl : Fin 8) (a : Fin 256) (b : Fin 256) (c : Fin 256) : Answers s (execOpCtu e sl a b c s) := by
  have hK := Kept.refl s
  unfold execOpCtu
  repeat' first
    | with_reducible first
      | assumption | apply onTask_kept | apply Answers.next
    | dsimp only

theorem execOpCtd_answers (s : State) (e : Fin 8) (sl : Fin 8) (a : Fin 256) (b : Fin 256) (c : Fin 256) : Answers s (execOpCtd e sl a b c s) := by
  have hK := Kept.refl s
  unfold execOpCtd
  repeat' first
    | with_reducible first
      | assumption | apply onTask_kept | apply Answers.next
    | dsimp only

theorem execOpCrst_answers (s : State) (e : Fin 8) (sl : Fin 8) (c : Fin 256) : Answers s (execOpCrst e sl c s) := by
  have hK := Kept.refl s
  unfold execOpCrst
  repeat' first
    | with_reducible first
      | assumption | apply onTask_kept | apply Answers.next
    | dsimp only

theorem execOpCld_answers (s : State) (e : Fin 8) (sl : Fin 8) (c : Fin 256) : Answers s (execOpCld e sl c s) := by
  have hK := Kept.refl s
  unfold execOpCld
  repeat' first
    | with_reducible first
      | assumption | apply onTask_kept | apply Answers.next
    | dsimp only

theorem execOpCpre_answers (s : State) (e : Fin 8) (sl : Fin 8) (b : Fin 256) (c : Fin 256) : Answers s (execOpCpre e sl b c s) := by
  have hK := Kept.refl s
  unfold execOpCpre
  repeat' first
    | with_reducible first
      | assumption | apply onTask_kept | apply Answers.next
    | dsimp only

theorem execOpCget_answers (s : State) (e : Fin 8) (sl : Fin 8) (a : Fin 256) (c : Fin 256) : Answers s (execOpCget e sl a c s) := by
  have hK := Kept.refl s
  unfold execOpCget
  repeat' first
    | with_reducible first
      | assumption | apply onTask_kept | apply Answers.next
    | dsimp only

theorem execOpAlm_answers (s : State) (e : Fin 8) (sl : Fin 8) (b : Fin 256) (c : Fin 256) : Answers s (execOpAlm e sl b c s) := by
  have hK := Kept.refl s
  unfold execOpAlm
  repeat' first
    | with_reducible first
      | assumption | apply onTask_kept | apply Answers.next
    | dsimp only

theorem execOpAlmq_answers (s : State) (e : Fin 8) (sl : Fin 8) (a : Fin 256) (c : Fin 256) : Answers s (execOpAlmq e sl a c s) := by
  have hK := Kept.refl s
  unfold execOpAlmq
  repeat' first
    | with_reducible first
      | assumption | apply onTask_kept | apply Answers.next
    | dsimp only

theorem execOpEvt_answers (s : State) (e : Fin 8) (sl : Fin 8) (b : Fin 256) (c : Fin 256) : Answers s (execOpEvt e sl b c s) := by
  have hK := Kept.refl s
  unfold execOpEvt
  repeat' first
    | with_reducible first
      | assumption | apply onTask_kept | apply Answers.next
    | dsimp only

theorem execOpTrnd_answers (s : State) (e : Fin 8) (sl : Fin 8) (b : Fin 256) (c : Fin 256) : Answers s (execOpTrnd e sl b c s) := by
  have hK := Kept.refl s
  unfold execOpTrnd
  repeat' first
    | with_reducible first
      | assumption | apply onTask_kept | apply Answers.next
    | dsimp only

theorem execOpEvsig_answers (s : State) (e : Fin 8) (sl : Fin 8) (b : Fin 256) (c : Fin 256) : Answers s (execOpEvsig e sl b c s) := by
  have hK := Kept.refl s
  unfold execOpEvsig
  repeat' first
    | with_reducible first
      | assumption | apply onTask_kept | apply Answers.next
    | dsimp only

theorem execOpEvdig_answers (s : State) (e : Fin 8) (sl : Fin 8) (c : Fin 256) : Answers s (execOpEvdig e sl c s) := by
  have hK := Kept.refl s
  unfold execOpEvdig
  repeat' first
    | with_reducible first
      | assumption | apply onTask_kept | apply Answers.next
    | dsimp only

end Sys2Proof.Machine
end

