-- ==== Sys2Proof/Laws/KeptTasks.lean ====
section
/-! SUPPORT. Laws/KeptTasks.lean: what the operations of Machine/Tasks.lean keep. -/

namespace Sys2Proof.Machine

set_option linter.unusedTactic false
set_option linter.unreachableTactic false

theorem putTask_kept {s₀ s : State} (k : Nat) (t : Task) (hK : Kept s₀ s) : Kept s₀ (putTask s k t) := by
  unfold putTask
  repeat' first
    | with_reducible first
      | assumption
    | dsimp only | fail_if_no_progress with_reducible refine kept_mk ?_ rfl ?_ ?_ ?_ rfl | exact Nat.le_refl _ | exact Nat.zero_le _

theorem mapTask_kept {s₀ s : State} (k : Nat) (f : Task → Task) (hK : Kept s₀ s) : Kept s₀ (mapTask s k f) := by
  unfold mapTask
  repeat' first
    | with_reducible first
      | assumption | intro _ | apply putTask_kept
    | dsimp only | split

theorem setTaskState_kept {s₀ s : State} (k st cause : Nat) (hK : Kept s₀ s) : Kept s₀ (setTaskState s k st cause) := by
  unfold setTaskState
  repeat' first
    | with_reducible first
      | assumption | apply setFs_kept
    | dsimp only

theorem updActivity_kept {s₀ s : State} (e : Nat) (hK : Kept s₀ s) : Kept s₀ (updActivity s e) := by
  unfold updActivity
  repeat' first
    | with_reducible first
      | assumption | intro _ | apply setF_kept | apply setFs_kept
    | dsimp only | split

theorem releaseTask_kept {s₀ s : State} (k : Nat) (t : Task) (hK : Kept s₀ s) : Kept s₀ (releaseTask s k t) := by
  unfold releaseTask
  repeat' first
    | with_reducible first
      | assumption | apply incF_kept | apply setFs_kept | apply putTask_kept
    | dsimp only | fail_if_no_progress with_reducible refine kept_mk ?_ rfl ?_ ?_ ?_ rfl | exact Nat.le_refl _ | exact Nat.zero_le _

theorem overrunTask_kept {s₀ s : State} (k : Nat) (t : Task) (hK : Kept s₀ s) : Kept s₀ (overrunTask s k t) := by
  unfold overrunTask
  repeat' first
    | with_reducible first
      | assumption | apply incSatF_kept | apply raise_kept | apply putTask_kept
    | dsimp only | fail_if_no_progress with_reducible refine kept_mk ?_ rfl ?_ ?_ ?_ rfl | exact Nat.le_refl _ | exact Nat.zero_le _

theorem tickTask_kept {s₀ s : State} (k : Nat) (hK : Kept s₀ s) : Kept s₀ (tickTask s k) := by
  unfold tickTask
  repeat' first
    | with_reducible first
      | assumption | intro _ | apply putTask_kept | apply releaseTask_kept | apply overrunTask_kept | apply kept_ite
    | dsimp only | split | fail_if_no_progress with_reducible refine kept_mk ?_ rfl ?_ ?_ ?_ rfl | exact Nat.le_refl _ | exact Nat.zero_le _

theorem gatherTask_kept {s₀ s : State} (k : Nat) (t : Task) (hK : Kept s₀ s) : Kept s₀ (gatherTask s k t) := by
  unfold gatherTask
  repeat' first
    | with_reducible first
      | assumption | apply maxF_kept | apply setFs_kept | apply putTask_kept | apply updActivity_kept
    | dsimp only | fail_if_no_progress with_reducible refine kept_mk ?_ rfl ?_ ?_ ?_ rfl | exact Nat.le_refl _ | exact Nat.zero_le _

theorem execTaskGather_answers (s : State) (e : Fin 8) : Answers s (execTaskGather e s) := by
  have hK := Kept.refl s
  unfold execTaskGather
  repeat' first
    | with_reducible first
      | assumption | intro _ | apply gatherTask_kept | apply kept_ite | apply Answers.next | apply answers_ite
    | dsimp only | split

theorem dispatchEngine_kept {s₀ s : State} (e : Nat) (hK : Kept s₀ s) : Kept s₀ (dispatchEngine s e) := by
  unfold dispatchEngine
  repeat' first
    | with_reducible first
      | assumption | intro _ | apply incF_kept | apply putTask_kept | apply updActivity_kept | apply kept_ite
    | dsimp only | split | fail_if_no_progress with_reducible refine kept_mk ?_ rfl ?_ ?_ ?_ rfl | exact Nat.le_refl _ | exact Nat.zero_le _

theorem execTaskDispatch_answers (s : State) (e : Fin 8) : Answers s (execTaskDispatch e s) := by
  have hK := Kept.refl s
  unfold execTaskDispatch
  repeat' first
    | with_reducible first
      | assumption | apply dispatchEngine_kept | apply Answers.next
    | dsimp only

theorem endReport_kept {s₀ s : State} (k : Nat) (t : Task) (hK : Kept s₀ s) : Kept s₀ (endReport s k t) := by
  unfold endReport
  repeat' first
    | with_reducible first
      | assumption | apply incSatF_kept | apply latchF_kept | apply maxF_kept | apply setFs_kept | apply raise_kept | apply kept_ite
    | dsimp only | split

theorem endTask_kept {s₀ s : State} (e sl : Fin 8) (hK : Kept s₀ s) : Kept s₀ (endTask s e sl) := by
  unfold endTask
  repeat' first
    | with_reducible first
      | assumption | intro _ | apply putTask_kept | apply updActivity_kept | apply endReport_kept | apply kept_ite
    | dsimp only | split | fail_if_no_progress with_reducible refine kept_mk ?_ rfl ?_ ?_ ?_ rfl | exact Nat.le_refl _ | exact Nat.zero_le _

theorem execOpEnd_answers (s : State) (r : Runner) : Answers s (execOpEnd r s) := by
  have hK := Kept.refl s
  unfold execOpEnd
  repeat' first
    | with_reducible first
      | assumption | intro _ | apply endTask_kept | apply Answers.next
    | dsimp only | split | fail_if_no_progress with_reducible refine kept_mk ?_ rfl ?_ ?_ ?_ rfl | exact Nat.le_refl _ | exact Nat.zero_le _

theorem scatterOuts_kept {s₀ s : State} (k : Nat) (xs : List TaskOut) (os : List OutEntry) (h : Kept s₀ s) :
    Kept s₀ (scatterOuts s k xs os) := by
  induction xs generalizing s os with
  | nil => exact h
  | cons x xs ih => exact ih _ (scatterWrite_kept _ _ _ _ h)

theorem stopTask_kept {s₀ s : State} (k cause : Nat) (hK : Kept s₀ s) : Kept s₀ (stopTask s k cause) := by
  unfold stopTask
  repeat' first
    | with_reducible first
      | assumption | intro _ | apply setF_kept | apply mapTask_kept | apply setTaskState_kept
    | dsimp only | split | fail_if_no_progress with_reducible refine kept_mk ?_ rfl ?_ ?_ ?_ rfl | exact Nat.le_refl _ | exact Nat.zero_le _

theorem holdTask_kept {s₀ s : State} (k : Nat) (mark : Bool) (hK : Kept s₀ s) : Kept s₀ (holdTask s k mark) := by
  unfold holdTask
  repeat' first
    | with_reducible first
      | assumption | intro _ | apply setB_kept | apply setF_kept | apply mapTask_kept | apply kept_ite
    | dsimp only | split | fail_if_no_progress with_reducible refine kept_mk ?_ rfl ?_ ?_ ?_ rfl | exact Nat.le_refl _ | exact Nat.zero_le _

theorem boundary_kept {s₀ s : State} (k : Nat) (t : Task) (hK : Kept s₀ s) : Kept s₀ (boundary s k t) := by
  unfold boundary
  repeat' first
    | with_reducible first
      | assumption | intro _ | apply setF_kept | apply raise_kept | apply stopTask_kept | apply holdTask_kept | apply kept_ite
    | dsimp only | split

theorem gateIdle_kept {s₀ s : State} (e : Nat) (hK : Kept s₀ s) : Kept s₀ (gateIdle s e) := by
  unfold gateIdle
  repeat' first
    | with_reducible first
      | assumption | apply setF_kept | apply kept_ite
    | dsimp only | split

theorem gateEngines_kept {s₀ s : State} (es : List Nat) (hK : Kept s₀ s) : Kept s₀ (gateEngines s es) := by
  unfold gateEngines
  repeat' first
    | with_reducible first
      | assumption | intro _ | apply gateIdle_kept | apply foldl_kept | apply foldl_pair_kept
    | dsimp only

theorem suspendScatter_kept {s₀ s : State} (e : Nat) (hK : Kept s₀ s) : Kept s₀ (suspendScatter s e) := by
  unfold suspendScatter
  repeat' first
    | with_reducible first
      | assumption | intro _ | apply freshFree_kept | refine freshFree_eq_kept (by assumption) ?_ | apply mapTask_kept | apply scatterOuts_kept
      | apply kept_ite
    | dsimp only | split | fail_if_no_progress with_reducible refine kept_mk ?_ rfl ?_ ?_ ?_ rfl | exact Nat.le_refl _ | exact Nat.zero_le _

theorem releaseKeys_kept {s₀ s : State} (ks : List Nat) (hK : Kept s₀ s) : Kept s₀ (releaseKeys s ks) := by
  unfold releaseKeys
  repeat' first
    | with_reducible first
      | assumption | intro _ | apply updActivity_kept | apply tickTask_kept | apply suspendScatter_kept | apply foldl_kept | apply foldl_pair_kept
    | dsimp only | split

theorem releaseAll_kept {s₀ s : State} (hK : Kept s₀ s) : Kept s₀ (releaseAll s) := by
  unfold releaseAll
  repeat' first
    | with_reducible first
      | assumption | intro _ | apply releaseKeys_kept
    | dsimp only | split

theorem scatterTask_kept {s₀ s : State} (k : Nat) (t : Task) (hK : Kept s₀ s) : Kept s₀ (scatterTask s k t) := by
  unfold scatterTask
  repeat' first
    | with_reducible first
      | assumption | intro _ | apply maxF_kept | apply setFs_kept | apply mapTask_kept | apply updActivity_kept | apply scatterOuts_kept
      | apply boundary_kept | apply gateIdle_kept
    | dsimp only | split | fail_if_no_progress with_reducible refine kept_mk ?_ rfl ?_ ?_ ?_ rfl | exact Nat.le_refl _ | exact Nat.zero_le _

theorem execTaskScatter_answers (s : State) (e : Fin 8) (sl : Fin 8) : Answers s (execTaskScatter e sl s) := by
  have hK := Kept.refl s
  unfold execTaskScatter
  repeat' first
    | with_reducible first
      | assumption | intro _ | apply scatterTask_kept | apply kept_ite | apply Answers.next | apply answers_ite
    | dsimp only | split

theorem stopScatterTask_kept {s₀ s : State} (k : Nat) (t : Task) (hK : Kept s₀ s) : Kept s₀ (stopScatterTask s k t) := by
  unfold stopScatterTask
  repeat' first
    | with_reducible first
      | assumption | apply putTask_kept | apply scatterOuts_kept
    | dsimp only | fail_if_no_progress with_reducible refine kept_mk ?_ rfl ?_ ?_ ?_ rfl | exact Nat.le_refl _ | exact Nat.zero_le _

theorem execStopScatter_answers (s : State) (e : Fin 8) (sl : Fin 8) : Answers s (execStopScatter e sl s) := by
  have hK := Kept.refl s
  unfold execStopScatter
  repeat' first
    | with_reducible first
      | assumption | intro _ | apply stopScatterTask_kept | apply kept_ite | apply Answers.next | apply answers_ite
    | dsimp only | split

theorem startTask_kept {s₀ s : State} (k : Nat) (hK : Kept s₀ s) : Kept s₀ (startTask s k) := by
  unfold startTask
  repeat' first
    | with_reducible first
      | assumption | intro _ | apply setF_kept | apply mapTask_kept | apply setTaskState_kept
    | dsimp only | split | fail_if_no_progress with_reducible refine kept_mk ?_ rfl ?_ ?_ ?_ rfl | exact Nat.le_refl _ | exact Nat.zero_le _

theorem unholdTask_kept {s₀ s : State} (k : Nat) (hK : Kept s₀ s) : Kept s₀ (unholdTask s k) := by
  unfold unholdTask
  repeat' first
    | with_reducible first
      | assumption | intro _ | apply setFs_kept | apply mapTask_kept | apply kept_ite
    | dsimp only | split | fail_if_no_progress with_reducible refine kept_mk ?_ rfl ?_ ?_ ?_ rfl | exact Nat.le_refl _ | exact Nat.zero_le _

theorem requestStop_kept {s₀ s : State} (k cause : Nat) (hK : Kept s₀ s) : Kept s₀ (requestStop s k cause) := by
  unfold requestStop
  repeat' first
    | with_reducible first
      | assumption | intro _ | apply setF_kept | apply putTask_kept | apply stopTask_kept | apply kept_ite
    | dsimp only | split | fail_if_no_progress with_reducible refine kept_mk ?_ rfl ?_ ?_ ?_ rfl | exact Nat.le_refl _ | exact Nat.zero_le _

theorem requestHold_kept {s₀ s : State} (k : Nat) (mark : Bool) (hK : Kept s₀ s) : Kept s₀ (requestHold s k mark) := by
  unfold requestHold
  repeat' first
    | with_reducible first
      | assumption | intro _ | apply putTask_kept | apply holdTask_kept | apply kept_ite
    | dsimp only | split | fail_if_no_progress with_reducible refine kept_mk ?_ rfl ?_ ?_ ?_ rfl | exact Nat.le_refl _ | exact Nat.zero_le _

theorem requestRun_kept {s₀ s : State} (k : Nat) (hK : Kept s₀ s) : Kept s₀ (requestRun s k) := by
  unfold requestRun
  repeat' first
    | with_reducible first
      | assumption | intro _ | apply startTask_kept | apply unholdTask_kept
    | dsimp only | split

theorem requestStep_kept {s₀ s : State} (k : Nat) (hK : Kept s₀ s) : Kept s₀ (requestStep s k) := by
  unfold requestStep
  repeat' first
    | with_reducible first
      | assumption | intro _ | apply setF_kept | apply mapTask_kept
    | dsimp only | split | fail_if_no_progress with_reducible refine kept_mk ?_ rfl ?_ ?_ ?_ rfl | exact Nat.le_refl _ | exact Nat.zero_le _

theorem clearTaskStats_kept {s₀ s : State} (k : Nat) (hK : Kept s₀ s) : Kept s₀ (clearTaskStats s k) := by
  unfold clearTaskStats
  repeat' first
    | with_reducible first
      | assumption | apply setFs_kept
    | dsimp only

theorem taskCmdEffect_kept {s₀ s : State} (k op : Nat) (hK : Kept s₀ s) : Kept s₀ (taskCmdEffect s k op) := by
  unfold taskCmdEffect
  repeat' first
    | with_reducible first
      | assumption | intro _ | apply requestStop_kept | apply requestHold_kept | apply requestRun_kept | apply requestStep_kept
      | apply clearTaskStats_kept | apply kept_ite
    | dsimp only | split

theorem taskCmd_kept {s₀ s : State} (k op : Nat) (hK : Kept s₀ s) : Kept s₀ (taskCmd s k op) := by
  unfold taskCmd
  repeat' first
    | with_reducible first
      | assumption | apply setFs_kept | apply taskCmdEffect_kept | apply kept_ite
    | dsimp only | split

theorem execTaskRunCmd_answers (s : State) (e : Fin 8) (sl : Fin 8) : Answers s (execTaskRunCmd e sl s) := by
  have hK := Kept.refl s
  unfold execTaskRunCmd
  repeat' first
    | with_reducible first
      | assumption | apply taskCmd_kept | apply Answers.next
    | dsimp only

theorem execTaskStopCmd_answers (s : State) (e : Fin 8) (sl : Fin 8) : Answers s (execTaskStopCmd e sl s) := by
  have hK := Kept.refl s
  unfold execTaskStopCmd
  repeat' first
    | with_reducible first
      | assumption | apply taskCmd_kept | apply Answers.next
    | dsimp only

theorem execTaskHoldCmd_answers (s : State) (e : Fin 8) (sl : Fin 8) : Answers s (execTaskHoldCmd e sl s) := by
  have hK := Kept.refl s
  unfold execTaskHoldCmd
  repeat' first
    | with_reducible first
      | assumption | apply taskCmd_kept | apply Answers.next
    | dsimp only

theorem execTaskStepCmd_answers (s : State) (e : Fin 8) (sl : Fin 8) : Answers s (execTaskStepCmd e sl s) := by
  have hK := Kept.refl s
  unfold execTaskStepCmd
  repeat' first
    | with_reducible first
      | assumption | apply taskCmd_kept | apply Answers.next
    | dsimp only

theorem execTaskClearStats_answers (s : State) (e : Fin 8) (sl : Fin 8) : Answers s (execTaskClearStats e sl s) := by
  have hK := Kept.refl s
  unfold execTaskClearStats
  repeat' first
    | with_reducible first
      | assumption | apply taskCmd_kept | apply Answers.next
    | dsimp only

theorem execMaxcostClear_answers (s : State) (e : Fin 8) (sl : Fin 8) : Answers s (execMaxcostClear e sl s) := by
  have hK := Kept.refl s
  unfold execMaxcostClear
  repeat' first
    | with_reducible first
      | assumption | apply setF_kept | apply Answers.next
    | dsimp only

theorem tasksEnterSafe_kept {s₀ s : State} (hK : Kept s₀ s) : Kept s₀ (tasksEnterSafe s) := by
  unfold tasksEnterSafe
  repeat' first
    | with_reducible first
      | assumption | intro _ | apply requestStop_kept | apply foldl_kept | apply foldl_pair_kept
    | dsimp only | split

theorem tasksEnterHold_kept {s₀ s : State} (hK : Kept s₀ s) : Kept s₀ (tasksEnterHold s) := by
  unfold tasksEnterHold
  repeat' first
    | with_reducible first
      | assumption | intro _ | apply requestHold_kept | apply foldl_kept | apply foldl_pair_kept
    | dsimp only | split

theorem tasksLeaveHold_kept {s₀ s : State} (hK : Kept s₀ s) : Kept s₀ (tasksLeaveHold s) := by
  unfold tasksLeaveHold
  repeat' first
    | with_reducible first
      | assumption | intro _ | apply mapTask_kept | apply unholdTask_kept | apply kept_ite | apply foldl_kept | apply foldl_pair_kept
    | dsimp only | split | fail_if_no_progress with_reducible refine kept_mk ?_ rfl ?_ ?_ ?_ rfl | exact Nat.le_refl _ | exact Nat.zero_le _

theorem tasksEnterRun_kept {s₀ s : State} (hK : Kept s₀ s) : Kept s₀ (tasksEnterRun s) := by
  unfold tasksEnterRun
  repeat' first
    | with_reducible first
      | assumption | intro _ | apply unholdTask_kept | apply kept_ite | apply foldl_kept | apply foldl_pair_kept
    | dsimp only | split

theorem resumeTask_kept {s₀ s : State} (k : Nat) (hK : Kept s₀ s) : Kept s₀ (resumeTask s k) := by
  unfold resumeTask
  repeat' first
    | with_reducible first
      | assumption | intro _ | apply setF_kept | apply mapTask_kept | apply holdTask_kept | apply startTask_kept | apply kept_ite
    | dsimp only | split | fail_if_no_progress with_reducible refine kept_mk ?_ rfl ?_ ?_ ?_ rfl | exact Nat.le_refl _ | exact Nat.zero_le _

theorem execTaskResume_answers (s : State) (e : Fin 8) : Answers s (execTaskResume e s) := by
  have hK := Kept.refl s
  unfold execTaskResume
  repeat' first
    | with_reducible first
      | assumption | intro _ | apply resumeTask_kept | apply kept_ite | apply foldl_kept | apply foldl_pair_kept | apply Answers.next
      | apply answers_ite
    | dsimp only | split

theorem execEventSign_answers (s : State) (e : Fin 8) (sl : Fin 8) : Answers s (execEventSign e sl s) := by
  have hK := Kept.refl s
  unfold execEventSign
  repeat' first
    | with_reducible first
      | assumption | intro _ | apply mapTask_kept | apply kept_ite | apply Answers.next | apply answers_ite
    | dsimp only | split | fail_if_no_progress with_reducible refine kept_mk ?_ rfl ?_ ?_ ?_ rfl | exact Nat.le_refl _ | exact Nat.zero_le _

theorem execEventDigest_answers (s : State) (e : Fin 8) (sl : Fin 8) : Answers s (execEventDigest e sl s) := by
  have hK := Kept.refl s
  unfold execEventDigest
  repeat' first
    | with_reducible first
      | assumption | intro _ | apply mapTask_kept | apply kept_ite | apply Answers.next | apply answers_ite
    | dsimp only | split | fail_if_no_progress with_reducible refine kept_mk ?_ rfl ?_ ?_ ?_ rfl | exact Nat.le_refl _ | exact Nat.zero_le _

theorem drainRec_kept {s₀ s : State} (k : Nat) (e : EventRec) (hK : Kept s₀ s) : Kept s₀ (drainRec s k e) := by
  unfold drainRec
  repeat' first
    | with_reducible first
      | assumption | intro _ | apply logEvent_kept
    | dsimp only | split | fail_if_no_progress with_reducible refine kept_mk ?_ rfl ?_ ?_ ?_ rfl | exact Nat.le_refl _ | exact Nat.zero_le _

theorem drainQueue_kept {s₀ s : State} (k : Nat) (t : Task) (hK : Kept s₀ s) : Kept s₀ (drainQueue s k t) := by
  unfold drainQueue
  repeat' first
    | with_reducible first
      | assumption | intro _ | apply putTask_kept | apply drainRec_kept | apply foldl_kept | apply foldl_pair_kept
    | dsimp only | split | fail_if_no_progress with_reducible refine kept_mk ?_ rfl ?_ ?_ ?_ rfl | exact Nat.le_refl _ | exact Nat.zero_le _

theorem execEventQueueDrain_answers (s : State) (e : Fin 8) (sl : Fin 8) : Answers s (execEventQueueDrain e sl s) := by
  have hK := Kept.refl s
  unfold execEventQueueDrain
  repeat' first
    | with_reducible first
      | assumption | intro _ | apply drainQueue_kept | apply Answers.next
    | dsimp only | split

theorem recompute_kept {s₀ s : State} (e : Nat) (hK : Kept s₀ s) : Kept s₀ (recompute s e) := by
  unfold recompute
  repeat' first
    | with_reducible first
      | assumption | intro _ | apply setF_kept | apply setFs_kept | apply kept_ite | apply foldl_kept | apply foldl_pair_kept
    | dsimp only | split

theorem recomputeAll_kept {s₀ s : State} (hK : Kept s₀ s) : Kept s₀ (recomputeAll s) := by
  unfold recomputeAll
  repeat' first
    | with_reducible first
      | assumption | intro _ | apply setF_kept | apply recompute_kept | apply foldl_kept | apply foldl_pair_kept
    | dsimp only | split

theorem taskRegs_kept {s₀ s : State} (k : Nat) (d : TaskDef) (hK : Kept s₀ s) : Kept s₀ (taskRegs s k d) := by
  unfold taskRegs
  repeat' first
    | with_reducible first
      | assumption | apply setFs_kept
    | dsimp only

theorem admitTask_kept {s₀ s : State} (k : Nat) (d : TaskDef) (start : Bool) (hK : Kept s₀ s) : Kept s₀ (admitTask s k d start) := by
  unfold admitTask
  repeat' first
    | with_reducible first
      | assumption | intro _ | apply putTask_kept | apply setTaskState_kept | apply taskRegs_kept | apply kept_ite
    | dsimp only | split | fail_if_no_progress with_reducible refine kept_mk ?_ rfl ?_ ?_ ?_ rfl | exact Nat.le_refl _ | exact Nat.zero_le _

theorem clearSlot_kept {s₀ s : State} (k : Nat) (h : Kept s₀ s) : Kept s₀ (clearSlot s k) :=
  kept_core h (fun w => filter_sorted w _) (fun w => w) (fun w => w) rfl (Nat.le_refl _) (Nat.le_refl _)

end Sys2Proof.Machine
end

