-- ==== Sys2Proof/Laws/KeptLoops.lean ====
section
/-! SUPPORT. Laws/KeptLoops.lean: what the operations of Machine/Loops.lean keep. -/

namespace Sys2Proof.Machine

set_option linter.unusedTactic false
set_option linter.unreachableTactic false

theorem setLoop_kept {s₀ s : State} (n : Nat) (l : Loop) (hK : Kept s₀ s) : Kept s₀ (setLoop s n l) := by
  unfold setLoop
  repeat' first
    | with_reducible first
      | assumption
    | dsimp only | fail_if_no_progress with_reducible refine kept_mk ?_ rfl ?_ ?_ ?_ rfl | exact Nat.le_refl _ | exact Nat.zero_le _

theorem mapLoop_kept {s₀ s : State} (n : Nat) (f : Loop → Loop) (hK : Kept s₀ s) : Kept s₀ (mapLoop s n f) := by
  unfold mapLoop
  repeat' first
    | with_reducible first
      | assumption | intro _ | apply setLoop_kept
    | dsimp only | split

theorem loopToSafe_kept {s₀ s : State} (n cause : Nat) (hK : Kept s₀ s) : Kept s₀ (loopToSafe s n cause) := by
  unfold loopToSafe
  repeat' first
    | with_reducible first
      | assumption | apply raise_kept | apply mapLoop_kept
    | dsimp only

theorem supvFault_kept {s₀ s : State} (n : Nat) (l : Loop) (f : SupvFault) (hK : Kept s₀ s) : Kept s₀ (supvFault s n l f) := by
  unfold supvFault
  repeat' first
    | with_reducible first
      | assumption | intro _ | apply raiseSev_kept | apply mapLoop_kept | apply kept_ite
    | dsimp only | split

theorem endMember_kept {s₀ s : State} (n : Nat) (i : SampleIn) (l : Loop) (offer written : Option Int) (losing : Bool) (hK : Kept s₀ s) :
    Kept s₀ (endMember s n i l offer written losing) := by
  unfold endMember
  repeat' first
    | with_reducible first
      | assumption | intro _ | apply setLoop_kept | apply loopToSafe_kept | apply supvFault_kept | apply kept_ite
    | dsimp only | split | fail_if_no_progress with_reducible refine kept_mk ?_ rfl ?_ ?_ ?_ rfl | exact Nat.le_refl _ | exact Nat.zero_le _

theorem writeOut_kept {s₀ s : State} (ident out : Nat) (u : Int) (zero span : Word) (wq : Wq) (hK : Kept s₀ s) : Kept s₀ (writeOut s ident
    out u zero span wq) := by
  unfold writeOut
  repeat' first
    | with_reducible first
      | assumption | apply writerWrite_kept
    | dsimp only

theorem writeSample_kept {s₀ s : State} (l : Loop) (ident out : Nat) (u : Int) (zero span : Word) (wq : Wq) (hK : Kept s₀ s) : Kept s₀
    (writeSample s l ident out u zero span wq) := by
  unfold writeSample
  repeat' first
    | with_reducible first
      | assumption | apply writeOut_kept | apply kept_ite
    | dsimp only | split | fail_if_no_progress with_reducible refine kept_mk ?_ rfl ?_ ?_ ?_ rfl | exact Nat.le_refl _ | exact Nat.zero_le _

theorem sampleLoop_kept {s₀ s : State} (n : Nat) (l0 : Loop) (hK : Kept s₀ s) : Kept s₀ (sampleLoop s n l0) := by
  unfold sampleLoop
  repeat' first
    | with_reducible first
      | assumption | intro _ | apply endMember_kept | apply writeSample_kept | apply kept_ite
    | dsimp only | split

theorem sampleGroup_kept {s₀ s : State} (g : Nat) (gr : Group) (hK : Kept s₀ s) : Kept s₀ (sampleGroup s g gr) := by
  unfold sampleGroup
  repeat' first
    | with_reducible first
      | assumption | intro _ | apply endMember_kept | apply writeSample_kept | apply kept_ite | apply foldl_kept | apply foldl_pair_kept
    | dsimp only | split | fail_if_no_progress with_reducible refine kept_mk ?_ rfl ?_ ?_ ?_ rfl | exact Nat.le_refl _ | exact Nat.zero_le _

theorem execLoopSample_answers (s : State) (n : Fin 4096) : Answers s (execLoopSample n s) := by
  have hK := Kept.refl s
  unfold execLoopSample
  repeat' first
    | with_reducible first
      | assumption | intro _ | apply sampleLoop_kept | apply kept_ite | apply Answers.next | apply answers_ite
    | dsimp only | split

theorem execGroupSample_answers (s : State) (g : Fin 512) : Answers s (execGroupSample g s) := by
  have hK := Kept.refl s
  unfold execGroupSample
  repeat' first
    | with_reducible first
      | assumption | intro _ | apply sampleGroup_kept | apply kept_ite | apply Answers.next | apply answers_ite
    | dsimp only | split

theorem loopOverrun_kept {s₀ s : State} (n : Nat) (l : Loop) (hK : Kept s₀ s) : Kept s₀ (loopOverrun s n l) := by
  unfold loopOverrun
  repeat' first
    | with_reducible first
      | assumption | apply incF_kept | apply raise_kept | apply setLoop_kept | apply loopToSafe_kept | apply kept_ite
    | dsimp only | split | fail_if_no_progress with_reducible refine kept_mk ?_ rfl ?_ ?_ ?_ rfl | exact Nat.le_refl _ | exact Nat.zero_le _

theorem subTickLoop_kept {s₀ s : State} (n : Nat) (hK : Kept s₀ s) : Kept s₀ (subTickLoop s n) := by
  unfold subTickLoop
  repeat' first
    | with_reducible first
      | assumption | intro _ | apply setLoop_kept | apply mapLoop_kept | apply loopOverrun_kept | apply kept_ite
    | dsimp only | split | fail_if_no_progress with_reducible refine kept_mk ?_ rfl ?_ ?_ ?_ rfl | exact Nat.le_refl _ | exact Nat.zero_le _

theorem nextSubTick_kept {s₀ s : State} (h : Kept s₀ s) (hs : s.sub < 4) : Kept s₀ (nextSubTick s) := by
  have k := passTime_kept (15625 * s.sub - s.fc) h (fun _ => by unfold fcTickMax at *; omega)
  refine kept_core k (fun k => k) (fun c => ?_) (fun k => k) rfl (Nat.le_refl _) (Nat.le_refl _)
  rw [clocksWf_iff] at c ⊢
  exact ⟨c.1, c.2.1, (by show s.sub + 1 ≤ 4; omega), c.2.2.2⟩

theorem execSubTick_answers (s : State) : Answers s (execSubTick s) := by
  have h := Kept.refl s
  unfold execSubTick
  split
  · exact Answers.next h
  · rename_i hs
    have k := nextSubTick_kept h (by omega)
    exact answers_ite (Answers.next k) (Answers.next (foldl_kept (fun _ _ k => subTickLoop_kept _ k) _ k))

theorem loopCmd_kept {s₀ s : State} (n op : Nat) (hK : Kept s₀ s) : Kept s₀ (loopCmd s n op) := by
  unfold loopCmd
  repeat' first
    | with_reducible first
      | assumption | intro _ | apply setFs_kept | apply mapLoop_kept | apply kept_ite
    | dsimp only | split | fail_if_no_progress with_reducible refine kept_mk ?_ rfl ?_ ?_ ?_ rfl | exact Nat.le_refl _ | exact Nat.zero_le _

theorem execLoopDisable_answers (s : State) (n : Fin 4096) : Answers s (execLoopDisable n s) := by
  have hK := Kept.refl s
  unfold execLoopDisable
  repeat' first
    | with_reducible first
      | assumption | apply loopCmd_kept | apply Answers.next
    | dsimp only

theorem execLoopManual_answers (s : State) (n : Fin 4096) : Answers s (execLoopManual n s) := by
  have hK := Kept.refl s
  unfold execLoopManual
  repeat' first
    | with_reducible first
      | assumption | apply loopCmd_kept | apply Answers.next
    | dsimp only

theorem execLoopAuto_answers (s : State) (n : Fin 4096) : Answers s (execLoopAuto n s) := by
  have hK := Kept.refl s
  unfold execLoopAuto
  repeat' first
    | with_reducible first
      | assumption | apply loopCmd_kept | apply Answers.next
    | dsimp only

theorem execLoopClearStats_answers (s : State) (n : Fin 4096) : Answers s (execLoopClearStats n s) := by
  have hK := Kept.refl s
  unfold execLoopClearStats
  repeat' first
    | with_reducible first
      | assumption | apply loopCmd_kept | apply Answers.next
    | dsimp only

theorem manualWrite_kept {s₀ s : State} (n : Nat) (v : Int) (hK : Kept s₀ s) : Kept s₀ (manualWrite s n v) := by
  unfold manualWrite
  repeat' first
    | with_reducible first
      | assumption | intro _ | apply mapLoop_kept
    | dsimp only | split | fail_if_no_progress with_reducible refine kept_mk ?_ rfl ?_ ?_ ?_ rfl | exact Nat.le_refl _ | exact Nat.zero_le _

theorem execLpManualWrite_answers (s : State) (n : Fin 4096) (v : BitVec 16) : Answers s (execLpManualWrite n v s) := by
  have hK := Kept.refl s
  unfold execLpManualWrite
  repeat' first
    | with_reducible first
      | assumption | apply manualWrite_kept | apply Answers.next
    | dsimp only

theorem loopsMode_kept {s₀ s : State} (mode : Nat) (hK : Kept s₀ s) : Kept s₀ (loopsMode s mode) := by
  unfold loopsMode
  repeat' first
    | with_reducible first
      | assumption | intro _ | apply kept_ite
    | dsimp only | split | fail_if_no_progress with_reducible refine kept_mk ?_ rfl ?_ ?_ ?_ rfl | exact Nat.le_refl _ | exact Nat.zero_le _

theorem loopsStepped_kept {s₀ s : State} (h : Kept s₀ s) : Kept s₀ (loopsStepped s) := by
  refine kept_core h (fun k => k) (fun c => ?_) (fun k => k) rfl (Nat.le_refl _) (Nat.le_refl _)
  rw [clocksWf_iff] at c ⊢
  exact ⟨c.1, c.2.1, Nat.min_le_left _ _, c.2.2.2⟩

theorem execLoopResume_answers (s : State) (n : Fin 4096) : Answers s (execLoopResume n s) := by
  have hK := Kept.refl s
  unfold execLoopResume
  repeat' first
    | with_reducible first
      | assumption | intro _ | apply setLoop_kept | apply kept_ite | apply Answers.next | apply answers_ite
    | dsimp only | split | fail_if_no_progress with_reducible refine kept_mk ?_ rfl ?_ ?_ ?_ rfl | exact Nat.le_refl _ | exact Nat.zero_le _

theorem recomputeLoops_kept {s₀ s : State} (hK : Kept s₀ s) : Kept s₀ (recomputeLoops s) := by
  unfold recomputeLoops
  repeat' first
    | with_reducible first
      | assumption | intro _ | apply setFs_kept | apply foldl_kept | apply foldl_pair_kept
    | dsimp only | split

theorem commitLoop_kept {s₀ s : State} (d : LoopDef) (hK : Kept s₀ s) : Kept s₀ (commitLoop s d) := by
  unfold commitLoop
  repeat' first
    | with_reducible first
      | assumption | intro _ | apply setLoop_kept
    | dsimp only | split

end Sys2Proof.Machine
end

