-- ==== Sys2Proof/Laws/KeptGovernor.lean ====
section
/-! SUPPORT. Laws/KeptGovernor.lean: what the operations of Machine/Governor.lean keep. -/

namespace Sys2Proof.Machine

set_option linter.unusedTactic false
set_option linter.unreachableTactic false

theorem mapPw_kept {s₀ s : State} (f : PwState → PwState) (hK : Kept s₀ s) : Kept s₀ (mapPw s f) := by
  unfold mapPw
  repeat' first
    | with_reducible first
      | assumption
    | dsimp only | fail_if_no_progress with_reducible refine kept_mk ?_ rfl ?_ ?_ ?_ rfl | exact Nat.le_refl _ | exact Nat.zero_le _

theorem govRequest_kept {s₀ s : State} (o : GovOp) (hK : Kept s₀ s) : Kept s₀ (govRequest s o) := by
  unfold govRequest
  repeat' first
    | with_reducible first
      | assumption | intro _ | apply mapPw_kept
    | dsimp only | split | fail_if_no_progress with_reducible refine kept_mk ?_ rfl ?_ ?_ ?_ rfl | exact Nat.le_refl _ | exact Nat.zero_le _

theorem govWithdraw_kept {s₀ s : State} (o : GovOp) (hK : Kept s₀ s) : Kept s₀ (govWithdraw s o) := by
  unfold govWithdraw
  repeat' first
    | with_reducible first
      | assumption | intro _ | apply mapPw_kept
    | dsimp only | split | fail_if_no_progress with_reducible refine kept_mk ?_ rfl ?_ ?_ ?_ rfl | exact Nat.le_refl _ | exact Nat.zero_le _

theorem pegReturn_kept {s₀ s : State} (o : GovOp) (hK : Kept s₀ s) : Kept s₀ (pegReturn s o) := by
  unfold pegReturn
  repeat' first
    | with_reducible first
      | assumption | intro _ | apply setF_kept | apply mapPw_kept | apply kept_ite
    | dsimp only | split | fail_if_no_progress with_reducible refine kept_mk ?_ rfl ?_ ?_ ?_ rfl | exact Nat.le_refl _ | exact Nat.zero_le _

theorem govTake_kept {s₀ s : State} (r : GovReq) (hK : Kept s₀ s) : Kept s₀ (govTake s r) := by
  unfold govTake
  repeat' first
    | with_reducible first
      | assumption | intro _ | apply maxF_kept | apply setF_kept | apply mapPw_kept
    | dsimp only | split | fail_if_no_progress with_reducible refine kept_mk ?_ rfl ?_ ?_ ?_ rfl | exact Nat.le_refl _ | exact Nat.zero_le _

theorem grantNow_kept {s₀ s : State} (o : GovOp) (hK : Kept s₀ s) : Kept s₀ (grantNow s o).1 := by
  unfold grantNow
  repeat' first
    | with_reducible first
      | assumption | intro _ | apply govRequest_kept | apply govTake_kept | apply kept_ite
    | dsimp only | split

theorem grantNow_eq_kept {s₀ s : State} {o : GovOp} {u₁ : State} {out : Bool} (he : grantNow s o = (u₁, out)) (hK : Kept s₀ s) : Kept s₀ u₁
    := by
  have := grantNow_kept (s₀ := s₀) (hK := hK) (s := s) (o := o); rw [he] at this; exact this

theorem withGrant_kept {s₀ s : State} (o : GovOp) (f : State → State) (hK : Kept s₀ s) (hKf : ∀ x, Kept s₀ x → Kept s₀ (f x)) : Kept s₀
    (withGrant s o f) := by
  unfold withGrant
  repeat' first
    | with_reducible first
      | assumption | intro _ | apply hKf | apply pegReturn_kept | apply grantNow_kept | refine grantNow_eq_kept (by assumption) ?_ | apply kept_ite
    | dsimp only | split

theorem execPegAgeing_answers (s : State) (i : Fin 64) : Answers s (execPegAgeing i s) := by
  have hK := Kept.refl s
  unfold execPegAgeing
  repeat' first
    | with_reducible first
      | assumption | intro _ | apply incSatF_kept | apply mapPw_kept | apply kept_ite | apply Answers.next | apply answers_ite
    | dsimp only | split | fail_if_no_progress with_reducible refine kept_mk ?_ rfl ?_ ?_ ?_ rfl | exact Nat.le_refl _ | exact Nat.zero_le _

theorem execGovAudit_answers (s : State) : Answers s (execGovAudit s) := by
  have hK := Kept.refl s
  unfold execGovAudit
  repeat' first
    | with_reducible first
      | assumption | apply latchF_kept | apply raise_kept | apply takeOffset_kept | refine takeOffset_eq_kept (by assumption) ?_ | apply kept_ite
      | apply Answers.next | apply answers_ite
    | dsimp only | split

end Sys2Proof.Machine
end

