-- ==== Sys2Proof/Laws/KeptMetering.lean ====
section
/-! SUPPORT. Laws/KeptMetering.lean: what the operations of Machine/Metering.lean keep. -/

namespace Sys2Proof.Machine

set_option linter.unusedTactic false
set_option linter.unreachableTactic false

theorem setVs_kept {s₀ s : State} (n : Nat) (v : VsState) (hK : Kept s₀ s) : Kept s₀ (setVs s n v) := by
  unfold setVs
  repeat' first
    | with_reducible first
      | assumption
    | dsimp only | fail_if_no_progress with_reducible refine kept_mk ?_ rfl ?_ ?_ ?_ rfl | exact Nat.le_refl _ | exact Nat.zero_le _

theorem setCirc_kept {s₀ s : State} (c : Nat) (x : Circ) (hK : Kept s₀ s) : Kept s₀ (setCirc s c x) := by
  unfold setCirc
  repeat' first
    | with_reducible first
      | assumption
    | dsimp only | fail_if_no_progress with_reducible refine kept_mk ?_ rfl ?_ ?_ ?_ rfl | exact Nat.le_refl _ | exact Nat.zero_le _

theorem setAcc_kept {s₀ s : State} (c a : Nat) (x : Acc13) (hK : Kept s₀ s) : Kept s₀ (setAcc s c a x) := by
  unfold setAcc
  repeat' first
    | with_reducible first
      | assumption
    | dsimp only | fail_if_no_progress with_reducible refine kept_mk ?_ rfl ?_ ?_ ?_ rfl | exact Nat.le_refl _ | exact Nat.zero_le _

theorem setVig_kept {s₀ s : State} (c : Nat) (v : Vig) (hK : Kept s₀ s) : Kept s₀ (setVig s c v) := by
  unfold setVig
  repeat' first
    | with_reducible first
      | assumption
    | dsimp only | fail_if_no_progress with_reducible refine kept_mk ?_ rfl ?_ ?_ ?_ rfl | exact Nat.le_refl _ | exact Nat.zero_le _

theorem meWrite_kept {s₀ s : State} (ident i : Nat) (v : Word) (q : Wq) (hK : Kept s₀ s) : Kept s₀ (meWrite s ident i v q) := by
  unfold meWrite
  repeat' first
    | with_reducible first
      | assumption | apply writerWrite_kept | apply kept_ite
    | dsimp only | split | fail_if_no_progress with_reducible refine kept_mk ?_ rfl ?_ ?_ ?_ rfl | exact Nat.le_refl _ | exact Nat.zero_le _

theorem writeQ_kept {s₀ s : State} (d : CircDef) (q : Nat) (v : Word) (wq : Wq) (hK : Kept s₀ s) : Kept s₀ (writeQ s d q v wq) := by
  unfold writeQ
  repeat' first
    | with_reducible first
      | assumption | apply meWrite_kept | apply kept_ite
    | dsimp only | split

theorem stepChans_kept {s₀ s : State} (n : Nat) (d : SetCycle) (hK : Kept s₀ s) : Kept s₀ (stepChans s n d) := by
  unfold stepChans
  repeat' first
    | with_reducible first
      | assumption | intro _ | apply foldl_kept | apply foldl_pair_kept
    | dsimp only | split | fail_if_no_progress with_reducible refine kept_mk ?_ rfl ?_ ?_ ?_ rfl | exact Nat.le_refl _ | exact Nat.zero_le _

theorem addQuanta_kept {s₀ s : State} (c a x : Nat) (hK : Kept s₀ s) : Kept s₀ (addQuanta s c a x) := by
  unfold addQuanta
  repeat' first
    | with_reducible first
      | assumption | intro _ | apply setAcc_kept | apply foldl_kept | apply foldl_pair_kept
    | dsimp only | split | fail_if_no_progress with_reducible refine kept_mk ?_ rfl ?_ ?_ ?_ rfl | exact Nat.le_refl _ | exact Nat.zero_le _
    | exact List.length_filter_le _ _ | (apply Nat.le_of_eq; simp; done) | (simp; done) | (rw [(by assumption : _ = _ :: _)]; exact Nat.le_refl _)

theorem addGroup_kept {s₀ s : State} (c : Nat) (e r va : Rat) (hK : Kept s₀ s) : Kept s₀ (addGroup s c e r va) := by
  unfold addGroup
  repeat' first
    | with_reducible first
      | assumption | apply addQuanta_kept | apply kept_ite
    | dsimp only | split

theorem addCycle_kept {s₀ s : State} (d : CircDef) (ps : List PhaseCycle) (hK : Kept s₀ s) : Kept s₀ (addCycle s d ps) := by
  unfold addCycle
  repeat' first
    | with_reducible first
      | assumption | intro _ | apply incF_kept | apply addGroup_kept | apply kept_ite | apply foldl_kept | apply foldl_pair_kept
    | dsimp only | split

theorem resetIntervals_kept {s₀ s : State} (c : Nat) (hK : Kept s₀ s) : Kept s₀ (resetIntervals s c) := by
  unfold resetIntervals
  repeat' first
    | with_reducible first
      | assumption | intro _ | apply logEvent_kept | apply setFs_kept | apply takeAsk_kept | apply setAcc_kept | apply kept_ite | apply foldl_kept
      | apply foldl_pair_kept
    | dsimp only | split | fail_if_no_progress with_reducible refine kept_mk ?_ rfl ?_ ?_ ?_ rfl | exact Nat.le_refl _ | exact Nat.zero_le _

theorem ledgerRecord_kept {s₀ s : State} (hK : Kept s₀ s) : Kept s₀ (ledgerRecord s) := by
  unfold ledgerRecord
  repeat' first
    | with_reducible first
      | assumption | apply kept_ite
    | dsimp only | split | fail_if_no_progress with_reducible refine kept_mk ?_ rfl ?_ ?_ ?_ rfl | exact Nat.le_refl _ | exact Nat.zero_le _

theorem closeLedger_kept {s₀ s : State} (d : CircDef) (tick : Nat) (hK : Kept s₀ s) : Kept s₀ (closeLedger s d tick) := by
  unfold closeLedger
  repeat' first
    | with_reducible first
      | assumption | intro _ | apply ledgerRecord_kept
    | dsimp only | split | fail_if_no_progress with_reducible refine kept_mk ?_ rfl ?_ ?_ ?_ rfl | exact Nat.le_refl _ | exact Nat.zero_le _
    | exact List.length_filter_le _ _ | (apply Nat.le_of_eq; simp; done) | (simp; done) | (rw [(by assumption : _ = _ :: _)]; exact Nat.le_refl _)

theorem updCircuits_kept {s₀ s : State} (hK : Kept s₀ s) : Kept s₀ (updCircuits s) := by
  unfold updCircuits
  repeat' first
    | with_reducible first
      | assumption | intro _ | apply setF_kept | apply foldl_kept | apply foldl_pair_kept
    | dsimp only | split

theorem applyNext_kept {s₀ s : State} (c : Nat) (n : CircNext) (hK : Kept s₀ s) : Kept s₀ (applyNext s c n) := by
  unfold applyNext
  repeat' first
    | with_reducible first
      | assumption | intro _ | apply setCirc_kept | apply closeLedger_kept | apply updCircuits_kept | apply kept_ite
    | dsimp only | split | fail_if_no_progress with_reducible refine kept_mk ?_ rfl ?_ ?_ ?_ rfl | exact Nat.le_refl _ | exact Nat.zero_le _

theorem commitCircuit_kept {s₀ s : State} (c : Nat) (d : Option CircDef) (hK : Kept s₀ s) : Kept s₀ (commitCircuit s c d) := by
  unfold commitCircuit
  repeat' first
    | with_reducible first
      | assumption | intro _ | apply setCirc_kept | apply applyNext_kept | apply kept_ite
    | dsimp only | split | fail_if_no_progress with_reducible refine kept_mk ?_ rfl ?_ ?_ ?_ rfl | exact Nat.le_refl _ | exact Nat.zero_le _

theorem restoreCircuit_kept {s₀ s : State} (c : Nat) (d : CircDef) (hK : Kept s₀ s) : Kept s₀ (restoreCircuit s c d) := by
  unfold restoreCircuit
  repeat' first
    | with_reducible first
      | assumption | intro _ | apply setCirc_kept | apply updCircuits_kept | apply commitCircuit_kept | apply kept_ite
    | dsimp only | split

theorem overrange_kept {s₀ s : State} (i : Nat) (hK : Kept s₀ s) : Kept s₀ (overrange s i) := by
  unfold overrange
  repeat' first
    | with_reducible first
      | assumption | apply incSatF_kept | apply setF_kept | apply raise_kept
    | dsimp only

theorem countPart_kept {s₀ s : State} (v : VsCfg) (d : SetCycle) (dur : Rat) (c a b : Nat) (hK : Kept s₀ s) : Kept s₀ (countPart s v d dur c
    a b) := by
  unfold countPart
  repeat' first
    | with_reducible first
      | assumption | intro _ | apply setCirc_kept | apply addCycle_kept | apply kept_ite | apply foldl_kept | apply foldl_pair_kept
    | dsimp only | split | fail_if_no_progress with_reducible refine kept_mk ?_ rfl ?_ ?_ ?_ rfl | exact Nat.le_refl _ | exact Nat.zero_le _

theorem cycleParts_kept {s₀ s : State} (v : VsCfg) (d : SetCycle) (dur : Rat) (c a : Nat) (l : List CircNext) (h : Kept s₀ s) :
    Kept s₀ (cycleParts s v d dur c a l) := by
  induction l generalizing s a with
  | nil => exact countPart_kept _ _ _ _ _ _ h
  | cons n ns ih => exact ih _ (applyNext_kept _ _ (countPart_kept _ _ _ _ _ _ h))

theorem cycleCircuit_kept {s₀ s : State} (v : VsCfg) (d : SetCycle) (dur : Rat) (c : Nat) (hK : Kept s₀ s) : Kept s₀ (cycleCircuit s v d dur
    c) := by
  unfold cycleCircuit
  repeat' first
    | with_reducible first
      | assumption | intro _ | apply setCirc_kept | apply resetIntervals_kept | apply cycleParts_kept | apply kept_ite
    | dsimp only | split | fail_if_no_progress with_reducible refine kept_mk ?_ rfl ?_ ?_ ?_ rfl | exact Nat.le_refl _ | exact Nat.zero_le _

theorem cycleCircuits_kept {s₀ s : State} (n : Nat) (v : VsCfg) (d : SetCycle) (dur : Rat) (hK : Kept s₀ s) : Kept s₀ (cycleCircuits s n v d
    dur) := by
  unfold cycleCircuits
  repeat' first
    | with_reducible first
      | assumption | intro _ | apply cycleCircuit_kept | apply foldl_kept | apply foldl_pair_kept
    | dsimp only | split

theorem takeOverranges_kept {s₀ s : State} (n : Nat) (d : SetCycle) (hK : Kept s₀ s) : Kept s₀ (takeOverranges s n d) := by
  unfold takeOverranges
  repeat' first
    | with_reducible first
      | assumption | intro _ | apply overrange_kept | apply foldl_kept | apply foldl_pair_kept
    | dsimp only

theorem useOverrange_kept {s₀ : State} (s0 : State) {s : State} (n : Nat) (hK : Kept s₀ s) : Kept s₀ (useOverrange s0 s n) := by
  unfold useOverrange
  repeat' first
    | with_reducible first
      | assumption | intro _ | apply useForce_kept | apply kept_ite
    | dsimp only | split

theorem writeUnlocked_kept {s₀ s : State} (n : Nat) (hK : Kept s₀ s) : Kept s₀ (writeUnlocked s n) := by
  unfold writeUnlocked
  repeat' first
    | with_reducible first
      | assumption | intro _ | apply writeQ_kept | apply kept_ite | apply foldl_kept | apply foldl_pair_kept
    | dsimp only | split

theorem writePhase_kept {s₀ s : State} (x : Circ) (p : Nat) (a : AggPhase) (hK : Kept s₀ s) : Kept s₀ (writePhase s x p a) := by
  unfold writePhase
  repeat' first
    | with_reducible first
      | assumption | apply writeQ_kept | apply kept_ite
    | dsimp only | split

theorem aggCircuit_kept {s₀ s : State} (n c : Nat) (hK : Kept s₀ s) : Kept s₀ (aggCircuit s n c) := by
  unfold aggCircuit
  repeat' first
    | with_reducible first
      | assumption | intro _ | apply setCirc_kept | apply writeQ_kept | apply writePhase_kept | apply kept_ite | apply foldl_kept
      | apply foldl_pair_kept
    | dsimp only | split | fail_if_no_progress with_reducible refine kept_mk ?_ rfl ?_ ?_ ?_ rfl | exact Nat.le_refl _ | exact Nat.zero_le _

theorem showHarmonic_kept {s₀ s : State} (n : Nat) (hK : Kept s₀ s) : Kept s₀ (showHarmonic s n) := by
  unfold showHarmonic
  repeat' first
    | with_reducible first
      | assumption | intro _ | apply setF_kept | apply kept_ite
    | dsimp only | split

theorem aggregate_kept {s₀ s : State} (n : Nat) (hK : Kept s₀ s) : Kept s₀ (aggregate s n) := by
  unfold aggregate
  repeat' first
    | with_reducible first
      | assumption | intro _ | apply setF_kept | apply setVs_kept | apply aggCircuit_kept | apply showHarmonic_kept | apply foldl_kept
      | apply foldl_pair_kept
    | dsimp only | split | fail_if_no_progress with_reducible refine kept_mk ?_ rfl ?_ ?_ ?_ rfl | exact Nat.le_refl _ | exact Nat.zero_le _

theorem execAggregationEnd_answers (s : State) (n : Fin 4) (dft harmonic : Unit) : Answers s (execAggregationEnd n dft harmonic s) := by
  have hK := Kept.refl s
  unfold execAggregationEnd
  repeat' first
    | with_reducible first
      | assumption | apply aggregate_kept | apply kept_ite | apply Answers.next | apply answers_ite
    | dsimp only | split

theorem endSet_kept {s₀ s : State} (n : Nat) (ref : Option Nat) (locked : Bool) (dur : Rat) (cs : List Rat) (hK : Kept s₀ s) : Kept s₀
    (endSet s n ref locked dur cs) := by
  unfold endSet
  repeat' first
    | with_reducible first
      | assumption | intro _ | apply setFs_kept | apply setVs_kept | apply writeUnlocked_kept | apply kept_ite
    | dsimp only | split | fail_if_no_progress with_reducible refine kept_mk ?_ rfl ?_ ?_ ?_ rfl | exact Nat.le_refl _ | exact Nat.zero_le _

theorem calCycle_kept {s₀ s : State} (n : Nat) (d : SetCycle) (hK : Kept s₀ s) : Kept s₀ (calCycle s n d) := by
  unfold calCycle
  repeat' first
    | with_reducible first
      | assumption | apply kept_ite
    | dsimp only | split | fail_if_no_progress with_reducible refine kept_mk ?_ rfl ?_ ?_ ?_ rfl | exact Nat.le_refl _ | exact Nat.zero_le _

theorem takeRate_kept {s₀ s : State} (hK : Kept s₀ s) : Kept s₀ (takeRate s) := by
  unfold takeRate
  repeat' first
    | with_reducible first
      | assumption | apply setFs_kept | apply kept_ite
    | dsimp only | split

theorem execLineCycleEnd_answers (s : State) (n : Fin 4) (d : SetCycle) : Answers s (execLineCycleEnd n d s) := by
  have hK := Kept.refl s
  unfold execLineCycleEnd
  repeat' first
    | with_reducible first
      | assumption | apply cross_kept | apply setFs_kept | apply pegReturn_kept | apply stepChans_kept | apply cycleCircuits_kept
      | apply takeOverranges_kept | apply useOverrange_kept | apply aggregate_kept | apply endSet_kept | apply calCycle_kept | apply takeRate_kept
      | apply kept_ite | apply Answers.next | apply answers_ite
    | dsimp only | split

theorem closePartial_kept {s₀ s : State} (n : Nat) (d : SetCycle) (hK : Kept s₀ s) : Kept s₀ (closePartial s n d) := by
  unfold closePartial
  repeat' first
    | with_reducible first
      | assumption | apply stepChans_kept | apply cycleCircuits_kept | apply takeOverranges_kept | apply useOverrange_kept
    | dsimp only

theorem writeLedger_kept {s₀ s : State} (d : CircDef) (hK : Kept s₀ s) : Kept s₀ (writeLedger s d) := by
  unfold writeLedger
  repeat' first
    | with_reducible first
      | assumption | intro _ | apply writeQ_kept | apply foldl_kept | apply foldl_pair_kept
    | dsimp only | split

theorem flushOne_kept {s₀ s : State} (h : HeldWrite) (hK : Kept s₀ s) : Kept s₀ (flushOne s h) := by
  unfold flushOne
  repeat' first
    | with_reducible first
      | assumption | intro _ | apply writerWrite_kept
    | dsimp only | split

theorem flushHeld_kept {s₀ s : State} (hK : Kept s₀ s) : Kept s₀ (flushHeld s) := by
  unfold flushHeld
  repeat' first
    | with_reducible first
      | assumption | intro _ | apply flushOne_kept | apply foldl_kept | apply foldl_pair_kept
    | dsimp only | split | fail_if_no_progress with_reducible refine kept_mk ?_ rfl ?_ ?_ ?_ rfl | exact Nat.le_refl _ | exact Nat.zero_le _

theorem writeFreq10_kept {s₀ s : State} (n : Nat) (hK : Kept s₀ s) : Kept s₀ (writeFreq10 s n) := by
  unfold writeFreq10
  repeat' first
    | with_reducible first
      | assumption | intro _ | apply setF_kept | apply setVs_kept | apply writeQ_kept | apply kept_ite | apply foldl_kept | apply foldl_pair_kept
    | dsimp only | split | fail_if_no_progress with_reducible refine kept_mk ?_ rfl ?_ ?_ ?_ rfl | exact Nat.le_refl _ | exact Nat.zero_le _

theorem meTick_kept {s₀ s : State} (hK : Kept s₀ s) : Kept s₀ (meTick s) := by
  unfold meTick
  repeat' first
    | with_reducible first
      | assumption | intro _ | apply writeLedger_kept | apply writeFreq10_kept | apply kept_ite | apply foldl_kept | apply foldl_pair_kept
    | dsimp only | split

theorem setChFault_kept {s₀ s : State} (i : Nat) (hK : Kept s₀ s) : Kept s₀ (setChFault s i) := by
  unfold setChFault
  repeat' first
    | with_reducible first
      | assumption | apply latchF_kept | apply kept_ite
    | dsimp only | split

theorem modFail_kept {s₀ s : State} (i : Nat) (hK : Kept s₀ s) : Kept s₀ (modFail s i) := by
  unfold modFail
  repeat' first
    | with_reducible first
      | assumption | apply raise_kept | apply setChFault_kept | apply kept_ite
    | dsimp only | split | fail_if_no_progress with_reducible refine kept_mk ?_ rfl ?_ ?_ ?_ rfl | exact Nat.le_refl _ | exact Nat.zero_le _

theorem execModulatorFail_answers (s : State) (i : Fin 60) : Answers s (execModulatorFail i s) := by
  have hK := Kept.refl s
  unfold execModulatorFail
  repeat' first
    | with_reducible first
      | assumption | apply modFail_kept | apply Answers.next
    | dsimp only

theorem execModulatorRecovery_answers (s : State) (i : Fin 60) : Answers s (execModulatorRecovery i s) := by
  have hK := Kept.refl s
  unfold execModulatorRecovery
  repeat' first
    | with_reducible first
      | assumption | apply Answers.next
    | dsimp only | fail_if_no_progress with_reducible refine kept_mk ?_ rfl ?_ ?_ ?_ rfl | exact Nat.le_refl _ | exact Nat.zero_le _

theorem showEvents_kept {s₀ s : State} (n : Nat) (hK : Kept s₀ s) : Kept s₀ (showEvents s n) := by
  unfold showEvents
  repeat' first
    | with_reducible first
      | assumption | intro _ | apply setFs_kept | apply writeQ_kept | apply kept_ite | apply foldl_kept | apply foldl_pair_kept
    | dsimp only | split

theorem closeEvent_kept {s₀ s : State} (n : Nat) (e : OpenEv) (cause : Nat) (hK : Kept s₀ s) : Kept s₀ (closeEvent s n e cause) := by
  unfold closeEvent
  repeat' first
    | with_reducible first
      | assumption | intro _ | apply incF_kept | apply incSatF_kept | apply logEvent_kept | apply writeQ_kept | apply kept_ite | apply foldl_kept
      | apply foldl_pair_kept
    | dsimp only | split | fail_if_no_progress with_reducible refine kept_mk ?_ rfl ?_ ?_ ?_ rfl | exact Nat.le_refl _ | exact Nat.zero_le _

theorem closeEvents_kept {s₀ s : State} (n cause : Nat) (hK : Kept s₀ s) : Kept s₀ (closeEvents s n cause) := by
  unfold closeEvents
  repeat' first
    | with_reducible first
      | assumption | intro _ | apply setVs_kept | apply showEvents_kept | apply closeEvent_kept | apply kept_ite
    | dsimp only | split | fail_if_no_progress with_reducible refine kept_mk ?_ rfl ?_ ?_ ?_ rfl | exact Nat.le_refl _ | exact Nat.zero_le _

theorem execUrmsRefresh_answers (s : State) (n : Fin 4) (u2 : List Rat) : Answers s (execUrmsRefresh n u2 s) := by
  have hK := Kept.refl s
  unfold execUrmsRefresh
  repeat' first
    | with_reducible first
      | assumption | intro _ | apply setVs_kept | apply showEvents_kept | apply closeEvent_kept | apply kept_ite | apply Answers.next
      | apply answers_ite
    | dsimp only | split | fail_if_no_progress with_reducible refine kept_mk ?_ rfl ?_ ?_ ?_ rfl | exact Nat.le_refl _ | exact Nat.zero_le _

theorem evSel_kept {s₀ s : State} (vset entry : Nat) (hK : Kept s₀ s) : Kept s₀ (evSel s vset entry) := by
  unfold evSel
  repeat' first
    | with_reducible first
      | assumption | intro _ | apply setF_kept | apply setFs_kept | apply foldl_kept | apply foldl_pair_kept
    | dsimp only | split | fail_if_no_progress with_reducible refine kept_mk ?_ rfl ?_ ?_ ?_ rfl | exact Nat.le_refl _ | exact Nat.zero_le _

theorem execMtEvSelWrite_answers (s : State) (vset : Fin 4) (entry : Fin 256) : Answers s (execMtEvSelWrite vset entry s) := by
  have hK := Kept.refl s
  unfold execMtEvSelWrite
  repeat' first
    | with_reducible first
      | assumption | apply evSel_kept | apply Answers.next
    | dsimp only

theorem setPulse_kept {s₀ s : State} (k : Nat) (p : Pulse) (hK : Kept s₀ s) : Kept s₀ (setPulse s k p) := by
  unfold setPulse
  repeat' first
    | with_reducible first
      | assumption
    | dsimp only | fail_if_no_progress with_reducible refine kept_mk ?_ rfl ?_ ?_ ?_ rfl | exact Nat.le_refl _ | exact Nat.zero_le _

theorem execPulseEmit_answers (s : State) (k : Fin 8) : Answers s (execPulseEmit k s) := by
  have hK := Kept.refl s
  unfold execPulseEmit
  repeat' first
    | with_reducible first
      | assumption | apply incF_kept | apply startTime_kept | apply setPulse_kept | apply kept_ite | apply Answers.next | apply answers_ite
    | dsimp only | split | fail_if_no_progress with_reducible refine kept_mk ?_ rfl ?_ ?_ ?_ rfl | exact Nat.le_refl _ | exact Nat.zero_le _
    | exact List.length_filter_le _ _ | (apply Nat.le_of_eq; simp; done) | (simp; done) | (rw [(by assumption : _ = _ :: _)]; exact Nat.le_refl _)

theorem pulseSourced_kept {s₀ s : State} (k : Nat) (hK : Kept s₀ s) : Kept s₀ (pulseSourced s k) := by
  unfold pulseSourced
  repeat' first
    | with_reducible first
      | assumption
    | dsimp only | fail_if_no_progress with_reducible refine kept_mk ?_ rfl ?_ ?_ ?_ rfl | exact Nat.le_refl _ | exact Nat.zero_le _
    | exact List.length_filter_le _ _ | (apply Nat.le_of_eq; simp; done) | (simp; done) | (rw [(by assumption : _ = _ :: _)]; exact Nat.le_refl _)

theorem execPulseEnd_answers (s : State) (k : Fin 8) : Answers s (execPulseEnd k s) := by
  have hK := Kept.refl s
  unfold execPulseEnd
  repeat' first
    | with_reducible first
      | assumption | apply setPulse_kept | apply kept_ite | apply Answers.next | apply answers_ite
    | dsimp only | split

theorem sillCkpt_kept {s₀ s : State} (ok : Bool) (hK : Kept s₀ s) : Kept s₀ (sillCkpt s ok) := by
  unfold sillCkpt
  repeat' first
    | with_reducible first
      | assumption | intro _ | apply latchF_kept | apply setF_kept | apply kept_ite
    | dsimp only | split | fail_if_no_progress with_reducible refine kept_mk ?_ rfl ?_ ?_ ?_ rfl | exact Nat.le_refl _ | exact Nat.zero_le _

theorem checkpoint_kept {s₀ s : State} (ok : Bool) (hK : Kept s₀ s) : Kept s₀ (checkpoint s ok) := by
  unfold checkpoint
  repeat' first
    | with_reducible first
      | assumption | apply sillCkpt_kept | apply kept_ite
    | dsimp only | split | fail_if_no_progress with_reducible refine kept_mk ?_ rfl ?_ ?_ ?_ rfl | exact Nat.le_refl _ | exact Nat.zero_le _

theorem execLedgerCheckpoint_answers (s : State) (ok : Bool) : Answers s (execLedgerCheckpoint ok s) := by
  have hK := Kept.refl s
  unfold execLedgerCheckpoint
  repeat' first
    | with_reducible first
      | assumption | apply checkpoint_kept | apply kept_ite | apply Answers.next | apply answers_ite
    | dsimp only | split

theorem nandCkpt_kept {s₀ s : State} (ok : Bool) (hK : Kept s₀ s) : Kept s₀ (nandCkpt s ok) := by
  unfold nandCkpt
  repeat' first
    | with_reducible first
      | assumption | intro _ | apply latchF_kept | apply setF_kept | apply ledgerRecord_kept | apply kept_ite
    | dsimp only | split | fail_if_no_progress with_reducible refine kept_mk ?_ rfl ?_ ?_ ?_ rfl | exact Nat.le_refl _ | exact Nat.zero_le _

theorem askCkpt_kept {s₀ s : State} (ok : Bool) (hK : Kept s₀ s) : Kept s₀ (askCkpt s ok) := by
  unfold askCkpt
  repeat' first
    | with_reducible first
      | assumption | apply pegReturn_kept | apply grantNow_kept | refine grantNow_eq_kept (by assumption) ?_ | apply nandCkpt_kept | apply kept_ite
    | dsimp only | split | fail_if_no_progress with_reducible refine kept_mk ?_ rfl ?_ ?_ ?_ rfl | exact Nat.le_refl _ | exact Nat.zero_le _

theorem execNandCheckpoint_answers (s : State) (ok : Bool) : Answers s (execNandCheckpoint ok s) := by
  have hK := Kept.refl s
  unfold execNandCheckpoint
  repeat' first
    | with_reducible first
      | assumption | apply askCkpt_kept | apply kept_ite | apply Answers.next | apply answers_ite
    | dsimp only | split

theorem lgFields_kept {s₀ s : State} (c op result : Nat) (busy : Bool) (hK : Kept s₀ s) : Kept s₀ (lgFields s c op result busy) := by
  unfold lgFields
  repeat' first
    | with_reducible first
      | assumption | apply setFs_kept
    | dsimp only

theorem writeVigil_kept {s₀ s : State} (c : Nat) (hK : Kept s₀ s) : Kept s₀ (writeVigil s c) := by
  unfold writeVigil
  repeat' first
    | with_reducible first
      | assumption | intro _ | apply writeQ_kept
    | dsimp only | split

theorem lgCmd_kept {s₀ s : State} (c op : Nat) (hK : Kept s₀ s) : Kept s₀ (lgCmd s c op) := by
  unfold lgCmd
  repeat' first
    | with_reducible first
      | assumption | intro _ | apply askAgain_kept | apply setVig_kept | apply askCkpt_kept | apply lgFields_kept | apply writeVigil_kept
      | apply kept_ite
    | dsimp only | split | fail_if_no_progress with_reducible refine kept_mk ?_ rfl ?_ ?_ ?_ rfl | exact Nat.le_refl _ | exact Nat.zero_le _

theorem execLgNandCheckpoint_answers (s : State) : Answers s (execLgNandCheckpoint s) := by
  have hK := Kept.refl s
  unfold execLgNandCheckpoint
  repeat' first
    | with_reducible first
      | assumption | apply lgCmd_kept | apply Answers.next
    | dsimp only

theorem execResetInt_answers (s : State) (c : Fin 16) : Answers s (execResetInt c s) := by
  have hK := Kept.refl s
  unfold execResetInt
  repeat' first
    | with_reducible first
      | assumption | apply lgCmd_kept | apply Answers.next
    | dsimp only

theorem execLgClearVigil_answers (s : State) (c : Fin 16) : Answers s (execLgClearVigil c s) := by
  have hK := Kept.refl s
  unfold execLgClearVigil
  repeat' first
    | with_reducible first
      | assumption | apply lgCmd_kept | apply Answers.next
    | dsimp only

theorem readAccInt_kept {s₀ s : State} (q : Requester) (c a : Nat) (hK : Kept s₀ s) : Kept s₀ (readAccInt s q c a) := by
  unfold readAccInt
  repeat' first
    | with_reducible first
      | assumption | apply setReply_kept
    | dsimp only | fail_if_no_progress with_reducible refine kept_mk ?_ rfl ?_ ?_ ?_ rfl | exact Nat.le_refl _ | exact Nat.zero_le _

theorem readAccHi_kept {s₀ s : State} (q : Requester) (c a : Nat) (hK : Kept s₀ s) : Kept s₀ (readAccHi s q c a) := by
  unfold readAccHi
  repeat' first
    | with_reducible first
      | assumption | apply setReply_kept
    | dsimp only | fail_if_no_progress with_reducible refine kept_mk ?_ rfl ?_ ?_ ?_ rfl | exact Nat.le_refl _ | exact Nat.zero_le _

theorem execLgAIntRead_answers (s : State) (q : Requester) (c : Fin 16) (a : Fin 8) : Answers s (execLgAIntRead q c a s) := by
  have hK := Kept.refl s
  unfold execLgAIntRead
  repeat' first
    | with_reducible first
      | assumption | apply readAccInt_kept | apply Answers.next
    | dsimp only

theorem execLgATotHiRead_answers (s : State) (q : Requester) (c : Fin 16) (a : Fin 8) : Answers s (execLgATotHiRead q c a s) := by
  have hK := Kept.refl s
  unfold execLgATotHiRead
  repeat' first
    | with_reducible first
      | assumption | apply readAccHi_kept | apply Answers.next
    | dsimp only

theorem wrapWrite_kept {s₀ s : State} (c a v : Nat) (hK : Kept s₀ s) : Kept s₀ (wrapWrite s c a v) := by
  unfold wrapWrite
  repeat' first
    | with_reducible first
      | assumption | apply setAcc_kept
    | dsimp only | fail_if_no_progress with_reducible refine kept_mk ?_ rfl ?_ ?_ ?_ rfl | exact Nat.le_refl _ | exact Nat.zero_le _

theorem execLgWrapWrite_answers (s : State) (c : Fin 16) (a : Fin 8) (v : Fin 256) : Answers s (execLgWrapWrite c a v s) := by
  have hK := Kept.refl s
  unfold execLgWrapWrite
  repeat' first
    | with_reducible first
      | assumption | apply wrapWrite_kept | apply Answers.next
    | dsimp only

theorem auditMark_kept {s₀ s : State} (hK : Kept s₀ s) : Kept s₀ (auditMark s) := by
  unfold auditMark
  repeat' first
    | with_reducible first
      | assumption
    | dsimp only | fail_if_no_progress with_reducible refine kept_mk ?_ rfl ?_ ?_ ?_ rfl | exact Nat.le_refl _ | exact Nat.zero_le _
    | exact List.length_filter_le _ _ | (apply Nat.le_of_eq; simp; done) | (simp; done) | (rw [(by assumption : _ = _ :: _)]; exact Nat.le_refl _)

theorem auditFail_kept {s₀ s : State} (c : Nat) (hK : Kept s₀ s) : Kept s₀ (auditFail s c) := by
  unfold auditFail
  repeat' first
    | with_reducible first
      | assumption | apply latchF_kept | apply raise_kept
    | dsimp only

theorem auditCircuit_kept {s₀ s : State} (c : Nat) (hK : Kept s₀ s) : Kept s₀ (auditCircuit s c) := by
  unfold auditCircuit
  repeat' first
    | with_reducible first
      | assumption | apply takeOffset_kept | refine takeOffset_eq_kept (by assumption) ?_ | apply auditFail_kept | apply kept_ite
    | dsimp only | split

theorem execLedgerAudit_answers (s : State) : Answers s (execLedgerAudit s) := by
  have hK := Kept.refl s
  unfold execLedgerAudit
  repeat' first
    | with_reducible first
      | assumption | intro _ | apply incF_kept | apply auditMark_kept | apply auditCircuit_kept | apply kept_ite | apply foldl_kept
      | apply foldl_pair_kept | apply Answers.next | apply answers_ite
    | dsimp only | split

theorem calGo_kept {s₀ s : State} (hK : Kept s₀ s) : Kept s₀ (calGo s) := by
  unfold calGo
  repeat' first
    | with_reducible first
      | assumption | apply askAgain_kept | apply setF_kept | apply setFs_kept | apply kept_ite
    | dsimp only | split | fail_if_no_progress with_reducible refine kept_mk ?_ rfl ?_ ?_ ?_ rfl | exact Nat.le_refl _ | exact Nat.zero_le _

theorem execCalMeasure_answers (s : State) (input : Fin 64) (vset : Fin 4) (vph : Fin 4) (cycles : Fin 256) : Answers s (execCalMeasure input vset vph
    cycles s) := by
  have hK := Kept.refl s
  unfold execCalMeasure
  repeat' first
    | with_reducible first
      | assumption | apply setFs_kept | apply calGo_kept | apply Answers.next
    | dsimp only

theorem execCalDone_answers (s : State) (results : Unit) : Answers s (execCalDone results s) := by
  have hK := Kept.refl s
  unfold execCalDone
  repeat' first
    | with_reducible first
      | assumption | intro _ | apply setF_kept | apply setFs_kept | apply takeAsk_kept | apply kept_ite | apply foldl_kept | apply foldl_pair_kept
      | apply Answers.next | apply answers_ite
    | dsimp only | split | fail_if_no_progress with_reducible refine kept_mk ?_ rfl ?_ ?_ ?_ rfl | exact Nat.le_refl _ | exact Nat.zero_le _

theorem mtOvrClear_kept {s₀ s : State} (hK : Kept s₀ s) : Kept s₀ (mtOvrClear s) := by
  unfold mtOvrClear
  repeat' first
    | with_reducible first
      | assumption | apply setFs_kept
    | dsimp only

theorem execMtOvrClear_answers (s : State) : Answers s (execMtOvrClear s) := by
  have hK := Kept.refl s
  unfold execMtOvrClear
  repeat' first
    | with_reducible first
      | assumption | apply mtOvrClear_kept | apply Answers.next
    | dsimp only

theorem vigilCircuit_kept {s₀ s : State} (irms2 : List Rat) (c : Nat) (x : Circ) (hK : Kept s₀ s) : Kept s₀ (vigilCircuit s irms2 c x) := by
  unfold vigilCircuit
  repeat' first
    | with_reducible first
      | assumption | intro _ | apply setVig_kept | apply kept_ite
    | dsimp only | split | fail_if_no_progress with_reducible refine kept_mk ?_ rfl ?_ ?_ ?_ rfl | exact Nat.le_refl _ | exact Nat.zero_le _

theorem execVigilWindow_answers (s : State) (irms2 : List Rat) : Answers s (execVigilWindow irms2 s) := by
  have hK := Kept.refl s
  unfold execVigilWindow
  repeat' first
    | with_reducible first
      | assumption | intro _ | apply setFs_kept | apply sillCkpt_kept | apply vigilCircuit_kept | apply kept_ite | apply foldl_kept
      | apply foldl_pair_kept | apply Answers.next | apply answers_ite
    | dsimp only | split | fail_if_no_progress with_reducible refine kept_mk ?_ rfl ?_ ?_ ?_ rfl | exact Nat.le_refl _ | exact Nat.zero_le _

theorem vigilStart_kept {s₀ s : State} (hK : Kept s₀ s) : Kept s₀ (vigilStart s) := by
  unfold vigilStart
  repeat' first
    | with_reducible first
      | assumption
    | dsimp only | fail_if_no_progress with_reducible refine kept_mk ?_ rfl ?_ ?_ ?_ rfl | exact Nat.le_refl _ | exact Nat.zero_le _

theorem loadCkpt_kept {s₀ s : State} (c : Ckpt) (hK : Kept s₀ s) : Kept s₀ (loadCkpt s c) := by
  unfold loadCkpt
  repeat' first
    | with_reducible first
      | assumption | intro _ | apply setFs_kept
    | dsimp only | split | fail_if_no_progress with_reducible refine kept_mk ?_ rfl ?_ ?_ ?_ rfl | exact Nat.le_refl _ | exact Nat.zero_le _
    | exact List.length_filter_le _ _ | (apply Nat.le_of_eq; simp; done) | (simp; done) | (rw [(by assumption : _ = _ :: _)]; exact Nat.le_refl _)

theorem restoreAudit_kept {s₀ s : State} (hK : Kept s₀ s) : Kept s₀ (restoreAudit s) := by
  unfold restoreAudit
  repeat' first
    | with_reducible first
      | assumption | intro _ | apply auditFail_kept | apply kept_ite | apply foldl_kept | apply foldl_pair_kept
    | dsimp only | split

theorem dozeTime_kept {s₀ s : State} (hK : Kept s₀ s) : Kept s₀ (dozeTime s) := by
  unfold dozeTime
  repeat' first
    | with_reducible first
      | assumption | intro _ | apply setF_kept
    | dsimp only | split | fail_if_no_progress with_reducible refine kept_mk ?_ rfl ?_ ?_ ?_ rfl | exact Nat.le_refl _ | exact Nat.zero_le _

theorem restoreLedger_kept {s₀ s : State} (hK : Kept s₀ s) : Kept s₀ (restoreLedger s) := by
  unfold restoreLedger
  repeat' first
    | with_reducible first
      | assumption | intro _ | apply latchF_kept | apply setF_kept | apply loadCkpt_kept | apply restoreAudit_kept | apply dozeTime_kept
      | apply kept_ite
    | dsimp only | split | fail_if_no_progress with_reducible refine kept_mk ?_ rfl ?_ ?_ ?_ rfl | exact Nat.le_refl _ | exact Nat.zero_le _
    | exact List.length_filter_le _ _ | (apply Nat.le_of_eq; simp; done) | (simp; done) | (rw [(by assumption : _ = _ :: _)]; exact Nat.le_refl _)

theorem meReturn_kept {s₀ s : State} (hK : Kept s₀ s) : Kept s₀ (meReturn s) := by
  unfold meReturn
  repeat' first
    | with_reducible first
      | assumption | intro _ | apply logEvent_kept | apply raise_kept | apply flushHeld_kept | apply sillCkpt_kept | apply writeVigil_kept
      | apply kept_ite | apply foldl_kept | apply foldl_pair_kept
    | dsimp only | split | fail_if_no_progress with_reducible refine kept_mk ?_ rfl ?_ ?_ ?_ rfl | exact Nat.le_refl _ | exact Nat.zero_le _

theorem gapSteered_kept {s₀ s : State} (hK : Kept s₀ s) : Kept s₀ (gapSteered s) := by
  unfold gapSteered
  repeat' first
    | with_reducible first
      | assumption | intro _ | apply setFs_kept
    | dsimp only | split | fail_if_no_progress with_reducible refine kept_mk ?_ rfl ?_ ?_ ?_ rfl | exact Nat.le_refl _ | exact Nat.zero_le _

end Sys2Proof.Machine
end

