-- ==== Sys2Proof/Laws/KeptTruss.lean ====
section
/-! SUPPORT. Laws/KeptTruss.lean: what the operations of Machine/Truss.lean keep. -/

namespace Sys2Proof.Machine

set_option linter.unusedTactic false
set_option linter.unreachableTactic false

theorem mapTr_kept {s₀ s : State} (f : TrState → TrState) (hK : Kept s₀ s) : Kept s₀ (mapTr s f) := by
  unfold mapTr
  repeat' first
    | with_reducible first
      | assumption
    | dsimp only | fail_if_no_progress with_reducible refine kept_mk ?_ rfl ?_ ?_ ?_ rfl | exact Nat.le_refl _ | exact Nat.zero_le _

theorem setDir_kept {s₀ s : State} (n : Nat) (e : DirEnt) (hK : Kept s₀ s) : Kept s₀ (setDir s n e) := by
  unfold setDir
  repeat' first
    | with_reducible first
      | assumption | intro _ | apply mapTr_kept
    | dsimp only | split | fail_if_no_progress with_reducible refine kept_mk ?_ rfl ?_ ?_ ?_ rfl | exact Nat.le_refl _ | exact Nat.zero_le _

theorem setPool_kept {s₀ s : State} (l p : Nat) (x : PoolState) (hK : Kept s₀ s) : Kept s₀ (setPool s l p x) := by
  unfold setPool
  repeat' first
    | with_reducible first
      | assumption | intro _ | apply mapTr_kept
    | dsimp only | split | fail_if_no_progress with_reducible refine kept_mk ?_ rfl ?_ ?_ ?_ rfl | exact Nat.le_refl _ | exact Nat.zero_le _

theorem resizePools_kept {s₀ s : State} (role : Nat) (hK : Kept s₀ s) : Kept s₀ (resizePools s role) := by
  unfold resizePools
  repeat' first
    | with_reducible first
      | assumption | intro _ | apply setFs_kept | apply mapTr_kept | apply updBb_kept | apply foldl_kept | apply foldl_pair_kept
    | dsimp only | split | fail_if_no_progress with_reducible refine kept_mk ?_ rfl ?_ ?_ ?_ rfl | exact Nat.le_refl _ | exact Nat.zero_le _

theorem grantDowels_kept {s₀ s : State} (l p peer n : Nat) (hK : Kept s₀ s) : Kept s₀ (grantDowels s l p peer n).1 := by
  unfold grantDowels
  repeat' first
    | with_reducible first
      | assumption | apply setF_kept | apply setPool_kept | apply kept_ite
    | dsimp only | split | fail_if_no_progress with_reducible refine kept_mk ?_ rfl ?_ ?_ ?_ rfl | exact Nat.le_refl _ | exact Nat.zero_le _

theorem grantDowels_eq_kept {s₀ s : State} {l p peer n : Nat} {u₁ : State} {out : Nat} (he : grantDowels s l p peer n = (u₁, out)) (hK :
    Kept s₀ s) : Kept s₀ u₁ := by
  have := grantDowels_kept (s₀ := s₀) (hK := hK) (s := s) (l := l) (p := p) (peer := peer) (n := n); rw [he] at this; exact this

theorem reclaimDowels_kept {s₀ s : State} (l p peer : Nat) (hK : Kept s₀ s) : Kept s₀ (reclaimDowels s l p peer) := by
  unfold reclaimDowels
  repeat' first
    | with_reducible first
      | assumption | apply setF_kept | apply setPool_kept
    | dsimp only | fail_if_no_progress with_reducible refine kept_mk ?_ rfl ?_ ?_ ?_ rfl | exact Nat.le_refl _ | exact Nat.zero_le _

theorem reclaimAll_kept {s₀ s : State} (peer : Nat) (hK : Kept s₀ s) : Kept s₀ (reclaimAll s peer) := by
  unfold reclaimAll
  repeat' first
    | with_reducible first
      | assumption | intro _ | apply reclaimDowels_kept | apply foldl_kept | apply foldl_pair_kept
    | dsimp only | split

theorem reserveOn_kept {s₀ s : State} (l p : Nat) (hK : Kept s₀ s) : Kept s₀ (reserveOn s l p) := by
  unfold reserveOn
  repeat' first
    | with_reducible first
      | assumption | apply setF_kept | apply setPool_kept
    | dsimp only | fail_if_no_progress with_reducible refine kept_mk ?_ rfl ?_ ?_ ?_ rfl | exact Nat.le_refl _ | exact Nat.zero_le _

theorem drawSession_kept {s₀ s : State} (hK : Kept s₀ s) : Kept s₀ (drawSession s) := by
  unfold drawSession
  repeat' first
    | with_reducible first
      | assumption | intro _ | apply freshFree_kept | refine freshFree_eq_kept (by assumption) ?_ | apply setF_kept | apply mapTr_kept
      | apply kept_ite
    | dsimp only | split | fail_if_no_progress with_reducible refine kept_mk ?_ rfl ?_ ?_ ?_ rfl | exact Nat.le_refl _ | exact Nat.zero_le _

theorem sendNow_kept {s₀ s : State} (f : OutFrame) (hK : Kept s₀ s) : Kept s₀ (sendNow s f) := by
  unfold sendNow
  repeat' first
    | with_reducible first
      | assumption | intro _ | apply incSatF_kept | apply sendMsg_kept | apply mapTr_kept | apply reserveOn_kept | apply drawSession_kept
      | apply kept_ite | apply foldl_kept | apply foldl_pair_kept
    | dsimp only | split | fail_if_no_progress with_reducible refine kept_mk ?_ rfl ?_ ?_ ?_ rfl | exact Nat.le_refl _ | exact Nat.zero_le _

theorem flushOut_kept {s₀ s : State} (hK : Kept s₀ s) : Kept s₀ (flushOut s) := by
  unfold flushOut
  repeat' first
    | with_reducible first
      | assumption | intro _ | apply mapTr_kept | apply sendNow_kept | apply kept_ite | apply foldl_kept | apply foldl_pair_kept
    | dsimp only | split | fail_if_no_progress with_reducible refine kept_mk ?_ rfl ?_ ?_ ?_ rfl | exact Nat.le_refl _ | exact Nat.zero_le _

theorem trSendFrame_kept {s₀ s : State} (f : OutFrame) (hK : Kept s₀ s) : Kept s₀ (trSendFrame s f) := by
  unfold trSendFrame
  repeat' first
    | with_reducible first
      | assumption | intro _ | apply mapTr_kept | apply sendNow_kept | apply kept_ite
    | dsimp only | split | fail_if_no_progress with_reducible refine kept_mk ?_ rfl ?_ ?_ ?_ rfl | exact Nat.le_refl _ | exact Nat.zero_le _

theorem trSend_kept {s₀ s : State} (ty dst : Nat) (args : List Nat) (hK : Kept s₀ s) : Kept s₀ (trSend s ty dst args) := by
  unfold trSend
  repeat' first
    | with_reducible first
      | assumption | intro _ | apply trSendFrame_kept | apply foldl_kept | apply foldl_pair_kept
    | dsimp only | split

theorem dropData_kept {s₀ s : State} (dst : Nat) (hK : Kept s₀ s) : Kept s₀ (dropData s dst) := by
  unfold dropData
  repeat' first
    | with_reducible first
      | assumption | intro _ | apply mapTr_kept
    | dsimp only | split | fail_if_no_progress with_reducible refine kept_mk ?_ rfl ?_ ?_ ?_ rfl | exact Nat.le_refl _ | exact Nat.zero_le _

theorem sendHello_kept {s₀ s : State} (hK : Kept s₀ s) : Kept s₀ (sendHello s) := by
  unfold sendHello
  repeat' first
    | with_reducible first
      | assumption | intro _ | apply startTime_kept | apply mapTr_kept | apply reserveOn_kept | apply trSend_kept | apply kept_ite | apply foldl_kept
      | apply foldl_pair_kept
    | dsimp only | split | fail_if_no_progress with_reducible refine kept_mk ?_ rfl ?_ ?_ ?_ rfl | exact Nat.le_refl _ | exact Nat.zero_le _

theorem sendCredit_kept {s₀ s : State} (dst l p n : Nat) (hK : Kept s₀ s) : Kept s₀ (sendCredit s dst l p n) := by
  unfold sendCredit
  repeat' first
    | with_reducible first
      | assumption | apply trSend_kept
    | dsimp only

theorem grantBoth_kept {s₀ s : State} (p peer n : Nat) (hK : Kept s₀ s) : Kept s₀ (grantBoth s p peer n) := by
  unfold grantBoth
  repeat' first
    | with_reducible first
      | assumption | intro _ | apply grantDowels_kept | refine grantDowels_eq_kept (by assumption) ?_ | apply sendCredit_kept | apply kept_ite
      | apply foldl_kept | apply foldl_pair_kept
    | dsimp only | split

theorem authFail_kept {s₀ s : State} (l : Nat) (hK : Kept s₀ s) : Kept s₀ (authFail s l) := by
  unfold authFail
  repeat' first
    | with_reducible first
      | assumption | intro _ | apply incSatF_kept | apply raise_kept | apply mapTr_kept | apply kept_ite
    | dsimp only | split | fail_if_no_progress with_reducible refine kept_mk ?_ rfl ?_ ?_ ?_ rfl | exact Nat.le_refl _ | exact Nat.zero_le _

theorem putPeer_kept {s₀ s : State} (p : Peer) (hK : Kept s₀ s) : Kept s₀ (putPeer s p) := by
  unfold putPeer
  repeat' first
    | with_reducible first
      | assumption | intro _ | apply mapTr_kept
    | dsimp only | split | fail_if_no_progress with_reducible refine kept_mk ?_ rfl ?_ ?_ ?_ rfl | exact Nat.le_refl _ | exact Nat.zero_le _

theorem senderKey_kept {s₀ s : State} (h : TrussHdr) (hK : Kept s₀ s) : Kept s₀ (senderKey s h).1 := by
  unfold senderKey
  repeat' first
    | with_reducible first
      | assumption | intro _ | apply incSatF_kept | apply mapTr_kept | apply putPeer_kept | apply kept_ite
    | dsimp only | split | fail_if_no_progress with_reducible refine kept_mk ?_ rfl ?_ ?_ ?_ rfl | exact Nat.le_refl _ | exact Nat.zero_le _

theorem senderKey_eq_kept {s₀ s : State} {h : TrussHdr} {u₁ : State} {out : Bool} (he : senderKey s h = (u₁, out)) (hK : Kept s₀ s) : Kept
    s₀ u₁ := by
  have := senderKey_kept (s₀ := s₀) (hK := hK) (s := s) (h := h); rw [he] at this; exact this

theorem seqAccept_kept {s₀ s : State} (h : TrussHdr) (hK : Kept s₀ s) : Kept s₀ (seqAccept s h).1 := by
  unfold seqAccept
  repeat' first
    | with_reducible first
      | assumption | intro _ | apply incF_kept | apply incSatF_kept | apply putPeer_kept
    | dsimp only | split

theorem seqAccept_eq_kept {s₀ s : State} {h : TrussHdr} {u₁ : State} {out : Bool} (he : seqAccept s h = (u₁, out)) (hK : Kept s₀ s) : Kept
    s₀ u₁ := by
  have := seqAccept_kept (s₀ := s₀) (hK := hK) (s := s) (h := h); rw [he] at this; exact this

theorem grantRound_kept {s₀ s : State} (p : Nat) (hK : Kept s₀ s) : Kept s₀ (grantRound s p) := by
  unfold grantRound
  repeat' first
    | with_reducible first
      | assumption | intro _ | apply mapTr_kept | apply setDir_kept | apply grantBoth_kept | apply kept_ite
    | dsimp only | split | fail_if_no_progress with_reducible refine kept_mk ?_ rfl ?_ ?_ ?_ rfl | exact Nat.le_refl _ | exact Nat.zero_le _

theorem useDowel_kept {s₀ s : State} (h : TrussHdr) (p : Nat) (hK : Kept s₀ s) : Kept s₀ (useDowel s h p).1 := by
  unfold useDowel
  repeat' first
    | with_reducible first
      | assumption | apply incSatF_kept | apply setF_kept | apply setPool_kept | apply sendCredit_kept | apply grantRound_kept | apply kept_ite
    | dsimp only | split | fail_if_no_progress with_reducible refine kept_mk ?_ rfl ?_ ?_ ?_ rfl | exact Nat.le_refl _ | exact Nat.zero_le _

theorem useDowel_eq_kept {s₀ s : State} {h : TrussHdr} {p : Nat} {u₁ : State} {out : Bool} (he : useDowel s h p = (u₁, out)) (hK : Kept s₀
    s) : Kept s₀ u₁ := by
  have := useDowel_kept (s₀ := s₀) (hK := hK) (s := s) (h := h) (p := p); rw [he] at this; exact this

theorem followManager_kept {s₀ s : State} (n : Nat) (hK : Kept s₀ s) : Kept s₀ (followManager s n) := by
  unfold followManager
  repeat' first
    | with_reducible first
      | assumption | intro _ | apply setFs_kept | apply reclaimAll_kept | apply grantBoth_kept | apply kept_ite | apply foldl_kept
      | apply foldl_pair_kept
    | dsimp only | split

theorem demote_kept {s₀ s : State} (hK : Kept s₀ s) : Kept s₀ (demote s) := by
  unfold demote
  repeat' first
    | with_reducible first
      | assumption | intro _ | apply setFs_kept | apply mapTr_kept | apply resizePools_kept
    | dsimp only | split | fail_if_no_progress with_reducible refine kept_mk ?_ rfl ?_ ?_ ?_ rfl | exact Nat.le_refl _ | exact Nat.zero_le _

theorem followTerm_kept {s₀ s : State} (h : TrussHdr) (ty : Nat) (hK : Kept s₀ s) : Kept s₀ (followTerm s h ty) := by
  unfold followTerm
  repeat' first
    | with_reducible first
      | assumption | apply setF_kept | apply followManager_kept | apply demote_kept | apply kept_ite
    | dsimp only | split

theorem pubsUndeliv_kept {s₀ s : State} (b : Bool) (hK : Kept s₀ s) : Kept s₀ (pubsUndeliv s b) := by
  unfold pubsUndeliv
  repeat' first
    | with_reducible first
      | assumption | intro _ | apply setUndeliv_kept | apply mapTr_kept | apply foldl_kept | apply foldl_pair_kept
    | dsimp only | split | fail_if_no_progress with_reducible refine kept_mk ?_ rfl ?_ ?_ ?_ rfl | exact Nat.le_refl _ | exact Nat.zero_le _

theorem cycleReturned_kept {s₀ s : State} (src p : Nat) (hK : Kept s₀ s) : Kept s₀ (cycleReturned s src p) := by
  unfold cycleReturned
  repeat' first
    | with_reducible first
      | assumption | apply pubsUndeliv_kept | apply kept_ite
    | dsimp only | split

theorem dowelsBack_kept {s₀ s : State} (l p src n : Nat) (hK : Kept s₀ s) : Kept s₀ (dowelsBack s l p src n) := by
  unfold dowelsBack
  repeat' first
    | with_reducible first
      | assumption | intro _ | apply mapTr_kept | apply cycleReturned_kept | apply kept_ite
    | dsimp only | split | fail_if_no_progress with_reducible refine kept_mk ?_ rfl ?_ ?_ ?_ rfl | exact Nat.le_refl _ | exact Nat.zero_le _

theorem headerEffect_kept {s₀ s : State} (h : TrussHdr) (ty : Nat) (hK : Kept s₀ s) : Kept s₀ (headerEffect s h ty) := by
  unfold headerEffect
  repeat' first
    | with_reducible first
      | assumption | intro _ | apply mapTr_kept | apply flushOut_kept | apply dowelsBack_kept | apply kept_ite
    | dsimp only | split | fail_if_no_progress with_reducible refine kept_mk ?_ rfl ?_ ?_ ?_ rfl | exact Nat.le_refl _ | exact Nat.zero_le _

theorem leaveSmall_kept {s₀ s : State} (l : Nat) (hK : Kept s₀ s) : Kept s₀ (leaveSmall s l) := by
  unfold leaveSmall
  repeat' first
    | with_reducible first
      | assumption
    | dsimp only | fail_if_no_progress with_reducible refine kept_mk ?_ rfl ?_ ?_ ?_ rfl | exact Nat.le_refl _ | exact Nat.zero_le _

theorem trussAccept_kept {s₀ s : State} (h : TrussHdr) (ty : Nat) (hK : Kept s₀ s) : Kept s₀ (trussAccept s h ty).1 := by
  unfold trussAccept
  repeat' first
    | with_reducible first
      | assumption | intro _ | apply authFail_kept | apply senderKey_kept | refine senderKey_eq_kept (by assumption) ?_ | apply seqAccept_kept
      | refine seqAccept_eq_kept (by assumption) ?_ | apply useDowel_kept | refine useDowel_eq_kept (by assumption) ?_ | apply followTerm_kept
      | apply headerEffect_kept | apply leaveSmall_kept | apply kept_ite
    | dsimp only | split

theorem trussAccept_eq_kept {s₀ s : State} {h : TrussHdr} {ty : Nat} {u₁ : State} {out : Bool} (he : trussAccept s h ty = (u₁, out)) (hK :
    Kept s₀ s) : Kept s₀ u₁ := by
  have := trussAccept_kept (s₀ := s₀) (hK := hK) (s := s) (h := h) (ty := ty); rw [he] at this; exact this

theorem onTruss_kept {s₀ s : State} (h : TrussHdr) (ty : Nat) (f : State → State) (hK : Kept s₀ s)
    (hKf : ∀ x, Kept s₀ x → Kept s₀ (f x)) : Kept s₀ (onTruss s h ty f) := by
  have k := trussAccept_kept h ty hK
  unfold onTruss
  generalize trussAccept s h ty = r at *
  dsimp only
  split
  · exact hKf _ k
  · exact k

theorem execTrussBadFrame_answers (s : State) (h : TrussHdr) (why : TrussBad) : Answers s (execTrussBadFrame h why s) := by
  have hK := Kept.refl s
  unfold execTrussBadFrame
  repeat' first
    | with_reducible first
      | assumption | intro _ | apply incF_kept | apply incSatF_kept | apply authFail_kept | apply putPeer_kept | apply senderKey_kept
      | refine senderKey_eq_kept (by assumption) ?_ | apply kept_ite | apply Answers.next | apply answers_ite
    | dsimp only | split

theorem syncOut_kept {s₀ s : State} (args : List Nat) (hK : Kept s₀ s) : Kept s₀ (syncOut s args) := by
  unfold syncOut
  repeat' first
    | with_reducible first
      | assumption | intro _ | apply mapTr_kept | apply trSend_kept | apply kept_ite
    | dsimp only | split | fail_if_no_progress with_reducible refine kept_mk ?_ rfl ?_ ?_ ?_ rfl | exact Nat.le_refl _ | exact Nat.zero_le _

theorem syncAll_kept {s₀ s : State} (hK : Kept s₀ s) : Kept s₀ (syncAll s) := by
  unfold syncAll
  repeat' first
    | with_reducible first
      | assumption | intro _ | apply syncOut_kept | apply kept_ite | apply foldl_kept | apply foldl_pair_kept
    | dsimp only | split

theorem noteSelfGpas_kept {s₀ s : State} (gs : List Nat) (hK : Kept s₀ s) : Kept s₀ (noteSelfGpas s gs) := by
  unfold noteSelfGpas
  repeat' first
    | with_reducible first
      | assumption | intro _ | apply raise_kept | apply kept_ite | apply foldl_kept | apply foldl_pair_kept
    | dsimp only | split

theorem syncEffect_kept {s₀ s : State} (h : TrussHdr) (b : SyncBody) (hK : Kept s₀ s) : Kept s₀ (syncEffect s h b) := by
  unfold syncEffect
  repeat' first
    | with_reducible first
      | assumption | intro _ | apply mapTr_kept | apply trSend_kept | apply noteSelfGpas_kept | apply kept_ite
    | dsimp only | split | fail_if_no_progress with_reducible refine kept_mk ?_ rfl ?_ ?_ ?_ rfl | exact Nat.le_refl _ | exact Nat.zero_le _

theorem syncAckEffect_kept {s₀ s : State} (seq : Nat) (hK : Kept s₀ s) : Kept s₀ (syncAckEffect s seq) := by
  unfold syncAckEffect
  repeat' first
    | with_reducible first
      | assumption | intro _ | apply mapTr_kept
    | dsimp only | split | fail_if_no_progress with_reducible refine kept_mk ?_ rfl ?_ ?_ ?_ rfl | exact Nat.le_refl _ | exact Nat.zero_le _

theorem updDir_kept {s₀ s : State} (hK : Kept s₀ s) : Kept s₀ (updDir s) := by
  unfold updDir
  repeat' first
    | with_reducible first
      | assumption | intro _ | apply setFs_kept | apply kept_ite
    | dsimp only | split

theorem reallot_kept {s₀ s : State} (hK : Kept s₀ s) : Kept s₀ (reallot s) := by
  unfold reallot
  repeat' first
    | with_reducible first
      | assumption | intro _ | apply setFs_kept | apply setPool_kept | apply grantDowels_kept | refine grantDowels_eq_kept (by assumption) ?_
      | apply sendCredit_kept | apply kept_ite | apply foldl_kept | apply foldl_pair_kept
    | dsimp only | split | fail_if_no_progress with_reducible refine kept_mk ?_ rfl ?_ ?_ ?_ rfl | exact Nat.le_refl _ | exact Nat.zero_le _

theorem updPubs_kept {s₀ s : State} (hK : Kept s₀ s) : Kept s₀ (updPubs s) := by
  unfold updPubs
  repeat' first
    | with_reducible first
      | assumption | intro _ | apply setFs_kept
    | dsimp only | split

theorem becomeManager_kept {s₀ s : State} (term : Nat) (hK : Kept s₀ s) : Kept s₀ (becomeManager s term) := by
  unfold becomeManager
  repeat' first
    | with_reducible first
      | assumption | intro _ | apply setFs_kept | apply mapTr_kept | apply resizePools_kept | apply updDir_kept | apply kept_ite
    | dsimp only | split | fail_if_no_progress with_reducible refine kept_mk ?_ rfl ?_ ?_ ?_ rfl | exact Nat.le_refl _ | exact Nat.zero_le _

theorem takeRole_kept {s₀ s : State} (hK : Kept s₀ s) : Kept s₀ (takeRole s) := by
  unfold takeRole
  repeat' first
    | with_reducible first
      | assumption | intro _ | apply setF_kept | apply setFs_kept | apply mapTr_kept | apply resizePools_kept | apply sendHello_kept
      | apply becomeManager_kept | apply updBb_kept | apply kept_ite
    | dsimp only | split | fail_if_no_progress with_reducible refine kept_mk ?_ rfl ?_ ?_ ?_ rfl | exact Nat.le_refl _ | exact Nat.zero_le _

theorem sendSubs_kept {s₀ s : State} (hK : Kept s₀ s) : Kept s₀ (sendSubs s) := by
  unfold sendSubs
  repeat' first
    | with_reducible first
      | assumption | apply trSend_kept | apply kept_ite
    | dsimp only | split

theorem resumePubs_kept {s₀ s : State} (m : Nat) (hK : Kept s₀ s) : Kept s₀ (resumePubs s m) := by
  unfold resumePubs
  repeat' first
    | with_reducible first
      | assumption | intro _ | apply trSend_kept | apply kept_ite
    | dsimp only | split

theorem helloEffect_kept {s₀ s : State} (h : TrussHdr) (pin role firmware bb0 bb1 : Nat) (hK : Kept s₀ s) : Kept s₀ (helloEffect s h pin
    role firmware bb0 bb1) := by
  unfold helloEffect
  repeat' first
    | with_reducible first
      | assumption | intro _ | apply incSatF_kept | apply mapTr_kept | apply setDir_kept | apply trSend_kept | apply dropData_kept
      | apply syncOut_kept | apply syncAll_kept | apply updDir_kept | apply reallot_kept | apply resumePubs_kept | apply kept_ite
    | dsimp only | split | fail_if_no_progress with_reducible refine kept_mk ?_ rfl ?_ ?_ ?_ rfl | exact Nat.le_refl _ | exact Nat.zero_le _

theorem execHelloTimer_answers (s : State) : Answers s (execHelloTimer s) := by
  have hK := Kept.refl s
  unfold execHelloTimer
  repeat' first
    | with_reducible first
      | assumption | apply sendHello_kept | apply kept_ite | apply Answers.next | apply answers_ite
    | dsimp only | split

theorem learnEpoch_kept {s₀ s : State} (e : Nat) (hK : Kept s₀ s) : Kept s₀ (learnEpoch s e) := by
  unfold learnEpoch
  repeat' first
    | with_reducible first
      | assumption | intro _ | apply setFs_kept | apply mapTr_kept
    | dsimp only | split | fail_if_no_progress with_reducible refine kept_mk ?_ rfl ?_ ?_ ?_ rfl | exact Nat.le_refl _ | exact Nat.zero_le _

theorem assignEffect_kept {s₀ s : State} (h : TrussHdr) (n e : Nat) (hK : Kept s₀ s) : Kept s₀ (assignEffect s h n e) := by
  unfold assignEffect
  repeat' first
    | with_reducible first
      | assumption | intro _ | apply setFs_kept | apply mapTr_kept | apply reclaimAll_kept | apply dropData_kept | apply grantBoth_kept
      | apply sendSubs_kept | apply learnEpoch_kept | apply kept_ite | apply foldl_kept | apply foldl_pair_kept
    | dsimp only | split | fail_if_no_progress with_reducible refine kept_mk ?_ rfl ?_ ?_ ?_ rfl | exact Nat.le_refl _ | exact Nat.zero_le _

theorem execAssign_answers (s : State) (h : TrussHdr) (number : Fin 512) (epoch : Fin 281474976710656) : Answers s (execAssign h number epoch s) := by
  have hK := Kept.refl s
  unfold execAssign
  repeat' first
    | with_reducible first
      | assumption | intro _ | apply onTruss_kept | apply assignEffect_kept | apply Answers.next
    | dsimp only | split

theorem heartbeatEffect_kept {s₀ s : State} (h : TrussHdr) (mode sev : Nat) (steered : Bool) (scf : Nat) (dc dm : Bool) (hK : Kept s₀ s) :
    Kept s₀ (heartbeatEffect s h mode sev steered scf dc dm) := by
  unfold heartbeatEffect
  repeat' first
    | with_reducible first
      | assumption | apply setDir_kept | apply grantRound_kept | apply kept_ite
    | dsimp only | split | fail_if_no_progress with_reducible refine kept_mk ?_ rfl ?_ ?_ ?_ rfl | exact Nat.le_refl _ | exact Nat.zero_le _

theorem proxiesAbsent_kept {s₀ s : State} (p : PtRec → Bool) (hK : Kept s₀ s) : Kept s₀ (proxiesAbsent s p) := by
  unfold proxiesAbsent
  repeat' first
    | with_reducible first
      | assumption | intro _ | apply writerQuality_kept | apply foldl_kept | apply foldl_pair_kept
    | dsimp only | split

theorem publisherGone_kept {s₀ s : State} (m : Nat) (hK : Kept s₀ s) : Kept s₀ (publisherGone s m) := by
  unfold publisherGone
  repeat' first
    | with_reducible first
      | assumption | intro _ | apply proxiesAbsent_kept
    | dsimp only | split

theorem declareGone_kept {s₀ s : State} (n st : Nat) (hK : Kept s₀ s) : Kept s₀ (declareGone s n st) := by
  unfold declareGone
  repeat' first
    | with_reducible first
      | assumption | intro _ | apply mapTr_kept | apply setDir_kept | apply reclaimAll_kept | apply trSend_kept | apply updDir_kept
      | apply reallot_kept | apply publisherGone_kept | apply kept_ite
    | dsimp only | split | fail_if_no_progress with_reducible refine kept_mk ?_ rfl ?_ ?_ ?_ rfl | exact Nat.le_refl _ | exact Nat.zero_le _

theorem departEffect_kept {s₀ s : State} (n cause : Nat) (hK : Kept s₀ s) : Kept s₀ (departEffect s n cause) := by
  unfold departEffect
  repeat' first
    | with_reducible first
      | assumption | intro _ | apply setFs_kept | apply mapTr_kept | apply publisherGone_kept | apply declareGone_kept | apply kept_ite
    | dsimp only | split | fail_if_no_progress with_reducible refine kept_mk ?_ rfl ?_ ?_ ?_ rfl | exact Nat.le_refl _ | exact Nat.zero_le _

theorem sendLeave_kept {s₀ s : State} (hK : Kept s₀ s) : Kept s₀ (sendLeave s) := by
  unfold sendLeave
  repeat' first
    | with_reducible first
      | assumption | apply trSend_kept | apply kept_ite
    | dsimp only | split

theorem managerLost_kept {s₀ s : State} (hK : Kept s₀ s) : Kept s₀ (managerLost s) := by
  unfold managerLost
  repeat' first
    | with_reducible first
      | assumption | intro _ | apply setF_kept | apply mapTr_kept | apply dropData_kept | apply sendHello_kept | apply pubsUndeliv_kept
      | apply proxiesAbsent_kept | apply kept_ite
    | dsimp only | split | fail_if_no_progress with_reducible refine kept_mk ?_ rfl ?_ ?_ ?_ rfl | exact Nat.le_refl _ | exact Nat.zero_le _

theorem execManagerLost_answers (s : State) : Answers s (execManagerLost s) := by
  have hK := Kept.refl s
  unfold execManagerLost
  repeat' first
    | with_reducible first
      | assumption | apply managerLost_kept | apply kept_ite | apply Answers.next | apply answers_ite
    | dsimp only | split

theorem creditEffect_kept {s₀ s : State} (h : TrussHdr) (ds : List Nat) (hK : Kept s₀ s) : Kept s₀ (creditEffect s h ds) := by
  unfold creditEffect
  repeat' first
    | with_reducible first
      | assumption | intro _ | apply flushOut_kept | apply dowelsBack_kept | apply foldl_kept | apply foldl_pair_kept
    | dsimp only | split

theorem execCredit_answers (s : State) (h : TrussHdr) (dowels : List Nat) : Answers s (execCredit h dowels s) := by
  have hK := Kept.refl s
  unfold execCredit
  repeat' first
    | with_reducible first
      | assumption | intro _ | apply onTruss_kept | apply creditEffect_kept | apply Answers.next
    | dsimp only | split

theorem stepGrid_kept {s₀ s : State} (k : Nat) (fc : Nat) (h : Kept s₀ s) (hf : fc ≤ fcTickMax) : Kept s₀ (stepGrid s k fc) := by
  have hk : ∀ ts, Kept s₀ { s with tick := k % tickMod, fc := fc, tasks := ts } := fun ts =>
    kept_core h (fun k => k) (fun c => by
      rw [clocksWf_iff] at c ⊢
      exact ⟨Nat.mod_lt _ (by decide), hf, c.2.2⟩) (fun k => k) rfl (Nat.le_refl _) (Nat.le_refl _)
  unfold stepGrid
  exact kept_ite (incSatF_kept (loopsStepped_kept (hk _)) _ _) (releaseKeys_kept _ (incSatF_kept (loopsStepped_kept (hk _)) _ _))

theorem steer_kept {s₀ s : State} (h : Kept s₀ s) : Kept s₀ (steer s) := by
  unfold steer
  split
  · exact h
  · refine kept_ite h (gapSteered_kept (setF_kept (kept_ite h (stepGrid_kept _ _ h ?_)) _ _))
    unfold fcTickMax
    omega

theorem unsteer_kept {s₀ s : State} (hK : Kept s₀ s) : Kept s₀ (unsteer s) := by
  unfold unsteer
  repeat' first
    | with_reducible first
      | assumption | apply setF_kept
    | dsimp only

theorem steerTick_kept {s₀ s : State} (hK : Kept s₀ s) : Kept s₀ (steerTick s) := by
  unfold steerTick
  repeat' first
    | with_reducible first
      | assumption | intro _ | apply freshFree_kept | refine freshFree_eq_kept (by assumption) ?_ | apply setFs_kept | apply steer_kept
      | apply unsteer_kept | apply kept_ite
    | dsimp only | split

theorem markEffect_kept {s₀ s : State} (h : TrussHdr) (k epoch : Nat) (hK : Kept s₀ s) : Kept s₀ (markEffect s h k epoch) := by
  unfold markEffect
  repeat' first
    | with_reducible first
      | assumption | intro _ | apply incF_kept | apply mapTr_kept | apply learnEpoch_kept | apply steer_kept | apply unsteer_kept | apply kept_ite
    | dsimp only | split | fail_if_no_progress with_reducible refine kept_mk ?_ rfl ?_ ?_ ?_ rfl | exact Nat.le_refl _ | exact Nat.zero_le _

theorem execMark_answers (s : State) (h : TrussHdr) (tick : Fin 281474976710656) (epoch : Fin 281474976710656) : Answers s (execMark h tick epoch s)
    := by
  have hK := Kept.refl s
  unfold execMark
  repeat' first
    | with_reducible first
      | assumption | intro _ | apply onTruss_kept | apply markEffect_kept | apply Answers.next
    | dsimp only | split

theorem execMarkTimeout_answers (s : State) : Answers s (execMarkTimeout s) := by
  have hK := Kept.refl s
  unfold execMarkTimeout
  repeat' first
    | with_reducible first
      | assumption | apply unsteer_kept | apply kept_ite | apply Answers.next | apply answers_ite
    | dsimp only | split

theorem execTakeover_answers (s : State) (h : TrussHdr) : Answers s (execTakeover h s) := by
  have hK := Kept.refl s
  unfold execTakeover
  repeat' first
    | with_reducible first
      | assumption | intro _ | apply setF_kept | apply onTruss_kept | apply kept_ite | apply Answers.next | apply answers_ite
    | dsimp only | split

theorem takeoverEffect_kept {s₀ s : State} (handover : Bool) (hK : Kept s₀ s) : Kept s₀ (takeoverEffect s handover) := by
  unfold takeoverEffect
  repeat' first
    | with_reducible first
      | assumption | intro _ | apply setF_kept | apply mapTr_kept | apply trSend_kept | apply kept_ite
    | dsimp only | split | fail_if_no_progress with_reducible refine kept_mk ?_ rfl ?_ ?_ ?_ rfl | exact Nat.le_refl _ | exact Nat.zero_le _



theorem addPub_kept {s₀ s : State} (i n : Nat) (hK : Kept s₀ s) : Kept s₀ (addPub s i n) := by
  unfold addPub
  repeat' first
    | with_reducible first
      | assumption | intro _ | apply mapTr_kept | apply updPubs_kept | apply kept_ite
    | dsimp only | split | fail_if_no_progress with_reducible refine kept_mk ?_ rfl ?_ ?_ ?_ rfl | exact Nat.le_refl _ | exact Nat.zero_le _

theorem tellPub_kept {s₀ s : State} (g : Nat) (hK : Kept s₀ s) : Kept s₀ (tellPub s g) := by
  unfold tellPub
  repeat' first
    | with_reducible first
      | assumption | intro _ | apply mapTr_kept | apply trSend_kept | apply updPubs_kept | apply kept_ite
    | dsimp only | split | fail_if_no_progress with_reducible refine kept_mk ?_ rfl ?_ ?_ ?_ rfl | exact Nat.le_refl _ | exact Nat.zero_le _

theorem addSub_kept {s₀ s : State} (e : SubEntry) (requester : Nat) (hK : Kept s₀ s) : Kept s₀ (addSub s e requester) := by
  unfold addSub
  repeat' first
    | with_reducible first
      | assumption | intro _ | apply mapTr_kept | apply syncOut_kept | apply updDir_kept | apply reallot_kept | apply tellPub_kept | apply kept_ite
    | dsimp only | split | fail_if_no_progress with_reducible refine kept_mk ?_ rfl ?_ ?_ ?_ rfl | exact Nat.le_refl _ | exact Nat.zero_le _

theorem refuse_kept {s₀ s : State} (g why : Nat) (hK : Kept s₀ s) : Kept s₀ (refuse s g why) := by
  unfold refuse
  repeat' first
    | with_reducible first
      | assumption | apply setFs_kept
    | dsimp only

theorem takeResult_kept {s₀ s : State} (query : Bool) (e : SubEntry) (why owner : Nat) (hK : Kept s₀ s) : Kept s₀ (takeResult s query e why
    owner) := by
  unfold takeResult
  repeat' first
    | with_reducible first
      | assumption | intro _ | apply mapTr_kept | apply refuse_kept | apply kept_ite
    | dsimp only | split | fail_if_no_progress with_reducible refine kept_mk ?_ rfl ?_ ?_ ?_ rfl | exact Nat.le_refl _ | exact Nat.zero_le _

theorem answerSub_kept {s₀ s : State} (dst : Nat) (query : Bool) (e : SubEntry) (why owner : Nat) (hK : Kept s₀ s) : Kept s₀ (answerSub s
    dst query e why owner) := by
  unfold answerSub
  repeat' first
    | with_reducible first
      | assumption | apply trSend_kept | apply takeResult_kept | apply kept_ite
    | dsimp only | split

theorem settleSub_kept {s₀ s : State} (requester : Nat) (query : Bool) (e : SubEntry) (why owner : Nat) (hK : Kept s₀ s) : Kept s₀
    (settleSub s requester query e why owner) := by
  unfold settleSub
  repeat' first
    | with_reducible first
      | assumption | apply tellPub_kept | apply addSub_kept | apply answerSub_kept | apply kept_ite
    | dsimp only | split

theorem judgeHere_kept {s₀ s : State} (query : Bool) (e : SubEntry) (hK : Kept s₀ s) : Kept s₀ (judgeHere s query e).1 := by
  unfold judgeHere
  repeat' first
    | with_reducible first
      | assumption | apply judgeState_kept | apply addPub_kept | apply kept_ite
    | dsimp only | split

theorem judgeHere_eq_kept {s₀ s : State} {query : Bool} {e : SubEntry} {u₁ : State} {out : Nat × Nat} (he : judgeHere s query e = (u₁, out))
    (hK : Kept s₀ s) : Kept s₀ u₁ := by
  have := judgeHere_kept (s₀ := s₀) (hK := hK) (s := s) (query := query) (e := e); rw [he] at this; exact this

theorem notePub_kept {s₀ s : State} (e : SubEntry) (hK : Kept s₀ s) : Kept s₀ (notePub s e) := by
  unfold notePub
  repeat' first
    | with_reducible first
      | assumption | intro _ | apply mapTr_kept | apply kept_ite
    | dsimp only | split | fail_if_no_progress with_reducible refine kept_mk ?_ rfl ?_ ?_ ?_ rfl | exact Nat.le_refl _ | exact Nat.zero_le _

theorem subEntryEffect_kept {s₀ s : State} (requester : Nat) (query : Bool) (e : SubEntry) (hK : Kept s₀ s) : Kept s₀ (subEntryEffect s
    requester query e) := by
  unfold subEntryEffect
  repeat' first
    | with_reducible first
      | assumption | intro _ | apply mapTr_kept | apply trSend_kept | apply answerSub_kept | apply settleSub_kept | apply judgeHere_kept
      | refine judgeHere_eq_kept (by assumption) ?_ | apply notePub_kept | apply kept_ite
    | dsimp only | split | fail_if_no_progress with_reducible refine kept_mk ?_ rfl ?_ ?_ ?_ rfl | exact Nat.le_refl _ | exact Nat.zero_le _

theorem execSubRequest_answers (s : State) (h : TrussHdr) (query : Bool) (entries : List SubEntry) : Answers s (execSubRequest h query entries s) :=
    by
  have hK := Kept.refl s
  unfold execSubRequest
  repeat' first
    | with_reducible first
      | assumption | intro _ | apply raise_kept | apply onTruss_kept | apply subEntryEffect_kept | apply kept_ite | apply foldl_kept
      | apply foldl_pair_kept | apply Answers.next | apply answers_ite
    | dsimp only | split

theorem subRspEffect_kept {s₀ s : State} (query : Bool) (e : SubEntry) (why owner : Nat) (hK : Kept s₀ s) : Kept s₀ (subRspEffect s query e
    why owner) := by
  unfold subRspEffect
  repeat' first
    | with_reducible first
      | assumption | intro _ | apply raise_kept | apply mapTr_kept | apply takeResult_kept | apply settleSub_kept | apply kept_ite
    | dsimp only | split | fail_if_no_progress with_reducible refine kept_mk ?_ rfl ?_ ?_ ?_ rfl | exact Nat.le_refl _ | exact Nat.zero_le _

theorem execSubRsp_answers (s : State) (h : TrussHdr) (query : Bool) (results : List (SubEntry × Fin 8 × Fin 4096)) : Answers s (execSubRsp h query
    results s) := by
  have hK := Kept.refl s
  unfold execSubRsp
  repeat' first
    | with_reducible first
      | assumption | intro _ | apply onTruss_kept | apply subRspEffect_kept | apply foldl_kept | apply foldl_pair_kept | apply Answers.next
    | dsimp only | split

theorem unsubEffect_kept {s₀ s : State} (src g : Nat) (hK : Kept s₀ s) : Kept s₀ (unsubEffect s src g) := by
  unfold unsubEffect
  repeat' first
    | with_reducible first
      | assumption | intro _ | apply mapTr_kept | apply syncOut_kept | apply updDir_kept | apply reallot_kept | apply updPubs_kept
      | apply tellPub_kept | apply kept_ite
    | dsimp only | split | fail_if_no_progress with_reducible refine kept_mk ?_ rfl ?_ ?_ ?_ rfl | exact Nat.le_refl _ | exact Nat.zero_le _

theorem execUnsub_answers (s : State) (h : TrussHdr) (gpas : List Nat) : Answers s (execUnsub h gpas s) := by
  have hK := Kept.refl s
  unfold execUnsub
  repeat' first
    | with_reducible first
      | assumption | intro _ | apply onTruss_kept | apply noteSelfGpas_kept | apply unsubEffect_kept | apply foldl_kept | apply foldl_pair_kept
      | apply Answers.next
    | dsimp only | split

theorem askImport_kept {s₀ s : State} (e : SubEntry) (hK : Kept s₀ s) : Kept s₀ (askImport s e) := by
  unfold askImport
  repeat' first
    | with_reducible first
      | assumption | intro _ | apply startTime_kept | apply mapTr_kept | apply trSend_kept | apply takeResult_kept | apply subEntryEffect_kept
      | apply kept_ite
    | dsimp only | split | fail_if_no_progress with_reducible refine kept_mk ?_ rfl ?_ ?_ ?_ rfl | exact Nat.le_refl _ | exact Nat.zero_le _

theorem execSubQueryTimeout_answers (s : State) : Answers s (execSubQueryTimeout s) := by
  have hK := Kept.refl s
  unfold execSubQueryTimeout
  repeat' first
    | with_reducible first
      | assumption | intro _ | apply takeResult_kept | apply kept_ite | apply foldl_kept | apply foldl_pair_kept | apply Answers.next
      | apply answers_ite
    | dsimp only | split

theorem writeProxy_kept {s₀ s : State} (m k : Nat) (e : DataEntry) (hK : Kept s₀ s) : Kept s₀ (writeProxy s m k e) := by
  unfold writeProxy
  repeat' first
    | with_reducible first
      | assumption | intro _ | apply writerWrite_kept | apply mapTr_kept | apply kept_ite
    | dsimp only | split | fail_if_no_progress with_reducible refine kept_mk ?_ rfl ?_ ?_ ?_ rfl | exact Nat.le_refl _ | exact Nat.zero_le _

theorem takeSection_kept {s₀ s : State} (m n k : Nat) (es : List DataEntry) (hK : Kept s₀ s) : Kept s₀ (takeSection s m n k es) := by
  unfold takeSection
  repeat' first
    | with_reducible first
      | assumption | intro _ | apply incSatF_kept | apply writeProxy_kept | apply kept_ite | apply foldl_kept | apply foldl_pair_kept
    | dsimp only | split

theorem sendSection_kept {s₀ s : State} (dst n k m : Nat) (es : List DataEntry) (hK : Kept s₀ s) : Kept s₀ (sendSection s dst n k m es) :=
    by
  unfold sendSection
  repeat' first
    | with_reducible first
      | assumption | intro _ | apply trSend_kept | apply foldl_kept | apply foldl_pair_kept
    | dsimp only | split

theorem deliver_kept {s₀ s : State} (n k m : Nat) (es : List DataEntry) (hK : Kept s₀ s) : Kept s₀ (deliver s n k m es) := by
  unfold deliver
  repeat' first
    | with_reducible first
      | assumption | intro _ | apply takeSection_kept | apply sendSection_kept | apply kept_ite | apply foldl_kept | apply foldl_pair_kept
    | dsimp only | split

theorem dataEffect_kept {s₀ s : State} (n k m : Nat) (es : List DataEntry) (hK : Kept s₀ s) : Kept s₀ (dataEffect s n k m es) := by
  unfold dataEffect
  repeat' first
    | with_reducible first
      | assumption | apply raise_kept | apply takeSection_kept | apply deliver_kept | apply kept_ite
    | dsimp only | split

theorem execData_answers (s : State) (h : TrussHdr) (n : Nat) (k : Word) (publisher : Fin 512) (entries : List DataEntry) : Answers s (execData h n k
    publisher entries s) := by
  have hK := Kept.refl s
  unfold execData
  repeat' first
    | with_reducible first
      | assumption | intro _ | apply onTruss_kept | apply dataEffect_kept | apply Answers.next
    | dsimp only | split

theorem trussTick_kept {s₀ s : State} (hK : Kept s₀ s) : Kept s₀ (trussTick s) := by
  unfold trussTick
  repeat' first
    | with_reducible first
      | assumption | intro _ | apply trSend_kept | apply becomeManager_kept | apply steerTick_kept | apply sendSection_kept | apply deliver_kept
      | apply kept_ite | apply foldl_kept | apply foldl_pair_kept
    | dsimp only | split | exact List.length_filter_le _ _ | (apply Nat.le_of_eq; simp; done) | (simp; done)
    | (rw [(by assumption : _ = _ :: _)]; exact Nat.le_refl _)

theorem auditPool_kept {s₀ s : State} (l p : Nat) (hK : Kept s₀ s) : Kept s₀ (auditPool s l p) := by
  unfold auditPool
  repeat' first
    | with_reducible first
      | assumption | apply latchF_kept | apply raise_kept | apply takeOffset_kept | refine takeOffset_eq_kept (by assumption) ?_ | apply kept_ite
    | dsimp only | split

theorem execPoolAudit_answers (s : State) : Answers s (execPoolAudit s) := by
  have hK := Kept.refl s
  unfold execPoolAudit
  repeat' first
    | with_reducible first
      | assumption | intro _ | apply auditPool_kept | apply kept_ite | apply foldl_kept | apply foldl_pair_kept | apply Answers.next
      | apply answers_ite
    | dsimp only | split

theorem trFields_kept {s₀ s : State} (op result : Nat) (hK : Kept s₀ s) : Kept s₀ (trFields s op result) := by
  unfold trFields
  repeat' first
    | with_reducible first
      | assumption | apply setFs_kept
    | dsimp only

theorem releaseModule_kept {s₀ s : State} (n : Nat) (hK : Kept s₀ s) : Kept s₀ (releaseModule s n) := by
  unfold releaseModule
  repeat' first
    | with_reducible first
      | assumption | intro _ | apply mapTr_kept | apply trSend_kept | apply syncOut_kept | apply updDir_kept | apply reallot_kept
    | dsimp only | split | fail_if_no_progress with_reducible refine kept_mk ?_ rfl ?_ ?_ ?_ rfl | exact Nat.le_refl _ | exact Nat.zero_le _

theorem trCmd_kept {s₀ s : State} (op n : Nat) (hK : Kept s₀ s) : Kept s₀ (trCmd s op n) := by
  unfold trCmd
  repeat' first
    | with_reducible first
      | assumption | intro _ | apply sendMsg_kept | apply setFs_kept | apply mapTr_kept | apply sendHello_kept | apply sendLeave_kept
      | apply trFields_kept | apply releaseModule_kept | apply kept_ite
    | dsimp only | split | fail_if_no_progress with_reducible refine kept_mk ?_ rfl ?_ ?_ ?_ rfl | exact Nat.le_refl _ | exact Nat.zero_le _

theorem execTrussLeave_answers (s : State) : Answers s (execTrussLeave s) := by
  have hK := Kept.refl s
  unfold execTrussLeave
  repeat' first
    | with_reducible first
      | assumption | apply trCmd_kept | apply Answers.next
    | dsimp only

theorem execTrussRejoin_answers (s : State) : Answers s (execTrussRejoin s) := by
  have hK := Kept.refl s
  unfold execTrussRejoin
  repeat' first
    | with_reducible first
      | assumption | apply trCmd_kept | apply Answers.next
    | dsimp only

theorem execTrussRelease_answers (s : State) (n : Fin 512) : Answers s (execTrussRelease n s) := by
  have hK := Kept.refl s
  unfold execTrussRelease
  repeat' first
    | with_reducible first
      | assumption | apply trCmd_kept | apply Answers.next
    | dsimp only

theorem execTrussHandover_answers (s : State) : Answers s (execTrussHandover s) := by
  have hK := Kept.refl s
  unfold execTrussHandover
  repeat' first
    | with_reducible first
      | assumption | apply trCmd_kept | apply Answers.next
    | dsimp only

theorem execTrClearErrors_answers (s : State) : Answers s (execTrClearErrors s) := by
  have hK := Kept.refl s
  unfold execTrClearErrors
  repeat' first
    | with_reducible first
      | assumption | apply trCmd_kept | apply Answers.next
    | dsimp only

theorem mgmtReply_kept {s₀ s : State} (id status : Nat) (data : List Nat) (hK : Kept s₀ s) : Kept s₀ (mgmtReply s id status data) := by
  unfold mgmtReply
  repeat' first
    | with_reducible first
      | assumption | intro _ | apply sendMsg_kept | apply mapTr_kept | apply trSend_kept
    | dsimp only | split | fail_if_no_progress with_reducible refine kept_mk ?_ rfl ?_ ?_ ?_ rfl | exact Nat.le_refl _ | exact Nat.zero_le _

theorem takeRequest_kept {s₀ s : State} (h : TrussHdr) (id tenant : Nat) (hK : Kept s₀ s) : Kept s₀ (takeRequest s h id tenant).1 := by
  unfold takeRequest
  repeat' first
    | with_reducible first
      | assumption | intro _ | apply mapTr_kept | apply trussAccept_kept | refine trussAccept_eq_kept (by assumption) ?_ | apply kept_ite
    | dsimp only | split | fail_if_no_progress with_reducible refine kept_mk ?_ rfl ?_ ?_ ?_ rfl | exact Nat.le_refl _ | exact Nat.zero_le _

theorem takeRequest_eq_kept {s₀ s : State} {h : TrussHdr} {id tenant : Nat} {u₁ : State} {out : Option Nat} (he : takeRequest s h id tenant
    = (u₁, out)) (hK : Kept s₀ s) : Kept s₀ u₁ := by
  have := takeRequest_kept (s₀ := s₀) (hK := hK) (s := s) (h := h) (id := id) (tenant := tenant); rw [he] at this; exact this

theorem mgmtAt_kept {s₀ s : State} (h : TrussHdr) (id target tenant : Nat) (args : List Nat) (perform : State → Nat → State) (hK : Kept s₀
    s) (hKperform : ∀ x0 x1, Kept s₀ x0 → Kept s₀ (perform x0 x1)) : Kept s₀ (mgmtAt s h id target tenant args perform) := by
  unfold mgmtAt
  repeat' first
    | with_reducible first
      | assumption | intro _ | apply hKperform | apply trSend_kept | apply mgmtReply_kept | apply takeRequest_kept
      | refine takeRequest_eq_kept (by assumption) ?_ | apply kept_ite
    | dsimp only | split

theorem execMgmtRsp_answers (s : State) (h : TrussHdr) (id : Word) (status : Fin 4) (data : List Nat) : Answers s (execMgmtRsp h id status data s) :=
    by
  have hK := Kept.refl s
  unfold execMgmtRsp
  repeat' first
    | with_reducible first
      | assumption | intro _ | apply onTruss_kept | apply mgmtReply_kept | apply Answers.next
    | dsimp only | split

end Sys2Proof.Machine
end

