-- ==== Sys2Proof/Laws/KeptMac.lean ====
section
/-! SUPPORT. Laws/KeptMac.lean: what the operations of Machine/Mac.lean keep. -/

namespace Sys2Proof.Machine

set_option linter.unusedTactic false
set_option linter.unreachableTactic false

theorem setMac_kept {s₀ s : State} (m : Nat) (x : MacState) (hK : Kept s₀ s) : Kept s₀ (setMac s m x) := by
  unfold setMac
  repeat' first
    | with_reducible first
      | assumption
    | dsimp only | fail_if_no_progress with_reducible refine kept_mk ?_ rfl ?_ ?_ ?_ rfl | exact Nat.le_refl _ | exact Nat.zero_le _

theorem mapMac_kept {s₀ s : State} (m : Nat) (f : MacState → MacState) (hK : Kept s₀ s) : Kept s₀ (mapMac s m f) := by
  unfold mapMac
  repeat' first
    | with_reducible first
      | assumption | apply setMac_kept
    | dsimp only

theorem macCount_kept {s₀ s : State} (m i n : Nat) (hK : Kept s₀ s) : Kept s₀ (macCount s m i n) := by
  unfold macCount
  repeat' first
    | with_reducible first
      | assumption | apply incF_kept
    | dsimp only

theorem setLink_kept {s₀ s : State} (m : Nat) (up : Bool) (hK : Kept s₀ s) : Kept s₀ (setLink s m up) := by
  unfold setLink
  repeat' first
    | with_reducible first
      | assumption | intro _ | apply setB_kept | apply setF_kept | apply setFs_kept | apply kept_ite
    | dsimp only | split

theorem askTraining_kept {s₀ s : State} (m : Nat) (hK : Kept s₀ s) : Kept s₀ (askTraining s m) := by
  unfold askTraining
  repeat' first
    | with_reducible first
      | assumption | intro _ | apply setF_kept | apply govRequest_kept | apply mapMac_kept | apply kept_ite
    | dsimp only | split | fail_if_no_progress with_reducible refine kept_mk ?_ rfl ?_ ?_ ?_ rfl | exact Nat.le_refl _ | exact Nat.zero_le _

theorem stopTraining_kept {s₀ s : State} (m : Nat) (hK : Kept s₀ s) : Kept s₀ (stopTraining s m) := by
  unfold stopTraining
  repeat' first
    | with_reducible first
      | assumption | apply setFs_kept | apply govWithdraw_kept | apply pegReturn_kept | apply kept_ite
    | dsimp only | split

theorem execLinkTrainEnd_answers (s : State) (m : Fin 6) (rate : Fin 8) : Answers s (execLinkTrainEnd m rate s) := by
  have hK := Kept.refl s
  unfold execLinkTrainEnd
  repeat' first
    | with_reducible first
      | assumption | apply setF_kept | apply flushOut_kept | apply setLink_kept | apply stopTraining_kept | apply kept_ite | apply Answers.next
      | apply answers_ite
    | dsimp only | split

theorem execLinkTrainTimeout_answers (s : State) (m : Fin 6) : Answers s (execLinkTrainTimeout m s) := by
  have hK := Kept.refl s
  unfold execLinkTrainTimeout
  repeat' first
    | with_reducible first
      | assumption | apply raise_kept | apply useForce_kept | apply stopTraining_kept | apply kept_ite | apply Answers.next | apply answers_ite
    | dsimp only | split

theorem loseLink_kept {s₀ s : State} (m : Nat) (receiving : Bool) (hK : Kept s₀ s) : Kept s₀ (loseLink s m receiving) := by
  unfold loseLink
  repeat' first
    | with_reducible first
      | assumption | apply raise_kept | apply macCount_kept | apply setLink_kept | apply askTraining_kept | apply kept_ite
    | dsimp only | split

theorem execLinkLoss_answers (s : State) (m : Fin 6) (receiving : Bool) : Answers s (execLinkLoss m receiving s) := by
  have hK := Kept.refl s
  unfold execLinkLoss
  repeat' first
    | with_reducible first
      | assumption | apply loseLink_kept | apply Answers.next
    | dsimp only

theorem execInbandRateChange_answers (s : State) (m : Fin 6) (rate : Fin 8) (receiving : Bool) : Answers s (execInbandRateChange m rate receiving s)
    := by
  have hK := Kept.refl s
  unfold execInbandRateChange
  repeat' first
    | with_reducible first
      | assumption | apply setF_kept | apply macCount_kept | apply kept_ite | apply Answers.next | apply answers_ite
    | dsimp only | split

theorem macFields_kept {s₀ s : State} (m op result : Nat) (hK : Kept s₀ s) : Kept s₀ (macFields s m op result) := by
  unfold macFields
  repeat' first
    | with_reducible first
      | assumption | apply setFs_kept
    | dsimp only

theorem retrain_kept {s₀ s : State} (m : Nat) (hK : Kept s₀ s) : Kept s₀ (retrain s m) := by
  unfold retrain
  repeat' first
    | with_reducible first
      | assumption | apply setLink_kept | apply askTraining_kept | apply stopTraining_kept
    | dsimp only

theorem macCmd_kept {s₀ s : State} (m op : Nat) (hK : Kept s₀ s) : Kept s₀ (macCmd s m op) := by
  unfold macCmd
  repeat' first
    | with_reducible first
      | assumption | intro _ | apply setF_kept | apply mapMac_kept | apply setLink_kept | apply askTraining_kept | apply stopTraining_kept
      | apply macFields_kept | apply retrain_kept | apply kept_ite | apply foldl_kept | apply foldl_pair_kept
    | dsimp only | split | fail_if_no_progress with_reducible refine kept_mk ?_ rfl ?_ ?_ ?_ rfl | exact Nat.le_refl _ | exact Nat.zero_le _

theorem execMacRetrain_answers (s : State) (m : Fin 6) : Answers s (execMacRetrain m s) := by
  have hK := Kept.refl s
  unfold execMacRetrain
  repeat' first
    | with_reducible first
      | assumption | apply macCmd_kept | apply Answers.next
    | dsimp only

theorem execMacDisable_answers (s : State) (m : Fin 6) : Answers s (execMacDisable m s) := by
  have hK := Kept.refl s
  unfold execMacDisable
  repeat' first
    | with_reducible first
      | assumption | apply macCmd_kept | apply Answers.next
    | dsimp only

theorem execMacEnable_answers (s : State) (m : Fin 6) : Answers s (execMacEnable m s) := by
  have hK := Kept.refl s
  unfold execMacEnable
  repeat' first
    | with_reducible first
      | assumption | apply macCmd_kept | apply Answers.next
    | dsimp only

theorem execMacClearCounters_answers (s : State) (m : Fin 6) : Answers s (execMacClearCounters m s) := by
  have hK := Kept.refl s
  unfold execMacClearCounters
  repeat' first
    | with_reducible first
      | assumption | apply macCmd_kept | apply Answers.next
    | dsimp only

theorem execBbLosChange_answers (s : State) (m : Fin 2) (high : Bool) : Answers s (execBbLosChange m high s) := by
  have hK := Kept.refl s
  unfold execBbLosChange
  repeat' first
    | with_reducible first
      | assumption | intro _ | apply mapMac_kept | apply askTraining_kept | apply stopTraining_kept | apply loseLink_kept | apply kept_ite
      | apply Answers.next | apply answers_ite
    | dsimp only | split | fail_if_no_progress with_reducible refine kept_mk ?_ rfl ?_ ?_ ?_ rfl | exact Nat.le_refl _ | exact Nat.zero_le _


theorem recomputePool_kept {s₀ s : State} (hK : Kept s₀ s) : Kept s₀ (recomputePool s) := by
  unfold recomputePool
  repeat' first
    | with_reducible first
      | assumption | intro _ | apply setFs_kept | apply updPool_kept | apply kept_ite | apply foldl_kept | apply foldl_pair_kept
    | dsimp only | split

theorem takeCtxBuf_keptOpt {s₀ s : State} (c : Nat) (hK : Kept s₀ s) : KeptOpt s₀ (takeCtxBuf s c) := by
  unfold takeCtxBuf
  repeat' first
    | with_reducible first
      | assumption | apply setF_kept | apply setFs_kept | apply kept_ite | exact keptOpt_none _ | apply keptOpt_some | apply keptOpt_ite
    | dsimp only | split

theorem takeCtxBuf_kept {s₀ s : State} {c : Nat} {t : State} (he : takeCtxBuf s c = some t) (hK : Kept s₀ s) : Kept s₀ t :=
  (takeCtxBuf_keptOpt (hK := hK) (s := s) (c := c)).kept t he

theorem giveCtxBuf_kept {s₀ s : State} (c : Nat) (hK : Kept s₀ s) : Kept s₀ (giveCtxBuf s c) := by
  unfold giveCtxBuf
  repeat' first
    | with_reducible first
      | assumption | apply setF_kept | apply setFs_kept | apply kept_ite
    | dsimp only | split

theorem takeNeBuf_keptOpt {s₀ s : State} (hK : Kept s₀ s) : KeptOpt s₀ (takeNeBuf s) := by
  unfold takeNeBuf
  repeat' first
    | with_reducible first
      | assumption | apply kept_ite | exact keptOpt_none _ | apply keptOpt_some | apply keptOpt_ite
    | dsimp only | split | fail_if_no_progress with_reducible refine kept_mk ?_ rfl ?_ ?_ ?_ rfl | exact Nat.le_refl _ | exact Nat.zero_le _

theorem takeNeBuf_kept {s₀ s : State} {t : State} (he : takeNeBuf s = some t) (hK : Kept s₀ s) : Kept s₀ t :=
  (takeNeBuf_keptOpt (hK := hK) (s := s)).kept t he

theorem giveNeBuf_kept {s₀ s : State} (hK : Kept s₀ s) : Kept s₀ (giveNeBuf s) := by
  unfold giveNeBuf
  repeat' first
    | with_reducible first
      | assumption
    | dsimp only | fail_if_no_progress with_reducible refine kept_mk ?_ rfl ?_ ?_ ?_ rfl | exact Nat.le_refl _ | exact Nat.zero_le _

theorem takeBbBuf_keptOpt {s₀ s : State} (m : Nat) (hK : Kept s₀ s) : KeptOpt s₀ (takeBbBuf s m) := by
  unfold takeBbBuf
  repeat' first
    | with_reducible first
      | assumption | apply setF_kept | apply kept_ite | exact keptOpt_none _ | apply keptOpt_some | apply keptOpt_ite
    | dsimp only | split

theorem takeBbBuf_kept {s₀ s : State} {m : Nat} {t : State} (he : takeBbBuf s m = some t) (hK : Kept s₀ s) : Kept s₀ t :=
  (takeBbBuf_keptOpt (hK := hK) (s := s) (m := m)).kept t he


theorem shedCtx_kept {s₀ s : State} (c : Nat) (floor : Bool) (hK : Kept s₀ s) : Kept s₀ (shedCtx s c floor) := by
  unfold shedCtx
  repeat' first
    | with_reducible first
      | assumption | apply incF_kept | apply kept_ite
    | dsimp only | split | fail_if_no_progress with_reducible refine kept_mk ?_ rfl ?_ ?_ ?_ rfl | exact Nat.le_refl _ | exact Nat.zero_le _

theorem countNoBuf_kept {s₀ s : State} (m : Nat) (hK : Kept s₀ s) : Kept s₀ (countNoBuf s m) := by
  unfold countNoBuf
  repeat' first
    | with_reducible first
      | assumption | apply macCount_kept | apply kept_ite
    | dsimp only | split | fail_if_no_progress with_reducible refine kept_mk ?_ rfl ?_ ?_ ?_ rfl | exact Nat.le_refl _ | exact Nat.zero_le _

theorem rxBuffer_keptOpt {s₀ s : State} (m cls ctx : Nat) (u : List Nat) (hK : Kept s₀ s) : KeptOpt s₀ (rxBuffer s m cls ctx u) := by
  unfold rxBuffer
  repeat' first
    | with_reducible first
      | assumption | intro _ | refine takeCtxBuf_kept (by assumption) ?_ | refine takeNeBuf_kept (by assumption) ?_
      | refine takeBbBuf_kept (by assumption) ?_ | apply kept_ite | exact keptOpt_none _ | apply keptOpt_some | apply keptOpt_ite
      | apply takeCtxBuf_keptOpt | apply takeNeBuf_keptOpt | apply takeBbBuf_keptOpt
    | dsimp only | split

theorem rxBuffer_kept {s₀ s : State} {m cls ctx : Nat} {u : List Nat} {t : State} (he : rxBuffer s m cls ctx u = some t) (hK : Kept s₀ s) :
    Kept s₀ t :=
  (rxBuffer_keptOpt (hK := hK) (s := s) (m := m) (cls := cls) (ctx := ctx) (u := u)).kept t he

theorem giveBbBuf_kept {s₀ s : State} (m : Nat) (hK : Kept s₀ s) : Kept s₀ (giveBbBuf s m) := by
  unfold giveBbBuf
  exact setF_kept hK _ _

theorem rxGive_kept {s₀ s : State} (m cls ctx : Nat) (hK : Kept s₀ s) : Kept s₀ (rxGive s m cls ctx) := by
  unfold rxGive
  repeat' first
    | with_reducible first
      | assumption | intro _ | apply giveBbBuf_kept | apply giveCtxBuf_kept | apply giveNeBuf_kept | apply kept_ite
    | dsimp only | split

theorem macEmpty_kept {s₀ s : State} (m : Nat) (hK : Kept s₀ s) : Kept s₀ (macEmpty s m) := by
  unfold macEmpty
  repeat' first
    | with_reducible first
      | assumption | intro _ | apply updBb_kept | apply mapMac_kept | apply rxGive_kept | apply giveCtxBuf_kept | apply giveNeBuf_kept | apply kept_ite
      | apply foldl_kept
    | dsimp only | split | fail_if_no_progress with_reducible refine kept_mk ?_ rfl ?_ ?_ ?_ rfl | exact Nat.le_refl _ | exact Nat.zero_le _

theorem ringSetUp_kept {s₀ s : State} (m k : Nat) (hK : Kept s₀ s) : Kept s₀ (ringSetUp s m k) := by
  unfold ringSetUp
  repeat' first
    | with_reducible first
      | assumption | apply freshFree_kept | refine freshFree_eq_kept (by assumption) ?_ | apply setFs_kept | apply kept_ite
    | dsimp only | split

theorem ringStep_kept {s₀ s : State} (m k : Nat) (f : RF) (hK : Kept s₀ s) : Kept s₀ (ringStep s m k f) := by
  unfold ringStep
  repeat' first
    | with_reducible first
      | assumption | apply setF_kept
    | dsimp only

theorem execRxDescPost_answers (s : State) (m : Fin 6) (k : Fin 4) : Answers s (execRxDescPost m k s) := by
  have hK := Kept.refl s
  unfold execRxDescPost
  repeat' first
    | with_reducible first
      | assumption | intro _ | apply mapMac_kept | apply rxGive_kept | apply ringSetUp_kept | apply ringStep_kept | apply kept_ite
      | apply Answers.next | apply answers_ite
    | dsimp only | split | fail_if_no_progress with_reducible refine kept_mk ?_ rfl ?_ ?_ ?_ rfl | exact Nat.le_refl _ | exact Nat.zero_le _

theorem pauseEffect_kept {s₀ s : State} (m quanta : Nat) (hK : Kept s₀ s) : Kept s₀ (pauseEffect s m quanta) := by
  unfold pauseEffect
  repeat' first
    | with_reducible first
      | assumption | intro _ | apply setB_kept | apply startTime_kept | apply mapMac_kept | apply macCount_kept | apply kept_ite
    | dsimp only | split | fail_if_no_progress with_reducible refine kept_mk ?_ rfl ?_ ?_ ?_ rfl | exact Nat.le_refl _ | exact Nat.zero_le _

theorem queueRequest_kept {s₀ s : State} (m ring i ctx vid len : Nat) (hK : Kept s₀ s) : Kept s₀ (queueRequest s m ring i ctx vid len) := by
  unfold queueRequest
  repeat' first
    | with_reducible first
      | assumption | intro _ | apply incSatF_kept | apply mapMac_kept | apply rxGive_kept | apply kept_ite
    | dsimp only | split | fail_if_no_progress with_reducible refine kept_mk ?_ rfl ?_ ?_ ?_ rfl | exact Nat.le_refl _ | exact Nat.zero_le _

theorem storeFrame_kept {s₀ s : State} (m : Nat) (f : RxFrame) (u : List Nat) (tags vid pcp cls ring ctx : Nat) (hK : Kept s₀ s) :
    Kept s₀ (storeFrame s m f u tags vid pcp cls ring ctx) := by
  unfold storeFrame
  refine kept_ite ?_ ?_
  · exact kept_mk (incSatF_kept hK _ _) rfl (Nat.le_refl _) (Nat.le_refl _) (Nat.le_refl _) rfl
  · split
    · exact kept_ite (shedCtx_kept _ _ (countNoBuf_kept _ hK)) (countNoBuf_kept _ hK)
    · rename_i s' hs
      have k := rxBuffer_kept (he := hs) (hK := hK)
      clear hs
      refine kept_ite (macCount_kept _ _ _ hK) ?_
      split
      rename_i b t ht
      have k2 := freshFree_eq_kept ht k
      clear ht
      split
      refine kept_ite (queueRequest_kept _ _ _ _ _ _ ?_) ?_ <;>
        exact macCount_kept _ _ _ (macCount_kept _ _ _ (ringStep_kept _ _ _ (mapMac_kept _ _ k2)))

theorem receiveFrame_kept {s₀ s : State} (m : Nat) (f : RxFrame) (hK : Kept s₀ s) : Kept s₀ (receiveFrame s m f) := by
  unfold receiveFrame
  repeat' first
    | with_reducible first
      | assumption | intro _ | apply cross_kept | apply macCount_kept | apply pauseEffect_kept | apply storeFrame_kept | apply kept_ite
    | dsimp only | split

theorem execFrameReceive_answers (s : State) (m : Fin 6) (f : RxFrame) : Answers s (execFrameReceive m f s) := by
  have hK := Kept.refl s
  unfold execFrameReceive
  repeat' first
    | with_reducible first
      | assumption | apply receiveFrame_kept | apply Answers.next
    | dsimp only

theorem execPauseReceive_answers (s : State) (m : Fin 6) (quanta : Fin 65536) : Answers s (execPauseReceive m quanta s) := by
  have hK := Kept.refl s
  unfold execPauseReceive
  repeat' first
    | with_reducible first
      | assumption | apply pauseEffect_kept | apply Answers.next
    | dsimp only

theorem execPauseExpire_answers (s : State) (m : Fin 6) : Answers s (execPauseExpire m s) := by
  have hK := Kept.refl s
  unfold execPauseExpire
  repeat' first
    | with_reducible first
      | assumption | intro _ | apply setF_kept | apply mapMac_kept | apply kept_ite | apply Answers.next | apply answers_ite
    | dsimp only | split | fail_if_no_progress with_reducible refine kept_mk ?_ rfl ?_ ?_ ?_ rfl | exact Nat.le_refl _ | exact Nat.zero_le _

theorem execPauseWatchdog_answers (s : State) (m : Fin 6) : Answers s (execPauseWatchdog m s) := by
  have hK := Kept.refl s
  unfold execPauseWatchdog
  repeat' first
    | with_reducible first
      | assumption | intro _ | apply setFs_kept | apply raise_kept | apply mapMac_kept | apply macCount_kept | apply kept_ite | apply Answers.next
      | apply answers_ite
    | dsimp only | split | fail_if_no_progress with_reducible refine kept_mk ?_ rfl ?_ ?_ ?_ rfl | exact Nat.le_refl _ | exact Nat.zero_le _

theorem execPauseRearm_answers (s : State) (m : Fin 6) : Answers s (execPauseRearm m s) := by
  have hK := Kept.refl s
  unfold execPauseRearm
  repeat' first
    | with_reducible first
      | assumption | apply setF_kept | apply kept_ite | apply Answers.next | apply answers_ite
    | dsimp only | split

theorem execTxDescPost_answers (s : State) (m : Fin 6) (k : Fin 3) (d : TxPost) : Answers s (execTxDescPost m k d s) := by
  unfold execTxDescPost
  dsimp only
  have hK := ringSetUp_kept m.val (k.val + 4) (Kept.refl s)
  refine answers_ite (Answers.next hK) ?_
  split
  · exact Answers.next hK
  · rename_i t ht
    have k2 : Kept s t := by
      split at ht
      · exact takeNeBuf_kept (he := ht) (hK := hK)
      · exact takeCtxBuf_kept (he := ht) (hK := hK)
    clear ht
    exact Answers.next (startTime_kept (setF_kept (ringStep_kept _ _ _ (mapMac_kept _ _ k2)) _ _) _)

theorem stampTx_kept {s₀ s : State} (m k i : Nat) (d : TxPost) (sec ns : Nat) (hK : Kept s₀ s) : Kept s₀ (stampTx s m k i d sec ns) := by
  unfold stampTx
  repeat' first
    | with_reducible first
      | assumption | intro _ | apply setF_kept | apply raise_kept | apply mapMac_kept | apply macCount_kept | apply kept_ite
    | dsimp only | split | fail_if_no_progress with_reducible refine kept_mk ?_ rfl ?_ ?_ ?_ rfl | exact Nat.le_refl _ | exact Nat.zero_le _

theorem completeTx_kept {s₀ s : State} (m k : Nat) (d : TxDesc) (status : Nat) (hK : Kept s₀ s) : Kept s₀ (completeTx s m k d status) := by
  unfold completeTx
  repeat' first
    | with_reducible first
      | assumption | intro _ | apply mapMac_kept | apply giveCtxBuf_kept | apply giveNeBuf_kept | apply ringStep_kept | apply kept_ite
    | dsimp only | split | fail_if_no_progress with_reducible refine kept_mk ?_ rfl ?_ ?_ ?_ rfl | exact Nat.le_refl _ | exact Nat.zero_le _

theorem transmitNext_kept {s₀ s : State} (m sec ns : Nat) (hK : Kept s₀ s) : Kept s₀ (transmitNext s m sec ns) := by
  unfold transmitNext
  repeat' first
    | with_reducible first
      | assumption | intro _ | apply cross_kept | apply sendMsg_kept | apply startTime_kept | apply setMac_kept | apply macCount_kept
      | apply stampTx_kept | apply completeTx_kept | apply kept_ite
    | dsimp only | split

theorem execFrameTransmit_answers (s : State) (m : Fin 6) (sec : Fin 0x1000000000000) (ns : Fin 1000000000) : Answers s (execFrameTransmit m sec ns s)
    := by
  have hK := Kept.refl s
  unfold execFrameTransmit
  repeat' first
    | with_reducible first
      | assumption | apply transmitNext_kept | apply Answers.next
    | dsimp only

theorem execLpiEnter_answers (s : State) (m : Fin 6) : Answers s (execLpiEnter m s) := by
  have hK := Kept.refl s
  unfold execLpiEnter
  repeat' first
    | with_reducible first
      | assumption | apply setF_kept | apply macCount_kept | apply kept_ite | apply Answers.next | apply answers_ite
    | dsimp only | split

theorem dozeWake_kept {s₀ s : State} (cause : Nat) (hK : Kept s₀ s) : Kept s₀ (dozeWake s cause) := by
  unfold dozeWake
  repeat' first
    | with_reducible first
      | assumption | apply setF_kept | apply assertReset_kept
    | dsimp only

theorem execWakeFrame_answers (s : State) (m : Fin 6) (octets : List Nat) : Answers s (execWakeFrame m octets s) := by
  have hK := Kept.refl s
  unfold execWakeFrame
  repeat' first
    | with_reducible first
      | assumption | apply setF_kept | apply macCount_kept | apply dozeWake_kept | apply kept_ite | apply Answers.next | apply answers_ite
    | dsimp only | split

end Sys2Proof.Machine
end

