-- ==== Sys2Proof/Laws/KeptSill.lean ====
section
/-! SUPPORT. Laws/KeptSill.lean: what the operations of Machine/Sill.lean keep. -/

namespace Sys2Proof.Machine

set_option linter.unusedTactic false
set_option linter.unreachableTactic false

theorem readTickLo_kept {s₀ s : State} (q : Requester) (hK : Kept s₀ s) : Kept s₀ (readTickLo s q) := by
  unfold readTickLo
  repeat' first
    | with_reducible first
      | assumption | apply setReply_kept
    | dsimp only | fail_if_no_progress with_reducible refine kept_mk ?_ rfl ?_ ?_ ?_ rfl | exact Nat.le_refl _ | exact Nat.zero_le _

theorem readTickHi_kept {s₀ s : State} (q : Requester) (hK : Kept s₀ s) : Kept s₀ (readTickHi s q) := by
  unfold readTickHi
  repeat' first
    | with_reducible first
      | assumption | intro _ | apply setReply_kept
    | dsimp only | split | fail_if_no_progress with_reducible refine kept_mk ?_ rfl ?_ ?_ ?_ rfl | exact Nat.le_refl _ | exact Nat.zero_le _

theorem execRtcTickLoRead_answers (s : State) (q : Requester) : Answers s (execRtcTickLoRead q s) := by
  have hK := Kept.refl s
  unfold execRtcTickLoRead
  repeat' first
    | with_reducible first
      | assumption | apply readTickLo_kept | apply Answers.next
    | dsimp only

theorem execRtcTickHiRead_answers (s : State) (q : Requester) : Answers s (execRtcTickHiRead q s) := by
  have hK := Kept.refl s
  unfold execRtcTickHiRead
  repeat' first
    | with_reducible first
      | assumption | apply readTickHi_kept | apply Answers.next
    | dsimp only

theorem rtcCapture_kept {s₀ s : State} (hK : Kept s₀ s) : Kept s₀ (rtcCapture s) := by
  unfold rtcCapture
  repeat' first
    | with_reducible first
      | assumption | apply askAgain_kept | apply setF_kept | apply startTime_kept | apply kept_ite
    | dsimp only | split | fail_if_no_progress with_reducible refine kept_mk ?_ rfl ?_ ?_ ?_ rfl | exact Nat.le_refl _ | exact Nat.zero_le _

theorem execRtcLoad_answers (s : State) : Answers s (execRtcLoad s) := by
  have hK := Kept.refl s
  unfold execRtcLoad
  repeat' first
    | with_reducible first
      | assumption | apply rtcCapture_kept | apply Answers.next
    | dsimp only

theorem execRtcLoadApply_answers (s : State) : Answers s (execRtcLoadApply s) := by
  have load : ∀ (u : State) (r : RtcState), Kept s u → r.count < 2 ^ 48 → Kept s { u with rtc := r } := fun u r h hr =>
    kept_core h (fun k => k) (fun c => by
      rw [clocksWf_iff] at c ⊢
      exact ⟨c.1, c.2.1, c.2.2.1, hr⟩) (fun k => k) rfl (Nat.le_refl _) (Nat.le_refl _)
  unfold execRtcLoadApply
  split
  · exact Answers.next (Kept.refl s)
  · refine answers_ite (Answers.next (incF_kept (load _ _ (takeAsk_kept (Kept.refl s) _) (Nat.mod_lt _ (by decide))) _ _)) ?_
    refine answers_ite (Answers.next (Kept.refl s)) (Answers.next (incF_kept (setF_kept ?_ _ _) _ _))
    exact load _ _ (Kept.refl s) (Nat.mod_lt _ (by decide))

theorem wakeEvent_kept {s₀ s : State} (cause : Nat) (hK : Kept s₀ s) : Kept s₀ (wakeEvent s cause) := by
  unfold wakeEvent
  repeat' first
    | with_reducible first
      | assumption | intro _ | apply incF_kept | apply latchF_kept | apply dozeWake_kept
    | dsimp only | split

theorem execRtcAlarmFire_answers (s : State) : Answers s (execRtcAlarmFire s) := by
  have hK := Kept.refl s
  unfold execRtcAlarmFire
  repeat' first
    | with_reducible first
      | assumption | apply latchF_kept | apply setF_kept | apply wakeEvent_kept | apply kept_ite | apply Answers.next | apply answers_ite
    | dsimp only | split

theorem execRtcWakeEvent_answers (s : State) : Answers s (execRtcWakeEvent s) := by
  have hK := Kept.refl s
  unfold execRtcWakeEvent
  repeat' first
    | with_reducible first
      | assumption | apply wakeEvent_kept | apply kept_ite | apply Answers.next | apply answers_ite
    | dsimp only | split

theorem execRtcDriftMeasure_answers (s : State) (ppm : BitVec 24) : Answers s (execRtcDriftMeasure ppm s) := by
  have hK := Kept.refl s
  unfold execRtcDriftMeasure
  repeat' first
    | with_reducible first
      | assumption | intro _ | apply setFs_kept | apply startTime_kept | apply raise_kept | apply useForce_kept | apply kept_ite | apply Answers.next
      | apply answers_ite
    | dsimp only | split | fail_if_no_progress with_reducible refine kept_mk ?_ rfl ?_ ?_ ?_ rfl | exact Nat.le_refl _ | exact Nat.zero_le _

theorem putKsBuf_kept {s₀ s : State} (q : Nat) (octets : List Nat) (hK : Kept s₀ s) : Kept s₀ (putKsBuf s q octets) := by
  unfold putKsBuf
  repeat' first
    | with_reducible first
      | assumption | intro _ | apply setF_kept | apply kept_ite | apply foldl_kept | apply foldl_pair_kept
    | dsimp only | split

theorem keyIssue_kept {s₀ s : State} (q op key : Nat) (hK : Kept s₀ s) : Kept s₀ (keyIssue s q op key) := by
  unfold keyIssue
  repeat' first
    | with_reducible first
      | assumption | intro _ | apply askAgain_kept | apply setFs_kept | apply mapSe_kept | apply kept_ite
    | dsimp only | split | fail_if_no_progress with_reducible refine kept_mk ?_ rfl ?_ ?_ ?_ rfl | exact Nat.le_refl _ | exact Nat.zero_le _
    | exact List.length_filter_le _ _ | (apply Nat.le_of_eq; simp; done) | (simp; done) | (rw [(by assumption : _ = _ :: _)]; exact Nat.le_refl _)

theorem execKeyImport_answers (s : State) (q : Requester) (key : Fin 2) : Answers s (execKeyImport q key s) := by
  have hK := Kept.refl s
  unfold execKeyImport
  repeat' first
    | with_reducible first
      | assumption | apply keyIssue_kept | apply Answers.next
    | dsimp only

theorem execGenerate_answers (s : State) (q : Requester) (key : Fin 2) : Answers s (execGenerate q key s) := by
  have hK := Kept.refl s
  unfold execGenerate
  repeat' first
    | with_reducible first
      | assumption | apply keyIssue_kept | apply Answers.next
    | dsimp only

theorem execActivate_answers (s : State) (q : Requester) (key : Fin 2) : Answers s (execActivate q key s) := by
  have hK := Kept.refl s
  unfold execActivate
  repeat' first
    | with_reducible first
      | assumption | apply keyIssue_kept | apply Answers.next
    | dsimp only

theorem execKeyClear_answers (s : State) (q : Requester) (key : Fin 2) : Answers s (execKeyClear q key s) := by
  have hK := Kept.refl s
  unfold execKeyClear
  repeat' first
    | with_reducible first
      | assumption | apply keyIssue_kept | apply Answers.next
    | dsimp only

theorem execClearPair_answers (s : State) (q : Requester) : Answers s (execClearPair q s) := by
  have hK := Kept.refl s
  unfold execClearPair
  repeat' first
    | with_reducible first
      | assumption | apply keyIssue_kept | apply Answers.next
    | dsimp only

theorem execReadPublic_answers (s : State) (q : Requester) (key : Fin 2) : Answers s (execReadPublic q key s) := by
  have hK := Kept.refl s
  unfold execReadPublic
  repeat' first
    | with_reducible first
      | assumption | apply keyIssue_kept | apply Answers.next
    | dsimp only

theorem execReadId_answers (s : State) (q : Requester) : Answers s (execReadId q s) := by
  have hK := Kept.refl s
  unfold execReadId
  repeat' first
    | with_reducible first
      | assumption | apply keyIssue_kept | apply Answers.next
    | dsimp only

theorem importEnd_kept {s₀ s : State} (c : KeyCmd) (hK : Kept s₀ s) : Kept s₀ (importEnd s c).1 := by
  unfold importEnd
  repeat' first
    | with_reducible first
      | assumption | intro _ | apply setSlot_kept | apply kept_ite
    | dsimp only | split

theorem importEnd_eq_kept {s₀ s : State} {c : KeyCmd} {u₁ : State} {out : Nat} (he : importEnd s c = (u₁, out)) (hK : Kept s₀ s) : Kept s₀
    u₁ := by
  have := importEnd_kept (s₀ := s₀) (hK := hK) (s := s) (c := c); rw [he] at this; exact this

theorem generateEnd_kept {s₀ s : State} (c : KeyCmd) (hK : Kept s₀ s) : Kept s₀ (generateEnd s c).1 := by
  unfold generateEnd
  repeat' first
    | with_reducible first
      | assumption | intro _ | apply freshFree_kept | refine freshFree_eq_kept (by assumption) ?_ | apply setSlot_kept
    | dsimp only | split

theorem generateEnd_eq_kept {s₀ s : State} {c : KeyCmd} {u₁ : State} {out : Nat} (he : generateEnd s c = (u₁, out)) (hK : Kept s₀ s) : Kept
    s₀ u₁ := by
  have := generateEnd_kept (s₀ := s₀) (hK := hK) (s := s) (c := c); rw [he] at this; exact this

theorem dropOscore_kept {s₀ s : State} (pair : Nat) (hK : Kept s₀ s) : Kept s₀ (dropOscore s pair) := by
  unfold dropOscore
  repeat' first
    | with_reducible first
      | assumption | intro _
    | dsimp only | split | fail_if_no_progress with_reducible refine kept_mk ?_ rfl ?_ ?_ ?_ rfl | exact Nat.le_refl _ | exact Nat.zero_le _

theorem activateEnd_kept {s₀ s : State} (c : KeyCmd) (hK : Kept s₀ s) : Kept s₀ (activateEnd s c).1 := by
  unfold activateEnd
  repeat' first
    | with_reducible first
      | assumption | apply setSlot_kept | apply dropOscore_kept | apply kept_ite
    | dsimp only | split | fail_if_no_progress with_reducible refine kept_mk ?_ rfl ?_ ?_ ?_ rfl | exact Nat.le_refl _ | exact Nat.zero_le _

theorem activateEnd_eq_kept {s₀ s : State} {c : KeyCmd} {u₁ : State} {out : Nat} (he : activateEnd s c = (u₁, out)) (hK : Kept s₀ s) : Kept
    s₀ u₁ := by
  have := activateEnd_kept (s₀ := s₀) (hK := hK) (s := s) (c := c); rw [he] at this; exact this

theorem clearEnd_kept {s₀ s : State} (c : KeyCmd) (hK : Kept s₀ s) : Kept s₀ (clearEnd s c).1 := by
  unfold clearEnd
  repeat' first
    | with_reducible first
      | assumption | apply setSlot_kept | apply kept_ite
    | dsimp only | split

theorem clearEnd_eq_kept {s₀ s : State} {c : KeyCmd} {u₁ : State} {out : Nat} (he : clearEnd s c = (u₁, out)) (hK : Kept s₀ s) : Kept s₀ u₁
    := by
  have := clearEnd_kept (s₀ := s₀) (hK := hK) (s := s) (c := c); rw [he] at this; exact this

theorem readPublicEnd_kept {s₀ s : State} (c : KeyCmd) (hK : Kept s₀ s) : Kept s₀ (readPublicEnd s c).1 := by
  unfold readPublicEnd
  repeat' first
    | with_reducible first
      | assumption | apply putKsBuf_kept | apply kept_ite
    | dsimp only | split

theorem readPublicEnd_eq_kept {s₀ s : State} {c : KeyCmd} {u₁ : State} {out : Nat} (he : readPublicEnd s c = (u₁, out)) (hK : Kept s₀ s) :
    Kept s₀ u₁ := by
  have := readPublicEnd_kept (s₀ := s₀) (hK := hK) (s := s) (c := c); rw [he] at this; exact this

theorem readIdEnd_kept {s₀ s : State} (c : KeyCmd) (hK : Kept s₀ s) : Kept s₀ (readIdEnd s c).1 := by
  unfold readIdEnd
  repeat' first
    | with_reducible first
      | assumption | apply putKsBuf_kept | apply kept_ite
    | dsimp only | split

theorem readIdEnd_eq_kept {s₀ s : State} {c : KeyCmd} {u₁ : State} {out : Nat} (he : readIdEnd s c = (u₁, out)) (hK : Kept s₀ s) : Kept s₀
    u₁ := by
  have := readIdEnd_kept (s₀ := s₀) (hK := hK) (s := s) (c := c); rw [he] at this; exact this

theorem keyEffect_kept {s₀ s : State} (c : KeyCmd) (hK : Kept s₀ s) : Kept s₀ (keyEffect s c).1 := by
  unfold keyEffect
  repeat' first
    | with_reducible first
      | assumption | intro _ | apply setSlot_kept | apply importEnd_kept | refine importEnd_eq_kept (by assumption) ?_ | apply generateEnd_kept
      | refine generateEnd_eq_kept (by assumption) ?_ | apply activateEnd_kept | refine activateEnd_eq_kept (by assumption) ?_ | apply clearEnd_kept
      | refine clearEnd_eq_kept (by assumption) ?_ | apply readPublicEnd_kept | refine readPublicEnd_eq_kept (by assumption) ?_ | apply readIdEnd_kept
      | refine readIdEnd_eq_kept (by assumption) ?_ | apply kept_ite
    | dsimp only | split

theorem keyEffect_eq_kept {s₀ s : State} {c : KeyCmd} {u₁ : State} {out : Nat} (he : keyEffect s c = (u₁, out)) (hK : Kept s₀ s) : Kept s₀
    u₁ := by
  have := keyEffect_kept (s₀ := s₀) (hK := hK) (s := s) (c := c); rw [he] at this; exact this

theorem keyFinish_kept {s₀ s : State} (c : KeyCmd) (r : Nat) (hK : Kept s₀ s) : Kept s₀ (keyFinish s c r) := by
  unfold keyFinish
  repeat' first
    | with_reducible first
      | assumption | apply setFs_kept
    | dsimp only

theorem keyAgain_kept {s₀ s : State} (q : Nat) (hK : Kept s₀ s) : Kept s₀ (keyAgain s q) := by
  unfold keyAgain
  repeat' first
    | with_reducible first
      | assumption | apply takeAsk_kept | apply keyIssue_kept | apply kept_ite
    | dsimp only | split

theorem execKeyCommandDone_answers (s : State) : Answers s (execKeyCommandDone s) := by
  have hK := Kept.refl s
  unfold execKeyCommandDone
  repeat' first
    | with_reducible first
      | assumption | intro _ | apply mapSe_kept | apply keyEffect_kept | refine keyEffect_eq_kept (by assumption) ?_ | apply keyFinish_kept
      | apply keyAgain_kept | apply kept_ite | apply Answers.next | apply answers_ite
    | dsimp only | split | fail_if_no_progress with_reducible refine kept_mk ?_ rfl ?_ ?_ ?_ rfl | exact Nat.le_refl _ | exact Nat.zero_le _
    | exact List.length_filter_le _ _ | (apply Nat.le_of_eq; simp; done) | (simp; done) | (rw [(by assumption : _ = _ :: _)]; exact Nat.le_refl _)

theorem kerf_kept {s₀ s : State} (hK : Kept s₀ s) : Kept s₀ (kerf s) := by
  unfold kerf
  repeat' first
    | with_reducible first
      | assumption | intro _ | apply incSatF_kept | apply latchF_kept | apply wipeSecure_kept | apply mapSe_kept | apply clearMortise_kept
      | apply keyFinish_kept | apply foldl_kept | apply foldl_pair_kept
    | dsimp only | split | fail_if_no_progress with_reducible refine kept_mk ?_ rfl ?_ ?_ ?_ rfl | exact Nat.le_refl _ | exact Nat.zero_le _
    | exact List.length_filter_le _ _ | (apply Nat.le_of_eq; simp; done) | (simp; done) | (rw [(by assumption : _ = _ :: _)]; exact Nat.le_refl _)

theorem execKerfAssert_answers (s : State) : Answers s (execKerfAssert s) := by
  have hK := Kept.refl s
  unfold execKerfAssert
  repeat' first
    | with_reducible first
      | assumption | apply kerf_kept | apply Answers.next
    | dsimp only

theorem execSecureBankWipeEnd_answers (s : State) : Answers s (execSecureBankWipeEnd s) := by
  have hK := Kept.refl s
  unfold execSecureBankWipeEnd
  repeat' first
    | with_reducible first
      | assumption | apply setF_kept | apply kept_ite | apply Answers.next | apply answers_ite
    | dsimp only | split

theorem tmpMonWord_kept {s₀ s : State} (hK : Kept s₀ s) : Kept s₀ (tmpMonWord s).2 := by
  unfold tmpMonWord
  repeat' first
    | with_reducible first
      | assumption | apply freshFree_kept | refine freshFree_eq_kept (by assumption) ?_
    | dsimp only | split

theorem tmpMonWord_eq_kept {s₀ s : State} {u₁ : State} {out : Nat} (he : tmpMonWord s = (out, u₁)) (hK : Kept s₀ s) : Kept s₀ u₁ := by
  have := tmpMonWord_kept (s₀ := s₀) (hK := hK) (s := s); rw [he] at this; exact this

theorem tamperLog_kept {s₀ s : State} (n : Nat) (asserted : Bool) (hK : Kept s₀ s) : Kept s₀ (tamperLog s n asserted) := by
  unfold tamperLog
  repeat' first
    | with_reducible first
      | assumption | intro _ | apply incSatF_kept | apply logEvent_kept | apply setF_kept | apply mapSe_kept | apply tmpMonWord_kept
      | refine tmpMonWord_eq_kept (by assumption) ?_ | apply kept_ite
    | dsimp only | split | fail_if_no_progress with_reducible refine kept_mk ?_ rfl ?_ ?_ ?_ rfl | exact Nat.le_refl _ | exact Nat.zero_le _

theorem tamperMark_kept {s₀ s : State} (n a : Nat) (hK : Kept s₀ s) : Kept s₀ (tamperMark s n a) := by
  unfold tamperMark
  repeat' first
    | with_reducible first
      | assumption | intro _ | apply latchF_kept | apply setF_kept | apply mapSe_kept | apply tamperLog_kept | apply kept_ite
    | dsimp only | split | fail_if_no_progress with_reducible refine kept_mk ?_ rfl ?_ ?_ ?_ rfl | exact Nat.le_refl _ | exact Nat.zero_le _

theorem tamperOne_kept {s₀ s : State} (n : Nat) (hK : Kept s₀ s) : Kept s₀ (tamperOne s n) := by
  unfold tamperOne
  repeat' first
    | with_reducible first
      | assumption | apply raise_kept | apply tamperMark_kept | apply kept_ite
    | dsimp only | split

/-- A tick in which one source's condition is met. -/
theorem one_source : ∀ n : Fin 9, (List.finRange 9).filter (fun x => [n].contains x) = [n] := by decide

theorem tamperEvent_kept {s₀ s : State} (met : List (Fin 9)) (reads : List TampRead) (hK : Kept s₀ s) : Kept s₀ (tamperEvent s met reads) :=
    by
  unfold tamperEvent
  repeat' first
    | with_reducible first
      | assumption | intro _ | apply setF_kept | apply kerf_kept | apply tamperOne_kept | apply kept_ite | apply foldl_kept | apply foldl_pair_kept
    | dsimp only | split

theorem execTamperEvent_answers (s : State) (t : TampTick) : Answers s (execTamperEvent t s) := by
  have hK := Kept.refl s
  unfold execTamperEvent
  repeat' first
    | with_reducible first
      | assumption | apply tamperEvent_kept | apply Answers.next
    | dsimp only

theorem execTamperConditionClear_answers (s : State) (source : Fin 9) : Answers s (execTamperConditionClear source s) := by
  have hK := Kept.refl s
  unfold execTamperConditionClear
  repeat' first
    | with_reducible first
      | assumption | apply setF_kept | apply Answers.next
    | dsimp only

theorem tamperCause_kept {s₀ s : State} (latched : Nat) (hK : Kept s₀ s) : Kept s₀ (tamperCause s latched) := by
  unfold tamperCause
  repeat' first
    | with_reducible first
      | assumption | intro _ | apply setB_kept | apply setF_kept | apply mapSe_kept
    | dsimp only | split | fail_if_no_progress with_reducible refine kept_mk ?_ rfl ?_ ?_ ?_ rfl | exact Nat.le_refl _ | exact Nat.zero_le _

theorem tmpFields_kept {s₀ s : State} (op result : Nat) (hK : Kept s₀ s) : Kept s₀ (tmpFields s op result) := by
  unfold tmpFields
  repeat' first
    | with_reducible first
      | assumption | apply setFs_kept
    | dsimp only

theorem tmpCmd_kept {s₀ s : State} (op : Nat) (hK : Kept s₀ s) : Kept s₀ (tmpCmd s op) := by
  unfold tmpCmd
  repeat' first
    | with_reducible first
      | assumption | intro _ | apply setFs_kept | apply mapSe_kept | apply kerf_kept | apply tmpFields_kept | apply kept_ite
    | dsimp only | split | fail_if_no_progress with_reducible refine kept_mk ?_ rfl ?_ ?_ ?_ rfl | exact Nat.le_refl _ | exact Nat.zero_le _

theorem execTmpKerf_answers (s : State) : Answers s (execTmpKerf s) := by
  have hK := Kept.refl s
  unfold execTmpKerf
  repeat' first
    | with_reducible first
      | assumption | apply tmpCmd_kept | apply Answers.next
    | dsimp only

theorem execTmpClearLog_answers (s : State) : Answers s (execTmpClearLog s) := by
  have hK := Kept.refl s
  unfold execTmpClearLog
  repeat' first
    | with_reducible first
      | assumption | apply tmpCmd_kept | apply Answers.next
    | dsimp only

theorem tmpLogSel_kept {s₀ s : State} (i : Nat) (hK : Kept s₀ s) : Kept s₀ (tmpLogSel s i) := by
  unfold tmpLogSel
  repeat' first
    | with_reducible first
      | assumption | intro _ | apply setF_kept | apply foldl_kept | apply foldl_pair_kept
    | dsimp only | split

theorem execTmpLogSelWrite_answers (s : State) (entry : Fin 32) : Answers s (execTmpLogSelWrite entry s) := by
  have hK := Kept.refl s
  unfold execTmpLogSelWrite
  repeat' first
    | with_reducible first
      | assumption | apply tmpLogSel_kept | apply Answers.next
    | dsimp only

theorem lcFields_kept {s₀ s : State} (op target result : Nat) (hK : Kept s₀ s) : Kept s₀ (lcFields s op target result) := by
  unfold lcFields
  repeat' first
    | with_reducible first
      | assumption | apply setFs_kept
    | dsimp only

theorem freshNonce_kept {s₀ s : State} (hK : Kept s₀ s) : Kept s₀ (freshNonce s) := by
  unfold freshNonce
  repeat' first
    | with_reducible first
      | assumption | intro _ | apply freshFree_kept | refine freshFree_eq_kept (by assumption) ?_ | apply setF_kept | apply startTime_kept
      | apply mapSe_kept | apply foldl_kept | apply foldl_pair_kept
    | dsimp only | split | fail_if_no_progress with_reducible refine kept_mk ?_ rfl ?_ ?_ ?_ rfl | exact Nat.le_refl _ | exact Nat.zero_le _

theorem useNonce_kept {s₀ s : State} (hK : Kept s₀ s) : Kept s₀ (useNonce s) := by
  unfold useNonce
  repeat' first
    | with_reducible first
      | assumption | intro _ | apply mapSe_kept
    | dsimp only | split | fail_if_no_progress with_reducible refine kept_mk ?_ rfl ?_ ?_ ?_ rfl | exact Nat.le_refl _ | exact Nat.zero_le _

theorem authorise_kept {s₀ s : State} (target op : Nat) (hK : Kept s₀ s) : Kept s₀ (authorise s target op).1 := by
  unfold authorise
  repeat' first
    | with_reducible first
      | assumption | apply useNonce_kept | apply kept_ite
    | dsimp only | split

theorem authorise_eq_kept {s₀ s : State} {target op : Nat} {u₁ : State} {out : Option Nat} (he : authorise s target op = (u₁, out)) (hK :
    Kept s₀ s) : Kept s₀ u₁ := by
  have := authorise_kept (s₀ := s₀) (hK := hK) (s := s) (target := target) (op := op); rw [he] at this; exact this

theorem enterLife_kept {s₀ s : State} (t : Nat) (hK : Kept s₀ s) : Kept s₀ (enterLife s t) := by
  unfold enterLife
  have k : Kept s₀ (mapSe s (fun e => { e with fused := if t = 3 then e.fused else max e.fused t })) := by
    refine mapSe_kept _ hK ?_
    dsimp only
    split
    · exact Nat.le_refl _
    · exact Nat.le_max_left _ _
  generalize mapSe s (fun e => { e with fused := if t = 3 then e.fused else max e.fused t }) = u at k ⊢
  dsimp only
  refine wipeSecure_kept (kept_ite ?_ ?_)
  · exact setFs_kept (kerf_kept (kept_ite (incSatF_kept (setFs_kept k _) _ _) (setFs_kept k _))) _
  · exact kept_ite (incSatF_kept (setFs_kept k _) _ _) (setFs_kept k _)

/-- A transition that needs a signature. -/
theorem signed_kept {s₀ s : State} (t : Nat) (ready : Bool) (hK : Kept s₀ s) :
    Kept s₀ (match authorise s t 2 with
      | (s, some r) => lcFields s 2 t r
      | (s, none) => if ready then enterLife (lcFields s 2 t 0) t else lcFields s 2 t 2) := by
  split
  · rename_i h; exact lcFields_kept _ _ _ (authorise_eq_kept h hK)
  · rename_i h
    have k := authorise_eq_kept h hK
    exact kept_ite (enterLife_kept _ (lcFields_kept _ _ _ k)) (lcFields_kept _ _ _ k)

theorem lcTransition_kept {s₀ s : State} (t : Nat) (hK : Kept s₀ s) : Kept s₀ (lcTransition s t) := by
  unfold lcTransition
  split
  · exact enterLife_kept _ (clearMortise_kept (mapSe_kept _ (lcFields_kept _ _ _ hK) (Nat.le_refl _)))
  · exact enterLife_kept _ (lcFields_kept _ _ _ hK)
  · exact signed_kept _ _ hK
  · exact signed_kept _ _ hK
  · exact signed_kept _ _ hK
  · exact signed_kept _ _ hK
  · exact signed_kept _ _ hK
  · exact signed_kept _ _ hK
  · exact lcFields_kept _ _ _ hK

theorem lcUnlock_kept {s₀ s : State} (hK : Kept s₀ s) : Kept s₀ (lcUnlock s) := by
  unfold lcUnlock
  dsimp only
  refine kept_ite (lcFields_kept _ _ _ hK) ?_
  split
  · rename_i h; exact lcFields_kept _ _ _ (authorise_eq_kept h hK)
  · rename_i h; exact setF_kept (lcFields_kept _ _ _ (authorise_eq_kept h hK)) _ _

theorem lcCmd_kept {s₀ s : State} (op target : Nat) (hK : Kept s₀ s) : Kept s₀ (lcCmd s op target) := by
  unfold lcCmd
  repeat' first
    | with_reducible first
      | assumption | intro _ | apply setF_kept | apply lcFields_kept | apply freshNonce_kept | apply lcTransition_kept | apply lcUnlock_kept
    | dsimp only | split

theorem execChallenge_answers (s : State) : Answers s (execChallenge s) := by
  have hK := Kept.refl s
  unfold execChallenge
  repeat' first
    | with_reducible first
      | assumption | apply lcCmd_kept | apply Answers.next
    | dsimp only

theorem execTransition_answers (s : State) (target : Fin 8) : Answers s (execTransition target s) := by
  have hK := Kept.refl s
  unfold execTransition
  repeat' first
    | with_reducible first
      | assumption | apply lcCmd_kept | apply Answers.next
    | dsimp only

theorem execDebugUnlock_answers (s : State) : Answers s (execDebugUnlock s) := by
  have hK := Kept.refl s
  unfold execDebugUnlock
  repeat' first
    | with_reducible first
      | assumption | apply lcCmd_kept | apply Answers.next
    | dsimp only

theorem execNonceLapse_answers (s : State) : Answers s (execNonceLapse s) := by
  have hK := Kept.refl s
  unfold execNonceLapse
  repeat' first
    | with_reducible first
      | assumption | apply useNonce_kept | apply kept_ite | apply Answers.next | apply answers_ite
    | dsimp only | split

end Sys2Proof.Machine
end

