-- ==== Sys2Proof/Laws/KeptNet.lean ====
section
/-! SUPPORT. Laws/KeptNet.lean: what the operations of Machine/Net.lean keep. -/

namespace Sys2Proof.Machine

set_option linter.unusedTactic false
set_option linter.unreachableTactic false

theorem mapNet_kept {s₀ s : State} (f : NetState → NetState) (hK : Kept s₀ s) : Kept s₀ (mapNet s f) := by
  unfold mapNet
  repeat' first
    | with_reducible first
      | assumption
    | dsimp only | fail_if_no_progress with_reducible refine kept_mk ?_ rfl ?_ ?_ ?_ rfl | exact Nat.le_refl _ | exact Nat.zero_le _

theorem served_kept {s₀ s : State} (c : Nat) (hK : Kept s₀ s) : Kept s₀ (served s c) := by
  unfold served
  repeat' first
    | with_reducible first
      | assumption | intro _ | apply mapNet_kept | apply kept_ite
    | dsimp only | split | fail_if_no_progress with_reducible refine kept_mk ?_ rfl ?_ ?_ ?_ rfl | exact Nat.le_refl _ | exact Nat.zero_le _

theorem onRequest_kept {s₀ s : State} (c : Nat) (f : State → State) (hK : Kept s₀ s) (hKf : ∀ x, Kept s₀ x → Kept s₀ (f x)) : Kept s₀
    (onRequest s c f) := by
  unfold onRequest
  repeat' first
    | with_reducible first
      | assumption | intro _ | apply hKf | apply incSatF_kept | apply served_kept | apply kept_ite
    | dsimp only | split

theorem onBacnet_kept {s₀ s : State} (c : Nat) (f : State → State) (hK : Kept s₀ s) (hKf : ∀ x, Kept s₀ x → Kept s₀ (f x)) : Kept s₀
    (onBacnet s c f) := by
  unfold onBacnet
  repeat' first
    | with_reducible first
      | assumption | intro _ | apply hKf | apply onRequest_kept | apply kept_ite
    | dsimp only | split

theorem bacSend_kept {s₀ s : State} (c client invoke : Nat) (what : String) (vals : List PropVal) (hK : Kept s₀ s) : Kept s₀ (bacSend s c
    client invoke what vals) := by
  unfold bacSend
  repeat' first
    | with_reducible first
      | assumption | apply sendMsg_kept
    | dsimp only

theorem bacNotify_kept {s₀ s : State} (c client pid : Nat) (what : String) (vals : List PropVal) (hK : Kept s₀ s) : Kept s₀ (bacNotify s c
    client pid what vals) := by
  unfold bacNotify
  repeat' first
    | with_reducible first
      | assumption | apply sendMsg_kept
    | dsimp only

theorem execArpRequest_answers (s : State) (ctx : Fin 64) (target : Word) : Answers s (execArpRequest ctx target s) := by
  have hK := Kept.refl s
  unfold execArpRequest
  repeat' first
    | with_reducible first
      | assumption | apply sendMsg_kept | apply served_kept | apply kept_ite | apply Answers.next | apply answers_ite
    | dsimp only | split

theorem execNeighborSolicit_answers (s : State) (ctx : Fin 64) (target : BitVec 128) (router : Bool) : Answers s (execNeighborSolicit ctx target
    router s) := by
  have hK := Kept.refl s
  unfold execNeighborSolicit
  repeat' first
    | with_reducible first
      | assumption | apply sendMsg_kept | apply served_kept | apply kept_ite | apply Answers.next | apply answers_ite
    | dsimp only | split

theorem execDatagramDiscard_answers (s : State) (ctx : Fin 64) (frame : List Nat) : Answers s (execDatagramDiscard ctx frame s) := by
  have hK := Kept.refl s
  unfold execDatagramDiscard
  repeat' first
    | with_reducible first
      | assumption | intro _ | apply incSatF_kept | apply served_kept | apply kept_ite | apply Answers.next | apply answers_ite
    | dsimp only | split

theorem execEchoRequest_answers (s : State) (ctx : Fin 64) (v6 : Bool) (dst : BitVec 128) (data : List Nat) : Answers s (execEchoRequest ctx v6 dst
    data s) := by
  have hK := Kept.refl s
  unfold execEchoRequest
  repeat' first
    | with_reducible first
      | assumption | intro _ | apply sendMsg_kept | apply mapNet_kept | apply served_kept | apply kept_ite | apply Answers.next | apply answers_ite
    | dsimp only | split | fail_if_no_progress with_reducible refine kept_mk ?_ rfl ?_ ?_ ?_ rfl | exact Nat.le_refl _ | exact Nat.zero_le _

theorem execBvlcNak_answers (s : State) (ctx : Fin 64) (client : NetAddr) (fn : Fin 256) : Answers s (execBvlcNak ctx client fn s) := by
  have hK := Kept.refl s
  unfold execBvlcNak
  repeat' first
    | with_reducible first
      | assumption | intro _ | apply onBacnet_kept | apply bacSend_kept | apply kept_ite | apply Answers.next | apply answers_ite
    | dsimp only | split

theorem execReadProperty_answers (s : State) (ctx : Fin 64) (client : NetAddr) (invoke : Fin 256) (obj : Word) (prop : BacProp) (idx : Option Nat) :
    Answers s (execReadProperty ctx client invoke obj prop idx s) := by
  have hK := Kept.refl s
  unfold execReadProperty
  repeat' first
    | with_reducible first
      | assumption | intro _ | apply onBacnet_kept | apply bacSend_kept | apply kept_ite | apply Answers.next | apply answers_ite
    | dsimp only | split

theorem execReadPropertyMultiple_answers (s : State) (ctx : Fin 64) (client : NetAddr) (invoke : Fin 256) (specs : List (Word × List BacProp)) :
    Answers s (execReadPropertyMultiple ctx client invoke specs s) := by
  have hK := Kept.refl s
  unfold execReadPropertyMultiple
  repeat' first
    | with_reducible first
      | assumption | intro _ | apply onBacnet_kept | apply bacSend_kept | apply kept_ite | apply Answers.next | apply answers_ite
    | dsimp only | split

theorem execWriteProperty_answers (s : State) (ctx : Fin 64) (client : NetAddr) (invoke : Fin 256) (obj : Word) (prop : BacProp) (val : BacVal) :
    Answers s (execWriteProperty ctx client invoke obj prop val s) := by
  have hK := Kept.refl s
  unfold execWriteProperty
  repeat' first
    | with_reducible first
      | assumption | intro _ | apply writerWrite_kept | apply onBacnet_kept | apply bacSend_kept | apply kept_ite | apply Answers.next
      | apply answers_ite
    | dsimp only | split

theorem updObs_kept {s₀ s : State} (hK : Kept s₀ s) : Kept s₀ (updObs s) := by
  unfold updObs
  repeat' first
    | with_reducible first
      | assumption | intro _ | apply setF_kept | apply setFs_kept | apply foldl_kept | apply foldl_pair_kept
    | dsimp only | split

theorem delObs_kept {s₀ s : State} (n client : Nat) (hK : Kept s₀ s) : Kept s₀ (delObs s n client) := by
  unfold delObs
  repeat' first
    | with_reducible first
      | assumption | intro _ | apply mapNet_kept | apply updObs_kept
    | dsimp only | split | fail_if_no_progress with_reducible refine kept_mk ?_ rfl ?_ ?_ ?_ rfl | exact Nat.le_refl _ | exact Nat.zero_le _

theorem setObs_kept {s₀ s : State} (o : Observer) (hK : Kept s₀ s) : Kept s₀ (setObs s o) := by
  unfold setObs
  repeat' first
    | with_reducible first
      | assumption | intro _ | apply mapNet_kept | apply kept_ite
    | dsimp only | split | fail_if_no_progress with_reducible refine kept_mk ?_ rfl ?_ ?_ ?_ rfl | exact Nat.le_refl _ | exact Nat.zero_le _

theorem oscTouch_kept {s₀ s : State} (c peer : Nat) (hK : Kept s₀ s) : Kept s₀ (oscTouch s c peer).1 := by
  unfold oscTouch
  repeat' first
    | with_reducible first
      | assumption | intro _ | apply mapNet_kept | apply kept_ite
    | dsimp only | split | fail_if_no_progress with_reducible refine kept_mk ?_ rfl ?_ ?_ ?_ rfl | exact Nat.le_refl _ | exact Nat.zero_le _

theorem oscTouch_eq_kept {s₀ s : State} {c peer : Nat} {u₁ : State} {out : OscCtx} (he : oscTouch s c peer = (u₁, out)) (hK : Kept s₀ s) :
    Kept s₀ u₁ := by
  have := oscTouch_kept (s₀ := s₀) (hK := hK) (s := s) (c := c) (peer := peer); rw [he] at this; exact this

theorem setOsc_kept {s₀ s : State} (o : OscCtx) (hK : Kept s₀ s) : Kept s₀ (setOsc s o) := by
  unfold setOsc
  repeat' first
    | with_reducible first
      | assumption | intro _ | apply mapNet_kept | apply kept_ite
    | dsimp only | split | fail_if_no_progress with_reducible refine kept_mk ?_ rfl ?_ ?_ ?_ rfl | exact Nat.le_refl _ | exact Nat.zero_le _

theorem oscSend_kept {s₀ s : State} (c peer : Nat) (hK : Kept s₀ s) : Kept s₀ (oscSend s c peer) := by
  unfold oscSend
  repeat' first
    | with_reducible first
      | assumption | intro _ | apply mapNet_kept | apply oscTouch_kept | refine oscTouch_eq_kept (by assumption) ?_ | apply setOsc_kept
      | apply kept_ite
    | dsimp only | split | fail_if_no_progress with_reducible refine kept_mk ?_ rfl ?_ ?_ ?_ rfl | exact Nat.le_refl _ | exact Nat.zero_le _

theorem oscReceive_kept {s₀ s : State} (c : Nat) (m : Option OscMsg) (hK : Kept s₀ s) : Kept s₀ (oscReceive s c m).1 := by
  unfold oscReceive
  repeat' first
    | with_reducible first
      | assumption | intro _ | apply incSatF_kept | apply oscTouch_kept | refine oscTouch_eq_kept (by assumption) ?_ | apply setOsc_kept
      | apply kept_ite
    | dsimp only | split | fail_if_no_progress with_reducible refine kept_mk ?_ rfl ?_ ?_ ?_ rfl | exact Nat.le_refl _ | exact Nat.zero_le _

theorem oscReceive_eq_kept {s₀ s : State} {c : Nat} {m : Option OscMsg} {u₁ : State} {out : Option Nat} (he : oscReceive s c m = (u₁, out))
    (hK : Kept s₀ s) : Kept s₀ u₁ := by
  have := oscReceive_kept (s₀ := s₀) (hK := hK) (s := s) (c := c) (m := m); rw [he] at this; exact this

theorem coapOut_kept {s₀ s : State} (c client : Nat) (via : Route) (peer : Option Nat) (code : Nat) (args : List Nat) (hK : Kept s₀ s) :
    Kept s₀ (coapOut s c client via peer code args) := by
  unfold coapOut
  repeat' first
    | with_reducible first
      | assumption | intro _ | apply sendMsg_kept | apply oscSend_kept
    | dsimp only | split

theorem coapSend_kept {s₀ s : State} (c client : Nat) (peer : Option Nat) (code : Nat) (args : List Nat) (hK : Kept s₀ s) : Kept s₀
    (coapSend s c client peer code args) := by
  unfold coapSend
  repeat' first
    | with_reducible first
      | assumption | apply coapOut_kept
    | dsimp only

theorem coapNotify_kept {s₀ s : State} (c client : Nat) (peer : Option Nat) (code : Nat) (args : List Nat) (hK : Kept s₀ s) : Kept s₀
    (coapNotify s c client peer code args) := by
  unfold coapNotify
  repeat' first
    | with_reducible first
      | assumption | apply coapOut_kept
    | dsimp only

theorem notifyOne_kept {s₀ s : State} (d : ExportDef) (o : Observer) (maxAge : Bool) (hK : Kept s₀ s) : Kept s₀ (notifyOne s d o maxAge) :=
    by
  unfold notifyOne
  repeat' first
    | with_reducible first
      | assumption | apply startTime_kept | apply bacNotify_kept | apply setObs_kept | apply coapNotify_kept | apply kept_ite
    | dsimp only | split | fail_if_no_progress with_reducible refine kept_mk ?_ rfl ?_ ?_ ?_ rfl | exact Nat.le_refl _ | exact Nat.zero_le _

theorem checkReceiver_kept {s₀ s : State} (d : ExportDef) (hK : Kept s₀ s) : Kept s₀ (checkReceiver s d) := by
  unfold checkReceiver
  repeat' first
    | with_reducible first
      | assumption | intro _ | apply setUndeliv_kept | apply kept_ite
    | dsimp only | split

theorem notifyAll_kept {s₀ s : State} (d : ExportDef) (p : State → Observer → Bool) (maxAge : Bool) (hK : Kept s₀ s) : Kept s₀ (notifyAll s
    d p maxAge) := by
  unfold notifyAll
  repeat' first
    | with_reducible first
      | assumption | intro _ | apply hKp | apply notifyOne_kept | apply foldl_kept | apply foldl_pair_kept
    | dsimp only | split

theorem takeChange_kept {s₀ s : State} (ne : Nat) (hK : Kept s₀ s) : Kept s₀ (takeChange s ne).1 := by
  unfold takeChange
  repeat' first
    | with_reducible first
      | assumption | intro _ | apply kept_ite
    | dsimp only | split | fail_if_no_progress with_reducible refine kept_mk ?_ rfl ?_ ?_ ?_ rfl | exact Nat.le_refl _ | exact Nat.zero_le _

theorem takeChange_eq_kept {s₀ s : State} {ne : Nat} {u₁ : State} {out : Option Nat} (he : takeChange s ne = (u₁, out)) (hK : Kept s₀ s) :
    Kept s₀ u₁ := by
  have := takeChange_kept (s₀ := s₀) (hK := hK) (s := s) (ne := ne); rw [he] at this; exact this

theorem execCovNotify_answers (s : State) (ne : Fin 2) : Answers s (execCovNotify ne s) := by
  have hK := Kept.refl s
  unfold execCovNotify
  repeat' first
    | with_reducible first
      | assumption | intro _ | apply checkReceiver_kept | apply notifyAll_kept | apply takeChange_kept | refine takeChange_eq_kept (by assumption) ?_
      | apply kept_ite | apply Answers.next | apply answers_ite
    | dsimp only | split

theorem execUsrasRefresh_answers (s : State) (number : Fin 32768) : Answers s (execUsrasRefresh number s) := by
  have hK := Kept.refl s
  unfold execUsrasRefresh
  repeat' first
    | with_reducible first
      | assumption | intro _ | apply startTime_kept | apply notifyAll_kept | apply kept_ite | apply Answers.next | apply answers_ite
    | dsimp only | split

theorem execCovRetry_answers (s : State) (number : Fin 32768) (client : NetAddr) : Answers s (execCovRetry number client s) := by
  have hK := Kept.refl s
  unfold execCovRetry
  repeat' first
    | with_reducible first
      | assumption | intro _ | apply incSatF_kept | apply setObs_kept | apply notifyOne_kept | apply kept_ite | apply Answers.next | apply answers_ite
    | dsimp only | split | fail_if_no_progress with_reducible refine kept_mk ?_ rfl ?_ ?_ ?_ rfl | exact Nat.le_refl _ | exact Nat.zero_le _

theorem execCovLifetimeExpiry_answers (s : State) (number : Fin 32768) (client : NetAddr) : Answers s (execCovLifetimeExpiry number client s) := by
  have hK := Kept.refl s
  unfold execCovLifetimeExpiry
  repeat' first
    | with_reducible first
      | assumption | intro _ | apply delObs_kept | apply kept_ite | apply Answers.next | apply answers_ite
    | dsimp only | split

theorem execNotificationAck_answers (s : State) (number : Fin 32768) (client : NetAddr) : Answers s (execNotificationAck number client s) := by
  have hK := Kept.refl s
  unfold execNotificationAck
  repeat' first
    | with_reducible first
      | assumption | intro _ | apply setUndeliv_kept | apply setObs_kept | apply kept_ite | apply Answers.next | apply answers_ite
    | dsimp only | split | fail_if_no_progress with_reducible refine kept_mk ?_ rfl ?_ ?_ ?_ rfl | exact Nat.le_refl _ | exact Nat.zero_le _

theorem execSubscribeCov_answers (s : State) (ctx : Fin 64) (client : NetAddr) (invoke : Fin 256) (pid : Word) (obj : Word) (confirmed : Bool)
    (lifetime : Option (Fin 28801)) : Answers s (execSubscribeCov ctx client invoke pid obj confirmed lifetime s) := by
  have hK := Kept.refl s
  unfold execSubscribeCov
  repeat' first
    | with_reducible first
      | assumption | intro _ | apply startTime_kept | apply mapNet_kept | apply onBacnet_kept | apply bacSend_kept | apply updObs_kept
      | apply delObs_kept | apply notifyOne_kept | apply kept_ite | apply Answers.next | apply answers_ite
    | dsimp only | split | fail_if_no_progress with_reducible refine kept_mk ?_ rfl ?_ ?_ ?_ rfl | exact Nat.le_refl _ | exact Nat.zero_le _

theorem execWhoIs_answers (s : State) (ctx : Fin 64) (range : Option (Nat × Nat)) : Answers s (execWhoIs ctx range s) := by
  have hK := Kept.refl s
  unfold execWhoIs
  repeat' first
    | with_reducible first
      | assumption | intro _ | apply onBacnet_kept | apply bacSend_kept | apply kept_ite | apply Answers.next | apply answers_ite
    | dsimp only | split

theorem execWhoHas_answers (s : State) (ctx : Fin 64) (range : Option (Nat × Nat)) (obj : Option Word) (name : String) : Answers s (execWhoHas ctx
    range obj name s) := by
  have hK := Kept.refl s
  unfold execWhoHas
  repeat' first
    | with_reducible first
      | assumption | intro _ | apply onBacnet_kept | apply bacSend_kept | apply kept_ite | apply Answers.next | apply answers_ite
    | dsimp only | split

theorem execBacnetReject_answers (s : State) (ctx : Fin 64) (client : NetAddr) (invoke : Fin 256) (why : BacRefusal) : Answers s (execBacnetReject ctx
    client invoke why s) := by
  have hK := Kept.refl s
  unfold execBacnetReject
  repeat' first
    | with_reducible first
      | assumption | intro _ | apply onBacnet_kept | apply bacSend_kept | apply Answers.next
    | dsimp only | split

theorem execBacnetUnconfirmedDiscard_answers (s : State) (ctx : Fin 64) : Answers s (execBacnetUnconfirmedDiscard ctx s) := by
  have hK := Kept.refl s
  unfold execBacnetUnconfirmedDiscard
  repeat' first
    | with_reducible first
      | assumption | intro _ | apply incSatF_kept | apply onBacnet_kept | apply Answers.next
    | dsimp only | split

theorem onCoap_kept {s₀ s : State} (c : Nat) (f : State → State) (hK : Kept s₀ s) (hKf : ∀ x, Kept s₀ x → Kept s₀ (f x)) : Kept s₀ (onCoap s
    c f) := by
  unfold onCoap
  repeat' first
    | with_reducible first
      | assumption | intro _ | apply hKf | apply onRequest_kept | apply kept_ite
    | dsimp only | split

theorem onUsras_kept {s₀ s : State} (c client : Nat) (m : Option OscMsg) (f : State → Nat → State) (hK : Kept s₀ s) (hKf : ∀ x0 x1, Kept s₀
    x0 → Kept s₀ (f x0 x1)) : Kept s₀ (onUsras s c client m f) := by
  unfold onUsras
  repeat' first
    | with_reducible first
      | assumption | intro _ | apply hKf | apply oscReceive_kept | refine oscReceive_eq_kept (by assumption) ?_ | apply coapSend_kept
      | apply onCoap_kept
    | dsimp only | split

theorem execCoapGet_answers (s : State) (ctx : Fin 64) (client : NetAddr) (osc : Option OscMsg) (cls : Fin 256) (item : Fin 256) (inst : Fin 65536)
    (observe : Option Bool) : Answers s (execCoapGet ctx client osc cls item inst observe s) := by
  have hK := Kept.refl s
  unfold execCoapGet
  repeat' first
    | with_reducible first
      | assumption | intro _ | apply startTime_kept | apply mapNet_kept | apply updObs_kept | apply delObs_kept | apply coapSend_kept
      | apply checkReceiver_kept | apply onUsras_kept | apply kept_ite | apply Answers.next | apply answers_ite
    | dsimp only | split | fail_if_no_progress with_reducible refine kept_mk ?_ rfl ?_ ?_ ?_ rfl | exact Nat.le_refl _ | exact Nat.zero_le _

theorem execCoapPut_answers (s : State) (ctx : Fin 64) (client : NetAddr) (osc : Option OscMsg) (cls : Fin 256) (item : Fin 256) (inst : Fin 65536)
    (payload : CoapPayload) : Answers s (execCoapPut ctx client osc cls item inst payload s) := by
  have hK := Kept.refl s
  unfold execCoapPut
  repeat' first
    | with_reducible first
      | assumption | intro _ | apply writerWrite_kept | apply coapSend_kept | apply onUsras_kept | apply kept_ite | apply Answers.next
      | apply answers_ite
    | dsimp only | split

theorem execCoapAckPost_answers (s : State) (ctx : Fin 64) (client : NetAddr) (osc : Option OscMsg) (image : Word) (taskNo : Nat) (alarm : Nat) :
    Answers s (execCoapAckPost ctx client osc image taskNo alarm s) := by
  have hK := Kept.refl s
  unfold execCoapAckPost
  repeat' first
    | with_reducible first
      | assumption | intro _ | apply coapSend_kept | apply onUsras_kept | apply kept_ite | apply Answers.next | apply answers_ite
    | dsimp only | split | fail_if_no_progress with_reducible refine kept_mk ?_ rfl ?_ ?_ ?_ rfl | exact Nat.le_refl _ | exact Nat.zero_le _

theorem execWellKnownCore_answers (s : State) (ctx : Fin 64) (client : NetAddr) (multicast : Bool) : Answers s (execWellKnownCore ctx client multicast
    s) := by
  have hK := Kept.refl s
  unfold execWellKnownCore
  repeat' first
    | with_reducible first
      | assumption | intro _ | apply coapSend_kept | apply onCoap_kept | apply Answers.next
    | dsimp only | split

theorem execCoapRefused_answers (s : State) (ctx : Fin 64) (client : NetAddr) (why : CoapRefusal) (multicast : Bool) : Answers s (execCoapRefused ctx
    client why multicast s) := by
  have hK := Kept.refl s
  unfold execCoapRefused
  repeat' first
    | with_reducible first
      | assumption | intro _ | apply coapSend_kept | apply onCoap_kept | apply kept_ite | apply Answers.next | apply answers_ite
    | dsimp only | split

theorem setImp_kept {s₀ s : State} (n : Nat) (o : ImpObs) (hK : Kept s₀ s) : Kept s₀ (setImp s n o) := by
  unfold setImp
  repeat' first
    | with_reducible first
      | assumption | intro _ | apply mapNet_kept
    | dsimp only | split | fail_if_no_progress with_reducible refine kept_mk ?_ rfl ?_ ?_ ?_ rfl | exact Nat.le_refl _ | exact Nat.zero_le _

theorem sendObserve_kept {s₀ s : State} (d : ExportDef) (k : Nat) (hK : Kept s₀ s) : Kept s₀ (sendObserve s d k) := by
  unfold sendObserve
  repeat' first
    | with_reducible first
      | assumption | apply startTime_kept | apply coapNotify_kept | apply setImp_kept | apply kept_ite
    | dsimp only | split | fail_if_no_progress with_reducible refine kept_mk ?_ rfl ?_ ?_ ?_ rfl | exact Nat.le_refl _ | exact Nat.zero_le _

theorem importAbsent_kept {s₀ s : State} (d : ExportDef) (hK : Kept s₀ s) : Kept s₀ (importAbsent s d) := by
  unfold importAbsent
  repeat' first
    | with_reducible first
      | assumption | apply startTime_kept | apply writerQuality_kept | apply setImp_kept
    | dsimp only

theorem execObserveRegister_answers (s : State) (number : Fin 32768) : Answers s (execObserveRegister number s) := by
  have hK := Kept.refl s
  unfold execObserveRegister
  repeat' first
    | with_reducible first
      | assumption | intro _ | apply sendObserve_kept | apply kept_ite | apply Answers.next | apply answers_ite
    | dsimp only | split

theorem execObserveRenew_answers (s : State) (number : Fin 32768) : Answers s (execObserveRenew number s) := by
  have hK := Kept.refl s
  unfold execObserveRenew
  repeat' first
    | with_reducible first
      | assumption | intro _ | apply sendObserve_kept | apply kept_ite | apply Answers.next | apply answers_ite
    | dsimp only | split

theorem execCoapRetransmit_answers (s : State) (number : Fin 32768) (client : NetAddr) : Answers s (execCoapRetransmit number client s) := by
  have hK := Kept.refl s
  unfold execCoapRetransmit
  repeat' first
    | with_reducible first
      | assumption | intro _ | apply setUndeliv_kept | apply setObs_kept | apply notifyOne_kept | apply sendObserve_kept | apply importAbsent_kept
      | apply kept_ite | apply Answers.next | apply answers_ite
    | dsimp only | split | fail_if_no_progress with_reducible refine kept_mk ?_ rfl ?_ ?_ ?_ rfl | exact Nat.le_refl _ | exact Nat.zero_le _

theorem endpointFault_kept {s₀ s : State} (d : ExportDef) (hK : Kept s₀ s) : Kept s₀ (endpointFault s d) := by
  unfold endpointFault
  repeat' first
    | with_reducible first
      | assumption | apply raise_kept | apply writerQuality_kept
    | dsimp only

theorem execEndpointNotify_answers (s : State) (number : Fin 32768) (osc : Option OscMsg) (payload : CoapPayload) : Answers s (execEndpointNotify
    number osc payload s) := by
  have hK := Kept.refl s
  unfold execEndpointNotify
  repeat' first
    | with_reducible first
      | assumption | intro _ | apply startTime_kept | apply useForce_kept | apply writerWrite_kept | apply oscReceive_kept
      | refine oscReceive_eq_kept (by assumption) ?_ | apply setImp_kept | apply endpointFault_kept | apply kept_ite | apply Answers.next
      | apply answers_ite
    | dsimp only | split

theorem execEndpointSilent_answers (s : State) (number : Fin 32768) : Answers s (execEndpointSilent number s) := by
  have hK := Kept.refl s
  unfold execEndpointSilent
  repeat' first
    | with_reducible first
      | assumption | intro _ | apply importAbsent_kept | apply kept_ite | apply Answers.next | apply answers_ite
    | dsimp only | split

theorem execEndpointRst_answers (s : State) (number : Fin 32768) : Answers s (execEndpointRst number s) := by
  have hK := Kept.refl s
  unfold execEndpointRst
  repeat' first
    | with_reducible first
      | assumption | intro _ | apply importAbsent_kept | apply Answers.next
    | dsimp only | split

theorem execEndpointError_answers (s : State) (number : Fin 32768) : Answers s (execEndpointError number s) := by
  have hK := Kept.refl s
  unfold execEndpointError
  repeat' first
    | with_reducible first
      | assumption | intro _ | apply endpointFault_kept | apply Answers.next
    | dsimp only | split

theorem netEnterSafe_kept {s₀ s : State} (hK : Kept s₀ s) : Kept s₀ (netEnterSafe s) := by
  unfold netEnterSafe
  repeat' first
    | with_reducible first
      | assumption | intro _ | apply importAbsent_kept | apply foldl_kept | apply foldl_pair_kept
    | dsimp only | split

theorem mapPtp_kept {s₀ s : State} (f : PtpState → PtpState) (hK : Kept s₀ s) : Kept s₀ (mapPtp s f) := by
  unfold mapPtp
  repeat' first
    | with_reducible first
      | assumption | intro _ | apply mapNet_kept
    | dsimp only | split | fail_if_no_progress with_reducible refine kept_mk ?_ rfl ?_ ?_ ?_ rfl | exact Nat.le_refl _ | exact Nat.zero_le _

theorem loseLock_kept {s₀ s : State} (hK : Kept s₀ s) : Kept s₀ (loseLock s) := by
  unfold loseLock
  repeat' first
    | with_reducible first
      | assumption | apply setF_kept | apply unsteer_kept
    | dsimp only

theorem decidePorts_kept {s₀ s : State} (expired : Option Nat) (hK : Kept s₀ s) : Kept s₀ (decidePorts s expired) := by
  unfold decidePorts
  repeat' first
    | with_reducible first
      | assumption | intro _ | apply setF_kept | apply setFs_kept | apply startTime_kept | apply mapPtp_kept | apply loseLock_kept | apply kept_ite
      | apply foldl_kept | apply foldl_pair_kept
    | dsimp only | split | fail_if_no_progress with_reducible refine kept_mk ?_ rfl ?_ ?_ ?_ rfl | exact Nat.le_refl _ | exact Nat.zero_le _

theorem setTc_kept {s₀ s : State} (ns : Int) (hK : Kept s₀ s) : Kept s₀ (setTc s ns) := by
  unfold setTc
  repeat' first
    | with_reducible first
      | assumption
    | dsimp only | fail_if_no_progress with_reducible refine kept_mk ?_ rfl ?_ ?_ ?_ rfl | exact Nat.le_refl _ | exact Nat.zero_le _

theorem servo_kept {s₀ s : State} (m : Nat) (off : Int) (hK : Kept s₀ s) : Kept s₀ (servo s m off) := by
  unfold servo
  repeat' first
    | with_reducible first
      | assumption | intro _ | apply freshFree_kept | refine freshFree_eq_kept (by assumption) ?_ | apply incSatF_kept | apply setF_kept
      | apply mapPtp_kept | apply loseLock_kept | apply setTc_kept | apply kept_ite
    | dsimp only | split | fail_if_no_progress with_reducible refine kept_mk ?_ rfl ?_ ?_ ?_ rfl | exact Nat.le_refl _ | exact Nat.zero_le _

theorem exchange_kept {s₀ s : State} (m : Nat) (ms : Int) (hK : Kept s₀ s) : Kept s₀ (exchange s m ms) := by
  unfold exchange
  repeat' first
    | with_reducible first
      | assumption | intro _ | apply mapPtp_kept | apply servo_kept
    | dsimp only | split | fail_if_no_progress with_reducible refine kept_mk ?_ rfl ?_ ?_ ?_ rfl | exact Nat.le_refl _ | exact Nat.zero_le _

theorem execPtpSync_answers (s : State) (m : Fin 6) (seq : Fin 65536) (t2 : Nat) (t1 : Option Nat) : Answers s (execPtpSync m seq t2 t1 s) := by
  have hK := Kept.refl s
  unfold execPtpSync
  repeat' first
    | with_reducible first
      | assumption | intro _ | apply mapPtp_kept | apply exchange_kept | apply kept_ite | apply Answers.next | apply answers_ite
    | dsimp only | split | fail_if_no_progress with_reducible refine kept_mk ?_ rfl ?_ ?_ ?_ rfl | exact Nat.le_refl _ | exact Nat.zero_le _

theorem execPtpFollowUp_answers (s : State) (m : Fin 6) (seq : Fin 65536) (t1 : Nat) : Answers s (execPtpFollowUp m seq t1 s) := by
  have hK := Kept.refl s
  unfold execPtpFollowUp
  repeat' first
    | with_reducible first
      | assumption | intro _ | apply exchange_kept | apply kept_ite | apply Answers.next | apply answers_ite
    | dsimp only | split

theorem execPtpDelayReq_answers (s : State) (m : Fin 6) (seq : Fin 65536) (t4 : Nat) (requester : BitVec 80) : Answers s (execPtpDelayReq m seq t4
    requester s) := by
  have hK := Kept.refl s
  unfold execPtpDelayReq
  repeat' first
    | with_reducible first
      | assumption | apply sendMsg_kept | apply kept_ite | apply Answers.next | apply answers_ite
    | dsimp only | split

theorem execPtpDelayResp_answers (s : State) (m : Fin 6) (seq : Fin 65536) (t4 : Nat) : Answers s (execPtpDelayResp m seq t4 s) := by
  have hK := Kept.refl s
  unfold execPtpDelayResp
  repeat' first
    | with_reducible first
      | assumption | intro _ | apply mapPtp_kept | apply servo_kept | apply kept_ite | apply Answers.next | apply answers_ite
    | dsimp only | split | fail_if_no_progress with_reducible refine kept_mk ?_ rfl ?_ ?_ ?_ rfl | exact Nat.le_refl _ | exact Nat.zero_le _

theorem execPtpAnnounce_answers (s : State) (m : Fin 6) (a : PtpAnnounce) : Answers s (execPtpAnnounce m a s) := by
  have hK := Kept.refl s
  unfold execPtpAnnounce
  repeat' first
    | with_reducible first
      | assumption | intro _ | apply startTime_kept | apply mapPtp_kept | apply decidePorts_kept | apply kept_ite | apply Answers.next
      | apply answers_ite
    | dsimp only | split | fail_if_no_progress with_reducible refine kept_mk ?_ rfl ?_ ?_ ?_ rfl | exact Nat.le_refl _ | exact Nat.zero_le _

theorem execAnnounceTimeout_answers (s : State) (m : Fin 6) : Answers s (execAnnounceTimeout m s) := by
  have hK := Kept.refl s
  unfold execAnnounceTimeout
  repeat' first
    | with_reducible first
      | assumption | intro _ | apply mapPtp_kept | apply decidePorts_kept | apply kept_ite | apply Answers.next | apply answers_ite
    | dsimp only | split | fail_if_no_progress with_reducible refine kept_mk ?_ rfl ?_ ?_ ?_ rfl | exact Nat.le_refl _ | exact Nat.zero_le _

theorem execPtpDiscard_answers (s : State) (m : PtpHead) : Answers s (execPtpDiscard m s) := by
  have hK := Kept.refl s
  unfold execPtpDiscard
  repeat' first
    | with_reducible first
      | assumption | apply incSatF_kept | apply kept_ite | apply Answers.next | apply answers_ite
    | dsimp only | split

theorem execPtpSyncSend_answers (s : State) (m : Fin 6) : Answers s (execPtpSyncSend m s) := by
  have hK := Kept.refl s
  unfold execPtpSyncSend
  repeat' first
    | with_reducible first
      | assumption | intro _ | apply sendMsg_kept | apply startTime_kept | apply mapPtp_kept | apply kept_ite | apply Answers.next | apply answers_ite
    | dsimp only | split | fail_if_no_progress with_reducible refine kept_mk ?_ rfl ?_ ?_ ?_ rfl | exact Nat.le_refl _ | exact Nat.zero_le _

theorem execPtpAnnounceSend_answers (s : State) (m : Fin 6) : Answers s (execPtpAnnounceSend m s) := by
  have hK := Kept.refl s
  unfold execPtpAnnounceSend
  repeat' first
    | with_reducible first
      | assumption | intro _ | apply sendMsg_kept | apply startTime_kept | apply mapPtp_kept | apply kept_ite | apply Answers.next | apply answers_ite
    | dsimp only | split | fail_if_no_progress with_reducible refine kept_mk ?_ rfl ?_ ?_ ?_ rfl | exact Nat.le_refl _ | exact Nat.zero_le _

theorem execPtpDelayReqSend_answers (s : State) (m : Fin 6) : Answers s (execPtpDelayReqSend m s) := by
  have hK := Kept.refl s
  unfold execPtpDelayReqSend
  repeat' first
    | with_reducible first
      | assumption | intro _ | apply sendMsg_kept | apply mapPtp_kept | apply kept_ite | apply Answers.next | apply answers_ite
    | dsimp only | split | fail_if_no_progress with_reducible refine kept_mk ?_ rfl ?_ ?_ ?_ rfl | exact Nat.le_refl _ | exact Nat.zero_le _

theorem execTsqRemove_answers (s : State) (m : Fin 6) : Answers s (execTsqRemove m s) := by
  have hK := Kept.refl s
  unfold execTsqRemove
  repeat' first
    | with_reducible first
      | assumption | intro _ | apply sendMsg_kept | apply setF_kept | apply setReply_kept | apply mapMac_kept | apply mapPtp_kept | apply kept_ite
      | apply Answers.next | apply answers_ite
    | dsimp only | split | fail_if_no_progress with_reducible refine kept_mk ?_ rfl ?_ ?_ ?_ rfl | exact Nat.le_refl _ | exact Nat.zero_le _

theorem ptpFields_kept {s₀ s : State} (op result : Nat) (hK : Kept s₀ s) : Kept s₀ (ptpFields s op result) := by
  unfold ptpFields
  repeat' first
    | with_reducible first
      | assumption | apply setFs_kept
    | dsimp only

theorem ptpCmd_kept {s₀ s : State} (op : Nat) (hK : Kept s₀ s) : Kept s₀ (ptpCmd s op) := by
  unfold ptpCmd
  repeat' first
    | with_reducible first
      | assumption | intro _ | apply setFs_kept | apply mapPtp_kept | apply ptpFields_kept | apply kept_ite | apply foldl_kept | apply foldl_pair_kept
    | dsimp only | split | fail_if_no_progress with_reducible refine kept_mk ?_ rfl ?_ ?_ ?_ rfl | exact Nat.le_refl _ | exact Nat.zero_le _

theorem execSetTime_answers (s : State) : Answers s (execSetTime s) := by
  have hK := Kept.refl s
  unfold execSetTime
  repeat' first
    | with_reducible first
      | assumption | apply ptpCmd_kept | apply Answers.next
    | dsimp only

theorem execNeClearCounters_answers (s : State) : Answers s (execNeClearCounters s) := by
  have hK := Kept.refl s
  unfold execNeClearCounters
  repeat' first
    | with_reducible first
      | assumption | apply ptpCmd_kept | apply Answers.next
    | dsimp only

theorem execSetTimeApply_answers (s : State) : Answers s (execSetTimeApply s) := by
  have hK := Kept.refl s
  unfold execSetTimeApply
  repeat' first
    | with_reducible first
      | assumption | intro _ | apply mapPtp_kept | apply Answers.next
    | dsimp only | split | fail_if_no_progress with_reducible refine kept_mk ?_ rfl ?_ ?_ ?_ rfl | exact Nat.le_refl _ | exact Nat.zero_le _

theorem readTimeNs_kept {s₀ s : State} (q : Requester) (hK : Kept s₀ s) : Kept s₀ (readTimeNs s q) := by
  unfold readTimeNs
  repeat' first
    | with_reducible first
      | assumption | apply setReply_kept
    | dsimp only | fail_if_no_progress with_reducible refine kept_mk ?_ rfl ?_ ?_ ?_ rfl | exact Nat.le_refl _ | exact Nat.zero_le _

theorem readTimeSecHi_kept {s₀ s : State} (q : Requester) (hK : Kept s₀ s) : Kept s₀ (readTimeSecHi s q) := by
  unfold readTimeSecHi
  repeat' first
    | with_reducible first
      | assumption | apply setReply_kept
    | dsimp only | fail_if_no_progress with_reducible refine kept_mk ?_ rfl ?_ ?_ ?_ rfl | exact Nat.le_refl _ | exact Nat.zero_le _

theorem execNeTimeNsRead_answers (s : State) (q : Requester) : Answers s (execNeTimeNsRead q s) := by
  have hK := Kept.refl s
  unfold execNeTimeNsRead
  repeat' first
    | with_reducible first
      | assumption | apply readTimeNs_kept | apply Answers.next
    | dsimp only

theorem execNeTimeSecHiRead_answers (s : State) (q : Requester) : Answers s (execNeTimeSecHiRead q s) := by
  have hK := Kept.refl s
  unfold execNeTimeSecHiRead
  repeat' first
    | with_reducible first
      | assumption | apply readTimeSecHi_kept | apply Answers.next
    | dsimp only

end Sys2Proof.Machine
end

