-- ==== Sys2Proof/Laws/KeptField.lean ====
section
/-! SUPPORT. Laws/KeptField.lean: what the operations of Machine/Field.lean keep. -/

namespace Sys2Proof.Machine

set_option linter.unusedTactic false
set_option linter.unreachableTactic false

theorem markLoaded_kept {s₀ s : State} (es : List (Nat × MapEntry)) (hK : Kept s₀ s) : Kept s₀ (markLoaded s es) := by
  unfold markLoaded
  repeat' first
    | with_reducible first
      | assumption | intro _ | apply mapMap_kept | apply foldl_kept | apply foldl_pair_kept
    | dsimp only | split | fail_if_no_progress with_reducible refine kept_mk ?_ rfl ?_ ?_ ?_ rfl | exact Nat.le_refl _ | exact Nat.zero_le _

theorem createReq_kept {s₀ s : State} (n key : Nat) (hK : Kept s₀ s) : Kept s₀ (createReq s n key) := by
  unfold createReq
  repeat' first
    | with_reducible first
      | assumption | intro _ | apply mapCan_kept | apply canCount_kept | apply kept_ite
    | dsimp only | split | fail_if_no_progress with_reducible refine kept_mk ?_ rfl ?_ ?_ ?_ rfl | exact Nat.le_refl _ | exact Nat.zero_le _

theorem canTick_kept {s₀ s : State} (n : Nat) (hK : Kept s₀ s) : Kept s₀ (canTick s n) := by
  unfold canTick
  repeat' first
    | with_reducible first
      | assumption | intro _ | apply createReq_kept | apply kept_ite | apply foldl_kept | apply foldl_pair_kept
    | dsimp only | split

theorem loadReq_kept {s₀ s : State} (n : Nat) (r : CanReq) (hK : Kept s₀ s) : Kept s₀ (loadReq s n r) := by
  unfold loadReq
  repeat' first
    | with_reducible first
      | assumption | intro _ | apply mapCan_kept | apply canCount_kept | apply markLoaded_kept
    | dsimp only | split | fail_if_no_progress with_reducible refine kept_mk ?_ rfl ?_ ?_ ?_ rfl | exact Nat.le_refl _ | exact Nat.zero_le _

theorem beginTx_kept {s₀ s : State} (n : Nat) (begins : Bool) (hK : Kept s₀ s) : Kept s₀ (beginTx s n begins) := by
  unfold beginTx
  repeat' first
    | with_reducible first
      | assumption | intro _ | apply mapCan_kept | apply kept_ite
    | dsimp only | split | fail_if_no_progress with_reducible refine kept_mk ?_ rfl ?_ ?_ ?_ rfl | exact Nat.le_refl _ | exact Nat.zero_le _

theorem loadOne_kept {s₀ s : State} (n : Nat) (hK : Kept s₀ s) : Kept s₀ (loadOne s n) := by
  unfold loadOne
  repeat' first
    | with_reducible first
      | assumption | intro _ | apply mapCan_kept | apply endReq_kept | apply raise_kept | apply useForce_kept | apply markLoaded_kept
      | apply loadReq_kept | apply kept_ite
    | dsimp only | split | fail_if_no_progress with_reducible refine kept_mk ?_ rfl ?_ ?_ ?_ rfl | exact Nat.le_refl _ | exact Nat.zero_le _

theorem execCanTxLoad_answers (s : State) (n : Fin 12) (begins : Bool) : Answers s (execCanTxLoad n begins s) := by
  have hK := Kept.refl s
  unfold execCanTxLoad
  repeat' first
    | with_reducible first
      | assumption | apply cross_kept | apply beginTx_kept | apply loadOne_kept | apply kept_ite | apply Answers.next | apply answers_ite
    | dsimp only | split

theorem canOffNow_kept {s₀ s : State} (n : Nat) (hK : Kept s₀ s) : Kept s₀ (canOffNow s n) := by
  unfold canOffNow
  repeat' first
    | with_reducible first
      | assumption | intro _ | apply setFs_kept | apply mapCan_kept
    | dsimp only | split | fail_if_no_progress with_reducible refine kept_mk ?_ rfl ?_ ?_ ?_ rfl | exact Nat.le_refl _ | exact Nat.zero_le _

theorem canLeft_kept {s₀ s : State} (n : Nat) (hK : Kept s₀ s) : Kept s₀ (canLeft s n) := by
  unfold canLeft
  repeat' first
    | with_reducible first
      | assumption | apply canOffNow_kept | apply kept_ite
    | dsimp only | split

theorem canCalm_kept {s₀ s : State} (n : Nat) (hK : Kept s₀ s) : Kept s₀ (canCalm s n) := by
  unfold canCalm
  repeat' first
    | with_reducible first
      | assumption | apply setF_kept | apply kept_ite
    | dsimp only | split

theorem execCanTxDone_answers (s : State) (n : Fin 12) (begins : Bool) : Answers s (execCanTxDone n begins s) := by
  have hK := Kept.refl s
  unfold execCanTxDone
  repeat' first
    | with_reducible first
      | assumption | intro _ | apply sendMsg_kept | apply setF_kept | apply endReq_kept | apply beginTx_kept | apply canLeft_kept | apply canCalm_kept
      | apply kept_ite | apply Answers.next | apply answers_ite
    | dsimp only | split

theorem attemptLost_kept {s₀ s : State} (n : Nat) (r : CanReq) (hK : Kept s₀ s) : Kept s₀ (attemptLost s n r) := by
  unfold attemptLost
  repeat' first
    | with_reducible first
      | assumption | intro _ | apply mapCan_kept | apply endReq_kept | apply raise_kept | apply kept_ite
    | dsimp only | split | fail_if_no_progress with_reducible refine kept_mk ?_ rfl ?_ ?_ ?_ rfl | exact Nat.le_refl _ | exact Nat.zero_le _

theorem execCanTxError_answers (s : State) (n : Fin 12) (ackOnly : Bool) (begins : Bool) : Answers s (execCanTxError n ackOnly begins s) := by
  have hK := Kept.refl s
  unfold execCanTxError
  repeat' first
    | with_reducible first
      | assumption | intro _ | apply setF_kept | apply beginTx_kept | apply canLeft_kept | apply attemptLost_kept | apply kept_ite
      | apply Answers.next | apply answers_ite
    | dsimp only | split

theorem canInsAbsent_kept {s₀ s : State} (n : Nat) (hK : Kept s₀ s) : Kept s₀ (canInsAbsent s n) := by
  unfold canInsAbsent
  repeat' first
    | with_reducible first
      | assumption | intro _ | apply writerQuality_kept | apply foldl_kept | apply foldl_pair_kept
    | dsimp only | split

theorem canOutsUndeliv_kept {s₀ s : State} (n : Nat) (hK : Kept s₀ s) : Kept s₀ (canOutsUndeliv s n) := by
  unfold canOutsUndeliv
  repeat' first
    | with_reducible first
      | assumption | intro _ | apply frameUndeliv_kept | apply foldl_kept | apply foldl_pair_kept
    | dsimp only | split

theorem rcSend_kept {s₀ s : State} (n fn node arg : Nat) (data : List Nat) (hK : Kept s₀ s) : Kept s₀ (rcSend s n fn node arg data) := by
  unfold rcSend
  repeat' first
    | with_reducible first
      | assumption | apply sendMsg_kept | apply kept_ite
    | dsimp only | split

theorem rcCall_kept {s₀ s : State} (n : Nat) (hK : Kept s₀ s) : Kept s₀ (rcCall s n) := by
  unfold rcCall
  repeat' first
    | with_reducible first
      | assumption | apply startTime_kept | apply rcSend_kept | apply kept_ite
    | dsimp only | split

theorem requestAll_kept {s₀ s : State} (n : Nat) (p : Nat → Bool) (hK : Kept s₀ s) : Kept s₀ (requestAll s n p) := by
  unfold requestAll
  repeat' first
    | with_reducible first
      | assumption | intro _ | apply createReq_kept | apply kept_ite | apply foldl_kept | apply foldl_pair_kept
    | dsimp only | split

theorem canOnline_kept {s₀ s : State} (n : Nat) (hK : Kept s₀ s) : Kept s₀ (canOnline s n) := by
  unfold canOnline
  repeat' first
    | with_reducible first
      | assumption | intro _ | apply setFs_kept | apply mapCan_kept | apply rcCall_kept | apply requestAll_kept
    | dsimp only | split | fail_if_no_progress with_reducible refine kept_mk ?_ rfl ?_ ?_ ?_ rfl | exact Nat.le_refl _ | exact Nat.zero_le _

theorem canLeave_kept {s₀ s : State} (n : Nat) (hK : Kept s₀ s) : Kept s₀ (canLeave s n) := by
  unfold canLeave
  repeat' first
    | with_reducible first
      | assumption | intro _ | apply mapCan_kept | apply flushReqs_kept | apply canOffNow_kept | apply canInsAbsent_kept | apply canOutsUndeliv_kept
      | apply kept_ite
    | dsimp only | split | fail_if_no_progress with_reducible refine kept_mk ?_ rfl ?_ ?_ ?_ rfl | exact Nat.le_refl _ | exact Nat.zero_le _

theorem mapNode_kept {s₀ s : State} (n k : Nat) (f : CanNode → CanNode) (hK : Kept s₀ s) : Kept s₀ (mapNode s n k f) := by
  unfold mapNode
  repeat' first
    | with_reducible first
      | assumption | intro _ | apply mapCan_kept
    | dsimp only | split | fail_if_no_progress with_reducible refine kept_mk ?_ rfl ?_ ?_ ?_ rfl | exact Nat.le_refl _ | exact Nat.zero_le _

theorem absentNode_kept {s₀ s : State} (n k : Nat) (hK : Kept s₀ s) : Kept s₀ (absentNode s n k) := by
  unfold absentNode
  repeat' first
    | with_reducible first
      | assumption | intro _ | apply frameUndeliv_kept | apply raise_kept | apply writerQuality_kept | apply mapNode_kept | apply foldl_kept
      | apply foldl_pair_kept
    | dsimp only | split | fail_if_no_progress with_reducible refine kept_mk ?_ rfl ?_ ?_ ?_ rfl | exact Nat.le_refl _ | exact Nat.zero_le _

theorem rollAnswer_kept {s₀ s : State} (n uid : Nat) (hK : Kept s₀ s) : Kept s₀ (rollAnswer s n uid) := by
  unfold rollAnswer
  repeat' first
    | with_reducible first
      | assumption | intro _ | apply incSatF_kept | apply setFs_kept | apply mapCan_kept | apply raise_kept | apply refuse_kept | apply rcSend_kept
      | apply mapNode_kept | apply kept_ite
    | dsimp only | split | fail_if_no_progress with_reducible refine kept_mk ?_ rfl ?_ ?_ ?_ rfl | exact Nat.le_refl _ | exact Nat.zero_le _

theorem rollPresent_kept {s₀ s : State} (n k status uid : Nat) (hK : Kept s₀ s) : Kept s₀ (rollPresent s n k status uid) := by
  unfold rollPresent
  repeat' first
    | with_reducible first
      | assumption | intro _ | apply mapCan_kept | apply raise_kept | apply rcSend_kept | apply mapNode_kept | apply kept_ite | apply foldl_kept
      | apply foldl_pair_kept
    | dsimp only | split | fail_if_no_progress with_reducible refine kept_mk ?_ rfl ?_ ?_ ?_ rfl | exact Nat.le_refl _ | exact Nat.zero_le _

theorem rollLeave_kept {s₀ s : State} (n k uid : Nat) (hK : Kept s₀ s) : Kept s₀ (rollLeave s n k uid) := by
  unfold rollLeave
  repeat' first
    | with_reducible first
      | assumption | intro _ | apply absentNode_kept | apply kept_ite
    | dsimp only | split

theorem rollFrame_kept {s₀ s : State} (n ident : Nat) (data : List Nat) (hK : Kept s₀ s) : Kept s₀ (rollFrame s n ident data) := by
  unfold rollFrame
  repeat' first
    | with_reducible first
      | assumption | intro _ | apply rollAnswer_kept | apply rollPresent_kept | apply rollLeave_kept | apply kept_ite
    | dsimp only | split

theorem execAnswer_answers (s : State) (n : Fin 12) (uid : BitVec 64) : Answers s (execAnswer n uid s) := by
  have hK := Kept.refl s
  unfold execAnswer
  repeat' first
    | with_reducible first
      | assumption | apply rollAnswer_kept | apply Answers.next
    | dsimp only

theorem execPresent_answers (s : State) (n : Fin 12) (node : Fin 256) (status : Fin 256) (uid : BitVec 64) : Answers s (execPresent n node status uid
    s) := by
  have hK := Kept.refl s
  unfold execPresent
  repeat' first
    | with_reducible first
      | assumption | apply rollPresent_kept | apply Answers.next
    | dsimp only

theorem execLeave_answers (s : State) (n : Fin 12) (node : Fin 256) (uid : BitVec 64) : Answers s (execLeave n node uid s) := by
  have hK := Kept.refl s
  unfold execLeave
  repeat' first
    | with_reducible first
      | assumption | apply rollLeave_kept | apply Answers.next
    | dsimp only

theorem execRollCallTimer_answers (s : State) (n : Fin 12) : Answers s (execRollCallTimer n s) := by
  have hK := Kept.refl s
  unfold execRollCallTimer
  repeat' first
    | with_reducible first
      | assumption | apply rcCall_kept | apply kept_ite | apply Answers.next | apply answers_ite
    | dsimp only | split

theorem execNodeHeartbeatMiss_answers (s : State) (n : Fin 12) (node : Fin 128) : Answers s (execNodeHeartbeatMiss n node s) := by
  have hK := Kept.refl s
  unfold execNodeHeartbeatMiss
  repeat' first
    | with_reducible first
      | assumption | intro _ | apply absentNode_kept | apply kept_ite | apply Answers.next | apply answers_ite
    | dsimp only | split

theorem canInWrite_kept {s₀ s : State} (n : Nat) (data : List Nat) (e : MapEntry) (hK : Kept s₀ s) : Kept s₀ (canInWrite s n data e) := by
  unfold canInWrite
  repeat' first
    | with_reducible first
      | assumption | intro _ | apply canCount_kept | apply writerWrite_kept | apply writerQuality_kept | apply kept_ite
    | dsimp only | split

theorem serveRx_kept {s₀ s : State} (n : Nat) (x : CanRx) (hK : Kept s₀ s) : Kept s₀ (serveRx s n x) := by
  unfold serveRx
  repeat' first
    | with_reducible first
      | assumption | intro _ | apply startTime_kept | apply rollFrame_kept | apply canInWrite_kept | apply kept_ite | apply foldl_kept
      | apply foldl_pair_kept
    | dsimp only | split

theorem serveCan_kept {s₀ s : State} (n : Nat) (hK : Kept s₀ s) : Kept s₀ (serveCan s n) := by
  unfold serveCan
  repeat' first
    | with_reducible first
      | assumption | intro _ | apply mapCan_kept | apply serveRx_kept | apply foldl_kept | apply foldl_pair_kept
    | dsimp only | split | fail_if_no_progress with_reducible refine kept_mk ?_ rfl ?_ ?_ ?_ rfl | exact Nat.le_refl _ | exact Nat.zero_le _

theorem rxOverflow_kept {s₀ s : State} (n : Nat) (hK : Kept s₀ s) : Kept s₀ (rxOverflow s n) := by
  unfold rxOverflow
  repeat' first
    | with_reducible first
      | assumption | intro _ | apply mapCan_kept | apply canCount_kept | apply raise_kept | apply kept_ite
    | dsimp only | split | fail_if_no_progress with_reducible refine kept_mk ?_ rfl ?_ ?_ ?_ rfl | exact Nat.le_refl _ | exact Nat.zero_le _

theorem recDown_kept {s₀ s : State} (n : Nat) (hK : Kept s₀ s) : Kept s₀ (recDown s n) := by
  unfold recDown
  repeat' first
    | with_reducible first
      | assumption | apply freshFree_kept | refine freshFree_eq_kept (by assumption) ?_ | apply setF_kept | apply canCalm_kept | apply kept_ite
    | dsimp only | split

theorem rxEnter_kept {s₀ s : State} (n : Nat) (x : CanRx) (hK : Kept s₀ s) : Kept s₀ (rxEnter s n x) := by
  unfold rxEnter
  repeat' first
    | with_reducible first
      | assumption | intro _ | apply mapCan_kept | apply canCount_kept | apply rxOverflow_kept | apply kept_ite
    | dsimp only | split | fail_if_no_progress with_reducible refine kept_mk ?_ rfl ?_ ?_ ?_ rfl | exact Nat.le_refl _ | exact Nat.zero_le _

theorem execCanFrameRx_answers (s : State) (n : Fin 12) (ident : Fin 0x20000000) (ide : Bool) (remote : Bool) (fdf : Bool) (data : List Nat) (behind :
    Bool) : Answers s (execCanFrameRx n ident ide remote fdf data behind s) := by
  have hK := Kept.refl s
  unfold execCanFrameRx
  repeat' first
    | with_reducible first
      | assumption | intro _ | apply cross_kept | apply canCount_kept | apply serveCan_kept | apply recDown_kept | apply rxEnter_kept | apply kept_ite
      | apply Answers.next | apply answers_ite
    | dsimp only | split

theorem execCanInTimeout_answers (s : State) (number : Fin 4096) : Answers s (execCanInTimeout number s) := by
  have hK := Kept.refl s
  unfold execCanInTimeout
  repeat' first
    | with_reducible first
      | assumption | intro _ | apply writerQuality_kept | apply kept_ite | apply Answers.next | apply answers_ite
    | dsimp only | split

theorem errorPassive_kept {s₀ s : State} (n rec_ : Nat) (hK : Kept s₀ s) : Kept s₀ (errorPassive s n rec_) := by
  unfold errorPassive
  repeat' first
    | with_reducible first
      | assumption | apply setF_kept | apply canCount_kept | apply raise_kept | apply kept_ite
    | dsimp only | split

theorem execCanErrorPassive_answers (s : State) (n : Fin 12) (rec_ : Fin 256) : Answers s (execCanErrorPassive n rec_ s) := by
  have hK := Kept.refl s
  unfold execCanErrorPassive
  repeat' first
    | with_reducible first
      | assumption | apply errorPassive_kept | apply Answers.next
    | dsimp only

theorem busOff_kept {s₀ s : State} (n : Nat) (hK : Kept s₀ s) : Kept s₀ (busOff s n) := by
  unfold busOff
  repeat' first
    | with_reducible first
      | assumption | intro _ | apply maxF_kept | apply setF_kept | apply mapCan_kept | apply canCount_kept | apply endAll_kept | apply raise_kept
      | apply canLeft_kept | apply canInsAbsent_kept | apply absentNode_kept | apply kept_ite | apply foldl_kept | apply foldl_pair_kept
    | dsimp only | split | fail_if_no_progress with_reducible refine kept_mk ?_ rfl ?_ ?_ ?_ rfl | exact Nat.le_refl _ | exact Nat.zero_le _

theorem execCanBusoff_answers (s : State) (n : Fin 12) : Answers s (execCanBusoff n s) := by
  have hK := Kept.refl s
  unfold execCanBusoff
  repeat' first
    | with_reducible first
      | assumption | apply busOff_kept | apply Answers.next
    | dsimp only

theorem execCanRecovered_answers (s : State) (n : Fin 12) : Answers s (execCanRecovered n s) := by
  have hK := Kept.refl s
  unfold execCanRecovered
  repeat' first
    | with_reducible first
      | assumption | intro _ | apply setFs_kept | apply mapCan_kept | apply requestAll_kept | apply kept_ite | apply Answers.next | apply answers_ite
    | dsimp only | split | fail_if_no_progress with_reducible refine kept_mk ?_ rfl ?_ ?_ ?_ rfl | exact Nat.le_refl _ | exact Nat.zero_le _

theorem canFields_kept {s₀ s : State} (n op result : Nat) (hK : Kept s₀ s) : Kept s₀ (canFields s n op result) := by
  unfold canFields
  repeat' first
    | with_reducible first
      | assumption | apply setFs_kept
    | dsimp only

theorem detectStart_kept {s₀ s : State} (n : Nat) (hK : Kept s₀ s) : Kept s₀ (detectStart s n) := by
  unfold detectStart
  repeat' first
    | with_reducible first
      | assumption | intro _ | apply setFs_kept | apply startTime_kept | apply mapCan_kept | apply flushReqs_kept | apply canInsAbsent_kept
      | apply canOutsUndeliv_kept
    | dsimp only | split | fail_if_no_progress with_reducible refine kept_mk ?_ rfl ?_ ?_ ?_ rfl | exact Nat.le_refl _ | exact Nat.zero_le _

theorem canCmd_kept {s₀ s : State} (n op : Nat) (hK : Kept s₀ s) : Kept s₀ (canCmd s n op) := by
  unfold canCmd
  repeat' first
    | with_reducible first
      | assumption | intro _ | apply setF_kept | apply mapCan_kept | apply canOnline_kept | apply canLeave_kept | apply canFields_kept
      | apply detectStart_kept | apply kept_ite | apply foldl_kept | apply foldl_pair_kept
    | dsimp only | split | fail_if_no_progress with_reducible refine kept_mk ?_ rfl ?_ ?_ ?_ rfl | exact Nat.le_refl _ | exact Nat.zero_le _

theorem execCanRecover_answers (s : State) (n : Fin 12) : Answers s (execCanRecover n s) := by
  have hK := Kept.refl s
  unfold execCanRecover
  repeat' first
    | with_reducible first
      | assumption | apply canCmd_kept | apply Answers.next
    | dsimp only

theorem execCanDisable_answers (s : State) (n : Fin 12) : Answers s (execCanDisable n s) := by
  have hK := Kept.refl s
  unfold execCanDisable
  repeat' first
    | with_reducible first
      | assumption | apply canCmd_kept | apply Answers.next
    | dsimp only

theorem execCanEnable_answers (s : State) (n : Fin 12) : Answers s (execCanEnable n s) := by
  have hK := Kept.refl s
  unfold execCanEnable
  repeat' first
    | with_reducible first
      | assumption | apply canCmd_kept | apply Answers.next
    | dsimp only

theorem execCanDetect_answers (s : State) (n : Fin 12) : Answers s (execCanDetect n s) := by
  have hK := Kept.refl s
  unfold execCanDetect
  repeat' first
    | with_reducible first
      | assumption | apply canCmd_kept | apply Answers.next
    | dsimp only

theorem execCanClearCounters_answers (s : State) (n : Fin 12) : Answers s (execCanClearCounters n s) := by
  have hK := Kept.refl s
  unfold execCanClearCounters
  repeat' first
    | with_reducible first
      | assumption | apply canCmd_kept | apply Answers.next
    | dsimp only

theorem detectEnd_kept {s₀ s : State} (n : Nat) (found : Bool) (hK : Kept s₀ s) : Kept s₀ (detectEnd s n found) := by
  unfold detectEnd
  repeat' first
    | with_reducible first
      | assumption | intro _ | apply setFs_kept | apply mapCan_kept | apply kept_ite
    | dsimp only | split | fail_if_no_progress with_reducible refine kept_mk ?_ rfl ?_ ?_ ?_ rfl | exact Nat.le_refl _ | exact Nat.zero_le _

theorem execDetectCandidateEnd_answers (s : State) (n : Fin 12) (frames : Fin 65536) (passed brs : Bool) : Answers s (execDetectCandidateEnd n frames passed brs s) := by
  have hK := Kept.refl s
  unfold execDetectCandidateEnd
  repeat' first
    | with_reducible first
      | assumption | intro _ | apply incSatF_kept | apply setF_kept | apply startTime_kept | apply mapCan_kept | apply detectEnd_kept | apply kept_ite
      | apply Answers.next | apply answers_ite
    | dsimp only | split | fail_if_no_progress with_reducible refine kept_mk ?_ rfl ?_ ?_ ?_ rfl | exact Nat.le_refl _ | exact Nat.zero_le _

theorem execCanAudit_answers (s : State) (n : Fin 12) : Answers s (execCanAudit n s) := by
  have hK := Kept.refl s
  unfold execCanAudit
  repeat' first
    | with_reducible first
      | assumption | apply latchF_kept | apply raise_kept | apply takeOffset_kept | refine takeOffset_eq_kept (by assumption) ?_ | apply kept_ite
      | apply Answers.next | apply answers_ite
    | dsimp only | split

theorem mapStation_kept {s₀ s : State} (u st : Nat) (f : MbStation → MbStation) (hK : Kept s₀ s) : Kept s₀ (mapStation s u st f) := by
  unfold mapStation
  repeat' first
    | with_reducible first
      | assumption | intro _ | apply mapUart_kept
    | dsimp only | split | fail_if_no_progress with_reducible refine kept_mk ?_ rfl ?_ ?_ ?_ rfl | exact Nat.le_refl _ | exact Nat.zero_le _

theorem execMbPollDue_answers (s : State) (number : Fin 4096) : Answers s (execMbPollDue number s) := by
  have hK := Kept.refl s
  unfold execMbPollDue
  repeat' first
    | with_reducible first
      | assumption | intro _ | apply startTime_kept | apply mapUart_kept | apply kept_ite | apply Answers.next | apply answers_ite
    | dsimp only | split | fail_if_no_progress with_reducible refine kept_mk ?_ rfl ?_ ?_ ?_ rfl | exact Nat.le_refl _ | exact Nat.zero_le _

theorem mbTransmit_kept {s₀ s : State} (u : Nat) (pdu : List Nat) (hK : Kept s₀ s) : Kept s₀ (mbTransmit s u pdu) := by
  unfold mbTransmit
  repeat' first
    | with_reducible first
      | assumption | intro _ | apply sendMsg_kept | apply startTime_kept | apply mapUart_kept | apply uartCount_kept
    | dsimp only | split | fail_if_no_progress with_reducible refine kept_mk ?_ rfl ?_ ?_ ?_ rfl | exact Nat.le_refl _ | exact Nat.zero_le _

theorem mbBegin_kept {s₀ s : State} (u : Nat) (t : MbTrans) (hK : Kept s₀ s) : Kept s₀ (mbBegin s u t) := by
  unfold mbBegin
  repeat' first
    | with_reducible first
      | assumption | intro _ | apply setF_kept | apply mapUart_kept | apply mbTransmit_kept
    | dsimp only | split | fail_if_no_progress with_reducible refine kept_mk ?_ rfl ?_ ?_ ?_ rfl | exact Nat.le_refl _ | exact Nat.zero_le _

theorem execMbRequestSend_answers (s : State) (u : Fin 8) : Answers s (execMbRequestSend u s) := by
  have hK := Kept.refl s
  unfold execMbRequestSend
  repeat' first
    | with_reducible first
      | assumption | intro _ | apply setUndeliv_kept | apply mapUart_kept | apply mapMap_kept | apply uartCount_kept | apply mbBegin_kept
      | apply kept_ite | apply Answers.next | apply answers_ite
    | dsimp only | split | fail_if_no_progress with_reducible refine kept_mk ?_ rfl ?_ ?_ ?_ rfl | exact Nat.le_refl _ | exact Nat.zero_le _

theorem uartOffNow_kept {s₀ s : State} (u : Nat) (hK : Kept s₀ s) : Kept s₀ (uartOffNow s u) := by
  unfold uartOffNow
  repeat' first
    | with_reducible first
      | assumption | intro _ | apply setF_kept | apply mapUart_kept
    | dsimp only | split | fail_if_no_progress with_reducible refine kept_mk ?_ rfl ?_ ?_ ?_ rfl | exact Nat.le_refl _ | exact Nat.zero_le _

theorem mbOver_kept {s₀ s : State} (u : Nat) (hK : Kept s₀ s) : Kept s₀ (mbOver s u) := by
  unfold mbOver
  repeat' first
    | with_reducible first
      | assumption | intro _ | apply setF_kept | apply mapUart_kept
    | dsimp only | split | fail_if_no_progress with_reducible refine kept_mk ?_ rfl ?_ ?_ ?_ rfl | exact Nat.le_refl _ | exact Nat.zero_le _

theorem requestWrites_kept {s₀ s : State} (u : Nat) (es : List (Nat × MapEntry)) (hK : Kept s₀ s) : Kept s₀ (requestWrites s u es) := by
  unfold requestWrites
  repeat' first
    | with_reducible first
      | assumption | intro _ | apply mapUart_kept | apply mapMap_kept | apply kept_ite | apply foldl_kept | apply foldl_pair_kept
    | dsimp only | split | fail_if_no_progress with_reducible refine kept_mk ?_ rfl ?_ ?_ ?_ rfl | exact Nat.le_refl _ | exact Nat.zero_le _

theorem stationReturn_kept {s₀ s : State} (u st : Nat) (hK : Kept s₀ s) : Kept s₀ (stationReturn s u st) := by
  unfold stationReturn
  repeat' first
    | with_reducible first
      | assumption | intro _ | apply mapStation_kept | apply requestWrites_kept | apply kept_ite
    | dsimp only | split | fail_if_no_progress with_reducible refine kept_mk ?_ rfl ?_ ?_ ?_ rfl | exact Nat.le_refl _ | exact Nat.zero_le _

theorem mbInWrite_kept {s₀ s : State} (u : Nat) (lead : MapEntry) (data : List Nat) (e : MapEntry) (hK : Kept s₀ s) : Kept s₀ (mbInWrite s u
    lead data e) := by
  unfold mbInWrite
  repeat' first
    | with_reducible first
      | assumption | intro _ | apply uartCount_kept | apply writerWrite_kept | apply writerQuality_kept | apply kept_ite
    | dsimp only | split

theorem mbNormal_kept {s₀ s : State} (u : Nat) (t : MbTrans) (frame : List Nat) (hK : Kept s₀ s) : Kept s₀ (mbNormal s u t frame) := by
  unfold mbNormal
  repeat' first
    | with_reducible first
      | assumption | intro _ | apply setUndeliv_kept | apply mbInWrite_kept | apply foldl_kept | apply foldl_pair_kept
    | dsimp only | split

theorem mbException_kept {s₀ s : State} (u : Nat) (t : MbTrans) (code : Nat) (hK : Kept s₀ s) : Kept s₀ (mbException s u t code) := by
  unfold mbException
  repeat' first
    | with_reducible first
      | assumption | intro _ | apply setUndeliv_kept | apply uartCount_kept | apply raise_kept | apply writerQuality_kept | apply mapStation_kept
      | apply foldl_kept | apply foldl_pair_kept
    | dsimp only | split | fail_if_no_progress with_reducible refine kept_mk ?_ rfl ?_ ?_ ?_ rfl | exact Nat.le_refl _ | exact Nat.zero_le _

theorem mbAccept_kept {s₀ s : State} (u : Nat) (frame : List Nat) (hK : Kept s₀ s) : Kept s₀ (mbAccept s u frame) := by
  unfold mbAccept
  repeat' first
    | with_reducible first
      | assumption | intro _ | apply mbOver_kept | apply stationReturn_kept | apply mbNormal_kept | apply mbException_kept | apply kept_ite
    | dsimp only | split

theorem execMbResponse_answers (s : State) (u : Fin 8) (frame : List Nat) (broken : Bool) (bad : Bool) : Answers s (execMbResponse u frame broken bad
    s) := by
  have hK := Kept.refl s
  unfold execMbResponse
  repeat' first
    | with_reducible first
      | assumption | apply uartCount_kept | apply mbAccept_kept | apply kept_ite | apply Answers.next | apply answers_ite
    | dsimp only | split

theorem stationAbsent_kept {s₀ s : State} (u st : Nat) (hK : Kept s₀ s) : Kept s₀ (stationAbsent s u st) := by
  unfold stationAbsent
  repeat' first
    | with_reducible first
      | assumption | intro _ | apply startTime_kept | apply setUndeliv_kept | apply mapUart_kept | apply uartCount_kept | apply raise_kept
      | apply writerQuality_kept | apply mapStation_kept | apply kept_ite | apply foldl_kept | apply foldl_pair_kept
    | dsimp only | split | fail_if_no_progress with_reducible refine kept_mk ?_ rfl ?_ ?_ ?_ rfl | exact Nat.le_refl _ | exact Nat.zero_le _

theorem execMbTimeout_answers (s : State) (u : Fin 8) : Answers s (execMbTimeout u s) := by
  have hK := Kept.refl s
  unfold execMbTimeout
  repeat' first
    | with_reducible first
      | assumption | intro _ | apply mapUart_kept | apply uartCount_kept | apply mapStation_kept | apply mbTransmit_kept | apply mbOver_kept
      | apply stationAbsent_kept | apply kept_ite | apply Answers.next | apply answers_ite
    | dsimp only | split | fail_if_no_progress with_reducible refine kept_mk ?_ rfl ?_ ?_ ?_ rfl | exact Nat.le_refl _ | exact Nat.zero_le _

theorem execMbAbsentProbe_answers (s : State) (u : Fin 8) (station : Fin 248) : Answers s (execMbAbsentProbe u station s) := by
  have hK := Kept.refl s
  unfold execMbAbsentProbe
  repeat' first
    | with_reducible first
      | assumption | intro _ | apply startTime_kept | apply mapUart_kept | apply requestWrites_kept | apply kept_ite | apply Answers.next
      | apply answers_ite
    | dsimp only | split | fail_if_no_progress with_reducible refine kept_mk ?_ rfl ?_ ?_ ?_ rfl | exact Nat.le_refl _ | exact Nat.zero_le _

theorem uartTick_kept {s₀ s : State} (u : Nat) (hK : Kept s₀ s) : Kept s₀ (uartTick s u) := by
  unfold uartTick
  repeat' first
    | with_reducible first
      | assumption | intro _ | apply requestWrites_kept | apply kept_ite
    | dsimp only | split

theorem uartInsAbsent_kept {s₀ s : State} (u : Nat) (hK : Kept s₀ s) : Kept s₀ (uartInsAbsent s u) := by
  unfold uartInsAbsent
  repeat' first
    | with_reducible first
      | assumption | intro _ | apply writerQuality_kept | apply foldl_kept | apply foldl_pair_kept
    | dsimp only | split

theorem uartLeave_kept {s₀ s : State} (u : Nat) (hK : Kept s₀ s) : Kept s₀ (uartLeave s u) := by
  unfold uartLeave
  repeat' first
    | with_reducible first
      | assumption | intro _ | apply setUndeliv_kept | apply flushUart_kept | apply uartOffNow_kept | apply uartInsAbsent_kept | apply foldl_kept
      | apply foldl_pair_kept
    | dsimp only | split

theorem uartOnline_kept {s₀ s : State} (u : Nat) (hK : Kept s₀ s) : Kept s₀ (uartOnline s u) := by
  unfold uartOnline
  repeat' first
    | with_reducible first
      | assumption | intro _ | apply setF_kept | apply mapMap_kept | apply foldl_kept | apply foldl_pair_kept
    | dsimp only | split | fail_if_no_progress with_reducible refine kept_mk ?_ rfl ?_ ?_ ?_ rfl | exact Nat.le_refl _ | exact Nat.zero_le _

theorem uartFields_kept {s₀ s : State} (u op result : Nat) (hK : Kept s₀ s) : Kept s₀ (uartFields s u op result) := by
  unfold uartFields
  repeat' first
    | with_reducible first
      | assumption | apply setFs_kept
    | dsimp only

theorem uartCmd_kept {s₀ s : State} (u op : Nat) (hK : Kept s₀ s) : Kept s₀ (uartCmd s u op) := by
  unfold uartCmd
  repeat' first
    | with_reducible first
      | assumption | intro _ | apply setF_kept | apply mapUart_kept | apply uartLeave_kept | apply uartOnline_kept | apply uartFields_kept
      | apply kept_ite | apply foldl_kept | apply foldl_pair_kept
    | dsimp only | split | fail_if_no_progress with_reducible refine kept_mk ?_ rfl ?_ ?_ ?_ rfl | exact Nat.le_refl _ | exact Nat.zero_le _

theorem execUartDisable_answers (s : State) (u : Fin 8) : Answers s (execUartDisable u s) := by
  have hK := Kept.refl s
  unfold execUartDisable
  repeat' first
    | with_reducible first
      | assumption | apply uartCmd_kept | apply Answers.next
    | dsimp only

theorem execUartEnable_answers (s : State) (u : Fin 8) : Answers s (execUartEnable u s) := by
  have hK := Kept.refl s
  unfold execUartEnable
  repeat' first
    | with_reducible first
      | assumption | apply uartCmd_kept | apply Answers.next
    | dsimp only

theorem execUartClearCounters_answers (s : State) (u : Fin 8) : Answers s (execUartClearCounters u s) := by
  have hK := Kept.refl s
  unfold execUartClearCounters
  repeat' first
    | with_reducible first
      | assumption | apply uartCmd_kept | apply Answers.next
    | dsimp only

theorem setPin_kept {s₀ s : State} (lo hi : RF) (pin : Nat) (b : Bool) (hK : Kept s₀ s) : Kept s₀ (setPin s lo hi pin b) := by
  unfold setPin
  repeat' first
    | with_reducible first
      | assumption | apply setF_kept | apply kept_ite
    | dsimp only | split

theorem readLand_kept {s₀ s : State} (pin : Nat) (hK : Kept s₀ s) : Kept s₀ (readLand s pin) := by
  unfold readLand
  repeat' first
    | with_reducible first
      | assumption | intro _ | apply setPin_kept
    | dsimp only | split

theorem readLands_kept {s₀ s : State} (hK : Kept s₀ s) : Kept s₀ (readLands s) := by
  unfold readLands
  repeat' first
    | with_reducible first
      | assumption | intro _ | apply readLand_kept | apply foldl_kept | apply foldl_pair_kept
    | dsimp only | split

theorem gpioWrite_kept {s₀ s : State} (e : MapEntry) (hK : Kept s₀ s) : Kept s₀ (gpioWrite s e) := by
  unfold gpioWrite
  repeat' first
    | with_reducible first
      | assumption | apply writerWrite_kept | apply kept_ite
    | dsimp only | split

theorem execGpioInChange_answers (s : State) (pin : Fin 64) (level : Bool) : Answers s (execGpioInChange pin level s) := by
  have hK := Kept.refl s
  unfold execGpioInChange
  repeat' first
    | with_reducible first
      | assumption | intro _ | apply readLand_kept | apply gpioWrite_kept | apply kept_ite | apply Answers.next | apply answers_ite
    | dsimp only | split | fail_if_no_progress with_reducible refine kept_mk ?_ rfl ?_ ?_ ?_ rfl | exact Nat.le_refl _ | exact Nat.zero_le _

theorem gpioDrive_kept {s₀ s : State} (hK : Kept s₀ s) : Kept s₀ (gpioDrive s) := by
  unfold gpioDrive
  repeat' first
    | with_reducible first
      | assumption | intro _ | apply setPin_kept | apply foldl_kept | apply foldl_pair_kept
    | dsimp only | split

theorem readOutputs_kept {s₀ s : State} (hK : Kept s₀ s) : Kept s₀ (readOutputs s) := by
  unfold readOutputs
  repeat' first
    | with_reducible first
      | assumption | intro _
    | dsimp only | split | fail_if_no_progress with_reducible refine kept_mk ?_ rfl ?_ ?_ ?_ rfl | exact Nat.le_refl _ | exact Nat.zero_le _

theorem feTick_kept {s₀ s : State} (hK : Kept s₀ s) : Kept s₀ (feTick s) := by
  unfold feTick
  repeat' first
    | with_reducible first
      | assumption | intro _ | apply canTick_kept | apply serveCan_kept | apply uartTick_kept | apply readLands_kept | apply gpioDrive_kept
      | apply readOutputs_kept | apply kept_ite | apply foldl_kept | apply foldl_pair_kept
    | dsimp only | split

theorem feRelease_kept {s₀ s : State} (hK : Kept s₀ s) : Kept s₀ (feRelease s) := by
  unfold feRelease
  repeat' first
    | with_reducible first
      | assumption | intro _ | apply mapCan_kept | apply canInsAbsent_kept | apply canOnline_kept | apply mapStation_kept | apply requestWrites_kept
      | apply uartInsAbsent_kept | apply uartOnline_kept | apply readLands_kept | apply gpioWrite_kept | apply kept_ite | apply foldl_kept
      | apply foldl_pair_kept
    | dsimp only | split | fail_if_no_progress with_reducible refine kept_mk ?_ rfl ?_ ?_ ?_ rfl | exact Nat.le_refl _ | exact Nat.zero_le _

theorem syncNodes_kept {s₀ s : State} (n : Nat) (hK : Kept s₀ s) : Kept s₀ (syncNodes s n) := by
  unfold syncNodes
  repeat' first
    | with_reducible first
      | assumption | intro _ | apply mapCan_kept | apply kept_ite | apply foldl_kept | apply foldl_pair_kept
    | dsimp only | split | fail_if_no_progress with_reducible refine kept_mk ?_ rfl ?_ ?_ ?_ rfl | exact Nat.le_refl _ | exact Nat.zero_le _

theorem flushGone_kept {s₀ s : State} (n : Nat) (hK : Kept s₀ s) : Kept s₀ (flushGone s n) := by
  unfold flushGone
  repeat' first
    | with_reducible first
      | assumption | intro _ | apply mapCan_kept | apply endReq_kept | apply kept_ite | apply foldl_kept | apply foldl_pair_kept
    | dsimp only | split | fail_if_no_progress with_reducible refine kept_mk ?_ rfl ?_ ?_ ?_ rfl | exact Nat.le_refl _ | exact Nat.zero_le _

theorem fieldCommit_kept {s₀ s : State} (fresh : List Nat) (hK : Kept s₀ s) : Kept s₀ (fieldCommit s fresh) := by
  unfold fieldCommit
  repeat' first
    | with_reducible first
      | assumption | intro _ | apply setFs_kept | apply startTime_kept | apply mapUart_kept | apply canOnline_kept | apply canLeave_kept
      | apply uartLeave_kept | apply uartOnline_kept | apply readLands_kept | apply gpioWrite_kept | apply gpioDrive_kept | apply syncNodes_kept
      | apply flushGone_kept | apply kept_ite | apply foldl_kept | apply foldl_pair_kept
    | dsimp only | split | fail_if_no_progress with_reducible refine kept_mk ?_ rfl ?_ ?_ ?_ rfl | exact Nat.le_refl _ | exact Nat.zero_le _

end Sys2Proof.Machine
end

