-- ==== Sys2Proof/Laws/KeptMemory.lean ====
section
/-! SUPPORT. Laws/KeptMemory.lean: what the operations of Machine/Memory.lean keep. -/

namespace Sys2Proof.Machine

set_option linter.unusedTactic false
set_option linter.unreachableTactic false

theorem mapMem_kept {s₀ s : State} (f : MemState → MemState) (hK : Kept s₀ s) : Kept s₀ (mapMem s f) := by
  unfold mapMem
  repeat' first
    | with_reducible first
      | assumption
    | dsimp only | fail_if_no_progress with_reducible refine kept_mk ?_ rfl ?_ ?_ ?_ rfl | exact Nat.le_refl _ | exact Nat.zero_le _

theorem recordLast_kept {s₀ s : State} (r addr sym : Nat) (due stuck : Bool) (hK : Kept s₀ s) : Kept s₀ (recordLast s r addr sym due stuck)
    := by
  unfold recordLast
  repeat' first
    | with_reducible first
      | assumption | apply setFs_kept | apply kept_ite
    | dsimp only | split

theorem mortiseLost_kept {s₀ s : State} (p octet : Nat) (hK : Kept s₀ s) : Kept s₀ (mortiseLost s p octet) := by
  unfold mortiseLost
  repeat' first
    | with_reducible first
      | assumption | apply setSlot_kept | apply kept_ite
    | dsimp only | split

theorem dueAction_kept {s₀ s : State} (p : MemPlace) (addr : Nat) (hK : Kept s₀ s) : Kept s₀ (dueAction s p addr) := by
  unfold dueAction
  repeat' first
    | with_reducible first
      | assumption | intro _ | apply latchF_kept | apply setTask_kept | apply storageLost_kept | apply mapSe_kept | apply setAcc_kept | apply keyFinish_kept
      | apply mapMem_kept | apply mortiseLost_kept | apply kept_ite | apply foldl_kept | apply foldl_pair_kept
    | dsimp only | split | fail_if_no_progress with_reducible refine kept_mk ?_ rfl ?_ ?_ ?_ rfl | exact Nat.le_refl _ | exact Nat.zero_le _
    | exact List.length_filter_le _ _ | (apply Nat.le_of_eq; simp; done) | (simp; done) | (rw [(by assumption : _ = _ :: _)]; exact Nat.le_refl _)

theorem sramFix_kept {s₀ s : State} (r addr sym : Nat) (hK : Kept s₀ s) : Kept s₀ (sramFix s r addr sym) := by
  unfold sramFix
  repeat' first
    | with_reducible first
      | assumption | intro _ | apply raise_kept | apply mapMem_kept | apply recordLast_kept | apply kept_ite
    | dsimp only | split | fail_if_no_progress with_reducible refine kept_mk ?_ rfl ?_ ?_ ?_ rfl | exact Nat.le_refl _ | exact Nat.zero_le _

theorem dramFix_kept {s₀ s : State} (addr : Nat) (hK : Kept s₀ s) : Kept s₀ (dramFix s addr) := by
  unfold dramFix
  repeat' first
    | with_reducible first
      | assumption | intro _ | apply mapMem_kept | apply kept_ite
    | dsimp only | split | fail_if_no_progress with_reducible refine kept_mk ?_ rfl ?_ ?_ ?_ rfl | exact Nat.le_refl _ | exact Nat.zero_le _

theorem corrected_kept {s₀ s : State} (r addr sym : Nat) (hK : Kept s₀ s) : Kept s₀ (corrected s r addr sym) := by
  unfold corrected
  repeat' first
    | with_reducible first
      | assumption | intro _ | apply incF_kept | apply mapMem_kept | apply sramFix_kept | apply dramFix_kept | apply kept_ite
    | dsimp only | split | fail_if_no_progress with_reducible refine kept_mk ?_ rfl ?_ ?_ ?_ rfl | exact Nat.le_refl _ | exact Nat.zero_le _

theorem injectionUsed_kept {s₀ s : State} (p : MemPlace) (addr : Nat) (f : ScrubFind) (hK : Kept s₀ s) : Kept s₀ (injectionUsed s p addr f) := by
  unfold injectionUsed
  repeat' first
    | with_reducible first
      | assumption | intro _ | apply useForce_kept | apply kept_ite
    | dsimp only | split

theorem passEnd_kept {s₀ s : State} (r : Nat) (hK : Kept s₀ s) : Kept s₀ (passEnd s r) := by
  unfold passEnd
  repeat' first
    | with_reducible first
      | assumption | intro _ | apply incF_kept | apply startTime_kept | apply mapMem_kept | apply kept_ite
    | dsimp only | split | fail_if_no_progress with_reducible refine kept_mk ?_ rfl ?_ ?_ ?_ rfl | exact Nat.le_refl _ | exact Nat.zero_le _

theorem execPatrolScrub_answers (s : State) (place : MemPlace) (addr : Fin 0x200000000) (find : ScrubFind) (last : Bool) : Answers s (execPatrolScrub
    place addr find last s) := by
  have hK := Kept.refl s
  unfold execPatrolScrub
  repeat' first
    | with_reducible first
      | assumption | intro _ | apply incSatF_kept | apply raiseSev_kept | apply recordLast_kept | apply dueAction_kept | apply corrected_kept
      | apply injectionUsed_kept | apply passEnd_kept | apply kept_ite | apply Answers.next | apply answers_ite
    | dsimp only | split

theorem execCeRateHour_answers (s : State) (r : Fin 7) (hourEnds : Bool) : Answers s (execCeRateHour r hourEnds s) := by
  have hK := Kept.refl s
  unfold execCeRateHour
  repeat' first
    | with_reducible first
      | assumption | intro _ | apply startTime_kept | apply raise_kept | apply mapMem_kept | apply kept_ite | apply Answers.next | apply answers_ite
    | dsimp only | split | fail_if_no_progress with_reducible refine kept_mk ?_ rfl ?_ ?_ ?_ rfl | exact Nat.le_refl _ | exact Nat.zero_le _

theorem execPageRetire_answers (s : State) (page : Fin 0x200000) : Answers s (execPageRetire page s) := by
  have hK := Kept.refl s
  unfold execPageRetire
  repeat' first
    | with_reducible first
      | assumption | intro _ | apply raise_kept | apply mapMem_kept | apply kept_ite | apply Answers.next | apply answers_ite
    | dsimp only | split | fail_if_no_progress with_reducible refine kept_mk ?_ rfl ?_ ?_ ?_ rfl | exact Nat.le_refl _ | exact Nat.zero_le _

theorem dramStat_kept {s₀ s : State} (hK : Kept s₀ s) : Kept s₀ (dramStat s) := by
  unfold dramStat
  repeat' first
    | with_reducible first
      | assumption | apply setFs_kept
    | dsimp only

theorem execPageCopyDone_answers (s : State) : Answers s (execPageCopyDone s) := by
  have hK := Kept.refl s
  unfold execPageCopyDone
  repeat' first
    | with_reducible first
      | assumption | intro _ | apply mapMem_kept | apply dramStat_kept | apply Answers.next
    | dsimp only | split | fail_if_no_progress with_reducible refine kept_mk ?_ rfl ?_ ?_ ?_ rfl | exact Nat.le_refl _ | exact Nat.zero_le _

theorem nandStat_kept {s₀ s : State} (hK : Kept s₀ s) : Kept s₀ (nandStat s) := by
  unfold nandStat
  repeat' first
    | with_reducible first
      | assumption | intro _ | apply setFs_kept | apply foldl_kept | apply foldl_pair_kept
    | dsimp only | split

theorem eraseBlock_kept {s₀ s : State} (b : Nat) (hK : Kept s₀ s) : Kept s₀ (eraseBlock s b) := by
  unfold eraseBlock
  repeat' first
    | with_reducible first
      | assumption | intro _ | apply maxF_kept | apply mapMem_kept
    | dsimp only | split | fail_if_no_progress with_reducible refine kept_mk ?_ rfl ?_ ?_ ?_ rfl | exact Nat.le_refl _ | exact Nat.zero_le _

theorem refreshEnd_kept {s₀ s : State} (hK : Kept s₀ s) : Kept s₀ (refreshEnd s) := by
  unfold refreshEnd
  repeat' first
    | with_reducible first
      | assumption | intro _ | apply incSatF_kept | apply mapMem_kept | apply eraseBlock_kept
    | dsimp only | split | fail_if_no_progress with_reducible refine kept_mk ?_ rfl ?_ ?_ ?_ rfl | exact Nat.le_refl _ | exact Nat.zero_le _

theorem execNandRefresh_answers (s : State) (block : Fin 8192) (into : Fin 8192) : Answers s (execNandRefresh block into s) := by
  have hK := Kept.refl s
  unfold execNandRefresh
  repeat' first
    | with_reducible first
      | assumption | intro _ | apply grantNow_kept | refine grantNow_eq_kept (by assumption) ?_ | apply mapMem_kept | apply kept_ite
      | apply Answers.next | apply answers_ite
    | dsimp only | split | fail_if_no_progress with_reducible refine kept_mk ?_ rfl ?_ ?_ ?_ rfl | exact Nat.le_refl _ | exact Nat.zero_le _

theorem norCheck_kept {s₀ s : State} (hK : Kept s₀ s) : Kept s₀ (norCheck s) := by
  unfold norCheck
  repeat' first
    | with_reducible first
      | assumption | apply setFs_kept
    | dsimp only

theorem execNandPatrol_answers (s : State) (worn : List (Fin 8192)) (lost : List (Fin 4096)) : Answers s (execNandPatrol worn lost s) := by
  have hK := Kept.refl s
  unfold execNandPatrol
  repeat' first
    | with_reducible first
      | assumption | intro _ | apply setF_kept | apply startTime_kept | apply raise_kept | apply mapMem_kept | apply norCheck_kept | apply kept_ite
      | apply foldl_kept | apply foldl_pair_kept | apply Answers.next | apply answers_ite
    | dsimp only | split | fail_if_no_progress with_reducible refine kept_mk ?_ rfl ?_ ?_ ?_ rfl | exact Nat.le_refl _ | exact Nat.zero_le _

theorem execNandRetentionRewrite_answers (s : State) (block : Fin 8192) (into : Fin 8192) : Answers s (execNandRetentionRewrite block into s) := by
  have hK := Kept.refl s
  unfold execNandRetentionRewrite
  repeat' first
    | with_reducible first
      | assumption | intro _ | apply withGrant_kept | apply mapMem_kept | apply eraseBlock_kept | apply kept_ite | apply Answers.next
      | apply answers_ite
    | dsimp only | split | fail_if_no_progress with_reducible refine kept_mk ?_ rfl ?_ ?_ ?_ rfl | exact Nat.le_refl _ | exact Nat.zero_le _

theorem execNandBlockFail_answers (s : State) (block : Fin 8192) : Answers s (execNandBlockFail block s) := by
  have hK := Kept.refl s
  unfold execNandBlockFail
  repeat' first
    | with_reducible first
      | assumption | intro _ | apply raiseSev_kept | apply raise_kept | apply mapMem_kept | apply nandStat_kept | apply kept_ite | apply Answers.next
      | apply answers_ite
    | dsimp only | split | fail_if_no_progress with_reducible refine kept_mk ?_ rfl ?_ ?_ ?_ rfl | exact Nat.le_refl _ | exact Nat.zero_le _

theorem execFabricAudit_answers (s : State) : Answers s (execFabricAudit s) := by
  have hK := Kept.refl s
  unfold execFabricAudit
  repeat' first
    | with_reducible first
      | assumption | intro _ | apply incF_kept | apply latchF_kept | apply raise_kept | apply takeOffset_kept
      | refine takeOffset_eq_kept (by assumption) ?_ | apply kept_ite | apply foldl_kept | apply foldl_pair_kept | apply Answers.next
      | apply answers_ite
    | dsimp only | split

theorem memFields_kept {s₀ s : State} (op result : Nat) (hK : Kept s₀ s) : Kept s₀ (memFields s op result) := by
  unfold memFields
  repeat' first
    | with_reducible first
      | assumption | apply setFs_kept
    | dsimp only

theorem memCmd_kept {s₀ s : State} (op : Nat) (hK : Kept s₀ s) : Kept s₀ (memCmd s op) := by
  unfold memCmd
  repeat' first
    | with_reducible first
      | assumption | intro _ | apply setF_kept | apply setFs_kept | apply mapMem_kept | apply memFields_kept | apply kept_ite | apply foldl_kept
      | apply foldl_pair_kept
    | dsimp only | split | fail_if_no_progress with_reducible refine kept_mk ?_ rfl ?_ ?_ ?_ rfl | exact Nat.le_refl _ | exact Nat.zero_le _

theorem execSramScrubNow_answers (s : State) : Answers s (execSramScrubNow s) := by
  have hK := Kept.refl s
  unfold execSramScrubNow
  repeat' first
    | with_reducible first
      | assumption | apply memCmd_kept | apply Answers.next
    | dsimp only

theorem execDramScrubNow_answers (s : State) : Answers s (execDramScrubNow s) := by
  have hK := Kept.refl s
  unfold execDramScrubNow
  repeat' first
    | with_reducible first
      | assumption | apply memCmd_kept | apply Answers.next
    | dsimp only

theorem execNandPatrolNow_answers (s : State) : Answers s (execNandPatrolNow s) := by
  have hK := Kept.refl s
  unfold execNandPatrolNow
  repeat' first
    | with_reducible first
      | assumption | apply memCmd_kept | apply Answers.next
    | dsimp only

theorem execMemClearCounters_answers (s : State) : Answers s (execMemClearCounters s) := by
  have hK := Kept.refl s
  unfold execMemClearCounters
  repeat' first
    | with_reducible first
      | assumption | apply memCmd_kept | apply Answers.next
    | dsimp only

end Sys2Proof.Machine
end

