-- ==== Sys2Proof/Laws/KeptPower.lean ====
section
/-! SUPPORT. Laws/KeptPower.lean: what the operations of Machine/Power.lean keep. -/

namespace Sys2Proof.Machine

set_option linter.unusedTactic false
set_option linter.unreachableTactic false

theorem setDom_kept {s₀ s : State} (f : RF) (d : Nat) (b : Bool) (hK : Kept s₀ s) : Kept s₀ (setDom s f d b) := by
  unfold setDom
  repeat' first
    | with_reducible first
      | assumption | apply setF_kept
    | dsimp only

theorem requestDomain_kept {s₀ s : State} (d : Nat) (hK : Kept s₀ s) : Kept s₀ (requestDomain s d) := by
  unfold requestDomain
  repeat' first
    | with_reducible first
      | assumption | intro _ | apply govRequest_kept | apply kept_ite
    | dsimp only | split

theorem scrubLost_kept {s₀ s : State} (rs : List Nat) (hK : Kept s₀ s) : Kept s₀ (scrubLost s rs) := by
  unfold scrubLost
  repeat' first
    | with_reducible first
      | assumption | intro _ | apply mapMem_kept
    | dsimp only | split | fail_if_no_progress with_reducible refine kept_mk ?_ rfl ?_ ?_ ?_ rfl | exact Nat.le_refl _ | exact Nat.zero_le _

theorem domainLost_kept {s₀ s : State} (d : Nat) (hK : Kept s₀ s) : Kept s₀ (domainLost s d) := by
  unfold domainLost
  repeat' first
    | with_reducible first
      | assumption | intro _ | apply setFs_kept | apply resetFe_kept | apply resetTasks_kept | apply resetLoops_kept | apply mapSe_kept
      | apply setLink_kept | apply stopTraining_kept | apply keyFinish_kept | apply scrubLost_kept | apply foldl_kept | apply foldl_pair_kept
    | dsimp only | split | fail_if_no_progress with_reducible refine kept_mk ?_ rfl ?_ ?_ ?_ rfl | exact Nat.le_refl _ | exact Nat.zero_le _
    | exact List.length_filter_le _ _ | (apply Nat.le_of_eq; simp; done) | (simp; done) | (rw [(by assumption : _ = _ :: _)]; exact Nat.le_refl _)

theorem powerDown_kept {s₀ s : State} (d : Nat) (hK : Kept s₀ s) : Kept s₀ (powerDown s d) := by
  unfold powerDown
  repeat' first
    | with_reducible first
      | assumption | intro _ | apply recharge_kept | apply mapPw_kept | apply pegReturn_kept | apply setDom_kept | apply domainLost_kept
      | apply kept_ite | apply foldl_kept | apply foldl_pair_kept
    | dsimp only | split | fail_if_no_progress with_reducible refine kept_mk ?_ rfl ?_ ?_ ?_ rfl | exact Nat.le_refl _ | exact Nat.zero_le _

theorem setStarts_kept {s₀ s : State} (b : Bool) (n : Nat) (hK : Kept s₀ s) : Kept s₀ (setStarts s b n) := by
  unfold setStarts
  repeat' first
    | with_reducible first
      | assumption | intro _ | apply mapPw_kept | apply kept_ite
    | dsimp only | split | fail_if_no_progress with_reducible refine kept_mk ?_ rfl ?_ ?_ ?_ rfl | exact Nat.le_refl _ | exact Nat.zero_le _

theorem askBootCheck_kept {s₀ s : State} (hK : Kept s₀ s) : Kept s₀ (askBootCheck s) := by
  unfold askBootCheck
  repeat' first
    | with_reducible first
      | assumption | intro _ | apply mapPw_kept | apply govRequest_kept | apply kept_ite
    | dsimp only | split | fail_if_no_progress with_reducible refine kept_mk ?_ rfl ?_ ?_ ?_ rfl | exact Nat.le_refl _ | exact Nat.zero_le _

theorem execPegRequest_answers (s : State) (o : GovOp) : Answers s (execPegRequest o s) := by
  have hK := Kept.refl s
  unfold execPegRequest
  repeat' first
    | with_reducible first
      | assumption | intro _ | apply setF_kept | apply govRequest_kept | apply askTraining_kept | apply requestDomain_kept | apply kept_ite
      | apply Answers.next | apply answers_ite
    | dsimp only | split

theorem wakesDone_kept {s₀ s : State} (hK : Kept s₀ s) : Kept s₀ (wakesDone s) := by
  unfold wakesDone
  repeat' first
    | with_reducible first
      | assumption | intro _ | apply requestDomain_kept | apply kept_ite
    | dsimp only | split

theorem execPegReturn_answers (s : State) (o : GovOp) : Answers s (execPegReturn o s) := by
  have hK := Kept.refl s
  unfold execPegReturn
  repeat' first
    | with_reducible first
      | assumption | intro _ | apply pegReturn_kept | apply refreshEnd_kept | apply wakesDone_kept | apply kept_ite | apply Answers.next
      | apply answers_ite
    | dsimp only | split

theorem seedLoops_kept {s₀ s : State} (hK : Kept s₀ s) : Kept s₀ (seedLoops s) := by
  unfold seedLoops
  repeat' first
    | with_reducible first
      | assumption | intro _ | apply freshFree_kept | refine freshFree_eq_kept (by assumption) ?_ | apply kept_ite | apply foldl_kept
      | apply foldl_pair_kept
    | dsimp only | split | fail_if_no_progress with_reducible refine kept_mk ?_ rfl ?_ ?_ ?_ rfl | exact Nat.le_refl _ | exact Nat.zero_le _

theorem releaseWhole_kept {s₀ s : State} (d : Nat) (hK : Kept s₀ s) : Kept s₀ (releaseWhole s d) := by
  unfold releaseWhole
  repeat' first
    | with_reducible first
      | assumption | intro _ | apply setF_kept | apply gateEngines_kept | apply mapPw_kept | apply askTraining_kept | apply initPools_kept
      | apply feRelease_kept | apply requestDomain_kept | apply askBootCheck_kept | apply seedLoops_kept | apply kept_ite | apply foldl_kept
      | apply foldl_pair_kept
    | dsimp only | split | fail_if_no_progress with_reducible refine kept_mk ?_ rfl ?_ ?_ ?_ rfl | exact Nat.le_refl _ | exact Nat.zero_le _

theorem execDomainRelease_answers (s : State) (d : Fin 14) : Answers s (execDomainRelease d s) := by
  have hK := Kept.refl s
  unfold execDomainRelease
  repeat' first
    | with_reducible first
      | assumption | intro _ | apply setF_kept | apply gateEngines_kept | apply mapPw_kept | apply askTraining_kept | apply setDom_kept
      | apply releaseWhole_kept | apply kept_ite | apply foldl_kept | apply foldl_pair_kept | apply Answers.next | apply answers_ite
    | dsimp only | split | fail_if_no_progress with_reducible refine kept_mk ?_ rfl ?_ ?_ ?_ rfl | exact Nat.le_refl _ | exact Nat.zero_le _

theorem execReleaseTimeout_answers (s : State) (d : Fin 14) : Answers s (execReleaseTimeout d s) := by
  have hK := Kept.refl s
  unfold execReleaseTimeout
  repeat' first
    | with_reducible first
      | assumption | intro _ | apply latchF_kept | apply raise_kept | apply useForce_kept | apply mapPw_kept | apply setDom_kept
      | apply requestDomain_kept | apply powerDown_kept | apply kept_ite | apply Answers.next | apply answers_ite
    | dsimp only | split | fail_if_no_progress with_reducible refine kept_mk ?_ rfl ?_ ?_ ?_ rfl | exact Nat.le_refl _ | exact Nat.zero_le _

theorem clkCmd_kept {s₀ s : State} (op d : Nat) (hK : Kept s₀ s) : Kept s₀ (clkCmd s op d) := by
  unfold clkCmd
  repeat' first
    | with_reducible first
      | assumption | apply setFs_kept | apply setDom_kept | apply requestDomain_kept | apply kept_ite
    | dsimp only | split

theorem execClkRetry_answers (s : State) (d : Fin 16) : Answers s (execClkRetry d s) := by
  have hK := Kept.refl s
  unfold execClkRetry
  repeat' first
    | with_reducible first
      | assumption | apply clkCmd_kept | apply Answers.next
    | dsimp only

theorem execNresetPulse_answers (s : State) : Answers s (execNresetPulse s) := by
  have hK := Kept.refl s
  unfold execNresetPulse
  repeat' first
    | with_reducible first
      | assumption | apply setF_kept | apply assertReset_kept | apply kept_ite | apply Answers.next | apply answers_ite
    | dsimp only | split

theorem execCoreUv_answers (s : State) : Answers s (execCoreUv s) := by
  have hK := Kept.refl s
  unfold execCoreUv
  repeat' first
    | with_reducible first
      | assumption | apply assertReset_kept | apply kept_ite | apply Answers.next | apply answers_ite
    | dsimp only | split

theorem clockLoss_kept {s₀ s : State} (c err : Nat) (hK : Kept s₀ s) : Kept s₀ (clockLoss s c err) := by
  unfold clockLoss
  repeat' first
    | with_reducible first
      | assumption | intro _ | apply incSatF_kept | apply resetRegs_kept | apply setF_kept | apply startTime_kept | apply resetFe_kept
      | apply assertReset_kept | apply raise_kept | apply mapPw_kept | apply modFail_kept | apply setLink_kept | apply tamperEvent_kept
      | apply setDom_kept | apply kept_ite | apply foldl_kept | apply foldl_pair_kept
    | dsimp only | split | fail_if_no_progress with_reducible refine kept_mk ?_ rfl ?_ ?_ ?_ rfl | exact Nat.le_refl _ | exact Nat.zero_le _

theorem execClockLoss_answers (s : State) (c : Fin 8) (err : Fin 0x1000000) : Answers s (execClockLoss c err s) := by
  have hK := Kept.refl s
  unfold execClockLoss
  repeat' first
    | with_reducible first
      | assumption | apply clockLoss_kept | apply Answers.next
    | dsimp only

theorem execOvertemp_answers (s : State) : Answers s (execOvertemp s) := by
  have hK := Kept.refl s
  unfold execOvertemp
  repeat' first
    | with_reducible first
      | assumption | apply setFs_kept | apply assertReset_kept | apply kept_ite | apply Answers.next | apply answers_ite
    | dsimp only | split

theorem execTempHot_answers (s : State) : Answers s (execTempHot s) := by
  have hK := Kept.refl s
  unfold execTempHot
  repeat' first
    | with_reducible first
      | assumption | apply setFs_kept | apply raise_kept | apply Answers.next
    | dsimp only

theorem execSvWatchdog_answers (s : State) : Answers s (execSvWatchdog s) := by
  have hK := Kept.refl s
  unfold execSvWatchdog
  repeat' first
    | with_reducible first
      | assumption | apply assertReset_kept | apply kept_ite | apply Answers.next | apply answers_ite
    | dsimp only | split

theorem execDebugReset_answers (s : State) : Answers s (execDebugReset s) := by
  have hK := Kept.refl s
  unfold execDebugReset
  repeat' first
    | with_reducible first
      | assumption | apply assertReset_kept | apply kept_ite | apply Answers.next | apply answers_ite
    | dsimp only | split

theorem execDozeExit_answers (s : State) (cause : Fin 4) : Answers s (execDozeExit cause s) := by
  have hK := Kept.refl s
  unfold execDozeExit
  repeat' first
    | with_reducible first
      | assumption | apply dozeWake_kept | apply kept_ite | apply Answers.next | apply answers_ite
    | dsimp only | split

theorem execSillPor_answers (s : State) : Answers s (execSillPor s) := by
  have hK := Kept.refl s
  unfold execSillPor
  repeat' first
    | with_reducible first
      | assumption | apply assertReset_kept | apply setDom_kept | apply Answers.next
    | dsimp only

theorem sourceRelease_kept {s₀ s : State} (i : Nat) (hK : Kept s₀ s) : Kept s₀ (sourceRelease s i) := by
  unfold sourceRelease
  repeat' first
    | with_reducible first
      | assumption | intro _ | apply startTime_kept | apply mapPw_kept | apply kept_ite
    | dsimp only | split | fail_if_no_progress with_reducible refine kept_mk ?_ rfl ?_ ?_ ?_ rfl | exact Nat.le_refl _ | exact Nat.zero_le _

theorem execResetSourceRelease_answers (s : State) (source : Fin 14) : Answers s (execResetSourceRelease source s) := by
  have hK := Kept.refl s
  unfold execResetSourceRelease
  repeat' first
    | with_reducible first
      | assumption | apply sourceRelease_kept | apply Answers.next
    | dsimp only

theorem execSillPorRelease_answers (s : State) : Answers s (execSillPorRelease s) := by
  have hK := Kept.refl s
  unfold execSillPorRelease
  repeat' first
    | with_reducible first
      | assumption | apply sourceRelease_kept | apply kept_ite | apply Answers.next | apply answers_ite
    | dsimp only | split | fail_if_no_progress with_reducible refine kept_mk ?_ rfl ?_ ?_ ?_ rfl | exact Nat.le_refl _ | exact Nat.zero_le _

theorem blockLost_kept {s₀ s : State} (b : Nat) (hK : Kept s₀ s) : Kept s₀ (blockLost s b) := by
  unfold blockLost
  repeat' first
    | with_reducible first
      | assumption | intro _ | apply resetCan_kept | apply resetUart_kept | apply resetTasks_kept | apply resetLoops_kept | apply mapMac_kept
      | apply macEmpty_kept | apply stopTraining_kept | apply kept_ite
    | dsimp only | split | fail_if_no_progress with_reducible refine kept_mk ?_ rfl ?_ ?_ ?_ rfl | exact Nat.le_refl _ | exact Nat.zero_le _

theorem blockReset_kept {s₀ s : State} (b d : Nat) (hK : Kept s₀ s) : Kept s₀ (blockReset s b d) := by
  unfold blockReset
  repeat' first
    | with_reducible first
      | assumption | intro _ | apply incF_kept | apply resetRegs_kept | apply setF_kept | apply startTime_kept | apply recordSource_kept
      | apply mapPw_kept | apply setDom_kept | apply blockLost_kept | apply kept_ite
    | dsimp only | split | fail_if_no_progress with_reducible refine kept_mk ?_ rfl ?_ ?_ ?_ rfl | exact Nat.le_refl _ | exact Nat.zero_le _

theorem rstFields_kept {s₀ s : State} (op b result : Nat) (hK : Kept s₀ s) : Kept s₀ (rstFields s op b result) := by
  unfold rstFields
  repeat' first
    | with_reducible first
      | assumption | apply setFs_kept
    | dsimp only

theorem rstCmd_kept {s₀ s : State} (op b : Nat) (hK : Kept s₀ s) : Kept s₀ (rstCmd s op b) := by
  unfold rstCmd
  repeat' first
    | with_reducible first
      | assumption | intro _ | apply assertReset_kept | apply blockReset_kept | apply rstFields_kept | apply kept_ite
    | dsimp only | split

theorem execRstWarm_answers (s : State) : Answers s (execRstWarm s) := by
  have hK := Kept.refl s
  unfold execRstWarm
  repeat' first
    | with_reducible first
      | assumption | apply rstCmd_kept | apply Answers.next
    | dsimp only

theorem execRstEngine_answers (s : State) : Answers s (execRstEngine s) := by
  have hK := Kept.refl s
  unfold execRstEngine
  repeat' first
    | with_reducible first
      | assumption | apply rstCmd_kept | apply Answers.next
    | dsimp only

theorem execRstBlock_answers (s : State) (b : Fin 64) : Answers s (execRstBlock b s) := by
  have hK := Kept.refl s
  unfold execRstBlock
  repeat' first
    | with_reducible first
      | assumption | apply rstCmd_kept | apply Answers.next
    | dsimp only

theorem debugPath_kept {s₀ s : State} (hK : Kept s₀ s) : Kept s₀ (debugPath s) := by
  unfold debugPath
  repeat' first
    | with_reducible first
      | assumption | apply setB_kept
    | dsimp only

theorem execResetStretchEnd_answers (s : State) : Answers s (execResetStretchEnd s) := by
  have hK := Kept.refl s
  unfold execResetStretchEnd
  repeat' first
    | with_reducible first
      | assumption | intro _ | apply startTime_kept | apply recharge_kept | apply mapPw_kept | apply askBootCheck_kept | apply debugPath_kept
      | apply kept_ite | apply Answers.next | apply answers_ite
    | dsimp only | split | fail_if_no_progress with_reducible refine kept_mk ?_ rfl ?_ ?_ ?_ rfl | exact Nat.le_refl _ | exact Nat.zero_le _

theorem loadFuse_kept {s₀ s : State} (hK : Kept s₀ s) : Kept s₀ (loadFuse s) := by
  unfold loadFuse
  repeat' first
    | with_reducible first
      | assumption | intro _ | apply setF_kept | apply setFs_kept | apply kept_ite | apply foldl_kept | apply foldl_pair_kept
    | dsimp only | split

theorem loadOption_kept {s₀ s : State} (hK : Kept s₀ s) : Kept s₀ (loadOption s) := by
  unfold loadOption
  repeat' first
    | with_reducible first
      | assumption | intro _ | apply setFs_kept | apply foldl_kept | apply foldl_pair_kept
    | dsimp only | split

theorem loadOver_kept {s₀ s : State} (fuseOk : Bool) (opt trim : Option (Fin 3)) (hK : Kept s₀ s) : Kept s₀ (loadOver s fuseOk opt trim) :=
    by
  unfold loadOver
  repeat' first
    | with_reducible first
      | assumption | intro _ | apply setFs_kept | apply mapPw_kept | apply requestDomain_kept | apply debugPath_kept | apply loadFuse_kept
      | apply loadOption_kept | apply kept_ite
    | dsimp only | split | fail_if_no_progress with_reducible refine kept_mk ?_ rfl ?_ ?_ ?_ rfl | exact Nat.le_refl _ | exact Nat.zero_le _

theorem execFuseLoadDone_answers (s : State) (fuseOk : Bool) (opt : Option (Fin 3)) (trim : Option (Fin 3)) : Answers s (execFuseLoadDone fuseOk opt
    trim s) := by
  have hK := Kept.refl s
  unfold execFuseLoadDone
  repeat' first
    | with_reducible first
      | assumption | intro _ | apply setF_kept | apply startTime_kept | apply mapPw_kept | apply loadOver_kept | apply kept_ite | apply Answers.next
      | apply answers_ite
    | dsimp only | split | fail_if_no_progress with_reducible refine kept_mk ?_ rfl ?_ ?_ ?_ rfl | exact Nat.le_refl _ | exact Nat.zero_le _

theorem execFuseLoadRetry_answers (s : State) : Answers s (execFuseLoadRetry s) := by
  have hK := Kept.refl s
  unfold execFuseLoadRetry
  repeat' first
    | with_reducible first
      | assumption | intro _ | apply mapPw_kept | apply kept_ite | apply Answers.next | apply answers_ite
    | dsimp only | split | fail_if_no_progress with_reducible refine kept_mk ?_ rfl ?_ ?_ ?_ rfl | exact Nat.le_refl _ | exact Nat.zero_le _

theorem bootRun_kept {s₀ s : State} (hK : Kept s₀ s) : Kept s₀ (bootRun s) := by
  unfold bootRun
  repeat' first
    | with_reducible first
      | assumption | intro _ | apply setFs_kept | apply mapPw_kept | apply govRequest_kept | apply restoreLedger_kept | apply setDom_kept
      | apply requestDomain_kept | apply setStarts_kept | apply kept_ite
    | dsimp only | split | fail_if_no_progress with_reducible refine kept_mk ?_ rfl ?_ ?_ ?_ rfl | exact Nat.le_refl _ | exact Nat.zero_le _

theorem execBootCheckDone_answers (s : State) (passed : Bool) : Answers s (execBootCheckDone passed s) := by
  have hK := Kept.refl s
  unfold execBootCheckDone
  repeat' first
    | with_reducible first
      | assumption | intro _ | apply mapPw_kept | apply govRequest_kept | apply pegReturn_kept | apply powerDown_kept | apply bootRun_kept
      | apply kept_ite | apply foldl_kept | apply foldl_pair_kept | apply Answers.next | apply answers_ite
    | dsimp only | split | fail_if_no_progress with_reducible refine kept_mk ?_ rfl ?_ ?_ ?_ rfl | exact Nat.le_refl _ | exact Nat.zero_le _

theorem execBootRecoveryImage_answers (s : State) (ok : Bool) : Answers s (execBootRecoveryImage ok s) := by
  have hK := Kept.refl s
  unfold execBootRecoveryImage
  repeat' first
    | with_reducible first
      | assumption | intro _ | apply incF_kept | apply setF_kept | apply beginReset_kept | apply mapPw_kept | apply setStarts_kept | apply kept_ite
      | apply Answers.next | apply answers_ite
    | dsimp only | split | fail_if_no_progress with_reducible refine kept_mk ?_ rfl ?_ ?_ ?_ rfl | exact Nat.le_refl _ | exact Nat.zero_le _

theorem execDramTrainDone_answers (s : State) : Answers s (execDramTrainDone s) := by
  have hK := Kept.refl s
  unfold execDramTrainDone
  repeat' first
    | with_reducible first
      | assumption | intro _ | apply setFs_kept | apply govRequest_kept | apply pegReturn_kept | apply dramStat_kept | apply nandStat_kept
      | apply refreshEnd_kept | apply setDom_kept | apply requestDomain_kept | apply kept_ite | apply foldl_kept | apply foldl_pair_kept
      | apply Answers.next | apply answers_ite
    | dsimp only | split

theorem execSatStep_answers (s : State) : Answers s (execSatStep s) := by
  have hK := Kept.refl s
  unfold execSatStep
  repeat' first
    | with_reducible first
      | assumption | intro _ | apply logEvent_kept | apply setF_kept | apply setFs_kept | apply raise_kept | apply kept_ite | apply foldl_kept
      | apply foldl_pair_kept | apply Answers.next | apply answers_ite
    | dsimp only | split | fail_if_no_progress with_reducible refine kept_mk ?_ rfl ?_ ?_ ?_ rfl | exact Nat.le_refl _ | exact Nat.zero_le _

theorem execVio33Overload_answers (s : State) (mA : Fin 65536) : Answers s (execVio33Overload mA s) := by
  have hK := Kept.refl s
  unfold execVio33Overload
  repeat' first
    | with_reducible first
      | assumption | intro _ | apply startTime_kept | apply raiseFault_kept | apply mapPw_kept | apply kept_ite | apply Answers.next
      | apply answers_ite
    | dsimp only | split | fail_if_no_progress with_reducible refine kept_mk ?_ rfl ?_ ?_ ?_ rfl | exact Nat.le_refl _ | exact Nat.zero_le _

theorem execVio33Recover_answers (s : State) : Answers s (execVio33Recover s) := by
  have hK := Kept.refl s
  unfold execVio33Recover
  repeat' first
    | with_reducible first
      | assumption | intro _ | apply mapPw_kept | apply kept_ite | apply Answers.next | apply answers_ite
    | dsimp only | split | fail_if_no_progress with_reducible refine kept_mk ?_ rfl ?_ ?_ ?_ rfl | exact Nat.le_refl _ | exact Nat.zero_le _

theorem forceStart_kept {s₀ s : State} (d : Detector) (n : Nat) (hK : Kept s₀ s) : Kept s₀ (forceStart s d n) := by
  unfold forceStart
  repeat' first
    | with_reducible first
      | assumption | intro _ | apply setF_kept | apply setFs_kept | apply startTime_kept | apply raise_kept | apply loseLink_kept
      | apply errorPassive_kept | apply busOff_kept | apply clockLoss_kept | apply kept_ite
    | dsimp only | split

theorem raiseReact_kept {s₀ s : State} (d : Detector) (n : Nat) (hK : Kept s₀ s) : Kept s₀ (raiseReact s d n) := by
  unfold raiseReact
  repeat' first
    | with_reducible first
      | assumption | apply kerf_kept | apply tamperMark_kept | apply kept_ite
    | dsimp only | split

theorem injStart_kept {s₀ s : State} (q : Requester) (hK : Kept s₀ s) : Kept s₀ (injStart s q) := by
  unfold injStart
  repeat' first
    | with_reducible first
      | assumption | intro _ | apply setFs_kept | apply raiseFault_kept | apply forceStart_kept | apply raiseReact_kept | apply kept_ite
    | dsimp only | split | fail_if_no_progress with_reducible refine kept_mk ?_ rfl ?_ ?_ ?_ rfl | exact Nat.le_refl _ | exact Nat.zero_le _

theorem execInjStart_answers (s : State) (q : Requester) (det : Fin 256) (n : Fin 4096) (force : Bool) (durationMs : Fin 256) (arg : Word) (symbols :
    Fin 0x100000) : Answers s (execInjStart q det n force durationMs arg symbols s) := by
  have hK := Kept.refl s
  unfold execInjStart
  repeat' first
    | with_reducible first
      | assumption | apply setFs_kept | apply injStart_kept | apply Answers.next
    | dsimp only

end Sys2Proof.Machine
end

