-- ==== Sys2Proof/Laws/KeptRegRead.lean ====
section
/-! SUPPORT. Laws/KeptRegRead.lean: what the operations of Machine/RegRead.lean keep. -/

namespace Sys2Proof.Machine

set_option linter.unusedTactic false
set_option linter.unreachableTactic false

theorem measured_kept {s₀ s : State} (st lo w : Nat) (hK : Kept s₀ s) : Kept s₀ (measured s st lo w) := by
  unfold measured
  repeat' first
    | with_reducible first
      | assumption | apply freshFree_kept | refine freshFree_eq_kept (by assumption) ?_ | apply setReply_kept
    | dsimp only | split

theorem readPulse_kept {s₀ s : State} (hK : Kept s₀ s) : Kept s₀ (readPulse s) := by
  unfold readPulse
  repeat' first
    | with_reducible first
      | assumption | intro _ | apply freshFree_kept | refine freshFree_eq_kept (by assumption) ?_ | apply setReply_kept | apply foldl_kept
      | apply foldl_pair_kept
    | dsimp only | split

theorem readFound_kept {s₀ s : State} (q : Requester) (r : RegDesc) (ix : List Nat) (a : Nat) (hK : Kept s₀ s) : Kept s₀ (readFound s q r ix
    a) := by
  unfold readFound
  repeat' first
    | with_reducible first
      | assumption | intro _ | apply setReply_kept | apply readAccInt_kept | apply readAccHi_kept | apply readTickLo_kept | apply readTickHi_kept
      | apply readTimeNs_kept | apply readTimeSecHi_kept | apply measured_kept | apply readPulse_kept | apply kept_ite
    | dsimp only | split | fail_if_no_progress with_reducible refine kept_mk ?_ rfl ?_ ?_ ?_ rfl | exact Nat.le_refl _ | exact Nat.zero_le _

theorem readReg_kept {s₀ s : State} (q : Requester) (a : Nat) (hK : Kept s₀ s) : Kept s₀ (readReg s q a) := by
  unfold readReg
  repeat' first
    | with_reducible first
      | assumption | intro _ | apply setReply_kept | apply raise_kept | apply readFound_kept
    | dsimp only | split

end Sys2Proof.Machine
end

