-- ==== Sys2Proof/Laws/KeptRegWrite.lean ====
section
/-! SUPPORT. Laws/KeptRegWrite.lean: what the operations of Machine/RegWrite.lean keep. -/

namespace Sys2Proof.Machine

set_option linter.unusedTactic false
set_option linter.unreachableTactic false

theorem setWord_kept {s₀ s : State} (q : Requester) (r : RegDesc) (ix : List Nat) (a w : Nat) (p : Acc → Bool) (hK : Kept s₀ s) : Kept s₀
    (setWord s q r ix a w p) := by
  unfold setWord
  repeat' first
    | with_reducible first
      | assumption | intro _ | apply setF_kept | apply foldl_kept | apply foldl_pair_kept
    | dsimp only | split

theorem clearWord_kept {s₀ s : State} (q : Requester) (r : RegDesc) (ix : List Nat) (a w : Nat) (hK : Kept s₀ s) : Kept s₀ (clearWord s q r
    ix a w) := by
  unfold clearWord
  repeat' first
    | with_reducible first
      | assumption | intro _ | apply setF_kept | apply foldl_kept | apply foldl_pair_kept
    | dsimp only | split

theorem commitWord_kept {s₀ s : State} (a w : Nat) (hK : Kept s₀ s) : Kept s₀ (commitWord s a w) := by
  unfold commitWord
  repeat' first
    | with_reducible first
      | assumption | intro _ | apply raise_kept | apply setWord_kept | apply kept_ite
    | dsimp only | split

theorem directWord_kept {s₀ s : State} (q : Requester) (r : RegDesc) (ix : List Nat) (a w : Nat) (hK : Kept s₀ s) : Kept s₀ (directWord s q
    r ix a w) := by
  unfold directWord
  repeat' first
    | with_reducible first
      | assumption | apply raise_kept | apply setWord_kept | apply kept_ite
    | dsimp only | split

end Sys2Proof.Machine
end

