-- ==== Sys2Proof/Laws/KeptStage.lean ====
section
/-! SUPPORT. Laws/KeptStage.lean: what the operations of Machine/Stage.lean keep. -/

namespace Sys2Proof.Machine

set_option linter.unusedTactic false
set_option linter.unreachableTactic false

theorem viewWordOf_kept {s₀ s : State} (a w : Nat) (hK : Kept s₀ s) : Kept s₀ (viewWordOf s a w) := by
  unfold viewWordOf
  repeat' first
    | with_reducible first
      | assumption | intro _ | apply setWord_kept | apply kept_ite
    | dsimp only | split

theorem viewOf_kept {s₀ s : State} (g : Staging) (hK : Kept s₀ s) : Kept s₀ (viewOf s g) := by
  unfold viewOf
  repeat' first
    | with_reducible first
      | assumption | intro _ | apply viewWordOf_kept | apply foldl_kept | apply foldl_pair_kept
    | dsimp only | split | fail_if_no_progress with_reducible refine kept_mk ?_ rfl ?_ ?_ ?_ rfl | exact Nat.le_refl _ | exact Nat.zero_le _

end Sys2Proof.Machine
end

