-- ==== Sys2Proof/Laws/KeptJoinery.lean ====
section
/-! SUPPORT. Laws/KeptJoinery.lean: what the operations of Machine/Joinery.lean keep. -/

namespace Sys2Proof.Machine

set_option linter.unusedTactic false
set_option linter.unreachableTactic false

theorem mapScf_kept {s₀ s : State} (f : ScarfState → ScarfState) (h : Kept s₀ s) (hf : (f s.scf).queue.length ≤ s.scf.queue.length) :
    Kept s₀ (mapScf s f) :=
  kept_mk h rfl (Nat.le_refl _) (Nat.le_refl _) hf rfl

theorem joinItem_kept {s₀ s : State} (op h : Nat) (hK : Kept s₀ s) : Kept s₀ (joinItem s op h).1 := by
  unfold joinItem
  repeat' first
    | with_reducible first
      | assumption | intro _ | apply mapScf_kept | apply kept_ite
    | dsimp only | split | fail_if_no_progress with_reducible refine kept_mk ?_ rfl ?_ ?_ ?_ rfl | exact Nat.le_refl _ | exact Nat.zero_le _

theorem joinItem_eq_kept {s₀ s : State} {op h : Nat} {u₁ : State} {out : Option (Nat × Nat)} (he : joinItem s op h = (u₁, out)) (hK : Kept
    s₀ s) : Kept s₀ u₁ := by
  have := joinItem_kept (s₀ := s₀) (hK := hK) (s := s) (op := op) (h := h); rw [he] at this; exact this

theorem joinRow_kept {s₀ s : State} (op h : Nat) (hK : Kept s₀ s) : Kept s₀ (joinRow s op h) := by
  unfold joinRow
  repeat' first
    | with_reducible first
      | assumption | intro _ | apply joinItem_kept | refine joinItem_eq_kept (by assumption) ?_ | apply kept_ite
    | dsimp only | split | fail_if_no_progress with_reducible refine kept_mk ?_ rfl ?_ ?_ ?_ rfl | exact Nat.le_refl _ | exact Nat.zero_le _

theorem execOpDefpt_answers (s : State) (h : Fin 65536) : Answers s (execOpDefpt h s) := by
  have hK := Kept.refl s
  unfold execOpDefpt
  repeat' first
    | with_reducible first
      | assumption | apply joinRow_kept | apply Answers.next
    | dsimp only

theorem execOpDefgr_answers (s : State) (h : Fin 65536) : Answers s (execOpDefgr h s) := by
  have hK := Kept.refl s
  unfold execOpDefgr
  repeat' first
    | with_reducible first
      | assumption | apply joinRow_kept | apply Answers.next
    | dsimp only

theorem execOpDefctx_answers (s : State) (h : Fin 65536) : Answers s (execOpDefctx h s) := by
  have hK := Kept.refl s
  unfold execOpDefctx
  repeat' first
    | with_reducible first
      | assumption | apply joinRow_kept | apply Answers.next
    | dsimp only

theorem execOpDefvid_answers (s : State) (h : Fin 65536) : Answers s (execOpDefvid h s) := by
  have hK := Kept.refl s
  unfold execOpDefvid
  repeat' first
    | with_reducible first
      | assumption | apply joinRow_kept | apply Answers.next
    | dsimp only

theorem execOpDefloop_answers (s : State) (h : Fin 65536) : Answers s (execOpDefloop h s) := by
  have hK := Kept.refl s
  unfold execOpDefloop
  repeat' first
    | with_reducible first
      | assumption | apply joinRow_kept | apply Answers.next
    | dsimp only

theorem execOpDefgrp_answers (s : State) (h : Fin 65536) : Answers s (execOpDefgrp h s) := by
  have hK := Kept.refl s
  unfold execOpDefgrp
  repeat' first
    | with_reducible first
      | assumption | apply joinRow_kept | apply Answers.next
    | dsimp only

theorem execOpDefcirc_answers (s : State) (h : Fin 65536) : Answers s (execOpDefcirc h s) := by
  have hK := Kept.refl s
  unfold execOpDefcirc
  repeat' first
    | with_reducible first
      | assumption | apply joinRow_kept | apply Answers.next
    | dsimp only

theorem execOpDefmap_answers (s : State) (h : Fin 65536) : Answers s (execOpDefmap h s) := by
  have hK := Kept.refl s
  unfold execOpDefmap
  repeat' first
    | with_reducible first
      | assumption | apply joinRow_kept | apply Answers.next
    | dsimp only

theorem execOpDefexp_answers (s : State) (h : Fin 65536) : Answers s (execOpDefexp h s) := by
  have hK := Kept.refl s
  unfold execOpDefexp
  repeat' first
    | with_reducible first
      | assumption | apply joinRow_kept | apply Answers.next
    | dsimp only

theorem execOpAdmit_answers (s : State) (h : Fin 65536) : Answers s (execOpAdmit h s) := by
  have hK := Kept.refl s
  unfold execOpAdmit
  repeat' first
    | with_reducible first
      | assumption | apply joinRow_kept | apply Answers.next
    | dsimp only

theorem execOpDeldef_answers (s : State) (h : Fin 65536) : Answers s (execOpDeldef h s) := by
  have hK := Kept.refl s
  unfold execOpDeldef
  repeat' first
    | with_reducible first
      | assumption | apply joinRow_kept | apply Answers.next
    | dsimp only

theorem joinRead_kept {s₀ s : State} (a addr words : Nat) (qs : List Quality) (hK : Kept s₀ s) : Kept s₀ (joinRead s a addr words qs).1 :=
    by
  unfold joinRead
  repeat' first
    | with_reducible first
      | assumption | apply readReg_kept | apply kept_ite
    | dsimp only | split | fail_if_no_progress with_reducible refine kept_mk ?_ rfl ?_ ?_ ?_ rfl | exact Nat.le_refl _ | exact Nat.zero_le _

theorem joinRead_eq_kept {s₀ s : State} {a addr words : Nat} {qs : List Quality} {u₁ : State} {out : Option (Nat × Nat)} (he : joinRead s a
    addr words qs = (u₁, out)) (hK : Kept s₀ s) : Kept s₀ u₁ := by
  have := joinRead_kept (s₀ := s₀) (hK := hK) (s := s) (a := a) (addr := addr) (words := words) (qs := qs); rw [he] at this; exact this

theorem joinWrite_kept {s₀ s : State} (addr w words : Nat) (hK : Kept s₀ s) : Kept s₀ (joinWrite s addr w words).1 := by
  unfold joinWrite
  repeat' first
    | with_reducible first
      | assumption | intro _ | apply mapScf_kept | apply kept_ite
    | dsimp only | split | fail_if_no_progress with_reducible refine kept_mk ?_ rfl ?_ ?_ ?_ rfl | exact Nat.le_refl _ | exact Nat.zero_le _

theorem joinWrite_eq_kept {s₀ s : State} {addr w words : Nat} {u₁ : State} {out : Option (Nat × Nat)} (he : joinWrite s addr w words = (u₁,
    out)) (hK : Kept s₀ s) : Kept s₀ u₁ := by
  have := joinWrite_kept (s₀ := s₀) (hK := hK) (s := s) (addr := addr) (w := w) (words := words); rw [he] at this; exact this

theorem joinStep_kept {s₀ s : State} (i : Ins) (hK : Kept s₀ s) : Kept s₀ (joinStep s i).1 := by
  unfold joinStep
  repeat' first
    | with_reducible first
      | assumption | intro _ | apply joinItem_kept | refine joinItem_eq_kept (by assumption) ?_ | apply joinRead_kept
      | refine joinRead_eq_kept (by assumption) ?_ | apply joinWrite_kept | refine joinWrite_eq_kept (by assumption) ?_ | apply kept_ite
    | dsimp only | split | fail_if_no_progress with_reducible refine kept_mk ?_ rfl ?_ ?_ ?_ rfl | exact Nat.le_refl _ | exact Nat.zero_le _

theorem joinStep_eq_kept {s₀ s : State} {i : Ins} {u₁ : State} {out : Option (Nat × Nat)} (he : joinStep s i = (u₁, out)) (hK : Kept s₀ s) :
    Kept s₀ u₁ := by
  have := joinStep_kept (s₀ := s₀) (hK := hK) (s := s) (i := i); rw [he] at this; exact this

theorem joinRun_kept {s₀ : State} (n : Nat) {s : State} (hK : Kept s₀ s) : Kept s₀ (joinRun n s).1 := by
  induction n generalizing s with
  | zero => exact hK
  | succ n ih =>
    unfold joinRun
    split
    · exact hK
    · split
      · exact hK
      · split
        · rename_i h; exact ih (joinStep_eq_kept h hK)
        · rename_i h; exact joinStep_eq_kept h hK

theorem joinStart_kept {s₀ s : State} (p : Parsed) (tasks : List TaskDef) (hK : Kept s₀ s) : Kept s₀ (joinStart s p tasks) := by
  unfold joinStart
  repeat' first
    | with_reducible first
      | assumption | intro _ | apply mapScf_kept
    | dsimp only | split | fail_if_no_progress with_reducible refine kept_mk ?_ rfl ?_ ?_ ?_ rfl | exact Nat.le_refl _ | exact Nat.zero_le _

theorem joinImage_kept {s₀ s : State} (p : Parsed) (tasks : List TaskDef) (hK : Kept s₀ s) : Kept s₀ (joinImage s p tasks).1 := by
  have k := joinStart_kept p tasks hK
  unfold joinImage
  dsimp only
  split
  · exact k
  · have k2 := joinRun_kept 16777217 k
    generalize joinRun 16777217 (joinStart s p tasks) = r at k2 ⊢
    exact k2

theorem joinImage_eq_kept {s₀ s : State} {p : Parsed} {tasks : List TaskDef} {t : State} {out : Option Rej}
    (he : joinImage s p tasks = (t, out)) (hK : Kept s₀ s) : Kept s₀ t := by
  have := joinImage_kept p tasks hK; rw [he] at this; exact this

end Sys2Proof.Machine
end

