-- ==== Sys2Proof/Laws/KeptScarf.lean ====
section
/-! SUPPORT. Laws/KeptScarf.lean: what the operations of Machine/Scarf.lean keep. -/

namespace Sys2Proof.Machine

set_option linter.unusedTactic false
set_option linter.unreachableTactic false

theorem updQueue_kept {s₀ s : State} (hK : Kept s₀ s) : Kept s₀ (updQueue s) := by
  unfold updQueue
  repeat' first
    | with_reducible first
      | assumption | apply setF_kept
    | dsimp only | exact List.length_filter_le _ _ | (apply Nat.le_of_eq; simp; done) | (simp; done)
    | (rw [(by assumption : _ = _ :: _)]; exact Nat.le_refl _)

theorem submitChange_kept {s₀ s : State} (c : Change) (hK : Kept s₀ s) : Kept s₀ (submitChange s c).1 := by
  unfold submitChange
  split
  · exact incSatF_kept hK _ _
  · rename_i hn
    simp only [Bool.or_eq_true, decide_eq_true_eq, not_or, Nat.not_le] at hn
    refine updQueue_kept (kept_core hK (fun k => k) (fun k => k) (fun k => ?_) rfl (Nat.le_refl _) (Nat.le_refl _))
    rw [queuesWf_iff] at k ⊢
    refine ⟨k.1, k.2.1, ?_⟩
    show (s.scf.queue ++ [c]).length ≤ 16
    simp only [List.length_append, List.length_cons, List.length_nil]
    omega

theorem submitChange_eq_kept {s₀ s : State} {c : Change} {u₁ : State} {out : Bool} (he : submitChange s c = (u₁, out))
    (hK : Kept s₀ s) : Kept s₀ u₁ := by
  have := submitChange_kept c hK; rw [he] at this; exact this

theorem submitRequest_kept {s₀ s : State} (id tenant : Nat) (images : List Image) (tick : Option Nat) (parts : List (Nat × List Image))
    (policy : Bool) (hK : Kept s₀ s) : Kept s₀ (submitRequest s id tenant images tick parts policy) := by
  unfold submitRequest
  repeat' first
    | with_reducible first
      | assumption | intro _ | apply freshFree_kept | refine freshFree_eq_kept (by assumption) ?_ | apply mgmtReply_kept | apply submitChange_kept
      | refine submitChange_eq_kept (by assumption) ?_ | apply kept_ite
    | dsimp only | split

theorem mgmtUart_kept {s₀ s : State} (id : Nat) (perform : State → Nat → State) (hK : Kept s₀ s) (hKperform : ∀ x0 x1, Kept s₀ x0 → Kept s₀
    (perform x0 x1)) : Kept s₀ (mgmtUart s id perform) := by
  unfold mgmtUart
  repeat' first
    | with_reducible first
      | assumption | intro _ | apply hKperform | apply mapTr_kept | apply mgmtReply_kept | apply kept_ite
    | dsimp only | split | fail_if_no_progress with_reducible refine kept_mk ?_ rfl ?_ ?_ ?_ rfl | exact Nat.le_refl _ | exact Nat.zero_le _

theorem execChangeSubmit_answers (s : State) (q : ChangeAsk) (target : Fin 512) (tenant : Fin 4096) (images : List Image) (tick :
    Option (Fin 281474976710656)) (estate : List (Fin 512 × List Image)) (policy : Bool) : Answers s (execChangeSubmit q target tenant images
    tick estate policy s) := by
  have hK := Kept.refl s
  unfold execChangeSubmit
  repeat' first
    | with_reducible first
      | assumption | intro _ | apply mgmtAt_kept | apply submitRequest_kept | apply mgmtUart_kept | apply Answers.next
    | dsimp only | split

theorem endChange_kept {s₀ s : State} (outcome : Nat) (hK : Kept s₀ s) : Kept s₀ (endChange s outcome) := by
  unfold endChange
  repeat' first
    | with_reducible first
      | assumption | intro _ | apply setFs_kept | apply mapTr_kept | apply mapMem_kept | apply mapScf_kept | apply updQueue_kept
    | dsimp only | split | fail_if_no_progress with_reducible refine kept_mk ?_ rfl ?_ ?_ ?_ rfl | exact Nat.le_refl _ | exact Nat.zero_le _
    | exact List.length_filter_le _ _ | (apply Nat.le_of_eq; simp; done) | (simp; done) | (rw [(by assumption : _ = _ :: _)]; exact Nat.le_refl _)

theorem dropWaiting_kept {s₀ s : State} (change : Nat) (hK : Kept s₀ s) : Kept s₀ (dropWaiting s change) := by
  unfold dropWaiting
  refine updQueue_kept (mapScf_kept _ hK ?_)
  dsimp only
  split
  · exact List.length_filter_le _ _
  · have := List.length_filter_le (fun c : Change => !(c.estate && decide (c.id = change))) (s.scf.queue.drop 1)
    simp only [List.length_append, List.length_take, List.length_drop] at this ⊢
    omega

theorem armFor_kept {s₀ s : State} (t : Nat) (hK : Kept s₀ s) : Kept s₀ (armFor s t) := by
  unfold armFor
  repeat' first
    | with_reducible first
      | assumption | intro _ | apply setFs_kept | apply mapScf_kept
    | dsimp only | split | fail_if_no_progress with_reducible refine kept_mk ?_ rfl ?_ ?_ ?_ rfl | exact Nat.le_refl _ | exact Nat.zero_le _

theorem scfFields_kept {s₀ s : State} (op result : Nat) (hK : Kept s₀ s) : Kept s₀ (scfFields s op result) := by
  unfold scfFields
  repeat' first
    | with_reducible first
      | assumption | apply setFs_kept
    | dsimp only

theorem scfCmd_kept {s₀ s : State} (op : Nat) (hK : Kept s₀ s) : Kept s₀ (scfCmd s op) := by
  unfold scfCmd
  repeat' first
    | with_reducible first
      | assumption | intro _ | apply setFs_kept | apply endChange_kept | apply armFor_kept | apply scfFields_kept | apply kept_ite
    | dsimp only | split

theorem execScfAbort_answers (s : State) : Answers s (execScfAbort s) := by
  have hK := Kept.refl s
  unfold execScfAbort
  repeat' first
    | with_reducible first
      | assumption | apply scfCmd_kept | apply Answers.next
    | dsimp only

theorem execArmAt_answers (s : State) : Answers s (execArmAt s) := by
  have hK := Kept.refl s
  unfold execArmAt
  repeat' first
    | with_reducible first
      | assumption | apply scfCmd_kept | apply Answers.next
    | dsimp only

theorem execScfClearStat_answers (s : State) : Answers s (execScfClearStat s) := by
  have hK := Kept.refl s
  unfold execScfClearStat
  repeat' first
    | with_reducible first
      | assumption | apply scfCmd_kept | apply Answers.next
    | dsimp only

theorem armPart_kept {s₀ s : State} (change t : Nat) (hK : Kept s₀ s) : Kept s₀ (armPart s change t).1 := by
  unfold armPart
  repeat' first
    | with_reducible first
      | assumption | intro _ | apply armFor_kept | apply kept_ite
    | dsimp only | split

theorem armPart_eq_kept {s₀ s : State} {change t : Nat} {u₁ : State} {out : Bool} (he : armPart s change t = (u₁, out)) (hK : Kept s₀ s) :
    Kept s₀ u₁ := by
  have := armPart_kept (s₀ := s₀) (hK := hK) (s := s) (change := change) (t := t); rw [he] at this; exact this

theorem goPart_kept {s₀ s : State} (change : Nat) (hK : Kept s₀ s) : Kept s₀ (goPart s change) := by
  unfold goPart
  repeat' first
    | with_reducible first
      | assumption | intro _ | apply setF_kept | apply kept_ite
    | dsimp only | split

theorem cancelPart_kept {s₀ s : State} (change outcome : Nat) (hK : Kept s₀ s) : Kept s₀ (cancelPart s change outcome) := by
  unfold cancelPart
  repeat' first
    | with_reducible first
      | assumption | intro _ | apply endChange_kept | apply dropWaiting_kept | apply kept_ite
    | dsimp only | split

theorem decisionHeard_kept {s₀ s : State} (f : State → State) (hK : Kept s₀ s) (hKf : ∀ x, Kept s₀ x → Kept s₀ (f x)) : Kept s₀
    (decisionHeard s f) := by
  unfold decisionHeard
  repeat' first
    | with_reducible first
      | assumption | intro _ | apply hKf | apply useForce_kept | apply kept_ite
    | dsimp only | split

theorem sendReady_kept {s₀ s : State} (manager change code : Nat) (hK : Kept s₀ s) : Kept s₀ (sendReady s manager change code) := by
  unfold sendReady
  repeat' first
    | with_reducible first
      | assumption | apply trSend_kept
    | dsimp only

theorem queueLate_kept {s₀ s : State} (change t : Nat) (images : List Image) (manager : Nat) (hK : Kept s₀ s) : Kept s₀ (queueLate s change
    t images manager) := by
  unfold queueLate
  repeat' first
    | with_reducible first
      | assumption | intro _ | apply mapScf_kept | apply submitChange_kept | refine submitChange_eq_kept (by assumption) ?_ | apply kept_ite
    | dsimp only | split | fail_if_no_progress with_reducible refine kept_mk ?_ rfl ?_ ?_ ?_ rfl | exact Nat.le_refl _ | exact Nat.zero_le _
    | exact List.length_filter_le _ _ | (apply Nat.le_of_eq; simp; done) | (simp; done) | (rw [(by assumption : _ = _ :: _)]; exact Nat.le_refl _)

theorem outcomePart_kept {s₀ s : State} (change : Nat) (go : Bool) (t : Nat) (images : List Image) (manager : Nat) (hK : Kept s₀ s) :
    Kept s₀ (outcomePart s change go t images manager) := by
  have k : Kept s₀ (mapScf s (fun f => { f with queue := match f.queue with
      | c :: r => { c with images := if images.isEmpty then c.images else images, late := some t, manager := manager } :: r
      | [] => [] })) := by
    refine mapScf_kept _ hK ?_
    dsimp only
    split
    · rename_i h; rw [h]; exact Nat.le_refl _
    · exact Nat.zero_le _
  have out : Kept s₀ (if !go then dropWaiting s change else if s.scf.applied.contains change then sendReady s manager change 0
      else queueLate s change t images manager) :=
    kept_ite (dropWaiting_kept _ hK) (kept_ite (sendReady_kept _ _ _ hK) (queueLate_kept _ _ _ _ hK))
  unfold outcomePart
  split
  · refine kept_ite out (kept_ite (endChange_kept _ hK) (kept_ite (sendReady_kept _ _ _ hK) ?_))
    exact kept_ite (mapMem_kept _ k) (kept_ite (sendReady_kept _ _ _ (setF_kept (armFor_kept _ k) _ _)) k)
  · exact out

theorem mapCoord_kept {s₀ s : State} (f : Coord → Coord) (hK : Kept s₀ s) : Kept s₀ (mapCoord s f) := by
  unfold mapCoord
  repeat' first
    | with_reducible first
      | assumption | intro _ | apply mapScf_kept
    | dsimp only | split | fail_if_no_progress with_reducible refine kept_mk ?_ rfl ?_ ?_ ?_ rfl | exact Nat.le_refl _ | exact Nat.zero_le _

theorem endCoord_kept {s₀ s : State} (hK : Kept s₀ s) : Kept s₀ (endCoord s) := by
  unfold endCoord
  repeat' first
    | with_reducible first
      | assumption | intro _ | apply setFs_kept | apply mapScf_kept | apply dropWaiting_kept
    | dsimp only | split | fail_if_no_progress with_reducible refine kept_mk ?_ rfl ?_ ?_ ?_ rfl | exact Nat.le_refl _ | exact Nat.zero_le _

theorem awaitAll_kept {s₀ s : State} (c : Coord) (go late : Bool) (hK : Kept s₀ s) : Kept s₀ (awaitAll s c go late) := by
  unfold awaitAll
  repeat' first
    | with_reducible first
      | assumption | intro _ | apply mapScf_kept | apply kept_ite
    | dsimp only | split | fail_if_no_progress with_reducible refine kept_mk ?_ rfl ?_ ?_ ?_ rfl | exact Nat.le_refl _ | exact Nat.zero_le _

theorem answerRequest_kept {s₀ s : State} (go : Bool) (hK : Kept s₀ s) : Kept s₀ (answerRequest s go) := by
  unfold answerRequest
  repeat' first
    | with_reducible first
      | assumption | intro _ | apply mgmtReply_kept | apply mapCoord_kept | apply kept_ite
    | dsimp only | split | fail_if_no_progress with_reducible refine kept_mk ?_ rfl ?_ ?_ ?_ rfl | exact Nat.le_refl _ | exact Nat.zero_le _

theorem sendDecision_kept {s₀ s : State} (hK : Kept s₀ s) : Kept s₀ (sendDecision s) := by
  unfold sendDecision
  repeat' first
    | with_reducible first
      | assumption | intro _ | apply setF_kept | apply trSend_kept | apply goPart_kept | apply cancelPart_kept | apply outcomePart_kept
      | apply mapCoord_kept | apply awaitAll_kept | apply kept_ite | apply foldl_kept | apply foldl_pair_kept
    | dsimp only | split | fail_if_no_progress with_reducible refine kept_mk ?_ rfl ?_ ?_ ?_ rfl | exact Nat.le_refl _ | exact Nat.zero_le _

theorem takeDecision_kept {s₀ s : State} (go : Bool) (outcome : Nat) (hK : Kept s₀ s) : Kept s₀ (takeDecision s go outcome) := by
  unfold takeDecision
  repeat' first
    | with_reducible first
      | assumption | intro _ | apply syncOut_kept | apply mapCoord_kept | apply answerRequest_kept | apply sendDecision_kept | apply kept_ite
    | dsimp only | split | fail_if_no_progress with_reducible refine kept_mk ?_ rfl ?_ ?_ ?_ rfl | exact Nat.le_refl _ | exact Nat.zero_le _

theorem cancelEstate_kept {s₀ s : State} (outcome : Nat) (hK : Kept s₀ s) : Kept s₀ (cancelEstate s outcome) := by
  unfold cancelEstate
  repeat' first
    | with_reducible first
      | assumption | apply takeDecision_kept
    | dsimp only

theorem ackEffect_kept {s₀ s : State} (m change : Nat) (hK : Kept s₀ s) : Kept s₀ (ackEffect s m change) := by
  unfold ackEffect
  repeat' first
    | with_reducible first
      | assumption | intro _ | apply setF_kept | apply mapCoord_kept | apply kept_ite
    | dsimp only | split | fail_if_no_progress with_reducible refine kept_mk ?_ rfl ?_ ?_ ?_ rfl | exact Nat.le_refl _ | exact Nat.zero_le _

theorem nameTick_kept {s₀ s : State} (hK : Kept s₀ s) : Kept s₀ (nameTick s).2 := by
  unfold nameTick
  repeat' first
    | with_reducible first
      | assumption | apply freshFree_kept | refine freshFree_eq_kept (by assumption) ?_
    | dsimp only | split

theorem nameTick_eq_kept {s₀ s : State} {u₁ : State} {out : Nat} (he : nameTick s = (out, u₁)) (hK : Kept s₀ s) : Kept s₀ u₁ := by
  have := nameTick_kept (s₀ := s₀) (hK := hK) (s := s); rw [he] at this; exact this

theorem sendArm_kept {s₀ s : State} (hK : Kept s₀ s) : Kept s₀ (sendArm s) := by
  unfold sendArm
  repeat' first
    | with_reducible first
      | assumption | intro _ | apply trSend_kept | apply armPart_kept | refine armPart_eq_kept (by assumption) ?_ | apply mapCoord_kept
      | apply answerRequest_kept | apply ackEffect_kept | apply nameTick_kept | refine nameTick_eq_kept (by assumption) ?_ | apply kept_ite
      | apply foldl_kept | apply foldl_pair_kept
    | dsimp only | split | fail_if_no_progress with_reducible refine kept_mk ?_ rfl ?_ ?_ ?_ rfl | exact Nat.le_refl _ | exact Nat.zero_le _

theorem armIfReady_kept {s₀ s : State} (hK : Kept s₀ s) : Kept s₀ (armIfReady s) := by
  unfold armIfReady
  repeat' first
    | with_reducible first
      | assumption | intro _ | apply sendArm_kept | apply kept_ite
    | dsimp only | split

theorem readyEffect_kept {s₀ s : State} (m change code : Nat) (hK : Kept s₀ s) : Kept s₀ (readyEffect s m change code) := by
  unfold readyEffect
  repeat' first
    | with_reducible first
      | assumption | intro _ | apply mapScf_kept | apply mapCoord_kept | apply cancelEstate_kept | apply armIfReady_kept | apply kept_ite
    | dsimp only | split | fail_if_no_progress with_reducible refine kept_mk ?_ rfl ?_ ?_ ?_ rfl | exact Nat.le_refl _ | exact Nat.zero_le _

theorem tellReady_kept {s₀ s : State} (c : Change) (code : Nat) (hK : Kept s₀ s) : Kept s₀ (tellReady s c code) := by
  unfold tellReady
  repeat' first
    | with_reducible first
      | assumption | apply trSend_kept | apply readyEffect_kept | apply kept_ite
    | dsimp only | split

theorem startEstate_kept {s₀ s : State} (c : Change) (hK : Kept s₀ s) : Kept s₀ (startEstate s c) := by
  unfold startEstate
  repeat' first
    | with_reducible first
      | assumption | intro _ | apply setFs_kept | apply trSend_kept | apply syncOut_kept | apply mapScf_kept | apply kept_ite | apply foldl_kept
      | apply foldl_pair_kept
    | dsimp only | split | fail_if_no_progress with_reducible refine kept_mk ?_ rfl ?_ ?_ ?_ rfl | exact Nat.le_refl _ | exact Nat.zero_le _

theorem decideEstate_kept {s₀ s : State} (hK : Kept s₀ s) : Kept s₀ (decideEstate s) := by
  unfold decideEstate
  repeat' first
    | with_reducible first
      | assumption | intro _ | apply mapCoord_kept | apply takeDecision_kept | apply cancelEstate_kept | apply kept_ite
    | dsimp only | split | fail_if_no_progress with_reducible refine kept_mk ?_ rfl ?_ ?_ ?_ rfl | exact Nat.le_refl _ | exact Nat.zero_le _

theorem missReady_kept {s₀ s : State} (gone : Option Nat) (hK : Kept s₀ s) : Kept s₀ (missReady s gone) := by
  unfold missReady
  repeat' first
    | with_reducible first
      | assumption | intro _ | apply mapCoord_kept | apply cancelEstate_kept | apply armIfReady_kept | apply kept_ite
    | dsimp only | split | fail_if_no_progress with_reducible refine kept_mk ?_ rfl ?_ ?_ ?_ rfl | exact Nat.le_refl _ | exact Nat.zero_le _

theorem partAway_kept {s₀ s : State} (n : Nat) (hK : Kept s₀ s) : Kept s₀ (partAway s n) := by
  unfold partAway
  repeat' first
    | with_reducible first
      | assumption | intro _ | apply mapScf_kept | apply kept_ite
    | dsimp only | split | fail_if_no_progress with_reducible refine kept_mk ?_ rfl ?_ ?_ ?_ rfl | exact Nat.le_refl _ | exact Nat.zero_le _

theorem estateGone_kept {s₀ s : State} (n : Nat) (hK : Kept s₀ s) : Kept s₀ (estateGone s n) := by
  unfold estateGone
  repeat' first
    | with_reducible first
      | assumption | apply missReady_kept | apply partAway_kept
    | dsimp only

theorem sendOutcome_kept {s₀ s : State} (u : Unresolved) (hK : Kept s₀ s) : Kept s₀ (sendOutcome s u) := by
  unfold sendOutcome
  repeat' first
    | with_reducible first
      | assumption | apply trSend_kept | apply nameTick_kept | refine nameTick_eq_kept (by assumption) ?_ | apply kept_ite
    | dsimp only | split

theorem resolveAt_kept {s₀ s : State} (n : Nat) (steered : Bool) (scf : Nat) (hK : Kept s₀ s) : Kept s₀ (resolveAt s n steered scf) := by
  unfold resolveAt
  repeat' first
    | with_reducible first
      | assumption | intro _ | apply mapScf_kept | apply sendOutcome_kept | apply kept_ite | apply foldl_kept | apply foldl_pair_kept
    | dsimp only | split | fail_if_no_progress with_reducible refine kept_mk ?_ rfl ?_ ?_ ?_ rfl | exact Nat.le_refl _ | exact Nat.zero_le _

theorem resolveSelf_kept {s₀ s : State} (hK : Kept s₀ s) : Kept s₀ (resolveSelf s) := by
  unfold resolveSelf
  repeat' first
    | with_reducible first
      | assumption | intro _ | apply mapScf_kept | apply outcomePart_kept | apply nameTick_kept | refine nameTick_eq_kept (by assumption) ?_
      | apply kept_ite | apply foldl_kept | apply foldl_pair_kept
    | dsimp only | split | fail_if_no_progress with_reducible refine kept_mk ?_ rfl ?_ ?_ ?_ rfl | exact Nat.le_refl _ | exact Nat.zero_le _

theorem sendDecisions_kept {s₀ s : State} (hK : Kept s₀ s) : Kept s₀ (sendDecisions s) := by
  unfold sendDecisions
  repeat' first
    | with_reducible first
      | assumption | intro _ | apply trSend_kept | apply mapScf_kept | apply outcomePart_kept | apply sendOutcome_kept | apply kept_ite
      | apply foldl_kept | apply foldl_pair_kept
    | dsimp only | split | fail_if_no_progress with_reducible refine kept_mk ?_ rfl ?_ ?_ ?_ rfl | exact Nat.le_refl _ | exact Nat.zero_le _

theorem coordTick_kept {s₀ s : State} (hK : Kept s₀ s) : Kept s₀ (coordTick s) := by
  unfold coordTick
  repeat' first
    | with_reducible first
      | assumption | intro _ | apply endCoord_kept | apply sendDecision_kept | apply resolveSelf_kept | apply kept_ite
    | dsimp only | split

theorem stageImage_kept {s₀ s : State} (estate : Bool) (img : Image) (hK : Kept s₀ s) : Kept s₀ (stageImage s estate img).1 := by
  unfold stageImage
  repeat' first
    | with_reducible first
      | assumption | intro _ | apply joinImage_kept | refine joinImage_eq_kept (by assumption) ?_ | apply kept_ite
    | dsimp only | split

theorem stageImage_eq_kept {s₀ s : State} {estate : Bool} {img : Image} {u₁ : State} {out : List SubEntry × Option Rej} (he : stageImage s
    estate img = (u₁, out)) (hK : Kept s₀ s) : Kept s₀ u₁ := by
  have := stageImage_kept (s₀ := s₀) (hK := hK) (s := s) (estate := estate) (img := img); rw [he] at this; exact this

theorem stageImages_kept {s₀ : State} (estate : Bool) (is : List Image) (k : Nat) (gs : List Staging) (recs : List Nat) {s : State}
    (hK : Kept s₀ s) : Kept s₀ (stageImages estate is k gs recs s).1 := by
  induction is generalizing k gs recs s with
  | nil => exact hK
  | cons img t ih =>
    unfold stageImages
    split
    · exact hK
    · rename_i h; exact stageImage_eq_kept h hK
    · rename_i h; exact ih _ _ _ (stageImage_eq_kept h hK)

theorem stageAll_kept {s₀ s : State} (c : Change) (hK : Kept s₀ s) : Kept s₀ (stageAll s c).1 := by
  have k := stageImages_kept c.estate c.images 0 [] [] (mapScf_kept (fun f => { f with staging := {} }) (setF_kept hK Fld.SCF_STATE_STATE 1) (Nat.le_refl _))
  unfold stageAll
  generalize stageImages c.estate c.images 0 [] [] _ = r at k ⊢
  obtain ⟨q, gs, recs, e⟩ := r
  dsimp only at k ⊢
  split
  · split <;> exact k
  · exact k

theorem stageAll_eq_kept {s₀ s : State} {c : Change} {t : State} {out : List Nat × StageEnd}
    (he : stageAll s c = (t, out)) (hK : Kept s₀ s) : Kept s₀ t := by
  have := stageAll_kept c hK; rw [he] at this; exact this

theorem acceptImage_kept {s₀ s : State} (img : Image) (hK : Kept s₀ s) : Kept s₀ (acceptImage s img) := by
  unfold acceptImage
  repeat' first
    | with_reducible first
      | assumption | intro _ | apply mapScf_kept | apply foldl_kept | apply foldl_pair_kept
    | dsimp only | split | fail_if_no_progress with_reducible refine kept_mk ?_ rfl ?_ ?_ ?_ rfl | exact Nat.le_refl _ | exact Nat.zero_le _

theorem keepRecs_kept {s₀ s : State} (c : Change) (recs : List Nat) (hK : Kept s₀ s) : Kept s₀ (keepRecs s c recs) := by
  unfold keepRecs
  repeat' first
    | with_reducible first
      | assumption | intro _ | apply mapCoord_kept | apply kept_ite
    | dsimp only | split | fail_if_no_progress with_reducible refine kept_mk ?_ rfl ?_ ?_ ?_ rfl | exact Nat.le_refl _ | exact Nat.zero_le _

theorem refuseChange_kept {s₀ s : State} (c : Change) (first : Bool) (source code detail : Nat) (recs : List Nat) (hK : Kept s₀ s) : Kept s₀
    (refuseChange s c first source code detail recs) := by
  unfold refuseChange
  repeat' first
    | with_reducible first
      | assumption | intro _ | apply setFs_kept | apply raise_kept | apply mgmtReply_kept | apply endChange_kept | apply tellReady_kept
      | apply keepRecs_kept | apply kept_ite
    | dsimp only | split

theorem passChange_kept {s₀ s : State} (c : Change) (recs : List Nat) (hK : Kept s₀ s) : Kept s₀ (passChange s c recs) := by
  unfold passChange
  repeat' first
    | with_reducible first
      | assumption | intro _ | apply setF_kept | apply setFs_kept | apply mgmtReply_kept | apply viewOf_kept | apply mapScf_kept | apply armFor_kept
      | apply tellReady_kept | apply acceptImage_kept | apply keepRecs_kept | apply kept_ite | apply foldl_kept | apply foldl_pair_kept
    | dsimp only | split | fail_if_no_progress with_reducible refine kept_mk ?_ rfl ?_ ?_ ?_ rfl | exact Nat.le_refl _ | exact Nat.zero_le _

theorem beginStage_kept {s₀ s : State} (c : Change) (hK : Kept s₀ s) : Kept s₀ (beginStage s c) := by
  unfold beginStage
  repeat' first
    | with_reducible first
      | assumption | apply setFs_kept
    | dsimp only

theorem stageInHand_kept {s₀ s : State} (c : Change) (first : Bool) (hK : Kept s₀ s) : Kept s₀ (stageInHand s c first) := by
  unfold stageInHand
  repeat' first
    | with_reducible first
      | assumption | intro _ | apply setF_kept | apply withGrant_kept | apply askImport_kept | apply mapMem_kept | apply tellReady_kept
      | apply stageAll_kept | refine stageAll_eq_kept (by assumption) ?_ | apply refuseChange_kept | apply passChange_kept | apply kept_ite
      | apply foldl_kept | apply foldl_pair_kept
    | dsimp only | split | fail_if_no_progress with_reducible refine kept_mk ?_ rfl ?_ ?_ ?_ rfl | exact Nat.le_refl _ | exact Nat.zero_le _

theorem takeHead_kept {s₀ s : State} (c : Change) (hK : Kept s₀ s) : Kept s₀ (takeHead s c) := by
  unfold takeHead
  repeat' first
    | with_reducible first
      | assumption | intro _ | apply startEstate_kept | apply beginStage_kept | apply stageInHand_kept | apply kept_ite
    | dsimp only | split

theorem scarfStage_kept {s₀ s : State} (hK : Kept s₀ s) : Kept s₀ (scarfStage s) := by
  unfold scarfStage
  repeat' first
    | with_reducible first
      | assumption | intro _ | apply stageInHand_kept | apply takeHead_kept | apply kept_ite
    | dsimp only | split | exact List.length_filter_le _ _ | (apply Nat.le_of_eq; simp; done) | (simp; done)
    | (rw [(by assumption : _ = _ :: _)]; exact Nat.le_refl _)

theorem execScarfStage_answers (s : State) : Answers s (execScarfStage s) := by
  have hK := Kept.refl s
  unfold execScarfStage
  repeat' first
    | with_reducible first
      | assumption | apply scarfStage_kept | apply Answers.next
    | dsimp only

theorem execConfigNandWrite_answers (s : State) (ok : Bool) : Answers s (execConfigNandWrite ok s) := by
  have hK := Kept.refl s
  unfold execConfigNandWrite
  repeat' first
    | with_reducible first
      | assumption | intro _ | apply withGrant_kept | apply mapScf_kept | apply kept_ite | apply Answers.next | apply answers_ite
    | dsimp only | split | fail_if_no_progress with_reducible refine kept_mk ?_ rfl ?_ ?_ ?_ rfl | exact Nat.le_refl _ | exact Nat.zero_le _

theorem execEstateOffer_answers (s : State) (h : TrussHdr) (change : Word) (policy : Bool) (images : List Image) : Answers s (execEstateOffer h change
    policy images s) := by
  have hK := Kept.refl s
  unfold execEstateOffer
  repeat' first
    | with_reducible first
      | assumption | intro _ | apply onTruss_kept | apply submitChange_kept | refine submitChange_eq_kept (by assumption) ?_ | apply kept_ite
      | apply Answers.next | apply answers_ite
    | dsimp only | split

theorem execEstateReady_answers (s : State) (h : TrussHdr) (change : Word) (code : Fin 256) : Answers s (execEstateReady h change code s) := by
  have hK := Kept.refl s
  unfold execEstateReady
  repeat' first
    | with_reducible first
      | assumption | intro _ | apply onTruss_kept | apply readyEffect_kept | apply Answers.next
    | dsimp only | split

theorem execEstateArm_answers (s : State) (h : TrussHdr) (change : Word) (tick : Fin 281474976710656) : Answers s (execEstateArm h change tick s) :=
    by
  have hK := Kept.refl s
  unfold execEstateArm
  repeat' first
    | with_reducible first
      | assumption | intro _ | apply trSend_kept | apply onTruss_kept | apply armPart_kept | refine armPart_eq_kept (by assumption) ?_
      | apply kept_ite | apply Answers.next | apply answers_ite
    | dsimp only | split

theorem execEstateAck_answers (s : State) (h : TrussHdr) (change : Word) : Answers s (execEstateAck h change s) := by
  have hK := Kept.refl s
  unfold execEstateAck
  repeat' first
    | with_reducible first
      | assumption | intro _ | apply onTruss_kept | apply ackEffect_kept | apply Answers.next
    | dsimp only | split

theorem execEstateDecision_answers (s : State) : Answers s (execEstateDecision s) := by
  have hK := Kept.refl s
  unfold execEstateDecision
  repeat' first
    | with_reducible first
      | assumption | apply decideEstate_kept | apply Answers.next
    | dsimp only

theorem execEstateGo_answers (s : State) (h : TrussHdr) (change : Word) : Answers s (execEstateGo h change s) := by
  have hK := Kept.refl s
  unfold execEstateGo
  repeat' first
    | with_reducible first
      | assumption | intro _ | apply onTruss_kept | apply goPart_kept | apply decisionHeard_kept | apply Answers.next
    | dsimp only | split

theorem execEstateCancel_answers (s : State) (h : TrussHdr) (change : Word) : Answers s (execEstateCancel h change s) := by
  have hK := Kept.refl s
  unfold execEstateCancel
  repeat' first
    | with_reducible first
      | assumption | intro _ | apply onTruss_kept | apply cancelPart_kept | apply decisionHeard_kept | apply Answers.next
    | dsimp only | split

theorem execEstateOutcome_answers (s : State) (h : TrussHdr) (change : Word) (go : Bool) (tick : Fin 281474976710656) (images : List Image) : Answers
    s (execEstateOutcome h change go tick images s) := by
  have hK := Kept.refl s
  unfold execEstateOutcome
  repeat' first
    | with_reducible first
      | assumption | intro _ | apply onTruss_kept | apply outcomePart_kept | apply Answers.next
    | dsimp only | split

theorem execEstateReadyTimeout_answers (s : State) : Answers s (execEstateReadyTimeout s) := by
  have hK := Kept.refl s
  unfold execEstateReadyTimeout
  repeat' first
    | with_reducible first
      | assumption | intro _ | apply missReady_kept | apply kept_ite | apply Answers.next | apply answers_ite
    | dsimp only | split

theorem execEstateArmTimeout_answers (s : State) : Answers s (execEstateArmTimeout s) := by
  have hK := Kept.refl s
  unfold execEstateArmTimeout
  repeat' first
    | with_reducible first
      | assumption | intro _ | apply endChange_kept | apply kept_ite | apply Answers.next | apply answers_ite
    | dsimp only | split

theorem execHello_answers (s : State) (h : TrussHdr) (b : HelloBody) (role : Fin 4) : Answers s (execHello h b role s) := by
  have hK := Kept.refl s
  unfold execHello
  repeat' first
    | with_reducible first
      | assumption | intro _ | apply onTruss_kept | apply helloEffect_kept | apply partAway_kept | apply kept_ite | apply Answers.next
      | apply answers_ite
    | dsimp only | split

theorem execHeartbeat_answers (s : State) (h : TrussHdr) (mode : Fin 8) (severity : Fin 4) (steered : Bool) (scf : Fin 8) (demandControl : Bool)
    (demandManagement : Bool) : Answers s (execHeartbeat h mode severity steered scf demandControl demandManagement s) := by
  have hK := Kept.refl s
  unfold execHeartbeat
  repeat' first
    | with_reducible first
      | assumption | intro _ | apply onTruss_kept | apply heartbeatEffect_kept | apply resolveAt_kept | apply kept_ite | apply Answers.next
      | apply answers_ite
    | dsimp only | split

theorem execDepart_answers (s : State) (h : TrussHdr) (module_ : Fin 512) (cause : Fin 3) : Answers s (execDepart h module_ cause s) := by
  have hK := Kept.refl s
  unfold execDepart
  repeat' first
    | with_reducible first
      | assumption | intro _ | apply onTruss_kept | apply departEffect_kept | apply estateGone_kept | apply kept_ite | apply Answers.next
      | apply answers_ite
    | dsimp only | split

theorem execDepartTimeout_answers (s : State) (n : Fin 512) : Answers s (execDepartTimeout n s) := by
  have hK := Kept.refl s
  unfold execDepartTimeout
  repeat' first
    | with_reducible first
      | assumption | apply declareGone_kept | apply estateGone_kept | apply kept_ite | apply Answers.next | apply answers_ite
    | dsimp only | split

theorem execSync_answers (s : State) (h : TrussHdr) (b : SyncBody) : Answers s (execSync h b s) := by
  have hK := Kept.refl s
  unfold execSync
  repeat' first
    | with_reducible first
      | assumption | intro _ | apply onTruss_kept | apply syncEffect_kept | apply Answers.next
    | dsimp only | split

theorem execSyncAck_answers (s : State) (h : TrussHdr) (seq : Nat) : Answers s (execSyncAck h seq s) := by
  have hK := Kept.refl s
  unfold execSyncAck
  repeat' first
    | with_reducible first
      | assumption | intro _ | apply onTruss_kept | apply syncAckEffect_kept | apply sendDecision_kept | apply Answers.next
    | dsimp only | split

theorem execStandbyTakeover_answers (s : State) (handover : Bool) : Answers s (execStandbyTakeover handover s) := by
  have hK := Kept.refl s
  unfold execStandbyTakeover
  repeat' first
    | with_reducible first
      | assumption | apply takeoverEffect_kept | apply Answers.next
    | dsimp only

end Sys2Proof.Machine
end

