-- ==== Sys2Proof/Laws/KeptModes.lean ====
section
/-! SUPPORT. Laws/KeptModes.lean: what the operations of Machine/Modes.lean keep. -/

namespace Sys2Proof.Machine

set_option linter.unusedTactic false
set_option linter.unreachableTactic false

theorem putMode_kept {s₀ s : State} (m : Nat) (hK : Kept s₀ s) : Kept s₀ (putMode s m) := by
  unfold putMode
  repeat' first
    | with_reducible first
      | assumption | apply incF_kept | apply setF_kept
    | dsimp only

theorem enterMode_kept {s₀ s : State} (m : Nat) (hK : Kept s₀ s) : Kept s₀ (enterMode s m) := by
  unfold enterMode
  repeat' first
    | with_reducible first
      | assumption | intro _ | apply setF_kept | apply injEnd_kept | apply tasksEnterSafe_kept | apply tasksEnterHold_kept | apply tasksLeaveHold_kept
      | apply tasksEnterRun_kept | apply loopsMode_kept | apply netEnterSafe_kept | apply putMode_kept | apply kept_ite
    | dsimp only | split

theorem modeTick_kept {s₀ s : State} (hK : Kept s₀ s) : Kept s₀ (modeTick s) := by
  unfold modeTick
  repeat' first
    | with_reducible first
      | assumption | intro _ | apply mapPw_kept | apply enterMode_kept | apply kept_ite
    | dsimp only | split | fail_if_no_progress with_reducible refine kept_mk ?_ rfl ?_ ?_ ?_ rfl | exact Nat.le_refl _ | exact Nat.zero_le _

theorem emptyQueue_kept {s₀ s : State} (hK : Kept s₀ s) : Kept s₀ (emptyQueue s) := by
  unfold emptyQueue
  repeat' first
    | with_reducible first
      | assumption | intro _ | apply incSatF_kept | apply mgmtReply_kept | apply mapScf_kept | apply updQueue_kept | apply foldl_kept
      | apply foldl_pair_kept
    | dsimp only | split | fail_if_no_progress with_reducible refine kept_mk ?_ rfl ?_ ?_ ?_ rfl | exact Nat.le_refl _ | exact Nat.zero_le _
    | exact List.length_filter_le _ _ | (apply Nat.le_of_eq; simp; done) | (simp; done) | (rw [(by assumption : _ = _ :: _)]; exact Nat.le_refl _)

theorem armMacs_kept {s₀ s : State} (armed up : List Nat) (hK : Kept s₀ s) : Kept s₀ (armMacs s armed up) := by
  unfold armMacs
  repeat' first
    | with_reducible first
      | assumption | intro _ | apply setF_kept | apply setFs_kept | apply kept_ite | apply foldl_kept | apply foldl_pair_kept
    | dsimp only | split

theorem dropTasks_kept {s₀ s : State} (h : Kept s₀ s) : Kept s₀ (dropTasks s) :=
  recomputeAll_kept (kept_core h (fun w => filter_sorted w _) (fun w => w) (fun w => w) rfl (Nat.le_refl _) (Nat.le_refl _))

theorem finishDoze_kept {s₀ s : State} (hK : Kept s₀ s) : Kept s₀ (finishDoze s) := by
  unfold finishDoze
  repeat' first
    | with_reducible first
      | assumption | intro _ | apply mapPw_kept | apply powerDown_kept | apply armMacs_kept | apply dropTasks_kept | apply kept_ite | apply foldl_kept
      | apply foldl_pair_kept
    | dsimp only | split | fail_if_no_progress with_reducible refine kept_mk ?_ rfl ?_ ?_ ?_ rfl | exact Nat.le_refl _ | exact Nat.zero_le _

theorem enterDoze_kept {s₀ s : State} (hK : Kept s₀ s) : Kept s₀ (enterDoze s) := by
  unfold enterDoze
  repeat' first
    | with_reducible first
      | assumption | apply setF_kept | apply sillCkpt_kept | apply askCkpt_kept | apply sendLeave_kept | apply putMode_kept | apply emptyQueue_kept
      | apply finishDoze_kept
    | dsimp only | fail_if_no_progress with_reducible refine kept_mk ?_ rfl ?_ ?_ ?_ rfl | exact Nat.le_refl _ | exact Nat.zero_le _

theorem modeFields_kept {s₀ s : State} (target result : Nat) (hK : Kept s₀ s) : Kept s₀ (modeFields s target result) := by
  unfold modeFields
  repeat' first
    | with_reducible first
      | assumption | apply setFs_kept
    | dsimp only

theorem acceptMode_kept {s₀ s : State} (target : Nat) (hK : Kept s₀ s) : Kept s₀ (acceptMode s target) := by
  unfold acceptMode
  repeat' first
    | with_reducible first
      | assumption | intro _ | apply mapPw_kept | apply modeFields_kept
    | dsimp only | split | fail_if_no_progress with_reducible refine kept_mk ?_ rfl ?_ ?_ ?_ rfl | exact Nat.le_refl _ | exact Nat.zero_le _

theorem commandMode_kept {s₀ s : State} (target : Nat) (hK : Kept s₀ s) : Kept s₀ (commandMode s target) := by
  unfold commandMode
  repeat' first
    | with_reducible first
      | assumption | apply setF_kept | apply modeFields_kept | apply acceptMode_kept | apply kept_ite
    | dsimp only | split

theorem modeCmd_kept {s₀ s : State} (target : Nat) (hK : Kept s₀ s) : Kept s₀ (modeCmd s target) := by
  unfold modeCmd
  repeat' first
    | with_reducible first
      | assumption | intro _ | apply setF_kept | apply enterDoze_kept | apply modeFields_kept | apply acceptMode_kept | apply commandMode_kept
      | apply kept_ite
    | dsimp only | split

theorem execModeCommission_answers (s : State) : Answers s (execModeCommission s) := by
  have hK := Kept.refl s
  unfold execModeCommission
  repeat' first
    | with_reducible first
      | assumption | apply modeCmd_kept | apply Answers.next
    | dsimp only

theorem execModeRun_answers (s : State) : Answers s (execModeRun s) := by
  have hK := Kept.refl s
  unfold execModeRun
  repeat' first
    | with_reducible first
      | assumption | apply modeCmd_kept | apply Answers.next
    | dsimp only

theorem execModeHold_answers (s : State) : Answers s (execModeHold s) := by
  have hK := Kept.refl s
  unfold execModeHold
  repeat' first
    | with_reducible first
      | assumption | apply modeCmd_kept | apply Answers.next
    | dsimp only

theorem execModeSafe_answers (s : State) : Answers s (execModeSafe s) := by
  have hK := Kept.refl s
  unfold execModeSafe
  repeat' first
    | with_reducible first
      | assumption | apply modeCmd_kept | apply Answers.next
    | dsimp only

theorem execModeDoze_answers (s : State) : Answers s (execModeDoze s) := by
  have hK := Kept.refl s
  unfold execModeDoze
  repeat' first
    | with_reducible first
      | assumption | apply modeCmd_kept | apply Answers.next
    | dsimp only

theorem startOp_kept {s₀ s : State} (o : GovOp) (hK : Kept s₀ s) : Kept s₀ (startOp s o) := by
  unfold startOp
  repeat' first
    | with_reducible first
      | assumption | intro _ | apply setF_kept | apply setFs_kept | apply startTime_kept | apply mapPw_kept | apply govRequest_kept
      | apply nandCkpt_kept | apply setDom_kept | apply finishDoze_kept | apply kept_ite
    | dsimp only | split | fail_if_no_progress with_reducible refine kept_mk ?_ rfl ?_ ?_ ?_ rfl | exact Nat.le_refl _ | exact Nat.zero_le _

theorem execPegGrant_answers (s : State) : Answers s (execPegGrant s) := by
  have hK := Kept.refl s
  unfold execPegGrant
  repeat' first
    | with_reducible first
      | assumption | intro _ | apply govTake_kept | apply startOp_kept | apply Answers.next
    | dsimp only | split

theorem sillSwitch_kept {s₀ s : State} (main : Bool) (hK : Kept s₀ s) : Kept s₀ (sillSwitch s main) := by
  unfold sillSwitch
  repeat' first
    | with_reducible first
      | assumption | apply incF_kept | apply setB_kept | apply setFs_kept | apply kept_ite
    | dsimp only | split

theorem failStep4_kept {s₀ s : State} (hK : Kept s₀ s) : Kept s₀ (failStep4 s) := by
  unfold failStep4
  repeat' first
    | with_reducible first
      | assumption | intro _ | apply mapPw_kept | apply sendLeave_kept | apply powerDown_kept
    | dsimp only | split | fail_if_no_progress with_reducible refine kept_mk ?_ rfl ?_ ?_ ?_ rfl | exact Nat.le_refl _ | exact Nat.zero_le _

theorem failStep5_kept {s₀ s : State} (hK : Kept s₀ s) : Kept s₀ (failStep5 s) := by
  unfold failStep5
  repeat' first
    | with_reducible first
      | assumption | intro _ | apply mapPw_kept | apply sillCkpt_kept
    | dsimp only | split | fail_if_no_progress with_reducible refine kept_mk ?_ rfl ?_ ?_ ?_ rfl | exact Nat.le_refl _ | exact Nat.zero_le _

theorem failStep6_kept {s₀ s : State} (hK : Kept s₀ s) : Kept s₀ (failStep6 s) := by
  unfold failStep6
  repeat' first
    | with_reducible first
      | assumption | intro _ | apply setF_kept | apply mapPw_kept | apply pegReturn_kept | apply grantNow_kept
      | refine grantNow_eq_kept (by assumption) ?_ | apply nandCkpt_kept | apply kept_ite
    | dsimp only | split | fail_if_no_progress with_reducible refine kept_mk ?_ rfl ?_ ?_ ?_ rfl | exact Nat.le_refl _ | exact Nat.zero_le _

theorem failStep7_kept {s₀ s : State} (hK : Kept s₀ s) : Kept s₀ (failStep7 s) := by
  unfold failStep7
  repeat' first
    | with_reducible first
      | assumption | intro _ | apply incF_kept | apply setFs_kept | apply assertReset_kept | apply mapPw_kept | apply vigilStart_kept
      | apply powerDown_kept | apply emptyQueue_kept | apply dropTasks_kept | apply sillSwitch_kept | apply kept_ite | apply foldl_kept
      | apply foldl_pair_kept
    | dsimp only | split | fail_if_no_progress with_reducible refine kept_mk ?_ rfl ?_ ?_ ?_ rfl | exact Nat.le_refl _ | exact Nat.zero_le _

theorem execPowerFailWarning_answers (s : State) (mv : Fin 32768) (partials : List (Fin 4 × SetCycle)) : Answers s (execPowerFailWarning mv partials
    s) := by
  have hK := Kept.refl s
  unfold execPowerFailWarning
  repeat' first
    | with_reducible first
      | assumption | intro _ | apply incSatF_kept | apply setFs_kept | apply mapPw_kept | apply closePartial_kept | apply closeEvents_kept
      | apply powerDown_kept | apply kept_ite | apply foldl_kept | apply foldl_pair_kept | apply Answers.next | apply answers_ite
    | dsimp only | split | fail_if_no_progress with_reducible refine kept_mk ?_ rfl ?_ ?_ ?_ rfl | exact Nat.le_refl _ | exact Nat.zero_le _

theorem failTick_kept {s₀ s : State} (hK : Kept s₀ s) : Kept s₀ (failTick s) := by
  unfold failTick
  repeat' first
    | with_reducible first
      | assumption | apply failStep4_kept | apply failStep5_kept | apply failStep6_kept | apply failStep7_kept | apply kept_ite
    | dsimp only | split

theorem execHoldUpEnd_answers (s : State) : Answers s (execHoldUpEnd s) := by
  have hK := Kept.refl s
  unfold execHoldUpEnd
  repeat' first
    | with_reducible first
      | assumption | apply powerDown_kept | apply failStep7_kept | apply kept_ite | apply Answers.next | apply answers_ite
    | dsimp only | split

theorem execVmainReturn_answers (s : State) (mv : Fin 32768) : Answers s (execVmainReturn mv s) := by
  have hK := Kept.refl s
  unfold execVmainReturn
  repeat' first
    | with_reducible first
      | assumption | intro _ | apply showVmain_kept | apply assertReset_kept | apply mapPw_kept | apply sillSwitch_kept | apply kept_ite
      | apply Answers.next | apply answers_ite
    | dsimp only | split | fail_if_no_progress with_reducible refine kept_mk ?_ rfl ?_ ?_ ?_ rfl | exact Nat.le_refl _ | exact Nat.zero_le _

theorem execVmainLossInDoze_answers (s : State) : Answers s (execVmainLossInDoze s) := by
  have hK := Kept.refl s
  unfold execVmainLossInDoze
  repeat' first
    | with_reducible first
      | assumption | intro _ | apply incF_kept | apply setFs_kept | apply vigilStart_kept | apply powerDown_kept | apply sillSwitch_kept | apply kept_ite
      | apply foldl_kept | apply Answers.next | apply answers_ite
    | dsimp only | split | fail_if_no_progress with_reducible refine kept_mk ?_ rfl ?_ ?_ ?_ rfl | exact Nat.le_refl _ | exact Nat.zero_le _

end Sys2Proof.Machine
end

