-- ==== Sys2Proof/Laws/KeptRegisters.lean ====
section
/-! SUPPORT. Laws/KeptRegisters.lean: what the operations of Machine/Registers.lean keep. -/

namespace Sys2Proof.Machine

set_option linter.unusedTactic false
set_option linter.unreachableTactic false

theorem ptGo_kept {s₀ s : State} (w : Nat) (hK : Kept s₀ s) : Kept s₀ (ptGo s w) := by
  unfold ptGo
  repeat' first
    | with_reducible first
      | assumption | intro _ | apply fcmdFields_kept | apply forceCmd_kept | refine forceCmd_eq_kept (by assumption) ?_ | apply releaseCmd_kept
      | refine releaseCmd_eq_kept (by assumption) ?_
    | dsimp only | split

theorem fltGo_kept {s₀ s : State} (op : Nat) (hK : Kept s₀ s) : Kept s₀ (fltGo s op) := by
  unfold fltGo
  repeat' first
    | with_reducible first
      | assumption | intro _ | apply fltCmd_kept | apply fltClearFirst_kept | apply fltClearLost_kept | apply fltClearTotals_kept
    | dsimp only | split

theorem injGo_kept {s₀ s : State} (q : Requester) (op : Nat) (hK : Kept s₀ s) : Kept s₀ (injGo s q op) := by
  unfold injGo
  repeat' first
    | with_reducible first
      | assumption | intro _ | apply setFs_kept | apply injStop_kept | apply injStart_kept
    | dsimp only | split

theorem goCmd_kept {s₀ s : State} (q : Requester) (b : Nat) (ix : List Nat) (w : Nat) (hK : Kept s₀ s) : Kept s₀ (goCmd s q b ix w) := by
  unfold goCmd
  repeat' first
    | with_reducible first
      | assumption | apply ackCmd_kept | apply taskCmd_kept | apply loopCmd_kept | apply lgCmd_kept | apply calGo_kept | apply trCmd_kept
      | apply macCmd_kept | apply keyIssue_kept | apply tmpCmd_kept | apply lcCmd_kept | apply ptpCmd_kept | apply canCmd_kept | apply uartCmd_kept
      | apply memCmd_kept | apply clkCmd_kept | apply rstCmd_kept | apply scfCmd_kept | apply modeCmd_kept | apply ptGo_kept | apply fltGo_kept
      | apply injGo_kept | apply kept_ite
    | dsimp only | split

theorem actWord_kept {s₀ s : State} (q : Requester) (b : Nat) (ix : List Nat) (w : Nat) (hK : Kept s₀ s) : Kept s₀ (actWord s q b ix w) :=
    by
  unfold actWord
  repeat' first
    | with_reducible first
      | assumption | apply setF_kept | apply ptLostClear_kept | apply ptDenyClear_kept | apply manualWrite_kept | apply evSel_kept
      | apply wrapWrite_kept | apply mtOvrClear_kept | apply rtcCapture_kept | apply tamperCause_kept | apply tmpLogSel_kept | apply goCmd_kept
      | apply kept_ite
    | dsimp only | split

theorem writeReg_kept {s₀ s : State} (q : Requester) (a w : Nat) (hK : Kept s₀ s) : Kept s₀ (writeReg s q a w) := by
  unfold writeReg
  repeat' first
    | with_reducible first
      | assumption | intro _ | apply raise_kept | apply clearWord_kept | apply directWord_kept | apply actWord_kept
    | dsimp only | split

theorem execRegisterWrite_answers (s : State) (q : Requester) (addr : Nat) (w : Word) : Answers s (execRegisterWrite q addr w s) := by
  have hK := Kept.refl s
  unfold execRegisterWrite
  repeat' first
    | with_reducible first
      | assumption | apply writeReg_kept | apply kept_ite | apply Answers.next | apply answers_ite
    | dsimp only | split

theorem execUnmappedAccess_answers (s : State) (q : Requester) (addr : Nat) (write : Bool) : Answers s (execUnmappedAccess q addr write s) := by
  have hK := Kept.refl s
  unfold execUnmappedAccess
  repeat' first
    | with_reducible first
      | assumption | apply readReg_kept | apply writeReg_kept | apply kept_ite | apply Answers.next | apply answers_ite
    | dsimp only | split

theorem execLeGridLoRead_answers (s : State) (q : Requester) : Answers s (execLeGridLoRead q s) := by
  have hK := Kept.refl s
  unfold execLeGridLoRead
  repeat' first
    | with_reducible first
      | assumption | apply readReg_kept | apply Answers.next
    | dsimp only

theorem execLeGridHiRead_answers (s : State) (q : Requester) : Answers s (execLeGridHiRead q s) := by
  have hK := Kept.refl s
  unfold execLeGridHiRead
  repeat' first
    | with_reducible first
      | assumption | apply readReg_kept | apply Answers.next
    | dsimp only

theorem joinSys_kept {s₀ s : State} (r : State × Option (Nat × Nat)) (hK : Kept s₀ s) (hr : Kept s₀ r.1) : Kept s₀ (joinSys s r) := by
  unfold joinSys
  refine kept_ite hK ?_
  split
  · exact hr
  · exact kept_mk hK rfl (Nat.le_refl _) (Nat.le_refl _) (Nat.le_refl _) rfl

theorem taskSys_kept {s₀ s : State} (e sl : Fin 8) (f : Run → State) (hK : Kept s₀ s) (hf : ∀ r, Kept s₀ (f r)) :
    Kept s₀ (taskSys s e sl f) := by
  unfold taskSys
  split
  · exact kept_ite (hf _) hK
  · exact hK

theorem taskRead_kept {s₀ s : State} (e sl : Fin 8) (a : Nat) (addr : Run → Nat) (qs : Run → List Quality) (words : Nat) (hK : Kept s₀ s) :
    Kept s₀ (taskRead s e sl a addr qs words) := by
  unfold taskRead
  repeat' first
    | with_reducible first
      | assumption | intro _ | apply onTask_kept | apply readReg_kept | apply taskSys_kept
    | dsimp only | split

theorem taskWrite_kept {s₀ s : State} (e sl : Fin 8) (addr w : Run → Nat) (words : Nat) (hK : Kept s₀ s) : Kept s₀ (taskWrite s e sl addr w
    words) := by
  unfold taskWrite
  repeat' first
    | with_reducible first
      | assumption | intro _ | apply onTask_kept | apply writeReg_kept | apply taskSys_kept
    | dsimp only | split

theorem execOpSysrd_answers (s : State) (r : Runner) (a : Fin 256) (b : Fin 256) : Answers s (execOpSysrd r a b s) := by
  have hK := Kept.refl s
  unfold execOpSysrd
  repeat' first
    | with_reducible first
      | assumption | intro _ | apply joinRead_kept | refine joinRead_eq_kept (by assumption) ?_ | apply joinSys_kept | apply taskRead_kept
      | apply Answers.next
    | dsimp only | split

theorem execOpSyswr_answers (s : State) (r : Runner) (a : Fin 256) (b : Fin 256) : Answers s (execOpSyswr r a b s) := by
  have hK := Kept.refl s
  unfold execOpSyswr
  repeat' first
    | with_reducible first
      | assumption | intro _ | apply joinWrite_kept | refine joinWrite_eq_kept (by assumption) ?_ | apply joinSys_kept | apply taskWrite_kept
      | apply Answers.next
    | dsimp only | split

theorem execOpSysrdx_answers (s : State) (r : Runner) (a : Fin 256) (addr : Word) : Answers s (execOpSysrdx r a addr s) := by
  have hK := Kept.refl s
  unfold execOpSysrdx
  repeat' first
    | with_reducible first
      | assumption | intro _ | apply joinRead_kept | refine joinRead_eq_kept (by assumption) ?_ | apply joinSys_kept | apply taskRead_kept
      | apply Answers.next
    | dsimp only | split

theorem execOpSyswrx_answers (s : State) (r : Runner) (a : Fin 256) (addr : Word) : Answers s (execOpSyswrx r a addr s) := by
  have hK := Kept.refl s
  unfold execOpSyswrx
  repeat' first
    | with_reducible first
      | assumption | intro _ | apply joinWrite_kept | refine joinWrite_eq_kept (by assumption) ?_ | apply joinSys_kept | apply taskWrite_kept
      | apply Answers.next
    | dsimp only | split

theorem mgmtPerform_kept {s₀ s : State} (q : Requester) (id tenant : Nat) (op : MgmtOp) (hK : Kept s₀ s) : Kept s₀ (mgmtPerform s q id
    tenant op) := by
  unfold mgmtPerform
  repeat' first
    | with_reducible first
      | assumption | intro _ | apply forceCmd_kept | refine forceCmd_eq_kept (by assumption) ?_ | apply releaseCmd_kept
      | refine releaseCmd_eq_kept (by assumption) ?_ | apply taskCmd_kept | apply loopCmd_kept | apply mgmtReply_kept | apply readReg_kept
      | apply submitRequest_kept | apply writeReg_kept | apply kept_ite
    | dsimp only | split

theorem mgmtTruss_kept {s₀ s : State} (q : MgmtAsk) (target : Fin 512) (tenant : Fin 4096) (op : MgmtOp) (hK : Kept s₀ s) :
    Kept s₀ (mgmtTruss s q target tenant op) := by
  unfold mgmtTruss
  repeat' first
    | with_reducible first
      | assumption | intro _ | apply mgmtAt_kept | apply mgmtPerform_kept
    | dsimp only | split

theorem execMgmtRegisterRead_answers (s : State) (q : MgmtAsk) (target : Fin 512) (tenant : Fin 4096) (addr : Nat) : Answers s
    (execMgmtRegisterRead q target tenant addr s) := by
  have hK := Kept.refl s
  unfold execMgmtRegisterRead
  repeat' first
    | with_reducible first
      | assumption | apply mgmtTruss_kept | apply Answers.next
    | dsimp only

theorem execMgmtRegisterWrite_answers (s : State) (q : MgmtAsk) (target : Fin 512) (tenant : Fin 4096) (addr : Nat) (w : Word) : Answers
    s (execMgmtRegisterWrite q target tenant addr w s) := by
  have hK := Kept.refl s
  unfold execMgmtRegisterWrite
  repeat' first
    | with_reducible first
      | assumption | apply mgmtTruss_kept | apply Answers.next
    | dsimp only

theorem execMgmtForce_answers (s : State) (q : MgmtAsk) (target : Fin 512) (tenant : Fin 4096) (index : Fin 65536) (value : Word) :
    Answers s (execMgmtForce q target tenant index value s) := by
  have hK := Kept.refl s
  unfold execMgmtForce
  repeat' first
    | with_reducible first
      | assumption | apply mgmtTruss_kept | apply Answers.next
    | dsimp only

theorem execMgmtRelease_answers (s : State) (q : MgmtAsk) (target : Fin 512) (tenant : Fin 4096) (index : Fin 65536) : Answers s
    (execMgmtRelease q target tenant index s) := by
  have hK := Kept.refl s
  unfold execMgmtRelease
  repeat' first
    | with_reducible first
      | assumption | apply mgmtTruss_kept | apply Answers.next
    | dsimp only

theorem execMgmtTaskCommand_answers (s : State) (q : MgmtAsk) (target : Fin 512) (tenant : Fin 4096) (e : Fin 8) (sl : Fin 8) (op : Fin
    8) : Answers s (execMgmtTaskCommand q target tenant e sl op s) := by
  have hK := Kept.refl s
  unfold execMgmtTaskCommand
  repeat' first
    | with_reducible first
      | assumption | apply mgmtTruss_kept | apply Answers.next
    | dsimp only

theorem execMgmtLoopCommand_answers (s : State) (q : MgmtAsk) (target : Fin 512) (tenant : Fin 4096) (n : Fin 4096) (op : Fin 8) :
    Answers s (execMgmtLoopCommand q target tenant n op s) := by
  have hK := Kept.refl s
  unfold execMgmtLoopCommand
  repeat' first
    | with_reducible first
      | assumption | apply mgmtTruss_kept | apply Answers.next
    | dsimp only

theorem execMgmtFaultRead_answers (s : State) (q : MgmtAsk) (target : Fin 512) (tenant : Fin 4096) : Answers s (execMgmtFaultRead q
    target tenant s) := by
  have hK := Kept.refl s
  unfold execMgmtFaultRead
  repeat' first
    | with_reducible first
      | assumption | apply mgmtTruss_kept | apply Answers.next
    | dsimp only

theorem execMgmtUartRequest_answers (s : State) (id : Word) (op : MgmtOp) : Answers s (execMgmtUartRequest id op s) := by
  have hK := Kept.refl s
  unfold execMgmtUartRequest
  repeat' first
    | with_reducible first
      | assumption | intro _ | apply mgmtUart_kept | apply mgmtPerform_kept | apply Answers.next
    | dsimp only | split

end Sys2Proof.Machine
end

