-- ==== Sys2Proof/Laws/KeptCommit.lean ====
section
/-! SUPPORT. Laws/KeptCommit.lean: what the operations of Machine/Commit.lean keep. -/

namespace Sys2Proof.Machine

set_option linter.unusedTactic false
set_option linter.unreachableTactic false

theorem retireTask_kept {s₀ s : State} (k : Nat) (hK : Kept s₀ s) : Kept s₀ (retireTask s k) := by
  unfold retireTask
  repeat' first
    | with_reducible first
      | assumption | intro _ | apply mapTask_kept | apply scatterTask_kept | apply drainQueue_kept | apply kept_ite
    | dsimp only | split | fail_if_no_progress with_reducible refine kept_mk ?_ rfl ?_ ?_ ?_ rfl | exact Nat.le_refl _ | exact Nat.zero_le _

theorem replaceTask_kept {s₀ s : State} (k : Nat) (d : TaskDef) (h : Heir) (hK : Kept s₀ s) : Kept s₀ (replaceTask s k d h) := by
  unfold replaceTask
  repeat' first
    | with_reducible first
      | assumption | intro _ | apply setFs_kept | apply mapTask_kept | apply setTaskState_kept | apply requestStop_kept | apply requestHold_kept
      | apply admitTask_kept
    | dsimp only | split | fail_if_no_progress with_reducible refine kept_mk ?_ rfl ?_ ?_ ?_ rfl | exact Nat.le_refl _ | exact Nat.zero_le _

theorem updEngines_kept {s₀ s : State} (hK : Kept s₀ s) : Kept s₀ (updEngines s) := by
  unfold updEngines
  repeat' first
    | with_reducible first
      | assumption | intro _ | apply setF_kept | apply updActivity_kept | apply gateIdle_kept | apply recomputeAll_kept | apply kept_ite
      | apply foldl_kept | apply foldl_pair_kept
    | dsimp only | split

theorem commitTasks_kept {s₀ s : State} (g : Staging) (hK : Kept s₀ s) : Kept s₀ (commitTasks s g) := by
  unfold commitTasks
  repeat' first
    | with_reducible first
      | assumption | intro _ | apply releaseKeys_kept | apply admitTask_kept | apply clearSlot_kept | apply replaceTask_kept | apply updEngines_kept
      | apply foldl_kept | apply foldl_pair_kept
    | dsimp only | split

theorem commitLoops_kept {s₀ s : State} (g : Staging) (hK : Kept s₀ s) : Kept s₀ (commitLoops s g) := by
  unfold commitLoops
  repeat' first
    | with_reducible first
      | assumption | intro _ | apply commitLoop_kept | apply foldl_kept | apply foldl_pair_kept
    | dsimp only | split | fail_if_no_progress with_reducible refine kept_mk ?_ rfl ?_ ?_ ?_ rfl | exact Nat.le_refl _ | exact Nat.zero_le _

theorem commitCircs_kept {s₀ s : State} (g : Staging) (hK : Kept s₀ s) : Kept s₀ (commitCircs s g) := by
  unfold commitCircs
  repeat' first
    | with_reducible first
      | assumption | intro _ | apply commitCircuit_kept | apply nandCkpt_kept | apply askCkpt_kept | apply kept_ite | apply foldl_kept
      | apply foldl_pair_kept
    | dsimp only | split

theorem commitMaps_kept {s₀ s : State} (g : Staging) (hK : Kept s₀ s) : Kept s₀ (commitMaps s g) := by
  unfold commitMaps
  repeat' first
    | with_reducible first
      | assumption | intro _ | apply kept_ite
    | dsimp only | split | fail_if_no_progress with_reducible refine kept_mk ?_ rfl ?_ ?_ ?_ rfl | exact Nat.le_refl _ | exact Nat.zero_le _

theorem takeExport_kept {s₀ s : State} (d : ExportDef) (hK : Kept s₀ s) : Kept s₀ (takeExport s d) := by
  unfold takeExport
  exact kept_ite (checkReceiver_kept _ hK) (startTime_kept hK _)

theorem commitExports_kept {s₀ s : State} (g : Staging) (images : List Image) (hK : Kept s₀ s) : Kept s₀ (commitExports s g images) := by
  unfold commitExports
  repeat' first
    | with_reducible first
      | assumption | intro _ | apply mapNet_kept | apply updObs_kept | apply takeExport_kept | apply kept_ite | apply foldl_kept
      | apply foldl_pair_kept
    | dsimp only | split | fail_if_no_progress with_reducible refine kept_mk ?_ rfl ?_ ?_ ?_ rfl | exact Nat.le_refl _ | exact Nat.zero_le _

theorem changeSets_kept {s₀ s : State} (v : State) (hK : Kept s₀ s) : Kept s₀ (changeSets s v) := by
  unfold changeSets
  repeat' first
    | with_reducible first
      | assumption | intro _ | apply setVs_kept | apply closeEvents_kept | apply kept_ite | apply foldl_kept | apply foldl_pair_kept
    | dsimp only | split | fail_if_no_progress with_reducible refine kept_mk ?_ rfl ?_ ?_ ?_ rfl | exact Nat.le_refl _ | exact Nat.zero_le _

theorem stopPulses_kept {s₀ s : State} (hK : Kept s₀ s) : Kept s₀ (stopPulses s) := by
  unfold stopPulses
  repeat' first
    | with_reducible first
      | assumption | intro _ | apply setPulse_kept | apply kept_ite | apply foldl_kept | apply foldl_pair_kept
    | dsimp only | split

theorem resourcePulses_kept {s₀ : State} (s0 : State) {s : State} (hK : Kept s₀ s) : Kept s₀ (resourcePulses s0 s) := by
  unfold resourcePulses
  repeat' first
    | with_reducible first
      | assumption | intro _ | apply pulseSourced_kept | apply kept_ite | apply foldl_kept | apply foldl_pair_kept
    | dsimp only | split


theorem changeRole_kept {s₀ : State} (s0 : State) {s : State} (hK : Kept s₀ s) : Kept s₀ (changeRole s0 s) := by
  unfold changeRole
  repeat' first
    | with_reducible first
      | assumption | apply takeRole_kept | apply updBb_kept | apply kept_ite
    | dsimp only | split

theorem changePtp_kept {s₀ : State} (s0 : State) {s : State} (hK : Kept s₀ s) : Kept s₀ (changePtp s0 s) := by
  unfold changePtp
  repeat' first
    | with_reducible first
      | assumption | intro _ | apply decidePorts_kept | apply kept_ite
    | dsimp only | split

theorem changeMacs_kept {s₀ : State} (s0 : State) {s : State} (hK : Kept s₀ s) : Kept s₀ (changeMacs s0 s) := by
  unfold changeMacs
  repeat' first
    | with_reducible first
      | assumption | intro _ | apply retrain_kept | apply kept_ite | apply foldl_kept | apply foldl_pair_kept
    | dsimp only | split

theorem endLpi_kept {s₀ s : State} (hK : Kept s₀ s) : Kept s₀ (endLpi s) := by
  unfold endLpi
  repeat' first
    | with_reducible first
      | assumption | intro _ | apply setF_kept | apply kept_ite | apply foldl_kept
    | dsimp only

theorem changeRegs_kept {s₀ : State} (s0 : State) {s : State} (hK : Kept s₀ s) : Kept s₀ (changeRegs s0 s) := by
  unfold changeRegs
  repeat' first
    | with_reducible first
      | assumption | apply endLpi_kept | apply recharge_kept | apply recomputePool_kept | apply stopPulses_kept | apply resourcePulses_kept | apply changeRole_kept
      | apply changePtp_kept | apply changeMacs_kept | apply kept_ite
    | dsimp only | split

theorem changeSubs_kept {s₀ : State} (before : List SubEntry) {s : State} (hK : Kept s₀ s) : Kept s₀ (changeSubs before s) := by
  unfold changeSubs
  repeat' first
    | with_reducible first
      | assumption | intro _ | apply trSend_kept | apply updPubs_kept | apply subEntryEffect_kept | apply unsubEffect_kept | apply kept_ite
      | apply foldl_kept | apply foldl_pair_kept
    | dsimp only | split

theorem switchRecs_kept {s₀ s : State} (recs : Tab PtRec) (hK : Kept s₀ s) : Kept s₀ (switchRecs s recs) := by
  unfold switchRecs
  repeat' first
    | with_reducible first
      | assumption | intro _
    | dsimp only | split | fail_if_no_progress with_reducible refine kept_mk ?_ rfl ?_ ?_ ?_ rfl | exact Nat.le_refl _ | exact Nat.zero_le _

theorem postRecs_kept {s₀ : State} (old : State) {s : State} (hK : Kept s₀ s) : Kept s₀ (postRecs old s) := by
  unfold postRecs
  repeat' first
    | with_reducible first
      | assumption | intro _ | apply postChange_kept | apply kept_ite | apply foldl_kept | apply foldl_pair_kept
    | dsimp only | split

theorem commitRecs_kept {s₀ s : State} (recs : Tab PtRec) (hK : Kept s₀ s) : Kept s₀ (commitRecs s recs) := by
  unfold commitRecs
  repeat' first
    | with_reducible first
      | assumption | apply switchRecs_kept | apply postRecs_kept
    | dsimp only

theorem applyFields_kept {s₀ s : State} (g : Staging) (images : List Image) (hK : Kept s₀ s) : Kept s₀ (applyFields s g images) := by
  unfold applyFields
  repeat' first
    | with_reducible first
      | assumption | intro _ | apply recomputeLoops_kept | apply fieldCommit_kept | apply commitWord_kept | apply viewOf_kept | apply mapScf_kept
      | apply retireTask_kept | apply commitTasks_kept | apply commitLoops_kept | apply commitCircs_kept | apply commitMaps_kept
      | apply commitExports_kept | apply changeSets_kept | apply changeRegs_kept | apply changeSubs_kept | apply commitRecs_kept | apply foldl_kept
      | apply foldl_pair_kept
    | dsimp only | split | fail_if_no_progress with_reducible refine kept_mk ?_ rfl ?_ ?_ ?_ rfl | exact Nat.le_refl _ | exact Nat.zero_le _

theorem applyWrites_kept {s₀ s : State} (ws : List (Nat × Nat)) (hK : Kept s₀ s) : Kept s₀ (applyWrites s ws) := by
  unfold applyWrites
  repeat' first
    | with_reducible first
      | assumption | intro _ | apply clearWord_kept | apply actWord_kept | apply foldl_kept | apply foldl_pair_kept
    | dsimp only | split

theorem releaseStarted_kept {s₀ : State} (before : State) {s : State} (hK : Kept s₀ s) : Kept s₀ (releaseStarted before s) := by
  unfold releaseStarted
  repeat' first
    | with_reducible first
      | assumption | intro _ | apply releaseKeys_kept
    | dsimp only | split

theorem applyChange_kept {s₀ s : State} (c : Change) (hK : Kept s₀ s) : Kept s₀ (applyChange s c) := by
  unfold applyChange
  repeat' first
    | with_reducible first
      | assumption | intro _ | apply incSatF_kept | apply setFs_kept | apply mapScf_kept | apply endChange_kept | apply applyFields_kept
      | apply applyWrites_kept | apply releaseStarted_kept | apply kept_ite
    | dsimp only | split | fail_if_no_progress with_reducible refine kept_mk ?_ rfl ?_ ?_ ?_ rfl | exact Nat.le_refl _ | exact Nat.zero_le _

theorem scarfCommit_kept {s₀ s : State} (hK : Kept s₀ s) : Kept s₀ (scarfCommit s) := by
  unfold scarfCommit
  repeat' first
    | with_reducible first
      | assumption | intro _ | apply setF_kept | apply raise_kept | apply applyChange_kept | apply kept_ite
    | dsimp only | split

theorem execScarfCommit_answers (s : State) : Answers s (execScarfCommit s) := by
  have hK := Kept.refl s
  unfold execScarfCommit
  repeat' first
    | with_reducible first
      | assumption | apply scarfCommit_kept | apply Answers.next
    | dsimp only

theorem foldl_tabPut_sorted (rs : List (Nat × Nat)) {t : Tab Nat} (h : tabSortedFrom none t = true) :
    tabSortedFrom none (rs.foldl (fun t kv => tabPut t kv.1 kv.2) t) = true := by
  induction rs generalizing t with
  | nil => exact h
  | cons p rs ih => exact ih (tabPut_sorted h (by simp) _)

theorem restoreRegs_kept {s₀ s : State} (rs : List (Nat × Nat)) (h : Kept s₀ s) : Kept s₀ (restoreRegs s rs) :=
  kept_core h (fun k => foldl_tabPut_sorted rs (filter_sorted k _)) (fun k => k) (fun k => k) rfl (Nat.le_refl _) (Nat.le_refl _)

theorem restoreCircs_kept {s₀ s : State} (cs : Tab CircDef) (hK : Kept s₀ s) : Kept s₀ (restoreCircs s cs) := by
  unfold restoreCircs
  repeat' first
    | with_reducible first
      | assumption | intro _ | apply commitCircuit_kept | apply restoreCircuit_kept | apply foldl_kept | apply foldl_pair_kept
    | dsimp only | split

theorem restoreField_kept {s₀ s : State} (maps : Tab MapEntry) (hK : Kept s₀ s) : Kept s₀ (restoreField s maps) := by
  unfold restoreField
  repeat' first
    | with_reducible first
      | assumption | intro _ | apply mapCan_kept | apply canInsAbsent_kept | apply mapStation_kept | apply uartInsAbsent_kept | apply fieldCommit_kept
      | apply foldl_kept | apply foldl_pair_kept
    | dsimp only | split | fail_if_no_progress with_reducible refine kept_mk ?_ rfl ?_ ?_ ?_ rfl | exact Nat.le_refl _ | exact Nat.zero_le _

theorem restoreConfig_kept {s₀ : State} (s0 : State) {s : State} (c : ConfigRec) (r : Option ModeRec) (hK : Kept s₀ s) : Kept s₀ (restoreConfig s0 s c
    r) := by
  unfold restoreConfig
  repeat' first
    | with_reducible first
      | assumption | intro _ | apply admitTask_kept | apply recomputeLoops_kept | apply mapNet_kept | apply updObs_kept | apply takeExport_kept
      | apply mapScf_kept | apply updEngines_kept | apply changeRegs_kept | apply changeSubs_kept | apply commitRecs_kept | apply restoreCircs_kept
      | apply restoreField_kept | apply kept_ite | apply foldl_kept | apply foldl_pair_kept
    | dsimp only | split | fail_if_no_progress with_reducible refine kept_mk ?_ rfl ?_ ?_ ?_ rfl | exact Nat.le_refl _ | exact Nat.zero_le _

theorem confirmBoot_kept {s₀ s : State} (hK : Kept s₀ s) : Kept s₀ (confirmBoot s) := by
  unfold confirmBoot
  repeat' first
    | with_reducible first
      | assumption | intro _ | apply setFs_kept | apply mapPw_kept | apply meReturn_kept | apply setStarts_kept
    | dsimp only | split | fail_if_no_progress with_reducible refine kept_mk ?_ rfl ?_ ?_ ?_ rfl | exact Nat.le_refl _ | exact Nat.zero_le _

theorem configCommit_kept {s₀ s : State} (bad : List Nat) (hK : Kept s₀ s) : Kept s₀ (configCommit s bad) := by
  unfold configCommit
  repeat' first
    | with_reducible first
      | assumption | intro _ | apply raise_kept | apply releaseAll_kept | apply tasksEnterSafe_kept | apply loopsMode_kept | apply mapPw_kept
      | apply netEnterSafe_kept | apply putMode_kept | apply restoreRegs_kept | apply restoreConfig_kept | apply confirmBoot_kept | apply kept_ite
      | apply foldl_kept | apply foldl_pair_kept
    | dsimp only | split | fail_if_no_progress with_reducible refine kept_mk ?_ rfl ?_ ?_ ?_ rfl | exact Nat.le_refl _ | exact Nat.zero_le _

theorem execConfigCommit_answers (s : State) (badTags : List (Fin 4096)) : Answers s (execConfigCommit badTags s) := by
  have hK := Kept.refl s
  unfold execConfigCommit
  repeat' first
    | with_reducible first
      | assumption | intro _ | apply withGrant_kept | apply configCommit_kept | apply kept_ite | apply Answers.next | apply answers_ite
    | dsimp only | split

end Sys2Proof.Machine
end

