-- ==== Sys2Proof/Laws/KeptTick.lean ====
section
/-! SUPPORT. Laws/KeptTick.lean: what the operations of Machine/Tick.lean keep. -/

namespace Sys2Proof.Machine

set_option linter.unusedTactic false
set_option linter.unreachableTactic false

theorem releaseTasks_kept {s₀ s : State} (hK : Kept s₀ s) : Kept s₀ (releaseTasks s) := by
  unfold releaseTasks
  repeat' first
    | with_reducible first
      | assumption | intro _ | apply releaseKeys_kept
    | dsimp only | split

/-- A grid tick is at most four fabric cycles longer than 62,500: the correction is within ±50 ppm (R256). -/
theorem tickLen_le (s : State) : tickLen s ≤ fcTickMax := by
  unfold tickLen fcTickMax
  omega

theorem advanceTick_kept {s₀ s : State} (h : Kept s₀ s) : Kept s₀ (advanceTick s) := by
  have k := passTime_kept (tickLen s - s.fc) h (fun _ => by have := tickLen_le s; omega)
  refine kept_core k (fun k => k) (fun c => ?_) (fun k => k) rfl (Nat.le_succ _) (Nat.le_refl _)
  rw [clocksWf_iff] at c ⊢
  exact ⟨Nat.mod_lt _ (by decide), Nat.zero_le _, (by decide : 0 ≤ 4), c.2.2.2⟩

theorem trussAtTick_kept {s₀ s : State} (hK : Kept s₀ s) : Kept s₀ (trussAtTick s) := by
  unfold trussAtTick
  repeat' first
    | with_reducible first
      | assumption | apply trussTick_kept | apply sendDecisions_kept | apply coordTick_kept | apply kept_ite
    | dsimp only | split

theorem gridTick_kept {s₀ s : State} (hK : Kept s₀ s) : Kept s₀ (gridTick s) := by
  unfold gridTick
  repeat' first
    | with_reducible first
      | assumption | apply releaseTick_kept | apply meTick_kept | apply feTick_kept | apply modeTick_kept | apply finishDoze_kept
      | apply failTick_kept | apply releaseTasks_kept | apply advanceTick_kept | apply trussAtTick_kept
    | dsimp only

theorem execGridTick_answers (s : State) : Answers s (execGridTick s) := by
  have hK := Kept.refl s
  unfold execGridTick
  repeat' first
    | with_reducible first
      | assumption | apply gridTick_kept | apply Answers.next
    | dsimp only

theorem idleCycle_kept {s₀ s : State} (h : Kept s₀ s) : Kept s₀ (idleCycle s) := by
  unfold idleCycle
  split
  · exact passTime_kept 1 h (fun _ => by have := tickLen_le s; omega)
  · exact h

end Sys2Proof.Machine
end

