-- ==== Sys2Proof/Laws/Points.lean ====
section
/-! SUPPORT. Laws/Points.lean: what storing a point record does (02 R31 to R54): the record reads back, every other record and every other part of the
state is as before. -/

namespace Sys2Proof.Machine

theorem PtRec.ne_default {r : PtRec} (h : r.defined = true) : r ≠ {} := by rintro rfl; cases h

/-- Storing a record keeps the point table's canonical form: indexes strictly rising, no record equal to what an unlisted index reads as. -/
theorem setPt_wf {s : State} (h : tabWf {} s.pt.recs = true) (i : Nat) (r : PtRec) : tabWf {} (setPt s i r).pt.recs = true := tabSet_wf h i r

theorem ptAt_setPt_same (s : State) (i : Nat) {r : PtRec} (h : r.defined = true) : ptAt (setPt s i r) i = r := by
  unfold ptAt setPt tabSet
  rw [if_neg (PtRec.ne_default h)]
  exact tabGet_tabPut_same _ _ _ _

theorem ptAt_setPt_ne (s : State) {i j : Nat} {r : PtRec} (h : r.defined = true) (hne : i ≠ j) : ptAt (setPt s i r) j = ptAt s j := by
  unfold ptAt setPt tabSet
  rw [if_neg (PtRec.ne_default h)]
  exact tabGet_tabPut_ne _ _ _ hne

theorem ptAt_postChange (s : State) (ne i j : Nat) : ptAt (postChange s ne i) j = ptAt s j := by
  unfold postChange; split <;> split <;> rfl

theorem ptAt_keepBefore (s : State) (i j : Nat) (old : PtRec) : ptAt (keepBefore s i old) j = ptAt s j := by
  unfold keepBefore; split <;> rfl

/-- Storing a written record stores it. -/
theorem ptAt_commitPt_same (s : State) (i : Nat) (old : PtRec) {r : PtRec} (h : r.defined = true) : ptAt (commitPt s i old r) i = r := by
  unfold commitPt; dsimp only
  split
  · rw [ptAt_postChange, ptAt_keepBefore, ptAt_setPt_same s i h]
  · rw [ptAt_keepBefore, ptAt_setPt_same s i h]

theorem ptAt_commitPt_ne (s : State) {i j : Nat} (old : PtRec) {r : PtRec} (h : r.defined = true) (hne : i ≠ j) :
    ptAt (commitPt s i old r) j = ptAt s j := by
  unfold commitPt; dsimp only
  split
  · rw [ptAt_postChange, ptAt_keepBefore, ptAt_setPt_ne s h hne]
  · rw [ptAt_keepBefore, ptAt_setPt_ne s h hne]

/-- Nothing but the point table, and what reads of the present fabric cycle see, changes. -/
theorem commitPt_frame (s : State) (i : Nat) (old r : PtRec) :
    commitPt s i old r = { s with pt := (commitPt s i old r).pt, cyc := (commitPt s i old r).cyc } := by
  unfold commitPt postChange keepBefore setPt; dsimp only; split <;> (try split) <;> (try split) <;> (try split) <;> rfl

theorem commitPt_regs (s : State) (i : Nat) (old r : PtRec) : (commitPt s i old r).regs = s.regs := by rw [commitPt_frame]

theorem commitPt_sweepAt (s : State) (i : Nat) (old r : PtRec) : (commitPt s i old r).pt.sweepAt = s.pt.sweepAt := by
  unfold commitPt postChange keepBefore setPt; dsimp only; split <;> (try split) <;> (try split) <;> (try split) <;> rfl

theorem ptAt_of_pt {s t : State} (h : t.pt.recs = s.pt.recs) (i : Nat) : ptAt t i = ptAt s i := by unfold ptAt; rw [h]

theorem applyWrite_defined (s : State) (r : PtRec) (w : PtWrite) : (applyWrite s r w).defined = r.defined := by
  unfold applyWrite writerFields; dsimp only; split <;> split <;> rfl

/-- A write alone in its fabric cycle that no rule denies (R44, R45): the written record is stored, and OK is answered. -/
theorem serveBank_one (s : State) (bank : Nat) (w : PtWrite) (hw : tabGet [] s.pt.waiting bank = []) (hd : (ptAt s w.index).defined = true)
    (hn : denyReason s (ptAt s w.index) w = none) :
    serveBank s bank [w] = sendMsg (noteForce (commitPt { s with pt := { s.pt with waiting := tabSet [] s.pt.waiting bank [] } } w.index
      (ptAt s w.index) (applyWrite s (ptAt s w.index) w)) w) (.ptStatus w.port.val w.index .ok) := by
  unfold serveBank
  simp only [hw, sortPorts, List.foldr, insertPort, List.nil_append, List.filter_cons, List.filter_nil, beq_self_eq_true, if_true, bne_self_eq_false,
    Bool.false_eq_true, if_false]
  generalize hu : ({ s with pt := { s.pt with waiting := tabSet [] s.pt.waiting bank [] } } : State) = u
  have hp : ∀ j, ptAt u j = ptAt s j := by intro j; rw [← hu]; rfl
  have hdu : denyReason u (ptAt s w.index) w = none := by rw [← hu]; exact hn
  have hau : applyWrite u (ptAt s w.index) w = applyWrite s (ptAt s w.index) w := by rw [← hu]; rfl
  have hc : w.words.any [].contains = false := by rw [List.any_eq_false]; intro x _; simp
  simp only [performAll, hp, hd, hdu, hau, hc, Bool.not_true, Bool.false_eq_true, if_false, answer]

theorem noteForce_recs (s : State) (w : PtWrite) : (noteForce s w).pt.recs = s.pt.recs := by
  unfold noteForce; split <;> rfl

theorem noteForce_regs (s : State) (w : PtWrite) : (noteForce s w).regs = s.regs := by
  unfold noteForce; split <;> rfl

theorem noteForce_sent (s : State) (w : PtWrite) : (noteForce s w).sent = s.sent := by
  unfold noteForce; split <;> rfl

/-- What such a write leaves behind: the written record, every other record as it was, the OK status and no change of a register. -/
theorem serveBank_one_effect (s : State) (bank : Nat) (w : PtWrite) (hw : tabGet [] s.pt.waiting bank = []) (hd : (ptAt s w.index).defined = true)
    (hn : denyReason s (ptAt s w.index) w = none) :
    ptAt (serveBank s bank [w]) w.index = applyWrite s (ptAt s w.index) w ∧ (serveBank s bank [w]).regs = s.regs ∧
      (serveBank s bank [w]).sent = .ptStatus w.port.val w.index .ok :: s.sent ∧ ∀ j, j ≠ w.index → ptAt (serveBank s bank [w]) j = ptAt s j := by
  have hdd : (applyWrite s (ptAt s w.index) w).defined = true := by rw [applyWrite_defined, hd]
  rw [serveBank_one s bank w hw hd hn]
  refine ⟨?_, ?_, ?_, fun j hj => ?_⟩
  · exact (ptAt_of_pt (noteForce_recs _ _) _).trans (ptAt_commitPt_same _ _ _ hdd)
  · rw [sendMsg_regs, noteForce_regs, commitPt_regs]
  · rw [sendMsg_sent, noteForce_sent, commitPt_frame]
  · exact (ptAt_of_pt (noteForce_recs _ _) _).trans (ptAt_commitPt_ne _ _ hdd (Ne.symm hj))

/-- The sweeper's going on leaves the records and the time. -/
theorem sweepOn_ptAt (s : State) (i j : Nat) : ptAt (sweepOn s i) j = ptAt s j := by
  unfold sweepOn; dsimp only; split
  · rfl
  · split <;> rfl

theorem sweepOn_ptAge (s : State) (i : Nat) (r : PtRec) : ptAge (sweepOn s i) r = ptAge s r := by
  unfold sweepOn; dsimp only; split
  · rfl
  · split <;> rfl

/-- With no write waiting, time passes alone. -/
theorem passTime_idle (s : State) (n : Nat) (h : s.pt.waiting = []) : passTime s n = passCycles s n := by
  have : (passCycles s n).pt.waiting.isEmpty = true := by rw [show (passCycles s n).pt.waiting = s.pt.waiting from rfl, h]; rfl
  unfold passTime
  cases min n 16 with
  | zero => rfl
  | succ k => unfold serveCycles; rw [if_pos this]

/-- A force through port 14 that nothing refuses (R59, R61): FORCE_VALUE takes the value in the record's type, FORCE is set, REL_PEND clears. -/
theorem forceOp_ok (s : State) (i : Nat) (v : Word) (t : Nat) (hd : (ptAt s i).defined = true) (hm : (ptAt s i).writerKind ≠ .meter)
    (hp : (ptAt s i).proxy = false) (hr : holdsRight s t i rightForce = true) (hl : s.pt.locked.contains i = false) :
    forceOp s false i v t =
      (let u := commitPt s i (ptAt s i) { ptAt s i with forceValue := normalise (ptAt s i).ty v, force := true, relPend := false }
       ({ u with pt := { u.pt with forcers := tabPut u.pt.forcers i t } }, .ok)) := by
  unfold forceOp
  dsimp only
  rw [if_neg (by simp [hd]), if_neg (by simp), if_neg (by simp [hm, hp]), if_neg (by simp [hr]), if_neg (by rw [hl]; simp)]
  rfl

/-- A release request through port 14 that nothing refuses (R60): REL_PEND is set. -/
theorem releaseOp_ok (s : State) (i t : Nat) (hd : (ptAt s i).defined = true) (hr : holdsRight s t i rightForce = true) :
    releaseOp s false i t = (commitPt s i (ptAt s i) { ptAt s i with relPend := true }, .ok) := by
  unfold releaseOp
  dsimp only
  rw [if_neg (by simp [hd]), if_neg (by simp), if_neg (by simp [hr])]

end Sys2Proof.Machine
end

