-- ==== Sys2Proof/Laws/Requests.lean ====
section
/-! SUPPORT. Laws/Requests.lean: what a request that nothing refuses does: a management request to this module, a frame that Truss accepts, a change
that the queue has room for, a datagram that the network engines serve. -/

namespace Sys2Proof.Machine

/-- A change that the queue has room for, and its tenant's share of it, joins it (R142, R143). -/
theorem submitChange_ok {s : State} {c : Change} (hm : modeOf s ≤ 3) (hq : s.scf.queue.length < 16) (hf : (s.scf.queue.filter (fun x => x.tenant = c.tenant)).length < 2) :
    submitChange s c = (updQueue { s with scf := { s.scf with queue := s.scf.queue ++ [c] } }, true) := by
  unfold submitChange
  rw [if_neg (by simp only [Bool.or_eq_true, decide_eq_true_eq]; omega)]; rfl

/-- A submission that nothing refuses: the change that it makes joins the queue (R141). -/
theorem submitRequest_ok (c : Change) (u : State) (id tn : Nat) (images : List Image) (tick : Option Nat) (ps : List (Fin 512 × List Image)) (policy : Bool)
    (hc : c = {
          id := (freshFree u).1 % 2 ^ 32, images := if ps.isEmpty then images else (ps.filter (fun p => p.1.val = selfNumber u)).flatMap (fun p => p.2),
          tenant := (match (if ps.isEmpty then images else ps.flatMap (fun p => p.2)) with | i :: _ => imageTenant i | [] => tn), tick := tick,
          request := some (id, tn), estate := !ps.isEmpty, manager := selfNumber u, policy := policy, parts := ps.map (fun p => (p.1.val, p.2)) })
    (hl : getF u Fld.LC_STATE_STATE ≠ 4) (hm : ps = [] ∨ isManager u = true) (hk : countOk images (ps.map (fun p => (p.1.val, p.2))) = true)
    (hmo : modeOf u ≤ 3) (hq : u.scf.queue.length < 16) (hf : (u.scf.queue.filter (fun x => x.tenant = c.tenant)).length < 2) :
    submitRequest u id tn images tick (ps.map (fun p => (p.1.val, p.2))) policy = updQueue { (freshFree u).2 with scf := { u.scf with queue := u.scf.queue ++ [c] } } := by
  unfold submitRequest
  rw [if_neg (by obtain h | h := hm <;> simp [hl, h]), if_neg (by simp [hk])]
  have e : ∀ c' : Change, c' = c → (if (submitChange (freshFree u).2 c').2 then (submitChange (freshFree u).2 c').1 else mgmtReply (submitChange (freshFree u).2 c').1 id 2 [])
      = updQueue { (freshFree u).2 with scf := { u.scf with queue := u.scf.queue ++ [c] } } := by
    rintro c' rfl
    rw [submitChange_ok (s := (freshFree u).2) hmo hq hf]; rfl
  refine e _ ?_
  rw [hc]
  simp only [List.isEmpty_map, List.filter_map, List.flatMap_map]
  rfl

/-- A frame that Truss accepts has its effect. -/
theorem onTruss_ok {s u : State} {h : TrussHdr} {ty : Nat} (ha : trussAccept s h ty = (u, true)) (f : State → State) : onTruss s h ty f = f u := by
  unfold onTruss; rw [ha]; rfl

/-- A request in a frame, for this module: performed for the tenant it acts for (08 R271). -/
theorem mgmtAt_here {s u : State} {h : TrussHdr} {id target tenant t : Nat} (ht : takeRequest s h id tenant = (u, some t))
    (hg : target = selfNumber u ∨ getB u Fld.TR_SELF_NUMBERED = false) (args : List Nat) (f : State → Nat → State) :
    mgmtAt s h id target tenant args f = f u t := by
  unfold mgmtAt; rw [ht]; dsimp only
  rw [if_pos (by obtain h | h := hg <;> simp [h])]

/-- A heavy operation whose pegs the governor grants: it runs, and returns them. -/
theorem withGrant_granted {s u : State} {o : GovOp} (h : grantNow s o = (u, true)) (f : State → State) : withGrant s o f = pegReturn (f u) o := by
  unfold withGrant; rw [h]; rfl

/-- One that is not granted waits with its request. -/
theorem withGrant_waits {s u : State} {o : GovOp} (h : grantNow s o = (u, false)) (f : State → State) : withGrant s o f = u := by
  unfold withGrant; rw [h]; rfl

/-- Serving a datagram leaves every register. -/
theorem served_regs (s : State) (c : Nat) : (served s c).regs = s.regs := by
  unfold served; dsimp only; split <;> rfl

/-- The mode that the served request finds. -/
theorem served_modeOf (s : State) (c : Nat) : modeOf (served s c) = modeOf s := by
  unfold modeOf getF; rw [served_regs]

/-- An enable that the served request finds. -/
theorem served_getB (s : State) (c : Nat) (f : RF) : getB (served s c) f = getB s f := by
  unfold getB getF; rw [served_regs]

/-- Serving a datagram takes no time. -/
theorem served_mono (s : State) (c : Nat) : (served s c).mono = s.mono := by
  unfold served; dsimp only; split <;> rfl

/-- The echo replies sent lately, as the served request finds them. -/
theorem served_echo (s : State) (c : Nat) : (served s c).net.echo = s.net.echo := by
  unfold served; dsimp only; split <;> rfl

/-- A request of a context that the engine may serve, outside Safe mode: its datagram leaves its queue, and it has its effect. -/
theorem onRequest_ok {s : State} {c : Nat} (h1 : neRuns s = true) (h2 : getB s (Fld.PT_CTX_VALID c) = true) (h3 : mayServe s c = true) (h4 : modeOf s ≠ 3)
    (f : State → State) : onRequest s c f = f (served s c) := by
  unfold onRequest; rw [if_neg (by rw [h1, h2, h3]; decide)]; dsimp only
  rw [if_neg (by rw [served_modeOf]; exact h4)]

/-- A BACnet request, where BACnet is enabled. -/
theorem onBacnet_ok {s : State} {c : Nat} (h1 : neRuns s = true) (h2 : getB s (Fld.PT_CTX_VALID c) = true) (h3 : mayServe s c = true) (h4 : modeOf s ≠ 3)
    (h5 : getB s (Fld.NE_CTX_CFG_BAC_EN c) = true) (f : State → State) : onBacnet s c f = f (served s c) := by
  unfold onBacnet; rw [onRequest_ok h1 h2 h3 h4, if_pos (by rw [served_getB]; exact h5)]

/-- A CoAP request, where Usras is enabled. -/
theorem onCoap_ok {s : State} {c : Nat} (h1 : neRuns s = true) (h2 : getB s (Fld.PT_CTX_VALID c) = true) (h3 : mayServe s c = true) (h4 : modeOf s ≠ 3)
    (h5 : getB s (Fld.NE_CTX_CFG_USRAS_EN c) = true) (f : State → State) : onCoap s c f = f (served s c) := by
  unfold onCoap; rw [onRequest_ok h1 h2 h3 h4, if_pos (by rw [served_getB]; exact h5)]

/-- A Usras request whose protection verifies. -/
theorem onUsras_ok {s u : State} {c p : Nat} {m : Option OscMsg} (h1 : neRuns s = true) (h2 : getB s (Fld.PT_CTX_VALID c) = true) (h3 : mayServe s c = true)
    (h4 : modeOf s ≠ 3) (h5 : getB s (Fld.NE_CTX_CFG_USRAS_EN c) = true) (h6 : oscReceive (served s c) c m = (u, some p)) (a : Nat) (f : State → Nat → State) :
    onUsras s c a m f = f u p := by
  unfold onUsras; rw [onCoap_ok h1 h2 h3 h4 h5, h6]

end Sys2Proof.Machine
end

