-- ==== Sys2Proof/Laws/Runs.lean ====
section
/-! SUPPORT. Laws/Runs.lean: an instruction of a runner replaces that runner's run and nothing else; reading the run back. -/

namespace Sys2Proof.Machine

/-- Replacing an entry by one for which `p` answers the same leaves whether any entry meets `p`. -/
theorem any_tabPut {α : Type} (p : Nat × α → Bool) {t : Tab α} {k : Nat} {a b : α} (h : tabGet? t k = some a) (hp : p (k, b) = p (k, a)) :
    (tabPut t k b).any p = t.any p := by
  induction t with
  | nil => simp [tabGet?] at h
  | cons x t ih =>
    obtain ⟨j, c⟩ := x
    simp only [tabGet?] at h
    simp only [tabPut]
    split at h
    · rename_i hj
      subst hj
      cases h
      simp [hp]
    · rename_i hj
      split at h
      · cases h
      · rename_i hk
        simp only [if_neg hk, if_neg hj, List.any_cons, ih h]

/-- A task's new run leaves which tasks wait for their gathers. -/
theorem gathersFirst_setRun {s : State} {e sl : Fin 8} {t : Task} (h : taskAt? s e sl = some t) (y : Run) (g : Fin 8) :
    gathersFirst (setTask s e sl { t with run := y }) g = gathersFirst s g :=
  any_tabPut _ h rfl

/-- A task's run is there exactly while its engine executes it. -/
theorem runOf?_task {s : State} {e sl : Fin 8} {x : Run} (h : runOf? s (.task e sl) = some x) :
    ∃ t, taskAt? s e sl = some t ∧ (t.phase = .running && !gathersFirst s e) = true ∧ t.run = x := by
  unfold runOf? at h
  dsimp only at h
  split at h
  · rename_i t ht
    split at h
    · rename_i hp; cases h; exact ⟨t, ht, hp, rfl⟩
    · cases h
  · cases h

theorem withRun_task {s : State} {e sl : Fin 8} {t : Task} (h : taskAt? s e sl = some t) (y : Run) :
    withRun s (.task e sl) y = setTask s e sl { t with run := y } := by
  unfold withRun; simp only [h]

/-- What an instruction does to the state, in terms of its run. -/
theorem onRun_eq {s : State} {r : Runner} {x : Run} (h : runOf? s r = some x) (f : Run → Run) : onRun s r f = withRun s r (f x) := by
  cases r with
  | joinery =>
    have : s.jrun = x := by simpa [runOf?] using h
    subst this; rfl
  | task e sl =>
    obtain ⟨t, ht, hp, rfl⟩ := runOf?_task h
    rw [withRun_task ht]
    unfold onRun onTask
    simp only [ht, hp, if_true]

theorem onTask_eq {s : State} {e sl : Fin 8} {x : Run} (h : runOf? s (.task e sl) = some x) (f : Run → Run) :
    onTask s e sl f = withRun s (.task e sl) (f x) := onRun_eq h f

/-- The run read back after it was replaced. -/
theorem runOf?_withRun {s : State} {r : Runner} {x y : Run} (h : runOf? s r = some x) : runOf? (withRun s r y) r = some y := by
  cases r with
  | joinery => rfl
  | task e sl =>
    obtain ⟨t, ht, hp, rfl⟩ := runOf?_task h
    have : taskAt? (setTask s e sl { t with run := y }) e sl = some { t with run := y } := tabGet?_tabPut_same _ _ _
    rw [withRun_task ht]
    unfold runOf?
    simp only [this, gathersFirst_setRun ht, hp, if_true]

/-- Replacing a run leaves every register field. -/
theorem withRun_regs (s : State) (r : Runner) (x : Run) : (withRun s r x).regs = s.regs := by
  cases r with
  | joinery => rfl
  | task e sl => unfold withRun; dsimp only; split <;> rfl

/-- Replacing a run leaves the points. -/
theorem withRun_pt (s : State) (r : Runner) (x : Run) : (withRun s r x).pt = s.pt := by
  cases r with
  | joinery => rfl
  | task e sl => unfold withRun; dsimp only; split <;> rfl

end Sys2Proof.Machine
end

