-- ==== Sys2Proof/Tests/Slice0.lean ====
section
/-! SUPPORT. Tests/Slice0.lean: the check of WellFormed on ill-formed commands, small tests whose results come from the spec's tables and worked
examples, and for every statement with hypotheses a state and operands that meet them. -/

open Sys2Proof Sys2Proof.Machine

set_option maxRecDepth 20000

/-! ## Helpers -/

/-- A state for the tests: fields set over the state after reset. -/
def st (l : List (RF × Nat)) : State := setFs State.reset l
/-- A header of a frame from module 5. -/
def hdr5 : TrussHdr := { lane := 0, src := 5, serial := 7, session := 1, seq := 1, term := 0 }
/-- A module of the estate in Commission that holds the Truss key and has dowels granted to module 5, with fields set over it. -/
def stTruss (l : List (RF × Nat)) : State :=
  { st ([(Fld.PW_MODE_MODE, 0), (Fld.TR_CFG_ROLE, 1)] ++ l) with
    se := { slots := [(0, { ty := 1, policy := 4, binding := 4095, key0 := some 1 })] }
    tr := { pools := [(0, { granted := [(5, 1)] }), (1, { granted := [(5, 1)] }), (2, { reserved := 1 }), (3, { granted := [(5, 1)] }), (4, { reserved := 1 })] } }
/-- What a command leaves, seen through `f`. -/
def after {α : Type} (c : Instr) (s : State) (f : State → α) : Option α :=
  match exec c s with
  | .next t => some (f t)
  | _ => none
/-- SV's joinery run with these locals' values and types. -/
def stLoc (vs : List Word) (ts : List VType) : State := { State.reset with jrun := { locals := vs.map (fun v => { value := v }), types := ts } }
/-- Local 0 and the flags after a command of joinery. -/
def loc0 (c : Instr) (s : State) : Option (Word × Quality × Nat) := after c s (fun t => ((t.jrun.loc 0).value, (t.jrun.loc 0).q, t.jrun.flags))

/-! ## WellFormed refuses ill-formed commands, one for each check -/

/-- A value of the addresses and GPAs below that is too large. -/
def big : Nat := 2 ^ 40
theorem test_wf_accepts : (Instr.registerWrite .sv 0x00110000 1).wf = true ∧ (Instr.gridTick).wf = true ∧ (Instr.unsub hdr5 [5]).wf = true ∧
    (Instr.frameReceive 0 { octets := [1, 2, 255] }).wf = true := by decide
theorem test_wf_addresses : (Instr.registerWrite .sv big 0).wf = false ∧ (Instr.unmappedAccess .sv big true).wf = false ∧ (Instr.mgmtRegisterRead ⟨hdr5, 1⟩ 2 3 big).wf = false ∧
    (Instr.mgmtRegisterWrite ⟨hdr5, 1⟩ 2 3 big 0).wf = false ∧ (Instr.mgmtRsp hdr5 1 0 [big]).wf = false := by decide
theorem test_wf_point_writes : (Instr.ptWrite 0 [{ port := 1, index := 65536 }]).wf = false ∧ (Instr.ptWrite 0 [{ port := 1, index := 1, ident := 65536 }]).wf = false ∧
    (Instr.ptWrite 0 [{ port := 1, index := 1, ctx := 64 }]).wf = false := by decide
theorem test_wf_images : (Instr.changeSubmit ⟨none, 1⟩ 0 0 [{ bytes := [256] }] none [] true).wf = false ∧ (Instr.changeSubmit ⟨none, 1⟩ 0 0 [] none [(1, [{ bytes := [256] }])] true).wf = false ∧
    (Instr.estateOffer hdr5 1 true [{ bytes := [256] }]).wf = false ∧ (Instr.estateOutcome hdr5 1 true 0 [{ bytes := [256] }]).wf = false := by decide
/-- A line cycle whose one channel gave a code of more than 24 bits. -/
def badCycle : SetCycle := { chans := [(0, [2 ^ 23])] }
theorem test_wf_metering : (Instr.lineCycleEnd 0 badCycle).wf = false ∧ (Instr.lineCycleEnd 0 { chans := [], measured := some (-1) }).wf = false ∧
    (Instr.lineCycleEnd 0 { chans := [(0, [1]), (1, [1, 2])] }).wf = false ∧ (Instr.lineCycleEnd 0 { chans := [], splits := [(2 ^ 48, 0)] }).wf = false ∧
    (Instr.urmsRefresh 0 [-1]).wf = false ∧ (Instr.vigilWindow [-1]).wf = false ∧ (Instr.powerFailWarning 0 [(0, badCycle)]).wf = false := by decide
theorem test_wf_truss : (Instr.credit hdr5 [4096]).wf = false ∧ (Instr.unsub hdr5 [big]).wf = false ∧
    (Instr.subRsp hdr5 false [({ gpa := big, period := 0, tenant := 0, ty := .bool }, 0)]).wf = false ∧ (Instr.subRequest hdr5 false [{ gpa := 0, period := 65536, tenant := 0, ty := .bool }]).wf = false ∧
    (Instr.subRequest hdr5 false [{ gpa := 0, period := 0, tenant := 4096, ty := .bool }]).wf = false ∧ (Instr.data hdr5 0 0 0 []).wf = false ∧ (Instr.data hdr5 40001 0 0 []).wf = false ∧
    (Instr.sync hdr5 { seq := 0, bindings := [], subs := [({ gpa := big, period := 0, tenant := 0, ty := .bool }, 0)] }).wf = false ∧
    (Instr.sync hdr5 { seq := 0, bindings := [], unsubs := [(big, 0)] }).wf = false ∧ (Instr.takeover { hdr5 with length := 97 }).wf = false := by decide
theorem test_wf_management : (Instr.mgmtUartRequest 1 (.regRead big)).wf = false ∧ (Instr.mgmtUartRequest 1 (.regWrite big 0)).wf = false ∧
    (Instr.mgmtUartRequest 1 (.change [{ bytes := [256] }] none)).wf = false := by decide
theorem test_wf_frames : (Instr.frameReceive 0 { octets := [256] }).wf = false ∧ (Instr.frameReceive 0 { octets := [], sec := 2 ^ 48 }).wf = false ∧
    (Instr.frameReceive 0 { octets := [], ns := 1000000000 }).wf = false ∧ (Instr.txDescPost 0 0 { buf := 0, len := 64, frame := [256] }).wf = false ∧
    (Instr.wakeFrame 0 [256]).wf = false ∧ (Instr.echoRequest 0 false 0 [256]).wf = false ∧ (Instr.coapAckPost 0 0 none 0 256 0).wf = false ∧
    (Instr.coapAckPost 0 0 none 0 0 256).wf = false ∧ (Instr.canFrameRx 0 0 false false false [256] false).wf = false ∧ (Instr.mbResponse 0 [256] false false).wf = false := by decide

/-! ## The queue and the words of the table -/

/-- INDEX.md: the table's rows give no bits. -/
theorem test_no_words : decodeTableWord 32 0xFFFFFFFF = none ∧ (State.reset.withFetchWord 32 5).pending = [] := by decide

/-! ## Decend, from the tables and worked examples of chapter 03 -/

/-- R83: a sum above 2,147,483,647 saturates and sets SAT. -/
theorem test_add_saturates : loc0 (.opAdd .joinery 0 1 2) (stLoc [0, 0x7FFFFFFF, 1] [.int32, .int32, .int32]) = some (0x7FFFFFFF, .good, 1) := by decide
/-- R83: an UINT32 difference below 0 saturates at 0. -/
theorem test_sub_unsigned : loc0 (.opSub .joinery 0 1 2) (stLoc [9, 1, 2] [.uint32, .uint32, .uint32]) = some (0, .good, 1) := by decide
/-- R83: ADDW wraps modulo 2^32 without SAT. -/
theorem test_addw_wraps : loc0 (.opAddw .joinery 0 1 2) (stLoc [0, 0xFFFFFFFF, 2] [.uint32, .uint32, .uint32]) = some (1, .good, 0) := by decide
/-- R83: −7 divided by 2 is −3, and its remainder −1. -/
theorem test_div_mod : loc0 (.opDiv .joinery 0 1 2) (stLoc [0, 0xFFFFFFF9, 2] [.int32, .int32, .int32]) = some (0xFFFFFFFD, .good, 0) ∧
    loc0 (.opMod .joinery 0 1 2) (stLoc [0, 0xFFFFFFF9, 2] [.int32, .int32, .int32]) = some (0xFFFFFFFF, .good, 0) := by decide
/-- R83, R81: a zero divisor sets DIVZ and the result has quality FAULT. -/
theorem test_div_zero : loc0 (.opDiv .joinery 0 1 2) (stLoc [0, 0xFFFFFFFF, 0] [.int32, .int32, .int32]) = some (0x80000000, .fault, 2) := by decide
/-- R84, the worked example: FMUL of 0xC000 (−0.5) by 0x0001 gives 0, of 0x4000 by 0x0001 gives 1. -/
theorem test_fmul_example : loc0 (.opFmul .joinery 0 1 2) (stLoc [9, 0x4000, 1] [.fix16, .fix16, .fix16]) = some (1, .good, 0) ∧
    loc0 (.opFmul .joinery 0 1 2) (stLoc [9, 0xFFFFC000, 1] [.fix16, .fix16, .fix16]) = some (0, .good, 0) := by decide
/-- R84: FNEG of 0x8000 gives 0x7FFF with SAT. -/
theorem test_fneg : loc0 (.opFneg .joinery 0 1) (stLoc [0, 0xFFFF8000] [.fix16, .fix16]) = some (0x7FFF, .good, 1) := by decide
/-- Table 6: ITOU of a negative gives 0, with SAT. -/
theorem test_itou : loc0 (.opItou .joinery 0 1) (stLoc [5, 0xFFFFFFFF] [.uint32, .int32]) = some (0, .good, 1) := by decide
/-- Table 11: TBEF of two instants across the wrap. -/
theorem test_tbef : loc0 (.opTbef .joinery 0 1 2) (stLoc [0, 0xFFFFFFF0, 0x10] [.bool, .ticks, .ticks]) = some (1, .good, 0) ∧
    loc0 (.opTbef .joinery 0 1 2) (stLoc [0, 0x10, 0xFFFFFFF0] [.bool, .ticks, .ticks]) = some (0, .good, 0) := by decide
/-- Table 9: SAR copies the sign, SHR does not; CLZ of 0 is 32. -/
theorem test_shifts : loc0 (.opSar .joinery 0 1 4) (stLoc [0, 0x80000000] [.uint32, .uint32]) = some (0xF8000000, .good, 0) ∧
    loc0 (.opShr .joinery 0 1 4) (stLoc [0, 0x80000000] [.uint32, .uint32]) = some (0x08000000, .good, 0) ∧
    loc0 (.opClz .joinery 0 1) (stLoc [0, 0] [.uint32, .uint32]) = some (32, .good, 0) := by decide
/-- Table 8: LIM with B above C gives B. -/
theorem test_lim : loc0 (.opLim .joinery 0 1 2) (stLoc [5, 9, 7] [.int32, .int32, .int32]) = some (9, .good, 0) := by decide
/-- The door fragment's task, running with this run. -/
def door (x : Run) : State := { State.reset with tasks := [(0, { phase := .running, run := x })] }
/-- What the door fragment's run holds after a command. -/
def ran {α : Type} (c : Instr) (x : Run) (f : Run → α) : Option α := (after c (door x) (fun t => (runOf? t (.task 0 0)).map f)).join
/-- The door fragment: the first EDGR primes its slot and gives FALSE; with the slot at FALSE and the contact TRUE it gives TRUE. -/
theorem test_door_edgr :
    ran (.opEdgr 0 0 1 0 0) { locals := [{ value := 1 }, {}], edges := [{}] } (fun r => ((r.loc 1).value, r.edges, r.cycles)) = some (0, [{ prev := 1, primed := true }], 3) ∧
    ran (.opEdgr 0 0 1 0 0) { locals := [{ value := 1 }, {}], edges := [{ primed := true }] } (fun r => ((r.loc 1).value, r.pc)) = some (1, 2) := by decide
/-- The door fragment: JF at word 3 jumps to word 7 when L1 is FALSE and falls through to word 4 when it is TRUE. -/
theorem test_door_jf : after (.opJf (.task 0 0) 1 3) (door { locals := [{}, {}], pc := 3 }) (fun t => (runOf? t (.task 0 0)).map (fun r => r.pc)) = some (some 7) ∧
    after (.opJf (.task 0 0) 1 3) (door { locals := [{}, { value := 1 }], pc := 3 }) (fun t => (runOf? t (.task 0 0)).map (fun r => r.pc)) = some (some 4) := by decide
/-- The door fragment: GET of a forced contact does not set QUAL; of an absent one it does. -/
theorem test_door_get : ran (.opGet 0 0 0 0) { locals := [{}], imports := [{ value := 1, q := .forced }] } (fun r => (r.loc 0, r.flags)) = some ({ value := 1, q := .forced }, 0) ∧
    ran (.opGet 0 0 0 0) { locals := [{}], imports := [{ value := 1, q := .absent }] } (fun r => (r.loc 0, r.flags)) = some ({ value := 1, q := .absent }, 16) := by decide
/-- A body of code in a task with no exports and no tables. -/
def body (ws : List Nat) : CodeCtx := { sec := 1, task := 0, base := 0, tenant := 37, td := {}, nConst := 0, code := instrs 0 ws, words := ws.length }
/-- Table 21: the words of the door fragment, whose bound is 14 cycles. -/
theorem test_door_bound : costBound (body [0x60000000, 0x70010000, 0x00000000, 0x52010003, 0x02020000, 0x42A00000, 0x64028000, 0x56000000]) = 14 := by decide
/-- R90: a loop of bound 24 whose body costs 9 cycles is one node of 266 cycles; END adds 1. -/
theorem test_loop_bound : costBound (body [0x53000018, 0x60010000, 0x60020000, 0x60030000, 0x54000000, 0x56000000]) = 267 := by decide
/-- R78: an opcode that no table assigns is refused with its address; the door fragment's words all have rows. -/
theorem test_opcodes : opInfo 0x1C = none ∧ opInfo 0xA0 = none ∧ (opInfo 0x7F).isSome = true := by decide

/-! ## Registers, clocks and faults -/

/-- 13, the worked example: RTC_TICK_LO read at 0x0000_FFFF_FFFF, RTC_TICK_HI after the carry. -/
theorem test_rtc_shadow : (after (.rtcTickLoRead .sv) { State.reset with rtc := { count := 0xFFFFFFFF } } (fun t =>
    (t.reply, after (.rtcTickHiRead .sv) { t with rtc := { t.rtc with count := 0x100000000 } } (fun u => u.reply)))) = some ([0xFFFFFFFF], some [0]) := by decide
/-- 00 R4: an access to no register raises a Note fault. -/
theorem test_unmapped : after (.unmappedAccess .sv 0xFFFFFF00 false) (st [(Fld.PW_PD_ON, 0x1E)]) (fun t => (t.reply, t.flt.queue.map (fun e => (e.det, e.sev)))) = some ([0], [(.regNone, .note)]) := by decide
/-- 14 R463: the module is in its reset stretch after power-on; Bring-up is mode 7. -/
theorem test_reset_mode : modeOf State.reset = 7 ∧ State.reset.pw.phase = .stretch := by decide
/-- 15 R482: an acknowledgement with another SEQ removes nothing and gives RESULT 0b01. -/
theorem test_ack_other_seq : after (.faultAck 9) { State.reset with flt := { queue := [{ det := .ptDenied, inst := 3, sev := .note, seq := 7 }], seq := 8 } }
    (fun t => (t.flt.queue.length, getF t Fld.FLT_ACK_RESULT)) = some (1, 1) := by decide
/-- 02 R36: a record whose age passes its refresh limit reads STALE; exactly at the limit it is GOOD. -/
theorem test_stale : ptQuality { State.reset with tick := 44 } { defined := true, writerKind := .task, refreshLimit := 10 } = .stale ∧
    ptQuality { State.reset with tick := 40 } { defined := true, writerKind := .task, refreshLimit := 10 } = .good := by decide
/-- The check values of CRC-32 (IEEE 802.3) and of the Modbus CRC over the nine digits. -/
theorem test_crc : crc32 [49, 50, 51, 52, 53, 54, 55, 56, 57] = 0xCBF43926 ∧ crc16 [49, 50, 51, 52, 53, 54, 55, 56, 57] = 0x4B37 := by decide

/-- FIPS 180-4's worked example: SHA-256 of the three octets "abc" (log 106). -/
theorem test_sha256 : sha256 [97, 98, 99] = [0xBA, 0x78, 0x16, 0xBF, 0x8F, 0x01, 0xCF, 0xEA, 0x41, 0x41, 0x40, 0xDE, 0x5D, 0xAE, 0x22, 0x23,
    0xB0, 0x03, 0x61, 0xA3, 0x96, 0x17, 0x7A, 0x9C, 0xB4, 0x10, 0xFF, 0x61, 0xF2, 0x00, 0x15, 0xAD] := by decide

/-! ## States and operands that meet the statements' hypotheses -/

theorem witness_RegisterCommandsComplete_a : reaches State.reset .sv = true ∧ (findReg Fld.PW_CFG_PROFILE.addr).isSome = true ∧ findReg 0xFFFFFF00 = none := by decide
theorem witness_RegisterCommandsComplete_b : taskAt? { State.reset with tasks := [(0, { phase := .running, run := { tenant := 4095 } })] } 0 0 =
    some { phase := .running, run := { tenant := 4095 } } ∧
    gathersFirst { State.reset with tasks := [(0, { phase := .running, run := { tenant := 4095 } })] } 0 = false := by decide
theorem witness_RegisterCommandsComplete_c : scfState { st [(Fld.SCF_STATE_STATE, 1)] with jrun := { tenant := 4095 } } = 1 := by decide
theorem witness_RegisterCommandsComplete_d : tabGet? ({ State.reset with shadows := [(shadowKey 0 .sv, [7])] } : State).shadows (shadowKey 0 .sv) = some [7] ∧
    (findReg (({ State.reset with jrun := { locals := [{ value := Word.ofNat Fld.PW_CFG_PROFILE.addr }] } } : State).jrun.loc 0).value.toNat).isSome = true := by decide
theorem witness_GridShadowReadsOneTick : State.reset.tick < tickMod ∧ Requester.num .sv ≠ Requester.num .ne1 := by decide
theorem witness_StepRunsFrontCommand : ({ State.reset with pending := [.sillPor, .gridTick] } : State).pending = .sillPor :: [.gridTick] := by decide

theorem witness_EmptyQueuePassesFabricCycle : State.reset.pending = [] ∧ State.reset.pt.waiting = [] ∧ State.reset.fc + 1 < tickLen State.reset ∧
    tickLen { State.reset with fc := 62499 } ≤ ({ State.reset with fc := 62499 } : State).fc + 1 := by decide

theorem witness_StepKeepsInvariant : Inv State.reset := by decide

theorem witness_QueueDrains : Inv ({ State.reset with pending := [.sillPor, .gridTick] } : State) := by decide

theorem witness_TimeAndFusesNeverFall : step State.reset = .next (idleCycle State.reset) := rfl

theorem witness_RegisterFieldsKeepTheirPlace : regsWf State.reset = true ∧ Fld.RTC_CTRL_LOAD.key ≠ Fld.RTC_CTRL_ALARM.key := by decide

theorem witness_ResetLevelsRestoreTheirFields : regsWf State.reset = true ∧ (1 ≤ Fld.MT_OVR_COUNT.key % 8 ∧ Fld.MT_OVR_COUNT.key % 8 ≠ 7) ∧ ¬ 1 ≤ Fld.RST_CAUSE_LEVEL.key % 8 := by decide

theorem witness_WriterWriteStampsRecord : let s : State := { State.reset with pt := { State.reset.pt with recs := [(7, { defined := true, writerKind := .field, writerId := 3 })] } }
    (ptAt (drainBank 16 s (subBank 7)) 7).defined = true ∧ (ptAt (drainBank 16 s (subBank 7)) 7).writerKind = .field ∧ (ptAt (drainBank 16 s (subBank 7)) 7).writerId = 3 ∧
    tabGet [] s.pt.waiting (subBank 7) = [] := by decide

theorem witness_CountersMoveByLevel : ∃ x : Run, runOf? { State.reset with tasks := [(0, { phase := .running, run := { counters := [{ cv := 0x7FFFFFFF }] } })] } (.task 0 0) = some x ∧ 0 < x.counters.length :=
  ⟨_, rfl, by decide⟩

theorem witness_IntegerArithmeticSaturates : runOf? { State.reset with tasks := [(0, { phase := .running, run := { types := [.int32] } })] } (.task 0 0) = some { types := [.int32] } ∧
    ({ types := [.int32] } : Run).ty 0 = .int32 := by decide

theorem witness_Fix16Arithmetic : (0xFFFFC000 : Word).toInt = -16384 ∧ fixMul 0x4000 1 = { w := 1 } ∧ fixMul 0xFFFFC000 1 = { w := 0 } ∧ fixShr 3 1 = { w := 2 } ∧ fixShr 0x7FFF 15 = { w := 1 } ∧ (0 : Word).toInt = 0 ∧
    runOf? { State.reset with tasks := [(0, { phase := .running, run := { types := [.fix16] } })] } (.task 0 0) = some { types := [.fix16] } := by decide

theorem witness_PresentedEntryIsHighestEarliest : presentedOf [{ det := .lgVigil, inst := 0, sev := .note }, { det := .lgVigil, inst := 1, sev := .severe }, { det := .lgVigil, inst := 2, sev := .severe }] =
    some { det := .lgVigil, inst := 1, sev := .severe } := by decide

theorem witness_PointTableKeepsCanonicalForm : tabWf {} State.reset.pt.recs = true := by decide
/-- A record of task 5 of tenant 7 for the tests. -/
def aPoint : PtRec := { defined := true, ty := .int32, tenant := 7, writerKind := .task, writerId := 5, refreshLimit := 10 }
/-- The state after reset with it at index 9, 15 ms after its stamp, in Commission. -/
def pointed : State := { st [(Fld.PW_MODE_MODE, 0)] with pt := { recs := [(9, aPoint)] }, tick := 60 }
/-- A write of it by its task. -/
def aWrite : PtWrite := { port := 2, index := 9, kind := .task, ident := 5, value := some 3 }
/-- O: PointCommandsComplete. -/
theorem wit_pointCommands :
    ((ptAt pointed 9).defined = true ∧ tabGet [] pointed.pt.waiting 1 = [] ∧ denyReason pointed (ptAt pointed 9) aWrite = none ∧ portBusy pointed 2 = false) ∧
    ((ptSeen pointed 9).defined = true ∧ tabGet? ({ pointed with cyc := { before := [(9, aPoint)] } } : State).cyc.before 9 = some aPoint) ∧
    (({ pointed with pt := { pointed.pt with lost := [aWrite] } } : State).pt.lost = [aWrite] ∧ tabGet [] pointed.pt.waiting (subBank 9) = []) ∧
    ((ptAt pointed 9).refreshLimit ≠ 0 ∧ (ptAt pointed 9).refreshLimit * 1000 < ptAge pointed (ptAt pointed 9)) ∧
    (Inv pointed ∧ (ptAt pointed 9).writerKind ≠ .meter ∧ (ptAt pointed 9).proxy = false ∧ holdsRight pointed 7 9 rightForce = true ∧
      pointed.pt.locked.contains 9 = false) ∧
    (ptAt { pointed with pt := { recs := [(9, { aPoint with relPend := true })] } } 9).relPend = true ∧ heldForScatter pointed { aPoint with relPend := true } = false := by decide
theorem witness_DecendMoveConvertComplete : runOf? { State.reset with tasks := [(0, { phase := .running })] } (.task 0 0) = some {} ∧ runOf? State.reset .joinery = some {} := by decide
theorem witness_DecendIntegerComplete : runOf? { State.reset with tasks := [(0, { phase := .running })] } (.task 0 0) = some {} ∧ runOf? State.reset .joinery = some {} := by decide
theorem witness_DecendRealFixComplete : runOf? { State.reset with tasks := [(0, { phase := .running })] } (.task 0 0) = some {} ∧ runOf? State.reset .joinery = some {} := by decide
theorem witness_DecendCompareControlComplete_a : runOf? { State.reset with tasks := [(0, { phase := .running })] } (.task 0 0) = some {} ∧ runOf? State.reset .joinery = some {} := by decide
theorem witness_DecendCompareControlComplete_b : runOf? { State.reset with jrun := { loops := [{ index := 0, bound := 1, body := 0, endl := 0 }] } } .joinery = some { loops := [{ index := 0, bound := 1, body := 0, endl := 0 }] } ∧
    ((({ locals := [{ value := 1 }] } : Run)).loc 0).value ≠ 0 ∧ (({} : Run).loc 0).value = 0 := by decide
theorem witness_DecendTablesPointsComplete : runOf? { State.reset with tasks := [(0, { phase := .running })] } (.task 0 0) = some {} ∧ runOf? State.reset .joinery = some {} := by decide
theorem witness_DecendBlocksComplete_a : runOf? { State.reset with tasks := [(0, { phase := .running })] } (.task 0 0) = some {} ∧ runOf? State.reset .joinery = some {} := by decide
theorem witness_DecendBlocksComplete_b : (({} : Run).alarms.getD 0 {}).held = none ∧ (({} : Run).alarms.getD 0 {}).ackLatch = false ∧ (({} : Run).loc 0).q ≠ .fault ∧ (({} : Run).loc 0).q ≠ .absent := by decide
theorem witness_TaskCommandsComplete_a : leastBy gatherBefore (({ State.reset with tasks := [(0, { phase := .released })] } : State).tasks.filter
    (fun kt => kt.1 / 8 == 0 && kt.2.phase == .released)) = some (0, { phase := .released }) ∧ commitDue State.reset = none ∧ State.reset.pt.waiting = [] := by decide
theorem witness_TaskCommandsComplete_b : engineBusy { State.reset with tasks := [(0, { phase := .ready })] } 0 = false ∧
    leastBy runBefore (({ State.reset with tasks := [(0, { phase := .ready })] } : State).tasks.filter
      (fun kt => kt.1 / 8 == 0 && (kt.2.phase == .ready || kt.2.phase == .preempted))) = some (0, { phase := .ready }) ∧
    ({ State.reset with tasks := [(0, { phase := .ready })] } : State).tasks.find? (fun kt => kt.1 / 8 == 0 && kt.2.phase == .running) = none := by decide
theorem witness_TaskCommandsComplete_c : engineBusy { State.reset with tasks := [(0, { phase := .ready }), (1, { deadline := 8, phase := .running })] } 0 = false ∧
    ({ State.reset with tasks := [(0, { phase := .ready }), (1, { deadline := 8, phase := .running })] } : State).tasks.find?
      (fun kt => kt.1 / 8 == 0 && kt.2.phase == .running) = some (1, { deadline := 8, phase := .running }) := by decide
theorem witness_TaskCommandsComplete_d : taskAt? { State.reset with tasks := [(0, { phase := .running })] } 0 0 = some { phase := .running } ∧ gathersFirst { State.reset with tasks := [(0, { phase := .running })] } 0 = false ∧
    forced State.reset .taskOverrun 0 = false ∧ forced State.reset .taskLimit 0 = false := by decide
theorem witness_TaskCommandsComplete_e : taskAt? { State.reset with tasks := [(0, { phase := .scatter, scatterDue := true })] } 0 0 =
    some { phase := .scatter, scatterDue := true } ∧ gathersFirst { State.reset with tasks := [(0, { phase := .scatter, scatterDue := true })] } 0 = false ∧ runOver { phase := .scatter } = true := by decide
theorem witness_TaskCommandsComplete_f : modeOf (st [(Fld.PW_MODE_MODE, 0), (Fld.LE_T_STATE_STATE 0 0, 2)]) = 0 ∧
    taskState (st [(Fld.PW_MODE_MODE, 0), (Fld.LE_T_STATE_STATE 0 0, 2)]) (taskKey 0 0) = 2 ∧
    taskState (st [(Fld.PW_MODE_MODE, 0), (Fld.LE_T_STATE_STATE 0 0, 3)]) (taskKey 0 0) = 3 ∧ Inv (st [(Fld.PW_MODE_MODE, 0), (Fld.LE_T_STATE_STATE 0 0, 2)]) := by decide
theorem witness_TaskCommandsComplete_g : engineRuns (st [(Fld.PW_PD_ON, 64)]) 6 = true ∧ blockHeld (st [(Fld.PW_PD_ON, 64)]) 0 = false := by decide
theorem witness_JoineryDefinitionsStage_a : scfState { st [(Fld.SCF_STATE_STATE, 1)] with jrun := { tenant := 4095, consts := [1, 0, 0, 0] } } = 1 ∧
    joinBreach { st [(Fld.SCF_STATE_STATE, 1)] with jrun := { tenant := 4095, consts := [1, 0, 0, 0] } } 0x90
      (fun k => ([1, 0, 0, 0].getD k (0 : Word)).toNat) = false ∧
    descBad { st [(Fld.SCF_STATE_STATE, 1)] with jrun := { tenant := 4095, consts := [1, 0, 0, 0] } } 0x90 (fun k => ([1, 0, 0, 0].getD k (0 : Word)).toNat) = false := by decide
theorem witness_JoineryDefinitionsStage_b : descBad State.reset 0x90 (fun k => ([0x80000, 0, 0, 0].getD k (0 : Word)).toNat) = true := by decide
theorem witness_JoineryDefinitionsStage_c :
    let s : State := { st [(Fld.SCF_STATE_STATE, 1)] with jrun := { tenant := 4095 }, scf := { jtasks := [{ taskNo := 0 }] } }
    ([0x91, 0x92, 0x93, 0x94, 0x95, 0x96, 0x97, 0x98, 0x99].all (fun op => !joinBreach s op (fun _ => 0) && !descBad s op (fun _ => 0))) = true := by decide
theorem witness_JoineryDefinitionsStage_d :
    let s : State := { st [(Fld.PT_VID_VALID 0, 1)] with jrun := { tenant := 4095 } }
    joinBreach s 0x9A (fun _ => 3) = false ∧ descBad s 0x9A (fun _ => 3) = false := by decide
theorem witness_ScarfCommandsComplete_a : getB State.reset Fld.TR_SELF_NUMBERED = false ∧ getF State.reset Fld.LC_STATE_STATE ≠ 4 ∧
    modeOf (st [(Fld.PW_MODE_MODE, 0)]) ≤ 3 ∧ State.reset.scf.queue = [] := by decide
theorem witness_ScarfCommandsComplete_b : scfState (st [(Fld.PW_MODE_MODE, 0)]) = 0 ∧ ({ id := 1 } : Change).parts = [] ∧ ({ id := 1 } : Change).estate = false := by decide
theorem witness_ScarfCommandsComplete_c : scfState (st [(Fld.SCF_STATE_STATE, 3), (Fld.SCF_TICK_LO_TARGET_LO, 2)]) = 3 ∧
    targetOk (st [(Fld.SCF_STATE_STATE, 3), (Fld.SCF_TICK_LO_TARGET_LO, 2)]) (getF (st [(Fld.SCF_STATE_STATE, 3), (Fld.SCF_TICK_LO_TARGET_LO, 2)]) Fld.SCF_TICK_LO_TARGET_LO
      + 2 ^ 32 * getF (st [(Fld.SCF_STATE_STATE, 3), (Fld.SCF_TICK_LO_TARGET_LO, 2)]) Fld.SCF_TICK_HI_TARGET_HI) = true ∧
    State.reset.scf.lastCommit ≠ some State.reset.el := by decide
theorem witness_ScarfCommandsComplete_d : scfState (st [(Fld.SCF_STATE_STATE, 4)]) = 4 ∧ State.reset.scf.target ≤ State.reset.tick ∧
    getB State.reset Fld.SCF_ESTATE_GO_HELD = false := by decide
theorem witness_ScarfCommandsComplete_e : ({ State.reset with scf := { nandDue := true } } : State).scf.nandDue = true := by decide
theorem witness_EstateCommandsComplete_a : ([0x20, 0x21, 0x22, 0x23, 0x24, 0x25, 0x26].all (fun ty => (trussAccept (stTruss []) hdr5 ty).2)) = true := by decide
theorem witness_EstateCommandsComplete_b : modeOf (trussAccept (stTruss []) hdr5 0x20).1 ≤ 3 ∧ (trussAccept (stTruss []) hdr5 0x20).1.scf.queue = [] := by decide
theorem witness_EstateCommandsComplete_c :
    let s : State := { stTruss [(Fld.SCF_STATE_STATE, 3), (Fld.LE_GSTAT_STEERED, 1)] with scf := { queue := [{ id := 9, estate := true }] } }
    let u := (trussAccept s hdr5 0x22).1
    u.scf.queue = [{ id := 9, estate := true }] ∧ scfState u = 3 ∧ getB u Fld.LE_GSTAT_STEERED = true ∧ u.tick + 200 < 900 ∧
      (trussAccept s hdr5 0x25).1.scf.queue = [{ id := 9, estate := true }] ∧ scfState (trussAccept s hdr5 0x25).1 = 3 ∧ forcedOnce u .scfInDoubt 0 = false := by decide
theorem witness_EstateCommandsComplete_d :
    let s : State := { stTruss [(Fld.SCF_STATE_STATE, 4)] with scf := { queue := [{ id := 9, estate := true }], coord := some { id := 9, parts := [{ module_ := 5 }] } } }
    scfState (trussAccept s hdr5 0x24).1 = 4 ∧ forcedOnce (trussAccept s hdr5 0x24).1 .scfInDoubt 0 = false ∧
      (trussAccept s hdr5 0x21).1.scf.coord = some { id := 9, parts := [{ module_ := 5 }] } ∧
      ([({ module_ := 5 } : Participant)].any (fun p => p.module_ = hdr5.src.val) = true) ∧ ([({ module_ := 5 } : Participant)].any (fun p => !p.excluded && p.ready.isNone) = true) := by decide
theorem witness_EstateCommandsComplete_e :
    let c : Coord := { id := 9, parts := [{ module_ := 5 }], target := some 900 }
    let s : State := { stTruss [] with scf := { coord := some c } }
    (trussAccept s hdr5 0x23).1.scf.coord = some c ∧ (c.parts.any (fun p => p.module_ = hdr5.src.val && !p.acked && !p.excluded) = true) ∧
      ({ c with parts := [] } : Coord).parts.filter (fun p => !p.excluded && !p.acked) = [] := by decide
theorem witness_LoopCommandsComplete_a : State.reset.sub < 4 ∧ engineRuns State.reset 8 = false ∧ commitDue State.reset = none ∧ State.reset.pt.waiting = [] ∧ engineRuns (st [(Fld.PW_PD_ON, 256)]) 8 = true ∧ modeOf (st [(Fld.PW_MODE_MODE, 1)]) ≤ 2 := by decide
theorem witness_LoopCommandsComplete_b : loopAt? { State.reset with loops := [(3, { due := some 0 })] } 3 = some { due := some 0 } ∧ ({ due := some 0 } : Loop).dfn.groupEn = false ∧
    nextUnit { State.reset with loops := [(3, { due := some 0 })] } (loopEngine 3) = some 3 := by decide
theorem witness_LoopCommandsComplete_c :
    let s : State := { State.reset with loops := [(3, { dfn := { groupEn := true, group := 1 }, due := some 0 })], groups := [(1, { members := [3] })] }
    (groupAt? s 1).isSome = true ∧ nextUnit s (loopEngine 3) = some 3 := by decide
theorem witness_LoopCommandsComplete_d :
    let s : State := { st [(Fld.PW_PD_ON, 256)] with loops := [(3, { reread := true })] }
    loopAt? s 3 = some { reread := true } ∧ blockHeld s (8 + loopEngine 3) = false ∧
      (toQ15 (ptAt s (outputOf s { reread := true }).1).ty (ptValue (ptAt s (outputOf s { reread := true }).1)) (outputOf s { reread := true }).2.1
        (outputOf s { reread := true }).2.2).isSome = true := by decide
theorem witness_MeteringCommandsComplete_a : domainOn (st [(Fld.PW_PD_ON, 512)]) 9 = true ∧ (∀ i, forcedOnce (st [(Fld.PW_PD_ON, 512)]) .mtOverrange i = false) ∧
    (vsRegs (st [(Fld.MT_VS_CFG_EN 0, 1)]) 0).en = true ∧ meHeld { State.reset with me := { State.reset.me with portHeld := false } } = false ∧ currentSlot (st [(Fld.PW_PD_ON, 512)]) = none :=
  ⟨by decide, fun _ => rfl, by decide, by decide, rfl⟩
theorem witness_MeteringCommandsComplete_b : tabGet? { State.reset with me := { State.reset.me with ring := [(256, { words := [1, 2, 3, 4] })] } }.me.ring ((1 : Fin 4).val * 256 + (0 : Fin 256).val) =
    some { words := [1, 2, 3, 4] } := by decide
theorem witness_MeteringCommandsComplete_c :
    let s : State := { st [(Fld.PW_PD_ON, 512), (Fld.MT_PULSE_CFG_EN 1, 1), (Fld.MT_PULSE_CFG_QPP 1, 5)] with me := { State.reset.me with backlogs := [(1, 5)] } }
    getB s (Fld.MT_PULSE_CFG_EN 1) = true ∧ getF s (Fld.MT_PULSE_CFG_QPP 1) ≠ 0 ∧ getF s (Fld.MT_PULSE_CFG_QPP 1) ≤ tabGet 0 s.me.backlogs 1 ∧ pulseReady s 1 = true ∧
      domainOn s 9 = true := by decide
theorem witness_MeteringCommandsComplete_d : (pulseAt { State.reset with me := { State.reset.me with pulses := [(2, { active := true })] } } 2).active = true := by decide
theorem witness_MeteringCommandsComplete_e : currentSlot { State.reset with me := { State.reset.me with slotA := some { seq := 3, valid := true } } } = some ({ seq := 3, valid := true }, false) := by decide
theorem witness_MeteringCommandsComplete_f :
    let s : State := { st [(Fld.PW_PD_ON, 512)] with me := { State.reset.me with circs := [(3, {})], accs := [(24, { interval := 1 })] } }
    domainOn s 9 = true ∧ takeOffset s .lgAudit 3 = (0, s) ∧ (List.range 8).all (auditAcc s 0 3) = false := by decide
theorem witness_MeteringCommandsComplete_g :
    let s : State := { st [(Fld.PW_PD_ON, 512)] with me := { State.reset.me with circs := [(3, {})] } }
    domainOn s 9 = true ∧ circAt? s 3 = some {} ∧ (∀ kc ∈ s.me.circs, (List.range 8).all (auditAcc s 0 kc.1) = true) ∧ s.me.resetInt.contains 3 = false := by decide
theorem witness_MeteringCommandsComplete_h : getB (st [(Fld.MT_CAL_CMD_BUSY, 1)]) Fld.MT_CAL_CMD_BUSY = true ∧ modeOf (st [(Fld.PW_MODE_MODE, 5)]) = 5 ∧
    getB (st [(Fld.MT_VIGIL_CFG_EN, 1)]) Fld.MT_VIGIL_CFG_EN = true := by decide
theorem witness_EstateMembershipCompletes_a : ([0x01, 0x02, 0x03, 0x04, 0x05, 0x06, 0x07, 0x10, 0x11, 0x12, 0x13, 0x31, 0x38, 0x39].all (fun ty =>
    (trussAccept (stTruss []) hdr5 ty).2)) = true := by decide
theorem witness_EstateMembershipCompletes_b :
    let s := stTruss [(Fld.TR_SELF_ACTIVE_ROLE, 2)]
    isManager (trussAccept s hdr5 0x01).1 = true ∧
      (tabGet? (trussAccept { s with tr := { s.tr with bindings := [(5, 7)] } } hdr5 0x01).1.tr.bindings 5).isNone = false ∧
      numberFor (trussAccept { s with tr := { s.tr with bindings := [(5, 7)] } } hdr5 0x01).1.tr.bindings hdr5.serial.toNat 511 = some 5 := by decide
theorem witness_EstateMembershipCompletes_c :
    let s := stTruss [(Fld.TR_SELF_ACTIVE_ROLE, 2)]
    isManager (trussAccept { s with tr := { s.tr with dir := [(5, { state := 1 })] } } hdr5 0x03).1 = true ∧
      (dirAt (trussAccept { s with tr := { s.tr with dir := [(5, { state := 1 })] } } hdr5 0x03).1 5).state = 1 ∧
      (dirAt { s with tr := { s.tr with dir := [(5, { state := 2 })] } } 5).state = 2 := by decide
theorem witness_EstateMembershipCompletes_d : seeksManager (stTruss []) = true ∧ isManager (trussAccept (stTruss []) hdr5 0x02).1 = false ∧
    getF (trussAccept (stTruss []) hdr5 0x02).1 Fld.TR_TERM_TERM ≤ hdr5.term.val := by decide
theorem witness_EstateMembershipCompletes_e :
    let s := stTruss [(Fld.TR_SELF_ACTIVE_ROLE, 3), (Fld.TR_SELF_NUMBERED, 1), (Fld.TR_SELF_MGR_PRESENT, 1)]
    activeRole s = 3 ∧ getB s Fld.TR_SELF_MGR_PRESENT = true ∧ getB s Fld.TR_SELF_NUMBERED = true ∧ s.tr.left = false ∧
      activeRole (trussAccept s hdr5 0x38).1 = 3 ∧ (trussAccept { s with tr := { s.tr with epoch := some 0 } } hdr5 0x04).1.tr.epoch.isSome = true := by decide
theorem witness_EstateMembershipCompletes_f :
    let s := stTruss [(Fld.TR_SELF_ACTIVE_ROLE, 3)]
    ({ s with tr := { s.tr with lastSyncAck := some 0 } } : State).tr.lastSyncAck = some 0 ∧ s.mono ≤ 0 + 4000 ∧ Inv s := by decide
theorem witness_TrussTrafficCompletes : isManager (trussAccept (stTruss []) hdr5 0x13).1 = false ∧ modeOf (trussAccept (stTruss []) hdr5 0x13).1 ≠ 3 ∧
    isManager (trussAccept (stTruss [(Fld.TR_SELF_ACTIVE_ROLE, 2)]) hdr5 0x13).1 = true ∧ modeOf (trussAccept (stTruss [(Fld.TR_SELF_ACTIVE_ROLE, 2)]) hdr5 0x13).1 ≠ 3 ∧ trRole (stTruss []) ≠ 0 ∧ gpaModule 5 ≠ 511 := by decide
theorem witness_ManagementRequestsComplete :
    (takeRequest (stTruss []) hdr5 7 4095).2 = some 4095 ∧ getB (takeRequest (stTruss []) hdr5 7 4095).1 Fld.TR_SELF_NUMBERED = false ∧
      getF (takeRequest (stTruss []) hdr5 7 4095).1 Fld.LC_STATE_STATE ≠ 4 ∧
      (let s := stTruss [(Fld.TR_SELF_NUMBERED, 1), (Fld.TR_SELF_NUMBER, 3)]
       (takeRequest s hdr5 7 4095).2 = some 4095 ∧ selfNumber (takeRequest s hdr5 7 4095).1 = 3 ∧ getB (takeRequest s hdr5 7 4095).1 Fld.TR_SELF_NUMBERED = true) := by decide
/-- A frame of 64 octets for the broadcast address, of the Truss EtherType, with its FCS. -/
def frame64 : List Nat := let l := [0xFF, 0xFF, 0xFF, 0xFF, 0xFF, 0xFF, 2, 0, 0, 0, 0, 1, 0x08, 0x00] ++ List.replicate 46 0; l ++ octetsLe 4 (crc32 l)
/-- MAC 2 with its link up and VLAN 0 open to context 0. -/
def stMac : State := st [(Fld.PW_PD_ON, 2048), (Fld.MACn_LINK_UP 2, 1), (Fld.PT_VID_VALID 0, 1), (Fld.PT_VID_MAC_MASK 0, 1), (Fld.PT_CTX_VALID 0, 1), (Fld.MEM_POOL_RESERVE, 1)]
theorem witness_MacCommandsComplete_a : linkUp stMac 2 = true ∧ domainOn stMac (macDomain 2) = true ∧ frame64.length = 64 ∧ tagCount frame64 = 0 ∧ f16 frame64 12 ≠ 0x8808 ∧
    addrOk stMac 2 (frame64.take 6) = true := by decide
theorem witness_MacCommandsComplete_l : ¬ fifoSize stMac 2 < 0 + frame64.length := by decide
theorem witness_MacCommandsComplete_b : fcsOk frame64 = true ∧ fcsOk (frame64.take 60 ++ [1, 2, 3, 4]) = false := by decide
theorem witness_MacCommandsComplete_c : floorTags stMac 2 frame64 = .ok 0 0 0 false ∧ frameClass stMac 2 (untagged frame64 0) 0 = some (2, 2, 0) := by decide
theorem witness_MacCommandsComplete_d :
    let s : State := { setF stMac (Fld.MACn_RING_EN 2 2) 1 with macs := [(2, { rx := [(8192, { own := true })] })] }
    (∃ u, rxBuffer s 2 2 0 [] = some u ∧ getB u (Fld.MACn_RING_EN 2 2) = true ∧ (tabGet {} (macAt u 2).rx (2 * 4096 + getF u (Fld.MACn_RPTR_HEAD 2 2))).own = true) :=
  ⟨_, rfl, by decide, by decide⟩
theorem witness_MacCommandsComplete_e :
    let s := st [(Fld.MACn_CFG_RX_PAUSE_EN 2, 1), (Fld.MACn_STATUS_PAUSED 2, 1)]
    getB (startTime (macCount s 2 15) (tmPause 2)) (Fld.MACn_CFG_RX_PAUSE_EN 2) = true ∧ getB (startTime (macCount s 2 15) (tmPause 2)) (Fld.MACn_STATUS_PAUSE_STUCK 2) = false ∧
      getB s (Fld.MACn_STATUS_PAUSED 2) = true ∧ forced s .macPauseWd 2 = false ∧ timeRan s (tmQuanta 2) (quantaCycles s 2) = true ∧ timeRan s (tmHeld 2) (pwdCycles s 2) = true ∧
      timeRan s (tmPause 2) (1000 * msCycles) = true := by decide
theorem witness_MacCommandsComplete_f :
    let s := st [(Fld.MACn_RING_EN 2 2, 1), (Fld.MACn_RING_LOG2N 2 2, 4), (Fld.MACn_RING_EN 2 5, 1), (Fld.MACn_RING_LOG2N 2 5, 4)]
    ringCount (ringSetUp s 2 2) 2 2 + 1 ≠ ringSize (ringSetUp s 2 2) 2 2 ∧ (tabGet {} (macAt (ringSetUp s 2 2) 2).rx (2 * 4096 + getF (ringSetUp s 2 2) (Fld.MACn_RPTR_TAIL 2 2))).len = 0 ∧
      ringCount (ringSetUp s 2 5) 2 5 + 1 ≠ ringSize (ringSetUp s 2 5) 2 5 ∧ (takeNeBuf (ringSetUp s 2 5)).isSome = true := by decide
/-- A frame of 60 octets posted for the module itself. -/
def post60 : TxPost := { buf := ⟨0, by decide⟩, len := ⟨60, by decide⟩, ctx := ⟨0, by decide⟩, tagMode := ⟨0, by decide⟩, vid := ⟨0, by decide⟩, pcp := ⟨0, by decide⟩, ptpOff := ⟨0, by decide⟩, tsReq := false, forModule := true, frame := List.replicate 60 0 }
/-- MAC 2 with that frame at the head of TX2. -/
def stTx (up : Nat) : State := { st [(Fld.PW_PD_ON, 2048), (Fld.MACn_LINK_UP 2, up), (Fld.MACn_RING_EN 2 6, 1), (Fld.MACn_RING_LOG2N 2 6, 4)] with
  macs := [(2, { tx := [(24576, { own := true, post := post60 })] })] }
theorem witness_MacCommandsComplete_g : domainOn (stTx 1) (macDomain 2) = true ∧ getB (stTx 1) (Fld.MACn_STATUS_PAUSED 2) = false ∧
    pickRing (stTx 1) 2 = some (6, macAt (stTx 1) 2) ∧ txHead? (setMac (stTx 1) 2 (macAt (stTx 1) 2)) 2 6 = some { own := true, post := post60 } ∧
    linkUp (setMac (stTx 1) 2 (macAt (stTx 1) 2)) 2 = true ∧ txTags (setMac (stTx 1) 2 (macAt (stTx 1) 2)) 2 6 post60 = some [] ∧
    linkUp (setMac (stTx 0) 2 (macAt (stTx 0) 2)) 2 = false := by decide
theorem witness_MacCommandsComplete_h : (macAt { State.reset with macs := [(2, { tsq := [{ seqId := 0, msgType := 2, gap := false, ring := 0, desc := 0, sec := 0, ns := 0 }] })] } 2).tsq = { seqId := 0, msgType := 2, gap := false, ring := 0, desc := 0, sec := 0, ns := 0 } :: [] ∧ forced State.reset .macTsqOvf 2 = false := by decide
theorem witness_MacCommandsComplete_i :
    let s := st [(Fld.MACn_LINK_TRAINING 2, 1), (Fld.MACn_LINK_DISABLED 3, 1), (Fld.MACn_LINK_UP 4, 1), (Fld.PW_CFG_PROFILE, 2)]
    getB s (Fld.MACn_LINK_TRAINING 2) = true ∧ forcedOnce s .macTrain 2 = false ∧ forced s .macTrain 2 = false ∧ getB s (Fld.MACn_LINK_DISABLED 2) = false ∧
      getB s (Fld.MACn_LINK_DISABLED 3) = true ∧ linkUp s 4 = true ∧ forcedRate s 4 = 0 ∧ eeeOn s 4 = true ∧ getB s (Fld.MACn_LINK_LPI 4) = false ∧ pickRing s 4 = none ∧
      rateOffered (getF s (Fld.MACn_CFG_MODE 4)) 1 = true ∧ timeRan s (tmTrain 2) (500 * msCycles) = true ∧ timeRan s (tmTx 4) (idleCycles s 4) = true := by decide
theorem witness_MacCommandsComplete_j :
    let s := st [(Fld.MACn_LINK_TRAINING 1, 1), (Fld.MACn_LINK_UP 0, 1)]
    linkUp s 0 = true ∧ getB s (Fld.MACn_LINK_TRAINING 0) = false ∧ getB s (Fld.MACn_LINK_PEG_WAIT 0) = false ∧ getB s (Fld.MACn_LINK_TRAINING 1) = true ∧
      (macAt { s with macs := [(1, { trainDue := true })] } 1).trainDue = true := by decide
theorem witness_MacCommandsComplete_k :
    let s := st [(Fld.PW_MODE_MODE, 4), (Fld.MACn_STATUS_WAKE_ARMED 2, 1), (Fld.MACn_WCTRL_EN 2 0, 1)]
    modeOf s = 4 ∧ getB s (Fld.MACn_STATUS_WAKE_ARMED 2) = true ∧ wakeCause s 2 frame64 = 4 := by decide
/-- Context 3 of a running module, with BACnet and Usras on, with exports and imports. -/
def stNet : State := { st [(Fld.PW_MODE_MODE, 1), (Fld.PW_PD_ON, 16), (Fld.PT_CTX_VALID 3, 1), (Fld.NE_CTX_CFG_BAC_EN 3, 1), (Fld.NE_CTX_CFG_USRAS_EN 3, 1), (Fld.NE_CTX_CFG_V4_EN 3, 1), (Fld.NE_CTX_V4_ADDR 3, 77), (Fld.NE_CTX_CFG_V6_EN 3, 1), (Fld.NE_CTX_CFG_PREFIX 3, 24)] with
  net := { defs := [(5, { number := 5, dir := 2, ctx := 3, index := 100, object := 4194309 }), (6, { number := 6, dir := 2, usras := true, ctx := 3, index := 101, cls := 1 }), (7, { number := 7, dir := 1, usras := true, ctx := 3, index := 102 })],
           obs := [{ number := 5, client := 9, usras := false, lifetime := 60, sent := some 1 }, { number := 6, client := 9, usras := true, sent := some 1 }, { number := 6, client := 10, usras := false, sent := some 4 }] } }
theorem witness_BacnetCommandsComplete_a : neRuns stNet = true ∧ getB stNet (Fld.PT_CTX_VALID 3) = true ∧ modeOf stNet ≠ 3 ∧ modeOf (st [(Fld.PW_MODE_MODE, 3)]) = 3 ∧
    getB stNet (Fld.NE_CTX_CFG_BAC_EN 3) = true ∧ getB stNet (Fld.NE_CTX_CFG_V4_EN 3) = true ∧ getF stNet (Fld.NE_CTX_V4_ADDR 3) = 77 ∧ getB stNet (Fld.NE_CTX_CFG_V6_EN 3) = true := by decide
theorem witness_BacnetCommandsComplete_b : ((tabGet [] stNet.net.echo 3).filter (fun t => decide (stNet.mono < t + 4000))).length < 10 ∧
    (ctxV6 stNet 3).contains (BitVec.ofNat 128 (0xFE80 * 2 ^ 112)).toNat = true := by decide
theorem witness_BacnetCommandsComplete_c : readProp (served stNet 3) 3 4194309 .objectType none = .num 1 ∧ readProp (served stNet 3) 3 4194310 .objectType none = .err "OBJECT UNKNOWN_OBJECT" ∧
    readProp { served stNet 3 with pt := { stNet.pt with recs := [(100, { ty := .real32 })] } } 3 4194309 .presentValue none = .real 0 := by decide
theorem witness_BacnetCommandsComplete_d : bacObject? (served stNet 3) 3 4194309 = some { number := 5, dir := 2, ctx := 3, index := 100, object := 4194309 } ∧
    writeWord { number := 5, dir := 2, ctx := 3, index := 100, object := 4194309 } (.real 7) = .ok 7 ∧ (4194309 : Nat) ≠ deviceId (served stNet 3) 3 ∧
    obsRoom (served stNet 3) 3 = true ∧ inRange (served stNet 3) 3 none = true := ⟨by decide, rfl, by decide, by decide, rfl⟩
theorem witness_BacnetCommandsComplete_e : (((deviceId stNet 3, deviceName stNet 3) :: (bacObjects stNet 3).map (fun d => (d.object, objectName stNet d))).find? (fun x => x.1 == 4194309)).isSome = true := by decide
theorem witness_BacnetCommandsComplete_f : (takeChange { stNet with pt := { stNet.pt with chq0 := [100] } } 0).2 = some 100 ∧
    (stNet.net.defs.find? (fun kd => kd.2.index == 100 && kd.2.dir != 1)).isSome = true ∧ (obsAt? stNet 5 9).isSome = true ∧ (obsAt? stNet 6 10).isSome = true := by decide
/-- An IPv4 datagram to the context's address, with the protocol given. -/
def ip4 (proto : Nat) (udp : List Nat) : List Nat := List.replicate 12 0 ++ [8, 0, 0x45, 0, 0, 0, 0, 0, 0, 0, 64, proto, 0, 0, 0, 0, 0, 0, 0, 0, 0, 77] ++ udp
theorem witness_BacnetCommandsComplete_g : mayServe stNet 3 = true ∧ ipVerdict (served stNet 3) 3 (ip4 6 []) = some .ip ∧ ipVerdict (served stNet 3) 3 (ip4 1 []) = none ∧
    ipVerdict (served stNet 3) 3 (ip4 17 ([0, 0, 0xBA, 0xC0, 0, 0, 0, 0] ++ [0x81, 10, 0, 8, 1, 0x80])) = some .bac ∧ ipVerdict (served stNet 3) 3 (ip4 17 [0, 0, 0x16, 0x33]) = some .app := by decide
theorem witness_BacnetCommandsComplete_h : rpmLen (rpmResults (served stNet 3) 3 []) ≤ 1476 ∧ 1476 < rpmLen (rpmResults (served stNet 3) 3 (List.replicate 211 (0, []))) := by decide
theorem witness_BacnetCommandsComplete_i : timeRan stNet (tmNotify 5 9) (3000 * msCycles) = true ∧ timeRan stNet (tmLife 5 9) (60 * (1000 * msCycles)) = true := by decide
/-- The context with a pair that permits OSCORE. -/
def stOsc : State := { stNet with se := { slots := [(0, { ty := 1, policy := 16, binding := 4095, key0 := some 1 })] } }
theorem witness_CoapCommandsComplete_a : getB stOsc (Fld.NE_CTX_CFG_USRAS_EN 3) = true ∧ (oscReceive (served stOsc 3) 3 (some { peer := 8, piv := 40, ok := true })).2 = some 8 ∧
    (oscReceive (served stOsc 3) 3 none).2 = none := by decide
theorem witness_CoapCommandsComplete_e : mayServe stOsc 3 = true ∧ obsRoom (oscReceive (served stOsc 3) 3 (some { peer := 8, piv := 40, ok := true })).1 3 = true ∧
    (usras? (oscReceive (served stOsc 3) 3 (some { peer := 8, piv := 40, ok := true })).1 3 1 0 0).isSome = true := by decide
theorem witness_CoapCommandsComplete_f : timeRan stOsc (tmRefresh 6) (getF stOsc Fld.NE_CFG2_REFRESH * (1000 * msCycles)) = true ∧ timeRan stOsc (tmObserve 7) (10000 * msCycles) = true ∧
    timeRan stOsc (tmEndpoint 7) (3 * 60 * 1000 * msCycles) = true ∧ forcedOnce stOsc .neEndpoint 3 = false ∧
    (oscReceive stOsc 3 (some { peer := 0, piv := 40, ok := true })).2 = some (0 % 2 ^ 64) ∧
    forcedOnce { stOsc with flt := { stOsc.flt with inj := some { det := .neEndpoint, inst := 3, arg := 0, symbols := 0 } } } .neEndpoint 3 = true := by decide
theorem witness_CoapCommandsComplete_b : (usras? stOsc 3 1 0 0).isSome = true ∧ usras? stOsc 3 2 0 0 = none ∧ cborWord .uint32 (.int 5) = some 5 ∧ endpImport? stOsc 7 = some { number := 7, dir := 1, usras := true, ctx := 3, index := 102 } ∧
    (impAt stOsc 7).registered = false ∧ (impAt { stOsc with net := { stOsc.net with imps := [(7, { registered := true, sent := some 5 })] } } 7).registered = true := by decide
theorem witness_CoapCommandsComplete_c :
    let u : State := { stOsc with tasks := [(2, { dfn := { imageId := 9, taskNo := 4, tenant := 0 }, run := { alarms := [{}] } })] }
    (u.tasks.find? (fun kt => kt.2.dfn.imageId == 9 && kt.2.dfn.taskNo == 4 && some kt.2.dfn.tenant == ctxTenant? u 3)).isSome = true := by decide
theorem witness_CoapCommandsComplete_d : (obsAt? stOsc 6 9).isSome = true ∧ (impAt { stOsc with net := { stOsc.net with imps := [(7, { sent := some 4 })] } } 7).sent = some 4 ∧
    timeRan stOsc (tmObserve 7) (ackWaits 4) = true ∧ timeRan stOsc (tmNotify 6 9) (ackWait 1) = true ∧ neRuns stOsc = true := by decide
/-- PTP in use on MAC 2, whose port is in the state given. -/
def stPtp (p : Nat) : State := st [(Fld.PW_PD_ON, 16), (Fld.NE_PTP_CFG_TYPE, 1), (Fld.NE_PTP_PORT_EN 2, 1), (Fld.NE_PTP_PORT_STATE 2, p), (Fld.NE_PTP_STAT_GM, 1)]
theorem witness_PtpCommandsComplete_a : ptpOn (stPtp 9) 2 = true ∧ portSlave (stPtp 9) 2 = true ∧ ptpOn (stPtp 6) 2 = true ∧ portState (stPtp 6) 2 = 6 ∧ getB (stPtp 6) Fld.NE_PTP_STAT_GM = true := by decide
/-- An Announce of a better master, heard twice on MAC 3. -/
def betterMaster : PtpAnnounce := { sender := 5, gm := 7, priority1 := 1, clockClass := 6, accuracy := 0, variance := 0, priority2 := 0, steps := 0 }
theorem witness_PtpCommandsComplete_c :
    let s : State := { setFs (stPtp 6) [(Fld.NE_PTP_PORT_EN 3, 1), (Fld.NE_PTP_PORT_STATE 3, 9), (Fld.NE_PTP_STAT_GM, 0)] with net := { State.reset.net with ptp := { foreign := [(3, [(betterMaster, 2)])] } } }
    ptpOn s 2 = true ∧ portState s 2 = 6 ∧ getB s Fld.NE_PTP_STAT_GM = false ∧ bestOf s = some (3, betterMaster) ∧ timeRan s (tmAnnSend 2) (logCycles (getF s Fld.NE_PTP_INTV_LOG_ANNOUNCE)) = true ∧
      timeRan s (tmSync 2) (logCycles (getF s Fld.NE_PTP_INTV_LOG_SYNC)) = true ∧ timeRan s (tmAnn 2) (annTimeout s) = true ∧ getF s Fld.NE_PTP_CFG_DOMAIN = 0 ∧ ptpUnsup 13 false = true := by decide
theorem witness_PtpCommandsComplete_b :
    let s : State := { stPtp 9 with net := { State.reset.net with ptp := { syncWait := some (7, 100), reqT3 := some (7, 50), lastMs := some 4, exch := some 4, pendSet := some (9, 5), delay := some 2 } } }
    ptpOn s 2 = true ∧ portSlave s 2 = true ∧ s.net.ptp.syncWait = some (7, 100) ∧ s.net.ptp.reqT3 = some (7, 50) ∧ s.net.ptp.pendSet = some (9, 5) ∧ s.tc.sec ≠ 5 ∧ s.net.ptp.delay = some 2 := by decide
/-- Channel 1 on the bus with Roll Call, two nodes, an input entry, a request waiting and one in a buffer. -/
def stCan (l : List (RF × Nat)) (x : CanState) : State := { st ([(Fld.PW_PD_ON, 4096), (Fld.CANn_CFG_EN 1, 1), (Fld.CANn_STAT_STATE 1, 0), (Fld.CANn_RC_CFG_EN 1, 1), (Fld.CANn_FID_EN 1 0, 1)] ++ l) with
  field := { State.reset.field with can := [(1, x)], maps := [(4, { kind := .canIn, channel := 1, timeout := 5 })] } }
/-- Node 3 present. -/
def canNodes : CanState := { nodes := [(3, { uid := 77, hb := 10, st := 3 })] }
theorem witness_CanCommandsComplete_a : canOn (stCan [] canNodes) 1 = true ∧ canSends (stCan [] canNodes) 1 = true ∧ rcOn (stCan [] canNodes) 1 = true ∧ feRuns (stCan [] canNodes) = true ∧
    canTransmits (stCan [] canNodes) 1 = true ∧ canStatus (stCan [] canNodes) 1 = 0 ∧ forced (stCan [] canNodes) .rcEvent 1 = false ∧ getB (stCan [(Fld.CANn_CFG_FD_EN 1, 0)] canNodes) (Fld.CANn_CFG_FD_EN 1) = false := by decide
theorem witness_CanCommandsComplete_b : filterOf (recDown (stCan [] canNodes) 1) 1 5 false false = some 0 ∧ filterOf (recDown (stCan [] canNodes) 1) 1 5 true false = none ∧
    getB (stCan [(Fld.CANn_CFG_FD_EN 1, 1)] canNodes) (Fld.CANn_CFG_FD_EN 1) = true := by decide
theorem witness_CanCommandsComplete_c : nextReq (cross (stCan [] { reqs := [{ key := 9 }] }) dcqFieldTx) 1 [{ key := 9 }] = some { key := 9 } ∧ forcedOnce (cross (stCan [] { reqs := [{ key := 9 }] }) dcqFieldTx) .canReqFailed 1 = false ∧
    txReq (stCan [] { bufs := [{ key := 9 }] }) 1 = some { key := 9 } ∧ 128 ≤ getF (stCan [(Fld.CANn_STAT_TEC 1, 128)] {}) (Fld.CANn_STAT_TEC 1) := by decide
theorem witness_CanCommandsComplete_d : canStatus (stCan [(Fld.CANn_STAT_STATE 1, 2)] { recovering := true }) 1 = 2 ∧ (canAt (stCan [(Fld.CANn_STAT_STATE 1, 2)] { recovering := true }) 1).recovering = true ∧
    canStatus (mapCan (canFields (stCan [] {}) 1 2 0) 1 (fun x => { x with off := true })) 1 ≠ 3 ∧ canStatus (mapCan (canFields (stCan [(Fld.CANn_STAT_STATE 1, 3)] {}) 1 3 0) 1 (fun x => { x with off := false })) 1 = 3 ∧
    getB (stCan [(Fld.CANn_CFG_LISTEN 1, 1)] {}) (Fld.CANn_CFG_LISTEN 1) = true := by decide
theorem witness_CanCommandsComplete_e : (canAt (stCan [] { detect := some (false, 2) }) 1).detect = some (false, 2) ∧ (canAt (stCan [] { detect := some (true, 2) }) 1).detect = some (true, 2) ∧
    mapEnt? (stCan [] {}) 4 = some { kind := .canIn, channel := 1, timeout := 5 } := by decide
theorem witness_CanCommandsComplete_f : takeOffset (stCan [] {}) .canAudit 1 = (0, stCan [] {}) ∧
    (getF (stCan [(Fld.CANn_CNT_COUNT 1 9, 1)] {}) (Fld.CANn_CNT_COUNT 1 9) + txPending (stCan [(Fld.CANn_CNT_COUNT 1 9, 1)] {}) 1) % 2 ^ 32 ≠ getF (stCan [(Fld.CANn_CNT_COUNT 1 9, 1)] {}) (Fld.CANn_CNT_COUNT 1 8) := by decide
theorem witness_CanCommandsComplete_g : (canAt (stCan [] canNodes) 1).nodes.find? (fun kv => kv.2.uid == 77) = some (3, { uid := 77, hb := 10, st := 3 }) ∧
    tabGet? (canAt (stCan [] canNodes) 1).nodes 3 = some { uid := 77, hb := 10, st := 3 } := by decide
theorem witness_CanCommandsComplete_h : timeRan (stCan [] canNodes) (tmCall 1) (getF (stCan [] canNodes) (Fld.CANn_RC_CFG_CALL_PERIOD 1) * 1000 * msCycles) = true ∧
    timeRan (stCan [] canNodes) (tmCanIn 4) (5 * msCycles) = true ∧ heartbeatMissed (stCan [] canNodes) 1 { uid := 77, hb := 10, st := 3 } = true ∧ (stCan [] canNodes).tick % 4000 = 0 ∧
    timeRan (stCan [] canNodes) (tmDetect 1) (10000 * msCycles) = true ∧ timeRan (startTime (stCan [] canNodes) (tmDetect 1)) (tmDetect 1) (1000 * msCycles) = false := by decide
/-- A read entry and a write entry of station 9 on UART 2. -/
def mbRead9 : MapEntry := { kind := .mbRead, channel := 18, node := 9, fn := 3, width := 16 }
def mbWrite9 : MapEntry := { kind := .mbWrite, channel := 18, node := 9, fn := 6, width := 16 }
/-- UART 2 on, with those entries. -/
def stUart (x : UartState) : State := { st [(Fld.PW_PD_ON, 4096), (Fld.UARTn_CFG_EN 2, 1), (Fld.UARTn_STAT_IDLE 2, 0)] with
  field := { State.reset.field with uart := [(2, x)], maps := [(4, mbRead9), (5, mbWrite9), (6, { kind := .gpioIn, channel := 24, pin := 7 })] } }
theorem witness_FieldLineCommandsComplete_a : uartOn (stUart {}) 2 = true ∧ mapEnt? (stUart {}) 4 = some mbRead9 ∧ groupWith (stUart {}) 2 4 = [(4, mbRead9)] ∧
    (stationAt (stUart {}) 2 9).absent = false ∧ (uartAt (stUart {}) 2).due.contains 4 = false ∧ forced (stUart {}) .mbEvent 2 = false ∧ feRuns (stUart {}) = true := by decide
theorem witness_FieldLineCommandsComplete_b : (uartAt (stUart { writes := [5] }) 2).writes = 5 :: [] ∧ mbWrite9.node ≠ 0 ∧
    (uartAt (stUart { due := [4] }) 2).due = 4 :: [] := by decide
theorem witness_FieldLineCommandsComplete_c : let f := [9, 3, 2, 0, 5]; let g := f ++ octetsLe 2 (crc16 f); 4 ≤ g.length ∧ g.length ≤ 256 ∧ crc16 (g.take (g.length - 2)) = leOctets (g.drop (g.length - 2)) := by decide
theorem witness_FieldLineCommandsComplete_d : (uartAt (stUart { trans := some { job := .read 4, station := 9, fn := 3, request := [] } }) 2).trans.isSome = true ∧
    (stationAt (stUart { stations := [(9, { absent := true })] }) 2 9).absent = true ∧ (pollGroups (stUart {}) 2).find? (fun g => g.any (fun kv => kv.2.node == 9)) = some [(4, mbRead9)] := by decide
theorem witness_FieldLineCommandsComplete_f : timeRan (stUart {}) (tmPoll 4) (0 * msCycles) = true ∧ lineQuiet (stUart {}) 2 = true ∧ deOn (stUart {}) 2 = false ∧
    timeRan (stUart {}) (tmMb 2) (getF (stUart {}) (Fld.UARTn_TIMING_TIMEOUT_MS 2) * msCycles) = true ∧
    timeRan (stUart {}) (tmProbe 2 9) (getF (stUart {}) (Fld.UARTn_TIMING_ABSENT_POLL_MS 2) * msCycles) = true := by decide
theorem witness_FieldLineCommandsComplete_g : (MapEntry.node { mbWrite9 with node := 0 } = 0) ∧ (uartAt (stUart { trans := some { job := .pause, request := [] } }) 2).trans = some { job := .pause, request := [] } :=
  ⟨rfl, rfl⟩
theorem witness_FieldLineCommandsComplete_e : getB (stUart {}) (Fld.UARTn_CFG_EN 2) = true ∧ uartOn (mapUart (uartFields (setF (stUart {}) (Fld.UARTn_STAT_IDLE 2) 1) 2 3 0) 2 (fun x => { x with off := false })) 2 = false ∧
    ((entriesOf (readLand { stUart {} with lands := tabPut (stUart {}).lands 7 true } 7) .gpioIn 24).find? (fun kv => kv.2.pin == 7)).isSome = true := by decide
/-- The memories powered and mounted. -/
def stMem (m : MemState) : State := { st [(Fld.PW_MODE_MODE, 1), (Fld.PW_PD_ON, 56), (Fld.MEM_STAT_NAND_READY, 1), (Fld.MEM_STAT_DRAM_READY, 1), (Fld.MEM_DRAM_STAT_SPARE_LEFT, 6553), (Fld.MEM_NAND_STAT_SPARE_LEFT, 320), (Fld.MEM_CE_CFG_LIMIT, 2)] with mem := m }
theorem witness_MemoryCommandsComplete_a : regionOn (stMem {}) 0 = true ∧ (stMem {}).flt.inj = none ∧ regionOn (stMem {}) 5 = true ∧ nandOn (stMem {}) = true ∧ domainOn (stMem {}) 4 = true := by decide
theorem witness_MemoryCommandsComplete_f : placeHas 5 0x1999998FF = true ∧ placeHas 5 0x199999900 = false ∧ timeRan (stMem {}) (tmHour 1) hourCycles = true ∧ modeOf (stMem {}) ≠ 7 ∧
    (stMem { nandNow := true }).mem.nandNow = true ∧ (stMem {}).mem.twin = none ∧ (stMem { twin := some (5, 6) }).mem.twin = some (5, 6) ∧ (stMem {}).tick % 400 = 0 := by decide
theorem witness_MemoryCommandsComplete_b : getF (stMem { hour := [(1, 3)] }) Fld.MEM_CE_CFG_LIMIT < tabGet 0 (stMem { hour := [(1, 3)] }).mem.hour 1 ∧ (stMem { hour := [(1, 3)] }).mem.hourRaised.contains 1 = false ∧
    tabGet 0 (stMem {}).mem.hour 1 ≤ getF (stMem {}) Fld.MEM_CE_CFG_LIMIT := by decide
theorem witness_MemoryCommandsComplete_c : (stMem { qualify := [7] }).mem.qualify.contains 7 = true ∧ getF (mapMem (stMem { qualify := [7] }) (fun m => { m with qualify := m.qualify.erase 7 })) Fld.MEM_DRAM_STAT_SPARE_LEFT ≠ 0 ∧
    forced (stMem {}) .dramSpares 0 = false ∧ (stMem { copying := some 7 }).mem.copying = some 7 ∧ (stMem { refresh := [5] }).mem.refresh.contains 5 = true ∧ (stMem {}).mem.badBlocks.contains 6 = false ∧ (stMem {}).mem.lostImages = [] := by decide
theorem witness_MemoryCommandsComplete_d : sparesReported (stMem {}) ≠ 0 ∧ sparesReported (setF (stMem {}) Fld.MEM_NAND_STAT_SPARE_LEFT 0) = 0 := by decide
theorem witness_MemoryCommandsComplete_e : ∃ v, v = incF (setFs (stMem {}) [(Fld.MEM_POOL_RESERVE, 0), (Fld.MEM_POOL_COMMON_FREE, 1792)]) Fld.MEM_AUDIT_AUDITS ∧ (∀ b, takeOffset v .fabricAudit b = (0, v)) ∧ balanceOk v 2 0 = true ∧ balanceOk v 3 0 = true :=
  ⟨_, rfl, fun _ => rfl, by decide, by decide⟩
theorem witness_SillCommandsComplete_a : tabGet? { State.reset with shadows := [(shadowKey 2 .sv, [5])] }.shadows (shadowKey 2 .sv) = some (5 :: []) ∧
    tabGet? State.reset.shadows (shadowKey 2 .sv) = none ∧ ({ State.reset with rtc := { pendLoad := some 9 } } : State).rtc.pendLoad = some 9 := by decide
theorem witness_SillCommandsComplete_b :
    let s : State := { st [(Fld.RTC_CTRL_ALARM_ARM, 1), (Fld.RTC_ALARM_LO_ALARM_LO, 7), (Fld.RTC_ALARM_HI_ALARM_HI, 0), (Fld.RTC_WAKE_EN, 1), (Fld.PW_MODE_MODE, 1)] with rtc := { count := 7 } }
    getB s Fld.RTC_CTRL_ALARM_ARM = true ∧ rtcAlarm s ≤ s.rtc.count ∧ getB s Fld.RTC_WAKE_EN = true ∧ modeOf s ≠ 4 ∧ modeOf s ≠ 5 ∧ modeOf (st [(Fld.PW_MODE_MODE, 4)]) = 4 ∧
      modeOf (st [(Fld.PW_MODE_MODE, 5)]) = 5 := by decide
theorem witness_SillCommandsComplete_c :
    let s := st [(Fld.PW_VMAIN_IN_RANGE, 1)]
    getB s Fld.PW_VMAIN_IN_RANGE = true ∧ timeRan s tmDrift (100000 * msCycles) = true ∧ forcedOnce s .rtcDrift 0 = false ∧ -10000 ≤ (10000 : BitVec 24).toInt ∧ (10000 : BitVec 24).toInt ≤ 10000 ∧ 10000 < (10001 : BitVec 24).toInt ∧ s.rtc.driftFault = none := by decide
theorem witness_SillCommandsComplete_d :
    let s := st [(Fld.TMP_SRC_EN 3, 1), (Fld.TMP_SRC_ACTION 3, 1), (Fld.TMP_SRC_EN 4, 1), (Fld.TMP_SRC_ACTION 4, 2), (Fld.LC_STATE_STATE, 1), (Fld.TMP_SRC_EN 5, 0)]
    getB s (Fld.TMP_SRC_EN 3) = true ∧ tamperAction (setF s Fld.TMP_LIVE_STATE 8) 3 < 2 ∧ getB s (Fld.TMP_SRC_EN 4) = true ∧ 2 ≤ tamperAction (setF s Fld.TMP_LIVE_STATE 16) 4 ∧ getB s (Fld.TMP_SRC_EN 5) = false := by decide
theorem witness_SillCommandsComplete_f : timeRan State.reset tmLoad usCycles = true ∧ askedAgain State.reset Fld.RTC_CTRL_LOAD = false ∧ askedAgain (askAgain State.reset Fld.RTC_CTRL_LOAD) Fld.RTC_CTRL_LOAD = true ∧
    State.reset.rtc.pendLoad = none ∧ timeRan State.reset tmWipe 32768 = true ∧ sourceMet State.reset [.switch 0 []] 3 = true ∧ sourceMet State.reset [.switch 0 []] 4 = false ∧
    (8192 * 4 : Nat) % (max 1 (getF State.reset Fld.RTC_WAKE_PERIOD) * 32768) = 0 := by decide
theorem witness_SillCommandsComplete_e : State.reset.se.queue = [] ∧ getF State.reset Fld.LC_STATE_STATE ≠ 2 := by decide
theorem witness_KeyAndLifeCommandsComplete_a : getB (setFs State.reset [(Fld.KS_CMD_OP.bank 0, 1), (Fld.KS_CMD_KEY.bank 0, 0)]) (Fld.KS_CMD_BUSY.bank 0) = false ∧
    getB (setFs (st [(Fld.KS_CMD_BUSY.bank 0, 1)]) [(Fld.KS_CMD_OP.bank 0, 1), (Fld.KS_CMD_KEY.bank 0, 0)]) (Fld.KS_CMD_BUSY.bank 0) = true ∧ timeRan State.reset tmNonce (600000 * msCycles) = true ∧ State.reset.se.nonceOk = false ∧ getF State.reset Fld.LC_STATE_STATE = 0 := by decide
/-- A module of the estate in Commission with a key in pair 3 and a key command waiting. -/
def stKey : State := { st [(Fld.PW_PD_ON, 8192), (Fld.LC_STATE_STATE, 2), (Fld.MEM_STAT_WIPING, 0), (Fld.KS_EXPECT_CHECK.bank 0, 5)] with
  se := { slots := [(3, { ty := 1, policy := 16, key0 := some 1, kcv0 := 5 })], queue := [{ req := 0, op := 3, pair := 3, key := 0 }], nonceOk := true } }
theorem witness_KeyAndLifeCommandsComplete_b : stKey.se.queue = { req := 0, op := 3, pair := 3, key := 0 } :: [] ∧ seRuns stKey = true ∧ getF stKey Fld.LC_STATE_STATE = 2 ∧ stKey.se.nonceOk = true ∧
    ((slotAt stKey 3).key 0).isSome = true ∧ (slotAt stKey 3).kcv0 = getF stKey (Fld.KS_EXPECT_CHECK.bank 0) ∧
    getF (setF stKey Fld.LC_CMD_TARGET (getF stKey Fld.LC_CMD_TARGET)) Fld.LC_STATE_STATE = 2 := by decide
theorem witness_ModeCommandsComplete_a : modeOf (st [(Fld.PW_MODE_MODE, 1)]) = 1 ∧ modeOf (st [(Fld.PW_MODE_MODE, 0)]) = 0 := by decide
theorem witness_ModeCommandsComplete_b : modeOf (st [(Fld.PW_MODE_MODE, 3)]) = 3 ∧ safeCauseOther (st [(Fld.PW_MODE_MODE, 3)]) = false := by decide
theorem witness_ModeCommandsComplete_c : modeOf (st [(Fld.PW_MODE_MODE, 1)]) = 1 ∧ getF (st [(Fld.PW_MODE_MODE, 1)]) Fld.LC_STATE_STATE ≠ 2 := by decide
theorem witness_ModeCommandsComplete_d : scfState (st [(Fld.PW_MODE_MODE, 1), (Fld.RTC_WAKE_EN, 1)]) = 0 ∧
    wakeArmed (st [(Fld.PW_MODE_MODE, 1), (Fld.RTC_WAKE_EN, 1)]) = true := by decide
theorem witness_ModeCommandsComplete_e : modeOf (st [(Fld.PW_MODE_MODE, 4)]) = 4 := by decide
theorem witness_ResetSourcesComplete_a : sourceLevel State.reset 5 = 1 ∧ resetActive State.reset = true := by decide
theorem witness_ResetSourcesComplete_b : domainOn (st [(Fld.PW_PD_ON, 0x7F)]) 2 = true ∧ engineRuns (st [(Fld.PW_PD_ON, 0x7F)]) 3 = true := by decide
theorem witness_ResetSourcesComplete_c : (mapPw State.reset (fun p => { p with held := [0], phase := .asserted })).pw.held = [0] := by decide
theorem witness_ResetSourcesComplete_d : blockDomain? 0 = some 6 ∧ domainOn (mapPw (st [(Fld.PW_PD_ON, 0x7F)]) (fun p => { p with phase := .run })) 6 = true ∧
    resetActive (mapPw (st [(Fld.PW_PD_ON, 0x7F)]) (fun p => { p with phase := .run })) = false ∧
    blockIdle (mapPw (st [(Fld.PW_PD_ON, 0x7F)]) (fun p => { p with phase := .run })) 0 = true := by decide
theorem witness_ResetSourcesComplete_e : (mapPw (st [(Fld.PW_MODE_MODE, 4)]) (fun p => { p with nResetLow := false })).pw.nResetLow = false ∧
    modeOf (st [(Fld.PW_MODE_MODE, 4)]) = 4 ∧ modeOf State.reset = 7 ∧ timeRan State.reset tmPin (50 * usCycles) = true := by decide
theorem witness_BringUpCommandsComplete_a : State.reset.pw.phase = .stretch ∧ State.reset.pw.level = 0 := by decide
theorem witness_BringUpCommandsComplete_b : (mapPw State.reset (fun p => { p with phase := .loading })).pw.phase = .loading := by decide
theorem witness_BringUpCommandsComplete_c : (mapPw State.reset (fun p => { p with phase := .boot, grants := [.crypto] })).pw.grants.contains .crypto = true ∧
    (mapPw State.reset (fun p => { p with phase := .boot, grants := [.crypto] })).pw.triedOther = false := by decide
theorem witness_BringUpCommandsComplete_d : (mapPw (st [(Fld.PW_MODE_MODE, 1)]) (fun p => { p with grants := [.dram] })).pw.grants.contains .dram = true ∧
    modeOf (st [(Fld.PW_MODE_MODE, 1)]) ≠ 7 ∧ Inv (st [(Fld.PW_MODE_MODE, 1)]) := by decide
theorem witness_BringUpCommandsComplete_e : bitOf (getF (st [(Fld.CLK_PEND_RELEASE_PENDING, 32), (Fld.PW_PD_ON, 32)]) Fld.CLK_PEND_RELEASE_PENDING) 5 = true ∧
    domainOn (st [(Fld.CLK_PEND_RELEASE_PENDING, 32), (Fld.PW_PD_ON, 32)]) 5 = true ∧
    forcedOnce (st [(Fld.CLK_PEND_RELEASE_PENDING, 32), (Fld.PW_PD_ON, 32)]) .clkAbandon 5 = false ∧
    forced (raise (st [(Fld.CLK_PEND_RELEASE_PENDING, 32)]) .clkAbandon 5) .clkAbandon 5 = false ∧
    bitOf (mapPw State.reset (fun p => { p with domsHeld := 32 })).pw.domsHeld 5 = true := by decide
theorem witness_BringUpCommandsComplete_f : bitOf (getF (st [(Fld.CLK_PEND_ABANDONED, 32)]) Fld.CLK_PEND_ABANDONED) 5 = true := by decide
theorem witness_BringUpCommandsComplete_g :
    let s : State := { State.reset with pw := { configDue := true }, scf := { nand := some {} } }
    s.scf.stored = [] ∧ (bringUpMode (restoreRegs s [])).1 ≠ 3 ∧ getF s Fld.LC_STATE_STATE ≠ 4 := by decide
theorem witness_BringUpCommandsComplete_i :
    let s : State := { State.reset with pw := { configDue := true, grants := [.crypto] }, scf := { nand := some {}, stored := [(0, (0, 0, [], imageTag []))] } }
    s.scf.stored ≠ [] ∧ grantNow s .crypto = (s, true) ∧ badImages s [] = [] ∧ (bringUpMode (restoreRegs s [])).1 ≠ 3 := by
  refine ⟨by simp, ?_, ?_, by decide⟩
  · unfold grantNow; rw [if_pos (by decide)]
  · unfold badImages
    have h1 : forced ({ State.reset with pw := { configDue := true, grants := [.crypto] }, scf := { nand := some {}, stored := [(0, (0, 0, [], imageTag []))] } } : State) .imageLost 0 = false := by rfl
    simp only [List.filter_cons, List.filter_nil, h1]
    simp
    exact (by decide : (0 : Nat) ∉ State.reset.mem.lostImages)
theorem witness_BringUpCommandsComplete_j : (grantNow (mapPw State.reset (fun p => { p with configDue := true })) .crypto).2 = false := by decide
theorem witness_BringUpCommandsComplete_h : (mapPw State.reset (fun p => { p with phase := .recovery })).pw.phase = .recovery ∧
    (mapPw State.reset (fun p => { p with phase := .loadWait })).pw.phase = .loadWait ∧
    (mapPw State.reset (fun p => { p with level := 2 })).pw.level = 2 ∧
    timeRan State.reset tmStretch (stretchMs State.reset * msCycles) = true ∧ timeRan State.reset tmRetry (100 * usCycles) = true ∧
    timeRan State.reset (tmRelease 5) (holdCycles State.reset 5) = true := by decide
theorem witness_GovernorCommandsComplete_a : modeOf (mapPw State.reset (fun p => { p with waiting := [] })) = 7 ∧ domainOn State.reset 5 = false := by decide
theorem witness_GovernorCommandsComplete_b : opDomain .nand = 3 ∧ domainOn (st [(Fld.PW_PD_ON, 8)]) 3 = true := by decide
theorem witness_GovernorCommandsComplete_c : getF State.reset Fld.PW_GOV_HELD + opPegs State.reset (.domain 2) ≤ getF State.reset Fld.PW_BUDGET_BUDGET := by decide
theorem witness_GovernorCommandsComplete_d : (mapPw State.reset (fun p => { p with grants := [.nand] })).pw.grants.contains .nand = true := by decide
theorem witness_GovernorCommandsComplete_e : State.reset.pw.waiting[0]? = some { op := .domain 2, cls := 1 } := by decide
theorem witness_GovernorCommandsComplete_f : domainOn (st [(Fld.PW_PD_ON, 16)]) 4 = true ∧ takeOffset (st [(Fld.PW_PD_ON, 16)]) .govAudit 0 = (0, st [(Fld.PW_PD_ON, 16)]) := by decide
theorem witness_GovernorCommandsComplete_g : (mapPw State.reset (fun p => { p with failStep := 2 })).pw.failStep ≠ 0 ∧ State.reset.pw.failStep = 0 ∧
    getB (st [(Fld.PW_SILL_ON_MAIN, 0)]) Fld.PW_SILL_ON_MAIN = false := by decide
theorem witness_GovernorCommandsComplete_h : State.reset.shed = {} ∧ forced State.reset .saturated 0 = false ∧ getB State.reset Fld.FLT_SAT_SATURATED = false ∧
    getF (st [(Fld.FLT_SAT_SHED_STEPS, 19)]) Fld.FLT_SAT_SHED_STEPS = 19 ∧ forced State.reset .vio33Overload 0 = false := by decide
theorem witness_GovernorCommandsComplete_i : vmainBad 8000 = true ∧ vmainIn 12000 = true ∧ State.reset.tick % 400 = 0 ∧
    timeRan State.reset tmVio (100 * msCycles) = true ∧ ageDue { State.reset with mono := 400 } { op := .domain 2, cls := 1 } = true ∧
    Inv (st [(Fld.PW_MODE_MODE, 1)]) ∧ modeOf (st [(Fld.PW_MODE_MODE, 1)]) ≤ 3 := by decide
theorem witness_GovernorCommandsComplete_j : domainOn (st [(Fld.PW_PD_ON, 512)]) (opDomain .frontEnd) = true ∧
    getB (st [(Fld.PW_PD_ON, 512)]) Fld.MT_STAT_STARTING = false ∧ getB (st [(Fld.PW_PD_ON, 512)]) Fld.MT_STAT_FULL_PATH = false ∧
    (mapPw State.reset (fun p => { p with grants := [.wake 6, .refresh] })).pw.grants.contains (.wake 6) = true ∧
    (mapPw State.reset (fun p => { p with grants := [.wake 6, .refresh] })).pw.grants.contains .refresh = true := by decide
/-- An entry for the tests. -/
def anEntry : FltEntry := { det := .ptDenied, inst := 3, sev := .note, seq := 7 }
/-- The state after reset with that entry in the queue. -/
def queued : State := { State.reset with flt := { queue := [anEntry], seq := 8 } }
/-- O: FaultCommandsComplete. -/
theorem wit_faultCommands :
    (Inv State.reset ∧ detects State.reset .tempHot 0 = true ∧
      State.reset.flt.queue.findIdx? (sameIdent .tempHot 0) = none ∧ State.reset.flt.backlog = [] ∧ State.reset.flt.queue.length < 32 ∧ Severity.note ≠ .critical) ∧
    (({ State.reset with flt := { backlog := [anEntry] } } : State).flt.backlog = anEntry :: [] ∧
      ({ State.reset with flt := { backlog := [anEntry] } } : State).flt.queue.length < 32) ∧
    (presented queued = some anEntry ∧ anEntry.seq = 7) ∧ queued.flt.logged.contains anEntry.seq = false ∧
    (Inv (st [(Fld.PW_MODE_MODE, 0)]) ∧ (modeOf (st [(Fld.PW_MODE_MODE, 0)]) = 0 ∨ modeOf (st [(Fld.PW_MODE_MODE, 0)]) = 2) ∧ getF (st [(Fld.PW_MODE_MODE, 0)]) Fld.LC_STATE_STATE < 2 ∧ (st [(Fld.PW_MODE_MODE, 0)]).flt.inj = none ∧
      Detector.ofCode? 0x10 = some .taskOverrun ∧ Detector.taskOverrun.forceOffered = true) ∧ forceOver State.reset = true := by decide
end

section
/-! Proofs/Steps: every command answers a next state that keeps the invariant, and so does every step (O8). -/

namespace Sys2Proof.Machine

/-- A step with no command waiting passes a fabric cycle. -/
theorem step_of_pending_nil {s : State} (h : s.pending = []) : step s = .next (idleCycle s) := by
  unfold step; rw [h]

/-- A step takes the command at the front of the queue. -/
theorem step_of_pending_cons {s : State} {c : Instr} {q : List Instr} (h : s.pending = c :: q) : step s = exec c (s.withPending q) := by
  unfold step; rw [h]

/-- The invariant says nothing of the queue of commands. -/
theorem Inv.withPending {s : State} (h : Inv s) (q : List Instr) : Inv (s.withPending q) := h

/-- Every command answers a next state that keeps the invariant, the queue, elapsed time and the fuses: one case per row of the dispatch, each by the
lemma about that row's operation. -/
theorem exec_answers (c : Instr) (s : State) : Answers s (exec c s) := by
  cases c with
  | registerWrite => exact execRegisterWrite_answers ..
  | unmappedAccess => exact execUnmappedAccess_answers ..
  | leGridLoRead => exact execLeGridLoRead_answers ..
  | leGridHiRead => exact execLeGridHiRead_answers ..
  | gridTick => exact execGridTick_answers ..
  | taskGather => exact execTaskGather_answers ..
  | taskDispatch => exact execTaskDispatch_answers ..
  | taskScatter => exact execTaskScatter_answers ..
  | stopScatter => exact execStopScatter_answers ..
  | taskRunCmd => exact execTaskRunCmd_answers ..
  | taskStopCmd => exact execTaskStopCmd_answers ..
  | taskHoldCmd => exact execTaskHoldCmd_answers ..
  | taskStepCmd => exact execTaskStepCmd_answers ..
  | taskClearStats => exact execTaskClearStats_answers ..
  | maxcostClear => exact execMaxcostClear_answers ..
  | taskResume => exact execTaskResume_answers ..
  | opNop => exact execOpNop_answers ..
  | opMov => exact execOpMov_answers ..
  | opLdi => exact execOpLdi_answers ..
  | opLdk => exact execOpLdk_answers ..
  | opItor => exact execOpItor_answers ..
  | opUtor => exact execOpUtor_answers ..
  | opRtoi => exact execOpRtoi_answers ..
  | opRtou => exact execOpRtou_answers ..
  | opFtor => exact execOpFtor_answers ..
  | opRtof => exact execOpRtof_answers ..
  | opItou => exact execOpItou_answers ..
  | opUtoi => exact execOpUtoi_answers ..
  | opBtoi => exact execOpBtoi_answers ..
  | opItob => exact execOpItob_answers ..
  | opTrel => exact execOpTrel_answers ..
  | opFlags => exact execOpFlags_answers ..
  | opAdd => exact execOpAdd_answers ..
  | opSub => exact execOpSub_answers ..
  | opMul => exact execOpMul_answers ..
  | opDiv => exact execOpDiv_answers ..
  | opMod => exact execOpMod_answers ..
  | opNeg => exact execOpNeg_answers ..
  | opAbs => exact execOpAbs_answers ..
  | opMin => exact execOpMin_answers ..
  | opMax => exact execOpMax_answers ..
  | opLim => exact execOpLim_answers ..
  | opAddw => exact execOpAddw_answers ..
  | opSubw => exact execOpSubw_answers ..
  | opAnd => exact execOpAnd_answers ..
  | opOr => exact execOpOr_answers ..
  | opXor => exact execOpXor_answers ..
  | opNot => exact execOpNot_answers ..
  | opShl => exact execOpShl_answers ..
  | opShr => exact execOpShr_answers ..
  | opSar => exact execOpSar_answers ..
  | opRol => exact execOpRol_answers ..
  | opBtst => exact execOpBtst_answers ..
  | opBset => exact execOpBset_answers ..
  | opBclr => exact execOpBclr_answers ..
  | opShlv => exact execOpShlv_answers ..
  | opShrv => exact execOpShrv_answers ..
  | opPopc => exact execOpPopc_answers ..
  | opClz => exact execOpClz_answers ..
  | opRadd => exact execOpRadd_answers ..
  | opRsub => exact execOpRsub_answers ..
  | opRmul => exact execOpRmul_answers ..
  | opRdiv => exact execOpRdiv_answers ..
  | opRneg => exact execOpRneg_answers ..
  | opRabs => exact execOpRabs_answers ..
  | opRmin => exact execOpRmin_answers ..
  | opRmax => exact execOpRmax_answers ..
  | opRlim => exact execOpRlim_answers ..
  | opRsqrt => exact execOpRsqrt_answers ..
  | opRmac => exact execOpRmac_answers ..
  | opRrnd => exact execOpRrnd_answers ..
  | opRtrn => exact execOpRtrn_answers ..
  | opFadd => exact execOpFadd_answers ..
  | opFsub => exact execOpFsub_answers ..
  | opFmul => exact execOpFmul_answers ..
  | opFdiv => exact execOpFdiv_answers ..
  | opFneg => exact execOpFneg_answers ..
  | opFabs => exact execOpFabs_answers ..
  | opFlim => exact execOpFlim_answers ..
  | opFshr => exact execOpFshr_answers ..
  | opEq => exact execOpEq_answers ..
  | opNe => exact execOpNe_answers ..
  | opLt => exact execOpLt_answers ..
  | opLe => exact execOpLe_answers ..
  | opGt => exact execOpGt_answers ..
  | opGe => exact execOpGe_answers ..
  | opTbef => exact execOpTbef_answers ..
  | opJmp => exact execOpJmp_answers ..
  | opJt => exact execOpJt_answers ..
  | opJf => exact execOpJf_answers ..
  | opLoop => exact execOpLoop_answers ..
  | opEndl => exact execOpEndl_answers ..
  | opSel => exact execOpSel_answers ..
  | opEnd => exact execOpEnd_answers ..
  | opLutl => exact execOpLutl_answers ..
  | opLuts => exact execOpLuts_answers ..
  | opHfind => exact execOpHfind_answers ..
  | opHhas => exact execOpHhas_answers ..
  | opTlen => exact execOpTlen_answers ..
  | opTrd => exact execOpTrd_answers ..
  | opGet => exact execOpGet_answers ..
  | opGetq => exact execOpGetq_answers ..
  | opGets => exact execOpGets_answers ..
  | opGeto => exact execOpGeto_answers ..
  | opPut => exact execOpPut_answers ..
  | opPutg => exact execOpPutg_answers ..
  | opPutf => exact execOpPutf_answers ..
  | opEdgr => exact execOpEdgr_answers ..
  | opEdgf => exact execOpEdgf_answers ..
  | opEdgc => exact execOpEdgc_answers ..
  | opEdgclr => exact execOpEdgclr_answers ..
  | opTon => exact execOpTon_answers ..
  | opTof => exact execOpTof_answers ..
  | opTp => exact execOpTp_answers ..
  | opTpre => exact execOpTpre_answers ..
  | opTelp => exact execOpTelp_answers ..
  | opTrst => exact execOpTrst_answers ..
  | opCtu => exact execOpCtu_answers ..
  | opCtd => exact execOpCtd_answers ..
  | opCrst => exact execOpCrst_answers ..
  | opCld => exact execOpCld_answers ..
  | opCpre => exact execOpCpre_answers ..
  | opCget => exact execOpCget_answers ..
  | opAlm => exact execOpAlm_answers ..
  | opAlmq => exact execOpAlmq_answers ..
  | opEvt => exact execOpEvt_answers ..
  | opTrnd => exact execOpTrnd_answers ..
  | opEvsig => exact execOpEvsig_answers ..
  | opEvdig => exact execOpEvdig_answers ..
  | eventSign => exact execEventSign_answers ..
  | eventDigest => exact execEventDigest_answers ..
  | eventQueueDrain => exact execEventQueueDrain_answers ..
  | opDefpt => exact execOpDefpt_answers ..
  | opDefgr => exact execOpDefgr_answers ..
  | opDefctx => exact execOpDefctx_answers ..
  | opDefvid => exact execOpDefvid_answers ..
  | opDefloop => exact execOpDefloop_answers ..
  | opDefgrp => exact execOpDefgrp_answers ..
  | opDefcirc => exact execOpDefcirc_answers ..
  | opDefmap => exact execOpDefmap_answers ..
  | opDefexp => exact execOpDefexp_answers ..
  | opAdmit => exact execOpAdmit_answers ..
  | opDeldef => exact execOpDeldef_answers ..
  | opSysrd => exact execOpSysrd_answers ..
  | opSyswr => exact execOpSyswr_answers ..
  | opSysrdx => exact execOpSysrdx_answers ..
  | opSyswrx => exact execOpSyswrx_answers ..
  | ptRead => exact execPtRead_answers ..
  | ptWrite => exact execPtWrite_answers ..
  | ptWriteRepeat => exact execPtWriteRepeat_answers ..
  | staleSweep => exact execStaleSweep_answers ..
  | forceSet => exact execForceSet_answers ..
  | forceRelease => exact execForceRelease_answers ..
  | forceReleaseComplete => exact execForceReleaseComplete_answers ..
  | ptLostClear => exact execPtLostClear_answers ..
  | ptDenyClear => exact execPtDenyClear_answers ..
  | changeSubmit => exact execChangeSubmit_answers ..
  | scarfStage => exact execScarfStage_answers ..
  | armAt => exact execArmAt_answers ..
  | scfAbort => exact execScfAbort_answers ..
  | scfClearStat => exact execScfClearStat_answers ..
  | scarfCommit => exact execScarfCommit_answers ..
  | configNandWrite => exact execConfigNandWrite_answers ..
  | estateOffer => exact execEstateOffer_answers ..
  | estateReady => exact execEstateReady_answers ..
  | estateArm => exact execEstateArm_answers ..
  | estateAck => exact execEstateAck_answers ..
  | estateDecision => exact execEstateDecision_answers ..
  | estateGo => exact execEstateGo_answers ..
  | estateCancel => exact execEstateCancel_answers ..
  | estateOutcome => exact execEstateOutcome_answers ..
  | estateReadyTimeout => exact execEstateReadyTimeout_answers ..
  | estateArmTimeout => exact execEstateArmTimeout_answers ..
  | subTick => exact execSubTick_answers ..
  | loopSample => exact execLoopSample_answers ..
  | groupSample => exact execGroupSample_answers ..
  | loopDisable => exact execLoopDisable_answers ..
  | loopManual => exact execLoopManual_answers ..
  | loopAuto => exact execLoopAuto_answers ..
  | loopClearStats => exact execLoopClearStats_answers ..
  | lpManualWrite => exact execLpManualWrite_answers ..
  | loopResume => exact execLoopResume_answers ..
  | lineCycleEnd => exact execLineCycleEnd_answers ..
  | aggregationEnd n dft harmonic => exact execAggregationEnd_answers s n dft harmonic
  | urmsRefresh => exact execUrmsRefresh_answers ..
  | modulatorFail => exact execModulatorFail_answers ..
  | ledgerCheckpoint => exact execLedgerCheckpoint_answers ..
  | nandCheckpoint => exact execNandCheckpoint_answers ..
  | ledgerAudit => exact execLedgerAudit_answers ..
  | pulseEmit => exact execPulseEmit_answers ..
  | pulseEnd => exact execPulseEnd_answers ..
  | calMeasure => exact execCalMeasure_answers ..
  | calDone results => exact execCalDone_answers s results
  | mtOvrClear => exact execMtOvrClear_answers ..
  | mtEvSelWrite => exact execMtEvSelWrite_answers ..
  | lgNandCheckpoint => exact execLgNandCheckpoint_answers ..
  | resetInt => exact execResetInt_answers ..
  | lgClearVigil => exact execLgClearVigil_answers ..
  | lgAIntRead => exact execLgAIntRead_answers ..
  | lgATotHiRead => exact execLgATotHiRead_answers ..
  | lgWrapWrite => exact execLgWrapWrite_answers ..
  | vigilWindow => exact execVigilWindow_answers ..
  | hello => exact execHello_answers ..
  | helloTimer => exact execHelloTimer_answers ..
  | assign => exact execAssign_answers ..
  | heartbeat => exact execHeartbeat_answers ..
  | mark => exact execMark_answers ..
  | depart => exact execDepart_answers ..
  | credit => exact execCredit_answers ..
  | takeover => exact execTakeover_answers ..
  | subRsp => exact execSubRsp_answers ..
  | unsub => exact execUnsub_answers ..
  | data => exact execData_answers ..
  | sync => exact execSync_answers ..
  | syncAck => exact execSyncAck_answers ..
  | mgmtRsp => exact execMgmtRsp_answers ..
  | mgmtRegisterRead => exact execMgmtRegisterRead_answers ..
  | mgmtRegisterWrite => exact execMgmtRegisterWrite_answers ..
  | mgmtForce => exact execMgmtForce_answers ..
  | mgmtRelease => exact execMgmtRelease_answers ..
  | mgmtTaskCommand => exact execMgmtTaskCommand_answers ..
  | mgmtLoopCommand => exact execMgmtLoopCommand_answers ..
  | mgmtFaultRead => exact execMgmtFaultRead_answers ..
  | mgmtUartRequest => exact execMgmtUartRequest_answers ..
  | trussBadFrame => exact execTrussBadFrame_answers ..
  | departTimeout => exact execDepartTimeout_answers ..
  | managerLost => exact execManagerLost_answers ..
  | standbyTakeover => exact execStandbyTakeover_answers ..
  | markTimeout => exact execMarkTimeout_answers ..
  | subQueryTimeout => exact execSubQueryTimeout_answers ..
  | poolAudit => exact execPoolAudit_answers ..
  | trussLeave => exact execTrussLeave_answers ..
  | trussRejoin => exact execTrussRejoin_answers ..
  | trussRelease => exact execTrussRelease_answers ..
  | trussHandover => exact execTrussHandover_answers ..
  | trClearErrors => exact execTrClearErrors_answers ..
  | frameReceive => exact execFrameReceive_answers ..
  | pauseReceive => exact execPauseReceive_answers ..
  | pauseExpire => exact execPauseExpire_answers ..
  | pauseWatchdog => exact execPauseWatchdog_answers ..
  | pauseRearm => exact execPauseRearm_answers ..
  | rxDescPost => exact execRxDescPost_answers ..
  | txDescPost => exact execTxDescPost_answers ..
  | frameTransmit => exact execFrameTransmit_answers ..
  | tsqRemove => exact execTsqRemove_answers ..
  | linkTrainEnd => exact execLinkTrainEnd_answers ..
  | linkTrainTimeout => exact execLinkTrainTimeout_answers ..
  | linkLoss => exact execLinkLoss_answers ..
  | inbandRateChange => exact execInbandRateChange_answers ..
  | macRetrain => exact execMacRetrain_answers ..
  | macDisable => exact execMacDisable_answers ..
  | macEnable => exact execMacEnable_answers ..
  | macClearCounters => exact execMacClearCounters_answers ..
  | wakeFrame => exact execWakeFrame_answers ..
  | lpiEnter => exact execLpiEnter_answers ..
  | bbLosChange => exact execBbLosChange_answers ..
  | datagramDiscard => exact execDatagramDiscard_answers ..
  | arpRequest => exact execArpRequest_answers ..
  | neighborSolicit => exact execNeighborSolicit_answers ..
  | echoRequest => exact execEchoRequest_answers ..
  | bvlcNak => exact execBvlcNak_answers ..
  | readProperty => exact execReadProperty_answers ..
  | readPropertyMultiple => exact execReadPropertyMultiple_answers ..
  | writeProperty => exact execWriteProperty_answers ..
  | subscribeCov => exact execSubscribeCov_answers ..
  | whoIs => exact execWhoIs_answers ..
  | whoHas => exact execWhoHas_answers ..
  | bacnetReject => exact execBacnetReject_answers ..
  | bacnetUnconfirmedDiscard => exact execBacnetUnconfirmedDiscard_answers ..
  | covNotify => exact execCovNotify_answers ..
  | covRetry => exact execCovRetry_answers ..
  | usrasRefresh => exact execUsrasRefresh_answers ..
  | coapGet => exact execCoapGet_answers ..
  | coapPut => exact execCoapPut_answers ..
  | coapAckPost => exact execCoapAckPost_answers ..
  | wellKnownCore => exact execWellKnownCore_answers ..
  | coapRefused => exact execCoapRefused_answers ..
  | coapRetransmit => exact execCoapRetransmit_answers ..
  | observeRegister => exact execObserveRegister_answers ..
  | observeRenew => exact execObserveRenew_answers ..
  | endpointNotify => exact execEndpointNotify_answers ..
  | endpointSilent => exact execEndpointSilent_answers ..
  | endpointRst => exact execEndpointRst_answers ..
  | endpointError => exact execEndpointError_answers ..
  | ptpSync => exact execPtpSync_answers ..
  | ptpFollowUp => exact execPtpFollowUp_answers ..
  | ptpDelayReq => exact execPtpDelayReq_answers ..
  | ptpDelayResp => exact execPtpDelayResp_answers ..
  | ptpAnnounce => exact execPtpAnnounce_answers ..
  | ptpDiscard => exact execPtpDiscard_answers ..
  | ptpSyncSend => exact execPtpSyncSend_answers ..
  | ptpAnnounceSend => exact execPtpAnnounceSend_answers ..
  | ptpDelayReqSend => exact execPtpDelayReqSend_answers ..
  | announceTimeout => exact execAnnounceTimeout_answers ..
  | setTime => exact execSetTime_answers ..
  | setTimeApply => exact execSetTimeApply_answers ..
  | neClearCounters => exact execNeClearCounters_answers ..
  | neTimeNsRead => exact execNeTimeNsRead_answers ..
  | neTimeSecHiRead => exact execNeTimeSecHiRead_answers ..
  | canFrameRx => exact execCanFrameRx_answers ..
  | canTxLoad => exact execCanTxLoad_answers ..
  | canTxDone => exact execCanTxDone_answers ..
  | canTxError => exact execCanTxError_answers ..
  | canErrorPassive => exact execCanErrorPassive_answers ..
  | canBusoff => exact execCanBusoff_answers ..
  | canRecovered => exact execCanRecovered_answers ..
  | canRecover => exact execCanRecover_answers ..
  | canDisable => exact execCanDisable_answers ..
  | canEnable => exact execCanEnable_answers ..
  | canDetect => exact execCanDetect_answers ..
  | detectCandidateEnd => exact execDetectCandidateEnd_answers ..
  | canClearCounters => exact execCanClearCounters_answers ..
  | canInTimeout => exact execCanInTimeout_answers ..
  | canAudit => exact execCanAudit_answers ..
  | rollCallTimer => exact execRollCallTimer_answers ..
  | answer => exact execAnswer_answers ..
  | present => exact execPresent_answers ..
  | leave => exact execLeave_answers ..
  | nodeHeartbeatMiss => exact execNodeHeartbeatMiss_answers ..
  | mbPollDue => exact execMbPollDue_answers ..
  | mbRequestSend => exact execMbRequestSend_answers ..
  | mbResponse => exact execMbResponse_answers ..
  | mbTimeout => exact execMbTimeout_answers ..
  | mbAbsentProbe => exact execMbAbsentProbe_answers ..
  | uartDisable => exact execUartDisable_answers ..
  | uartEnable => exact execUartEnable_answers ..
  | uartClearCounters => exact execUartClearCounters_answers ..
  | gpioInChange => exact execGpioInChange_answers ..
  | fabricAudit => exact execFabricAudit_answers ..
  | patrolScrub => exact execPatrolScrub_answers ..
  | ceRateHour => exact execCeRateHour_answers ..
  | pageRetire => exact execPageRetire_answers ..
  | pageCopyDone => exact execPageCopyDone_answers ..
  | nandRefresh => exact execNandRefresh_answers ..
  | nandPatrol => exact execNandPatrol_answers ..
  | nandRetentionRewrite => exact execNandRetentionRewrite_answers ..
  | nandBlockFail => exact execNandBlockFail_answers ..
  | sramScrubNow => exact execSramScrubNow_answers ..
  | dramScrubNow => exact execDramScrubNow_answers ..
  | nandPatrolNow => exact execNandPatrolNow_answers ..
  | memClearCounters => exact execMemClearCounters_answers ..
  | rtcTickLoRead => exact execRtcTickLoRead_answers ..
  | rtcTickHiRead => exact execRtcTickHiRead_answers ..
  | rtcLoad => exact execRtcLoad_answers ..
  | rtcLoadApply => exact execRtcLoadApply_answers ..
  | rtcAlarmFire => exact execRtcAlarmFire_answers ..
  | rtcWakeEvent => exact execRtcWakeEvent_answers ..
  | rtcDriftMeasure => exact execRtcDriftMeasure_answers ..
  | keyImport => exact execKeyImport_answers ..
  | generate => exact execGenerate_answers ..
  | activate => exact execActivate_answers ..
  | keyClear => exact execKeyClear_answers ..
  | clearPair => exact execClearPair_answers ..
  | readPublic => exact execReadPublic_answers ..
  | readId => exact execReadId_answers ..
  | tamperEvent => exact execTamperEvent_answers ..
  | kerfAssert => exact execKerfAssert_answers ..
  | tmpKerf => exact execTmpKerf_answers ..
  | tmpClearLog => exact execTmpClearLog_answers ..
  | tmpLogSelWrite => exact execTmpLogSelWrite_answers ..
  | challenge => exact execChallenge_answers ..
  | transition => exact execTransition_answers ..
  | debugUnlock => exact execDebugUnlock_answers ..
  | nonceLapse => exact execNonceLapse_answers ..
  | modeCommission => exact execModeCommission_answers ..
  | modeRun => exact execModeRun_answers ..
  | modeHold => exact execModeHold_answers ..
  | modeSafe => exact execModeSafe_answers ..
  | modeDoze => exact execModeDoze_answers ..
  | dozeExit => exact execDozeExit_answers ..
  | vmainLossInDoze => exact execVmainLossInDoze_answers ..
  | powerFailWarning => exact execPowerFailWarning_answers ..
  | vmainReturn => exact execVmainReturn_answers ..
  | sillPor => exact execSillPor_answers ..
  | nresetPulse => exact execNresetPulse_answers ..
  | coreUv => exact execCoreUv_answers ..
  | clockLoss => exact execClockLoss_answers ..
  | overtemp => exact execOvertemp_answers ..
  | tempHot => exact execTempHot_answers ..
  | svWatchdog => exact execSvWatchdog_answers ..
  | debugReset => exact execDebugReset_answers ..
  | rstWarm => exact execRstWarm_answers ..
  | rstEngine => exact execRstEngine_answers ..
  | rstBlock => exact execRstBlock_answers ..
  | resetStretchEnd => exact execResetStretchEnd_answers ..
  | fuseLoadDone => exact execFuseLoadDone_answers ..
  | fuseLoadRetry => exact execFuseLoadRetry_answers ..
  | bootCheckDone => exact execBootCheckDone_answers ..
  | pegRequest => exact execPegRequest_answers ..
  | pegGrant => exact execPegGrant_answers ..
  | pegAgeing => exact execPegAgeing_answers ..
  | govAudit => exact execGovAudit_answers ..
  | dramTrainDone => exact execDramTrainDone_answers ..
  | domainRelease => exact execDomainRelease_answers ..
  | releaseTimeout => exact execReleaseTimeout_answers ..
  | clkRetry => exact execClkRetry_answers ..
  | configCommit => exact execConfigCommit_answers ..
  | faultRaise => exact execFaultRaise_answers ..
  | backlogDrain => exact execBacklogDrain_answers ..
  | faultAck => exact execFaultAck_answers ..
  | faultAutoAck => exact execFaultAutoAck_answers ..
  | fltClearFirst => exact execFltClearFirst_answers ..
  | fltClearLost => exact execFltClearLost_answers ..
  | fltClearTotals => exact execFltClearTotals_answers ..
  | injStart => exact execInjStart_answers ..
  | injStop => exact execInjStop_answers ..
  | injForceEnd => exact execInjForceEnd_answers ..
  | satStep => exact execSatStep_answers ..
  | vio33Overload => exact execVio33Overload_answers ..
  | vio33Recover => exact execVio33Recover_answers ..
  | subRequest => exact execSubRequest_answers ..
  | notificationAck => exact execNotificationAck_answers ..
  | covLifetimeExpiry => exact execCovLifetimeExpiry_answers ..
  | tamperConditionClear => exact execTamperConditionClear_answers ..
  | sillPorRelease => exact execSillPorRelease_answers ..
  | resetSourceRelease => exact execResetSourceRelease_answers ..
  | holdUpEnd => exact execHoldUpEnd_answers ..
  | secureBankWipeEnd => exact execSecureBankWipeEnd_answers ..
  | keyCommandDone => exact execKeyCommandDone_answers ..
  | modulatorRecovery => exact execModulatorRecovery_answers ..
  | pegReturn => exact execPegReturn_answers ..
  | bootRecoveryImage => exact execBootRecoveryImage_answers ..

/-- Settles O8: the idle cycle and every command keep the invariant, and the queue is no part of it. -/
theorem stepKeepsInvariant : Obligations.StepKeepsInvariant := by
  intro s hs
  cases hp : s.pending with
  | nil => exact ⟨idleCycle s, step_of_pending_nil hp, (idleCycle_kept (Kept.refl s)).inv hs⟩
  | cons c q =>
    obtain ⟨t, ht, hkept⟩ := exec_answers c (s.withPending q)
    exact ⟨t, (step_of_pending_cons hp).trans ht, hkept.inv (hs.withPending q)⟩

/-- The state after reset meets the invariant. -/
theorem inv_reset : Inv State.reset := by decide

/-- The state after reset lists no point record. -/
theorem ptAt_reset (i : Nat) : ptAt State.reset i = {} := rfl

/-- Settles O6. -/
theorem resetStateMeetsInvariant : Obligations.ResetStateMeetsInvariant := by
  have hmode : modeOf State.reset = 7 := by decide
  have hfault : presented State.reset = none := by decide
  have hpoints : tabWf {} State.reset.pt.recs = true := by decide
  exact ⟨inv_reset, rfl, rfl, hmode, hfault, hpoints, fun i => by rw [ptAt_reset]⟩

end Sys2Proof.Machine
end

section
/-! Proofs/RegisterSpace: fields of the register file, what a reset restores, and the commands that read and write registers (O1, O2, O11, O12). -/

namespace Sys2Proof.Machine

/-- Settles O11: the rules of Laws/Regs for a field written and read. -/
theorem registerFieldsKeepTheirPlace : Obligations.RegisterFieldsKeepTheirPlace :=
  fun _ f _ v hwf => ⟨getF_setF_same hwf f v, getF_setF_ne hwf v, regsWf_setF hwf f v⟩

/-- Settles O12: a covered field has no entry left in the register file, and any other keeps its entry. -/
theorem resetLevelsRestoreTheirFields : Obligations.ResetLevelsRestoreTheirFields :=
  fun _ f l p hwf => ⟨getF_resetRegs_same f l p, fun hout => getF_resetRegs f l p hout hwf⟩

/-! ## Reads of the grid tick (00 R538) -/

/-- The register at an address whose search comes to a register of base `b`. -/
theorem findReg_of_base {a b : Nat} (h : (findReg a).map (fun p => p.1.base) = some b) : ∃ r ix, findReg a = some (r, ix) ∧ r.base = b := by
  obtain ⟨⟨r, ix⟩, hfind, hbase⟩ := Option.map_eq_some_iff.1 h
  exact ⟨r, ix, hfind, hbase⟩

/-- A read of an address that is in a register reads that register. -/
theorem readReg_found {a : Nat} {r : RegDesc} {ix : List Nat} (h : findReg a = some (r, ix)) (s : State) (q : Requester) :
    readReg s q a = readFound s q r ix a := by
  unfold readReg; rw [h]

/-- A read of an address in no register answers zero and raises the Note fault (R4). -/
theorem readReg_none {a : Nat} (h : findReg a = none) (s : State) (q : Requester) : readReg s q a = setReply (raise s .regNone) [0] := by
  unfold readReg; rw [h]

/-- A write to an address that is in a register stores, clears and acts in this order. -/
theorem writeReg_found {a : Nat} {r : RegDesc} {ix : List Nat} (h : findReg a = some (r, ix)) (s : State) (q : Requester) (w : Nat) :
    writeReg s q a w = actWord (clearWord (directWord s q r ix a w) q r ix a w) q r.base ix w := by
  unfold writeReg; rw [h]

/-- A write to an address in no register raises the Note fault and does nothing else (R4). -/
theorem writeReg_none {a : Nat} (h : findReg a = none) (s : State) (q : Requester) (w : Nat) : writeReg s q a w = raise s .regNone := by
  unfold writeReg; rw [h]

/-- LE_GRID_LO_READ opens the requester's shadow on the present tick number and answers its low word. -/
theorem exec_leGridLoRead (q : Requester) (s : State) :
    exec (.leGridLoRead q) s = .next (setReply { s with shadows := tabPut s.shadows (shadowKey 0 q) [s.tick] } [s.tick % 2 ^ 32]) := by
  obtain ⟨r, ix, hfind, hbase⟩ := findReg_of_base (a := Fld.LE_GRID_LO_TICK_LO.addr) (b := Fld.LE_GRID_LO_TICK_LO.addr) (by decide)
  have hlow : bitsOf s.tick 0 32 = s.tick % 2 ^ 32 := by unfold bitsOf; rw [Nat.pow_zero, Nat.div_one]
  have hread : readReg s q Fld.LE_GRID_LO_TICK_LO.addr =
      setReply { s with shadows := tabPut s.shadows (shadowKey 0 q) [s.tick] } [s.tick % 2 ^ 32] := by
    rw [readReg_found hfind, ← hlow]
    unfold readFound
    exact if_pos hbase
  exact congrArg done hread

/-- LE_GRID_HI_READ with the requester's shadow open closes it and answers the upper bits of the tick number it holds. -/
theorem exec_leGridHiRead {q : Requester} {s : State} {t : Nat} {l : List Nat} (h : tabGet? s.shadows (shadowKey 0 q) = some (t :: l)) :
    exec (.leGridHiRead q) s = .next (setReply { s with shadows := tabDel s.shadows (shadowKey 0 q) } [t / 2 ^ 32 % 2 ^ 16]) := by
  obtain ⟨r, ix, hfind, hbase⟩ := findReg_of_base (a := Fld.LE_GRID_HI_TICK_HI.addr) (b := Fld.LE_GRID_HI_TICK_HI.addr) (by decide)
  have hother : r.base ≠ Fld.LE_GRID_LO_TICK_LO.addr := by rw [hbase]; decide
  have hread : readReg s q Fld.LE_GRID_HI_TICK_HI.addr =
      setReply { s with shadows := tabDel s.shadows (shadowKey 0 q) } [t / 2 ^ 32 % 2 ^ 16] := by
    rw [readReg_found hfind]
    unfold readFound
    rw [if_neg hother, if_pos hbase, h]
    rfl
  exact congrArg done hread

/-- Requesters of different numbers have different shadows. -/
theorem shadowKey_ne {q q' : Requester} (h : q.num ≠ q'.num) (g : Nat) : shadowKey g q ≠ shadowKey g q' := by
  unfold shadowKey; omega

/-- Settles O2: the first read opens the shadow that the second reads, under a key of the requester's own. -/
theorem gridShadowReadsOneTick : Obligations.GridShadowReadsOneTick := by
  intro q q' n s htick hne
  refine ⟨_, _, exec_leGridLoRead q s, exec_leGridHiRead (t := s.tick) (l := []) (tabGet?_tabPut_same _ _ _), rfl, ?_,
    tabGet?_tabPut_ne _ _ (shadowKey_ne hne 0)⟩
  have hupper : s.tick / 2 ^ 32 < 2 ^ 16 := by unfold tickMod at htick; omega
  rw [setReply_reply, Nat.mod_eq_of_lt hupper]

/-! ## System access by tasks and joinery (03 R106) -/

/-- REGISTER_WRITE by a requester that reaches the registers. -/
theorem exec_registerWrite {q : Requester} {s : State} (h : reaches s q = true) (a : Nat) (w : Word) :
    exec (.registerWrite q a w) s = .next (writeReg s q a w.toNat) := if_pos h

/-- UNMAPPED_ACCESS by a requester that reaches the registers: a write changes nothing but the fault, a read answers zero besides. -/
theorem exec_unmappedAccess {q : Requester} {a : Nat} {s : State} (h : reaches s q = true) (hfind : findReg a = none) (wr : Bool) :
    exec (.unmappedAccess q a wr) s = .next (if wr then raise s .regNone else setReply (raise s .regNone) [0]) := by
  show execUnmappedAccess q a wr s = _
  unfold execUnmappedAccess
  rw [if_neg (by simp [h, hfind]), writeReg_none hfind, readReg_none hfind]
  cases wr <;> rfl

/-- System access by a task of tenant 4095 that its engine executes acts on that task's run. -/
theorem taskSys_running {s : State} {e sl : Fin 8} {x : Task} (hx : taskAt? s e sl = some x) (hrun : x.phase = .running)
    (hgather : gathersFirst s e = false) (htenant : x.run.tenant = 4095) (f : Run → State) : taskSys s e sl f = f x.run := by
  unfold taskSys
  rw [hx]
  exact if_pos (by simp [hrun, hgather, htenant])

/-- System access by joinery that is not rejected, while the scarf is in STAGING and the run has not ended. -/
theorem joinSys_staging {s : State} (hscf : scfState s = 1) (hend : s.jrun.ended = false) (t : State) : joinSys s (t, none) = t := by
  unfold joinSys
  rw [if_neg (by simp [hscf, hend])]

/-- A read by joinery of tenant 4095. -/
theorem joinRead_estate {s : State} (h : s.jrun.tenant = 4095) (a addr words : Nat) (qs : List Quality) :
    joinRead s a addr words qs = ({ readReg s .sv addr with
      jrun := (readReg s .sv addr).jrun.put a { w := replyWord (readReg s .sv addr) } qs words 1 }, none) := by
  unfold joinRead
  rw [if_neg (not_not_intro h)]

/-- A write by joinery of tenant 4095 to an address that is in a register is staged. -/
theorem joinWrite_estate {s : State} (h : s.jrun.tenant = 4095) {addr : Nat} (hfind : (findReg addr).isSome = true) (w words : Nat) :
    joinWrite s addr w words = ({ s with
      scf := { s.scf with staging := stageWrite s.scf.staging addr w }, jrun := s.jrun.fin 0 words 1 }, none) := by
  unfold joinWrite
  rw [if_neg (not_not_intro h), if_neg (by simpa [← Option.isSome_iff_ne_none] using hfind)]
  rfl

/-- Settles O1, clause by clause. -/
theorem registerCommandsComplete : Obligations.RegisterCommandsComplete := by
  refine ⟨?registerWrite, ?unmapped, exec_leGridLoRead, ?gridHi, ?sysrdTask, ?sysrdJoinery, ?sysrdxTask, ?syswrTask, ?syswrJoinery, ?syswrxTask⟩
  case registerWrite =>
    intro q a w r ix s hreach hfind
    rw [exec_registerWrite hreach, writeReg_found hfind]
  case unmapped => exact fun q a wr s hreach hfind => exec_unmappedAccess hreach hfind wr
  case gridHi => exact fun q t l s hshadow => exec_leGridHiRead hshadow
  case sysrdTask | sysrdxTask | syswrTask | syswrxTask =>
    exact fun _ _ _ _ _ _ hx hrun hgather htenant => congrArg done (taskSys_running hx hrun hgather htenant _)
  case sysrdJoinery =>
    intro a b s hscf hend htenant
    show done (joinSys s (joinRead s a.val _ 1 _)) = _
    rw [joinRead_estate htenant, joinSys_staging hscf hend]
  case syswrJoinery =>
    intro a b s hscf hend htenant hfind
    show done (joinSys s (joinWrite s _ _ 1)) = _
    rw [joinWrite_estate htenant hfind, joinSys_staging hscf hend]

end Sys2Proof.Machine
end

section
/-! Proofs/Quality: the quality code that a record shows (O14). -/

namespace Sys2Proof.Machine

/-- What makes a record stale (02 R36): it has a writer and a refresh limit, and its latch is set or its age is beyond the limit. -/
def goesStale (s : State) (r : PtRec) : Prop :=
  r.writerKind ≠ .none ∧ r.refreshLimit ≠ 0 ∧ (r.staleLatch = true ∨ r.refreshLimit * 1000 < ptAge s r)

section
variable {s : State} {r : PtRec}

theorem ptQuality_of_force (hforce : r.force = true) : ptQuality s r = .forced := if_pos hforce

theorem ptQuality_of_fault (hforce : r.force = false) (hwq : r.wq = .fault) : ptQuality s r = .fault := by
  unfold ptQuality; simp [hforce, hwq]

theorem ptQuality_of_absent (hforce : r.force = false) (hwq : r.wq ≠ .fault) (h : r.wq = .absent ∨ r.undeliv = true) :
    ptQuality s r = .absent := by
  unfold ptQuality; simp [hforce, hwq, h]

theorem ptQuality_of_uncalibrated (hforce : r.force = false) (hundeliv : r.undeliv = false) (hwq : r.wq = .uncalibrated) :
    ptQuality s r = .uncalibrated := by
  unfold ptQuality; simp [hforce, hundeliv, hwq]

theorem ptQuality_of_stale (hforce : r.force = false) (hundeliv : r.undeliv = false) (hwq : r.wq = .good) (h : goesStale s r) :
    ptQuality s r = .stale := by
  obtain ⟨hwriter, hlimit, hage⟩ := h
  unfold ptQuality; simp [hforce, hundeliv, hwq, hwriter, hlimit, hage]

theorem ptQuality_of_good (hforce : r.force = false) (hundeliv : r.undeliv = false) (hwq : r.wq = .good) (h : ¬ goesStale s r) :
    ptQuality s r = .good := by
  unfold ptQuality; simpa [hforce, hundeliv, hwq, goesStale] using h

end

/-- Settles O14: the conditions taken in the order of the table; each case fixes the code shown and decides every clause. -/
theorem recordShowsFirstQuality : Obligations.RecordShowsFirstQuality := by
  intro s r
  cases hforce : r.force with
  | true => simp [ptQuality_of_force hforce]
  | false =>
    cases hundeliv : r.undeliv with
    | true =>
      by_cases hwq : r.wq = .fault
      · simp [ptQuality_of_fault hforce hwq, hwq]
      · simp [ptQuality_of_absent hforce hwq (.inr hundeliv), hwq]
    | false =>
      cases hwq : r.wq with
      | fault => simp [ptQuality_of_fault hforce hwq]
      | absent => simp [ptQuality_of_absent hforce (by simp [hwq]) (.inl hwq)]
      | uncalibrated => simp [ptQuality_of_uncalibrated hforce hundeliv hwq]
      | good =>
        change _ ∧ _ ∧ _ ∧ _ ∧ (_ ↔ _ ∧ _ ∧ _ ∧ goesStale s r) ∧ (_ ↔ _ ∧ _ ∧ _ ∧ ¬ goesStale s r)
        by_cases hstale : goesStale s r
        · simp [ptQuality_of_stale hforce hundeliv hwq hstale, hstale]
        · simp [ptQuality_of_good hforce hundeliv hwq hstale, hstale]

end Sys2Proof.Machine
end

section
/-! Proofs/EmptyQueue: the fabric cycle that passes when no command waits (O4). -/

namespace Sys2Proof.Machine

/-- Before the last fabric cycle of the grid tick an idle cycle passes one. -/
theorem idleCycle_of_lt {s : State} (h : s.fc + 1 < tickLen s) : idleCycle s = passTime s 1 := if_pos h

/-- At the last fabric cycle of the grid tick an idle cycle waits for GRID_TICK. -/
theorem idleCycle_of_le {s : State} (h : tickLen s ≤ s.fc + 1) : idleCycle s = s := if_neg (Nat.not_lt.2 h)

/-- Settles O4: a step on an empty queue is an idle cycle, before the last cycle of the tick or at it. -/
theorem emptyQueuePassesFabricCycle : Obligations.EmptyQueuePassesFabricCycle := by
  intro s hpending
  have hstep : step s = .next (idleCycle s) := step_of_pending_nil hpending
  refine ⟨fun hlt => ?_, fun hle => by rw [hstep, idleCycle_of_le hle]⟩
  have hidle := idleCycle_of_lt hlt
  have hqueue : (idleCycle s).pending = [] := (idleCycle_kept (Kept.refl s)).pending.trans hpending
  refine ⟨idleCycle s, hstep, hidle, hqueue, fun hwaiting => ?_⟩
  rw [hidle, passTime_idle s 1 hwaiting]
  exact ⟨rfl, passCycles_fc s 1, passCycles_tick s 1, passCycles_mono s 1, passCycles_regs s 1⟩

end Sys2Proof.Machine
end

section
/-! Proofs/PointCommands: the commands of the point table on a defined record (O20). -/

namespace Sys2Proof.Machine

/-- A field that is listed once among several written holds what was written to it. -/
theorem getF_setFs_of_mem {l : List (RF × Nat)} (hkeys : (l.map (fun p => p.1.key)).Nodup) {s : State} (hwf : regsWf s = true)
    {f : RF} {v : Nat} (hmem : (f, v) ∈ l) : getF (setFs s l) f = v % 2 ^ f.w := by
  induction l generalizing s with
  | nil => cases hmem
  | cons p l ih =>
    rw [List.map_cons, List.nodup_cons] at hkeys
    obtain ⟨hfresh, hrest⟩ := hkeys
    rcases List.mem_cons.1 hmem with rfl | htail
    · have hother : ∀ q ∈ l, q.1.key ≠ f.key := fun q hq heq => hfresh (List.mem_map.2 ⟨q, hq, heq⟩)
      exact (getF_setFs_ne l (regsWf_setF hwf f v) hother).trans (getF_setF_same hwf f v)
    · exact ih hrest (regsWf_setF hwf _ _) htail

/-! ## Reads and writes (R44, R45, R48) -/

/-- A record written in the present fabric cycle is seen as it stood before (01 R24). -/
theorem ptSeen_of_before {s : State} {i : Nat} {old : PtRec} (h : tabGet? s.cyc.before i = some old) : ptSeen s i = old := by
  unfold ptSeen; rw [h]; rfl

/-- PT_READ of a defined record, on port 11 or 12 with a context that holds READ. -/
theorem exec_ptRead_ok {port : Fin 16} {i : Fin 65536} {ctx : Fin 64} {s : State} (hdef : (ptSeen s i.val).defined = true)
    (hread : port = 11 ∨ port = 12 → ctxHolds s ctx.val i.val rightRead = true) :
    exec (.ptRead port i ctx false) s = .next (setReply s (0 :: (ptValue (ptSeen s i.val)).toNat :: ptWords s (ptSeen s i.val))) := by
  have hallowed : ¬ ((port = 11 || port = 12) && !ctxHolds s ctx.val i.val rightRead) = true := by
    simpa using hread
  show execPtRead port i ctx false s = _
  unfold execPtRead
  dsimp only
  rw [if_neg (by simp [hdef]), if_neg hallowed]
  rfl

/-- PT_WRITE of one write by a port with no access outstanding. -/
theorem exec_ptWrite_single {w : PtWrite} {s : State} (hfree : portBusy s w.port = false) (bank : Fin 16) :
    exec (.ptWrite bank [w]) s = .next (serveBank s bank.val [w]) := by
  show execPtWrite bank [w] s = _
  simp [execPtWrite, firstOfPort, hfree]

/-- PT_WRITE_REPEAT takes the port's LOST write off the list and presents it again at its record's sub-bank. -/
theorem exec_ptWriteRepeat_single {w : PtWrite} {s : State} (hlost : s.pt.lost = [w]) :
    exec (.ptWriteRepeat w.port) s = .next (serveBank { s with pt := { s.pt with lost := [] } } (subBank w.index) [w]) := by
  show execPtWriteRepeat w.port s = _
  simp [execPtWriteRepeat, hlost]

/-! ## Staleness (R38) -/

theorem sweepOn_sweepAt (s : State) (i : Nat) : (sweepOn s i).pt.sweepAt = i := by
  unfold sweepOn; dsimp only; split
  · rfl
  · split <;> rfl

/-- STALE_SWEEP of a record older than its limit, with no write of it in that cycle. -/
theorem exec_staleSweep_stale {i : Fin 65536} {s : State} (hdef : (ptAt s i.val).defined = true) (hlimit : (ptAt s i.val).refreshLimit ≠ 0)
    (hage : (ptAt s i.val).refreshLimit * 1000 < ptAge s (ptAt s i.val)) :
    exec (.staleSweep i false) s = .next (commitPt (sweepOn s i.val) i.val (ptAt s i.val) { ptAt s i.val with staleLatch := true }) := by
  show execStaleSweep i false s = _
  unfold execStaleSweep
  dsimp only
  rw [sweepOn_ptAt, sweepOn_ptAge, if_pos (by simp [hdef, hlimit, hage])]

/-! ## Forcing (R59 to R61, Table 14) -/

theorem fcmdFields_pt (s : State) (i op : Nat) (r : ForceResult) : (fcmdFields s i op r).pt = s.pt := setFs_pt _ _

/-- PT_FCMD after a completed operation: the fields given and its RESULT. -/
theorem getF_fcmdFields {s : State} (hwf : regsWf s = true) (i op : Nat) (r : ForceResult) :
    getF (fcmdFields s i op r) Fld.PT_FCMD_INDEX = i % 2 ^ 16 ∧ getF (fcmdFields s i op r) Fld.PT_FCMD_OP = op % 2 ^ 2 ∧
      getF (fcmdFields s i op r) Fld.PT_FCMD_RESULT = r.code % 2 ^ 2 := by
  have hkeys : [Fld.PT_FCMD_INDEX.key, Fld.PT_FCMD_OP.key, Fld.PT_FCMD_RESULT.key, Fld.PT_FCMD_BUSY.key, Fld.PT_FCMD_GO.key].Nodup := by decide
  unfold fcmdFields
  exact ⟨getF_setFs_of_mem (by exact hkeys) hwf (by simp), getF_setFs_of_mem (by exact hkeys) hwf (by simp),
    getF_setFs_of_mem (by exact hkeys) hwf (by simp)⟩

/-- FORCE_SET through port 14 for a tenant that holds FORCE on an unlocked record. -/
theorem exec_forceSet_ok {i : Fin 65536} {v : Word} {t : Fin 4096} {s : State} (hinv : Inv s) (hdef : (ptAt s i.val).defined = true)
    (hmeter : (ptAt s i.val).writerKind ≠ .meter) (hproxy : (ptAt s i.val).proxy = false) (hright : holdsRight s t.val i.val rightForce = true)
    (hunlocked : s.pt.locked.contains i.val = false) :
    ∃ u, exec (.forceSet false i v t) s = .next u ∧
      ptAt u i.val = { ptAt s i.val with forceValue := normalise (ptAt s i.val).ty v, force := true, relPend := false } ∧
      getF u Fld.PT_FCMD_RESULT = 0 ∧ getF u Fld.PT_FCMD_OP = 1 ∧ getF u Fld.PT_FCMD_INDEX = i.val ∧ u.reply = [0] := by
  have hop := forceOp_ok s i.val v t.val hdef hmeter hproxy hright hunlocked
  generalize hforced : (forceOp s false i.val v t.val).1 = a
  have hpt : ptAt a i.val = { ptAt s i.val with forceValue := normalise (ptAt s i.val).ty v, force := true, relPend := false } := by
    rw [← hforced, hop]; exact ptAt_commitPt_same s i.val _ hdef
  have hwf : regsWf a = true := by rw [← hforced]; exact ((forceOp_kept false i.val v t.val (Kept.refl s)).inv hinv).regs
  have hcmd : (forceCmd s false i.val v t.val).1 =
      setReply (fcmdFields (setFs a [(Fld.PT_FVAL_VALUE, v.toNat), (Fld.PT_FTEN_TENANT, t.val)]) i.val 1 .ok) [0] := by
    rw [← hforced]; unfold forceCmd; rw [hop]; rfl
  obtain ⟨hindex, hopcode, hresult⟩ := getF_fcmdFields (regsWf_setFs [(Fld.PT_FVAL_VALUE, v.toNat), (Fld.PT_FTEN_TENANT, t.val)] hwf) i.val 1 .ok
  refine ⟨_, congrArg done hcmd, ?_, hresult, hopcode, hindex.trans (Nat.mod_eq_of_lt i.isLt), rfl⟩
  exact (ptAt_of_pt (by rw [setReply_pt, fcmdFields_pt, setFs_pt]) _).trans hpt

/-- FORCE_RELEASE through port 14 for a tenant that holds FORCE. -/
theorem exec_forceRelease_ok {i : Fin 65536} {t : Fin 4096} {s : State} (hinv : Inv s) (hdef : (ptAt s i.val).defined = true)
    (hright : holdsRight s t.val i.val rightForce = true) :
    ∃ u, exec (.forceRelease false i t) s = .next u ∧ ptAt u i.val = { ptAt s i.val with relPend := true } ∧
      getF u Fld.PT_FCMD_RESULT = 0 ∧ u.reply = [0] := by
  have hop := releaseOp_ok s i.val t.val hdef hright
  generalize hreleased : commitPt s i.val (ptAt s i.val) { ptAt s i.val with relPend := true } = a at hop
  have hpt : ptAt a i.val = { ptAt s i.val with relPend := true } := by rw [← hreleased]; exact ptAt_commitPt_same s i.val _ hdef
  have hwf : regsWf a = true := by rw [← hreleased]; exact regsWf_of_regs (commitPt_regs ..) hinv.regs
  have hcmd : (releaseCmd s false i.val t.val).1 = setReply (fcmdFields (setF a Fld.PT_FTEN_TENANT t.val) i.val 2 .ok) [0] := by
    unfold releaseCmd; rw [hop]; rfl
  obtain ⟨-, -, hresult⟩ := getF_fcmdFields (regsWf_setF hwf Fld.PT_FTEN_TENANT t.val) i.val 2 .ok
  refine ⟨_, congrArg done hcmd, ?_, hresult, rfl⟩
  exact (ptAt_of_pt (by rw [setReply_pt, fcmdFields_pt, setF_pt]) _).trans hpt

/-- A pending release of a defined record completes in one write of the record, and changes no register. -/
theorem completeRelease_effect {s : State} {i : Nat} (hdef : (ptAt s i).defined = true) (hpend : (ptAt s i).relPend = true) :
    ptAt (completeRelease s i) i = { ptAt s i with force := false, relPend := false } ∧ (completeRelease s i).regs = s.regs := by
  unfold completeRelease
  dsimp only
  rw [if_pos (by simp [hdef, hpend])]
  exact ⟨ptAt_commitPt_same s i _ hdef, commitPt_regs ..⟩

/-- FORCE_RELEASE_COMPLETE of a record whose release waits for no scatter. -/
theorem exec_forceReleaseComplete {i : Fin 65536} {s : State} (hheld : heldForScatter s (ptAt s i.val) = false) :
    exec (.forceReleaseComplete i) s = .next (completeRelease s i.val) := if_neg (by simp [hheld])

/-! ## The CLEAR bits (R71) -/

/-- Writing 1 to PT_LOST.CLEAR zeroes COUNT and LAST_PORT. -/
theorem getF_ptLostClear {s : State} (hwf : regsWf s = true) :
    getF (ptLostClear s) Fld.PT_LOST_COUNT = 0 ∧ getF (ptLostClear s) Fld.PT_LOST_LAST_PORT = 0 := by
  have hkeys : [Fld.PT_LOST_COUNT.key, Fld.PT_LOST_LAST_PORT.key].Nodup := by decide
  unfold ptLostClear
  exact ⟨getF_setFs_of_mem (v := 0) (by exact hkeys) hwf (by simp), getF_setFs_of_mem (v := 0) (by exact hkeys) hwf (by simp)⟩

/-- Writing 1 to PT_DENY.CLEAR zeroes COUNT and REASON. -/
theorem getF_ptDenyClear {s : State} (hwf : regsWf s = true) :
    getF (ptDenyClear s) Fld.PT_DENY_COUNT = 0 ∧ getF (ptDenyClear s) Fld.PT_DENY_REASON = 0 := by
  have hkeys : [Fld.PT_DENY_COUNT.key, Fld.PT_DENY_LAST_PORT.key, Fld.PT_DENY_REASON.key].Nodup := by decide
  unfold ptDenyClear
  exact ⟨getF_setFs_of_mem (v := 0) (by exact hkeys) hwf (by simp), getF_setFs_of_mem (v := 0) (by exact hkeys) hwf (by simp)⟩

/-- Settles O20, clause by clause. -/
theorem pointCommandsComplete : Obligations.PointCommandsComplete := by
  refine ⟨fun _ _ _ _ => exec_ptRead_ok, ?readBefore, ?write, ?writeRepeat, ?sweep, fun _ _ _ _ => exec_forceSet_ok,
    fun _ _ _ => exec_forceRelease_ok, ?releaseComplete, ?lostClear, ?denyClear⟩
  case readBefore =>
    intro i old port ctx s hbefore hdef h11 h12
    have hseen := ptSeen_of_before hbefore
    rw [exec_ptRead_ok (by rwa [hseen]) (fun hport => (hport.elim h11 h12).elim), hseen]
  case write =>
    intro bank w s hfree hwaiting hdef hallowed
    exact ⟨_, exec_ptWrite_single hfree bank, serveBank_one_effect s bank.val w hwaiting hdef hallowed⟩
  case writeRepeat =>
    rintro _ w s hlost rfl hwaiting hdef hallowed
    obtain ⟨hpt, -, hsent, -⟩ :=
      serveBank_one_effect { s with pt := { s.pt with lost := [] } } (subBank w.index) w hwaiting hdef hallowed
    exact ⟨_, exec_ptWriteRepeat_single hlost, hpt, hsent⟩
  case sweep =>
    intro i s hdef hlimit hage
    have hlatched : ({ ptAt s i.val with staleLatch := true } : PtRec).defined = true := hdef
    refine ⟨_, exec_staleSweep_stale hdef hlimit hage, ptAt_commitPt_same _ _ _ hlatched, fun j hne => ?_, ?_⟩
    · exact (ptAt_commitPt_ne _ _ hlatched hne.symm).trans (sweepOn_ptAt s i.val j)
    · exact (commitPt_sweepAt ..).trans (sweepOn_sweepAt s i.val)
  case releaseComplete =>
    intro i s hdef hpend hheld
    exact ⟨_, exec_forceReleaseComplete hheld, completeRelease_effect hdef hpend⟩
  case lostClear =>
    intro s hinv
    obtain ⟨hcount, hport⟩ := getF_ptLostClear hinv.regs
    exact ⟨ptLostClear s, rfl, hcount, hport, setFs_pt _ _⟩
  case denyClear =>
    intro s hinv
    obtain ⟨hcount, hreason⟩ := getF_ptDenyClear hinv.regs
    exact ⟨ptDenyClear s, rfl, hcount, hreason, setFs_pt _ _⟩

end Sys2Proof.Machine
end

section
/-! Proofs/WriterWrites: the writer write of a record that takes it, and the canonical form of the point table (O13, O19). -/

namespace Sys2Proof.Machine

/-- A sub-bank at which no write waits has none to serve. -/
theorem drainBank_of_none_waiting {s : State} {b : Nat} (h : tabGet [] s.pt.waiting b = []) (n : Nat) : drainBank n s b = s := by
  cases n with
  | zero => rfl
  | succ n => unfold drainBank; rw [h]; rfl

/-! ## The writer write (R32, R33) -/

section
variable {s u : State} {k : WriterKind} {n i : Nat} {v : Word} {q : Wq} (hserved : u = drainBank 16 s (subBank i))
include hserved

/-- The record's own writer stores VALUE, WQ and what R33 says of every writer write, in one commit. -/
theorem writerWrite_of_writer (hdef : (ptAt u i).defined = true) (hkind : (ptAt u i).writerKind = k) (hid : (ptAt u i).writerId = n) :
    writerWrite s k n i v q = commitPt u i (ptAt u i) (writerFields u (ptAt u i) v q) := by
  unfold writerWrite
  rw [← hserved]
  dsimp only
  rw [if_neg (by simp [hdef]), if_pos (by simp [hkind, hid])]

/-- A writer write of a record that is not defined stores nothing. -/
theorem writerWrite_of_undefined (hdef : (ptAt u i).defined = false) : writerWrite s k n i v q = u := by
  unfold writerWrite
  rw [← hserved]
  dsimp only
  rw [if_pos (by simp [hdef])]

end

/-- Settles O13: a writer write is one commit of the stamped record, which stays defined. -/
theorem writerWriteStampsRecord : Obligations.WriterWriteStampsRecord := by
  intro s u k n i v q hserved hdef hkind hid
  have hstamped : (writerFields u (ptAt u i) v q).defined = true := hdef
  rw [writerWrite_of_writer hserved hdef hkind hid]
  refine ⟨ptAt_commitPt_same u i _ hstamped, fun j hne => ptAt_commitPt_ne u _ hstamped hne.symm, commitPt_regs .., fun hnone => ?_⟩
  exact hserved.trans (drainBank_of_none_waiting hnone 16)

/-! ## The canonical form (R31) -/

theorem postChange_recs (s : State) (ne i : Nat) : (postChange s ne i).pt.recs = s.pt.recs := by
  unfold postChange; split <;> split <;> rfl

theorem keepBefore_recs (s : State) (i : Nat) (old : PtRec) : (keepBefore s i old).pt.recs = s.pt.recs := by
  unfold keepBefore; split <;> rfl

/-- Of the table of records, a commit stores the written record and leaves the rest. -/
theorem commitPt_recs (s : State) (i : Nat) (old r : PtRec) : (commitPt s i old r).pt.recs = (setPt s i r).pt.recs := by
  unfold commitPt; dsimp only
  split
  · rw [postChange_recs, keepBefore_recs]
  · rw [keepBefore_recs]

theorem commitPt_wf {s : State} (h : tabWf {} s.pt.recs = true) (i : Nat) (old r : PtRec) : tabWf {} (commitPt s i old r).pt.recs = true := by
  rw [commitPt_recs]; exact setPt_wf h i r

/-- Settles O19: a writer write commits a record of its writer, and stores nothing where the record is not defined. -/
theorem pointTableKeepsCanonicalForm : Obligations.PointTableKeepsCanonicalForm := by
  intro s hwf
  refine ⟨commitPt_wf hwf, fun r k n i v q hserved hwriter => ?_⟩
  cases hdef : (ptAt s i).defined with
  | false => rw [writerWrite_of_undefined hserved hdef]; exact hwf
  | true =>
    obtain ⟨hkind, hid⟩ := hwriter hdef
    rw [writerWrite_of_writer hserved hdef hkind hid]
    exact commitPt_wf hwf ..

end Sys2Proof.Machine
end

section
/-! Proofs/TrussTraffic: accepted frames of Truss traffic and its timed events (O34). -/

namespace Sys2Proof.Machine

/-- A time that was started `n` fabric cycles ago or earlier has run. -/
theorem timeRan_of_le {s : State} {k m n : Nat} (hstart : tabGet? s.timers k = some m) (h : m + n ≤ s.el) : timeRan s k n = true := by
  unfold timeRan; rw [hstart]; exact decide_eq_true h

/-- The Note of R40 for an entry that names module 511 is what the effect of a result already has for it. -/
theorem subRspEffect_of_self (s : State) (query : Bool) (e : SubEntry) (why owner : Nat) :
    (if gpaModule e.gpa = 511 then raise s .trussSelfGpa else subRspEffect s query e why owner) = subRspEffect s query e why owner := by
  split
  · next hself => unfold subRspEffect; rw [if_pos hself]
  · rfl

/-! ## DATA (R260, R264) -/

section
variable {s : State} {m : Nat} (hpublisher : m ≠ 511) (hmode : modeOf s ≠ 3)
include hpublisher hmode

/-- The manager relays a section. -/
theorem dataEffect_of_manager (hmanager : isManager s = true) (n k : Nat) (es : List DataEntry) : dataEffect s n k m es = deliver s n k m es := by
  unfold dataEffect
  rw [if_neg hpublisher, if_neg hmode, if_pos hmanager]

/-- Any other module writes the entries into its proxies. -/
theorem dataEffect_of_not_manager (hmanager : isManager s = false) (n k : Nat) (es : List DataEntry) :
    dataEffect s n k m es = takeSection s m n k es := by
  unfold dataEffect
  rw [if_neg hpublisher, if_neg hmode, if_neg (by simp [hmanager])]

end

/-! ## Management replies (R271) -/

/-- A reply to a request that a frame brought goes back in a frame to that frame's sender. -/
theorem mgmtReply_of_asker {s : State} {id src : Nat} (h : tabGet? s.tr.askers id = some src) (status : Nat) (d : List Nat) :
    mgmtReply s id status d = trSend { s with tr := { s.tr with askers := tabDel s.tr.askers id } } 0x31 src (id :: status :: d) := by
  unfold mgmtReply; rw [h]; rfl

/-- A reply to any other request goes over the management UART. -/
theorem mgmtReply_of_no_asker {s : State} {id : Nat} (h : tabGet? s.tr.askers id = none) (status : Nat) (d : List Nat) :
    mgmtReply s id status d = sendMsg s (.note "MGMT_RSP" (id :: status :: d)) := by
  unfold mgmtReply; rw [h]

/-! ## Events with no accepted frame (R249, R258, R269) -/

/-- A frame whose tag fails under its sender's derived key is counted. -/
theorem execTrussBadFrame_tag {h : TrussHdr} {s u : State} (hrole : trRole s ≠ 0) (hkey : senderKey s h = (u, true)) :
    execTrussBadFrame h .tag s = .next (authFail u h.lane.val) := by
  unfold execTrussBadFrame
  rw [if_neg hrole, hkey]
  rfl

/-- The query time-out refuses with reason 7 what was asked and not answered. -/
theorem execSubQueryTimeout_of_timeRan {s : State} (h : timeRan s tmQuery (2000 * msCycles) = true) :
    execSubQueryTimeout s = .next (s.tr.asked.foldl (fun s e => takeResult s true e 7 0) s) := by
  unfold execSubQueryTimeout
  rw [if_neg (by simp [h])]

/-- At a MARK tick, with domain 4 on, the audit checks each pool of both lanes. -/
theorem execPoolAudit_of_markTick {s : State} (hon : domainOn s 4 = true) (htick : s.tick % 400 = 0) :
    execPoolAudit s = .next ([0, 1].foldl (fun s l => [0, 1, 2, 3, 4].foldl (fun s p => auditPool s l p) s) s) := by
  unfold execPoolAudit
  rw [if_neg (by simp [hon, htick])]

/-- Settles O34: an accepted frame has its TYPE's effect (`onTruss_ok`), and each event its own. -/
theorem trussTrafficCompletes : Obligations.TrussTrafficCompletes := by
  refine ⟨?credit, ?subRequest, ?subRsp, ?unsub, ?queryTimeout, ?dataTaken, ?dataRelayed, fun _ _ _ => execTrussBadFrame_tag,
    fun _ => execPoolAudit_of_markTick, ?replyCarried, ?replyUart⟩
  case credit => exact fun h ds s u haccept => congrArg done (onTruss_ok haccept _)
  case subRequest => exact fun h query es s u haccept => congrArg done (onTruss_ok haccept _)
  case subRsp =>
    intro h query rs s u haccept
    simp only [subRspEffect_of_self]
    exact congrArg done (onTruss_ok haccept _)
  case unsub => exact fun h gs s u haccept => congrArg done (onTruss_ok haccept _)
  case queryTimeout => exact fun m s hstart hran => execSubQueryTimeout_of_timeRan (timeRan_of_le hstart hran)
  case dataTaken =>
    intro h n k m es s u haccept hpublisher hmanager hmode
    exact congrArg done ((onTruss_ok haccept _).trans (dataEffect_of_not_manager hpublisher hmode hmanager n k.toNat es))
  case dataRelayed =>
    intro h n k m es s u haccept hpublisher hmanager hmode
    exact congrArg done ((onTruss_ok haccept _).trans (dataEffect_of_manager hpublisher hmode hmanager n k.toNat es))
  case replyCarried =>
    intro h id status d src s u haccept hasker
    exact congrArg done ((onTruss_ok haccept _).trans (mgmtReply_of_asker hasker status.val d))
  case replyUart =>
    intro h id status d s u haccept hnone
    exact congrArg done ((onTruss_ok haccept _).trans (mgmtReply_of_no_asker hnone status.val d))

end Sys2Proof.Machine
end

section
/-! Proofs/DecendArithmetic: an instruction completes on its run; the integer and FIX16 arithmetic and the counters (O15, O16, O17). -/

namespace Sys2Proof.Machine

/-- An instruction that acts on its runner's run completes: that run is replaced, and nothing else of the machine changes. -/
theorem done_onRun {s : State} {r : Runner} {x : Run} (h : runOf? s r = some x) (f : Run → Run) : done (onRun s r f) = .next (withRun s r (f x)) :=
  congrArg done (onRun_eq h f)

/-- The same of an instruction that only tasks have. -/
theorem done_onTask {s : State} {e sl : Fin 8} {x : Run} (h : runOf? s (.task e sl) = some x) (f : Run → Run) :
    done (onTask s e sl f) = .next (withRun s (.task e sl) (f x)) :=
  congrArg done (onTask_eq h f)

/-- The same where the run that comes of it is known in another form. -/
theorem done_onRun_of_eq {s : State} {r : Runner} {x y : Run} {f : Run → Run} (h : runOf? s r = some x) (hf : f x = y) :
    done (onRun s r f) = .next (withRun s r y) := hf ▸ done_onRun h f

/-- The same of an instruction that only tasks have. -/
theorem done_onTask_of_eq {s : State} {e sl : Fin 8} {x y : Run} {f : Run → Run} (h : runOf? s (.task e sl) = some x) (hf : f x = y) :
    done (onTask s e sl f) = .next (withRun s (.task e sl) y) := done_onRun_of_eq h hf

/-! ## Integers (R83) -/

section
variable {t : VType} (ht : t = .int32 ∨ t = .uint32)
include ht

/-- A value within its type's range is stored as it is, without a flag. -/
theorem satInt_of_mem {x : Int} (hlo : minOf t ≤ x) (hhi : x ≤ maxOf t) : asInt t (satInt t x).w = x ∧ (satInt t x).fl = 0 := by
  obtain ⟨hvalue, -, hnone⟩ := satInt_spec t ht x
  exact ⟨by rw [hvalue]; omega, hnone.2 ⟨hlo, hhi⟩⟩

/-- DIV truncates toward zero, but for the one quotient outside INT32. -/
theorem intDiv_of_ne {b c : Word} (hc : asInt t c ≠ 0) (hover : ¬ (t = .int32 ∧ b.toInt = -2147483648 ∧ c.toInt = -1)) :
    asInt t (intDiv t b c).w = Int.tdiv (asInt t b) (asInt t c) ∧ (intDiv t b c).fl = 0 := by
  have hover' : ¬ (t = .int32 ∧ asInt t b = -2147483648 ∧ asInt t c = -1) := by
    rintro ⟨rfl, hb, hc⟩
    exact hover ⟨rfl, hb, hc⟩
  obtain ⟨hlo, hhi⟩ := tdiv_rng t ht _ _ (asInt_rng t ht b) (asInt_rng t ht c) hc hover'
  unfold intDiv
  rw [if_neg hc]
  exact satInt_of_mem ht hlo hhi

/-- MOD takes the dividend's sign. -/
theorem intMod_of_ne {b c : Word} (hc : asInt t c ≠ 0) : asInt t (intMod t b c).w = Int.tmod (asInt t b) (asInt t c) ∧ (intMod t b c).fl = 0 := by
  obtain ⟨hlo, hhi⟩ := tmod_rng t ht _ _ (asInt_rng t ht b) (asInt_rng t ht c)
  unfold intMod
  rw [if_neg hc]
  exact ⟨asInt_word t ht _ hlo hhi, rfl⟩

/-- DIV by zero gives the end of the range on the dividend's side, or zero, with DIVZ. -/
theorem intDiv_zero {b c : Word} (hc : asInt t c = 0) :
    (intDiv t b c).fl = flDivz ∧ asInt t (intDiv t b c).w = (if 0 < asInt t b then maxOf t else if asInt t b < 0 then minOf t else 0) := by
  obtain ⟨hmin, hmax⟩ : minOf t ≤ 0 ∧ 0 ≤ maxOf t := by rcases ht with rfl | rfl <;> decide
  have hrange (x : Int) : minOf t ≤ (if 0 < x then maxOf t else if x < 0 then minOf t else 0) ∧
      (if 0 < x then maxOf t else if x < 0 then minOf t else 0) ≤ maxOf t := by split_ifs <;> omega
  unfold intDiv
  rw [if_pos hc]
  exact ⟨rfl, asInt_word t ht _ (hrange _).1 (hrange _).2⟩

end

/-- MOD by zero gives zero with DIVZ. -/
theorem intMod_zero {t : VType} {b c : Word} (hc : asInt t c = 0) : intMod t b c = { w := 0, fl := flDivz } := if_pos hc

/-- Settles O16: saturation and division by the rules of Laws/Ints; each completion stores the result that its run function names. -/
theorem integerArithmeticSaturates : Obligations.IntegerArithmeticSaturates := by
  refine ⟨by decide, fun t ht => ⟨satInt_spec t ht, fun b c => intDiv_of_ne ht, fun b c => intMod_of_ne ht,
    fun b c hc => ?zeroDivisor, by decide, fun r a b c s x h => ⟨done_onRun h (rAddw a b c), done_onRun h (rSubw a b c), fun htype => ?typed⟩⟩⟩
  case zeroDivisor =>
    obtain ⟨hflag, hvalue⟩ := intDiv_zero ht hc
    exact ⟨hflag, hvalue, intMod_zero hc⟩
  case typed =>
    subst htype
    exact ⟨done_onRun h (rAdd a b c), done_onRun h (rSub a b c), done_onRun h (rMul a b c), done_onRun h (rNeg a b), done_onRun h (rAbs a b),
      done_onRun h (rDiv a b c), done_onRun h (rMod a b c)⟩

/-! ## FIX16 (R84) -/

/-- FMUL saturates the rounded product: halves up, a floor after adding half a unit. -/
theorem fixMul_eq (b c : Word) : fixMul b c = satInt .fix16 ((b.toInt * c.toInt + 0x4000) / 2 ^ 15) :=
  congrArg (satInt .fix16) (Int.fdiv_eq_ediv_of_nonneg _ (by decide))

/-- FDIV by a divisor other than zero saturates the integer nearest the quotient, ties away from zero. -/
theorem fixDiv_of_ne {b c : Word} (hc : c.toInt ≠ 0) :
    ∃ n : Int, fixDiv b c = satInt .fix16 n ∧ 2 * (n * c.toInt - b.toInt * 32768).natAbs ≤ c.toInt.natAbs ∧
      (2 * (n * c.toInt - b.toInt * 32768).natAbs = c.toInt.natAbs → (b.toInt * 32768).natAbs < (n * c.toInt).natAbs) := by
  unfold fixDiv
  rw [if_neg hc]
  refine ⟨_, rfl, ?_⟩
  obtain ⟨z, hz, hnear, htie⟩ :=
    round_spec (if c.toInt < 0 then -(b.toInt * 32768) else b.toInt * 32768) c.toInt.natAbs (Int.natAbs_pos.2 hc)
  generalize roundHalfAway _ _ = n at hz ⊢
  by_cases hneg : c.toInt < 0
  · have hprod : n * c.toInt = -z := by rw [← hz, Int.ofNat_natAbs_of_nonpos hneg.le, Int.mul_neg, Int.neg_neg]
    rw [if_pos hneg] at hnear htie
    rw [hprod]
    omega
  · have hprod : n * c.toInt = z := by rw [← hz, Int.natAbs_of_nonneg (Int.not_lt.1 hneg)]
    rw [if_neg hneg] at hnear htie
    rw [hprod]
    omega

/-- FDIV by zero gives the end of the range on the dividend's side with DIVZ. -/
theorem fixDiv_zero {b c : Word} (hc : c.toInt = 0) : (fixDiv b c).w.toInt = (if b.toInt < 0 then -32768 else 32767) ∧ (fixDiv b c).fl = flDivz := by
  unfold fixDiv
  rw [if_pos hc]
  refine ⟨word_fix _ ?_ ?_, rfl⟩ <;> split <;> decide

/-- FSHR of a Q15 value by 1 to 15 rounds halves up and stays in the range of a word. -/
theorem fixShr_of_pos {b : Word} {n : Nat} (hlo : -32768 ≤ b.toInt) (hhi : b.toInt ≤ 32767) (h1 : 1 ≤ n) (h15 : n ≤ 15) :
    (fixShr b n).w.toInt = (b.toInt + 2 ^ (n - 1)) / 2 ^ n ∧ (fixShr b n).fl = 0 := by
  have hhalf : (2 : Int) ^ (n - 1) ≤ 2 ^ 14 := pow_le_pow_right₀ (by decide) (by omega)
  have hhalfPos : (0 : Int) < 2 ^ (n - 1) := by positivity
  have hunit : (1 : Int) ≤ 2 ^ n := one_le_pow₀ (by decide)
  have hfloor : Int.fdiv (b.toInt + 2 ^ (n - 1)) (2 ^ n) = (b.toInt + 2 ^ (n - 1)) / 2 ^ n := Int.fdiv_eq_ediv_of_nonneg _ (by omega)
  have hmin : -32768 ≤ (b.toInt + 2 ^ (n - 1)) / 2 ^ n := Int.le_ediv_of_mul_le (by omega) (by linarith)
  have hmax : (b.toInt + 2 ^ (n - 1)) / 2 ^ n ≤ 49151 := Int.ediv_le_of_le_mul (by omega) (by linarith)
  unfold fixShr
  rw [if_neg (by omega), hfloor]
  exact ⟨word_int32 _ (by omega) (by omega), rfl⟩

/-- Settles O17: each result is an exact or rounded integer that `satInt` holds within Q15, and each completion stores it. -/
theorem fix16Arithmetic : Obligations.Fix16Arithmetic := by
  refine ⟨satFix_spec, fun b c => ?mul, fun b c hc => ?div, fun b c => fixDiv_zero,
    fun b n hlo hhi => ⟨fixShr_of_pos hlo hhi, if_pos rfl⟩, by decide, fun r a b c n s x h => ⟨done_onRun h _, done_onRun h _,
      done_onRun h (rBin fixMul 1 a b c), done_onRun h (rBin fixDiv 18 a b c), done_onRun h _, done_onRun h _, done_onRun h _⟩⟩
  case mul =>
    obtain ⟨hvalue, hsat, -⟩ := satFix_spec ((b.toInt * c.toInt + 0x4000) / 2 ^ 15)
    rw [fixMul_eq]
    exact ⟨hvalue, hsat.trans or_comm⟩
  case div =>
    obtain ⟨n, heq, hnear, htie⟩ := fixDiv_of_ne hc
    rw [heq]
    exact ⟨n, hnear, htie, satFix_spec n⟩

/-! ## Counters (R96) -/

/-- The SAT bit of a saturated INT32 is set exactly outside the range. -/
theorem bitOf_satInt_int32 (i : Int) : bitOf (satInt .int32 i).fl 0 = true ↔ i < -2147483648 ∨ 2147483647 < i := by
  obtain ⟨-, hsat, hnone⟩ := satInt_spec .int32 (.inl rfl) i
  by_cases hout : i < -2147483648 ∨ 2147483647 < i
  · rw [hsat.2 hout]
    exact iff_of_true (by decide) hout
  · rw [hnone.2 (by simp only [minOf, maxOf]; omega)]
    exact iff_of_false (by decide) hout

/-- CV's next value under CTU or CTD, with the flag it raises: as it is while B is FALSE, else one step on, saturated. -/
def countStep (d : Int) (b cv : Word) : Res := if b = 0 then { w := cv } else satInt .int32 (cv.toInt + d)

/-- CTU and CTD store the stepped CV in the counter's slot. -/
theorem rCount1_counters (d : Int) (a b c : Nat) (x : Run) :
    (rCount1 d a b c x).counters = listSet x.counters c { x.counters.getD c {} with cv := (countStep d (x.loc b).value (x.counters.getD c {}).cv).w } := rfl

/-- CTU and CTD raise what the step of CV raises. -/
theorem rCount1_flags (d : Int) (a b c : Nat) (x : Run) :
    (rCount1 d a b c x).flags = x.flags ||| (countStep d (x.loc b).value (x.counters.getD c {}).cv).fl := rfl

/-- The value that a counter step leaves in CV. -/
theorem countStep_toInt (d : Int) (b cv : Word) :
    (countStep d b cv).w.toInt = if b = 0 then cv.toInt else max (-2147483648) (min 2147483647 (cv.toInt + d)) := by
  unfold countStep
  split
  · rfl
  · exact (satInt_spec .int32 (.inl rfl) _).1

/-- A counter step raises SAT exactly when B is TRUE and the step leaves INT32. -/
theorem bitOf_countStep (d : Int) (b cv : Word) :
    bitOf (countStep d b cv).fl 0 = true ↔ b ≠ 0 ∧ (cv.toInt + d < -2147483648 ∨ 2147483647 < cv.toInt + d) := by
  unfold countStep
  split
  · next hb => exact iff_of_false (show ¬ bitOf 0 0 = true by decide) (fun h => h.1 hb)
  · next hb => rw [bitOf_satInt_int32, and_iff_right hb]

/-- Settles O15: the counter's slot holds the stepped CV beside its PV, every other slot is as it was, and SAT comes from the step. -/
theorem countersMoveByLevel : Obligations.CountersMoveByLevel := by
  intro e sl a b c s x up hx hc
  refine ⟨rCount1 (if up then 1 else -1) a b c x, ?completes, ?_⟩
  case completes => cases up <;> exact done_onTask hx _
  generalize (if up then 1 else -1 : Int) = d
  rw [rCount1_counters, rCount1_flags, listSet, bitOf_or0, bitOf_countStep]
  have hslot (k : Counter) : (x.counters.set c k).getD c {} = k := by simp [List.getD, hc]
  have hother (k : Counter) (j : Nat) (hj : j ≠ c) : (x.counters.set c k).getD j {} = x.counters.getD j {} := by simp [List.getD, hj.symm]
  exact ⟨by rw [hslot, countStep_toInt], by rw [hslot], hother _, Iff.rfl⟩

end Sys2Proof.Machine
end

section
/-! Proofs/DecendInstructions: each Decend instruction completes with its run function's effect on the run alone (O21 to O26). -/

namespace Sys2Proof.Machine

/-- Settles O21: the run functions of Table 7. -/
theorem decendMoveConvertComplete : Obligations.DecendMoveConvertComplete :=
  ⟨fun _ _ _ hx => done_onRun hx rNop,
    fun _ a b _ _ hx => done_onRun hx (rMov a b),
    fun _ a imm _ _ hx => done_onRun hx (rLdi a imm),
    fun _ a h _ _ hx => done_onRun hx (rLdk a h),
    fun _ a b _ _ hx => done_onRun hx (rToReal 2 a b),
    fun _ a b _ _ hx => done_onRun hx (rToReal 2 a b),
    fun _ a b _ _ hx => done_onRun hx (rFromReal .int32 1 a b),
    fun _ a b _ _ hx => done_onRun hx (rFromReal .uint32 1 a b),
    fun _ a b _ _ hx => done_onRun hx (rFromReal .fix16 32768 a b),
    fun _ a b _ _ hx => done_onRun hx (rFtor a b),
    fun _ a b _ _ hx => done_onRun hx (rConvInt .uint32 a b),
    fun _ a b _ _ hx => done_onRun hx (rConvInt .int32 a b),
    fun _ a b _ _ hx => done_onRun hx (rBtoi a b),
    fun _ a b _ _ hx => done_onRun hx (rItob a b),
    fun _ a _ _ hx => done_onRun hx (rTrel a),
    fun _ a _ _ hx => done_onRun hx (rFlags a)⟩

/-- Settles O22: the run functions of Tables 8 and 9. -/
theorem decendIntegerComplete : Obligations.DecendIntegerComplete :=
  ⟨fun _ a b c _ _ hx => done_onRun hx (rAdd a b c),
    fun _ a b c _ _ hx => done_onRun hx (rSub a b c),
    fun _ a b c _ _ hx => done_onRun hx (rMul a b c),
    fun _ a b c _ _ hx => done_onRun hx (rDiv a b c),
    fun _ a b c _ _ hx => done_onRun hx (rMod a b c),
    fun _ a b _ _ hx => done_onRun hx (rNeg a b),
    fun _ a b _ _ hx => done_onRun hx (rAbs a b),
    fun _ a b c _ _ hx => done_onRun hx (rMin a b c),
    fun _ a b c _ _ hx => done_onRun hx (rMax a b c),
    fun _ a b c _ _ hx => done_onRun hx (rLim a b c),
    fun _ a b c _ _ hx => done_onRun hx (rAddw a b c),
    fun _ a b c _ _ hx => done_onRun hx (rSubw a b c),
    fun _ a b c _ _ hx => done_onRun hx (rBits (fun x y => x &&& y) a b c),
    fun _ a b c _ _ hx => done_onRun hx (rBits (fun x y => x ||| y) a b c),
    fun _ a b c _ _ hx => done_onRun hx (rBits (fun x y => x ^^^ y) a b c),
    fun _ a b _ _ hx => done_onRun hx (rNot a b),
    fun _ a b n _ _ hx => done_onRun hx (rBitC (fun x n => x <<< n) a b n),
    fun _ a b n _ _ hx => done_onRun hx (rBitC (fun x n => x >>> n) a b n),
    fun _ a b n _ _ hx => done_onRun hx (rBitC (fun x n => x.sshiftRight n) a b n),
    fun _ a b n _ _ hx => done_onRun hx (rBitC (fun x n => x.rotateLeft n) a b n),
    fun _ a b n _ _ hx => done_onRun hx (rBitC (fun x n => if x.getLsbD n then 1 else 0) a b n),
    fun _ a b n _ _ hx => done_onRun hx (rBitC (fun x n => x ||| (1#32 <<< n)) a b n),
    fun _ a b n _ _ hx => done_onRun hx (rBitC (fun x n => x &&& ~~~(1#32 <<< n)) a b n),
    fun _ a b c _ _ hx => done_onRun hx (rBits (fun x y => x <<< (y.toNat % 32)) a b c),
    fun _ a b c _ _ hx => done_onRun hx (rBits (fun x y => x >>> (y.toNat % 32)) a b c),
    fun _ a b _ _ hx => done_onRun hx (rCount (fun n => popCount n 32) a b),
    fun _ a b _ _ hx => done_onRun hx (rCount (fun n => leadingZeros n 32) a b)⟩

/-- Settles O23: the run functions of Table 10. -/
theorem decendRealFixComplete : Obligations.DecendRealFixComplete :=
  ⟨fun _ a b c _ _ hx => done_onRun hx (rBin realAdd 2 a b c),
    fun _ a b c _ _ hx => done_onRun hx (rBin realSub 2 a b c),
    fun _ a b c _ _ hx => done_onRun hx (rBin realMul 2 a b c),
    fun _ a b c _ _ hx => done_onRun hx (rBin realDiv 14 a b c),
    fun _ a b c _ _ hx => done_onRun hx (rBin (realPick true) 1 a b c),
    fun _ a b c _ _ hx => done_onRun hx (rBin (realPick false) 1 a b c),
    fun _ a b c _ _ hx => done_onRun hx (rBin fixMul 1 a b c),
    fun _ a b c _ _ hx => done_onRun hx (rBin fixDiv 18 a b c),
    fun _ a b _ _ hx => done_onRun hx (rUn realNegate 1 a b),
    fun _ a b _ _ hx => done_onRun hx (rUn realAbs 1 a b),
    fun _ a b _ _ hx => done_onRun hx (rUn realSqrt 16 a b),
    fun _ a b _ _ hx => done_onRun hx (rUn (realIntegral ratRound) 2 a b),
    fun _ a b _ _ hx => done_onRun hx (rUn (realIntegral ratTrunc) 2 a b),
    fun _ a b c _ _ hx => done_onRun hx (rTri realLim 1 a b c),
    fun _ a b c _ _ hx => done_onRun hx (rTri realMac 3 a b c),
    fun _ a b c _ _ hx => done_onRun hx (rBin (fun x y => satInt .fix16 (x.toInt + y.toInt)) 1 a b c),
    fun _ a b c _ _ hx => done_onRun hx (rBin (fun x y => satInt .fix16 (x.toInt - y.toInt)) 1 a b c),
    fun _ a b _ _ hx => done_onRun hx (rUn (fun x => satInt .fix16 (-x.toInt)) 1 a b),
    fun _ a b _ _ hx => done_onRun hx (rUn (fun x => satInt .fix16 x.toInt.natAbs) 1 a b),
    fun _ a b c _ _ hx => done_onRun hx (rLim a b c),
    fun _ a b n _ _ hx => done_onRun hx (fun x => x.opC (fun _ b n => fixShr b n) 1 a b n)⟩

/-! ## Compare and control (R87 to R89) -/

/-- JT and JF jump when A's value is the one they want. -/
theorem rJumpIf_taken {want : Bool} {a : Nat} {x : Run} (h : ((x.loc a).value != 0) = want) (target : Nat) : rJumpIf want a target x = rJump target x := by
  subst h
  exact if_pos (beq_self_eq_true _)

/-- JT and JF move on when A's value is the other one. -/
theorem rJumpIf_passed {want : Bool} {a : Nat} {x : Run} (h : ((x.loc a).value != 0) = !want) (target : Nat) : rJumpIf want a target x = x.fin 0 1 2 := by
  unfold rJumpIf
  rw [h]
  exact if_neg (by cases want <;> decide)

/-- ENDL counts the index of the innermost loop, and goes back to its body or leaves it. -/
theorem rEndl_cons {x : Run} {f : LoopFrame} {l : List LoopFrame} (h : x.loops = f :: l) :
    rEndl x = (let y := x.putQ f.index ((x.loc f.index).value + 1) .good 0 1 2
      if ((x.loc f.index).value + 1).toNat < f.bound then { y with pc := f.body } else { y with loops := l }) := by
  unfold rEndl; rw [h]

/-- Settles O24: the run functions of Tables 11 and 12, a jump taken and one not taken apart. -/
theorem decendCompareControlComplete : Obligations.DecendCompareControlComplete := by
  refine
    ⟨fun _ a b c _ _ hx => done_onRun hx (rCmp .eq a b c),
      fun _ a b c _ _ hx => done_onRun hx (rCmp .ne a b c),
      fun _ a b c _ _ hx => done_onRun hx (rCmp .lt a b c),
      fun _ a b c _ _ hx => done_onRun hx (rCmp .le a b c),
      fun _ a b c _ _ hx => done_onRun hx (rCmp .gt a b c),
      fun _ a b c _ _ hx => done_onRun hx (rCmp .ge a b c),
      fun _ a b c _ _ hx => done_onRun hx (rTbef a b c),
      fun _ h _ _ hx => done_onRun hx (rJump h),
      ?jtTaken,
      ?jtPassed,
      ?jfTaken,
      ?jfPassed,
      fun _ a h _ _ hx => done_onRun hx (rLoop a h),
      ?endl,
      fun _ a b c _ _ hx => done_onRun hx (rSel a b c)⟩
  case jtTaken => exact fun _ _ h _ _ hx hA => done_onRun_of_eq hx (rJumpIf_taken (bne_iff_ne.2 hA) h)
  case jtPassed => exact fun _ _ h _ _ hx hA => done_onRun_of_eq hx (rJumpIf_passed (bne_eq_false_iff_eq.2 hA) h)
  case jfTaken => exact fun _ _ h _ _ hx hA => done_onRun_of_eq hx (rJumpIf_taken (bne_eq_false_iff_eq.2 hA) h)
  case jfPassed => exact fun _ _ h _ _ hx hA => done_onRun_of_eq hx (rJumpIf_passed (bne_iff_ne.2 hA) h)
  case endl => exact fun _ _ _ _ _ hx hloops => done_onRun_of_eq hx (rEndl_cons hloops)

/-! ## Tables and points (R92, R98 to R100) -/

/-- GET raises QUAL for an import neither GOOD nor FORCED. -/
theorem rGet_eq (a i : Nat) (x : Run) :
    rGet a i x = x.putQ a (x.imports.getD i {}).value (x.imports.getD i {}).q
      (if (x.imports.getD i {}).q = .good ∨ (x.imports.getD i {}).q = .forced then 0 else flQual) 1 3 := by
  unfold rGet
  simp only [Bool.or_eq_true, decide_eq_true_eq]

/-- Settles O25: the run functions of Tables 16 and 13. -/
theorem decendTablesPointsComplete : Obligations.DecendTablesPointsComplete :=
  ⟨fun _ a b t _ _ hx => done_onRun hx (rLutl a b t),
    fun _ a b t _ _ hx => done_onRun hx (rLuts a b t),
    fun _ a b t _ _ hx => done_onRun hx (rHfind a b t),
    fun _ a b t _ _ hx => done_onRun hx (rHhas a b t),
    fun _ a t _ _ hx => done_onRun hx (rTlen a t),
    fun _ a b t _ _ hx => done_onRun hx (rTrd a b t),
    fun _ _ a i _ x hx => done_onTask_of_eq hx (rGet_eq a i x),
    fun _ _ a i _ _ hx => done_onTask hx (rGetq a i),
    fun _ _ a i _ _ hx => done_onTask hx (rGets a i),
    fun _ _ a o _ _ hx => done_onTask hx (rGeto a o),
    fun _ _ a o _ _ hx => done_onTask hx (rPut a o),
    fun _ _ a o _ _ hx => done_onTask hx (rPutg a o),
    fun _ _ o _ _ hx => done_onTask hx (rPutf o)⟩

/-! ## Edges, timers, counters, alarms and events (R93 to R102) -/

/-- ALM with no acknowledgement latched and B neither FAULT nor ABSENT evaluates B (Table 18). -/
theorem almRun_of_no_ack {al : Alarm} {v : LocalVal} (hack : al.ackLatch = false) (hfault : v.q ≠ .fault) (habsent : v.q ≠ .absent) (x : Run) (ty : VType) :
    almRun x al v ty = almEval x al (v.value != 0) v ty := by
  simp [almRun, hack, hfault, habsent]

/-- ALM of an alarm that holds no record is that evaluation, stored in the alarm's slot. -/
theorem rAlm_of_not_held {b c : Nat} {x : Run} (h : (x.alarms.getD c {}).held = none) :
    rAlm b c x = ({ (almRun x (x.alarms.getD c {}) (x.loc b) (x.ty b)).1 with
      alarms := listSet (almRun x (x.alarms.getD c {}) (x.loc b) (x.ty b)).1.alarms c (almRun x (x.alarms.getD c {}) (x.loc b) (x.ty b)).2 }).fin 0 1 4 := by
  have hdrain : x.drainHeld (x.alarms.getD c {}) = (x, x.alarms.getD c {}) := by unfold Run.drainHeld; rw [h]
  unfold rAlm
  rw [hdrain]
  simp only [h, Option.isSome_none, Bool.false_eq_true, if_false]

/-- CTU puts the stepped CV in the counter's slot, and into A whether it has come up to PV. -/
theorem rCount1_up (a b c : Nat) (x : Run) :
    rCount1 1 a b c x = ({ x with
      counters := listSet x.counters c { x.counters.getD c {} with cv := (countStep 1 (x.loc b).value (x.counters.getD c {}).cv).w } }).put a
      { w := if (x.counters.getD c {}).pv.toInt ≤ (countStep 1 (x.loc b).value (x.counters.getD c {}).cv).w.toInt then 1 else 0,
        fl := (countStep 1 (x.loc b).value (x.counters.getD c {}).cv).fl } [(x.loc b).q] 1 3 := by
  unfold rCount1 countStep
  simp only [Int.one_pos, if_true, decide_eq_true_eq]

/-- CTD puts the stepped CV in the counter's slot, and into A whether it has come down to zero. -/
theorem rCount1_down (a b c : Nat) (x : Run) :
    rCount1 (-1) a b c x = ({ x with
      counters := listSet x.counters c { x.counters.getD c {} with cv := (countStep (-1) (x.loc b).value (x.counters.getD c {}).cv).w } }).put a
      { w := if (countStep (-1) (x.loc b).value (x.counters.getD c {}).cv).w.toInt ≤ 0 then 1 else 0,
        fl := (countStep (-1) (x.loc b).value (x.counters.getD c {}).cv).fl } [(x.loc b).q] 1 3 := by
  have hdown : ¬ (0 : Int) < -1 := by decide
  unfold rCount1 countStep
  simp only [hdown, if_false, decide_eq_true_eq]

/-- Settles O26: the run functions of Tables 14, 15 and 17. -/
theorem decendBlocksComplete : Obligations.DecendBlocksComplete := by
  refine
    ⟨fun _ _ a b k _ _ hx => done_onTask hx (rEdge (fun p n => p = 0 && n != 0) a b k),
      fun _ _ a b k _ _ hx => done_onTask hx (rEdge (fun p n => p != 0 && n = 0) a b k),
      fun _ _ a b k _ _ hx => done_onTask hx (rEdge (fun p n => p != n) a b k),
      fun _ _ k _ _ hx => done_onTask hx (rEdgclr k),
      fun _ _ a b c _ _ hx => done_onTask hx (rTimer tonStep a b c),
      fun _ _ a b c _ _ hx => done_onTask hx (rTimer tofStep a b c),
      fun _ _ a b c _ _ hx => done_onTask hx (rTimer tpStep a b c),
      fun _ _ b c _ _ hx => done_onTask hx (rTpre b c),
      fun _ _ a c _ _ hx => done_onTask hx (rTelp a c),
      fun _ _ c _ _ hx => done_onTask hx (rTrst c),
      fun _ _ a b c _ x hx => done_onTask_of_eq hx (rCount1_up a b c x),
      fun _ _ a b c _ x hx => done_onTask_of_eq hx (rCount1_down a b c x),
      fun _ _ c _ _ hx => done_onTask hx (rCrst c),
      fun _ _ c _ _ hx => done_onTask hx (rCld c),
      fun _ _ b c _ _ hx => done_onTask hx (rCpre b c),
      fun _ _ a c _ _ hx => done_onTask hx (rCget a c),
      ?alm,
      fun _ _ a c _ _ hx => done_onTask hx (rAlmq a c),
      fun _ _ b c _ _ hx => done_onTask hx (rEvent .evt b c),
      fun _ _ b c _ _ hx => done_onTask hx (rEvent .trend b c),
      fun _ _ b c _ _ hx => done_onTask hx (rEvent .evsig b c),
      fun _ _ c _ _ hx => done_onTask hx (rEvdig c)⟩
  case alm =>
    rintro _ _ b c _ x hx ⟨hheld, hack, hfault, habsent⟩
    exact done_onTask_of_eq hx (almRun_of_no_ack hack hfault habsent x (x.ty b) ▸ rAlm_of_not_held hheld)

end Sys2Proof.Machine
end

section
/-! Proofs/JoineryDefinitions: the definition instructions of joinery, staged or ending the run (O28). -/

namespace Sys2Proof.Machine

section
variable {s : State} {op at_ : Nat} (hscf : scfState s = 1) (hend : s.jrun.ended = false)
include hscf hend

/-- While the scarf is in STAGING and the joinery run goes on, an item that is staged is the command's effect. -/
theorem joinRow_of_staged {t : State} (h : joinItem s op at_ = (t, none)) : joinRow s op at_ = t := by
  unfold scfState at hscf
  unfold joinRow
  rw [if_neg (by simp [hscf, hend]), h]

/-- An item that aborts stages nothing and ends the run. -/
theorem joinRow_of_aborted {t : State} {a : Nat × Nat} (h : joinItem s op at_ = (t, some a)) :
    joinRow s op at_ = { s with jrun := { s.jrun with ended := true } } := by
  unfold scfState at hscf
  unfold joinRow
  rw [if_neg (by simp [hscf, hend]), h]

/-- A descriptor that breaches nothing and is in range stages its item, read from as many words as its KIND has. -/
theorem joinRow_stages (hbreach : joinBreach s op (fun k => (s.jrun.consts.getD (at_ + k) 0).toNat) = false)
    (hrange : descBad s op (fun k => (s.jrun.consts.getD (at_ + k) 0).toNat) = false) :
    joinRow s op at_ = { s with
      scf := { s.scf with staging := stageDef s op ((List.range (defKind op).2).map (fun k => (s.jrun.consts.getD (at_ + k) 0).toNat)) },
      jrun := s.jrun.fin 0 1 1 } :=
  joinRow_of_staged hscf hend ((if_neg (Bool.eq_false_iff.1 hbreach)).trans (if_neg (Bool.eq_false_iff.1 hrange)))

/-- A descriptor that breaches R105 or is out of range only ends the run. -/
theorem joinRow_aborts (hbad : joinBreach s op (fun k => (s.jrun.consts.getD (at_ + k) 0).toNat) = true ∨
      descBad s op (fun k => (s.jrun.consts.getD (at_ + k) 0).toNat) = true) :
    joinRow s op at_ = { s with jrun := { s.jrun with ended := true } } := by
  by_cases hbreach : joinBreach s op (fun k => (s.jrun.consts.getD (at_ + k) 0).toNat) = true
  · exact joinRow_of_aborted hscf hend (if_pos hbreach)
  · exact joinRow_of_aborted hscf hend ((if_neg hbreach).trans (if_pos (hbad.resolve_left hbreach)))

end

/-- Settles O28: every definition instruction is `joinRow` of its opcode. -/
theorem joineryDefinitionsStage : Obligations.JoineryDefinitionsStage := by
  refine ⟨?defpt, ?defgr, ?defctx, ?defvid, ?defloop, ?defgrp, ?defcirc, ?defmap, ?defexp, ?admission, ?deldef, ?aborted⟩
  case aborted => exact fun _ _ hscf hend hbad => congrArg done (joinRow_aborts hscf hend hbad)
  all_goals exact fun _ _ hscf hend hbreach hrange => congrArg done (joinRow_stages hscf hend hbreach hrange)

end Sys2Proof.Machine
end

section
/-! Proofs/CyclicExecution: elapsed time and the life-cycle fuses over a step (O10), and the commands of the task cycle and of LE_T_CMD (O27). -/

namespace Sys2Proof.Machine

/-- Settles O10: the idle cycle and every command keep elapsed time and the fuses from falling, and the queue is no part of either. -/
theorem timeAndFusesNeverFall : Obligations.TimeAndFusesNeverFall := by
  intro s t hstep
  cases hp : s.pending with
  | nil =>
    obtain rfl : idleCycle s = t := Host.Outcome.next.inj ((step_of_pending_nil hp).symm.trans hstep)
    have hkept := idleCycle_kept (Kept.refl s)
    exact ⟨hkept.mono, hkept.fused⟩
  | cons c q =>
    obtain ⟨u, hu, hkept⟩ := exec_answers c (s.withPending q)
    obtain rfl : u = t := Host.Outcome.next.inj (hu.symm.trans ((step_of_pending_cons hp).symm.trans hstep))
    exact ⟨hkept.mono, hkept.fused⟩

/-! ## The grid tick (R109, R110) -/

/-- GRID_TICK answers the tick's state, with the queue as it was and time gone on. -/
theorem exec_gridTick (s : State) : exec .gridTick s = .next (gridTick s) ∧ (gridTick s).pending = s.pending ∧ s.mono ≤ (gridTick s).mono :=
  have hkept := gridTick_kept (Kept.refl s)
  ⟨rfl, hkept.pending, hkept.mono⟩

/-- With no point write waiting the rest of the grid tick passes alone. -/
theorem advanceTick_of_waiting_nil {s : State} (h : s.pt.waiting = []) :
    advanceTick s = { passCycles s (tickLen s - s.fc) with
      tick := (s.tick + 1) % tickMod, mono := s.mono + 1, fc := 0, sub := 0, subEl := s.subEl + (4 - s.sub),
      gridAcc := (Int.emod (tickShift s) 100000000).toNat, pt := { s.pt with loopOuts := [] } } := by
  unfold advanceTick
  rw [passTime_idle s _ h]
  rfl

/-! ## Gather, dispatch, END and the scatters (R113, R115, R116, R126, R127) -/

/-- Following an engine's activity writes register fields and nothing else. -/
theorem updActivity_eq_setFs (s : State) (e : Nat) : ∃ l, updActivity s e = setFs s l := by
  unfold updActivity
  dsimp only
  split
  · exact ⟨_, rfl⟩
  · exact ⟨_, rfl⟩
  · exact ⟨_, rfl⟩
  · exact ⟨[(Fld.LE_E_STAT_ACTIVITY e, 0)], rfl⟩

@[simp] theorem updActivity_pt (s : State) (e : Nat) : (updActivity s e).pt = s.pt := by
  obtain ⟨l, h⟩ := updActivity_eq_setFs s e
  rw [h, setFs_pt]

@[simp] theorem updActivity_tasks (s : State) (e : Nat) : (updActivity s e).tasks = s.tasks := by
  obtain ⟨l, h⟩ := updActivity_eq_setFs s e
  rw [h, setFs_tasks]

theorem gatherTask_pt (s : State) (k : Nat) (t : Task) : (gatherTask s k t).pt = s.pt := by
  simp [gatherTask, putTask]

theorem gatherTask_tasks (s : State) (k : Nat) (t : Task) : (gatherTask s k t).tasks =
    tabPut s.tasks k { t with phase := .ready, run := { t.run with imports := t.dfn.imports.map (gatherOne s) } } := by
  simp [gatherTask, putTask]

/-- With no commit due, TASK_GATHER gathers the engine's first released task. -/
theorem exec_taskGather_first {e : Fin 8} {k : Nat} {x : Task} {s : State} (hdue : commitDue s = none)
    (hfirst : leastBy gatherBefore (s.tasks.filter (fun kt => kt.1 / 8 == e.val && kt.2.phase == .released)) = some (k, x)) :
    exec (.taskGather e) s = .next (gatherTask s k x) := by
  show execTaskGather e s = _
  unfold execTaskGather
  rw [hdue, if_neg (by simp), hfirst]

section
variable {e k : Nat} {x : Task} {s : State} (hfree : engineBusy s e = false)
  (hfirst : leastBy runBefore (s.tasks.filter (fun kt => kt.1 / 8 == e && (kt.2.phase == .ready || kt.2.phase == .preempted))) = some (k, x))
include hfree hfirst

/-- On an engine that runs nothing the first ready task runs. -/
theorem dispatchEngine_of_none_running (hnone : s.tasks.find? (fun kt => kt.1 / 8 == e && kt.2.phase == .running) = none) :
    dispatchEngine s e = updActivity (putTask s k { x with phase := .running }) e := by
  unfold dispatchEngine
  rw [if_neg (by simp [hfree]), hfirst, hnone]

/-- A task of an earlier deadline preempts the running one. -/
theorem dispatchEngine_of_earlier_deadline {k0 : Nat} {x0 : Task}
    (hrunning : s.tasks.find? (fun kt => kt.1 / 8 == e && kt.2.phase == .running) = some (k0, x0)) (hearlier : x.deadline < x0.deadline) :
    dispatchEngine s e = updActivity (incF (putTask (putTask s k0 { x0 with phase := .preempted }) k { x with phase := .running })
      (Fld.LE_E_STAT_PREEMPTS e)) e := by
  have hbefore : deadlineBefore x x0 = true := decide_eq_true hearlier
  unfold dispatchEngine
  rw [if_neg (by simp [hfree]), hfirst, hrunning]
  exact if_pos hbefore

end

section
variable {e sl : Fin 8} {x : Task} {s : State} (htask : taskAt? s e sl = some x)
include htask

/-- END of a running task that no gather and no Force holds ends the run and starts the scatter. -/
theorem endTask_of_running (hrunning : x.phase = .running) (hgathers : gathersFirst s e = false)
    (hoverrun : forced s .taskOverrun (taskKey e sl) = false) (hlimit : forced s .taskLimit (taskKey e sl) = false) :
    endTask s e sl = updActivity (endReport (putTask s (taskKey e sl) { x with run := rEnd x.run, phase := .scatter }) (taskKey e sl)
      { x with run := rEnd x.run, phase := .scatter }) e.val := by
  unfold endTask
  dsimp only
  rw [htask]
  exact if_neg (by simp [hrunning, hgathers, hoverrun, hlimit])

/-- TASK_SCATTER of a task whose run has ended, with no gather before it. -/
theorem exec_taskScatter_of_scatter (hphase : x.phase = .scatter) (hgathers : gathersFirst s e = false) :
    exec (.taskScatter e sl) s = .next (scatterTask s (taskKey e sl) x) := by
  show execTaskScatter e sl s = _
  unfold execTaskScatter
  rw [htask]
  exact if_pos (by simp [hphase, hgathers])

/-- STOP_SCATTER that is due. -/
theorem exec_stopScatter_of_due (hdue : x.scatterDue = true) : exec (.stopScatter e sl) s = .next (stopScatterTask s (taskKey e sl) x) := by
  show execStopScatter e sl s = _
  unfold execStopScatter
  rw [htask]
  exact if_pos hdue

/-! ## Events after the run (03 R101) -/

/-- A change of the task in a slot is a change of its entry. -/
theorem mapTask_of_taskAt (f : Task → Task) : mapTask s (taskKey e sl) f = { s with tasks := tabPut s.tasks (taskKey e sl) (f x) } := by
  have hentry : taskOf? s (taskKey e sl) = some x := htask
  unfold mapTask
  rw [hentry]
  rfl

/-- EVENT_SIGN once the run is over. -/
theorem exec_eventSign_of_runOver (hover : runOver x = true) :
    exec (.eventSign e sl) s = .next { s with tasks := tabPut s.tasks (taskKey e sl) { x with run := { x.run with
      events := updFirst unsigned (signWith s x.dfn.signSlot) x.run.events } } } := by
  show execEventSign e sl s = _
  unfold execEventSign
  rw [mapTask_of_taskAt htask, if_pos hover]

/-- EVENT_DIGEST once the run is over. -/
theorem exec_eventDigest_of_runOver (hover : runOver x = true) :
    exec (.eventDigest e sl) s = .next { s with tasks := tabPut s.tasks (taskKey e sl) { x with run := { x.run with
      events := updFirst undigested digestOf x.run.events } } } := by
  show execEventDigest e sl s = _
  unfold execEventDigest
  rw [mapTask_of_taskAt htask, if_pos hover]

/-- EVENT_QUEUE_DRAIN of a slot that holds a task. -/
theorem exec_eventQueueDrain_of_task : exec (.eventQueueDrain e sl) s = .next (drainQueue s (taskKey e sl) x) := by
  show execEventQueueDrain e sl s = _
  unfold execEventQueueDrain
  rw [htask]

end

/-! ## Commands through LE_T_CMD (R129 Tables 3 and 4, R138) -/

@[simp] theorem keyE_taskKey (e sl : Fin 8) : keyE (taskKey e sl) = e.val := by unfold keyE taskKey; omega

@[simp] theorem keyS_taskKey (e sl : Fin 8) : keyS (taskKey e sl) = sl.val := by unfold keyS taskKey; omega

/-- LE_T_CMD of a slot after an accepted command: its OP, RESULT 0, and no request left. -/
def acceptedCmd (s : State) (e sl : Fin 8) (op : Nat) : State :=
  setFs s [(Fld.LE_T_CMD_OP e.val sl.val, op), (Fld.LE_T_CMD_RESULT e.val sl.val, 0), (Fld.LE_T_CMD_BUSY e.val sl.val, 0),
    (Fld.LE_T_CMD_GO e.val sl.val, 0)]

/-- An accepted command's effect finds LE_T_CMD already written. -/
theorem taskCmd_of_accepted {s : State} {e sl : Fin 8} {op : Nat} (h : taskCmdResult s (taskKey e sl) op = 0) :
    taskCmd s (taskKey e sl) op = taskCmdEffect (acceptedCmd s e sl op) (taskKey e sl) op := by
  unfold taskCmd
  dsimp only
  rw [h, if_pos rfl, keyE_taskKey, keyS_taskKey]
  rfl

/-- The operating mode is no field of LE_T_CMD. -/
theorem modeOf_acceptedCmd {s : State} (hinv : Inv s) (e sl : Fin 8) (op : Nat) : modeOf (acceptedCmd s e sl op) = modeOf s := by
  refine getF_setFs_ne _ hinv.regs fun p hp => ?_
  simp only [List.mem_cons, List.not_mem_nil, or_false] at hp
  obtain rfl | rfl | rfl | rfl := hp <;> simp only [RF.key] <;> omega

/-- Run in Run or Commission mode starts or resumes the task. -/
theorem taskCmd_run {e sl : Fin 8} {s : State} (hmode : modeOf s = 0 ∨ modeOf s = 1) (htask : taskState s (taskKey e sl) ≠ 0) :
    taskCmd s (taskKey e sl) 1 = requestRun (acceptedCmd s e sl 1) (taskKey e sl) :=
  taskCmd_of_accepted (by simp [taskCmdResult, hmode, htask])

/-- Stop in Run, Commission or Hold mode stops the task. -/
theorem taskCmd_stop {e sl : Fin 8} {s : State} (hmode : modeOf s ≤ 2) (htask : taskState s (taskKey e sl) ≠ 0) (hinv : Inv s) :
    taskCmd s (taskKey e sl) 2 = requestStop (acceptedCmd s e sl 2) (taskKey e sl) 1 := by
  have hafter := modeOf_acceptedCmd hinv e sl 2
  have hnamed : modeOf s ≤ 3 := by omega
  rw [taskCmd_of_accepted (by simp [taskCmdResult, hnamed, htask])]
  exact if_neg (by omega)

/-- Hold in Run mode holds the task. -/
theorem taskCmd_hold {e sl : Fin 8} {s : State} (hmode : modeOf s = 0) (htask : taskState s (taskKey e sl) ≠ 0) (hinv : Inv s) :
    taskCmd s (taskKey e sl) 3 = requestHold (acceptedCmd s e sl 3) (taskKey e sl) false := by
  have hafter := modeOf_acceptedCmd hinv e sl 3
  rw [taskCmd_of_accepted (by simp [taskCmdResult, hmode, htask])]
  exact if_neg (by omega)

/-- Step of a held task in Run or Hold mode. -/
theorem taskCmd_step {e sl : Fin 8} {s : State} (hmode : modeOf s = 0 ∨ modeOf s = 2) (hheld : taskState s (taskKey e sl) = 3) :
    taskCmd s (taskKey e sl) 4 = requestStep (acceptedCmd s e sl 4) (taskKey e sl) :=
  taskCmd_of_accepted (by simp [taskCmdResult, hmode, hheld])

/-- The clear command zeroes the slot's statistics. -/
theorem taskCmd_clear {e sl : Fin 8} {s : State} (htask : taskState s (taskKey e sl) ≠ 0) :
    taskCmd s (taskKey e sl) 7 = setFs (acceptedCmd s e sl 7) [(Fld.LE_T_MAXCOST_MAX e.val sl.val, 0), (Fld.LE_T_FLAGS_STICKY e.val sl.val, 0),
      (Fld.LE_T_SNAP_MAX_END e.val sl.val, 0), (Fld.LE_T_RESP_MAX_US e.val sl.val, 0)] := by
  have heffect (t : State) (k : Nat) : taskCmdEffect t k 7 = clearTaskStats t k := rfl
  rw [taskCmd_of_accepted (by simp [taskCmdResult, htask]), heffect]
  unfold clearTaskStats
  rw [keyE_taskKey, keyS_taskKey]

/-- Writing 1 to LE_T_MAXCOST bit 31 zeroes MAX. -/
theorem getF_maxcost_cleared {s : State} (hinv : Inv s) (e sl : Fin 8) :
    getF (setF s (Fld.LE_T_MAXCOST_MAX e.val sl.val) 0) (Fld.LE_T_MAXCOST_MAX e.val sl.val) = 0 :=
  (getF_setF_same hinv.regs _ 0).trans (Nat.zero_mod _)

/-- Settles O27, clause by clause. -/
theorem taskCommandsComplete : Obligations.TaskCommandsComplete := by
  refine ⟨?gridTick, fun _ => advanceTick_of_waiting_nil, ?gather, ?dispatch, ?preempt, ?endRun, fun _ => rfl, fun _ _ _ _ => exec_taskScatter_of_scatter,
    fun _ _ _ _ => exec_stopScatter_of_due, ?run, ?stop, ?hold, ?step, ?clear, ?maxcost, ?resume, fun _ _ _ _ => exec_eventSign_of_runOver,
    fun _ _ _ _ => exec_eventDigest_of_runOver, fun _ _ _ _ => exec_eventQueueDrain_of_task⟩
  case gridTick =>
    intro s
    obtain ⟨hexec, hpending, hmono⟩ := exec_gridTick s
    exact ⟨gridTick s, hexec, hpending, hmono, rfl⟩
  case gather => exact fun e k x s hdue hfirst => ⟨_, exec_taskGather_first hdue hfirst, gatherTask_pt s k x, gatherTask_tasks s k x⟩
  case dispatch => exact fun e k x s hfree hfirst hnone => congrArg done (dispatchEngine_of_none_running hfree hfirst hnone)
  case preempt =>
    exact fun e k k0 x x0 s hfree hfirst hrunning hearlier => congrArg done (dispatchEngine_of_earlier_deadline hfree hfirst hrunning hearlier)
  case endRun =>
    exact fun e sl x s htask hrunning hgathers hoverrun hlimit => congrArg done (endTask_of_running htask hrunning hgathers hoverrun hlimit)
  case run => exact fun e sl s hmode hstopped => congrArg done (taskCmd_run hmode (by omega))
  case stop => exact fun e sl s hmode htask hinv => congrArg done (taskCmd_stop hmode htask hinv)
  case hold => exact fun e sl s hmode htask hinv => congrArg done (taskCmd_hold hmode htask hinv)
  case step => exact fun e sl s hmode hheld => congrArg done (taskCmd_step hmode hheld)
  case clear => exact fun e sl s htask => congrArg done (taskCmd_clear htask)
  case maxcost => exact fun e sl s hinv => ⟨_, rfl, getF_maxcost_cleared hinv e sl, rfl⟩
  case resume => exact fun e s hruns hheld => if_pos (by simp [hruns, hheld])

end Sys2Proof.Machine
end

section
/-! Proofs/ScarfCommands: the change in hand, and the commands of the scarf at one module (O29). -/

namespace Sys2Proof.Machine

/-! ## The change in hand, and whether it commits (R144, R157) -/

/-- Outside IDLE the head of the queue is in hand. -/
theorem inHand?_of_queue {s : State} {c : Change} {r : List Change} (hqueue : s.scf.queue = c :: r) (hbusy : scfState s ≠ 0) : inHand? s = some c := by
  unfold inHand?
  rw [if_neg hbusy, hqueue, List.head?_cons]

section
variable {s : State} {c : Change} {r : List Change} (hqueue : s.scf.queue = c :: r) (harmed : scfState s = 4)
include hqueue harmed

/-- An armed local change commits from its target on. -/
theorem commitDue_of_armed_local (hlocal : c.estate = false) (htarget : s.scf.target ≤ s.tick) : commitDue s = some c := by
  unfold commitDue
  rw [inHand?_of_queue hqueue (by omega)]
  exact if_pos (by simp [harmed, hlocal, htarget])

/-- An armed estate change without GO does not commit. -/
theorem commitDue_of_armed_without_go (hestate : c.estate = true) (hgo : getB s Fld.SCF_ESTATE_GO_HELD = false) : commitDue s = none := by
  unfold commitDue
  rw [inHand?_of_queue hqueue (by omega)]
  exact (if_neg (by simp [hestate, hgo])).trans (if_neg (by simp [harmed]))

/-- From its target on it is in doubt. -/
theorem inDoubt_of_armed_without_go (hestate : c.estate = true) (hgo : getB s Fld.SCF_ESTATE_GO_HELD = false) (htarget : s.scf.target ≤ s.tick) :
    inDoubt s = true := by
  unfold inDoubt
  rw [inHand?_of_queue hqueue (by omega)]
  simp [harmed, hestate, hgo, htarget]

/-- SCARF_COMMIT at or after the target of an armed local change applies it. -/
theorem scarfCommit_of_armed_local (hlocal : c.estate = false) (htarget : s.scf.target ≤ s.tick) : scarfCommit s = applyChange s c := by
  unfold scarfCommit
  rw [commitDue_of_armed_local hqueue harmed hlocal htarget]

/-- SCARF_COMMIT at or after the target of an armed estate change without GO puts it in doubt. -/
theorem scarfCommit_of_armed_without_go (hestate : c.estate = true) (hgo : getB s Fld.SCF_ESTATE_GO_HELD = false) (htarget : s.scf.target ≤ s.tick) :
    scarfCommit s = raise (setF s Fld.SCF_STATE_STATE 5) .scfInDoubt := by
  unfold scarfCommit
  rw [commitDue_of_armed_without_go hqueue harmed hestate hgo]
  exact if_pos (inDoubt_of_armed_without_go hqueue harmed hestate hgo htarget)

end

/-! ## Submission and staging (R141, R143, R144) -/

/-- With the debug path open a request over the management UART is performed for tenant 4095. -/
theorem mgmtUart_of_debugOpen {s : State} {id : Nat} (hopen : getB { s with tr := { s.tr with askers := tabDel s.tr.askers id } } Fld.LC_STATE_DEBUG_OPEN = true)
    (f : State → Nat → State) : mgmtUart s id f = f { s with tr := { s.tr with askers := tabDel s.tr.askers id } } 4095 := if_pos hopen

/-- An idle scarf takes the head of the queue in hand. -/
theorem scarfStage_of_idle {s : State} {c : Change} {r : List Change} (hqueue : s.scf.queue = c :: r) (hidle : scfState s = 0) : scarfStage s = takeHead s c := by
  unfold scarfStage
  rw [hqueue]
  exact if_pos hidle

/-- In the modes Commission, Run and Hold a change with no participants is staged at once. -/
theorem takeHead_of_no_parts {s : State} {c : Change} (hmode : modeOf s ≤ 2) (hparts : c.parts = []) : takeHead s c = stageInHand (beginStage s c) c true := by
  have hstage : stageMode s c = true := by simp [stageMode, hmode]
  unfold takeHead
  rw [if_neg (by simp [hstage]), if_pos (by simp [hparts])]

/-! ## The commands of SCF_CMD (R144) -/

/-- ARM_AT of a staged local change with an acceptable target. -/
theorem scfCmd_armAt {s : State} {c : Change} {r : List Change} (hqueue : s.scf.queue = c :: r) (hstaged : scfState s = 3) (hlocal : c.estate = false)
    (htarget : targetOk s (getF s Fld.SCF_TICK_LO_TARGET_LO + 2 ^ 32 * getF s Fld.SCF_TICK_HI_TARGET_HI) = true) :
    scfCmd s 2 = armFor (scfFields s 2 0) (getF s Fld.SCF_TICK_LO_TARGET_LO + 2 ^ 32 * getF s Fld.SCF_TICK_HI_TARGET_HI) := by
  unfold scfCmd
  rw [inHand?_of_queue hqueue (by omega)]
  exact (if_neg (by simp [hstaged, hlocal])).trans (if_pos htarget)

/-- SCF_ABORT of a staged change, in a fabric cycle with no commit. -/
theorem scfCmd_abort_of_staged {s : State} (hstaged : scfState s = 3) (hcommit : s.scf.lastCommit ≠ some s.el) :
    scfCmd s 1 = endChange (scfFields s 1 0) 3 := by
  unfold scfCmd
  exact (if_neg (by simp [hstaged, hcommit])).trans (if_pos (by simp [hstaged]))

/-- SCF_ABORT of an armed local change before its tick. -/
theorem scfCmd_abort_of_armed_local {s : State} {c : Change} {r : List Change} (hqueue : s.scf.queue = c :: r) (harmed : scfState s = 4)
    (hlocal : c.estate = false) (hbefore : s.tick < s.scf.target) (hcommit : s.scf.lastCommit ≠ some s.el) :
    scfCmd s 1 = endChange (scfFields s 1 0) 3 := by
  unfold scfCmd
  rw [inHand?_of_queue hqueue (by omega)]
  exact (if_neg (by simp [hcommit, hbefore])).trans (if_pos (by simp [harmed, hlocal]))

/-! ## The record in NAND (R160) -/

/-- CONFIG_NAND_WRITE with a record due is a heavy operation of the NAND, whose effect is the record if it succeeds. -/
theorem exec_configNandWrite_of_due {s : State} (hdue : s.scf.nandDue = true) (ok : Bool) :
    exec (.configNandWrite ok) s = .next (withGrant s .nand (fun s =>
      if !ok then s
      else { s with scf := { s.scf with
        nand := some { defs := s.scf.defs, regs := s.regs.filter (fun kv => isStaged kv.1), applied := s.scf.applied }, nandDue := false } })) :=
  if_neg (by simp [hdue])

/-- Settles O29, clause by clause. -/
theorem scarfCommandsComplete : Obligations.ScarfCommandsComplete := by
  refine ⟨?submitFrame, ?submitUart, ?stage, ?armAt, ?abortStaged, ?abortArmed, fun _ => rfl, ?commitLocal, ?inDoubt, ?nandGranted, ?nandWaits⟩
  case submitFrame =>
    intro h id target tenant images tick ps policy tn c s u hc hlife hmanager hcount hmode hroom hshare htake htarget
    exact congrArg done ((mgmtAt_here htake htarget _ _).trans (submitRequest_ok c u _ tn images _ ps policy hc hlife hmanager hcount hmode hroom hshare))
  case submitUart =>
    intro id target tenant images tick ps policy c s u hc hlife hmanager hcount hmode hroom hshare hu hopen
    subst hu
    exact congrArg done ((mgmtUart_of_debugOpen hopen _).trans (submitRequest_ok c _ _ 4095 images _ ps policy hc hlife hmanager hcount hmode hroom hshare))
  case stage =>
    intro c r s hqueue hidle hmode hparts
    exact congrArg done ((scarfStage_of_idle hqueue hidle).trans (takeHead_of_no_parts hmode hparts))
  case armAt => exact fun c r s hqueue hstaged hlocal htarget => congrArg done (scfCmd_armAt hqueue hstaged hlocal htarget)
  case abortStaged => exact fun s hstaged hcommit => congrArg done (scfCmd_abort_of_staged hstaged hcommit)
  case abortArmed =>
    exact fun c r s hqueue harmed hlocal hbefore hcommit => congrArg done (scfCmd_abort_of_armed_local hqueue harmed hlocal hbefore hcommit)
  case commitLocal => exact fun c r s hqueue harmed hlocal htarget => congrArg done (scarfCommit_of_armed_local hqueue harmed hlocal htarget)
  case inDoubt =>
    exact fun c r s hqueue harmed hestate hgo htarget => congrArg done (scarfCommit_of_armed_without_go hqueue harmed hestate hgo htarget)
  case nandGranted =>
    intro s u hdue hgrant
    rw [exec_configNandWrite_of_due hdue, withGrant_granted hgrant]
    rfl
  case nandWaits =>
    intro ok s u hdue hgrant
    rw [exec_configNandWrite_of_due hdue, withGrant_waits hgrant]

end Sys2Proof.Machine
end

section
/-! Proofs/EstateCommands: the frames of an estate change and its timed events (O30). -/

namespace Sys2Proof.Machine

/-! ## The participant (R154 to R157) -/

/-- R141 allows 1 to 8 images on a module. -/
theorem countOk_of_length {images : List Image} (hone : 1 ≤ images.length) (height : images.length ≤ 8) : countOk images [] = true := by
  simp [countOk, hone, height]

section
variable {s : State} {c : Change} {r : List Change} {change : Nat} (hqueue : s.scf.queue = c :: r) (hestate : c.estate = true) (hid : c.id = change)
include hqueue hestate hid

/-- ARM of the staged change, more than 200 ticks before its tick, arms it and is acknowledged. -/
theorem armPart_of_staged {t : Nat} (hstaged : scfState s = 3) (hsteered : getB s Fld.LE_GSTAT_STEERED = true) (htime : s.tick + 200 < t) :
    armPart s change t = (armFor s t, true) := by
  unfold armPart
  rw [inHand?_of_queue hqueue (by omega)]
  exact if_pos (by simp [hestate, hid, hstaged, hsteered, htime])

/-- GO for the armed change is held. -/
theorem goPart_of_armed (harmed : scfState s = 4) : goPart s change = setF s Fld.SCF_ESTATE_GO_HELD 1 := by
  unfold goPart
  rw [inHand?_of_queue hqueue (by omega)]
  exact if_pos (by simp [hestate, hid, harmed])

/-- CANCEL ends the change in hand, unless it is in doubt. -/
theorem cancelPart_of_inHand (hbusy : scfState s ≠ 0) (hdoubt : scfState s ≠ 5) (outcome : Nat) : cancelPart s change outcome = endChange s outcome := by
  unfold cancelPart
  rw [inHand?_of_queue hqueue hbusy]
  exact (if_pos (by simp [hestate, hid])).trans (if_neg hdoubt)

/-- An OUTCOME of no GO ends the change in hand. -/
theorem outcomePart_of_no_go (hbusy : scfState s ≠ 0) (t : Nat) (images : List Image) (manager : Nat) :
    outcomePart s change false t images manager = endChange s 3 := by
  unfold outcomePart
  rw [inHand?_of_queue hqueue hbusy]
  exact if_neg (by simp [hestate, hid])

end

/-- A decision that no Force withholds has its effect. -/
theorem decisionHeard_of_not_forced {s : State} (h : forcedOnce s .scfInDoubt 0 = false) (f : State → State) : decisionHeard s f = f s :=
  if_neg (by simp [h])

/-- With no ARM in the 10 s after READY a staged estate change ends. -/
theorem execEstateArmTimeout_of_late {s : State} {c : Change} {r : List Change} {m : Nat} (hqueue : s.scf.queue = c :: r) (hstaged : scfState s = 3)
    (hestate : c.estate = true) (hready : s.scf.readyAt = some m) (hlate : m + 40000 ≤ s.mono) : execEstateArmTimeout s = .next (endChange s 4) := by
  unfold execEstateArmTimeout
  rw [inHand?_of_queue hqueue (by omega), hready]
  exact if_pos (by simp [hestate, hstaged, hlate])

/-! ## The coordinating manager (R154 to R156) -/

section
variable {s : State} {c : Coord} (hcoord : s.scf.coord = some c) (hundecided : c.decided = none)
include hcoord hundecided

/-- READY code 0 of a participant, before ARM, is noted and arms the change once all are in. -/
theorem readyEffect_of_accepted {m change : Nat} (hid : c.id = change) (hunarmed : c.target = none) (hpart : c.parts.any (fun p => p.module_ = m) = true) :
    readyEffect s m change 0 = armIfReady (mapCoord
      (mapScf s (fun f => { f with unresolved := f.unresolved.filter (fun x => !(x.module_ = m && x.change = change && x.told)) }))
      (fun c => { c with parts := c.parts.map (fun p => if p.module_ = m then { p with ready := some 0 } else p) })) := by
  unfold readyEffect
  simp only [mapScf, hcoord]
  rw [if_neg (by rw [hpart, hunarmed, hundecided, hid]; simp), if_neg (by simp)]

/-- The ACK of an armed change by a participant that has not acknowledged it yet counts. -/
theorem ackEffect_of_awaited {m change : Nat} (hid : c.id = change) (harmed : c.target.isSome = true)
    (hpart : c.parts.any (fun p => p.module_ = m && !p.acked && !p.excluded) = true) :
    ackEffect s m change = setF (mapCoord s (fun c => { c with parts := c.parts.map (fun p => if p.module_ = m then { p with acked := true } else p) }))
      Fld.SCF_ESTATE_ACKED (getF s Fld.SCF_ESTATE_ACKED + 1) := by
  unfold ackEffect
  simp only [hcoord]
  exact if_neg (by rw [hpart, hundecided, hid, ← Option.not_isSome, harmed]; simp)

/-- With every participant's ACK in the decision is GO. -/
theorem decideEstate_of_all_acked (harmed : c.target.isSome = true) (hacked : c.parts.filter (fun p => !p.excluded && !p.acked) = []) :
    decideEstate s = takeDecision (mapCoord s (fun c => { c with parts := c.parts.map (fun p => { p with excluded := p.excluded || !p.acked }) })) true 0 := by
  unfold decideEstate
  simp only [hcoord]
  rw [if_neg (by rw [hundecided, ← Option.not_isSome, harmed]; simp), hacked]
  exact if_pos rfl

/-- READYs that are missing at the end of the 10 s cancel the change, unless its policy excludes. -/
theorem missReady_of_strict (hunarmed : c.target = none) (hstrict : c.policy = false)
    (hmissing : c.parts.any (fun p => !p.excluded && p.ready.isNone) = true) : missReady s none = cancelEstate s 4 := by
  unfold missReady
  simp only [hcoord, Bool.and_true]
  rw [if_neg (by rw [hmissing, hunarmed, hundecided]; simp), if_pos (by simp [hstrict])]

end

/-- ESTATE_READY_TIMEOUT acts 10 s after OFFER. -/
theorem execEstateReadyTimeout_of_late {s : State} {c : Coord} (hcoord : s.scf.coord = some c) (hlate : c.offered + 40000 ≤ s.mono) :
    execEstateReadyTimeout s = .next (missReady s none) := by
  unfold execEstateReadyTimeout
  rw [hcoord]
  exact if_pos hlate

/-- Settles O30: an accepted frame has its TYPE's effect (`onTruss_ok`), and each timed event its own. -/
theorem estateCommandsComplete : Obligations.EstateCommandsComplete := by
  refine ⟨?offer, ?ready, ?arm, ?ack, ?decision, ?go, ?cancel, ?outcome, ?readyTimeout, ?armTimeout⟩
  case offer =>
    intro h change policy images c s u haccept hone height hc hmode hroom hshare
    subst hc
    refine congrArg done ((onTruss_ok haccept _).trans ?_)
    rw [if_neg (by simp [countOk_of_length hone height])]
    exact congrArg Prod.fst (submitChange_ok hmode hroom hshare)
  case ready =>
    intro h change c s u haccept hcoord hid hunarmed hundecided hpart
    exact congrArg done ((onTruss_ok haccept _).trans (readyEffect_of_accepted hcoord hundecided hid hunarmed hpart))
  case arm =>
    intro h change tick c r s u haccept hqueue hstaged hestate hid hsteered htime
    refine congrArg done ((onTruss_ok haccept _).trans ?_)
    rw [armPart_of_staged hqueue hestate hid hstaged hsteered htime]
    rfl
  case ack =>
    intro h change c s u haccept hcoord hid harmed hundecided hpart
    exact congrArg done ((onTruss_ok haccept _).trans (ackEffect_of_awaited hcoord hundecided hid harmed hpart))
  case decision => exact fun c s hcoord harmed hundecided hacked => congrArg done (decideEstate_of_all_acked hcoord hundecided harmed hacked)
  case go =>
    intro h change c r s u haccept hforce hqueue harmed hestate hid
    exact congrArg done ((onTruss_ok haccept _).trans ((decisionHeard_of_not_forced hforce _).trans (goPart_of_armed hqueue hestate hid harmed)))
  case cancel =>
    intro h change c r s u haccept hforce hqueue hstate hestate hid
    exact congrArg done ((onTruss_ok haccept _).trans ((decisionHeard_of_not_forced hforce _).trans
      (cancelPart_of_inHand hqueue hestate hid (by omega) (by omega) 3)))
  case outcome =>
    intro h change tick images c r s u haccept hqueue hbusy hestate hid
    exact congrArg done ((onTruss_ok haccept _).trans (outcomePart_of_no_go hqueue hestate hid hbusy _ _ _))
  case readyTimeout =>
    intro c s hcoord hlate hunarmed hundecided hstrict hmissing
    exact (execEstateReadyTimeout_of_late hcoord hlate).trans (congrArg done (missReady_of_strict hcoord hundecided hunarmed hstrict hmissing))
  case armTimeout => exact fun c r m s hqueue hstaged hestate hready hlate => execEstateArmTimeout_of_late hqueue hstaged hestate hready hlate

end Sys2Proof.Machine
end

section
/-! Proofs/LoopCommands: sub-ticks, samples, commands and the resume of the loop engines (O31). -/

namespace Sys2Proof.Machine

/-! ## The sub-tick (R163; 01 R25) -/

section
variable {s : State} (hsub : s.sub < 4)
include hsub

/-- While domain 8 is off or held, SUB_TICK counts and serves no loop. -/
theorem exec_subTick_of_stopped (hoff : engineRuns s 8 = false) : exec .subTick s = .next (nextSubTick s) := by
  show execSubTick s = _
  unfold execSubTick
  rw [if_neg (by omega)]
  exact if_pos (by simp [hoff])

/-- With domain 8 running, SUB_TICK counts and then serves every loop whose engine no L4 reset holds. -/
theorem exec_subTick_of_running (hruns : engineRuns s 8 = true) :
    exec .subTick s = .next ((((nextSubTick s).loops.map (fun kl => kl.1)).filter
      (fun n => !blockHeld (nextSubTick s) (8 + loopEngine n))).foldl subTickLoop (nextSubTick s)) := by
  show execSubTick s = _
  unfold execSubTick
  rw [if_neg (by omega)]
  exact if_neg (by simp [hruns])

end

/-- With no point write waiting, the fabric cycles up to the sub-tick pass alone. -/
theorem nextSubTick_of_waiting_nil {s : State} (h : s.pt.waiting = []) :
    nextSubTick s = { passCycles s (15625 * s.sub - s.fc) with sub := s.sub + 1, subEl := s.subEl + 1 } := by
  unfold nextSubTick
  rw [passTime_idle s _ h]

/-! ## Samples in the engine's order (R164, R171, R179; 01 R26) -/

/-- After the commit of its tick, LOOP_SAMPLE computes the loop that comes first on its engine. -/
theorem exec_loopSample_of_next {n : Fin 4096} {l : Loop} {s : State} (hloop : loopAt? s n.val = some l) (halone : l.dfn.groupEn = false)
    (hnext : nextUnit s (loopEngine n.val) = some n.val) (hdue : commitDue s = none) : exec (.loopSample n) s = .next (sampleLoop s n.val l) := by
  show execLoopSample n s = _
  unfold execLoopSample
  rw [hloop]
  exact if_neg (by simp [hdue, halone, hnext])

/-- After the commit of its tick, GROUP_SAMPLE computes the group whose lowest member comes first on its engine. -/
theorem exec_groupSample_of_next {g : Fin 512} {gr : Group} {s : State} (hgroup : groupAt? s g.val = some gr)
    (hnext : nextUnit s (loopEngine (gr.members.headD 0)) = some (gr.members.headD 0)) (hdue : commitDue s = none) :
    exec (.groupSample g) s = .next (sampleGroup s g.val gr) := by
  show execGroupSample g s = _
  unfold execGroupSample
  rw [hgroup]
  exact if_neg (by rw [hdue, hnext]; simp)

/-! ## Commands, MANUAL and the resume of a defined loop (R184, R190, R193) -/

section
variable {n : Nat} {l : Loop} {s : State} (hloop : loopAt? s n = some l)
include hloop

/-- A change of a defined loop stores the changed loop. -/
theorem mapLoop_of_loopAt (f : Loop → Loop) : mapLoop s n f = setLoop s n (f l) := by
  unfold mapLoop
  rw [hloop]

/-- Commission, Run and Hold accept every assigned OP code (R184); Safe mode accepts them too, but for AUTO (OP 3). -/
theorem loopCmdResult_of_allowed {op : Nat} (hop : op = 1 ∨ op = 2 ∨ op = 3 ∨ op = 7) (hmode : modeOf s ≤ 2 ∨ modeOf s = 3 ∧ op ≠ 3) :
    loopCmdResult s n op = 0 := by
  have hdefined : (loopAt? s n).isNone = false := by simp [hloop]
  have hcode : (op = 1 || op = 2 || op = 3 || op = 7) = true := by simpa [or_assoc] using hop
  unfold loopCmdResult
  rw [hdefined, if_neg (by rw [hcode]; simp), if_neg (by simp)]
  exact if_pos (by simpa using hmode)

/-- An allowed command writes RESULT 0 to LP_L_CMD and joins the commands that wait for the loop's sample instant. -/
theorem loopCmd_of_allowed {op : Nat} (hop : op = 1 ∨ op = 2 ∨ op = 3 ∨ op = 7) (hmode : modeOf s ≤ 2 ∨ modeOf s = 3 ∧ op ≠ 3) :
    loopCmd s n op = setLoop (setFs s [(loopF Fld.LP_L_CMD_OP n, op), (loopF Fld.LP_L_CMD_RESULT n, 0), (loopF Fld.LP_L_CMD_BUSY n, 0),
      (loopF Fld.LP_L_CMD_GO n, 0)]) n { l with cmds := l.cmds ++ [loopCmdOf op] } := by
  unfold loopCmd
  rw [loopCmdResult_of_allowed hloop hop hmode]
  exact (if_pos rfl).trans (mapLoop_of_loopAt (by unfold loopAt?; rw [setFs_loops]; exact hloop) _)

end

/-- LOOP_RESUME of a loop that is to read APPLIED again takes the output's record as Q15. -/
theorem exec_loopResume_of_reread {n : Fin 4096} {l : Loop} {q : Int × Bool} {s : State} (hloop : loopAt? s n.val = some l) (hreread : l.reread = true)
    (hruns : engineRuns s 8 = true) (hfree : blockHeld s (8 + loopEngine n.val) = false)
    (hvalue : toQ15 (ptAt s (outputOf s l).1).ty (ptValue (ptAt s (outputOf s l).1)) (outputOf s l).2.1 (outputOf s l).2.2 = some q) :
    exec (.loopResume n) s = .next (setLoop s n.val { l with applied := q.1, reread := false }) := by
  show execLoopResume n s = _
  unfold execLoopResume
  simp only [hloop, hvalue]
  exact if_neg (by simp [hreread, hruns, hfree])

/-- Settles O31, clause by clause; the four commands differ only in their OP code and in the modes that allow it. -/
theorem loopCommandsComplete : Obligations.LoopCommandsComplete := by
  refine ⟨fun _ => exec_subTick_of_running, fun _ => exec_subTick_of_stopped, fun _ => nextSubTick_of_waiting_nil, fun _ _ _ => exec_loopSample_of_next,
    fun _ _ _ => exec_groupSample_of_next, ?disable, ?manual, ?auto, ?clear, ?manualWrite, fun _ _ _ _ => exec_loopResume_of_reread⟩
  case disable => exact fun n l s hloop hmode => congrArg done (loopCmd_of_allowed hloop (by omega) (by omega))
  case manual => exact fun n l s hloop hmode => congrArg done (loopCmd_of_allowed hloop (by omega) (by omega))
  case auto => exact fun n l s hloop hmode => congrArg done (loopCmd_of_allowed hloop (by omega) (.inl hmode))
  case clear => exact fun n l s hloop hmode => congrArg done (loopCmd_of_allowed hloop (by omega) (by omega))
  case manualWrite => exact fun n v l s hloop => congrArg done (mapLoop_of_loopAt hloop _)

end Sys2Proof.Machine
end

section
/-! Proofs/MeteringCommands: line cycles, intervals, events, pulses, checkpoints, the audit, calibration and Vigil (O32). -/

namespace Sys2Proof.Machine

/-! ## Line cycles and aggregation intervals (R205, R207) -/

/-- LINE_CYCLE_END of a set that ME does not meter changes nothing. -/
theorem exec_lineCycleEnd_of_not_metering {n : Fin 4} {d : SetCycle} {s : State} (hidle : meCounts s = false) : exec (.lineCycleEnd n d) s = .next s :=
  if_pos (by simp [hidle])

/-- AGGREGATION_END of a complete interval ends it. -/
theorem exec_aggregationEnd_of_due {n : Fin 4} {s : State} (hon : domainOn s 9 = true) (hdue : aggDue s n.val = true) :
    exec (.aggregationEnd n () ()) s = .next (aggregate s n.val) := if_neg (by simp [hon, hdue])

/-! ## Power-quality events (R221 to R224) -/

section
variable {n : Fin 4} {u2 us : List Rat} {s : State} {u w : Option OpenEv} {e : OpenEv} (hon : domainOn s 9 = true) (hen : (vsRegs s n.val).en = true)
  (hus : us = (List.range (setPhases (vsRegs s n.val))).map (fun p => u2.getD p 0 * vScale (vsRegs s n.val) p * vScale (vsRegs s n.val) p))
include hon hen hus

/-- A refresh that closes no event keeps the open ones, and shows them if one opened or became an interruption. -/
theorem exec_urmsRefresh_of_none_closed (hunder : underStep s n.val (vsRegs s n.val) us (vsState s n.val).under = (u, none))
    (hswell : swellStep s n.val (vsRegs s n.val) us (vsState s n.val).swell = (w, none)) :
    exec (.urmsRefresh n u2) s = .next (
      if (vsState s n.val).under.map (fun e => e.kind) ≠ u.map (fun e => e.kind) ∨ (vsState s n.val).swell.map (fun e => e.kind) ≠ w.map (fun e => e.kind) then
        showEvents (setVs s n.val { vsState s n.val with under := u, swell := w, flagged := (vsState s n.val).flagged || u.isSome || w.isSome }) n.val
      else setVs s n.val { vsState s n.val with under := u, swell := w, flagged := (vsState s n.val).flagged || u.isSome || w.isSome }) := by
  subst hus
  show execUrmsRefresh n u2 s = _
  unfold execUrmsRefresh
  dsimp only
  rw [if_neg (by simp [hon, hen]), hunder, hswell]
  simp only [Bool.or_eq_true, decide_eq_true_eq]

/-- A refresh that closes an under-voltage event records it and shows the events left. -/
theorem exec_urmsRefresh_of_under_closed (hunder : underStep s n.val (vsRegs s n.val) us (vsState s n.val).under = (u, some e))
    (hswell : swellStep s n.val (vsRegs s n.val) us (vsState s n.val).swell = (w, none))
    (hkind : (vsState s n.val).under.map (fun e => e.kind) ≠ u.map (fun e => e.kind)) :
    exec (.urmsRefresh n u2) s = .next (showEvents (closeEvent
      (setVs s n.val { vsState s n.val with under := u, swell := w, flagged := (vsState s n.val).flagged || u.isSome || w.isSome }) n.val e 0) n.val) := by
  subst hus
  show execUrmsRefresh n u2 s = _
  unfold execUrmsRefresh
  dsimp only
  rw [if_neg (by simp [hon, hen]), hunder, hswell]
  exact congrArg done (if_pos (by simp [hkind]))

end

/-- MT_EV_SEL_WRITE of an entry that holds a record copies its four words and marks it read. -/
theorem evSel_of_record {v e : Nat} {r : EvRec} {s : State} (hrecord : tabGet? s.me.ring (v * 256 + e) = some r) :
    evSel s v e = (List.range 4).foldl (fun u w => setF u (Fld.MT_EV_W_WORD w) (r.words.getD w 0))
      { setFs s [(Fld.MT_EV_SEL_VSET, v), (Fld.MT_EV_SEL_ENTRY, e)] with me := { s.me with ring := tabPut s.me.ring (v * 256 + e) { r with read := true } } } := by
  unfold evSel
  dsimp only
  rw [setFs_me, hrecord]

/-! ## Pulse outputs (R226) -/

/-- PULSE_EMIT takes QPP from a backlog that holds it and starts the pulse of an output that is ready. -/
theorem exec_pulseEmit_of_ready {k : Fin 8} {s : State} (hen : getB s (Fld.MT_PULSE_CFG_EN k.val) = true) (hqpp : getF s (Fld.MT_PULSE_CFG_QPP k.val) ≠ 0)
    (hbacklog : getF s (Fld.MT_PULSE_CFG_QPP k.val) ≤ tabGet 0 s.me.backlogs k.val) (hready : pulseReady s k.val = true) (hon : domainOn s 9 = true) :
    exec (.pulseEmit k) s = .next (incF (setPulse { s with timers := tabPut s.timers (tmPulse k.val) s.el, me := { s.me with
        backlogs := tabSet 0 s.me.backlogs k.val (tabGet 0 s.me.backlogs k.val - getF s (Fld.MT_PULSE_CFG_QPP k.val)),
        pulsed := tabAdd s.me.pulsed k.val (getF s (Fld.MT_PULSE_CFG_QPP k.val)) } } k.val { pulseAt s k.val with active := true }) (Fld.MT_PULSE_CNT_COUNT k.val)) :=
  if_neg (by simp [hen, hqpp, Nat.not_lt.2 hbacklog, hready, hon])

/-- PULSE_END leaves the output idle once WIDTH ms have passed since the pulse began. -/
theorem exec_pulseEnd_of_elapsed {k : Fin 8} {m : Nat} {s : State} (hactive : (pulseAt s k.val).active = true)
    (hstart : tabGet? s.timers (tmPulse k.val) = some m) (helapsed : m + getF s (Fld.MT_PULSE_CFG_WIDTH k.val) * msCycles ≤ s.el) :
    exec (.pulseEnd k) s = .next (setPulse s k.val { active := false, ended := some s.mono }) := by
  have hran : timeRan s (tmPulse k.val) (getF s (Fld.MT_PULSE_CFG_WIDTH k.val) * msCycles) = true := by
    simp [timeRan, hstart, helapsed]
  exact if_pos (by simp [hactive, hran])

/-! ## Checkpoints (R228, R229) -/

/-- Outside an L2 reset, LEDGER_CHECKPOINT at a multiple of 4,000 ticks writes a checkpoint to the Sill. -/
theorem exec_ledgerCheckpoint_of_due {s : State} (hon : domainOn s 9 = true) (hdue : s.tick % 4000 = 0) (hfree : meHeld s = false) (ok : Bool) :
    exec (.ledgerCheckpoint ok) s = .next (sillCkpt s ok) := by
  have hheld : checkpoint s ok = sillCkpt s ok := if_neg (by simp [hfree])
  exact (if_pos (by simp [hon, hdue])).trans (congrArg done hheld)

/-- With no slot valid the checkpoint goes to slot A; a write that fails leaves it invalid and sets CKPT_FAIL. -/
theorem sillCkpt_failed_of_no_slot {s : State} (hslot : currentSlot s = none) :
    sillCkpt s false = latchF { s with me := { s.me with slotA := some { ckptOf s ((getF s Fld.LG_SEQ_SEQ + 1) % 2 ^ 32) with valid := false } } }
      Fld.LG_STATUS_CKPT_FAIL 1 := by
  unfold sillCkpt
  rw [hslot]
  rfl

/-- NAND_CHECKPOINT at its period asks for the pegs. -/
theorem exec_nandCheckpoint_of_due {s : State} (hdue : s.tick % (max 1 (getF s Fld.LG_CFG_NAND_PERIOD) * 240000) = 0) (ok : Bool) :
    exec (.nandCheckpoint ok) s = .next (askCkpt s ok) := if_pos hdue

/-- With the pegs the checkpoint is written or fails, is no longer due, and the pegs return. -/
theorem askCkpt_of_granted {s u : State} (hgrant : grantNow s .nand = (u, true)) (ok : Bool) :
    askCkpt s ok = pegReturn { nandCkpt u ok with me := { (nandCkpt u ok).me with nandDue := false } } .nand := by
  unfold askCkpt
  rw [hgrant]
  rfl

/-- Without them it stays due. -/
theorem askCkpt_of_waiting {s u : State} (hwaits : grantNow s .nand = (u, false)) (ok : Bool) :
    askCkpt s ok = { u with me := { u.me with nandDue := true } } := by
  unfold askCkpt
  rw [hwaits]
  rfl

/-- A NAND checkpoint copies the current Sill slot, with its sequence; one that fails sets CKPT_FAIL. -/
theorem nandCkpt_of_slot {s : State} {c : Ckpt} {b : Bool} (hslot : currentSlot s = some (c, b)) (ok : Bool) :
    nandCkpt s ok = if ok then ledgerRecord (setF { s with me := { s.me with nand := (c :: s.me.nand).take 64 } } Fld.LG_NAND_SEQ_SEQ c.seq)
      else latchF s Fld.LG_STATUS_CKPT_FAIL 1 := by
  unfold nandCkpt
  rw [hslot]

/-! ## The audit (R237) -/

/-- LEDGER_AUDIT audits every circuit, sets the marks of the next audit and counts. -/
theorem exec_ledgerAudit_of_due {s : State} (hon : domainOn s 9 = true) (hdue : s.tick % 4000 = 0) :
    exec .ledgerAudit s = .next (incF (auditMark ((s.me.circs.map (fun kc => kc.1)).foldl auditCircuit s)) Fld.LG_AUDIT_AUDITS) :=
  if_neg (by simp [hon, hdue])

section
variable {s : State} {c : Nat} (hoffset : takeOffset s .lgAudit c = (0, s))
include hoffset

/-- The audit of a circuit whose accumulators match changes nothing. -/
theorem auditCircuit_of_match (hmatch : (List.range 8).all (auditAcc s 0 c) = true) : auditCircuit s c = s := by
  unfold auditCircuit
  rw [hoffset]
  exact if_pos hmatch

/-- The audit of a circuit with an accumulator that does not match fails. -/
theorem auditCircuit_of_mismatch (hmismatch : (List.range 8).all (auditAcc s 0 c) = false) : auditCircuit s c = auditFail s c := by
  unfold auditCircuit
  rw [hoffset]
  exact if_neg (by simp only [hmismatch]; decide)

end

/-- The audits of circuits that all match change nothing. -/
theorem foldl_auditCircuit_of_match {s : State} (hoffset : ∀ c, takeOffset s .lgAudit c = (0, s)) {cs : List Nat}
    (hmatch : ∀ c ∈ cs, (List.range 8).all (auditAcc s 0 c) = true) : cs.foldl auditCircuit s = s := by
  induction cs with
  | nil => rfl
  | cons c cs ih =>
    rw [List.foldl_cons, auditCircuit_of_match (hoffset c) (hmatch c List.mem_cons_self)]
    exact ih (fun d hd => hmatch d (List.mem_cons_of_mem _ hd))

/-! ## LG_CMD and the shadows (R217 to R219) -/

/-- RESET_INT of a defined circuit with no reset pending stays busy until the circuit's line cycle ends. -/
theorem lgCmd_resetInt_of_defined {c : Nat} {x : Circ} {s : State} (hcirc : circAt? s c = some x) (hfirst : s.me.resetInt.contains c = false) :
    lgCmd s c 2 = { setFs s [(Fld.LG_CMD_CIRCUIT, c), (Fld.LG_CMD_OP, 2), (Fld.LG_CMD_RESULT, 0), (Fld.LG_CMD_BUSY, 1), (Fld.LG_CMD_GO, 1)] with
      me := { s.me with resetInt := s.me.resetInt ++ [c] } } := by
  have hafter : (lgFields s c 2 0 true).me = s.me := setFs_me _ _
  unfold lgCmd
  rw [hcirc]
  refine (if_neg (by simp)).trans ?_
  simp only [hfirst, Bool.false_eq_true, if_false, hafter]
  rfl

/-- LG_CLEAR_VIGIL of a defined circuit clears its charge, estimate and counts, and writes codes 0x38 and 0x39. -/
theorem lgCmd_clearVigil_of_defined {c : Nat} {x : Circ} {s : State} (hcirc : circAt? s c = some x) :
    lgCmd s c 3 = writeVigil (setVig (lgFields s c 3 0 false) c
      { vigAt s c with charge := 0, chargeRes := 0, est := 0, estRes := 0, windows := 0, episodes := 0 }) c := by
  unfold lgCmd
  rw [hcirc]
  exact if_neg (by simp)

/-- LG_A_TOT_HI_READ replies with bits 47 to 32 of the total and WRAP as the requester sees them, and closes its shadow. -/
theorem readAccHi_of_view {q : Requester} {c a : Nat} {x : Acc13} {s : State} (hview : accView s q c a = accWords x) :
    readAccHi s q c a = setReply { s with shadows := tabDel s.shadows (accShadow q c a) } [bitsOf x.total 32 16 + 65536 * x.wrap] := by
  unfold readAccHi
  rw [hview]
  rfl

/-! ## Calibration (R211) -/

/-- The operands of CAL_MEASURE in their fields of MT_CAL_CMD. -/
def calOperands (i : Fin 64) (v p : Fin 4) (y : Fin 256) : List (RF × Nat) :=
  [(Fld.MT_CAL_CMD_INPUT, i.val), (Fld.MT_CAL_CMD_VSET, v.val), (Fld.MT_CAL_CMD_VPH, p.val), (Fld.MT_CAL_CMD_CYCLES, y.val)]

theorem calOperands_keys (i : Fin 64) (v p : Fin 4) (y : Fin 256) : (calOperands i v p y).map (fun q => q.1.key) =
    [Fld.MT_CAL_CMD_INPUT.key, Fld.MT_CAL_CMD_VSET.key, Fld.MT_CAL_CMD_VPH.key, Fld.MT_CAL_CMD_CYCLES.key] := rfl

section
variable {s : State} (hwf : regsWf s = true) (i : Fin 64) (v p : Fin 4) (y : Fin 256)
include hwf

/-- The operands written are the operands read. -/
theorem getF_setFs_calOperands : getF (setFs s (calOperands i v p y)) Fld.MT_CAL_CMD_INPUT = i.val ∧
    getF (setFs s (calOperands i v p y)) Fld.MT_CAL_CMD_VPH = p.val ∧ getF (setFs s (calOperands i v p y)) Fld.MT_CAL_CMD_CYCLES = y.val := by
  have hkeys : ((calOperands i v p y).map (fun q => q.1.key)).Nodup := by
    rw [calOperands_keys]
    decide
  have hread {f : RF} {x : Nat} (hmem : (f, x) ∈ calOperands i v p y) (hfits : x < 2 ^ f.w) : getF (setFs s (calOperands i v p y)) f = x :=
    (getF_setFs_of_mem hkeys hwf hmem).trans (Nat.mod_eq_of_lt hfits)
  exact ⟨hread (by simp [calOperands]) i.isLt, hread (by simp [calOperands]) p.isLt, hread (by simp [calOperands]) y.isLt⟩

/-- Writing the operands leaves BUSY. -/
theorem getB_setFs_calOperands_busy : getB (setFs s (calOperands i v p y)) Fld.MT_CAL_CMD_BUSY = getB s Fld.MT_CAL_CMD_BUSY := by
  have hkeys : ∀ k ∈ (calOperands i v p y).map (fun q => q.1.key), k ≠ Fld.MT_CAL_CMD_BUSY.key := by
    rw [calOperands_keys]
    decide
  have hbusy := getF_setFs_ne _ hwf (fun q hq => hkeys _ (List.mem_map_of_mem hq))
  exact congrArg (· == 1) hbusy

/-- CAL_MEASURE of operands within their ranges starts a measurement when none is in progress. -/
theorem exec_calMeasure_of_valid (hinput : i.val < 48) (hphase : p.val ≠ 3) (hcycles : y.val ≠ 0) (hidle : getB s Fld.MT_CAL_CMD_BUSY = false) :
    exec (.calMeasure i v p y) s = .next (setFs { setFs s (calOperands i v p y) with me := { (setFs s (calOperands i v p y)).me with cal := {} } }
      [(Fld.MT_CAL_CMD_BUSY, 1), (Fld.MT_CAL_CMD_GO, 1)]) := by
  obtain ⟨hi, hp, hy⟩ := getF_setFs_calOperands hwf i v p y
  have hbusy := getB_setFs_calOperands_busy hwf i v p y
  show done (calGo (setFs s (calOperands i v p y))) = _
  unfold calGo
  rw [hi, hp, hy, hbusy, if_neg (by simp [hinput, hphase, hcycles]), if_neg (by simp [hidle])]

/-- CAL_MEASURE of an operand outside its range is refused: GO keeps the value of BUSY. -/
theorem exec_calMeasure_of_invalid (hinvalid : 48 ≤ i.val ∨ p.val = 3 ∨ y.val = 0) :
    exec (.calMeasure i v p y) s = .next (setF (setFs s (calOperands i v p y)) Fld.MT_CAL_CMD_GO (getF (setFs s (calOperands i v p y)) Fld.MT_CAL_CMD_BUSY)) := by
  obtain ⟨hi, hp, hy⟩ := getF_setFs_calOperands hwf i v p y
  show done (calGo (setFs s (calOperands i v p y))) = _
  unfold calGo
  rw [hi, hp, hy, if_pos (by simpa [or_assoc] using hinvalid)]

end

/-- Writes of one field after another leave what is marked in the fabric cycle. -/
theorem foldl_setF_cyc {α : Type} (f : α → RF) (g : α → Nat) (l : List α) (s : State) : (l.foldl (fun u x => setF u (f x) (g x)) s).cyc = s.cyc := by
  induction l generalizing s with
  | nil => rfl
  | cons x l ih => exact ih _

/-- CAL_DONE of a complete measurement, with no GO in the same fabric cycle, stores the results and ends BUSY. -/
theorem exec_calDone_of_complete {s : State} (hbusy : getB s Fld.MT_CAL_CMD_BUSY = true) (hcomplete : getF s Fld.MT_CAL_CMD_CYCLES ≤ s.me.cal.cycles)
    (hasked : s.cyc.asked = []) : exec (.calDone ()) s = .next (setFs
      ((List.range 5).foldl (fun u i => setF u (Fld.MT_CAL_RES_RESULT i) (meReal ((calResults s.me.cal).getD i 0)).toNat) s)
      [(Fld.MT_CAL_CMD_BUSY, 0), (Fld.MT_CAL_CMD_GO, 0)]) := by
  have hnot : askedAgain ((List.range 5).foldl (fun u i => setF u (Fld.MT_CAL_RES_RESULT i) (meReal ((calResults s.me.cal).getD i 0)).toNat) s)
      Fld.MT_CAL_CMD_GO = false := by
    unfold askedAgain
    rw [foldl_setF_cyc Fld.MT_CAL_RES_RESULT (fun i => (meReal ((calResults s.me.cal).getD i 0)).toNat), hasked]
    rfl
  exact (if_neg (by simp [hbusy, hcomplete])).trans (if_neg (ne_true_of_eq_false hnot))

/-! ## Vigil (R231, R232) -/

/-- A Vigil window after the first counts every circuit's window and checkpoints the Ledger. -/
theorem exec_vigilWindow_of_later {r : List Rat} {s : State} (hmode : modeOf s = 5) (hen : getB s Fld.MT_VIGIL_CFG_EN = true)
    (hperiod : s.rtc.count % (vigilPeriod s * 32768) = 0) (hlater : s.me.vigilWindow ≠ 0) :
    exec (.vigilWindow r) s = .next (sillCkpt (
      { s.me.circs.foldl (fun u kc => vigilCircuit u r kc.1 kc.2) s with me :=
        { (s.me.circs.foldl (fun u kc => vigilCircuit u r kc.1 kc.2) s).me with
          vigilWindow := min ((s.me.circs.foldl (fun u kc => vigilCircuit u r kc.1 kc.2) s).me.vigilWindow + 1) 0xFFFE } }) true) := by
  show execVigilWindow r s = _
  unfold execVigilWindow
  dsimp only
  rw [if_neg (by simp [hmode, hen, hperiod]), if_neg hlater]

/-- Settles O32, clause by clause. -/
theorem meteringCommandsComplete : Obligations.MeteringCommandsComplete := by
  refine ⟨?lineCycle, fun _ _ _ => exec_lineCycleEnd_of_not_metering, ?aggregation, fun _ _ _ _ _ _ => exec_urmsRefresh_of_none_closed,
    fun _ _ _ _ _ _ _ => exec_urmsRefresh_of_under_closed, fun _ _ => rfl, fun _ _ => rfl,
    fun _ _ _ _ hrecord => congrArg done (evSel_of_record hrecord), fun _ _ => exec_pulseEmit_of_ready, fun _ _ _ => exec_pulseEnd_of_elapsed,
    ?sill, ?sillFails, ?nand, ?nandWaits, ?auditMatches, ?auditFails, fun _ => rfl,
    fun _ _ _ hcirc hfirst => congrArg done (lgCmd_resetInt_of_defined hcirc hfirst), fun _ _ _ hcirc => congrArg done (lgCmd_clearVigil_of_defined hcirc),
    fun _ _ _ _ => rfl, fun _ _ _ _ _ hview => congrArg done (readAccHi_of_view hview), fun _ _ _ _ => rfl, ?calibrates, ?refusesCalibration,
    fun _ => exec_calDone_of_complete, fun _ => rfl, fun _ _ => exec_vigilWindow_of_later⟩
  case lineCycle =>
    intro n d s x a b e v ref locked dur hmeters hx ha hb hv href hlocked hdur he
    subst he hdur hlocked href hv hb ha hx
    exact if_neg (by simp [hmeters])
  case aggregation =>
    rintro n s a b hon hdue rfl rfl
    exact exec_aggregationEnd_of_due hon (decide_eq_true hdue)
  case sill =>
    rintro s t hon hdue hfree rfl
    exact exec_ledgerCheckpoint_of_due hon hdue hfree true
  case sillFails =>
    intro s hon hdue hfree hslot
    rw [exec_ledgerCheckpoint_of_due hon hdue hfree, sillCkpt_failed_of_no_slot hslot]
  case nand =>
    intro s u c b hdue hgrant hslot
    have hwritten (ok : Bool) := (exec_nandCheckpoint_of_due hdue ok).trans (congrArg done (askCkpt_of_granted hgrant ok))
    constructor
    · rw [hwritten, nandCkpt_of_slot hslot, if_pos rfl]
    · rw [hwritten, nandCkpt_of_slot hslot, if_neg Bool.false_ne_true]
      rfl
  case nandWaits =>
    intro ok s u hdue hwaits
    rw [exec_nandCheckpoint_of_due hdue, askCkpt_of_waiting hwaits]
  case auditMatches =>
    intro s hon hdue hoffset hmatch
    rw [exec_ledgerAudit_of_due hon hdue, foldl_auditCircuit_of_match hoffset (by simpa using hmatch)]
  case auditFails =>
    intro s c x hon hdue hcircs hoffset hmismatch
    rw [exec_ledgerAudit_of_due hon hdue, hcircs]
    exact congrArg (fun t => done (incF (auditMark t) Fld.LG_AUDIT_AUDITS)) (auditCircuit_of_mismatch hoffset hmismatch)
  case calibrates =>
    rintro i v p y s a hinv hinput hphase hcycles hidle rfl
    exact exec_calMeasure_of_valid hinv.regs i v p y hinput hphase hcycles hidle
  case refusesCalibration =>
    rintro i v p y s a hinv hinvalid rfl
    exact exec_calMeasure_of_invalid hinv.regs i v p y hinvalid

end Sys2Proof.Machine
end

section
/-! Proofs/EstateMembership: how a module joins, keeps and leaves the estate, and TR_CMD (O33). -/

namespace Sys2Proof.Machine

/-! ## The manager (R243, R250 to R253) -/

/-- HELLO of a serial that gets number `n` binds and enters it, answers ASSIGN, and renews the loads and its publications; the standby's role brings it a
copy of everything. -/
theorem helloEffect_of_number {s a b x : State} {h : TrussHdr} {pin n : Nat} (hmanager : isManager s = true)
    (hnumber : numberFor (tabPut s.tr.bindings (selfNumber s) (ownSerial s)) h.serial.toNat pin = some n) (role firmware bb0 bb1 : Nat)
    (ha : a = mapTr s (fun t => { t with bindings := tabPut t.bindings n h.serial.toNat, addrs := tabPut (tabPut t.addrs n bb0) (1024 + n) bb1 }))
    (hb : b = dropData (setDir a n { dirAt a n with serial := h.serial.toNat, state := 1, lastHb := some a.mono, role := role, firmware := firmware }) n)
    (hx : x = if (tabGet? s.tr.bindings n).isNone then syncOut b (1 :: n :: words64 h.serial.toNat) else b) :
    helloEffect s h pin role firmware bb0 bb1 = (if role = 3 then syncAll else id)
      (resumePubs (reallot (updDir (trSend x 0x02 n (n :: getF x Fld.TR_TERM_TERM :: words64 (x.tr.epoch.getD 0))))) n) := by
  unfold helloEffect
  rw [if_neg (by simp [hmanager]), hnumber]
  dsimp only
  rw [← ha, ← hb, ← hx]
  by_cases hrole : role = 3
  · rw [if_pos hrole, if_pos hrole]
  · rw [if_neg hrole, if_neg hrole, id]

/-- HEARTBEAT of a present module renews its entry and asks for the dowels it wants. -/
theorem heartbeatEffect_of_present {s a : State} {h : TrussHdr} {mode sev scf : Nat} {steered dc dm : Bool} (hmanager : isManager s = true)
    (hpresent : (dirAt s h.src.val).state = 1)
    (ha : a = setDir s h.src.val { dirAt s h.src.val with
      mode := mode, severity := sev, steered := steered, scf := scf, lanes := (dirAt s h.src.val).lanes ||| 2 ^ h.lane.val,
      lastHb := some s.mono, wants := (if dc then [1] else []) ++ (if dm then [3] else []) }) :
    heartbeatEffect s h mode sev steered scf dc dm = grantRound (grantRound a 1) 3 := by
  subst ha
  exact if_neg (by simp [hmanager, hpresent])

/-- A present module silent for the departure time is declared departed. -/
theorem execDepartTimeout_of_silent {s : State} {n : Fin 512} {m : Nat} (hmanager : isManager s = true) (hpresent : (dirAt s n.val).state = 1)
    (hheard : (dirAt s n.val).lastHb = some m) (hsilent : m + departTicks s 1 ≤ s.mono) :
    execDepartTimeout n s = .next (estateGone (declareGone s n.val 2) n.val) := by
  have hnone : noHeartbeat s n.val = true := by unfold noHeartbeat; rw [hheard]; exact decide_eq_true hsilent
  exact if_pos (by simp [hmanager, hpresent, hnone])

/-- DEPART at the manager declares its module left. -/
theorem departEffect_of_manager {s : State} (hmanager : isManager s = true) (n cause : Nat) : departEffect s n cause = declareGone s n 3 := if_pos hmanager

/-! ## The worker (R250, R251, R257, R263) -/

/-- HELLO is repeated while the module seeks its manager. -/
theorem execHelloTimer_of_seeking {s : State} (hseeks : seeksManager s = true) (hran : timeRan s tmHello (1000 * msCycles) = true) :
    execHelloTimer s = .next (sendHello s) := if_pos (by simp [hseeks, hran])

section
variable {s : State} {h : TrussHdr} (hworker : isManager s = false) (hterm : getF s Fld.TR_TERM_TERM ≤ h.term.val)
include hworker hterm

/-- ASSIGN of a TERM not lower is taken. -/
theorem assignEffect_of_term {a b : State} {n e : Nat}
    (ha : a = learnEpoch (setFs s [(Fld.TR_SELF_NUMBER, n), (Fld.TR_SELF_NUMBERED, 1), (Fld.TR_SELF_MANAGER, h.src.val), (Fld.TR_SELF_MGR_PRESENT, 1),
      (Fld.TR_TERM_TERM, h.term.val)]) e)
    (hb : b = mapTr a (fun t => { t with lastMark := some a.mono, helloWait := false, left := false, held := [], dataSent := false })) :
    assignEffect s h n e = sendSubs ([0, 1, 3].foldl (fun s p => grantBoth s p h.src.val (poolBuffers 1 p)) (reclaimAll (dropData b h.src.val) h.src.val)) := by
  subst ha hb
  exact if_neg (by simp [hworker, hterm])

/-- MARK of a TERM not lower keeps the manager and steers. -/
theorem markEffect_of_term {a b : State} {k e : Nat} (ha : a = incF (mapTr s (fun t => { t with lastMark := some s.mono })) Fld.TR_MARKS_RECEIVED)
    (hb : b = if a.tr.epoch.isSome = true then a else learnEpoch a e) :
    markEffect s h k e = steer (if 1 < (if b.tick ≤ k then k - b.tick else b.tick - k) then unsteer b else b) := by
  subst ha hb
  exact if_neg (by simp [hworker, hterm])

end

/-- With no mark for the allowance, steering is lost. -/
theorem execMarkTimeout_of_no_mark {s : State} (hworker : isManager s = false) (hnone : noMarkFor s (departTicks s 2 + 40000) = true) :
    execMarkTimeout s = .next (unsteer s) := congrArg done (if_neg (by simp [hworker, hnone]))

/-- A worker or standby that has a manager and loses it drops what is on its way there, marks proxies and publications, and seeks again. -/
theorem managerLost_of_present {s a : State} (hrole : activeRole s = 1 ∨ activeRole s = 3) (hpresent : getB s Fld.TR_SELF_MGR_PRESENT = true)
    (ha : a = setF s Fld.TR_SELF_MGR_PRESENT 0) : managerLost s = sendHello (pubsUndeliv (proxiesAbsent
      (mapTr (dropData a (getF a Fld.TR_SELF_MANAGER)) (fun t => { t with dataSent := false })) (fun _ => true)) true) := by
  subst ha
  exact if_neg (by obtain hrole | hrole := hrole <;> simp [hrole, hpresent])

/-! ## The standby (R254) -/

/-- SYNC is applied and acknowledged. -/
theorem syncEffect_of_standby {s a : State} (hrole : activeRole s = 3) (h : TrussHdr) {b : SyncBody}
    (ha : a = noteSelfGpas s (b.subs.map (fun e => e.1.gpa) ++ b.unsubs.map (fun u => u.1))) : syncEffect s h b =
      trSend { a with tr := { applySync a.tr b with lastSyncAck := some a.mono }, scf := applyDecisions a.scf b } 0x39 h.src.val [b.seq] := by
  subst ha
  exact if_neg (not_not_intro hrole)

/-- A handover to a standby in step: TAKEOVER with the next TERM. -/
theorem takeoverEffect_of_handover {s : State} {m : Nat} (hwf : regsWf s = true) (hrole : activeRole s = 3) (hsync : s.tr.lastSyncAck = some m)
    (hrecent : s.mono ≤ m + 4000) : takeoverEffect s true = mapTr (trSend (setF s Fld.TR_TERM_TERM (getF s Fld.TR_TERM_TERM + 1)) 0x07 dstAll
      [(getF s Fld.TR_TERM_TERM + 1) % 2 ^ 16]) (fun x => { x with takeover := true }) := by
  have hterm := getF_setF_same hwf Fld.TR_TERM_TERM (getF s Fld.TR_TERM_TERM + 1)
  unfold takeoverEffect
  rw [hsync, if_neg (by simp [hrole, hrecent])]
  dsimp only
  rw [hterm]

/-! ## TR_CMD (R272) -/

section
variable {s : State} (hrole : activeRole s = 1 ∨ activeRole s = 3)
include hrole

/-- LEAVE of a numbered worker or standby. -/
theorem trCmd_leave (hnumbered : getB s Fld.TR_SELF_NUMBERED = true) (hin : s.tr.left = false) (n : Nat) :
    trCmd s 1 n = mapTr (sendLeave (trFields s 1 0)) (fun t => { t with left := true }) := if_pos (by simp [hrole, hnumbered, hin])

/-- REJOIN of a worker or standby. -/
theorem trCmd_rejoin (n : Nat) : trCmd s 2 n = sendHello (mapTr (trFields s 2 0) (fun t => { t with left := false })) := if_pos (by simp [hrole])

end

section
variable {s : State} (hmanager : isManager s = true)
include hmanager

/-- RELEASE of a module that has departed or left. -/
theorem trCmd_release {n : Nat} (haway : (dirAt s n).state = 2 ∨ (dirAt s n).state = 3) : trCmd s 3 n = releaseModule (trFields s 3 0) n :=
  if_pos (by simp [hmanager, haway])

/-- HANDOVER to a standby in step. -/
theorem trCmd_handover {m : Nat} (hsync : s.tr.lastSyncAck = some m) (hrecent : s.mono ≤ m + 4000) (n : Nat) :
    trCmd s 4 n = sendMsg (trFields s 4 0) (.note "HANDOVER" [getF s Fld.TR_TERM_TERM]) := by
  show (if _ then _ else _) = _
  rw [if_neg (by simp [hmanager]), hsync]
  exact if_pos (decide_eq_true hrecent)

end

/-- Settles O33: an accepted frame has its TYPE's effect (`onTruss_ok`), and each timed event and command its own. -/
theorem estateMembershipCompletes : Obligations.EstateMembershipCompletes := by
  refine ⟨?hello, ?helloTimer, ?assign, ?heartbeat, ?mark, ?markTimeout, ?depart, ?departTimeout, ?takeover, ?standbyTakeover, ?managerLost, ?sync, ?syncAck,
    ?leave, ?rejoin, ?release, ?handover, ?clearErrors⟩
  case hello =>
    intro h pin role fw b0 b1 n s u a b x haccept hmanager hnumber ha hb hx
    have heffect : helloEffect u h pin.val role.val fw.toNat b0.toNat b1.toNat = x :=
      (helloEffect_of_number hmanager hnumber role.val fw.toNat b0.toNat b1.toNat ha hb rfl).trans hx.symm
    subst heffect
    exact congrArg done (onTruss_ok haccept _)
  case helloTimer => exact fun m s hseeks hstart hran => execHelloTimer_of_seeking hseeks (timeRan_of_le hstart hran)
  case assign =>
    intro h number epoch s u a b haccept hworker hterm ha hb
    exact congrArg done ((onTruss_ok haccept _).trans (assignEffect_of_term hworker hterm ha hb))
  case heartbeat =>
    intro h mode sev st scf dc dm s u a x haccept hmanager hpresent ha hx
    have heffect : heartbeatEffect u h mode.val sev.val st scf.val dc dm = x := (heartbeatEffect_of_present hmanager hpresent ha).trans hx.symm
    subst heffect
    exact congrArg done (onTruss_ok haccept _)
  case mark =>
    intro h k epoch s u a b haccept hworker hterm ha hb
    exact congrArg done ((onTruss_ok haccept _).trans (markEffect_of_term hworker hterm ha hb))
  case markTimeout => exact fun s hworker hnone => execMarkTimeout_of_no_mark hworker hnone
  case depart =>
    intro h m cause s u haccept hmanager
    refine congrArg done ((onTruss_ok haccept _).trans ?_)
    rw [departEffect_of_manager hmanager]
    exact if_pos hmanager
  case departTimeout => exact fun n m s hmanager hpresent hheard hsilent => execDepartTimeout_of_silent hmanager hpresent hheard hsilent
  case takeover => exact fun h s u haccept hterm => congrArg done ((onTruss_ok haccept _).trans (if_pos hterm))
  case standbyTakeover =>
    intro m s hrole hsync hrecent hinv
    exact ⟨_, rfl, (takeoverEffect_kept true (Kept.refl s)).pending, takeoverEffect_of_handover hinv.regs hrole hsync hrecent⟩
  case managerLost =>
    intro s a hrole hpresent hnone ha
    exact congrArg done ((if_pos hnone).trans (managerLost_of_present hrole hpresent ha))
  case sync =>
    intro h b s u a haccept hrole ha
    exact congrArg done ((onTruss_ok haccept _).trans (syncEffect_of_standby hrole h ha))
  case syncAck => exact fun h seq s u haccept => congrArg done (onTruss_ok haccept _)
  case leave => exact fun s hrole hnumbered hin => congrArg done (trCmd_leave hrole hnumbered hin 0)
  case rejoin => exact fun s hrole => congrArg done (trCmd_rejoin hrole 0)
  case release => exact fun n s hmanager haway => congrArg done (trCmd_release hmanager haway)
  case handover => exact fun m s hmanager hsync hrecent _ => congrArg done (trCmd_handover hmanager hsync hrecent 0)
  case clearErrors => exact fun s => rfl

end Sys2Proof.Machine
end

section
/-! Proofs/ManagementRequests: requests to this module, in a frame and over the management UART (O35). -/

namespace Sys2Proof.Machine

/-! ## The module that a request is for (R271) -/

/-- A request for another module goes on to it from the manager while it is present there; anyone else answers status 3. -/
theorem mgmtAt_elsewhere {s u : State} {h : TrussHdr} {id target tenant t : Nat} (htake : takeRequest s h id tenant = (u, some t))
    (hother : target ≠ selfNumber u) (hnumbered : getB u Fld.TR_SELF_NUMBERED = true) (args : List Nat) (f : State → Nat → State) :
    mgmtAt s h id target tenant args f =
      if isManager u && (dirAt u target).state = 1 then trSend u 0x30 target (id :: target :: t :: args) else mgmtReply u id 3 [] := by
  unfold mgmtAt
  rw [htake]
  exact if_neg (by simp [hother, hnumbered])

section
variable {s u : State} {h : TrussHdr} {id : Word} {g : Fin 512} {tn : Fin 4096} {t : Nat} (htake : takeRequest s h id.toNat tn.val = (u, some t))
include htake

/-- A request in an accepted frame for this module is performed by NE1 for the tenant it acts for. -/
theorem done_mgmtTruss_here (hhere : g.val = selfNumber u ∨ getB u Fld.TR_SELF_NUMBERED = false) {op : MgmtOp} {v : State}
    (hperform : mgmtPerform u .ne1 id.toNat t op = v) : done (mgmtTruss s ⟨h, id⟩ g tn op) = .next v :=
  congrArg done ((mgmtAt_here htake hhere _ _).trans hperform)

/-- One for another module is sent on or answered with status 3, whatever it asks. -/
theorem done_mgmtTruss_elsewhere (hother : g.val ≠ selfNumber u) (hnumbered : getB u Fld.TR_SELF_NUMBERED = true) (op : MgmtOp) :
    done (mgmtTruss s ⟨h, id⟩ g tn op) = .next (if isManager u && (dirAt u g.val).state = 1 then trSend u 0x30 g.val (id.toNat :: g.val :: t :: op.args)
      else mgmtReply u id.toNat 3 []) :=
  congrArg done (mgmtAt_elsewhere htake hother hnumbered _ _)

end

/-! ## What a request does outside Scrapped (R271; 05 R153, 15 R481) -/

section
variable {s : State} (hlife : getF s Fld.LC_STATE_STATE ≠ 4) (q : Requester) (id tenant : Nat)
include hlife

/-- A register read is tenant 4095's. -/
theorem mgmtPerform_regRead (a : Nat) : mgmtPerform s q id tenant (.regRead a) =
    if tenant = 4095 then mgmtReply (readReg s q a) id 0 [(replyWord (readReg s q a)).toNat] else mgmtReply s id 1 [] := by
  unfold mgmtPerform
  rw [if_neg (by simp [hlife])]
  exact ite_not _ _ _

/-- A register write is tenant 4095's. -/
theorem mgmtPerform_regWrite (a : Nat) (w : Word) : mgmtPerform s q id tenant (.regWrite a w) =
    if tenant = 4095 then mgmtReply (writeReg s q a w.toNat) id 0 [] else mgmtReply s id 1 [] := by
  unfold mgmtPerform
  rw [if_neg (by simp [hlife])]
  exact ite_not _ _ _

/-- A force is carried out for the tenant, and answered with its RESULT and whether a lock refused it. -/
theorem mgmtPerform_force (i : Fin 65536) (v : Word) : mgmtPerform s q id tenant (.force i v) =
    mgmtReply (forceCmd s false i.val v tenant).1 id (forceCmd s false i.val v tenant).2.status
      [(forceCmd s false i.val v tenant).2.code, b2n ((forceCmd s false i.val v tenant).2 == .locked)] := if_neg (by simp [hlife])

/-- A release is carried out for the tenant, and answered with its RESULT. -/
theorem mgmtPerform_release (i : Fin 65536) : mgmtPerform s q id tenant (.release i) =
    mgmtReply (releaseCmd s false i.val tenant).1 id (releaseCmd s false i.val tenant).2.status [(releaseCmd s false i.val tenant).2.code, 0] :=
  if_neg (by simp [hlife])

/-- A task command is carried out for any tenant (log 58), and answered with its RESULT. -/
theorem mgmtPerform_taskCmd (e sl op : Fin 8) : mgmtPerform s q id tenant (.taskCmd e sl op) =
    mgmtReply (taskCmd s (taskKey e sl) op.val) id (if taskCmdResult s (taskKey e sl) op.val = 0 then 0 else 2) [taskCmdResult s (taskKey e sl) op.val] :=
  if_neg (by simp [hlife])

/-- A loop command is carried out for any tenant (log 58), and answered with its RESULT. -/
theorem mgmtPerform_loopCmd (n : Fin 4096) (op : Fin 8) : mgmtPerform s q id tenant (.loopCmd n op) =
    mgmtReply (loopCmd s n.val op.val) id (if loopCmdResult s n.val op.val = 0 then 0 else 2) [loopCmdResult s n.val op.val] := if_neg (by simp [hlife])

/-- A fault read is answered with the queue in the order of presentation (log 93). -/
theorem mgmtPerform_faultRead : mgmtPerform s q id tenant .faultRead = mgmtReply s id 0 (faultWords s) := if_neg (by simp [hlife])

end

/-- Settles O35: the module that a request is for, then what the operation does there. -/
theorem managementRequestsComplete : Obligations.ManagementRequestsComplete := by
  refine ⟨?read, ?readElsewhere, ?write, ?writeElsewhere, ?force, ?forceElsewhere, ?release, ?releaseElsewhere, ?task, ?taskElsewhere,
    ?loop, ?loopElsewhere, ?fault, ?faultElsewhere, ?uart⟩
  case read => exact fun h id g tn a t s u htake hhere hlife => done_mgmtTruss_here htake hhere (mgmtPerform_regRead hlife ..)
  case write => exact fun h id g tn a w t s u htake hhere hlife => done_mgmtTruss_here htake hhere (mgmtPerform_regWrite hlife ..)
  case force => exact fun h id g tn i v t s u htake hhere hlife => done_mgmtTruss_here htake hhere (mgmtPerform_force hlife ..)
  case release => exact fun h id g tn i t s u htake hhere hlife => done_mgmtTruss_here htake hhere (mgmtPerform_release hlife ..)
  case task => exact fun h id g tn e sl op t s u htake hhere hlife => done_mgmtTruss_here htake hhere (mgmtPerform_taskCmd hlife ..)
  case loop => exact fun h id g tn n op t s u htake hhere hlife => done_mgmtTruss_here htake hhere (mgmtPerform_loopCmd hlife ..)
  case fault => exact fun h id g tn t s u htake hhere hlife => done_mgmtTruss_here htake hhere (mgmtPerform_faultRead hlife ..)
  case readElsewhere => exact fun h id g tn a t s u htake hother hnumbered => done_mgmtTruss_elsewhere htake hother hnumbered _
  case writeElsewhere => exact fun h id g tn a w t s u htake hother hnumbered => done_mgmtTruss_elsewhere htake hother hnumbered _
  case forceElsewhere => exact fun h id g tn i v t s u htake hother hnumbered => done_mgmtTruss_elsewhere htake hother hnumbered _
  case releaseElsewhere => exact fun h id g tn i t s u htake hother hnumbered => done_mgmtTruss_elsewhere htake hother hnumbered _
  case taskElsewhere => exact fun h id g tn e sl op t s u htake hother hnumbered => done_mgmtTruss_elsewhere htake hother hnumbered _
  case loopElsewhere => exact fun h id g tn n op t s u htake hother hnumbered => done_mgmtTruss_elsewhere htake hother hnumbered _
  case faultElsewhere => exact fun h id g tn t s u htake hother hnumbered => done_mgmtTruss_elsewhere htake hother hnumbered _
  case uart =>
    rintro id op s u rfl
    rfl

end Sys2Proof.Machine
end

section
/-! Proofs/MacCommands: frames received and sent, PAUSE, rings, timestamps, link training, MACn_CMD, Low Power Idle and wake (O36). -/

namespace Sys2Proof.Machine

/-! ## Receive (R278 to R286) -/

section
variable {s : State} {m : Nat} {f : RxFrame} (hup : linkUp s m = true) (hdomain : domainOn s (macDomain m) = true)
include hup hdomain

/-- A MAC with its link up in a powered domain receives. -/
theorem not_deaf : ¬ (!linkUp s m || !domainOn s (macDomain m)) = true := by simp [hup, hdomain]

/-- No room in the receive FIFO: RX_FIFO_OVF (R279). -/
theorem receiveFrame_of_fifoFull (hfull : fifoSize s m < f.waiting + f.octets.length) : receiveFrame s m f = macCount s m 14 := by
  rw [receiveFrame, if_neg (not_deaf hup hdomain), if_pos hfull]

variable (hroom : ¬ fifoSize s m < f.waiting + f.octets.length)
include hroom

/-- Step 1: RX_PCS_ERR. -/
theorem receiveFrame_of_pcsErr (herr : f.pcsErr = true) : receiveFrame s m f = macCount s m 2 := by
  rw [receiveFrame, if_neg (not_deaf hup hdomain), if_neg hroom, if_pos herr]

variable (hpcs : f.pcsErr = false)
include hpcs

/-- Step 2: RX_RUNT. -/
theorem receiveFrame_of_short (hshort : f.octets.length < 64) : receiveFrame s m f = macCount s m 3 := by
  rw [receiveFrame, if_neg (not_deaf hup hdomain), if_neg hroom, if_neg (by simp [hpcs]), if_pos hshort]

/-- Step 3: RX_OVERSIZE, by the tags that the frame carries. -/
theorem receiveFrame_of_long (hlong : 1518 + 4 * min (tagCount f.octets) (if isBackbone m then 2 else 1) < f.octets.length) :
    receiveFrame s m f = macCount s m 4 := by
  rw [receiveFrame, if_neg (not_deaf hup hdomain), if_neg hroom, if_neg (by simp [hpcs]), if_neg (by omega), if_pos hlong]

variable (hmin : 64 ≤ f.octets.length) (hmax : f.octets.length ≤ 1518 + 4 * min (tagCount f.octets) (if isBackbone m then 2 else 1))
include hmin hmax

/-- Step 4: RX_FCS. -/
theorem receiveFrame_of_badFcs (hfcs : fcsOk f.octets = false) : receiveFrame s m f = macCount s m 5 := by
  rw [receiveFrame, if_neg (not_deaf hup hdomain), if_neg hroom, if_neg (by simp [hpcs]), if_neg hmin.not_gt, if_neg hmax.not_gt, if_pos (by simp [hfcs])]

variable (hfcs : fcsOk f.octets = true) (hdata : f16 f.octets 12 ≠ 0x8808)
include hfcs hdata

/-- Step 6: RX_ADDR_DISC. -/
theorem receiveFrame_of_addressDenied (haddr : addrOk s m (f.octets.take 6) = false) : receiveFrame s m f = macCount s m 7 := by
  rw [receiveFrame, if_neg (not_deaf hup hdomain), if_neg hroom, if_neg (by simp [hpcs]), if_neg hmin.not_gt, if_neg hmax.not_gt, if_neg (by simp [hfcs]),
    if_neg hdata, if_pos (by simp [haddr])]

/-- A frame that passes steps 1 to 8 crosses to the fabric, for steps 9 and 10. -/
theorem receiveFrame_of_accepted {tags vid pcp cls ring ctx : Nat} {c : Bool} (haddr : addrOk s m (f.octets.take 6) = true)
    (htags : (if isBackbone m then bbTags s m f.octets else floorTags s m f.octets) = .ok tags vid pcp c)
    (hclass : frameClass s m (untagged f.octets tags) vid = some (cls, ring, ctx)) :
    receiveFrame s m f = storeFrame (cross s dcqMacRx) m f (untagged f.octets tags) tags vid pcp cls ring ctx := by
  rw [receiveFrame, if_neg (not_deaf hup hdomain), if_neg hroom, if_neg (by simp [hpcs]), if_neg hmin.not_gt, if_neg hmax.not_gt, if_neg (by simp [hfcs]),
    if_neg hdata, if_neg (by simp [haddr]), htags]
  dsimp only
  rw [hclass]

end

/-- Steps 9 and 10 of a context frame: a buffer, the descriptor at the ring's head, RX_FRAMES and RX_OCTETS, the request queue. -/
theorem storeFrame_of_context {s s₁ s₂ : State} {m : Nat} {f : RxFrame} {u : List Nat} {tags vid pcp ring ctx b : Nat} {d : RxDesc}
    (hbuffer : rxBuffer s m 2 ctx u = some s₁) (hring : getB s₁ (Fld.MACn_RING_EN m ring) = true)
    (hown : (tabGet {} (macAt s₁ m).rx (ring * 4096 + getF s₁ (Fld.MACn_RPTR_HEAD m ring))).own = true) (hfree : freshFree s₁ = (b, s₂))
    (hd : d = { own := false, buf := b % 2 ^ 23, len := u.length % 2048, tags := tags, cls := 2, ctx := ctx, vid := vid, pcp := pcp,
                tsNs := (stampOf f.sec f.ns (getF s (Fld.MACn_TSLAT_RX_ADJ m))).2,
                tsSec := (stampOf f.sec f.ns (getF s (Fld.MACn_TSLAT_RX_ADJ m))).1 % 4, frame := u }) :
    storeFrame s m f u tags vid pcp 2 ring ctx = queueRequest (macCount (macCount (ringStep (mapMac s₂ m (fun x =>
        { x with rx := tabSet {} x.rx (ring * 4096 + getF s₁ (Fld.MACn_RPTR_HEAD m ring)) d })) m ring (Fld.MACn_RPTR_HEAD m ring)) m 0) m 1 f.octets.length)
      m ring (getF s₁ (Fld.MACn_RPTR_HEAD m ring)) ctx vid u.length := by
  subst hd
  rw [storeFrame, if_neg (by simp), hbuffer]
  dsimp only
  rw [if_neg (by simp [hring, hown]), hfree]
  rfl

/-! ## PAUSE (R294 to R296) -/

/-- A PAUSE frame that is acted on. -/
theorem pauseEffect_of_enabled {s u : State} {m : Nat} (hu : u = startTime (macCount s m 15) (tmPause m))
    (henabled : getB u (Fld.MACn_CFG_RX_PAUSE_EN m) = true) (hnotStuck : getB u (Fld.MACn_STATUS_PAUSE_STUCK m) = false) (q : Nat) :
    pauseEffect s m q = mapMac (setB (startTime (if getB u (Fld.MACn_STATUS_PAUSED m) then u else startTime u (tmHeld m)) (tmQuanta m))
      (Fld.MACn_STATUS_PAUSED m) (q ≠ 0)) m (fun x => { x with quanta := q }) := by
  subst hu
  exact if_neg (by simp [henabled, hnotStuck])

/-- The quanta of the PAUSE frame have passed, and no injection renews them. -/
theorem execPauseExpire_of_ran {s : State} {m : Fin 6} (hforce : forced s .macPauseWd m.val = false)
    (hran : timeRan s (tmQuanta m.val) (quantaCycles s m.val) = true) :
    execPauseExpire m s = .next (mapMac (setF s (Fld.MACn_STATUS_PAUSED m.val) 0) m.val (fun x => { x with quanta := 0 })) :=
  if_neg (by simp [hforce, hran])

/-- PAUSE has held the transmitter for PWD_MS. -/
theorem execPauseWatchdog_of_held {s : State} {m : Fin 6} (hpaused : getB s (Fld.MACn_STATUS_PAUSED m.val) = true)
    (hran : timeRan s (tmHeld m.val) (pwdCycles s m.val) = true) :
    execPauseWatchdog m s = .next (raise (macCount (mapMac
      (setFs s [(Fld.MACn_STATUS_PAUSED m.val, 0), (Fld.MACn_STATUS_PAUSE_STUCK m.val, 1)]) m.val
      (fun x => { x with quanta := 0 })) m.val 21) .macPauseWd m.val) :=
  if_neg (by simp [hpaused, hran])

/-! ## Posting descriptors (R286 to R288) -/

/-- A receive ring with room takes a descriptor at its tail, where none holds a frame. -/
theorem execRxDescPost_of_room {s u : State} {m : Fin 6} {k : Fin 4} (hu : u = ringSetUp s m.val k.val)
    (hroom : ringCount u m.val k.val + 1 ≠ ringSize u m.val k.val)
    (hempty : (tabGet {} (macAt u m.val).rx (k.val * 4096 + getF u (Fld.MACn_RPTR_TAIL m.val k.val))).len = 0) :
    execRxDescPost m k s = .next (ringStep (mapMac u m.val (fun x =>
        { x with rx := tabSet {} x.rx (k.val * 4096 + getF u (Fld.MACn_RPTR_TAIL m.val k.val)) { own := true } }))
      m.val k.val (Fld.MACn_RPTR_TAIL m.val k.val)) := by
  subst hu
  rw [execRxDescPost]
  dsimp only
  rw [if_neg hroom, if_pos hempty]

/-- A transmit ring with room takes one for a frame that gets a buffer; Low Power Idle ends. -/
theorem execTxDescPost_of_room {s u v : State} {m : Fin 6} {k : Fin 3} {d : TxPost} (hu : u = ringSetUp s m.val (k.val + 4))
    (hroom : ringCount u m.val (k.val + 4) + 1 ≠ ringSize u m.val (k.val + 4))
    (hbuffer : (if d.forModule then takeNeBuf u else takeCtxBuf u d.ctx.val) = some v) :
    execTxDescPost m k d s = .next (startTime (setF (ringStep (mapMac v m.val (fun x =>
        { x with tx := tabSet {} x.tx ((k.val + 4) * 4096 + getF v (Fld.MACn_RPTR_TAIL m.val (k.val + 4))) { own := true, post := d } }))
      m.val (k.val + 4) (Fld.MACn_RPTR_TAIL m.val (k.val + 4))) (Fld.MACn_LINK_LPI m.val) 0) (tmTx m.val)) := by
  subst hu
  rw [execTxDescPost]
  dsimp only
  rw [if_neg hroom, hbuffer]

/-! ## Transmit (R288 to R293, R298, R299) -/

section
variable {s : State} {m k : Nat} {x : MacState} {d : TxDesc} (hdomain : domainOn s (macDomain m) = true)
  (hpaused : getB s (Fld.MACn_STATUS_PAUSED m) = false) (hpick : pickRing s m = some (k, x)) (hhead : txHead? (setMac s m x) m k = some d)
include hdomain hpaused hpick hhead

/-- With the link down the descriptor completes with STATUS 3, its frame unsent (R277). -/
theorem transmitNext_of_linkDown (hdown : linkUp (setMac s m x) m = false) (sec ns : Nat) :
    transmitNext s m sec ns = completeTx (macCount (setMac s m x) m 19) m k d 3 := by
  rw [transmitNext, if_neg (by simp [hdomain, hpaused]), hpick]
  dsimp only
  rw [hhead]
  exact if_pos (by simp [hdown])

/-- A frame of a valid length, whose tags are allowed, leaves with its FCS and completes with STATUS 0. -/
theorem transmitNext_of_sent {tags : List Nat} (hup : linkUp (setMac s m x) m = true) (hmin : 14 ≤ d.post.len.val) (hmax : d.post.len.val ≤ 1514)
    (harea : d.post.buf.val + d.post.len.val ≤ areaEnd d.post.buf.val) (htags : txTags (setMac s m x) m k d.post = some tags)
    (hplain : d.post.tsReq = false) (sec ns : Nat) :
    transmitNext s m sec ns = completeTx (macCount (macCount (startTime (sendMsg (cross (setMac s m x) dcqMacTx) (.note "FRAME" (m :: wireFrame d.post tags)))
      (tmTx m)) m 16) m 17 (wireFrame d.post tags).length) m k d 0 := by
  have hlen : ¬ (d.post.len.val < 14 || 1514 < d.post.len.val || areaEnd d.post.buf.val < d.post.buf.val + d.post.len.val) = true := by
    simp [hmin, hmax, harea]
  rw [transmitNext, if_neg (by simp [hdomain, hpaused]), hpick]
  dsimp only
  rw [hhead]
  dsimp only
  rw [if_neg (by simp [hup]), if_neg hlen, htags]
  dsimp only
  rw [if_neg (by simp [hplain])]

end

/-- The head timestamp of an event that is neither a Sync nor a Delay_Req is handed out. -/
theorem execTsqRemove_of_head {s : State} {m : Fin 6} {e : TsEntry} {t : List TsEntry} (hforce : forced s .macTsqOvf m.val = false)
    (hhead : (macAt s m.val).tsq = e :: t) (htype : 2 ≤ e.msgType) :
    execTsqRemove m s = .next (setReply (setF (mapMac s m.val (fun x => { x with tsq := t })) (Fld.MACn_STATUS_TSQ_LEVEL m.val) t.length) (tsWords e)) := by
  rw [execTsqRemove, if_neg (by simp [hforce]), hhead]
  dsimp only
  split
  · omega
  · omega
  · rfl

/-! ## Links (R275 to R277, R524) -/

/-- Training brings the link up: a backbone MAC has one rate, a forced rate goes before the in-band one. -/
theorem execLinkTrainEnd_of_training {s : State} {m : Fin 6} (htraining : getB s (Fld.MACn_LINK_TRAINING m.val) = true)
    (hforce : forcedOnce s .macTrain m.val = false) (r : Fin 8) :
    execLinkTrainEnd m r s = .next (flushOut (setF (setLink (stopTraining s m.val) m.val true) (Fld.MACn_LINK_RATE m.val)
      (if isBackbone m.val then 0 else if forcedRate (setLink (stopTraining s m.val) m.val true) m.val ≠ 0
        then forcedRate (setLink (stopTraining s m.val) m.val true) m.val else r.val))) :=
  if_pos (by simp [htraining, hforce])

/-- Training that lasts 500 ms ends with its fault. -/
theorem execLinkTrainTimeout_of_ran {s : State} {m : Fin 6} (htraining : getB s (Fld.MACn_LINK_TRAINING m.val) = true)
    (hran : timeRan s (tmTrain m.val) (500 * msCycles) = true) (hforce : forced s .macTrain m.val = false) :
    execLinkTrainTimeout m s = .next (raise (stopTraining s m.val) .macTrain m.val) :=
  (if_pos (by simp [htraining, hran])).trans (congrArg done (if_neg (by simp [hforce])))

/-- A link that was up is lost. -/
theorem loseLink_of_up {s : State} {m : Nat} (hup : linkUp s m = true) (receiving : Bool) :
    loseLink s m receiving = askTraining (raise (if receiving then macCount (setLink s m false) m 2 else setLink s m false) .macLinkLost m) m :=
  if_neg (by simp [hup])

/-- In-band signalling changes the rate of a floor MAC to one that its MODE offers. -/
theorem execInbandRateChange_of_offered {s : State} {m : Fin 6} {rate : Fin 8} (hfloor : isBackbone m.val = false) (hinband : forcedRate s m.val = 0)
    (hup : linkUp s m.val = true) (hoffered : rateOffered (getF s (Fld.MACn_CFG_MODE m.val)) rate.val = true) (receiving : Bool) :
    execInbandRateChange m rate receiving s = .next (if receiving then macCount (setF s (Fld.MACn_LINK_RATE m.val) rate.val) m.val 2
      else setF s (Fld.MACn_LINK_RATE m.val) rate.val) :=
  if_neg (by simp [hfloor, hinband, hup, hoffered])

/-- RETRAIN of a MAC that is not DISABLED. -/
theorem macCmd_retrain {s : State} {m : Nat} (henabled : getB s (Fld.MACn_LINK_DISABLED m) = false) : macCmd s m 1 = retrain (macFields s m 1 0) m :=
  if_neg (by simp [henabled])

/-- ENABLE of a DISABLED MAC. -/
theorem macCmd_enable {s : State} {m : Nat} (hdisabled : getB s (Fld.MACn_LINK_DISABLED m) = true) :
    macCmd s m 3 = askTraining (mapMac (setF (macFields s m 3 0) (Fld.MACn_LINK_DISABLED m) 0) m (fun x => { x with down := false })) m :=
  if_pos (by simp [hdisabled])

/-- A MAC's structures are no register. -/
theorem getB_mapMac (s : State) (m : Nat) (g : MacState → MacState) (f : RF) : getB (mapMac s m g) f = getB s f := getB_of_regs rfl f

section
variable {s : State} {m : Fin 2}

/-- BBn_LOS rises with no training asked for or under way: a link that was up is lost. -/
theorem execBbLosChange_of_not_training (htraining : getB s (Fld.MACn_LINK_TRAINING m.val) = false)
    (hwaiting : getB s (Fld.MACn_LINK_PEG_WAIT m.val) = false) :
    execBbLosChange m true s = .next (loseLink (mapMac s m.val (fun x => { x with los := true })) m.val false) :=
  if_neg (by simp [getB_mapMac, htraining, hwaiting])

/-- It rises during training: that stops, and waits for it. -/
theorem execBbLosChange_of_training (htraining : getB s (Fld.MACn_LINK_TRAINING m.val) = true) : execBbLosChange m true s =
    .next (mapMac (stopTraining (mapMac s m.val (fun x => { x with los := true })) m.val) m.val (fun x => { x with trainDue := true })) :=
  if_pos (by simp [getB_mapMac, htraining])

/-- It falls where a training waits for it. -/
theorem execBbLosChange_of_due (hdue : (macAt s m.val).trainDue = true) :
    execBbLosChange m false s = .next (askTraining (mapMac s m.val (fun x => { x with los := false, trainDue := false })) m.val) :=
  congrArg done (if_pos hdue)

end

/-! ## Low Power Idle and wake (R300 to R303) -/

/-- A transmitter idle for IDLE_US enters Low Power Idle. -/
theorem execLpiEnter_of_idle {s : State} {m : Fin 6} (heee : eeeOn s m.val = true) (hup : linkUp s m.val = true)
    (hactive : getB s (Fld.MACn_LINK_LPI m.val) = false) (hnone : pickRing s m.val = none) (hran : timeRan s (tmTx m.val) (idleCycles s m.val) = true) :
    execLpiEnter m s = .next (macCount (setF s (Fld.MACn_LINK_LPI m.val) 1) m.val 23) :=
  if_pos (by simp [heee, hup, hactive, hnone, hran])

/-- A wake frame at an armed MAC ends Doze, and its cause is recorded. -/
theorem execWakeFrame_of_armed {s : State} {m : Fin 6} {l : List Nat} (hdoze : modeOf s = 4) (harmed : getB s (Fld.MACn_STATUS_WAKE_ARMED m.val) = true)
    (hcause : wakeCause s m.val l ≠ 0) :
    execWakeFrame m l s = .next (macCount (setF (dozeWake s 1) (Fld.MACn_STATUS_WAKE_CAUSE m.val) (wakeCause s m.val l)) m.val 22) :=
  if_neg (by simp [hdoze, harmed, hcause])

/-- Settles O36: a frame by the step of Table 2 that decides it, and each other command of the MACs by its own lemma. -/
theorem macCommandsComplete : Obligations.MacCommandsComplete := by
  refine ⟨?accepted, ?stored, ?discarded, ?pause, ?pauseExpire, ?pauseWatchdog, ?pauseRearm, ?rxPost, ?txPost, ?sent, ?linkDown, ?timestamp,
    ?trainEnd, ?trainTimeout, ?linkLoss, ?inbandRate, ?retrain, ?disable, ?enable, ?clearCounters, ?lpi, ?los, ?wake⟩
  case accepted =>
    intro m f tags vid pcp cls ring ctx c s hup hdomain hroom hpcs hmin hmax hfcs hdata haddr htags hclass
    exact congrArg done (receiveFrame_of_accepted hup hdomain hroom hpcs hmin hmax hfcs hdata haddr htags hclass)
  case stored => exact fun m f u tags vid pcp ring ctx b d s s₁ s₂ hbuffer hring hown hfree hd => storeFrame_of_context hbuffer hring hown hfree hd
  case discarded =>
    intro m f s hup hdomain
    refine ⟨?fifo, ?code, ?short, ?long, ?fcs, ?address⟩
    case fifo => exact fun hfull => congrArg done (receiveFrame_of_fifoFull hup hdomain hfull)
    case code => exact fun hroom herr => congrArg done (receiveFrame_of_pcsErr hup hdomain hroom herr)
    case short => exact fun hroom hpcs hshort => congrArg done (receiveFrame_of_short hup hdomain hroom hpcs hshort)
    case long => exact fun hroom hpcs hlong => congrArg done (receiveFrame_of_long hup hdomain hroom hpcs hlong)
    case fcs => exact fun hroom hpcs hmin hmax hfcs => congrArg done (receiveFrame_of_badFcs hup hdomain hroom hpcs hmin hmax hfcs)
    case address =>
      exact fun hroom hpcs hmin hmax hfcs hdata haddr =>
        congrArg done (receiveFrame_of_addressDenied hup hdomain hroom hpcs hmin hmax hfcs hdata haddr)
  case pause => exact fun m q s u hu henabled hnotStuck => congrArg done (pauseEffect_of_enabled hu henabled hnotStuck q.val)
  case pauseExpire => exact fun m s hforce hran => execPauseExpire_of_ran hforce hran
  case pauseWatchdog => exact fun m s hpaused hran => execPauseWatchdog_of_held hpaused hran
  case pauseRearm => exact fun m s hran => congrArg done (if_pos hran)
  case rxPost => exact fun m k s u hu hroom hempty => execRxDescPost_of_room hu hroom hempty
  case txPost => exact fun m k d s u v hu hroom hbuffer => execTxDescPost_of_room hu hroom hbuffer
  case sent =>
    intro m sec ns k x d tags s hdomain hpaused hpick hhead hup hmin hmax harea htags hplain
    exact congrArg done (transmitNext_of_sent hdomain hpaused hpick hhead hup hmin hmax harea htags hplain sec.val ns.val)
  case linkDown =>
    intro m sec ns k x d s hdomain hpaused hpick hhead hdown
    exact congrArg done (transmitNext_of_linkDown hdomain hpaused hpick hhead hdown sec.val ns.val)
  case timestamp => exact fun m e t s hforce hhead htype => execTsqRemove_of_head hforce hhead htype
  case trainEnd => exact fun m r s htraining hforce => execLinkTrainEnd_of_training htraining hforce r
  case trainTimeout => exact fun m s htraining hran hforce => execLinkTrainTimeout_of_ran htraining hran hforce
  case linkLoss => exact fun m r s hup => congrArg done (loseLink_of_up hup r)
  case inbandRate => exact fun m rate r s hfloor hinband hup hoffered => execInbandRateChange_of_offered hfloor hinband hup hoffered r
  case retrain => exact fun m s henabled => congrArg done (macCmd_retrain henabled)
  case disable => exact fun m s => rfl
  case enable => exact fun m s hdisabled => congrArg done (macCmd_enable hdisabled)
  case clearCounters => exact fun m s => rfl
  case lpi => exact fun m s heee hup hactive hnone hran => execLpiEnter_of_idle heee hup hactive hnone hran
  case los =>
    intro m s
    refine ⟨?rises, ?risesInTraining, ?falls⟩
    case rises => exact fun _ htraining hwaiting => execBbLosChange_of_not_training htraining hwaiting
    case risesInTraining => exact execBbLosChange_of_training
    case falls => exact execBbLosChange_of_due
  case wake => exact fun m l s hdoze harmed hcause => execWakeFrame_of_armed hdoze harmed hcause

end Sys2Proof.Machine
end

section
/-! Proofs/BacnetCommands: datagrams and requests of the IP views, BACnet/IP requests, and change of value (O37). -/

namespace Sys2Proof.Machine

/-! ## IP (R308) -/

section
variable {s : State} {c : Fin 64} (hruns : neRuns s = true) (hmay : mayServe s c.val = true)
include hruns hmay

section
variable {l : List Nat}

/-- A datagram that R308 refuses is counted. -/
theorem execDatagramDiscard_of_ip (hverdict : ipVerdict (served s c.val) c.val l = some .ip) :
    execDatagramDiscard c l s = .next (incSatF (served s c.val) Fld.NE_DISC_IP_DISC) := by
  rw [execDatagramDiscard, if_neg (by simp [hruns, hmay])]
  dsimp only
  rw [hverdict]

/-- A message that R313 refuses is counted, in Safe mode as R332 has it. -/
theorem execDatagramDiscard_of_bac (hverdict : ipVerdict (served s c.val) c.val l = some .bac) : execDatagramDiscard c l s =
    .next (if modeOf s = 3 then incSatF (served s c.val) Fld.NE_DISC2_SAFE_DISC else incSatF (served s c.val) Fld.NE_DISC_BAC_DISC) := by
  rw [execDatagramDiscard, if_neg (by simp [hruns, hmay])]
  dsimp only
  rw [hverdict, served_modeOf]

/-- BACnet or CoAP as such is counted in Safe mode only. -/
theorem execDatagramDiscard_of_app (hverdict : ipVerdict (served s c.val) c.val l = some .app) : execDatagramDiscard c l s =
    .next (if modeOf s = 3 then incSatF (served s c.val) Fld.NE_DISC2_SAFE_DISC else served s c.val) := by
  rw [execDatagramDiscard, if_neg (by simp [hruns, hmay])]
  dsimp only
  rw [hverdict, served_modeOf]

/-- What is no datagram to the context leaves its queue and is not counted. -/
theorem execDatagramDiscard_of_none (hverdict : ipVerdict (served s c.val) c.val l = none) : execDatagramDiscard c l s = .next (served s c.val) := by
  rw [execDatagramDiscard, if_neg (by simp [hruns, hmay])]
  dsimp only
  rw [hverdict]

end

variable (hvalid : getB s (Fld.PT_CTX_VALID c.val) = true)
include hvalid

/-- ARP for the context's address is answered. -/
theorem execArpRequest_of_own {a : Word} (hv4 : getB s (Fld.NE_CTX_CFG_V4_EN c.val) = true) (hown : getF s (Fld.NE_CTX_V4_ADDR c.val) = a.toNat) :
    execArpRequest c a s = .next (sendMsg (served s c.val) (.note "ARP_REPLY" (c.val :: a.toNat :: viaArgs (replyVia (served s c.val) c.val)))) :=
  if_pos (by simp [hruns, hmay, hvalid, hv4, hown])

/-- A neighbour solicitation for one of the context's addresses is answered, and every router solicitation. -/
theorem execNeighborSolicit_of_own {a : BitVec 128} {r : Bool} (hv6 : getB s (Fld.NE_CTX_CFG_V6_EN c.val) = true)
    (hown : r = true ∨ (ctxV6 s c.val).contains a.toNat = true) : execNeighborSolicit c a r s =
    .next (sendMsg (served s c.val) (.note "ND_REPLY" (c.val :: a.toNat :: b2n r :: viaArgs (replyVia (served s c.val) c.val)))) := by
  have hasked : (r || (ctxV6 s c.val).contains a.toNat) = true := by simpa only [Bool.or_eq_true] using hown
  exact if_pos (by rw [hruns, hmay, hvalid, hv6, hasked]; rfl)

/-- The context has sent fewer than 10 echo replies in the last second, and sends one more. -/
theorem execEchoRequest_of_own {v6 : Bool} {a : BitVec 128} {q : List Nat}
    (hown : (if v6 then (ctxV6 s c.val).contains a.toNat
      else getB s (Fld.NE_CTX_CFG_V4_EN c.val) && (a.toNat == getF s (Fld.NE_CTX_V4_ADDR c.val) || a.toNat == v4Broadcast s c.val)) = true)
    (hq : q = (tabGet [] s.net.echo c.val).filter (fun t => decide (s.mono < t + 4000))) (hroom : q.length < 10) (l : List Nat) :
    execEchoRequest c v6 a l s = .next (sendMsg (mapNet (served s c.val) (fun n => { n with echo := tabSet [] n.echo c.val (s.mono :: q) }))
      (.note "ECHO_REPLY" (c.val :: b2n v6 :: viaArgs (replyVia (served s c.val) c.val) ++ l))) := by
  subst hq
  rw [execEchoRequest]
  dsimp only
  rw [if_neg (by simp [hruns, hmay, hvalid]), if_neg (by rw [hown]; decide), served_mono, served_echo, if_neg hroom.not_ge]

end

/-! ## BACnet requests (R313 to R318) -/

section
variable {s : State} {c : Fin 64} (hruns : neRuns s = true) (hvalid : getB s (Fld.PT_CTX_VALID c.val) = true) (hmay : mayServe s c.val = true)
  (hmode : modeOf s ≠ 3) (hbac : getB s (Fld.NE_CTX_CFG_BAC_EN c.val) = true)
include hruns hvalid hmay hmode hbac

/-- A BVLC function that this node does not act on gets its BVLC-Result. -/
theorem execBvlcNak_of_other {f : Fin 256} (h4 : f ≠ 4) (h10 : f ≠ 10) (h11 : f ≠ 11) (a : NetAddr) :
    execBvlcNak c a f s = .next (bacSend (served s c.val) c.val a.toNat 0 "BVLC-Result" [.num (bvlcNak f.val)]) :=
  congrArg done ((onBacnet_ok hruns hvalid hmay hmode hbac _).trans (if_neg (by simp [h4, h10, h11])))

section
variable {o : Word} {pr : BacProp} {x : Option Nat} (a : NetAddr) (i : Fin 256)

/-- A property that a ReadProperty-ACK carries whole is answered with its value. -/
theorem execReadProperty_of_value {v : PropVal} (hread : readProp (served s c.val) c.val o.toNat pr x = v) (herr : ∀ e, v ≠ .err e)
    (hlist : ∀ l, v ≠ .objs l) : execReadProperty c a i o pr x s = .next (bacSend (served s c.val) c.val a.toNat i.val "ReadProperty-ACK" [v]) := by
  rw [execReadProperty, onBacnet_ok hruns hvalid hmay hmode hbac, hread]
  cases v with
  | err e => exact absurd rfl (herr e)
  | objs l => exact absurd rfl (hlist l)
  | _ => rfl

/-- A property that cannot be read is answered with its error. -/
theorem execReadProperty_of_err {e : String} (hread : readProp (served s c.val) c.val o.toNat pr x = .err e) :
    execReadProperty c a i o pr x s = .next (bacSend (served s c.val) c.val a.toNat i.val "Error" [.err e]) := by
  rw [execReadProperty, onBacnet_ok hruns hvalid hmay hmode hbac, hread]

/-- ReadPropertyMultiple is answered whole or not at all: segmentation is not supported. -/
theorem execReadPropertyMultiple_ok (l : List (Word × List BacProp)) : execReadPropertyMultiple c a i l s =
    .next (if 1476 < rpmLen (rpmResults (served s c.val) c.val l) then bacSend (served s c.val) c.val a.toNat i.val "Abort" [.text "SEGMENTATION_NOT_SUPPORTED"]
      else bacSend (served s c.val) c.val a.toNat i.val "ReadPropertyMultiple-ACK"
        ((rpmResults (served s c.val) c.val l).flatMap (fun r => .num r.1 :: r.2.map (fun pv => pv.2)))) :=
  congrArg done (onBacnet_ok hruns hvalid hmay hmode hbac _)

/-- A value of the object's type for the Present_Value of a DIR 2 object makes the writer's write. -/
theorem execWriteProperty_of_word {d : ExportDef} {v : BacVal} {w : Word}
    (hread : ∀ e, readProp (served s c.val) c.val o.toNat .presentValue none ≠ .err e) (hobj : bacObject? (served s c.val) c.val o.toNat = some d)
    (hdir : d.dir = 2) (hword : writeWord d v = .ok w) : execWriteProperty c a i o .presentValue v s =
    .next (bacSend (writerWrite (served s c.val) .endpoint c.val d.index w .good) c.val a.toNat i.val "SimpleACK" []) := by
  rw [execWriteProperty, onBacnet_ok hruns hvalid hmay hmode hbac]
  dsimp only
  rw [hobj]
  dsimp only
  rw [if_neg (by simp [hdir]), hword]
  cases hvalue : readProp (served s c.val) c.val o.toNat .presentValue none with
  | err e => exact absurd hvalue (hread e)
  | _ => rfl

/-- A subscription that has room replaces the client's, and its first notification follows its SimpleACK. -/
theorem execSubscribeCov_of_room {d : ExportDef} {b : Observer} {conf : Bool} {pid : Word} {l : Fin 28801}
    (hdevice : o.toNat ≠ deviceId (served s c.val) c.val) (hobj : bacObject? (served s c.val) c.val o.toNat = some d)
    (hroom : obsRoom (served s c.val) c.val = true)
    (hb : b = { number := d.number, client := a.toNat, usras := false, confirmed := conf, pid := pid.toNat, lifetime := l.val }) :
    execSubscribeCov c a i pid o conf (some l) s = .next (notifyOne (bacSend (startTime (updObs (mapNet (delObs (served s c.val) d.number a.toNat)
      (fun t => { t with obs := t.obs ++ [b] }))) (tmLife d.number a.toNat)) c.val a.toNat i.val "SimpleACK" []) d b false) := by
  subst hb
  rw [execSubscribeCov, onBacnet_ok hruns hvalid hmay hmode hbac]
  dsimp only
  rw [if_neg hdevice, hobj]
  dsimp only
  rw [if_neg (by simp [hroom])]

/-- A cancellation is acknowledged, and ends the client's subscription to the object it names. -/
theorem execSubscribeCov_of_cancel (conf : Bool) (pid : Word) : execSubscribeCov c a i pid o conf none s =
    .next (bacSend (((bacObject? (served s c.val) c.val o.toNat).map (fun d => delObs (served s c.val) d.number a.toNat)).getD (served s c.val))
      c.val a.toNat i.val "SimpleACK" []) := by
  rw [execSubscribeCov, onBacnet_ok hruns hvalid hmay hmode hbac]
  cases bacObject? (served s c.val) c.val o.toNat <;> rfl

/-- A request that a rule refuses gets the answer of Table 4. -/
theorem execBacnetReject_ok (w : BacRefusal) :
    execBacnetReject c a i w s = .next (bacSend (served s c.val) c.val a.toNat i.val w.answer.1 [.text w.answer.2]) :=
  congrArg done (onBacnet_ok hruns hvalid hmay hmode hbac _)

end

/-- An unconfirmed request that is not acted on is counted. -/
theorem execBacnetUnconfirmedDiscard_ok : execBacnetUnconfirmedDiscard c s = .next (incSatF (served s c.val) Fld.NE_DISC_BAC_DISC) :=
  congrArg done (onBacnet_ok hruns hvalid hmay hmode hbac _)

section
variable {r : Option (Nat × Nat)} (hrange : inRange (served s c.val) c.val r = true)
include hrange

/-- Who-Is of a range with this Device is answered by I-Am. -/
theorem execWhoIs_of_inRange : execWhoIs c r s = .next (bacSend (served s c.val) c.val (v4BroadcastAddr (served s c.val) c.val) 0 "I-Am"
    [.num (deviceId (served s c.val) c.val), .num 1476, .num 3, .num (getF (served s c.val) Fld.NE_BACNET_VENDOR_ID)]) :=
  congrArg done ((onBacnet_ok hruns hvalid hmay hmode hbac _).trans (if_pos hrange))

/-- Who-Has of an object of the view is answered by I-Have. -/
theorem execWhoHas_of_object {o : Word} {x : Nat × String}
    (hobj : ((deviceId (served s c.val) c.val, deviceName (served s c.val) c.val) ::
      (bacObjects (served s c.val) c.val).map (fun d => (d.object, objectName (served s c.val) d))).find? (fun x => x.1 == o.toNat) = some x) (n : String) :
    execWhoHas c r (some o) n s = .next (bacSend (served s c.val) c.val (v4BroadcastAddr (served s c.val) c.val) 0 "I-Have"
      [.num (deviceId (served s c.val) c.val), .num x.1, .text x.2]) := by
  rw [execWhoHas, onBacnet_ok hruns hvalid hmay hmode hbac]
  dsimp only
  rw [hobj]
  exact congrArg done (if_pos hrange)

end

end

/-! ## Change of value (R319, R320, R327) -/

/-- A change of a published record notifies the observers that are due. -/
theorem execCovNotify_of_published {ne : Fin 2} {i k : Nat} {d : ExportDef} {s u : State} (hruns : neRuns s = true) (htake : takeChange s ne.val = (u, some i))
    (hdef : u.net.defs.find? (fun kd => kd.2.index == i && kd.2.dir != 1) = some (k, d)) (hmode : modeOf u ≠ 3) :
    execCovNotify ne s = .next (checkReceiver (notifyAll u d (fun v o => notifyDue v d o) false) d) := by
  rw [execCovNotify, if_neg (by simp [hruns]), htake]
  dsimp only
  rw [hdef]
  exact if_neg hmode

/-- A notification repeated to an observer: the record as it is now, counted as transmission `k`. -/
def renotify (s : State) (d : ExportDef) (o : Observer) (n client k : Nat) : State :=
  setObs (notifyOne s d o false) { (obsAt? (notifyOne s d o false) n client).getD o with sent := some k }

section
variable {n : Fin 32768} {a : NetAddr} {o : Observer} {s : State} (hobs : obsAt? s n.val a.toNat = some o)
include hobs

/-- A subscription whose lifetime has elapsed ends. -/
theorem execCovLifetimeExpiry_of_ran (hbac : o.usras = false) (hlimited : o.lifetime ≠ 0)
    (hran : timeRan s (tmLife n.val a.toNat) (o.lifetime * (1000 * msCycles)) = true) : execCovLifetimeExpiry n a s = .next (delObs s n.val a.toNat) := by
  rw [execCovLifetimeExpiry, hobs]
  exact if_pos (by simp [hbac, hlimited, hran])

variable {d : ExportDef} (hdef : tabGet? s.net.defs n.val = some d)
include hdef

/-- A confirmed notification not acknowledged in 3 s is sent up to four times; FAILED then counts it, and the subscription stays. -/
theorem execCovRetry_of_ran {k : Nat} (hsent : o.sent = some k) (hbac : o.usras = false)
    (hran : timeRan s (tmNotify n.val a.toNat) (3000 * msCycles) = true) : execCovRetry n a s =
    .next (if 4 ≤ k then incSatF (setObs s { o with sent := none }) (Fld.NE_CTX_OBS_FAILED d.ctx) else renotify s d o n.val a.toNat (k + 1)) := by
  rw [execCovRetry, hobs, hdef]
  dsimp only
  rw [hsent]
  dsimp only
  rw [if_neg (by simp [hbac, hran])]
  exact (apply_ite done ..).symm

/-- The acknowledgement of a notification ends its repetition; the designated receiver's clears UNDELIV. -/
theorem execNotificationAck_of_sent (hsent : o.sent.isSome = true) : execNotificationAck n a s =
    .next (if isReceiver d o then setUndeliv (setObs s { o with sent := none }) d.index false else setObs s { o with sent := none }) := by
  rw [execNotificationAck, hobs, hdef]
  exact if_neg (by simp [Option.isSome_iff_ne_none.1 hsent])

end

/-- Settles O37: a datagram by the verdict on it, a request by the case that answers it, a notification by its observer. -/
theorem bacnetCommandsComplete : Obligations.BacnetCommandsComplete := by
  refine ⟨?discard, ?arp, ?neighbor, ?echo, ?bvlc, ?readNum, ?readReal, ?readErr, ?readMultiple, ?write, ?subscribe, ?cancel, ?whoIs, ?whoHas,
    ?reject, ?unconfirmed, ?change, ?retry, ?retriesOver, ?lifetime, ?ack⟩
  case discard =>
    intro c l s hruns hmay
    refine ⟨execDatagramDiscard_of_ip hruns hmay, ?bac, ?app, ?safe, execDatagramDiscard_of_none hruns hmay⟩
    case bac => exact fun hverdict hmode => (execDatagramDiscard_of_bac hruns hmay hverdict).trans (congrArg done (if_neg hmode))
    case app => exact fun hverdict hmode => (execDatagramDiscard_of_app hruns hmay hverdict).trans (congrArg done (if_neg hmode))
    case safe =>
      rintro (hverdict | hverdict) hsafe
      · exact (execDatagramDiscard_of_bac hruns hmay hverdict).trans (congrArg done (if_pos hsafe))
      · exact (execDatagramDiscard_of_app hruns hmay hverdict).trans (congrArg done (if_pos hsafe))
  case arp => exact fun c a s hruns hvalid hmay hv4 hown => execArpRequest_of_own hruns hmay hvalid hv4 hown
  case neighbor => exact fun c a r s hruns hvalid hmay hv6 hown => execNeighborSolicit_of_own hruns hmay hvalid hv6 hown
  case echo => exact fun c v6 a l q s hruns hvalid hmay hown hq hroom => execEchoRequest_of_own hruns hmay hvalid hown hq hroom l
  case bvlc => exact fun c a f s hruns hvalid hmay hmode hbac h4 h10 h11 => execBvlcNak_of_other hruns hvalid hmay hmode hbac h4 h10 h11 a
  case readNum =>
    intro c a i o p x n s hruns hvalid hmay hmode hbac hread
    exact execReadProperty_of_value hruns hvalid hmay hmode hbac a i hread nofun nofun
  case readReal =>
    intro c a i o p x w s hruns hvalid hmay hmode hbac hread
    exact execReadProperty_of_value hruns hvalid hmay hmode hbac a i hread nofun nofun
  case readErr =>
    intro c a i o p x e s hruns hvalid hmay hmode hbac hread
    exact execReadProperty_of_err hruns hvalid hmay hmode hbac a i hread
  case readMultiple =>
    intro c a i l s hruns hvalid hmay hmode hbac
    have hanswer := execReadPropertyMultiple_ok hruns hvalid hmay hmode hbac a i l
    exact ⟨fun hfits => hanswer.trans (congrArg done (if_neg hfits.not_gt)), fun hlong => hanswer.trans (congrArg done (if_pos hlong))⟩
  case write =>
    rintro c a i o w v d x s hruns hvalid hmay hmode hbac rfl hread hobj hdir hword
    exact execWriteProperty_of_word hruns hvalid hmay hmode hbac a i hread hobj hdir hword
  case subscribe =>
    intro c a i pid o conf l d b s hruns hvalid hmay hmode hbac hdevice hobj hroom hb
    exact execSubscribeCov_of_room hruns hvalid hmay hmode hbac a i hdevice hobj hroom hb
  case cancel =>
    intro c a i pid o conf s hruns hvalid hmay hmode hbac
    refine (execSubscribeCov_of_cancel hruns hvalid hmay hmode hbac a i conf pid).trans ?_
    cases bacObject? (served s c.val) c.val o.toNat <;> rfl
  case whoIs => exact fun c r s hruns hvalid hmay hmode hbac hrange => execWhoIs_of_inRange hruns hvalid hmay hmode hbac hrange
  case whoHas => exact fun c r o n x s hruns hvalid hmay hmode hbac hobj hrange => execWhoHas_of_object hruns hvalid hmay hmode hbac hrange hobj n
  case reject => exact fun c a i w s hruns hvalid hmay hmode hbac => execBacnetReject_ok hruns hvalid hmay hmode hbac a i w
  case unconfirmed => exact fun c s hruns hvalid hmay hmode hbac => execBacnetUnconfirmedDiscard_ok hruns hvalid hmay hmode hbac
  case change => exact fun ne i k d s u hruns htake hdef hmode => execCovNotify_of_published hruns htake hdef hmode
  case retry =>
    intro n a o d k s hobs hdef hsent hbac hran hk
    exact (execCovRetry_of_ran hobs hdef hsent hbac hran).trans (congrArg done (if_neg hk.not_ge))
  case retriesOver => exact fun n a o d s hobs hdef hsent hbac hran => execCovRetry_of_ran hobs hdef hsent hbac hran
  case lifetime => exact fun n a o s hobs hbac hlimited hran => execCovLifetimeExpiry_of_ran hobs hbac hlimited hran
  case ack => exact fun n a o d s hobs hdef hsent => execNotificationAck_of_sent hobs hdef hsent

end Sys2Proof.Machine
end

section
/-! Proofs/CoapCommands: Usras requests of clients, notifications of a publication, and the observation behind an endpoint import (O38). -/

namespace Sys2Proof.Machine

/-! ## Requests (R322 to R325, R329) -/

/-- A publication's number, and the value, type and quality of its record: what a GET is answered with. -/
def shownWords (s : State) (d : ExportDef) : List Nat :=
  [d.number, (ptValue (ptAt s d.index)).toNat, (ptAt s d.index).ty.code, (ptQuality s (ptAt s d.index)).code]

/-- The observer that a GET registers: the answer is its first notification. -/
def newObserver (s : State) (d : ExportDef) (client peer : Nat) : Observer :=
  { number := d.number, client := client, usras := true, peer := peer, lastVal := ptValue (ptAt s d.index), lastQ := ptQuality s (ptAt s d.index) }

/-- A client's observation of a publication is registered in place of the one it held; the designated receiver acknowledges. -/
def observe (s : State) (d : ExportDef) (o : Observer) : State :=
  startTime (updObs (mapNet (delObs s d.number o.client) (fun t => { t with obs := t.obs ++ [if isReceiver d o then { o with sent := some 1 } else o] })))
    (tmNotify d.number o.client)

section
variable {s : State} {c : Fin 64} (hruns : neRuns s = true) (hvalid : getB s (Fld.PT_CTX_VALID c.val) = true) (hmay : mayServe s c.val = true)
  (hmode : modeOf s ≠ 3) (husras : getB s (Fld.NE_CTX_CFG_USRAS_EN c.val) = true) (a : NetAddr)
include hruns hvalid hmay hmode husras

/-- The well-known resources are listed without protection. -/
theorem execWellKnownCore_ok (mc : Bool) : execWellKnownCore c a mc s = .next (coapSend (served s c.val) c.val a.toNat none 205
    (b2n mc :: ((published (served s c.val) c.val).filter (fun d => d.usras)).flatMap (fun d => [d.cls, d.inst, d.item]))) :=
  congrArg done (onCoap_ok hruns hvalid hmay hmode husras _)

/-- A refused request gets the code of Table 6 if it was sent to this module alone. -/
theorem execCoapRefused_ok (w : CoapRefusal) (mc : Bool) :
    execCoapRefused c a w mc s = .next (if mc then served s c.val else coapSend (served s c.val) c.val a.toNat none w.code []) :=
  congrArg done (onCoap_ok hruns hvalid hmay hmode husras _)

variable {m : Option OscMsg} {u : State}

/-- A request whose protection does not verify is refused, whatever it asks. -/
theorem onUsras_of_unverified (hosc : oscReceive (served s c.val) c.val m = (u, none)) (client : Nat) (f : State → Nat → State) :
    onUsras s c.val client m f = coapSend u c.val client none (oscRefusal (served s c.val) c.val m) [] := by
  rw [onUsras, onCoap_ok hruns hvalid hmay hmode husras, hosc]

variable {p : Nat} (hosc : oscReceive (served s c.val) c.val m = (u, some p))
include hosc

section
variable {k i : Fin 256} {n : Fin 65536}

/-- A GET of a path that nothing is published at: 4.04. -/
theorem execCoapGet_of_no_path (hpath : usras? u c.val k.val i.val n.val = none) (x : Option Bool) :
    execCoapGet c a m k i n x s = .next (coapSend u c.val a.toNat (some p) 404 []) := by
  rw [execCoapGet, onUsras_ok hruns hvalid hmay hmode husras hosc]
  dsimp only
  rw [hpath]

variable {d : ExportDef} (hpath : usras? u c.val k.val i.val n.val = some d)
include hpath

/-- A GET is answered 2.05 with the record as it is. -/
theorem execCoapGet_of_path : execCoapGet c a m k i n none s = .next (coapSend u c.val a.toNat (some p) 205 (shownWords u d)) := by
  rw [execCoapGet, onUsras_ok hruns hvalid hmay hmode husras hosc]
  dsimp only
  rw [hpath]
  rfl

/-- A GET that deregisters ends the client's observation; the answer is that of a plain GET. -/
theorem execCoapGet_of_cancel : execCoapGet c a m k i n (some false) s =
    .next (coapSend (checkReceiver (delObs u d.number a.toNat) d) c.val a.toNat (some p) 205 (shownWords u d)) := by
  rw [execCoapGet, onUsras_ok hruns hvalid hmay hmode husras hosc]
  dsimp only
  rw [hpath]
  rfl

/-- A GET that registers an observer does so where the limits of R319 leave room. -/
theorem execCoapGet_of_observe (hroom : obsRoom u c.val = true) : execCoapGet c a m k i n (some true) s =
    .next (coapSend (observe u d (newObserver u d a.toNat p)) c.val a.toNat (some p) 205 (shownWords u d)) := by
  rw [execCoapGet, onUsras_ok hruns hvalid hmay hmode husras hosc]
  dsimp only
  rw [hpath]
  dsimp only
  rw [if_neg (by simp [hroom])]
  rfl

/-- A PUT of the record's type on a DIR 2 publication makes the writer's write. -/
theorem execCoapPut_of_word (hdir : d.dir = 2) {v : CborVal} {w : Word} (hword : cborWord (ptAt u d.index).ty v = some w) (q : Nat) :
    execCoapPut c a m k i n (.value v q) s = .next (coapSend (writerWrite u .endpoint c.val d.index w .good) c.val a.toNat (some p) 204 []) := by
  rw [execCoapPut, onUsras_ok hruns hvalid hmay hmode husras hosc]
  dsimp only
  rw [hpath]
  dsimp only
  rw [if_neg (not_not.2 hdir), hword]

end

/-- A POST on an alarm of the tenant's task latches its acknowledgement. -/
theorem execCoapAckPost_of_alarm {g : Word} {t al k : Nat} {x : Task}
    (htask : u.tasks.find? (fun kt => kt.2.dfn.imageId == g.toNat && kt.2.dfn.taskNo == t && some kt.2.dfn.tenant == ctxTenant? u c.val) = some (k, x))
    (halarm : al < x.run.alarms.length) :
    execCoapAckPost c a m g t al s = .next (coapSend { u with tasks := tabPut u.tasks k (latchAck x al) } c.val a.toNat (some p) 204 []) := by
  rw [execCoapAckPost, onUsras_ok hruns hvalid hmay hmode husras hosc, htask]
  exact congrArg done (if_pos halarm)

end

/-! ## Notifications of a publication (R321, R322, R327) -/

/-- REFRESH seconds after the last refresh every observer of a publication is notified, with MAX_AGE. -/
theorem execUsrasRefresh_of_ran {s : State} {n : Fin 32768} {d : ExportDef} (hdef : tabGet? s.net.defs n.val = some d) (husras : d.usras = true)
    (hdir : d.dir ≠ 1) (hruns : neRuns s = true) (hmode : modeOf s ≠ 3)
    (hran : timeRan s (tmRefresh n.val) (getF s Fld.NE_CFG2_REFRESH * (1000 * msCycles)) = true) :
    execUsrasRefresh n s = .next (startTime (notifyAll s d (fun _ _ => true) true) (tmRefresh n.val)) := by
  rw [execUsrasRefresh, hdef]
  exact if_pos (by simp [husras, hdir, hruns, hmode, hran])

/-- The wait for its acknowledgement over, a confirmable notification goes again up to its fifth transmission; then it is given up, with UNDELIV where
the observer is the designated receiver. -/
theorem execCoapRetransmit_of_publication {s : State} {n : Fin 32768} {a : NetAddr} {d : ExportDef} {o : Observer} {k : Nat}
    (hdef : tabGet? s.net.defs n.val = some d) (hdir : d.dir ≠ 1) (hobs : obsAt? s n.val a.toNat = some o) (hsent : o.sent = some k) (husras : o.usras = true)
    (hran : timeRan s (tmNotify n.val a.toNat) (ackWait k) = true) : execCoapRetransmit n a s =
    .next (if 5 ≤ k then (if isReceiver d o then setUndeliv (setObs s { o with sent := none }) d.index true else setObs s { o with sent := none })
      else renotify s d o n.val a.toNat (k + 1)) := by
  rw [execCoapRetransmit, hdef]
  dsimp only
  rw [if_neg hdir, hobs]
  dsimp only
  rw [hsent]
  dsimp only
  rw [if_neg (by simp [husras, hran])]
  exact (apply_ite done ..).symm

/-! ## The observation behind an endpoint import (R326, R332) -/

section
variable {s : State} {n : Fin 32768} {d : ExportDef} (himport : endpImport? s n.val = some d)
include himport

/-- RST makes the import's record ABSENT. -/
theorem execEndpointRst_of_import : execEndpointRst n s = .next (importAbsent s d) := by
  rw [execEndpointRst, himport]

/-- An error answer makes the import's record FAULT, with the context's Note. -/
theorem execEndpointError_of_import : execEndpointError n s = .next (endpointFault s d) := by
  rw [execEndpointError, himport]

variable (hruns : neRuns s = true)
include hruns

/-- Three times MAX_AGE without a notification makes the import's record ABSENT. -/
theorem execEndpointSilent_of_ran (hran : timeRan s (tmEndpoint n.val) (3 * d.maxAge * 1000 * msCycles) = true) :
    execEndpointSilent n s = .next (importAbsent s d) := by
  rw [execEndpointSilent, himport]
  exact congrArg done (if_pos (by simp [hruns, hran]))

variable (hmode : modeOf s ≠ 3)
include hmode

/-- An import with no observation sends its GET, and again every 10 s. -/
theorem execObserveRegister_of_ran (hnone : (impAt s n.val).registered = false) (hran : timeRan s (tmObserve n.val) (10000 * msCycles) = true) :
    execObserveRegister n s = .next (sendObserve s d 1) := by
  rw [execObserveRegister, himport]
  exact if_pos (by simp [hruns, hmode, hnone, hran])

/-- A registered one renews its observation every MAX_AGE seconds. -/
theorem execObserveRenew_of_ran (hregistered : (impAt s n.val).registered = true)
    (hran : timeRan s (tmObserve n.val) (d.maxAge * 1000 * msCycles) = true) : execObserveRenew n s = .next (sendObserve s d 1) := by
  rw [execObserveRenew, himport]
  exact if_pos (by simp [hruns, hmode, hregistered, hran])

section
variable {m : Option OscMsg} {p : Nat} {u t : State} (hosc : oscReceive s d.ctx m = (u, some p)) (hpeer : p = d.addr % 2 ^ 64)
  (ht : t = startTime (setImp u n.val { registered := true }) (tmEndpoint n.val))
include hosc hpeer ht

/-- A notification that verifies and comes from the import's endpoint writes the record. -/
theorem execEndpointNotify_of_word (hforce : forcedOnce t .neEndpoint d.ctx = false) {v : CborVal} {w : Word}
    (hword : cborWord (ptAt t d.index).ty v = some w) (q : Nat) :
    execEndpointNotify n m (.value v q) s = .next (writerWrite t .endpoint d.ctx d.index w (if q = 0 then .good else .fault)) := by
  subst ht
  rw [execEndpointNotify, himport]
  dsimp only
  rw [if_neg (by simp [hruns, hmode]), hosc]
  dsimp only
  rw [if_neg (not_not.2 hpeer), if_neg (by simp [hforce]), hword]

/-- A Force stands for an error answer in place of the next one. -/
theorem execEndpointNotify_of_forced (hforce : forcedOnce t .neEndpoint d.ctx = true) (payload : CoapPayload) :
    execEndpointNotify n m payload s = .next (useForce (endpointFault t d)) := by
  subst ht
  rw [execEndpointNotify, himport]
  dsimp only
  rw [if_neg (by simp [hruns, hmode]), hosc]
  dsimp only
  rw [if_neg (not_not.2 hpeer), if_pos hforce]

end

end

/-- The GET of an import goes again while unacknowledged, up to its fifth transmission; then the record is ABSENT. -/
theorem execCoapRetransmit_of_import {s : State} {n : Fin 32768} {d : ExportDef} {k : Nat} (hdef : tabGet? s.net.defs n.val = some d) (hdir : d.dir = 1)
    (hsent : (impAt s n.val).sent = some k) (hran : timeRan s (tmObserve n.val) (ackWaits k) = true) (a : NetAddr) :
    execCoapRetransmit n a s = .next (if 5 ≤ k then importAbsent s d else sendObserve s d (k + 1)) := by
  rw [execCoapRetransmit, hdef]
  dsimp only
  rw [if_pos hdir, hsent]
  exact if_neg (by simp [hran])

/-- Settles O38: a request by the case that answers it, a notification by its observer, and an import's observation by its own events. -/
theorem coapCommandsComplete : Obligations.CoapCommandsComplete := by
  refine ⟨?get, ?getNoPath, ?getUnverified, ?getObserve, ?put, ?ackPost, ?wellKnown, ?refused, ?refresh, ?register, ?renew, ?importRetransmit,
    ?publicationRetransmit, ?notified, ?silent, ?rst, ?error⟩
  case get =>
    intro c a m p u k i n d s hruns hvalid hmay hmode husras hosc hpath
    exact execCoapGet_of_path hruns hvalid hmay hmode husras a hosc hpath
  case getNoPath =>
    intro c a m p u k i n x s hruns hvalid hmay hmode husras hosc hpath
    exact execCoapGet_of_no_path hruns hvalid hmay hmode husras a hosc hpath x
  case getUnverified =>
    intro c a m u k i n x s hruns hvalid hmay hmode husras hosc
    exact congrArg done (onUsras_of_unverified hruns hvalid hmay hmode husras hosc a.toNat _)
  case getObserve =>
    intro c a m p u k i n d b s hruns hvalid hmay hmode husras hosc hpath
    refine ⟨execCoapGet_of_cancel hruns hvalid hmay hmode husras a hosc hpath, ?_⟩
    rintro hroom rfl
    exact execCoapGet_of_observe hruns hvalid hmay hmode husras a hosc hpath hroom
  case put =>
    intro c a m p u k i n v q w d s hruns hvalid hmay hmode husras hosc hpath hdir hword
    exact execCoapPut_of_word hruns hvalid hmay hmode husras a hosc hpath hdir hword q
  case ackPost =>
    intro c a m p u g t al k x s hruns hvalid hmay hmode husras hosc htask halarm
    exact execCoapAckPost_of_alarm hruns hvalid hmay hmode husras a hosc htask halarm
  case wellKnown => exact fun c a mc s hruns hvalid hmay hmode husras => execWellKnownCore_ok hruns hvalid hmay hmode husras a mc
  case refused =>
    intro c a w s hruns hvalid hmay hmode husras
    exact ⟨execCoapRefused_ok hruns hvalid hmay hmode husras a w false, execCoapRefused_ok hruns hvalid hmay hmode husras a w true⟩
  case refresh => exact fun n d s hdef husras hdir hruns hmode hran => execUsrasRefresh_of_ran hdef husras hdir hruns hmode hran
  case register => exact fun n d s himport hruns hmode hnone hran => execObserveRegister_of_ran himport hruns hmode hnone hran
  case renew => exact fun n d s himport hruns hmode hregistered hran => execObserveRenew_of_ran himport hruns hmode hregistered hran
  case importRetransmit =>
    intro n a d k s hdef hdir hsent hran
    have hstep := execCoapRetransmit_of_import hdef hdir hsent hran a
    exact ⟨fun hk => hstep.trans (congrArg done (if_neg hk.not_ge)), fun hk => hstep.trans (congrArg done (if_pos hk))⟩
  case publicationRetransmit =>
    intro n a d o k s hdef hdir hobs hsent husras hran
    have hstep := execCoapRetransmit_of_publication hdef hdir hobs hsent husras hran
    exact ⟨fun hk => hstep.trans (congrArg done (if_neg hk.not_ge)), fun hk => hstep.trans (congrArg done (if_pos hk))⟩
  case notified =>
    intro n m v q p w d s u t himport hruns hmode hosc hpeer ht
    exact ⟨fun hforce hword => execEndpointNotify_of_word himport hruns hmode hosc hpeer ht hforce hword q,
      fun hforce => execEndpointNotify_of_forced himport hruns hmode hosc hpeer ht hforce (.value v q)⟩
  case silent => exact fun n d s himport hruns hran => execEndpointSilent_of_ran himport hruns hran
  case rst => exact fun n d s himport => execEndpointRst_of_import himport
  case error => exact fun n d s himport => execEndpointError_of_import himport

end Sys2Proof.Machine
end

section
/-! Proofs/PtpCommands: PTP messages received and sent, and the time counter (O39). -/

namespace Sys2Proof.Machine

/-! ## Messages a slave port takes (R333, R336) -/

/-- A Sync exchange is judged at once while the mean path delay is known. -/
theorem exchange_of_delay {s : State} {e : Int} (hdelay : s.net.ptp.delay = some e) (m : Nat) (x : Int) :
    exchange s m x = servo (mapPtp s (fun p => { p with syncWait := none, lastMs := some x })) m (x - e) := by
  have hkept : (mapPtp s (fun p => { p with syncWait := none, lastMs := some x })).net.ptp.delay = some e := hdelay
  rw [exchange, hkept]

section
variable {s : State} {m : Fin 6} (hon : ptpOn s m.val = true) (hslave : portSlave s m.val = true)
include hon hslave

/-- A one-step Sync completes its exchange. -/
theorem execPtpSync_of_oneStep (q : Fin 65536) (t2 t1 : Nat) : execPtpSync m q t2 (some t1) s = .next (exchange s m.val ((t2 : Int) - t1)) :=
  if_neg (by simp [hon, hslave])

/-- A two-step Sync waits for its Follow_Up. -/
theorem execPtpSync_of_twoStep (q : Fin 65536) (t2 : Nat) :
    execPtpSync m q t2 none s = .next (mapPtp s (fun p => { p with syncWait := some (q.val, t2) })) :=
  if_neg (by simp [hon, hslave])

/-- The Follow_Up of the Sync that waits completes its exchange. -/
theorem execPtpFollowUp_of_waiting {q : Fin 65536} {t2 : Nat} (hwaits : s.net.ptp.syncWait = some (q.val, t2)) (t1 : Nat) :
    execPtpFollowUp m q t1 s = .next (exchange s m.val ((t2 : Int) - t1)) := by
  rw [execPtpFollowUp, if_neg (by simp [hon, hslave]), hwaits]
  exact if_pos rfl

/-- The answer to the last Delay_Req gives the mean path delay, by which the exchange that waited is judged. -/
theorem execPtpDelayResp_of_waiting {q : Fin 65536} {t3 : Nat} {x e : Int} (hreq : s.net.ptp.reqT3 = some (q.val, t3))
    (hlast : s.net.ptp.lastMs = some x) (hexch : s.net.ptp.exch = some e) (t4 : Nat) :
    execPtpDelayResp m q t4 s = .next (servo (mapPtp s (fun p => { p with delay := some ((x + ((t4 : Int) - t3)) / 2), exch := none, reqT3 := none })) m.val
      (e - (x + ((t4 : Int) - t3)) / 2)) := by
  rw [execPtpDelayResp, if_neg (by simp [hon, hslave]), hreq, hlast]
  dsimp only
  rw [if_neg (by simp), hexch]

/-- A slave port sends Delay_Req, whose send time is not known until its timestamp is taken. -/
theorem execPtpDelayReqSend_of_slave : execPtpDelayReqSend m s = .next (mapPtp (sendMsg s (.note "PTP_DELAY_REQ" (ptpVia s m.val ++ [s.net.ptp.reqSeq])))
    (fun p => { p with reqSeq := (s.net.ptp.reqSeq + 1) % 65536, reqT3 := none })) :=
  if_pos (by simp [hon, hslave])

end

/-! ## Messages a master port sends (R333, R334) -/

/-- An Announce of a data set leaves a port, under its next sequence number. -/
def sendAnnounce (s : State) (m : Nat) (d : List Nat) : State :=
  mapPtp (sendMsg (startTime s (tmAnnSend m)) (.note "PTP_ANNOUNCE" (ptpVia s m ++ tabGet 0 s.net.ptp.annSeq m :: getF s Fld.NE_PTP_INTV_LOG_ANNOUNCE :: d.take 7)))
    (fun p => { p with annSeq := tabSet 0 p.annSeq m ((tabGet 0 s.net.ptp.annSeq m + 1) % 65536) })

section
variable {s : State} {m : Fin 6} (hon : ptpOn s m.val = true) (hmaster : portState s m.val = 6)
include hon hmaster

/-- A master port answers Delay_Req. -/
theorem execPtpDelayReq_of_master (q : Fin 65536) (t4 : Nat) (r : BitVec 80) : execPtpDelayReq m q t4 r s =
    .next (sendMsg s (.note "PTP_DELAY_RESP" (ptpVia s m.val ++ [q.val, t4, r.toNat, getF s Fld.NE_PTP_INTV_LOG_DELAY_REQ]))) :=
  if_pos (by simp [hon, hmaster])

/-- A master port sends Sync at its interval. -/
theorem execPtpSyncSend_of_ran (hran : timeRan s (tmSync m.val) (logCycles (getF s Fld.NE_PTP_INTV_LOG_SYNC)) = true) : execPtpSyncSend m s =
    .next (mapPtp (sendMsg (startTime s (tmSync m.val)) (.note "PTP_SYNC" (ptpVia s m.val ++ [tabGet 0 s.net.ptp.syncSeq m.val, getF s Fld.NE_PTP_INTV_LOG_SYNC])))
      (fun p => { p with syncSeq := tabSet 0 p.syncSeq m.val ((tabGet 0 s.net.ptp.syncSeq m.val + 1) % 65536) })) :=
  if_pos (by simp [hon, hmaster, hran])

variable (hran : timeRan s (tmAnnSend m.val) (logCycles (getF s Fld.NE_PTP_INTV_LOG_ANNOUNCE)) = true)
include hran

/-- The grandmaster announces its own data set, whatever it has heard. -/
theorem execPtpAnnounceSend_of_grandmaster (hgm : getB s Fld.NE_PTP_STAT_GM = true) :
    execPtpAnnounceSend m s = .next (sendAnnounce s m.val (ownDataSet s)) := by
  rw [execPtpAnnounceSend, if_pos (by simp [hon, hmaster, hran])]
  dsimp only
  cases hbest : bestOf s with
  | none => rfl
  | some ka => dsimp only; rw [if_pos hgm]; rfl

/-- A boundary clock announces the data set of its parent, one step further. -/
theorem execPtpAnnounceSend_of_parent (hgm : getB s Fld.NE_PTP_STAT_GM = false) {k : Nat} {a : PtpAnnounce} (hbest : bestOf s = some (k, a)) :
    execPtpAnnounceSend m s = .next (sendAnnounce s m.val ((dataSet a).take 6 ++ [a.steps.val + 1])) := by
  rw [execPtpAnnounceSend, if_pos (by simp [hon, hmaster, hran])]
  dsimp only
  rw [hbest]
  dsimp only
  rw [if_neg (by simp [hgm])]
  rfl

end

/-! ## Announce and discarded messages (R333, R334) -/

section
variable {s : State} {m : Fin 6} (hon : ptpOn s m.val = true)
include hon

/-- An Announce joins its port's foreign masters, and the ports' states are decided anew. -/
theorem execPtpAnnounce_of_on {l : List (PtpAnnounce × Nat)} (hl : l = tabGet [] s.net.ptp.foreign m.val) (a : PtpAnnounce) :
    execPtpAnnounce m a s = .next (decidePorts (mapPtp (startTime s (tmAnn m.val)) (fun p =>
      { p with foreign := tabSet [] p.foreign m.val ((a, min (((l.find? (fun x => x.1.sender == a.sender)).map (fun x => x.2)).getD 0 + 1) 2) ::
          l.filter (fun x => x.1.sender != a.sender)) })) none) := by
  subst hl
  exact if_neg (by simp [hon])

/-- A port that has heard no Announce for announceReceiptTimeout forgets its foreign masters. -/
theorem execAnnounceTimeout_of_ran (hran : timeRan s (tmAnn m.val) (annTimeout s) = true) : execAnnounceTimeout m s =
    .next (decidePorts (mapPtp s (fun p => { p with foreign := tabSet [] p.foreign m.val [] })) (some m.val)) :=
  if_neg (by simp [hon, hran])

/-- A message of another domain or major version is counted as such. -/
theorem execPtpDiscard_of_other {d : Fin 256} {v : Fin 16} (hother : d.val ≠ getF s Fld.NE_PTP_CFG_DOMAIN ∨ v.val ≠ 2) (y : Fin 16) (b : Bool) :
    execPtpDiscard ⟨m, y, d, v, b⟩ s = .next (incSatF s Fld.NE_PTP_DISC_OTHER) := by
  rw [execPtpDiscard, if_neg (by simp [hon]), if_pos (by simpa using hother)]

/-- A message of this domain and version that the module does not support is counted as such. -/
theorem execPtpDiscard_of_unsupported {y : Fin 16} {d : Fin 256} {v : Fin 16} {b : Bool} (hdomain : d.val = getF s Fld.NE_PTP_CFG_DOMAIN)
    (hversion : v.val = 2) (hunsup : ptpUnsup y.val b = true) : execPtpDiscard ⟨m, y, d, v, b⟩ s = .next (incSatF s Fld.NE_PTP_DISC_UNSUP) := by
  rw [execPtpDiscard, if_neg (by simp [hon]), if_neg (by simp [hdomain, hversion]), if_pos hunsup]

end

/-! ## The time counter (R335, R337, R338) -/

/-- SET_TIME of a clock that follows none waits for the next whole second. -/
theorem ptpCmd_setTime {s : State} (hfree : getF s Fld.NE_PTP_CFG_TYPE = 0 ∨ getB s Fld.NE_PTP_STAT_GM = true) :
    ptpCmd s 1 = mapPtp (ptpFields s 1 0) (fun p =>
      { p with pendSet := some (getF s Fld.NE_TIME_SET_LO_SECONDS + 2 ^ 32 * getF s Fld.NE_TIME_SET_HI_SECONDS, s.tc.sec) }) :=
  if_pos (by simpa using hfree)

/-- At the next whole second the counter takes its value. -/
theorem execSetTimeApply_of_passed {s : State} {v w : Nat} (hpending : s.net.ptp.pendSet = some (v, w)) (hpassed : s.tc.sec ≠ w) :
    execSetTimeApply s = .next (mapPtp { s with tc := { sec := v, ns := 0, frac := 0 } } (fun p => { p with pendSet := none })) := by
  rw [execSetTimeApply, hpending]
  exact if_neg hpassed

/-- Settles O39: the messages that PTP takes, those that it sends, and the commands of the time counter, each by its own lemma. -/
theorem ptpCommandsComplete : Obligations.PtpCommandsComplete := by
  refine ⟨?sync, ?judged, ?followUp, ?delayReq, ?delayResp, ?announce, ?announceTimeout, ?discard, ?syncSend, ?announceSend, ?delayReqSend,
    ?setTime, ?setTimeApply, ?clearCounters, ?readNs, ?readSecHi⟩
  case sync => exact fun m q t2 t1 s hon hslave => ⟨execPtpSync_of_oneStep hon hslave q t2 t1, execPtpSync_of_twoStep hon hslave q t2⟩
  case judged => exact fun m d x e s hdelay => exchange_of_delay hdelay m x
  case followUp => exact fun m q t2 t1 s hon hslave hwaits => execPtpFollowUp_of_waiting hon hslave hwaits t1
  case delayReq => exact fun m q t4 r s hon hmaster => execPtpDelayReq_of_master hon hmaster q t4 r
  case delayResp => exact fun m q t4 t3 x e s hon hslave hreq hlast hexch => execPtpDelayResp_of_waiting hon hslave hreq hlast hexch t4
  case announce => exact fun m a l s hon hl => execPtpAnnounce_of_on hon hl a
  case announceTimeout => exact fun m s hon hran => execAnnounceTimeout_of_ran hon hran
  case discard =>
    intro m y d v b s hon
    exact ⟨fun hother => execPtpDiscard_of_other hon hother y b, execPtpDiscard_of_unsupported hon⟩
  case syncSend => exact fun m s hon hmaster hran => execPtpSyncSend_of_ran hon hmaster hran
  case announceSend =>
    rintro m d s hon hmaster hran (⟨hgm, rfl⟩ | ⟨hgm, k, a, hbest, rfl⟩)
    · exact execPtpAnnounceSend_of_grandmaster hon hmaster hran hgm
    · exact execPtpAnnounceSend_of_parent hon hmaster hran hgm hbest
  case delayReqSend => exact fun m s hon hslave => execPtpDelayReqSend_of_slave hon hslave
  case setTime => exact fun s hfree => congrArg done (ptpCmd_setTime hfree)
  case setTimeApply => exact fun v w s hpending hpassed => execSetTimeApply_of_passed hpending hpassed
  case clearCounters => exact fun s => rfl
  case readNs => exact fun q s => rfl
  case readSecHi => exact fun q s => rfl

end Sys2Proof.Machine
end

section
/-! Proofs/QueueOfCommands: a step takes the front command, no word spells one, every command answers, and the queue drains (O3, O5, O7, O9). -/

namespace Sys2Proof.Machine

/-- Settles O3. -/
theorem stepRunsFrontCommand : Obligations.StepRunsFrontCommand :=
  fun _ _ _ hfront => step_of_pending_cons hfront

/-- No row of the table gives bits (log 3). -/
theorem decodeTableWord_none (n w : Nat) : decodeTableWord n w = none := rfl

/-- Settles O5: no word spells a command, so none is put in front of the queue. -/
theorem tableGivesNoWords : Obligations.TableGivesNoWords := by
  intro n w s
  refine ⟨decodeTableWord_none n w, ?_⟩
  unfold State.withFetchWord
  rw [decodeTableWord_none]

/-- Settles O7: the command's own case of `exec_answers`. -/
theorem everyCommandAnswersNextState : Obligations.EveryCommandAnswersNextState := by
  intro c s
  obtain ⟨t, hexec, hkept⟩ := exec_answers c s
  exact ⟨t, hexec, hkept.pending⟩

/-- A step with a command at the front keeps the invariant and leaves the queue's rest. -/
theorem step_takesFront {s : State} {c : Instr} {q : List Instr} (hinv : Inv s) (hfront : s.pending = c :: q) :
    ∃ t, step s = .next t ∧ t.pending = q ∧ Inv t := by
  obtain ⟨t, hexec, hkept⟩ := exec_answers c (s.withPending q)
  exact ⟨t, (step_of_pending_cons hfront).trans hexec, hkept.pending, hkept.inv (hinv.withPending q)⟩

/-- One more step at the beginning of a run. -/
theorem steps_succ_of_next {s t : State} (h : step s = .next t) (n : Nat) : steps (n + 1) s = steps n t := by
  rw [steps, h]

/-- Settles O9, by induction on the queue: each step takes one command off it and keeps the invariant. -/
theorem queueDrains : Obligations.QueueDrains := by
  intro s hinv
  induction hqueue : s.pending generalizing s with
  | nil => exact ⟨s, rfl, hqueue, hinv⟩
  | cons c q ih =>
    obtain ⟨t, hstep, hrest, hkept⟩ := step_takesFront hinv hqueue
    obtain ⟨u, hrun, hempty, hend⟩ := ih t hkept hrest
    exact ⟨u, (steps_succ_of_next hstep q.length).trans hrun, hempty, hend⟩

end Sys2Proof.Machine
end

section
/-! Proofs/FaultCollector: the presented entry, and the commands of the fault collector (O18, O49). -/

namespace Sys2Proof.Machine

/-! ## The presented entry (R481) -/

/-- Before an empty rest an entry is presented. -/
theorem presentedOf_cons_of_none {x : FltEntry} {t : List FltEntry} (h : presentedOf t = none) : presentedOf (x :: t) = some x := by
  rw [presentedOf, h]

/-- An entry gives way to the one presented of the rest only where that has the higher severity. -/
theorem presentedOf_cons_of_some {x y : FltEntry} {t : List FltEntry} (h : presentedOf t = some y) :
    presentedOf (x :: t) = if x.sev.code < y.sev.code then some y else some x := by
  rw [presentedOf, h]

/-- A queue presents no entry exactly while it is empty. -/
theorem presentedOf_eq_none_iff (l : List FltEntry) : presentedOf l = none ↔ l = [] := by
  cases l with
  | nil => exact iff_of_true rfl rfl
  | cons x t =>
    refine iff_of_false ?_ (List.cons_ne_nil x t)
    cases ht : presentedOf t with
    | none => simp [presentedOf_cons_of_none ht]
    | some y => rw [presentedOf_cons_of_some ht]; split <;> simp

/-- Settles O18, by induction on the queue: the front entry is presented unless the rest presents one of higher severity. -/
theorem presentedEntryIsHighestEarliest : Obligations.PresentedEntryIsHighestEarliest := by
  intro l
  refine ⟨presentedOf_eq_none_iff l, ?_⟩
  induction l with
  | nil => intro e he; cases he
  | cons x t ih =>
    intro e he
    cases ht : presentedOf t with
    | none =>
      obtain rfl := (presentedOf_eq_none_iff t).1 ht
      obtain rfl := Option.some.inj he
      exact ⟨[], [], rfl, by simp, by simp⟩
    | some y =>
      obtain ⟨p, q, rfl, hbefore, hafter⟩ := ih y ht
      rw [presentedOf_cons_of_some ht] at he
      split at he
      case isTrue hlower =>
        obtain rfl := Option.some.inj he
        exact ⟨x :: p, q, rfl, by simpa [hlower] using hbefore, hafter⟩
      case isFalse hnotLower =>
        obtain rfl := Option.some.inj he
        refine ⟨[], p ++ y :: q, rfl, by simp, fun z hz => ?_⟩
        rcases List.mem_append.1 hz with hp | hq
        · exact (hbefore z hp).le.trans (not_lt.1 hnotLower)
        · rcases List.mem_cons.1 hq with rfl | hq
          · exact not_lt.1 hnotLower
          · exact (hafter z hq).trans (not_lt.1 hnotLower)

/-! ## Recording (R480, R485) -/

/-- An entry that enters the queue takes the next SEQ, and FLT_FIRST is all else that may change in the collector. -/
theorem enqueue_flt (s : State) (e : FltEntry) : (enqueue s e).flt.queue = s.flt.queue ++ [{ e with seq := s.flt.seq }] ∧
    (enqueue s e).flt.backlog = s.flt.backlog ∧ (enqueue s e).flt.seq = (s.flt.seq + 1) % 4096 := by
  unfold enqueue captureFirst
  dsimp only
  split
  · exact ⟨rfl, rfl, rfl⟩
  · split <;> exact ⟨rfl, rfl, rfl⟩

/-- With no entry held there is none to enter the queue. -/
theorem drainAll_of_backlog_nil {s : State} (h : s.flt.backlog = []) (n : Nat) : drainAll n s = s := by
  have hone : drainOne s = s := by unfold drainOne; rw [h]
  induction n with
  | zero => rfl
  | succ n ih => rw [drainAll, hone, ih]

/-- The reaction of an entry that is not Critical leaves the collector. -/
theorem react_flt {s : State} {e : FltEntry} (h : e.sev ≠ .critical) (first : Bool) : (react s e first).flt = s.flt := by
  unfold react
  dsimp only
  rw [if_neg h]
  split <;> rfl

/-- Where the queue has room an entry enters it. -/
theorem arrive_of_room {s : State} (h : s.flt.queue.length < 32) (e : FltEntry) : arrive s e = (enqueue s e, .recorded) := if_pos h

/-- The new entry of a raise at time of state `s`. -/
def newEntry (s : State) (d : Detector) (n : Nat) (sev : Severity) (detail : Nat) (injected : Bool) : FltEntry :=
  { det := d, inst := n, sev := sev, inj := injected || injOn s d, tick := if decide (modeOf s = 4 ∨ modeOf s = 5) then s.rtc.count else s.tick,
    mode := modeOf s, rtcClock := decide (modeOf s = 4 ∨ modeOf s = 5), detail := detail % 2 ^ 32 }

/-- A raise of an identity that is in neither the queue nor the backlog, while nothing is held and the queue has room: the new entry, and its reaction. -/
theorem raiseFault_of_new {s t : State} {d : Detector} {n : Nat} {sev : Severity} (ht : t = incF s (totalField sev)) (hdetects : detects s d n = true)
    (hnew : s.flt.queue.findIdx? (sameIdent d n) = none) (hheld : s.flt.backlog = []) (hroom : s.flt.queue.length < 32) (detail : Nat)
    (injected : Bool) :
    raiseFault s d n sev detail injected = react (enqueue t (newEntry t d n sev detail injected)) (newEntry t d n sev detail injected) true := by
  subst ht
  have hdrained := drainAll_of_backlog_nil (s := incF s (totalField sev)) hheld backlogDepth
  have harrive := arrive_of_room (s := incF s (totalField sev)) hroom
  unfold raiseFault
  rw [if_neg (by simp [hdetects])]
  dsimp only
  rw [incF_flt, hnew, hheld]
  dsimp only [List.findIdx?_nil]
  rw [hdrained, harrive]
  rfl

/-- The operating mode is no total. -/
theorem modeOf_incF_totalField {s : State} (hwf : regsWf s = true) (v : Severity) : modeOf (incF s (totalField v)) = modeOf s :=
  getF_setF_ne hwf _ (by cases v <;> decide)

/-- FAULT_RAISE of a new identity. -/
theorem exec_faultRaise_of_new {d : Detector} {n : Fin 4096} {sev : Severity} {s : State} (hinv : Inv s) (hdetects : detects s d n.val = true)
    (hnew : s.flt.queue.findIdx? (sameIdent d n.val) = none) (hheld : s.flt.backlog = []) (hroom : s.flt.queue.length < 32) (hsev : sev ≠ .critical)
    (detail : Word) :
    ∃ t e, exec (.faultRaise d n sev detail) s = .next t ∧ t.flt.queue = s.flt.queue ++ [e] ∧ e.det = d ∧ e.inst = n.val ∧ e.sev = sev ∧
      e.detail = detail.toNat ∧ e.mode = modeOf s ∧ e.rep = 0 ∧ e.seq = s.flt.seq ∧ t.flt.seq = (s.flt.seq + 1) % 4096 := by
  obtain ⟨hqueue, -, hseq⟩ := enqueue_flt (incF s (totalField sev)) (newEntry (incF s (totalField sev)) d n.val sev detail.toNat false)
  have hraise := raiseFault_of_new rfl hdetects hnew hheld hroom detail.toNat false (sev := sev)
  refine ⟨_, _, congrArg done hraise, (congrArg FltState.queue (react_flt hsev true)).trans hqueue, rfl, rfl, rfl, ?detail, ?mode, rfl, rfl,
    (congrArg FltState.seq (react_flt hsev true)).trans hseq⟩
  case detail => exact Nat.mod_eq_of_lt detail.isLt
  case mode => exact modeOf_incF_totalField hinv.regs sev

/-- BACKLOG_DRAIN with an entry held and a free place. -/
theorem exec_backlogDrain_of_held {s : State} {e : FltEntry} {r : List FltEntry} (hheld : s.flt.backlog = e :: r) (hroom : s.flt.queue.length < 32) :
    ∃ t, exec .backlogDrain s = .next t ∧ t.flt.queue = s.flt.queue ++ [{ e with seq := s.flt.seq }] ∧ t.flt.backlog = r ∧
      t.flt.seq = (s.flt.seq + 1) % 4096 := by
  refine ⟨enqueue { s with flt := { s.flt with backlog := r } } e, ?_, enqueue_flt _ e⟩
  show done (drainOne s) = _
  unfold drainOne
  rw [hheld]
  exact congrArg done (if_pos hroom)

/-! ## Acknowledgement (R481, R482) -/

/-- Logging leaves the queue. -/
theorem presented_logFirst (s : State) (e : FltEntry) : presented (logFirst s e) = presented s := by
  unfold logFirst
  split <;> rfl

/-- An acknowledgement with an entry presented: RESULT 0 with its SEQ, 1 with another. -/
theorem ackEntry_of_presented {s : State} {e : FltEntry} (hpresented : presented s = some e) (seq : Nat) :
    ackEntry s seq = (if e.seq = seq then removeSeq (logEntry (logFirst s e) e) seq else s, if e.seq = seq then 0 else 1) := by
  unfold ackEntry
  rw [hpresented]
  dsimp only
  split <;> rfl

/-- FAULT_ACK with an entry presented. -/
theorem exec_faultAck_of_presented {s : State} {e : FltEntry} (hpresented : presented s = some e) (seq : Fin 4096) :
    exec (.faultAck seq) s = .next (setFs (if e.seq = seq.val then removeSeq (logEntry (logFirst s e) e) seq.val else s)
      [(Fld.FLT_ACK_SEQ, seq.val), (Fld.FLT_ACK_RESULT, if e.seq = seq.val then 0 else 1), (Fld.FLT_ACK_BUSY, 0), (Fld.FLT_ACK_GO, 0)]) := by
  show done (ackCmd s seq.val) = _
  unfold ackCmd
  rw [ackEntry_of_presented hpresented]

/-- FAULT_AUTO_ACK with an entry presented. -/
theorem exec_faultAutoAck_of_presented {s : State} {e : FltEntry} (hpresented : presented s = some e) :
    exec .faultAutoAck s = .next (if autoAckCovers (getF s Fld.FLT_CFG_AUTO_ACK) e.sev then
        removeSeq (logEntry (logFirst (logFirst s e) e) e) e.seq
      else logFirst s e) := by
  have hregs : (logFirst s e).regs = s.regs := by unfold logFirst; split <;> rfl
  have hack := ackEntry_of_presented ((presented_logFirst s e).trans hpresented) e.seq
  show execFaultAutoAck s = _
  unfold execFaultAutoAck
  rw [hpresented]
  dsimp only
  rw [hack, if_pos rfl, getF_of_regs hregs]
  split <;> rfl

/-! ## FLT_CMD and injection (R490 to R492, R500) -/

/-- FLT_CLEAR_LOST zeroes the fields of FLT_LOST. -/
theorem getF_fltClearLost {s : State} (hinv : Inv s) {f : RF}
    (hf : f = Fld.FLT_LOST_VALID ∨ f = Fld.FLT_LOST_MULTIPLE ∨ f = Fld.FLT_LOST_DETECTOR ∨ f = Fld.FLT_LOST_INSTANCE) :
    getF (fltClearLost s) f = 0 := by
  have hcmd : ∀ p ∈ [(Fld.FLT_CMD_OP, 2), (Fld.FLT_CMD_RESULT, 0), (Fld.FLT_CMD_BUSY, 0), (Fld.FLT_CMD_GO, 0)], p.1.key ≠ f.key := by
    obtain rfl | rfl | rfl | rfl := hf <;> decide
  refine (getF_setFs_ne _ (regsWf_setFs _ hinv.regs) hcmd).trans ((getF_setFs_of_mem (by decide) hinv.regs (v := 0) ?_).trans (Nat.zero_mod _))
  obtain rfl | rfl | rfl | rfl := hf <;> decide

/-- FLT_CLEAR_TOTALS zeroes the totals, OVERWRITTEN and DROPPED. -/
theorem getF_fltClearTotals {s : State} (hinv : Inv s) {f : RF} (hf : (∃ v, f = totalField v) ∨ f = Fld.FLT_STAT_OVERWRITTEN ∨ f = Fld.FLT_STAT_DROPPED) :
    getF (fltClearTotals s) f = 0 := by
  have hcmd : ∀ p ∈ [(Fld.FLT_CMD_OP, 7), (Fld.FLT_CMD_RESULT, 0), (Fld.FLT_CMD_BUSY, 0), (Fld.FLT_CMD_GO, 0)], p.1.key ≠ f.key := by
    obtain ⟨_ | _ | _ | _, rfl⟩ | rfl | rfl := hf <;> decide
  refine (getF_setFs_ne _ (regsWf_setFs _ hinv.regs) hcmd).trans ((getF_setFs_of_mem (by decide) hinv.regs (v := 0) ?_).trans (Nat.zero_mod _))
  obtain ⟨_ | _ | _ | _, rfl⟩ | rfl | rfl := hf <;> decide

/-- INJ_STOP writes OP and RESULT, and ends the active injection. -/
theorem exec_injStop {s : State} (hinv : Inv s) :
    ∃ t, exec .injStop s = .next t ∧ t.flt.inj = none ∧ getF t Fld.FLT_INJ_CTL_RESULT = 0 ∧ getF t Fld.FLT_INJ_CTL_OP = 2 :=
  ⟨injStop s, rfl, rfl, getF_setFs_of_mem (by decide) hinv.regs (v := 0) (by decide), getF_setFs_of_mem (by decide) hinv.regs (v := 2) (by decide)⟩

/-- The operands of INJ_START in their fields of FLT_INJ, FLT_INJ_ARG and FLT_INJ_CTL. -/
def injOperands (det : Fin 256) (n : Fin 4096) (force : Bool) (durationMs : Fin 256) (arg : Word) (symbols : Fin 0x100000) : List (RF × Nat) :=
  [(Fld.FLT_INJ_DETECTOR, det.val), (Fld.FLT_INJ_INSTANCE, n.val), (Fld.FLT_INJ_KIND, b2n force), (Fld.FLT_INJ_DURATION_MS, durationMs.val),
    (Fld.FLT_INJ_ARG_ARG, arg.toNat), (Fld.FLT_INJ_CTL_SYMBOLS, symbols.val)]

/-- The fields of FLT_INJ_CTL after a START of RESULT 0. -/
def injAccepted : List (RF × Nat) :=
  [(Fld.FLT_INJ_CTL_OP, 1), (Fld.FLT_INJ_CTL_RESULT, 0), (Fld.FLT_INJ_CTL_BUSY, 0), (Fld.FLT_INJ_CTL_GO, 0)]

section
variable {s u : State} (hinv : Inv s) {det : Fin 256} {n : Fin 4096} {durationMs : Fin 256} {arg : Word} {symbols : Fin 0x100000}
  (hu : u = setFs s (injOperands det n true durationMs arg symbols))
include hinv hu

/-- The operands written are the operands read, and no other field changes. -/
theorem getF_setFs_injOperands : getF u Fld.FLT_INJ_DETECTOR = det.val ∧ getF u Fld.FLT_INJ_INSTANCE = n.val ∧ getB u Fld.FLT_INJ_KIND = true ∧
    getF u Fld.FLT_INJ_DURATION_MS = durationMs.val ∧ getF u Fld.FLT_INJ_ARG_ARG = arg.toNat ∧ getF u Fld.FLT_INJ_CTL_SYMBOLS = symbols.val ∧
    modeOf u = modeOf s ∧ getF u Fld.LC_STATE_STATE = getF s Fld.LC_STATE_STATE := by
  subst hu
  have hkeys : ((injOperands det n true durationMs arg symbols).map (fun p => p.1.key)).Nodup := by
    simp only [injOperands, List.map_cons, List.map_nil]
    decide
  have hread {f : RF} {x : Nat} (hmem : (f, x) ∈ injOperands det n true durationMs arg symbols) (hfits : x < 2 ^ f.w) :
      getF (setFs s (injOperands det n true durationMs arg symbols)) f = x :=
    (getF_setFs_of_mem hkeys hinv.regs hmem).trans (Nat.mod_eq_of_lt hfits)
  have hother {f : RF} (hne : ∀ p ∈ injOperands det n true durationMs arg symbols, p.1.key ≠ f.key) := getF_setFs_ne _ hinv.regs hne
  have hkind : getF _ _ = b2n true := hread (f := Fld.FLT_INJ_KIND) (by simp [injOperands]) (by decide)
  refine ⟨hread (by simp [injOperands]) det.isLt, hread (by simp [injOperands]) n.isLt, by rw [getB, hkind]; rfl,
    hread (by simp [injOperands]) durationMs.isLt, hread (by simp [injOperands]) arg.isLt, hread (by simp [injOperands]) symbols.isLt, hother ?mode, hother ?life⟩
  case mode | life =>
    simp only [injOperands, List.forall_mem_cons]
    decide

/-- A Force on a detector that offers one is accepted in Commission and Hold, before Deployed, while none is active. -/
theorem injResult_of_force (hmode : modeOf s = 0 ∨ modeOf s = 2) (hlife : getF s Fld.LC_STATE_STATE < 2) (hnone : s.flt.inj = none) {d : Detector}
    (hcode : Detector.ofCode? det.val = some d) (hoffered : d.forceOffered = true) (q : Requester) : injResult u q = 0 := by
  obtain ⟨hdet, -, hkind, -, -, -, hmodeKept, hlifeKept⟩ := getF_setFs_injOperands hinv hu
  have hactive : u.flt.inj = none := by rw [hu, setFs_flt]; exact hnone
  have hplace : (modeOf s = 0 || modeOf s = 2) = true := by simpa using hmode
  have hbefore : getF s Fld.LC_STATE_STATE ≠ 4 ∧ getF s Fld.LC_STATE_STATE ≠ 2 := by omega
  unfold injResult
  dsimp only
  rw [hmodeKept, hlifeKept, hactive, hdet, hcode, hkind, if_neg (by simp [hplace, hbefore]), if_neg (by simp)]
  exact if_neg (by simp [hoffered])

/-- The fields that a START writes are none of its operands. -/
theorem getF_injAccepted {f : RF} (hf : f = Fld.FLT_INJ_DETECTOR ∨ f = Fld.FLT_INJ_INSTANCE ∨ f = Fld.FLT_INJ_KIND ∨ f = Fld.FLT_INJ_DURATION_MS ∨
    f = Fld.FLT_INJ_ARG_ARG ∨ f = Fld.FLT_INJ_CTL_SYMBOLS) : getF (setFs u injAccepted) f = getF u f := by
  refine getF_setFs_ne _ (hu ▸ regsWf_setFs _ hinv.regs) ?_
  obtain rfl | rfl | rfl | rfl | rfl | rfl := hf <;> decide

/-- The injection that an accepted Force makes active. -/
def forceOf (s : State) (d : Detector) (n : Fin 4096) (durationMs : Fin 256) (arg : Word) (symbols : Fin 0x100000) : Injection :=
  { det := d, inst := n.val, arg := arg.toNat, symbols := symbols.val,
    endAt := if durationMs.val = 0 then none else some (s.mono + 4 * durationMs.val) }

/-- A START of an accepted Force: the injection is active, and its condition acts. -/
theorem injStart_of_force {q : Requester} (hresult : injResult u q = 0) {d : Detector} (hcode : Detector.ofCode? det.val = some d) :
    injStart u q = forceStart { setFs u injAccepted with flt := { u.flt with inj := some (forceOf s d n durationMs arg symbols) } } d n.val := by
  obtain ⟨hdet, hinst, hkind, hdur, harg, hsym, -, -⟩ := getF_setFs_injOperands hinv hu
  have hkept {f : RF} := getF_injAccepted hinv hu (f := f)
  have hforce : getB (setFs u injAccepted) Fld.FLT_INJ_KIND = true := by rw [getB, hkept (by simp)]; exact hkind
  have hmono : u.mono = s.mono := by rw [hu, setFs_mono]
  unfold injStart
  dsimp only
  rw [hresult, ← injAccepted, if_neg (by decide), hkept (by simp), hdet, hcode]
  dsimp only
  rw [if_neg (by simp [hforce]), hkept (by simp), hkept (by simp), hkept (by simp), hkept (by simp), hinst, hdur, harg, hsym, setFs_mono, hmono,
    setFs_flt, forceOf]

end

/-- Settles O49, clause by clause. -/
theorem faultCommandsComplete : Obligations.FaultCommandsComplete := by
  refine ⟨?raised, ?drained, ?acknowledged, ?autoAck, ?clearFirst, ?clearLost, ?clearTotals, ?force, ?stop, ?forceEnd⟩
  case raised =>
    exact fun d n sev detail s hinv hdetects hnew hheld hroom hsev => exec_faultRaise_of_new hinv hdetects hnew hheld hroom hsev detail
  case drained => exact fun s e r hheld hroom => exec_backlogDrain_of_held hheld hroom
  case acknowledged => exact fun seq s e hpresented => exec_faultAck_of_presented hpresented seq
  case autoAck => exact fun s e hpresented _ => exec_faultAutoAck_of_presented hpresented
  case clearFirst => exact fun s => ⟨fltClearFirst s, rfl, rfl, rfl⟩
  case clearLost =>
    exact fun s hinv => ⟨fltClearLost s, rfl, getF_fltClearLost hinv (.inl rfl), getF_fltClearLost hinv (.inr (.inl rfl)),
      getF_fltClearLost hinv (.inr (.inr (.inl rfl))), getF_fltClearLost hinv (.inr (.inr (.inr rfl))), rfl⟩
  case clearTotals =>
    exact fun s hinv => ⟨fltClearTotals s, rfl, fun v => getF_fltClearTotals hinv (.inl ⟨v, rfl⟩), getF_fltClearTotals hinv (.inr (.inl rfl)),
      getF_fltClearTotals hinv (.inr (.inr rfl)), rfl⟩
  case force =>
    intro q det n durationMs arg symbols d s hinv hmode hlife hnone hcode hoffered
    have hresult := injResult_of_force hinv rfl hmode hlife hnone hcode hoffered q (n := n) (durationMs := durationMs) (arg := arg) (symbols := symbols)
    exact ⟨_, forceOf s d n durationMs arg symbols, congrArg done (injStart_of_force hinv rfl hresult hcode), rfl,
      getF_setFs_of_mem (by decide) (regsWf_setFs _ hinv.regs) (v := 0) (by decide), rfl, rfl, rfl, rfl, rfl⟩
  case stop => exact fun s hinv => exec_injStop hinv
  case forceEnd => exact fun s hover => if_pos hover

end Sys2Proof.Machine
end

section
/-! Proofs/CanCommands: frames, requests, error states, CANn_CMD, rate detection, Roll Call and the audit of a CAN channel (O40). -/

namespace Sys2Proof.Machine

/-! ## Frames received (R349, R350) -/

section
variable {n : Fin 12} {i : Fin 0x20000000} {ide fdf : Bool} {s : State} (hon : canOn s n.val = true)
include hon

/-- A frame that a filter takes enters its FIFO, and with none behind it is served. -/
theorem execCanFrameRx_of_filter {k : Nat} (hfd : fdf = true → getB s (Fld.CANn_CFG_FD_EN n.val) = true)
    (hfilter : filterOf (recDown s n.val) n.val i.val ide fdf = some k) (l : List Nat) : execCanFrameRx n i ide false fdf l false s =
    .next (serveCan (rxEnter (cross (recDown s n.val) dcqFieldRx) n.val { filter := k, ident := i.val, ide := ide, fdf := fdf, data := l }) n.val) := by
  unfold execCanFrameRx
  rw [if_neg (by simp [hon]), if_neg (by simpa using hfd)]
  dsimp only
  rw [if_neg Bool.false_ne_true, hfilter]
  rfl

/-- An FD frame on a channel without FD is counted as such. -/
theorem execCanFrameRx_of_fdOff (hfd : getB s (Fld.CANn_CFG_FD_EN n.val) = false) (l : List Nat) (b : Bool) :
    execCanFrameRx n i ide false true l b s = .next (canCount s n.val 4) := by
  unfold execCanFrameRx
  rw [if_neg (by simp [hon]), if_pos (by simp [hfd])]

/-- A remote frame is counted as such. -/
theorem execCanFrameRx_of_remote (l : List Nat) (b : Bool) :
    execCanFrameRx n i ide true false l b s = .next (canCount (recDown s n.val) n.val 3) := by
  unfold execCanFrameRx
  rw [if_neg (by simp [hon]), if_neg (by simp)]
  rfl

/-- A frame that no filter takes is counted as such. -/
theorem execCanFrameRx_of_noFilter (hfilter : filterOf (recDown s n.val) n.val i.val ide false = none) (l : List Nat) (b : Bool) :
    execCanFrameRx n i ide false false l b s = .next (canCount (recDown s n.val) n.val 1) := by
  unfold execCanFrameRx
  rw [if_neg (by simp [hon]), if_neg (by simp)]
  dsimp only
  rw [if_neg Bool.false_ne_true, hfilter]

end

/-! ## Frames sent (R343 to R346) -/

/-- The request that leaves next enters a free buffer. -/
theorem loadOne_of_room {u : State} {n : Nat} {r : CanReq} (hnext : nextReq u n (canAt u n).reqs = some r)
    (hforce : forcedOnce u .canReqFailed n = false) (hroom : (canAt u n).bufs.length < 3) : loadOne u n = loadReq u n r := by
  unfold loadOne
  rw [hnext]
  dsimp only
  rw [if_neg (by simp [hforce]), if_pos hroom]

/-- A frame sent ends its request, lowers the transmit error counter, and may end error passive or the channel's stay on the bus. -/
theorem execCanTxDone_of_sent {n : Fin 12} {r : CanReq} {s : State} (hreq : txReq s n.val = some r) (htransmits : canTransmits s n.val = true)
    (b : Bool) : execCanTxDone n b s = .next (beginTx (canLeft (canCalm (sendMsg
      (endReq (setF s (Fld.CANn_STAT_TEC n.val) (getF s (Fld.CANn_STAT_TEC n.val) - 1)) n.val r .sent)
      (.note "CAN frame" ([n.val, r.key, b2n r.brs] ++ r.data))) n.val) n.val) n.val b) := by
  unfold execCanTxDone
  rw [hreq]
  exact if_neg (by simp [htransmits])

/-- An error other than a missing acknowledgement raises the transmit error counter by 8, and the attempt is lost. -/
theorem execCanTxError_of_error {n : Fin 12} {r : CanReq} {s : State} (hreq : txReq s n.val = some r) (htransmits : canTransmits s n.val = true)
    (b : Bool) : execCanTxError n false b s = .next (beginTx (canLeft (attemptLost
      (setF s (Fld.CANn_STAT_TEC n.val) (satAt 511 (getF s (Fld.CANn_STAT_TEC n.val) + 8))) n.val r) n.val) n.val b) := by
  unfold execCanTxError
  rw [hreq]
  exact if_neg (by simp [htransmits])

/-! ## Error states (R352) -/

/-- A counter at 128 makes the channel error passive. -/
theorem errorPassive_of_limit {n k : Nat} {s : State} (htransmits : canTransmits s n = true) (hactive : canStatus s n = 0)
    (hlimit : 128 ≤ getF s (Fld.CANn_STAT_TEC n) ∨ 128 ≤ k) :
    errorPassive s n k = raise (canCount (setF (setF s (Fld.CANn_STAT_REC n) k) (Fld.CANn_STAT_STATE n) 1) n 6) .canPassive n :=
  if_pos (by simpa [htransmits, hactive] using hlimit)

/-- Recovery ends: the channel is error active, and its frames receive one request each. -/
theorem execCanRecovered_of_busOff {n : Fin 12} {s : State} (hruns : feRuns s = true) (hbusOff : canStatus s n.val = 2)
    (hrecovering : (canAt s n.val).recovering = true) {u : State} (hu : u = setFs (mapCan s n.val (fun x => { x with recovering := false }))
      [(Fld.CANn_STAT_STATE n.val, 0), (Fld.CANn_STAT_TEC n.val, 0), (Fld.CANn_STAT_REC n.val, 0)]) :
    execCanRecovered n s = .next (requestAll u n.val (fun key => nodeReady u n.val key)) := by
  subst hu
  exact if_pos (by simp [hruns, hbusOff, hrecovering])

/-! ## CANn_CMD (R351, R368) -/

section
variable {s : State} {n : Nat} (hruns : feRuns s = true)
include hruns

/-- RECOVER in bus-off. -/
theorem canCmd_recover (hbusOff : canStatus s n = 2) : canCmd s n 1 = mapCan (canFields s n 1 0) n (fun x => { x with recovering := true }) := by
  unfold canCmd
  rw [if_neg (by simp [hruns])]
  exact if_pos hbusOff

/-- DISABLE of a channel that is not yet disabled. -/
theorem canCmd_disable {u : State} (hu : u = mapCan (canFields s n 2 0) n (fun x => { x with off := true })) (hstatus : canStatus u n ≠ 3) :
    canCmd s n 2 = canLeave u n := by
  subst hu
  unfold canCmd
  rw [if_neg (by simp [hruns])]
  exact if_neg (by simp [hstatus])

/-- ENABLE of a disabled channel with EN. -/
theorem canCmd_enable (hen : getB s (Fld.CANn_CFG_EN n) = true) {u : State} (hu : u = mapCan (canFields s n 3 0) n (fun x => { x with off := false }))
    (hstatus : canStatus u n = 3) (hdetect : (canAt u n).detect = none) : canCmd s n 3 = canOnline u n := by
  subst hu
  unfold canCmd
  rw [if_neg (by simp [hruns])]
  refine (if_neg (by simp [hen])).trans ?_
  exact if_pos (by simp [hstatus, hdetect])

/-- DETECT of a channel that listens only. -/
theorem canCmd_detect (hlisten : getB s (Fld.CANn_CFG_LISTEN n) = true) (hstays : (canAt s n).leaving = false) :
    canCmd s n 4 = detectStart (canFields s n 4 0) n := by
  unfold canCmd
  rw [if_neg (by simp [hruns])]
  exact if_pos (by simp [hlisten, hstays])

/-- CLEAR_COUNTERS. -/
theorem canCmd_clearCounters : canCmd s n 7 = (List.range 8).foldl (fun u i => setF u (Fld.CANn_CNT_COUNT n i) 0) (canFields s n 7 0) := by
  unfold canCmd
  exact if_neg (by simp [hruns])

end

/-! ## Rate detection (R342) -/

section
variable {n : Fin 12} {f : Fin 65536} {c : Nat} {s u : State} (hu : u = incSatF s (Fld.CANn_ABR_FRAMES n.val) f.val)
include hu

section
variable (hnominal : (canAt s n.val).detect = some (false, c))
include hnominal

/-- A nominal candidate that passes is taken, and the data candidates follow. -/
theorem execDetectCandidateEnd_of_nominal_passed (b : Bool) : execDetectCandidateEnd n f true b s =
    .next (startTime (setF (mapCan u n.val (fun x => { x with detect := some (true, 1) })) (Fld.CANn_ABR_NOM n.val) c) (tmDetect n.val)) := by
  subst hu
  unfold execDetectCandidateEnd
  dsimp only
  rw [hnominal]
  rfl

/-- With 10 s over and no nominal candidate passed, detection ends without a rate. -/
theorem execDetectCandidateEnd_of_nominal_over (hran : timeRan u (tmDetect n.val) (10000 * msCycles) = true) (b : Bool) :
    execDetectCandidateEnd n f false b s = .next (detectEnd u n.val false) := by
  subst hu
  unfold execDetectCandidateEnd
  dsimp only
  rw [hnominal]
  exact if_pos hran

/-- Else the next nominal candidate follows. -/
theorem execDetectCandidateEnd_of_nominal_next (hran : timeRan u (tmDetect n.val) (10000 * msCycles) = false) (b : Bool) :
    execDetectCandidateEnd n f false b s = .next (mapCan u n.val (fun x => { x with detect := some (false, c % 9 + 1) })) := by
  subst hu
  unfold execDetectCandidateEnd
  dsimp only
  rw [hnominal]
  exact if_neg (ne_true_of_eq_false hran)

end

variable (hdata : (canAt s n.val).detect = some (true, c))
include hdata

/-- A data candidate that passes on an FD frame with BRS is taken. -/
theorem execDetectCandidateEnd_of_data_passed : execDetectCandidateEnd n f true true s =
    .next (detectEnd (setF u (Fld.CANn_ABR_DATA n.val) c) n.val true) := by
  subst hu
  unfold execDetectCandidateEnd
  dsimp only
  rw [hdata]
  rfl

section
variable {p b : Bool} (hfails : p = false ∨ b = false)
include hfails

/-- With 1 s over the nominal rate stands alone. -/
theorem execDetectCandidateEnd_of_data_over (hran : timeRan u (tmDetect n.val) (1000 * msCycles) = true) :
    execDetectCandidateEnd n f p b s = .next (detectEnd u n.val true) := by
  subst hu
  have hnot : ¬ (p && b) = true := by obtain rfl | rfl := hfails <;> simp
  unfold execDetectCandidateEnd
  dsimp only
  rw [hdata]
  exact (if_neg hnot).trans (if_pos hran)

/-- Else the next data candidate follows. -/
theorem execDetectCandidateEnd_of_data_next (hran : timeRan u (tmDetect n.val) (1000 * msCycles) = false) :
    execDetectCandidateEnd n f p b s = .next (mapCan u n.val (fun x => { x with detect := some (true, c % 4 + 1) })) := by
  subst hu
  have hnot : ¬ (p && b) = true := by obtain rfl | rfl := hfails <;> simp
  unfold execDetectCandidateEnd
  dsimp only
  rw [hdata]
  exact (if_neg hnot).trans (if_neg (ne_true_of_eq_false hran))

end

end

/-! ## Timeout and audit (R347, R351) -/

/-- An input outside Roll Call whose frame has not arrived for its time is ABSENT. -/
theorem execCanInTimeout_of_ran {k : Fin 4096} {x : MapEntry} {s : State} (hentry : mapEnt? s k.val = some x) (hkind : x.kind = .canIn)
    (hnode : x.node = 0) (htimeout : x.timeout ≠ 0) (hruns : feRuns s = true) (hran : timeRan s (tmCanIn k.val) (x.timeout * msCycles) = true) :
    execCanInTimeout k s = .next (writerQuality s .field x.channel x.index .absent) := by
  unfold execCanInTimeout
  rw [hentry]
  exact if_pos (by simp [hkind, hnode, htimeout, hruns, hran])

section
variable {n : Fin 12} {s : State} (hruns : feRuns s = true) (htick : s.tick % 4000 = 0) (hoffset : takeOffset s .canAudit n.val = (0, s))
include hruns htick hoffset

/-- The audit of counters that match changes nothing. -/
theorem execCanAudit_of_match (hmatch : (getF s (Fld.CANn_CNT_COUNT n.val 9) + getF s (Fld.CANn_CNT_COUNT n.val 10) +
    getF s (Fld.CANn_CNT_COUNT n.val 11) + getF s (Fld.CANn_CNT_COUNT n.val 12) + txPending s n.val) % 2 ^ 32 = getF s (Fld.CANn_CNT_COUNT n.val 8)) :
    execCanAudit n s = .next s := by
  unfold execCanAudit
  dsimp only
  rw [if_neg (by simp [hruns, htick]), hoffset]
  exact if_pos hmatch

/-- A mismatch sets AUDIT_FAIL and raises its fault. -/
theorem execCanAudit_of_mismatch (hmismatch : (getF s (Fld.CANn_CNT_COUNT n.val 9) + getF s (Fld.CANn_CNT_COUNT n.val 10) +
    getF s (Fld.CANn_CNT_COUNT n.val 11) + getF s (Fld.CANn_CNT_COUNT n.val 12) + txPending s n.val) % 2 ^ 32 ≠ getF s (Fld.CANn_CNT_COUNT n.val 8)) :
    execCanAudit n s = .next (raise (latchF s (Fld.CANn_STAT_AUDIT_FAIL n.val) 1) .canAudit n.val) := by
  unfold execCanAudit
  dsimp only
  rw [if_neg (by simp [hruns, htick]), hoffset]
  exact if_neg hmismatch

end

/-! ## Roll Call (R353 to R356) -/

section
variable {s : State} {n : Nat} (hroll : rcOn s n = true)
include hroll

/-- CALL is sent. -/
theorem rcCall_of_on : rcCall s n = rcSend (startTime s (tmCall n)) n 0 0 0 [] := if_pos hroll

/-- An ANSWER of a bound node is assigned its number. -/
theorem rollAnswer_of_bound (hsends : canSends s n = true) {uid k : Nat} {d : CanNode}
    (hbound : (canAt s n).nodes.find? (fun kv => kv.2.uid == uid) = some (k, d)) : rollAnswer s n uid =
    mapNode (rcSend s n 2 k d.hb (octetsLe 8 uid)) n k (fun x => if x.st = 3 then x else { x with st := 2 }) := by
  unfold rollAnswer
  dsimp only
  rw [if_neg (by simp [hsends, hroll]), hbound]

variable (hon : canOn s n = true) {uid k : Nat} {d : CanNode} (hnode : tabGet? (canAt s n).nodes k = some d) (huid : d.uid = uid) (hpresent : d.st = 3)
include hon hnode huid hpresent

/-- PRESENT of a node that is present renews its status and its time. -/
theorem rollPresent_of_present (hforce : forced s .rcEvent n = false) (status : Nat) : rollPresent s n k status uid =
    mapNode s n k (fun x => { x with st := 3, status := status, last := some (elapsedUs s) }) := by
  unfold rollPresent
  rw [if_neg (by simp [hon, hroll, hforce])]
  dsimp only
  rw [hnode]
  dsimp only
  rw [if_neg (by simp [huid]), if_neg (by simp [hpresent])]

/-- LEAVE of a present node makes it absent. -/
theorem rollLeave_of_present : rollLeave s n k uid = absentNode s n k := by
  unfold rollLeave
  rw [if_neg (by simp [hon, hroll]), hnode]
  exact if_pos (by simp [huid, hpresent])

end

/-- A present node that has missed its heartbeats is absent. -/
theorem execNodeHeartbeatMiss_of_missed {n : Fin 12} {k : Fin 128} {d : CanNode} {s : State} (hnode : tabGet? (canAt s n.val).nodes k.val = some d)
    (hpresent : d.st = 3) (hruns : feRuns s = true) (hmissed : heartbeatMissed s n.val d = true) :
    execNodeHeartbeatMiss n k s = .next (absentNode s n.val k.val) := by
  unfold execNodeHeartbeatMiss
  rw [hnode]
  exact if_pos (by simp [hpresent, hruns, hmissed])

/-- Settles O40, clause by clause. -/
theorem canCommandsComplete : Obligations.CanCommandsComplete := by
  refine ⟨?served, ?counted, ?loaded, ?sent, ?error, ?passive, ?busOff, ?recovered, ?recover, ?disable, ?enable, ?detect, ?clear, ?candidate, ?timeout,
    ?audit, ?call, ?answer, ?present, ?leave, ?heartbeat⟩
  case served => exact fun n i ide fdf l k s hon hfd hfilter => execCanFrameRx_of_filter hon hfd hfilter l
  case counted =>
    exact fun n i ide b l s hon => ⟨fun hfd => execCanFrameRx_of_fdOff hon hfd l b, execCanFrameRx_of_remote hon l b,
      fun hfilter => execCanFrameRx_of_noFilter hon hfilter l b⟩
  case loaded =>
    rintro n b r s u hsends rfl hnext hforce hroom
    refine (if_pos hsends).trans ?_
    rw [loadOne_of_room hnext hforce hroom]
  case sent =>
    rintro n b r s u hreq htransmits rfl
    exact execCanTxDone_of_sent hreq htransmits b
  case error => exact fun n b r s hreq htransmits => execCanTxError_of_error hreq htransmits b
  case passive => exact fun n k s htransmits hactive hlimit => congrArg done (errorPassive_of_limit htransmits hactive hlimit)
  case busOff =>
    rintro n s u v htransmits rfl rfl
    exact congrArg done (if_neg (by simp [htransmits]))
  case recovered => exact fun n s u hruns hbusOff hrecovering hu => execCanRecovered_of_busOff hruns hbusOff hrecovering hu
  case recover => exact fun n s hruns hbusOff => congrArg done (canCmd_recover hruns hbusOff)
  case disable => exact fun n u s hruns hu hstatus => congrArg done (canCmd_disable hruns hu hstatus)
  case enable => exact fun n u s hruns hen hu hstatus hdetect => congrArg done (canCmd_enable hruns hen hu hstatus hdetect)
  case detect => exact fun n s hruns hlisten hstays => congrArg done (canCmd_detect hruns hlisten hstays)
  case clear => exact fun n s hruns => congrArg done (canCmd_clearCounters hruns)
  case candidate =>
    intro n f p b c s u hu
    exact ⟨fun hnominal => execDetectCandidateEnd_of_nominal_passed hu hnominal b,
      fun hnominal hran => execDetectCandidateEnd_of_nominal_over hu hnominal hran b,
      fun hnominal hran => execDetectCandidateEnd_of_nominal_next hu hnominal hran b, execDetectCandidateEnd_of_data_passed hu,
      fun hdata hfails hran => execDetectCandidateEnd_of_data_over hu hdata hfails hran,
      fun hdata hfails hran => execDetectCandidateEnd_of_data_next hu hdata hfails hran⟩
  case timeout =>
    exact fun k x s hentry hkind hnode htimeout hruns hran => execCanInTimeout_of_ran hentry hkind hnode htimeout hruns hran
  case audit => exact fun n s hruns htick hoffset => ⟨execCanAudit_of_match hruns htick hoffset, execCanAudit_of_mismatch hruns htick hoffset⟩
  case call => exact fun n s hroll hran => congrArg done ((if_pos hran).trans (rcCall_of_on hroll))
  case answer => exact fun n uid k d s hsends hroll hbound => congrArg done (rollAnswer_of_bound hroll hsends hbound)
  case present =>
    exact fun n k b uid d s hon hroll hforce hnode huid hpresent => congrArg done (rollPresent_of_present hroll hon hnode huid hpresent hforce b.val)
  case leave => exact fun n k uid d s hon hroll hnode huid hpresent => congrArg done (rollLeave_of_present hroll hon hnode huid hpresent)
  case heartbeat => exact fun n k d s hnode hpresent hruns hmissed => execNodeHeartbeatMiss_of_missed hnode hpresent hruns hmissed

end Sys2Proof.Machine
end

section
/-! Proofs/FieldLineCommands: requests and responses of a Modbus line, UARTn_CMD, and the GPIO pins (O41). -/

namespace Sys2Proof.Machine

/-! ## Requests (R364, R365) -/

/-- A group that falls due joins the due reads. -/
theorem execMbPollDue_of_ran {k : Fin 4096} {x : MapEntry} {l : Nat} {y : MapEntry} {g : List (Nat × MapEntry)} {s : State}
    (hentry : mapEnt? s k.val = some x) (hgroup : groupWith s (x.channel - 16) k.val = (l, y) :: g) (hkind : x.kind = .mbRead)
    (hon : uartOn s (x.channel - 16) = true) (hpresent : (stationAt s (x.channel - 16) x.node).absent = false)
    (hnew : (uartAt s (x.channel - 16)).due.contains l = false) (hran : timeRan s (tmPoll l) (x.period * msCycles) = true) :
    execMbPollDue k s = .next (mapUart (startTime s (tmPoll l)) (x.channel - 16) (fun z => { z with due := z.due ++ [l] })) := by
  unfold execMbPollDue
  rw [hentry]
  dsimp only
  rw [hgroup]
  exact if_pos (by rw [hkind, hon, hpresent, hnew, hran]; rfl)

section
variable {u : Fin 8} {s : State} (hon : uartOn s u.val = true) (hfree : (uartAt s u.val).trans = none) (hquiet : lineQuiet s u.val = true)
include hon hfree hquiet

section
variable {k : Nat} {t : List Nat} (hwrites : (uartAt s u.val).writes = k :: t) {v : State} (hv : v = mapUart s u.val (fun z => { z with writes := t }))
  {x : MapEntry} (hentry : mapEnt? v k = some x)
include hwrites hv hentry

/-- A pending write goes to its station before any read, filled as it is sent. -/
theorem execMbRequestSend_of_write (hnode : x.node ≠ 0) : execMbRequestSend u s =
    .next (mbBegin (mapMap (if (writePdu v x).2 then uartCount v u.val 8 else v) k (fun e => { e with loaded := some (outValue v e) })) u.val
      { job := .write k, station := x.node, fn := x.fn, request := (writePdu v x).1 }) := by
  subst hv
  unfold execMbRequestSend
  dsimp only
  rw [if_neg (by simp [hon, hfree, hquiet]), hwrites]
  dsimp only
  rw [hentry]
  exact if_neg hnode

/-- A broadcast is delivered as it is sent, and a pause follows it. -/
theorem execMbRequestSend_of_broadcast (hnode : x.node = 0) : execMbRequestSend u s =
    .next (setUndeliv (mbBegin (mapMap (if (writePdu v x).2 then uartCount v u.val 8 else v) k (fun e => { e with loaded := some (outValue v e) })) u.val
      { job := .pause, request := (writePdu v x).1 }) x.index false) := by
  subst hv
  unfold execMbRequestSend
  dsimp only
  rw [if_neg (by simp [hon, hfree, hquiet]), hwrites]
  dsimp only
  rw [hentry]
  exact if_pos hnode

end

/-- With no write pending the read that fell due earliest is sent. -/
theorem execMbRequestSend_of_read {k l : Nat} {t : List Nat} {x : MapEntry} {g : List (Nat × MapEntry)} {v : State}
    (hwrites : (uartAt s u.val).writes = []) (hdue : (uartAt s u.val).due = k :: t) (hv : v = mapUart s u.val (fun z => { z with due := t }))
    (hgroup : groupWith v u.val k = (l, x) :: g) : execMbRequestSend u s =
    .next (mbBegin v u.val { job := .read l, station := x.node, fn := x.fn, request := readPdu ((l, x) :: g) }) := by
  subst hv
  unfold execMbRequestSend
  dsimp only
  rw [if_neg (by simp [hon, hfree, hquiet]), hwrites, hdue]
  dsimp only
  rw [hgroup]

end

/-! ## Responses (R363, R365) -/

section
variable {u : Fin 8} {s : State} (hon : uartOn s u.val = true) (hforce : forced s .mbEvent u.val = false) (hde : deOn s u.val = false)
  {f : List Nat}
include hon hforce hde

/-- A frame with a valid CRC is counted and taken as a response. -/
theorem execMbResponse_of_valid (hmin : 4 ≤ f.length) (hmax : f.length ≤ 256)
    (hcrc : crc16 (f.take (f.length - 2)) = leOctets (f.drop (f.length - 2))) :
    execMbResponse u f false false s = .next (mbAccept (uartCount s u.val 1) u.val f) := by
  unfold execMbResponse
  dsimp only
  rw [if_neg (by simp [hon, hforce, hde]), if_neg (by simpa using hmax), if_neg Bool.false_ne_true]
  exact if_neg (by simp [hmin, hcrc])

/-- A frame with a bad character is counted as such. -/
theorem execMbResponse_of_bad (b : Bool) : execMbResponse u f b true s = .next (uartCount s u.val 4) := by
  unfold execMbResponse
  dsimp only
  rw [if_neg (by simp [hon, hforce, hde])]
  exact if_pos rfl

/-- A frame broken by a silence is counted as such. -/
theorem execMbResponse_of_broken (hmax : f.length ≤ 256) : execMbResponse u f true false s = .next (uartCount s u.val 3) := by
  unfold execMbResponse
  dsimp only
  rw [if_neg (by simp [hon, hforce, hde]), if_neg (by simpa using hmax)]
  exact if_pos rfl

/-- A frame too short for a CRC is counted as one with a wrong CRC. -/
theorem execMbResponse_of_short (hshort : f.length < 4) : execMbResponse u f false false s = .next (uartCount s u.val 2) := by
  have hmax : f.length ≤ 256 := by omega
  unfold execMbResponse
  dsimp only
  rw [if_neg (by simp [hon, hforce, hde]), if_neg (by simpa using hmax), if_neg Bool.false_ne_true]
  exact if_pos (by simp [hshort])

end

/-! ## Timeout and probe (R365, R366) -/

section
variable {u : Fin 8} {t : MbTrans} {s : State} (htrans : (uartAt s u.val).trans = some t) (hon : uartOn s u.val = true)
  (hran : timeRan s (tmMb u.val) (getF s (Fld.UARTn_TIMING_TIMEOUT_MS u.val) * msCycles) = true)
include htrans hon hran

/-- The pause after a broadcast ends. -/
theorem execMbTimeout_of_pause (hjob : t.job = .pause) : execMbTimeout u s = .next (mbOver s u.val) := by
  unfold execMbTimeout
  dsimp only
  rw [htrans]
  dsimp only
  rw [if_neg (by simp [hon, hran])]
  exact if_pos hjob

variable (hjob : t.job ≠ .pause) (hquiet : lineQuiet s u.val = true) {v : State}
  (hv : v = mapStation (uartCount s u.val 5) u.val t.station (fun d => { d with timeouts := satAt 65535 (d.timeouts + 1) }))
include hjob hquiet hv

/-- A request is sent again while retries are left. -/
theorem execMbTimeout_of_retry (hleft : t.attempts ≤ getF v (Fld.UARTn_CFG_RETRIES u.val)) : execMbTimeout u s =
    .next (mapUart (mbTransmit v u.val t.request) u.val (fun z => { z with trans := some { t with attempts := t.attempts + 1 } })) := by
  subst hv
  unfold execMbTimeout
  dsimp only
  rw [htrans]
  dsimp only
  rw [if_neg (by simp [hon, hran]), if_neg hjob, if_neg (by simp [hquiet])]
  exact if_pos hleft

/-- With none left the station is absent. -/
theorem execMbTimeout_of_absent (hnone : getF v (Fld.UARTn_CFG_RETRIES u.val) < t.attempts) :
    execMbTimeout u s = .next (stationAbsent (mbOver v u.val) u.val t.station) := by
  subst hv
  unfold execMbTimeout
  dsimp only
  rw [htrans]
  dsimp only
  rw [if_neg (by simp [hon, hran]), if_neg hjob, if_neg (by simp [hquiet])]
  exact if_neg hnone.not_ge

end

/-- An absent station is probed with its first read group. -/
theorem execMbAbsentProbe_of_group {u : Fin 8} {st : Fin 248} {l : Nat} {x : MapEntry} {g : List (Nat × MapEntry)} {s : State}
    (hon : uartOn s u.val = true) (habsent : (stationAt s u.val st.val).absent = true)
    (hran : timeRan s (tmProbe u.val st.val) (getF s (Fld.UARTn_TIMING_ABSENT_POLL_MS u.val) * msCycles) = true)
    (hgroup : (pollGroups s u.val).find? (fun g => g.any (fun kv => kv.2.node == st.val)) = some ((l, x) :: g))
    (hnew : (uartAt s u.val).due.contains l = false) : execMbAbsentProbe u st s =
    .next (mapUart (startTime s (tmProbe u.val st.val)) u.val (fun z => { z with due := z.due ++ [l] })) := by
  unfold execMbAbsentProbe
  dsimp only
  rw [if_neg (by simp [hon, habsent, hran]), hgroup]
  exact if_neg (ne_true_of_eq_false hnew)

/-! ## UARTn_CMD and GPIO (R358, R368, R371) -/

section
variable {s : State} {u : Nat} (hruns : feRuns s = true)
include hruns

/-- DISABLE takes the line off. -/
theorem uartCmd_disable : uartCmd s u 2 = uartLeave (mapUart (uartFields s u 2 0) u (fun x => { x with off := true })) u := by
  unfold uartCmd
  exact if_neg (by simp [hruns])

/-- ENABLE of a line with EN that is off. -/
theorem uartCmd_enable (hen : getB s (Fld.UARTn_CFG_EN u) = true) {v : State} (hv : v = mapUart (uartFields s u 3 0) u (fun x => { x with off := false }))
    (hoff : uartOn v u = false) : uartCmd s u 3 = uartOnline v u := by
  subst hv
  unfold uartCmd
  rw [if_neg (by simp [hruns])]
  exact (if_neg (by simp [hen])).trans (if_neg (ne_true_of_eq_false hoff))

/-- CLEAR_COUNTERS. -/
theorem uartCmd_clearCounters : uartCmd s u 7 = (List.range 9).foldl (fun v i => setF v (Fld.UARTn_CNT_COUNT u i) 0) (uartFields s u 7 0) := by
  unfold uartCmd
  exact if_neg (by simp [hruns])

end

/-- A land's level is recorded, shown, and written into the record of its entry. -/
theorem execGpioInChange_of_entry {p : Fin 64} {b : Bool} {s v : State} {kv : Nat × MapEntry} (hruns : feRuns s = true)
    (hv : v = readLand { s with lands := tabPut s.lands p.val b } p.val)
    (hentry : (entriesOf v .gpioIn 24).find? (fun kv => kv.2.pin == p.val) = some kv) : execGpioInChange p b s = .next (gpioWrite v kv.2) := by
  subst hv
  have hruns' : feRuns { s with lands := tabPut s.lands p.val b } = true := hruns
  unfold execGpioInChange
  dsimp only
  rw [if_neg (by simp [hruns']), hentry]

/-- Settles O41, clause by clause. -/
theorem fieldLineCommandsComplete : Obligations.FieldLineCommandsComplete := by
  refine ⟨?pollDue, ?write, ?broadcast, ?read, ?valid, ?invalid, ?timeout, ?pause, ?probe, ?disable, ?enable, ?clear, ?gpio⟩
  case pollDue =>
    exact fun k x l y g s hentry hgroup hkind hon hpresent hnew hran => execMbPollDue_of_ran hentry hgroup hkind hon hpresent hnew hran
  case write =>
    exact fun u k t x s v hon hfree hquiet hwrites hv hentry hnode => execMbRequestSend_of_write hon hfree hquiet hwrites hv hentry hnode
  case broadcast =>
    exact fun u k t x s v hon hfree hquiet hwrites hv hentry hnode => execMbRequestSend_of_broadcast hon hfree hquiet hwrites hv hentry hnode
  case read =>
    exact fun u k l t x g s v hon hfree hquiet hwrites hdue hv hgroup => execMbRequestSend_of_read hon hfree hquiet hwrites hdue hv hgroup
  case valid => exact fun u f s hon hforce hde hmin hmax hcrc => execMbResponse_of_valid hon hforce hde hmin hmax hcrc
  case invalid =>
    exact fun u f b s hon hforce hde => ⟨execMbResponse_of_bad hon hforce hde b, execMbResponse_of_broken hon hforce hde,
      execMbResponse_of_short hon hforce hde⟩
  case timeout =>
    intro u t s v htrans hon hran hjob hquiet hv
    exact ⟨execMbTimeout_of_retry htrans hon hran hjob hquiet hv, execMbTimeout_of_absent htrans hon hran hjob hquiet hv⟩
  case pause => exact fun u t s htrans hon hran hjob => execMbTimeout_of_pause htrans hon hran hjob
  case probe => exact fun u st l x g s hon habsent hran hgroup hnew => execMbAbsentProbe_of_group hon habsent hran hgroup hnew
  case disable => exact fun u s hruns => congrArg done (uartCmd_disable hruns)
  case enable => exact fun u s v hruns hen hv hoff => congrArg done (uartCmd_enable hruns hen hv hoff)
  case clear => exact fun u s hruns => congrArg done (uartCmd_clearCounters hruns)
  case gpio => exact fun p b s v kv hruns hv hentry => execGpioInChange_of_entry hruns hv hentry

end Sys2Proof.Machine
end

section
/-! Proofs/MemoryCommands: patrol scrub, corrected-error hours, page retirement, NAND upkeep, the fabric audit and MEM_CMD (O42). -/

namespace Sys2Proof.Machine

/-! ## Patrol scrub and corrected errors (R391 to R396) -/

section
variable {p : MemPlace} {a : Fin 0x200000000} {s : State} (hnone : s.flt.inj = none)
include hnone

/-- With no injection active the scrubber finds what the word holds. -/
theorem injectedFind_of_none (n : Nat) (f : ScrubFind) : injectedFind s p n f = f := by
  unfold injectedFind
  rw [hnone]
  cases f <;> rfl

/-- With no injection active none is used. -/
theorem injectionUsed_of_none (n : Nat) (f : ScrubFind) : injectionUsed s p n f = s := by
  unfold injectionUsed
  rw [hnone]
  cases f <;> rfl

variable (hon : regionOn s p.region = true) (hplace : placeHas p.region a.val = true)
include hon hplace

/-- A clean word leaves all as it is. -/
theorem execPatrolScrub_of_clean (l : Bool) : execPatrolScrub p a .clean l s = .next (if l then passEnd s p.region else s) := by
  unfold execPatrolScrub
  dsimp only
  rw [if_neg (by simp [hon, hplace]), injectedFind_of_none hnone, injectionUsed_of_none hnone]

/-- A corrected word is counted and acted on. -/
theorem execPatrolScrub_of_corrected (y : Fin 20) (l : Bool) : execPatrolScrub p a (.corrected y) l s =
    .next (if l then passEnd (corrected s p.region a.val y.val) p.region else corrected s p.region a.val y.val) := by
  unfold execPatrolScrub
  dsimp only
  rw [if_neg (by simp [hon, hplace]), injectedFind_of_none hnone, injectionUsed_of_none hnone]

/-- An uncorrectable word is counted, recorded in MEM_LAST, acted on by its place, and raises its fault. -/
theorem execPatrolScrub_of_due (y : Fin 20) : execPatrolScrub p a (.due y) false s =
    .next (raiseSev (dueAction (recordLast (incSatF s (Fld.MEM_DUE_DETECTED p.region)) p.region a.val y.val true false) p a.val)
      .memDue p.region p.severity) := by
  unfold execPatrolScrub
  dsimp only
  rw [if_neg (by simp [hon, hplace]), injectedFind_of_none hnone, injectionUsed_of_none hnone]
  rfl

end

/-- The state in which a region's hour is judged: with the hour's fault raised where its limit is passed for the first time. -/
def hourJudged (s : State) (r : Nat) : State :=
  if getF s Fld.MEM_CE_CFG_LIMIT < tabGet 0 s.mem.hour r && !s.mem.hourRaised.contains r then
    raise (mapMem s (fun m => { m with hourRaised := m.hourRaised ++ [r] })) .memCeRate r
  else s

/-- Beyond the hour's limit one fault is raised. -/
theorem execCeRateHour_of_over {r : Fin 7} {s : State} (hover : getF s Fld.MEM_CE_CFG_LIMIT < tabGet 0 s.mem.hour r.val)
    (hfirst : s.mem.hourRaised.contains r.val = false) :
    execCeRateHour r false s = .next (raise (mapMem s (fun m => { m with hourRaised := m.hourRaised ++ [r.val] })) .memCeRate r.val) := by
  have hjudged : execCeRateHour r false s = done (hourJudged s r.val) := rfl
  exact hjudged.trans (congrArg done (if_pos (by rw [hfirst, decide_eq_true hover]; rfl)))

/-- At its end the hour begins again. -/
theorem execCeRateHour_of_ran {r : Fin 7} {s : State} (hwithin : tabGet 0 s.mem.hour r.val ≤ getF s Fld.MEM_CE_CFG_LIMIT)
    (hran : timeRan s (tmHour r.val) hourCycles = true) : execCeRateHour r true s =
      .next (startTime (mapMem s (fun m => { m with hour := tabDel m.hour r.val, hourRaised := m.hourRaised.filter (· != r.val) })) (tmHour r.val)) := by
  have hjudged : hourJudged s r.val = s := if_neg (by simp [hwithin])
  have hends : execCeRateHour r true s = done (if timeRan (hourJudged s r.val) (tmHour r.val) hourCycles then
      startTime (mapMem (hourJudged s r.val) (fun m => { m with hour := tabDel m.hour r.val, hourRaised := m.hourRaised.filter (· != r.val) })) (tmHour r.val)
      else hourJudged s r.val) := rfl
  rw [hends, hjudged, if_pos hran]

/-! ## Page retirement (R396) -/

section
variable {p : Fin 0x200000} {s v : State} (hqualifies : s.mem.qualify.contains p.val = true) (hfree : s.mem.copying = none)
  (hv : v = mapMem s (fun m => { m with qualify := m.qualify.erase p.val }))
include hqualifies hfree hv

/-- With a spare the copy of a qualifying page begins. -/
theorem execPageRetire_of_spare (hspare : getF v Fld.MEM_DRAM_STAT_SPARE_LEFT ≠ 0) (hforce : forced v .dramSpares 0 = false) :
    execPageRetire p s = .next (mapMem v (fun m => { m with copying := some p.val })) := by
  subst hv
  unfold execPageRetire
  dsimp only
  rw [if_neg (by rw [hqualifies, hfree]; decide), if_neg (by simp [hspare, hforce])]

/-- Without one the page stays, with its fault. -/
theorem execPageRetire_of_none (hnone : getF v Fld.MEM_DRAM_STAT_SPARE_LEFT = 0) : execPageRetire p s = .next (raise v .dramSpares) := by
  subst hv
  unfold execPageRetire
  dsimp only
  rw [if_neg (by rw [hqualifies, hfree]; decide), if_pos (by simp [hnone])]

end

/-- The copy's end retires the page. -/
theorem execPageCopyDone_of_copying {p : Nat} {s : State} (hcopying : s.mem.copying = some p) :
    execPageCopyDone s = .next (dramStat (mapMem s (fun m => { m with copying := none, retired := m.retired ++ [p] }))) := by
  unfold execPageCopyDone
  rw [hcopying]

/-! ## NAND (R398 to R400) -/

/-- A queued block is copied with its pegs, and waits without them. -/
theorem execNandRefresh_of_queued {b i : Fin 8192} {s u : State} {g : Bool} (hon : nandOn s = true) (hqueued : s.mem.refresh.contains b.val = true)
    (hother : b ≠ i) (hgood : s.mem.badBlocks.contains i.val = false) (hfree : s.mem.twin = none) (hgrant : grantNow s .refresh = (u, g)) :
    execNandRefresh b i s = .next (if g then mapMem u (fun m => { m with twin := some (b.val, i.val) }) else u) := by
  unfold execNandRefresh
  dsimp only
  rw [if_pos (by rw [hon, hqueued, hgood, hfree]; simpa using hother), hgrant]
  cases g <;> rfl

/-- The end of a refresh erases the older block. -/
theorem refreshEnd_of_twin {s : State} {b i : Nat} (htwin : s.mem.twin = some (b, i)) : refreshEnd s =
    incSatF (eraseBlock (mapMem s (fun m => { m with twin := none, refresh := m.refresh.filter (· != b) })) b) Fld.MEM_NAND_STAT2_REFRESHED := by
  unfold refreshEnd
  rw [htwin]

/-- The patrol checks NOR, and queues the worn blocks that are not bad. -/
theorem execNandPatrol_of_worn {s : State} (hon : nandOn s = true) (hmode : modeOf s ≠ 7)
    (hdue : s.mem.nandNow = true ∨ timeRan s tmPatrol (getF s Fld.MEM_SCRUB_CFG_NAND_DAYS * (24 * hourCycles)) = true) (w : List (Fin 8192)) :
    execNandPatrol w [] s = .next (mapMem (norCheck (setF (startTime s tmPatrol) Fld.MEM_NAND_STAT2_REFRESHED 0)) (fun m =>
      { m with nandNow := false, refresh := w.foldl (fun l b => if l.contains b.val || m.badBlocks.contains b.val then l else l ++ [b.val]) m.refresh })) :=
  if_neg (by simpa [hon, hmode, or_iff_not_imp_left] using hdue)

/-- An image whose record cannot be read is lost, with its fault. -/
theorem execNandPatrol_of_lost {k : Fin 4096} {s u : State} (hon : nandOn s = true) (hmode : modeOf s ≠ 7) (hnow : s.mem.nandNow = true)
    (hfirst : s.mem.lostImages.contains k.val = false)
    (hu : u = mapMem (norCheck (setF (startTime s tmPatrol) Fld.MEM_NAND_STAT2_REFRESHED 0)) (fun m => { m with nandNow := false })) :
    execNandPatrol [] [k] s = .next (raise (mapMem u (fun m => { m with lostImages := m.lostImages ++ [k.val] })) .imageLost k.val) := by
  have hlost : u.mem.lostImages.contains k.val = false := by
    rw [hu]
    exact hfirst
  have hadded : mapMem u (fun m => { m with lostImages := if m.lostImages.contains k.val then m.lostImages else m.lostImages ++ [k.val] }) =
      mapMem u (fun m => { m with lostImages := m.lostImages ++ [k.val] }) := by
    unfold mapMem
    dsimp only
    rw [hlost]
    rfl
  rw [← hadded, hu]
  exact if_neg (by simp [hon, hmode, hnow])

/-- A retention rewrite runs under its pegs, and erases the block that it leaves. -/
theorem execNandRetentionRewrite_of_good {b i : Fin 8192} {s : State} (hon : nandOn s = true) (hmode : modeOf s ≠ 7) (hother : b ≠ i)
    (hgood : s.mem.badBlocks.contains b.val = false) (hgoodInto : s.mem.badBlocks.contains i.val = false) (hfree : s.mem.twin = none) :
    execNandRetentionRewrite b i s =
      .next (withGrant s .refresh (fun u => eraseBlock (mapMem u (fun m => { m with refresh := m.refresh.filter (· != b.val) })) b.val)) :=
  if_pos (by rw [hon, hgood, hgoodInto, hfree]; simp [hmode, hother])

section
variable {b : Fin 8192} {s : State} (hon : nandOn s = true) (hgood : s.mem.badBlocks.contains b.val = false)
include hon hgood

/-- With no spare left a failed block raises its fault, Severe. -/
theorem execNandBlockFail_of_no_spare (hnone : sparesReported s = 0) : execNandBlockFail b s = .next (raiseSev s .nandSpares 0 .severe) := by
  unfold execNandBlockFail
  rw [if_neg (by rw [hon, hgood]; decide)]
  exact if_pos hnone

/-- With a spare it is retired; fewer than 32 left raise the fault. -/
theorem execNandBlockFail_of_spare (hspare : sparesReported s ≠ 0) {v : State}
    (hv : v = nandStat (mapMem s (fun m => { m with badBlocks := m.badBlocks ++ [b.val], refresh := m.refresh.filter (· != b.val) }))) :
    execNandBlockFail b s = .next (if sparesReported v < 32 then raise v .nandSpares else v) := by
  subst hv
  unfold execNandBlockFail
  rw [if_neg (by rw [hon, hgood]; decide)]
  exact if_neg hspare

end

/-! ## The fabric audit and MEM_CMD (R402, R403) -/

/-- The audit of one balance. -/
def auditBalance (s : State) (bit : Nat) : State :=
  if balanceOk (takeOffset s .fabricAudit bit).2 bit (takeOffset s .fabricAudit bit).1 then (takeOffset s .fabricAudit bit).2
  else raise (latchF (takeOffset s .fabricAudit bit).2 { addr := Fld.MEM_AUDIT_FABRIC.addr, lo := bit, w := 1, rst := 0, lvl := 2 } 1) .fabricAudit bit

/-- Balances that hold, with no offset injected, leave all as it is. -/
theorem foldl_auditBalance_of_ok {v : State} (hoffset : ∀ b, takeOffset v .fabricAudit b = (0, v)) {bits : List Nat}
    (hok : ∀ b ∈ bits, balanceOk v b 0 = true) : bits.foldl auditBalance v = v := by
  induction bits with
  | nil => rfl
  | cons b bits ih =>
    have hone : auditBalance v b = v := by
      unfold auditBalance
      rw [hoffset]
      exact if_pos (hok b List.mem_cons_self)
    rw [List.foldl_cons, hone]
    exact ih fun c hc => hok c (List.mem_cons_of_mem b hc)

/-- The audit of balances that hold only counts. -/
theorem execFabricAudit_of_ok {s v : State} (hon : domainOn s 4 = true) (htick : s.tick % 400 = 0) (hv : v = incF s Fld.MEM_AUDIT_AUDITS)
    (hoffset : ∀ b, takeOffset v .fabricAudit b = (0, v)) (hok : ∀ b < 6, balanceOk v b 0 = true) : execFabricAudit s = .next v := by
  have hpass : execFabricAudit s = done ((List.range 6).foldl auditBalance (incF s Fld.MEM_AUDIT_AUDITS)) :=
    if_neg (by simp [hon, htick])
  rw [hpass, ← hv, foldl_auditBalance_of_ok hoffset fun b hb => hok b (List.mem_range.1 hb)]

/-- Settles O42, clause by clause. -/
theorem memoryCommandsComplete : Obligations.MemoryCommandsComplete := by
  refine ⟨?scrub, ?hour, ?retire, ?copied, ?refresh, ?refreshEnd, ?patrol, ?imageLost, ?rewrite, ?blockFail, ?audit, ?sramNow, ?dramNow, ?nandNow, ?clear⟩
  case scrub =>
    exact fun p a l s hon hplace hnone => ⟨execPatrolScrub_of_clean hnone hon hplace l,
      fun y => execPatrolScrub_of_corrected hnone hon hplace y l, execPatrolScrub_of_due hnone hon hplace⟩
  case hour => exact fun r s => ⟨execCeRateHour_of_over, execCeRateHour_of_ran⟩
  case retire => exact fun p s v hqualifies hfree hv => ⟨execPageRetire_of_spare hqualifies hfree hv, execPageRetire_of_none hqualifies hfree hv⟩
  case copied => exact fun p s hcopying => execPageCopyDone_of_copying hcopying
  case refresh =>
    exact fun b i s u g hon hqueued hother hgood hfree hgrant => execNandRefresh_of_queued hon hqueued hother hgood hfree hgrant
  case refreshEnd => exact fun s b i htwin => refreshEnd_of_twin htwin
  case patrol => exact fun w s hon hmode hdue => execNandPatrol_of_worn hon hmode hdue w
  case imageLost => exact fun k s u hon hmode hnow hfirst hu => execNandPatrol_of_lost hon hmode hnow hfirst hu
  case rewrite =>
    exact fun b i s hon hmode hother hgood hgoodInto hfree => execNandRetentionRewrite_of_good hon hmode hother hgood hgoodInto hfree
  case blockFail =>
    intro b s v hon hgood hv
    refine ⟨execNandBlockFail_of_no_spare hon hgood, fun hspare hfew => ?few, fun hspare hmany => ?many⟩
    case few => exact (execNandBlockFail_of_spare hon hgood hspare hv).trans (congrArg done (if_pos hfew))
    case many => exact (execNandBlockFail_of_spare hon hgood hspare hv).trans (congrArg done (if_neg hmany.not_gt))
  case audit => exact fun s v hon htick hv hoffset hok => execFabricAudit_of_ok hon htick hv hoffset hok
  case sramNow => exact fun s hon => congrArg done (if_pos hon)
  case dramNow => exact fun s hon => congrArg done (if_pos hon)
  case nandNow => exact fun s hon => congrArg done (if_pos hon)
  case clear => exact fun s => rfl

end Sys2Proof.Machine
end

section
/-! Proofs/SillCommands: the real-time counter, its loads, alarms, wake events and drift, and the tamper logic (O43). -/

namespace Sys2Proof.Machine

/-! ## The real-time counter (R405 to R411) -/

/-- A read of RTC_TICK_HI with the requester's shadow open reads the shadow and closes it. -/
theorem readTickHi_of_shadow {q : Requester} {c : Nat} {t : List Nat} {s : State} (hshadow : tabGet? s.shadows (shadowKey 2 q) = some (c :: t)) :
    readTickHi s q = setReply { s with shadows := tabDel s.shadows (shadowKey 2 q) } [bitsOf c 32 16] := by
  unfold readTickHi; rw [hshadow]

/-- One with no shadow open reads the count. -/
theorem readTickHi_of_none {q : Requester} {s : State} (hshadow : tabGet? s.shadows (shadowKey 2 q) = none) :
    readTickHi s q = setReply s [bitsOf s.rtc.count 32 16] := by
  unfold readTickHi; rw [hshadow]

/-- LOAD with no load pending captures RTC_SET. -/
theorem rtcCapture_of_none {s : State} (hnone : s.rtc.pendLoad = none) :
    rtcCapture s = setF (startTime { s with rtc := { s.rtc with pendLoad := some (rtcSet s) } } tmLoad) Fld.RTC_CTRL_LOAD 1 := by
  unfold rtcCapture
  dsimp only
  rw [if_neg (by simp [hnone])]

/-- LOAD with one pending replaces it, and keeps the one replaced for this fabric cycle. -/
theorem rtcCapture_of_pending {s : State} (hpending : s.rtc.pendLoad ≠ none) (hasked : askedAgain s Fld.RTC_CTRL_LOAD = false) :
    rtcCapture s = setF (startTime { askAgain s Fld.RTC_CTRL_LOAD with
      rtc := { s.rtc with pendPrev := s.rtc.pendLoad, pendLoad := some (rtcSet s) } } tmLoad) Fld.RTC_CTRL_LOAD 1 := by
  unfold rtcCapture
  dsimp only
  rw [if_pos (by rw [hasked, Option.isSome_iff_ne_none.2 hpending]; rfl)]
  rfl

section
variable {v : Nat} {s : State} (hpending : s.rtc.pendLoad = some v)
include hpending

/-- The first tick edge after 1 µs takes the pending value. -/
theorem execRtcLoadApply_of_ran (hasked : askedAgain s Fld.RTC_CTRL_LOAD = false) (hran : timeRan s tmLoad usCycles = true) : execRtcLoadApply s =
    .next (incF (setF { s with rtc := { s.rtc with count := v % 2 ^ 48, frac := 0, pendLoad := none } } Fld.RTC_CTRL_LOAD 0) Fld.RTC_STAT_LOADS) := by
  unfold execRtcLoadApply
  rw [hpending]
  dsimp only
  rw [if_neg (by simp [hasked]), if_neg (by simp [hran])]

/-- A value replaced in this fabric cycle is taken still, and its successor waits. -/
theorem execRtcLoadApply_of_asked (hasked : askedAgain s Fld.RTC_CTRL_LOAD = true) : execRtcLoadApply s =
    .next (incF { takeAsk s Fld.RTC_CTRL_LOAD with rtc := { s.rtc with count := (s.rtc.pendPrev.getD v) % 2 ^ 48, frac := 0 } } Fld.RTC_STAT_LOADS) := by
  unfold execRtcLoadApply
  rw [hpending]
  exact if_pos hasked

end

/-- An alarm that is reached sets ALARM, clears ALARM_ARM, and acts by mode where it wakes. -/
theorem execRtcAlarmFire_of_reached {s : State} (harmed : getB s Fld.RTC_CTRL_ALARM_ARM = true) (hreached : rtcAlarm s ≤ s.rtc.count) {v : State}
    (hv : v = setF (latchF s Fld.RTC_CTRL_ALARM 1) Fld.RTC_CTRL_ALARM_ARM 0) :
    execRtcAlarmFire s = .next (if getB v Fld.RTC_CTRL_ALARM_WAKE then wakeEvent v 3 else v) := by
  subst hv
  exact if_pos (by simp [harmed, hreached])

section
variable (s : State) (cause : Nat)

/-- In Doze a wake event ends the mode. -/
theorem wakeEvent_of_doze (h : modeOf s = 4) : wakeEvent s cause = dozeWake s cause := by
  unfold wakeEvent; rw [h]; rfl

/-- In Vigil it is missed. -/
theorem wakeEvent_of_vigil (h : modeOf s = 5) : wakeEvent s cause = latchF s Fld.RTC_WAKE_MISSED 1 := by
  unfold wakeEvent; rw [h]; rfl

/-- In any other mode it is counted. -/
theorem wakeEvent_of_awake (hdoze : modeOf s ≠ 4) (hvigil : modeOf s ≠ 5) : wakeEvent s cause = incF s Fld.RTC_STAT_WAKES := by
  unfold wakeEvent
  split
  · exact absurd ‹_› hdoze
  · exact absurd ‹_› hvigil
  · rfl

end

/-- A wake event falls at a multiple of its period. -/
theorem execRtcWakeEvent_of_due {s : State} (hen : getB s Fld.RTC_WAKE_EN = true)
    (hdue : s.rtc.count % (max 1 (getF s Fld.RTC_WAKE_PERIOD) * 32768) = 0) : execRtcWakeEvent s = .next (wakeEvent s 2) :=
  if_pos (by simp only [hen, hdue, decide_true, Bool.and_self])

/-- The state with a drift measurement recorded, with what it was taken against, and its time begun anew. -/
def driftRecorded (s : State) (p : BitVec 24) : State :=
  startTime { setFs s [(Fld.RTC_DRIFT_PPM, p.toNat), (Fld.RTC_DRIFT_AGAINST_PTP, getF s Fld.NE_PTP_STAT_LOCKED), (Fld.RTC_DRIFT_FRESH, 1)] with
    rtc := { s.rtc with driftAt := some s.mono } } tmDrift

section
variable {p : BitVec 24} {s : State} (hmain : getB s Fld.PW_VMAIN_IN_RANGE = true) (hran : timeRan s tmDrift (100000 * msCycles) = true)
  (hforce : forcedOnce s .rtcDrift 0 = false)
include hmain hran hforce

/-- A drift within the limit is recorded. -/
theorem execRtcDriftMeasure_of_within (hlow : -10000 ≤ p.toInt) (hhigh : p.toInt ≤ 10000) :
    execRtcDriftMeasure p s = .next (driftRecorded s p) := by
  unfold execRtcDriftMeasure
  rw [if_neg (by simp [hmain, hran])]
  dsimp only
  rw [hforce]
  exact if_neg (by simp [hlow.not_gt, hhigh.not_gt])

/-- One beyond it raises its fault besides, when none has been raised lately. -/
theorem execRtcDriftMeasure_of_beyond (hbeyond : 10000 < p.toInt) (hnone : s.rtc.driftFault = none) : execRtcDriftMeasure p s =
    .next (raise { driftRecorded s p with rtc := { (driftRecorded s p).rtc with driftFault := some s.mono } } .rtcDrift) := by
  unfold execRtcDriftMeasure
  rw [if_neg (by simp [hmain, hran])]
  dsimp only
  rw [hforce]
  exact if_pos (by simp [hbeyond, hnone])

end

/-! ## Tamper (R423 to R429, R437) -/

/-- Of one source named, the ascending list of sources holds that one. -/
theorem filter_finRange_singleton : ∀ n : Fin 9, (List.finRange 9).filter (fun m => [n].contains m) = [n] := by decide

section
variable {n : Fin 9} {l : List TampRead} {s v : State}

/-- A source's readings that do not bear out its condition change nothing. -/
theorem tamperEvent_of_not_met (hmet : sourceMet s l n.val = false) :
    tamperEvent s [n] l = setF s Fld.TMP_LIVE_STATE (getF s Fld.TMP_LIVE_STATE) := by
  unfold tamperEvent
  rw [filter_finRange_singleton, List.filter_cons_of_neg (by simp [hmet])]
  rfl

section
variable (hmet : sourceMet s l n.val = true) (hv : v = setF s Fld.TMP_LIVE_STATE (setBit (getF s Fld.TMP_LIVE_STATE) n.val true))
include hmet hv

/-- The condition of a source that is not in use is shown live only. -/
theorem tamperEvent_of_unused (hen : getB s (Fld.TMP_SRC_EN n.val) = false) : tamperEvent s [n] l = v := by
  have hsources : [n].filter (fun m => sourceMet s l m.val) = [n] := List.filter_cons_of_pos hmet
  have hnone : ([n].map (fun m => m.val)).filter (fun m => getB s (Fld.TMP_SRC_EN m)) = [] := List.filter_cons_of_neg (ne_true_of_eq_false hen)
  unfold tamperEvent
  rw [filter_finRange_singleton, hsources]
  dsimp only
  rw [hnone, hv]
  rfl

/-- The condition of a source in use is its event, and by its ACTION asserts the Kerf line. -/
theorem tamperEvent_of_used (hen : getB s (Fld.TMP_SRC_EN n.val) = true) :
    tamperEvent s [n] l = if 2 ≤ tamperAction v n.val then kerf (tamperOne v n.val) else tamperOne v n.val := by
  have hsources : [n].filter (fun m => sourceMet s l m.val) = [n] := List.filter_cons_of_pos hmet
  have hused : ([n].map (fun m => m.val)).filter (fun m => getB s (Fld.TMP_SRC_EN m)) = [n.val] := List.filter_cons_of_pos hen
  unfold tamperEvent
  rw [filter_finRange_singleton, hsources]
  dsimp only
  rw [hused, hv]
  simp only [List.any_cons, List.any_nil, Bool.or_false, List.foldl_cons, List.foldl_nil]
  exact if_congr decide_eq_true_iff rfl rfl

end

end

/-- The Kerf line with no key command in progress. -/
theorem kerf_of_queue_nil {s : State} (hidle : s.se.queue = []) :
    kerf s = incSatF (latchF (wipeSecure (mapSe (clearMortise s) (fun e => { e with queue := [] }))) Fld.TMP_STAT_KERF 1) Fld.TMP_STAT_KERF_COUNT := by
  unfold kerf
  rw [hidle]
  rfl

/-- Settles O43, clause by clause. -/
theorem sillCommandsComplete : Obligations.SillCommandsComplete := by
  refine ⟨fun _ _ => rfl, ?hiShadow, ?hiLive, ?load, ?apply, ?alarm, ?wake, ?drift, ?tamper, ?tamperQuiet, fun _ _ => rfl, ?kerfAssert, ?wipeEnd,
    fun _ => rfl, ?clearLog, fun _ _ => rfl⟩
  case hiShadow => exact fun q c t s hshadow => congrArg done (readTickHi_of_shadow hshadow)
  case hiLive => exact fun q s hshadow => congrArg done (readTickHi_of_none hshadow)
  case load =>
    exact fun s => ⟨fun hnone => congrArg done (rtcCapture_of_none hnone), fun hpending hasked => congrArg done (rtcCapture_of_pending hpending hasked)⟩
  case apply => exact fun v s hpending => ⟨execRtcLoadApply_of_ran hpending, execRtcLoadApply_of_asked hpending⟩
  case alarm => exact fun s v harmed hreached hv => execRtcAlarmFire_of_reached harmed hreached hv
  case wake =>
    intro s hen hdue
    have hevent := execRtcWakeEvent_of_due hen hdue
    exact ⟨fun hdoze => hevent.trans (congrArg done (wakeEvent_of_doze s 2 hdoze)), fun hvigil => hevent.trans (congrArg done (wakeEvent_of_vigil s 2 hvigil)),
      fun hdoze hvigil => hevent.trans (congrArg done (wakeEvent_of_awake s 2 hdoze hvigil))⟩
  case drift =>
    rintro p s v hmain hran hforce rfl
    exact ⟨execRtcDriftMeasure_of_within hmain hran hforce, execRtcDriftMeasure_of_beyond hmain hran hforce⟩
  case tamper =>
    intro n l s v hmet hen hv
    have hevent := tamperEvent_of_used hmet hv hen
    exact ⟨fun hmild => congrArg done (hevent.trans (if_neg hmild.not_ge)), fun hgrave => congrArg done (hevent.trans (if_pos hgrave))⟩
  case tamperQuiet =>
    exact fun n l s => ⟨fun hmet hen => congrArg done (tamperEvent_of_unused hmet rfl hen), fun hmet => congrArg done (tamperEvent_of_not_met hmet)⟩
  case kerfAssert => exact fun s hidle => congrArg done (kerf_of_queue_nil hidle)
  case wipeEnd => exact fun s hran => if_pos hran
  case clearLog => exact fun s hlife => congrArg done (if_neg hlife)

end Sys2Proof.Machine
end

section
/-! Proofs/KeyAndLifeCommands: the key commands of Mortise, and the commands of the life cycle (O44). -/

namespace Sys2Proof.Machine

/-! ## Key commands (R419 to R422) -/

section
variable {q op key : Nat} {s u : State} (hu : u = setFs s [(Fld.KS_CMD_OP.bank q, op), (Fld.KS_CMD_KEY.bank q, key)])
include hu

/-- A command of a requester that is not BUSY is queued with the pair that KS_SEL names. -/
theorem keyIssue_of_idle (hop : op ≠ 0 ∧ op ≤ 7) (hidle : getB u (Fld.KS_CMD_BUSY.bank q) = false) :
    keyIssue s q op key = mapSe (setFs u [(Fld.KS_CMD_BUSY.bank q, 1), (Fld.KS_CMD_GO.bank q, 1)])
      (fun e => { e with queue := e.queue ++ [{ req := q, op := op, pair := getF u (Fld.KS_SEL_PAIR.bank q), key := key }] }) := by
  subst hu
  unfold keyIssue
  dsimp only
  rw [if_neg (ne_true_of_eq_false hidle), if_neg (by simpa using hop)]

/-- One of a BUSY requester only waits for a completion in its own fabric cycle. -/
theorem keyIssue_of_busy (hbusy : getB u (Fld.KS_CMD_BUSY.bank q) = true) : keyIssue s q op key = askAgain u (Fld.KS_CMD_GO.bank q) := by
  subst hu
  exact if_pos hbusy

end

/-- The command in front completes while SE runs, with its effect and its RESULT. -/
theorem execKeyCommandDone_of_runs {c : KeyCmd} {t : List KeyCmd} {r : Nat} {s u : State} (hqueue : s.se.queue = c :: t) (hruns : seRuns s = true)
    (heffect : keyEffect (mapSe s (fun e => { e with queue := t })) c = (u, r)) : execKeyCommandDone s =
    .next (keyAgain (setFs u [(Fld.KS_CMD_RESULT.bank c.req, r), (Fld.KS_CMD_BUSY.bank c.req, 0), (Fld.KS_CMD_GO.bank c.req, 0)]) c.req) := by
  unfold execKeyCommandDone
  rw [hqueue]
  dsimp only
  rw [if_neg (by simp [hruns]), heffect]
  rfl

/-- In Blank and Scrapped every key command is refused. -/
theorem keyEffect_of_refused {s : State} (hlife : getF s Fld.LC_STATE_STATE = 0 ∨ getF s Fld.LC_STATE_STATE = 4) (c : KeyCmd) :
    keyEffect s c = (s, 1) := by
  unfold keyEffect
  exact if_pos (by simpa using hlife)

section
variable {c : KeyCmd} {s : State} (hblank : getF s Fld.LC_STATE_STATE ≠ 0) (hscrapped : getF s Fld.LC_STATE_STATE ≠ 4)
include hblank hscrapped

/-- CLEAR_PAIR empties the pair. -/
theorem keyEffect_clearPair (hop : c.op = 5) : keyEffect s c = (setSlot s c.pair {}, 0) := by
  unfold keyEffect
  dsimp only
  rw [if_neg (by simp [hblank, hscrapped]), hop]
  rfl

/-- ACTIVATE is its completion. -/
theorem keyEffect_activate (hop : c.op = 3) : keyEffect s c = activateEnd s c := by
  unfold keyEffect
  dsimp only
  rw [if_neg (by simp [hblank, hscrapped]), hop]
  rfl

end

/-- ACTIVATE of a key that is there and whose check value is the one expected. -/
theorem activateEnd_of_expected {c : KeyCmd} {x : SlotPair} {s : State} (hx : x = slotAt s c.pair) (hkey : (x.key c.key).isSome = true)
    (hcheck : (if c.key = 0 then x.kcv0 else x.kcv1) = getF s (Fld.KS_EXPECT_CHECK.bank c.req)) : activateEnd s c =
    ((if bitOf x.policy 4 then dropOscore (setSlot s c.pair { x with active := c.key, gen := (x.gen + 1) % 4096 }) c.pair
      else setSlot s c.pair { x with active := c.key, gen := (x.gen + 1) % 4096 }), 0) := by
  subst hx
  have hthere : ¬ ((slotAt s c.pair).key c.key).isNone = true := by rw [Option.isNone_iff_eq_none]; exact Option.isSome_iff_ne_none.1 hkey
  unfold activateEnd
  dsimp only
  rw [if_neg hthere, if_neg (not_not_intro hcheck)]

/-! ## The life cycle (R430 to R434) -/

section
variable {s : State} (target op : Nat)

/-- With a valid nonce the signature decides, and the nonce is used. -/
theorem authorise_of_nonce (hnonce : s.se.nonceOk = true) :
    authorise s target op = (useNonce s, if sigOk s target op then none else some 3) := if_neg (by simp [hnonce])

/-- Without one nothing is authorised. -/
theorem authorise_of_no_nonce (hnonce : s.se.nonceOk = false) : authorise s target op = (s, some 4) := if_pos (by simp [hnonce])

end

/-- A transition that needs the owner's signature, and takes effect where its condition holds. -/
def signedTransition (s : State) (t : Nat) (ready : Bool) : State :=
  match authorise s t 2 with
  | (s, some r) => lcFields s 2 t r
  | (s, none) => if ready then enterLife (lcFields s 2 t 0) t else lcFields s 2 t 2

section
variable {s : State} (t : Nat) (ready : Bool)

/-- With a nonce it takes effect where the signature verifies and it is ready. -/
theorem signedTransition_of_nonce (hnonce : s.se.nonceOk = true) : signedTransition s t ready =
    if sigOk s t 2 then (if ready then enterLife (lcFields (useNonce s) 2 t 0) t else lcFields (useNonce s) 2 t 2)
    else lcFields (useNonce s) 2 t 3 := by
  unfold signedTransition
  rw [authorise_of_nonce t 2 hnonce]
  cases sigOk s t 2 <;> rfl

/-- Without one RESULT is 4. -/
theorem signedTransition_of_no_nonce (hnonce : s.se.nonceOk = false) : signedTransition s t ready = lcFields s 2 t 4 := by
  unfold signedTransition
  rw [authorise_of_no_nonce t 2 hnonce]

end

/-- The transitions of Table 9 that need the owner's signature; one to Deployed has a condition. -/
theorem lcTransition_of_signed {s : State} {t : Fin 8}
    (hrow : ((getF s Fld.LC_STATE_STATE = 1 ∨ getF s Fld.LC_STATE_STATE = 3) ∧ t = 2) ∨ (getF s Fld.LC_STATE_STATE = 2 ∧ t = 3) ∨
      ((getF s Fld.LC_STATE_STATE = 1 ∨ getF s Fld.LC_STATE_STATE = 2 ∨ getF s Fld.LC_STATE_STATE = 3) ∧ t = 4)) :
    lcTransition s t.val = signedTransition s t.val (if t = 2 then deployReady s else true) := by
  obtain ⟨hlife | hlife, rfl⟩ | ⟨hlife, rfl⟩ | ⟨hlife | hlife | hlife, rfl⟩ := hrow <;>
  · unfold lcTransition
    dsimp only
    rw [hlife]
    rfl

/-- Blank goes to Commission with the owner key taken and Mortise emptied, and to Scrapped; neither needs a signature. -/
theorem lcTransition_of_blank {s : State} (hblank : getF s Fld.LC_STATE_STATE = 0) :
    lcTransition s 1 = enterLife (clearMortise (mapSe (lcFields s 2 1 0) (fun e => { e with ownerKey := (lcSig s).take 13 }))) 1 ∧
    lcTransition s 4 = enterLife (lcFields s 2 4 0) 4 := by
  unfold lcTransition
  dsimp only
  rw [hblank]
  exact ⟨rfl, rfl⟩

/-- DEBUG_UNLOCK in Deployed, with a valid nonce, opens the debug path where the signature verifies. -/
theorem lcUnlock_of_deployed {u : State} (hdeployed : getF u Fld.LC_STATE_STATE = 2) (hnonce : u.se.nonceOk = true) : lcUnlock u =
    if sigOk u (getF u Fld.LC_CMD_TARGET) 3 then setF (lcFields (useNonce u) 3 (getF u Fld.LC_CMD_TARGET) 0) Fld.LC_STATE_DEBUG_OPEN 1
    else lcFields (useNonce u) 3 (getF u Fld.LC_CMD_TARGET) 3 := by
  unfold lcUnlock
  dsimp only
  rw [if_neg (not_not_intro hdeployed), authorise_of_nonce _ 3 hnonce]
  cases sigOk u (getF u Fld.LC_CMD_TARGET) 3 <;> rfl

/-- Settles O44, clause by clause. -/
theorem keyAndLifeCommandsComplete : Obligations.KeyAndLifeCommandsComplete := by
  refine ⟨?keyImport, ?generate, ?activate, ?keyClear, ?clearPair, ?readPublic, ?readId, ?keyDone, ?effectClearPair, ?effectActivate, ?effectRefused,
    fun _ => rfl, ?blank, ?signed, ?unlock, ?unlockRefused, ?lapse⟩
  case keyImport | generate | activate | keyClear | readPublic =>
    exact fun q k s u hu => ⟨fun hidle => congrArg done (keyIssue_of_idle hu (by decide) hidle), fun hbusy => congrArg done (keyIssue_of_busy hu hbusy)⟩
  case clearPair | readId =>
    exact fun q s u hu => ⟨fun hidle => congrArg done (keyIssue_of_idle hu (by decide) hidle), fun hbusy => congrArg done (keyIssue_of_busy hu hbusy)⟩
  case keyDone => exact fun c t r s u hqueue hruns heffect => execKeyCommandDone_of_runs hqueue hruns heffect
  case effectClearPair => exact fun c s hblank hscrapped hop => keyEffect_clearPair hblank hscrapped hop
  case effectActivate =>
    exact fun c x s hblank hscrapped hop hx hkey hcheck => (keyEffect_activate hblank hscrapped hop).trans (activateEnd_of_expected hx hkey hcheck)
  case effectRefused => exact fun c s hlife => keyEffect_of_refused hlife c
  case blank =>
    intro s hblank
    obtain ⟨hcommission, hscrapped⟩ := lcTransition_of_blank hblank
    exact ⟨congrArg done hcommission, congrArg done hscrapped⟩
  case signed =>
    intro t s hrow
    have hstep := lcTransition_of_signed hrow
    refine ⟨fun hnonce => congrArg done (hstep.trans ((signedTransition_of_nonce _ _ hnonce).trans ?_)),
      fun hnonce => congrArg done (hstep.trans (signedTransition_of_no_nonce _ _ hnonce))⟩
    by_cases ht : t = 2
    · cases deployReady s <;> simp [ht]
    · simp [ht]
  case unlock =>
    rintro s u rfl hdeployed hnonce
    exact congrArg done (lcUnlock_of_deployed hdeployed hnonce)
  case unlockRefused =>
    rintro s u rfl hlife
    exact congrArg done (if_pos hlife)
  case lapse => exact fun s hran => if_pos hran

end Sys2Proof.Machine
end

section
/-! Proofs/ModesAndResets: the mode commands, and the sources of a reset (O45, O46). -/

namespace Sys2Proof.Machine

/-! ## PW_MODE_CMD (R442 to R446) -/

section
variable {s : State} {target : Nat}

/-- From Commission, Run or Hold another of Commission and Run is accepted. -/
theorem commandMode_of_operating (hmode : modeOf s ≤ 2) (hother : modeOf s ≠ target) :
    commandMode s target = mapPw (modeFields s target 0) (fun p => { p with pendMode := some target }) := by
  have hnotSafe : modeOf s ≠ 3 := by omega
  unfold commandMode
  dsimp only
  rw [if_neg hnotSafe]
  exact if_pos (by simp [hmode, hother])

/-- From Safe with no other cause it is accepted and clears the COMMAND cause. -/
theorem commandMode_of_safe (hmode : modeOf s = 3) (hcause : safeCauseOther s = false) :
    commandMode s target = setF (mapPw (modeFields s target 0) (fun p => { p with pendMode := some target })) Fld.PW_MODE_SAFE_COMMAND 0 := by
  unfold commandMode
  dsimp only
  rw [if_pos hmode]
  exact if_neg (ne_true_of_eq_false hcause)

end

section
variable {s : State}

/-- Hold is accepted from Commission and Run outside Operational or with debugging open. -/
theorem modeCmd_hold (hmode : modeOf s = 0 ∨ modeOf s = 1) (hopen : getF s Fld.LC_STATE_STATE ≠ 2 ∨ getB s Fld.LC_STATE_DEBUG_OPEN = true) :
    modeCmd s 2 = mapPw (modeFields s 2 0) (fun p => { p with pendMode := some 2 }) :=
  if_pos (by simp only [Bool.and_eq_true, Bool.or_eq_true, decide_eq_true_eq]; exact ⟨hmode, hopen⟩)

/-- Safe is accepted, and its cause latched. -/
theorem modeCmd_safe (hmode : modeOf s ≤ 2) :
    modeCmd s 3 = setF (mapPw (modeFields s 3 0) (fun p => { p with pendMode := some 3 })) Fld.PW_MODE_SAFE_COMMAND 1 := if_pos hmode

/-- Doze is entered from Commission, Run or Safe with the scarf idle and a wake source armed. -/
theorem modeCmd_doze (hmode : modeOf s = 0 ∨ modeOf s = 1 ∨ modeOf s = 3) (hscarf : scfState s = 0) (harmed : wakeArmed s = true) :
    modeCmd s 4 = enterDoze (modeFields s 4 0) := by
  have hallowed : (modeOf s = 0 || modeOf s = 1 || modeOf s = 3) = true := by simpa [or_assoc] using hmode
  exact (if_neg (by rw [hallowed, hscarf]; decide)).trans (if_neg (by simp [harmed]))

end

/-- Main power lost in Doze: every domain but PD0 is off, the Sill domain is on VSILL, and the module is in Vigil. -/
theorem execVmainLossInDoze_of_doze {s : State} (hdoze : modeOf s = 4) : execVmainLossInDoze s = .next (incF (setFs (vigilStart (sillSwitch
      ([13, 12, 11, 10, 9, 8, 7, 6, 5, 4, 3, 2, 1].foldl powerDown
        { s with me := { s.me with dozeTo := some s.rtc.count }, pw := { s.pw with vmain := none, dozeDue := none } }) false))
    [(Fld.PW_MODE_MODE, 5), (Fld.PW_DOZE_LAST_EXIT, 5), (Fld.PW_VMAIN_IN_RANGE, 0)]) Fld.PW_MODE_CHANGES) := if_neg (not_not_intro hdoze)

/-- Settles O45, clause by clause. -/
theorem modeCommandsComplete : Obligations.ModeCommandsComplete := by
  refine ⟨?commission, ?run, ?hold, ?safe, ?doze, ?dozeExit, ?vmainLoss⟩
  case commission => exact fun s hmode hother => congrArg done (commandMode_of_operating hmode hother)
  case run =>
    exact fun s => ⟨fun hmode hother => congrArg done (commandMode_of_operating hmode hother),
      fun hmode hcause => congrArg done (commandMode_of_safe hmode hcause)⟩
  case hold => exact fun s hmode hopen => congrArg done (modeCmd_hold hmode hopen)
  case safe => exact fun s hmode => congrArg done (modeCmd_safe hmode)
  case doze => exact fun s hmode hscarf harmed => congrArg done (modeCmd_doze hmode hscarf harmed)
  case dozeExit => exact fun c s hdoze => if_pos hdoze
  case vmainLoss => exact fun s hdoze => execVmainLossInDoze_of_doze hdoze

/-! ## Reset sources (R455 to R473) -/

/-- The release of the last source that was held begins the stretch. -/
theorem sourceRelease_of_last {s : State} {i : Nat} (hheld : s.pw.held = [i]) (hphase : s.pw.phase = .asserted) :
    sourceRelease s i = startTime { s with pw := { s.pw with held := [], phase := .stretch } } tmStretch := by
  have hnone : s.pw.held.filter (· != i) = [] := by rw [hheld]; simp
  unfold sourceRelease mapPw
  dsimp only
  rw [hnone]
  exact if_pos (by simp [hphase])

/-- A pulse on nRESET, which the module does not drive, asserts source 3 and ends a Doze. -/
theorem execNresetPulse_of_free {s : State} (hfree : s.pw.nResetLow = false) (hran : timeRan s tmPin (50 * usCycles) = true) :
    execNresetPulse s = .next (assertReset (if modeOf s = 4 then setF s Fld.PW_DOZE_LAST_EXIT 4 else s) 3 true) :=
  if_neg (by simp [hfree, hran])

/-- The loss of clock 1, 2, 3 or 4 is counted, recorded with its error, and resets the module. -/
theorem clockLoss_of_reset {c : Nat} (hlow : 1 ≤ c) (hhigh : c ≤ 4) (err : Nat) (s : State) : clockLoss s c err =
    assertReset (mapPw (setDom (setF (incSatF s Fld.CLK_LOSS_EVENTS) Fld.CLK_LOSS_LAST c) Fld.CLK_STAT_STABLE c false)
      (fun p => { p with clkErr := tabSet 0 p.clkErr c err })) 5 true := by
  have hclock : c = 1 ∨ c = 2 ∨ c = 3 ∨ c = 4 := by omega
  obtain rfl | rfl | rfl | rfl := hclock <;> rfl

/-- BLOCK of an idle block of a powered domain, with no reset in progress. -/
theorem rstCmd_block {s : State} {b d : Nat} (hblock : blockDomain? b = some d) (hon : domainOn s d = true) (hidle : resetActive s = false)
    (hblockIdle : blockIdle s b = true) : rstCmd s 3 b = blockReset (rstFields s 3 b 0) b d := by
  unfold rstCmd
  rw [hblock]
  exact (if_neg (by simp [hon])).trans (if_neg (by simp [hidle, hblockIdle]))

/-- Settles O46, clause by clause. -/
theorem resetSourcesComplete : Obligations.ResetSourcesComplete := by
  refine ⟨fun _ => rfl, ?porRelease, ?release, ?pulse, ?pulseInDoze, ?coreUv, ?clock, ?overtemp, fun _ => rfl, ?watchdog, ?debug, fun _ => rfl,
    fun _ => rfl, ?block⟩
  case porRelease =>
    intro s hheld hphase
    refine (if_pos (by rw [hheld]; decide)).trans ?_
    exact congrArg done (sourceRelease_of_last (s := { s with rtc := { s.rtc with running := true } }) hheld hphase)
  case release => exact fun i s hheld hphase => congrArg done (sourceRelease_of_last hheld hphase)
  case pulse =>
    intro s hfree hran hawake
    refine (execNresetPulse_of_free hfree hran).trans ?_
    rw [if_neg hawake]
  case pulseInDoze =>
    intro s hfree hran hdoze
    refine (execNresetPulse_of_free hfree hran).trans ?_
    rw [if_pos hdoze]
  case coreUv => exact fun s hon => if_pos hon
  case clock => exact fun c err s hlow hhigh => congrArg done (clockLoss_of_reset hlow hhigh err.val s)
  case overtemp => exact fun s hon => if_pos hon
  case watchdog => exact fun s hruns => if_pos hruns
  case debug => exact fun s hon => if_pos hon
  case block => exact fun b d s hblock hon hidle hblockIdle => congrArg done (rstCmd_block hblock hon hidle hblockIdle)

end Sys2Proof.Machine
end

section
/-! Proofs/BringUpCommands: the stretch, the load, the boot image, DRAM, domain releases and the commit of the recorded configuration (O47). -/

namespace Sys2Proof.Machine

/-! ## The stretch and the load (R463 to R467) -/

section
variable {s : State} (hphase : s.pw.phase = .stretch) (hran : timeRan s tmStretch (stretchMs s * msCycles) = true)
include hphase hran

/-- The stretch ends: nRESET is released, and the load begins after L1 and L0, while after L2 bring-up goes on. -/
theorem execResetStretchEnd_of_ran : execResetStretchEnd s = .next (if s.pw.level ≤ 1 then
      recharge (startTime { s with pw := { s.pw with phase := .loading, nResetLow := false } } tmPin)
    else askBootCheck (debugPath (startTime { s with pw := { s.pw with phase := .boot, nResetLow := false } } tmPin))) := by
  unfold execResetStretchEnd
  rw [if_neg (by simp [hphase, hran])]
  exact (apply_ite done _ _ _).symm

end

section
variable {s : State} (hphase : s.pw.phase = .loading)
include hphase

/-- A load of which every part passes is over. -/
theorem execFuseLoadDone_of_passed (o t : Fin 3) : execFuseLoadDone true (some o) (some t) s = .next (loadOver s true (some o) (some t)) := by
  unfold execFuseLoadDone
  rw [if_neg (not_not_intro hphase)]
  rfl

/-- A failing load counts and waits; the third goes on with what passed, and latches the LOAD cause. -/
theorem execFuseLoadDone_of_failed {f : Bool} {o t : Option (Fin 3)} (hfailed : f = false ∨ o = none ∨ t = none) (hinv : Inv s) :
    execFuseLoadDone f o t s = .next (if getF s Fld.RST_LOAD_FAILS < 2 then
        startTime (mapPw (setF s Fld.RST_LOAD_FAILS (getF s Fld.RST_LOAD_FAILS + 1)) (fun p => { p with phase := .loadWait })) tmRetry
      else setF (loadOver (setF s Fld.RST_LOAD_FAILS 3) f o t) Fld.PW_MODE_SAFE_LOAD 1) := by
  have hnot : ¬ (f && o.isSome && t.isSome) = true := by obtain rfl | rfl | rfl := hfailed <;> simp
  have hcount : getF (setF s Fld.RST_LOAD_FAILS (satAt 3 (getF s Fld.RST_LOAD_FAILS + 1))) Fld.RST_LOAD_FAILS = satAt 3 (getF s Fld.RST_LOAD_FAILS + 1) :=
    getF_lt_setF hinv.regs _ _ (by unfold satAt; dsimp only; omega)
  unfold execFuseLoadDone
  dsimp only
  rw [if_neg (not_not_intro hphase), if_neg hnot, hcount]
  by_cases hfew : getF s Fld.RST_LOAD_FAILS < 2
  · have hsat : satAt 3 (getF s Fld.RST_LOAD_FAILS + 1) = getF s Fld.RST_LOAD_FAILS + 1 := by unfold satAt; omega
    rw [hsat, if_pos (by omega), if_pos hfew]
  · have hsat : satAt 3 (getF s Fld.RST_LOAD_FAILS + 1) = 3 := by unfold satAt; omega
    rw [hsat, if_neg (by decide), if_neg hfew]

end

/-! ## The boot image (R468) -/

/-- A return of pegs changes the outstanding grants and HELD alone. -/
theorem pegReturn_pw (s : State) (o : GovOp) : ∃ g, (pegReturn s o).pw = { s.pw with grants := g } := by
  unfold pegReturn
  split
  · exact ⟨_, rfl⟩
  · exact ⟨_, rfl⟩

section
variable {s : State} (hphase : s.pw.phase = .boot) (hgrant : s.pw.grants.contains .crypto = true)
include hphase hgrant

/-- An image that passes its check runs. -/
theorem execBootCheckDone_of_passed : execBootCheckDone true s =
    .next (bootRun (mapPw (pegReturn s .crypto) (fun p => { p with norOk := if p.checkB then (p.norOk.1, true) else (true, p.norOk.2) }))) := by
  unfold execBootCheckDone
  rw [if_neg (by rw [hphase, hgrant]; decide)]
  rfl

/-- One that fails gives way to the other, while that has not been tried. -/
theorem execBootCheckDone_of_other (hother : s.pw.triedOther = false) :
    ∃ t, execBootCheckDone false s = .next t ∧ t.pw.checkB = !s.pw.checkB ∧ t.pw.triedOther = true ∧ t.pw.phase = .boot := by
  obtain ⟨g, hpw⟩ := pegReturn_pw s .crypto
  have hcheck : (pegReturn s .crypto).pw.checkB = s.pw.checkB := by rw [hpw]
  have htried : (pegReturn s .crypto).pw.triedOther = false := by rw [hpw]; exact hother
  have hboot : (pegReturn s .crypto).pw.phase = .boot := by rw [hpw]; exact hphase
  unfold execBootCheckDone
  rw [if_neg (by rw [hphase, hgrant]; decide)]
  refine ⟨_, (if_neg Bool.false_ne_true).trans (if_pos (by simp [mapPw, htried])), ?_, rfl, hboot⟩
  exact congrArg (!·) hcheck

end

/-- A recovery image is valid in the slot that the ROM did not start from, and the module resets at L1. -/
theorem execBootRecoveryImage_of_recovery {s : State} (hphase : s.pw.phase = .recovery) :
    ∃ u, u.pw.norOk = (if s.pw.prefB then (true, s.pw.norOk.2) else (s.pw.norOk.1, true)) ∧ u.regs = s.regs ∧
      execBootRecoveryImage true s = .next (setF (incF (beginReset u 1 false) Fld.RST_COUNT_RESETS) Fld.RST_CAUSE_LEVEL 1) := by
  refine ⟨_, ?_, ?_, if_neg (by simp [hphase])⟩
  · show (if (!s.pw.prefB) = true then (s.pw.norOk.1, true) else (true, s.pw.norOk.2)) = _
    cases s.pw.prefB <;> rfl
  · rfl

/-! ## DRAM (R469) -/

section
variable {s : State} (hwf : regsWf s = true)
include hwf

/-- A field other than the mode leaves the mode. -/
theorem modeOf_setF {f : RF} (hf : f.key ≠ Fld.PW_MODE_MODE.key) (v : Nat) : modeOf (setF s f v) = modeOf s := getF_setF_ne hwf v hf

/-- Fields other than the mode leave the mode. -/
theorem modeOf_setFs {l : List (RF × Nat)} (hl : ∀ p ∈ l, p.1.key ≠ Fld.PW_MODE_MODE.key) : modeOf (setFs s l) = modeOf s := getF_setFs_ne l hwf hl

theorem modeOf_dramStat : modeOf (dramStat s) = modeOf s :=
  modeOf_setFs hwf (by simp only [List.forall_mem_cons]; decide)

theorem modeOf_nandStat : modeOf (nandStat s) = modeOf s :=
  modeOf_setFs hwf (by simp only [List.forall_mem_cons]; decide)

theorem modeOf_pegReturn (o : GovOp) : modeOf (pegReturn s o) = modeOf s := by
  unfold pegReturn
  split
  · exact modeOf_setF (s := mapPw s _) hwf (by decide) _
  · rfl

theorem modeOf_eraseBlock (b : Nat) : modeOf (eraseBlock s b) = modeOf s := by
  unfold eraseBlock maxF
  dsimp only
  split
  · exact modeOf_setF (s := mapMem s _) hwf (by decide) _
  · rfl

end

/-- The end of a refresh leaves the mode. -/
theorem modeOf_refreshEnd {s : State} (hinv : Inv s) : modeOf (refreshEnd s) = modeOf s := by
  unfold refreshEnd
  split
  · rfl
  · rename_i b i htwin
    have hcleared : Kept s (mapMem s (fun m => { m with twin := none, refresh := m.refresh.filter (· != b) })) := ⟨id, rfl, le_rfl, le_rfl⟩
    have herased := (eraseBlock_kept b hcleared).inv hinv
    exact (modeOf_setF herased.regs (by decide) _).trans (modeOf_eraseBlock (hcleared.inv hinv).regs b)

/-- What DRAM_TRAIN_DONE makes ready: the pegs of DRAM returned, its wipe over. -/
def dramReadied (s : State) : State :=
  setFs (setDom (pegReturn s .dram) Fld.MEM_STAT_WIPING 5 false) [(Fld.MEM_STAT_DRAM_READY, 1), (Fld.MEM_STAT_SELF_REFRESH, 0), (Fld.MEM_STAT_NAND_READY, 1)]

theorem dramReadied_kept (s : State) : Kept s (dramReadied s) := setFs_kept (setF_kept (pegReturn_kept .dram (Kept.refl s)) _ _) _

theorem modeOf_dramReadied {s : State} (hinv : Inv s) : modeOf (dramReadied s) = modeOf s := by
  have hreturned := ((pegReturn_kept .dram (Kept.refl s)).inv hinv).regs
  exact ((modeOf_setFs (regsWf_setF hreturned _ _) (by decide)).trans (modeOf_setF hreturned (by decide) _)).trans (modeOf_pegReturn hinv.regs .dram)

/-- DRAM is trained after bring-up: it is ready with NAND, and a refresh that was cut short ends. -/
theorem execDramTrainDone_of_awake {s : State} (hgrant : s.pw.grants.contains .dram = true) (hmode : modeOf s ≠ 7) (hinv : Inv s) :
    execDramTrainDone s = .next (refreshEnd (nandStat (dramStat (dramReadied s)))) := by
  have hready := (dramReadied_kept s).inv hinv
  have hdram := (dramStat_kept (dramReadied_kept s)).inv hinv
  have hnand := (nandStat_kept (dramStat_kept (dramReadied_kept s))).inv hinv
  have hafter : modeOf (refreshEnd (nandStat (dramStat (dramReadied s)))) = modeOf s := by
    rw [modeOf_refreshEnd hnand, modeOf_nandStat hdram.regs, modeOf_dramStat hready.regs, modeOf_dramReadied hinv]
  unfold execDramTrainDone
  rw [if_neg (by rw [hgrant]; decide)]
  exact if_pos (by rw [← hafter] at hmode; exact hmode)

/-! ## Domain releases (R471, R476) -/

/-- The release of a whole domain ends its wait, makes its clocks stable, and starts what it starts. -/
theorem execDomainRelease_of_whole {d : Fin 14} {s : State} (hpending : bitOf (getF s Fld.CLK_PEND_RELEASE_PENDING) d.val = true)
    (hon : domainOn s d.val = true) (hforce : forcedOnce s .clkAbandon d.val = false) (hran : timeRan s (tmRelease d.val) (holdCycles s d.val) = true)
    (hwhole : bitOf s.pw.domsHeld d.val = true) (hinv : Inv s) :
    execDomainRelease d s = .next (releaseWhole (setF (mapPw (setDom s Fld.CLK_PEND_RELEASE_PENDING d.val false)
      (fun p => { p with domsHeld := setBit p.domsHeld d.val false, blocksHeld := p.blocksHeld.filter (fun b => blockDomain? b != some d.val) }))
      Fld.CLK_STAT_STABLE ((domainClocks d.val).foldl (fun m c => setBit m c true) (getF s Fld.CLK_STAT_STABLE))) d.val) := by
  have hstable : getF (mapPw (setDom s Fld.CLK_PEND_RELEASE_PENDING d.val false)
      (fun p => { p with domsHeld := setBit p.domsHeld d.val false, blocksHeld := p.blocksHeld.filter (fun b => blockDomain? b != some d.val) }))
      Fld.CLK_STAT_STABLE = getF s Fld.CLK_STAT_STABLE := getF_setF_ne hinv.regs _ (by decide)
  unfold execDomainRelease
  dsimp only
  rw [if_neg (by simp [hpending, hon, hforce, hran]), hstable]
  exact if_pos hwhole

/-- A timed-out release of PD5 to PD13 powers the domain down as abandoned. -/
theorem execReleaseTimeout_of_abandoned {d : Fin 14} {s : State} (hdomain : 5 ≤ d.val)
    (hpending : bitOf (getF s Fld.CLK_PEND_RELEASE_PENDING) d.val = true) (hran : timeRan s (tmRelease d.val) (2 * msCycles) = true)
    (hforce : forced (raise s .clkAbandon d.val) .clkAbandon d.val = false) :
    execReleaseTimeout d s = .next (latchF (powerDown (raise s .clkAbandon d.val) d.val) Fld.CLK_PEND_ABANDONED (2 ^ d.val)) := by
  unfold execReleaseTimeout
  dsimp only
  rw [if_neg (by simp [hpending, hran]), if_pos hdomain, if_neg (ne_true_of_eq_false hforce)]

/-- RETRY of an abandoned domain asks for it again. -/
theorem clkCmd_retry {d : Nat} {s : State} (hlow : 5 ≤ d) (hhigh : d ≤ 13) (habandoned : bitOf (getF s Fld.CLK_PEND_ABANDONED) d = true) :
    clkCmd s 1 d = requestDomain (setDom (setFs s [(Fld.CLK_CMD_OP, 1), (Fld.CLK_CMD_RESULT, 0), (Fld.CLK_CMD_DOMAIN, d), (Fld.CLK_CMD_BUSY, 0),
      (Fld.CLK_CMD_GO, 0)]) Fld.CLK_PEND_ABANDONED d false) d :=
  if_pos (by simp [hlow, hhigh, habandoned])

/-! ## The recorded configuration (R443, 17 R534) -/

/-- The commit of a recorded configuration whose images are all good, into a mode other than Safe. -/
theorem configCommit_of_recorded {s : State} {c : ConfigRec} {bad : List Nat} (hdue : s.pw.configDue = true) (hlife : getF s Fld.LC_STATE_STATE ≠ 4)
    (hnand : s.scf.nand = some c) (hgood : badImages s bad = []) (hmode : (bringUpMode (restoreRegs s c.regs)).1 ≠ 3) :
    configCommit s bad = confirmBoot (releaseAll (restoreConfig s
      (putMode (mapPw (restoreRegs s c.regs) (fun p => { p with configDue := false, pendMode := none })) (bringUpMode (restoreRegs s c.regs)).1)
      { c with defs := usableDefs s c.defs [] } (bringUpMode (restoreRegs s c.regs)).2)) := by
  unfold configCommit
  rw [if_neg (by simp [hdue]), if_neg hlife, if_neg hlife, hnand, hgood]
  exact congrArg (fun t => confirmBoot (releaseAll t)) (if_neg (by simp [hmode]))

/-- With no image stored none is bad. -/
theorem badImages_of_stored_nil {s : State} (h : s.scf.stored = []) (bad : List Nat) : badImages s bad = [] := by
  unfold badImages; rw [h]; rfl

/-- CONFIG_COMMIT with images stored runs under SE's pegs. -/
theorem execConfigCommit_of_stored {s : State} (hdue : s.pw.configDue = true) (hstored : s.scf.stored ≠ []) (tags : List (Fin 4096)) :
    execConfigCommit tags s = .next (withGrant s .crypto (fun u => configCommit u (tags.map (fun b => b.val)))) := by
  unfold execConfigCommit
  rw [if_neg (by simp [hdue]), if_neg (by simpa using hstored)]

/-- Settles O47, clause by clause. -/
theorem bringUpCommandsComplete : Obligations.BringUpCommandsComplete := by
  refine ⟨?stretchCold, ?stretchWarm, ?loaded, ?loadFailed, ?loadRetry, ?bootPassed, ?bootOther, ?recovery, ?dram, ?release, ?timeout, ?retry, ?commit,
    ?commitGranted, ?commitWaits⟩
  case stretchCold => exact fun s hphase hran hlevel => (execResetStretchEnd_of_ran hphase hran).trans (congrArg done (if_pos hlevel))
  case stretchWarm => exact fun s hphase hran hlevel => (execResetStretchEnd_of_ran hphase hran).trans (congrArg done (if_neg (by omega)))
  case loaded => exact fun o t s hphase => execFuseLoadDone_of_passed hphase o t
  case loadFailed => exact fun f o t s hphase hfailed hinv => execFuseLoadDone_of_failed hphase hfailed hinv
  case loadRetry => exact fun s hphase hran => if_pos (by simp [hphase, hran])
  case bootPassed => exact fun s hphase hgrant => execBootCheckDone_of_passed hphase hgrant
  case bootOther => exact fun s hphase hgrant hother => execBootCheckDone_of_other hphase hgrant hother
  case recovery => exact fun s hphase => execBootRecoveryImage_of_recovery hphase
  case dram => exact fun s hgrant hmode hinv => execDramTrainDone_of_awake hgrant hmode hinv
  case release => exact fun d s hpending hon hforce hran hwhole hinv => execDomainRelease_of_whole hpending hon hforce hran hwhole hinv
  case timeout => exact fun d s hdomain hpending hran hforce => execReleaseTimeout_of_abandoned hdomain hpending hran hforce
  case retry => exact fun d s hlow hhigh habandoned => congrArg done (clkCmd_retry hlow hhigh habandoned)
  case commit =>
    intro tags c s hdue hstored hlife hnand hmode
    have hcommit := configCommit_of_recorded hdue hlife hnand (badImages_of_stored_nil hstored (tags.map (fun b => b.val))) hmode
    refine (if_neg (by simp [hdue])).trans ((if_pos (by simp [hstored])).trans (congrArg done hcommit))
  case commitGranted =>
    intro tags c s u hdue hstored hgrant hdue' hlife hnand hgood hmode
    refine (execConfigCommit_of_stored hdue hstored tags).trans (congrArg done ((withGrant_granted hgrant _).trans ?_))
    rw [configCommit_of_recorded hdue' hlife hnand hgood hmode]
  case commitWaits =>
    exact fun tags s u hdue hstored hgrant => (execConfigCommit_of_stored hdue hstored tags).trans (congrArg done (withGrant_waits hgrant _))

end Sys2Proof.Machine
end

section
/-! Proofs/GovernorCommands: the Draw Governor, power failure and VMAIN's return, the steps of saturation, VIO33 (O48). -/

namespace Sys2Proof.Machine

/-! ## The Draw Governor (14 R448 to R452) -/

/-- A domain that is off asks, and is the whole order when nothing waits. -/
theorem execPegRequest_domain {d : Fin 14} {s : State} (hdoze : modeOf s ≠ 4) (hvigil : modeOf s ≠ 5) (hoff : domainOn s d.val = false)
    (hnone : s.pw.waiting = []) : execPegRequest (.domain d) s =
      .next { s with pw := { s.pw with waiting := [{ op := .domain d, cls := 1, since := s.mono }] } } := by
  have hasked : requestDomain s d.val = govRequest s (.domain d) := by
    unfold requestDomain
    rw [dif_pos d.isLt, if_neg (by simp [hoff, hnone])]
  have halone : govRequest s (.domain d) = { s with pw := { s.pw with waiting := [{ op := .domain d, cls := 1, since := s.mono }] } } :=
    congrArg (fun w => { s with pw := { s.pw with waiting := insertReq { op := .domain d, cls := 1, since := s.mono } w } }) hnone
  exact (if_neg (by simp [hdoze, hvigil])).trans (congrArg done (hasked.trans halone))

/-- An operation in a powered domain asks; the full front end starts as it asks. -/
theorem execPegRequest_op {o : GovOp} {s : State} (hdomain : ∀ d, o ≠ .domain d) (hserdes : ∀ m, o ≠ .serdes m) (hon : domainOn s (opDomain o) = true)
    (hfront : o = .frontEnd → getB s Fld.MT_STAT_STARTING = false ∧ getB s Fld.MT_STAT_FULL_PATH = false) :
    execPegRequest o s = .next (govRequest (if o = .frontEnd then setF s Fld.MT_STAT_STARTING 1 else s) o) := by
  cases o with
  | domain d => exact absurd rfl (hdomain d)
  | serdes m => exact absurd rfl (hserdes m)
  | frontEnd =>
    obtain ⟨hstarting, hfull⟩ := hfront rfl
    have hasks : (domainOn s 9 && !getB s Fld.MT_STAT_STARTING && !getB s Fld.MT_STAT_FULL_PATH) = true := by
      rw [show domainOn s 9 = true from hon, hstarting, hfull]; rfl
    exact if_pos hasks
  | wake _ | dram | nand | crypto | refresh | nandFail => exact if_pos hon

/-- The request joins the order last of its class, whether or not the front end is marked as starting. -/
theorem waiting_govRequest_starting (o : GovOp) (s : State) : (govRequest (if o = .frontEnd then setF s Fld.MT_STAT_STARTING 1 else s) o).pw.waiting =
    insertReq { op := o, cls := o.cls, since := s.mono } s.pw.waiting := by
  split <;> rfl

/-- The first request, where it fits, is granted and starts. -/
theorem execPegGrant_of_fits {r : GovReq} {w : List GovReq} {s : State} (hwaiting : s.pw.waiting = r :: w)
    (hfits : getF s Fld.PW_GOV_HELD + opPegs s r.op ≤ getF s Fld.PW_BUDGET_BUDGET) : execPegGrant s = .next (startOp (govTake s r) r.op) := by
  have hnext : govNext? s = some r := by
    unfold govNext?
    rw [hwaiting]
    exact if_pos hfits
  unfold execPegGrant
  rw [hnext]

section
variable {o : GovOp} {s : State} (hgrant : s.pw.grants.contains o = true)
include hgrant

/-- An outstanding grant leaves the list, and its pegs come back. -/
theorem pegReturn_of_granted : pegReturn s o =
    setF { s with pw := { s.pw with grants := s.pw.grants.erase o } } Fld.PW_GOV_HELD (getF s Fld.PW_GOV_HELD - grantPegs o) := if_pos hgrant

/-- What ends neither a wake nor a refresh only gives its pegs back. -/
theorem execPegReturn_op (hwake : ∀ d, o ≠ .wake d) (hrefresh : o ≠ .refresh) : execPegReturn o s =
    .next (setF { s with pw := { s.pw with grants := s.pw.grants.erase o } } Fld.PW_GOV_HELD (getF s Fld.PW_GOV_HELD - grantPegs o)) := by
  rw [← pegReturn_of_granted hgrant]
  cases o with
  | wake d => exact absurd rfl (hwake d)
  | refresh => exact absurd rfl hrefresh
  | domain _ | serdes _ | frontEnd | dram | nand | crypto | nandFail => rfl

end

section
variable {i : Fin 64} {r : GovReq} {s : State} (hplace : s.pw.waiting[i.val]? = some r) (hclass : r.cls ≠ 0)
include hplace hclass

/-- The request at the place moves up one class, last among it. -/
theorem ageReq_of_class : ageReq i.val s.pw.waiting = insertReq { r with cls := r.cls - 1 } (s.pw.waiting.eraseIdx i.val) := by
  unfold ageReq
  rw [hplace]
  exact if_neg hclass

/-- Ageing that is due moves the request up and counts it. -/
theorem execPegAgeing_of_due (hdue : ageDue s r = true) : execPegAgeing i s = .next (incSatF { s with pw := { s.pw with
    waiting := insertReq { r with cls := r.cls - 1 } (s.pw.waiting.eraseIdx i.val) } } Fld.PW_GOV_STAT_AGED) := by
  unfold execPegAgeing
  rw [hplace]
  exact (if_neg (by simp [hclass, hdue])).trans
    (congrArg (fun w => done (incSatF { s with pw := { s.pw with waiting := w } } Fld.PW_GOV_STAT_AGED)) (ageReq_of_class hplace hclass))

end

/-- The audit with no offset in force: pegs that match change nothing, a mismatch sets AUDIT_FAIL and raises its fault. -/
theorem execGovAudit_of_unforced {s : State} (hon : domainOn s 4 = true) (hgrid : s.tick % 400 = 0) (hoffset : (takeOffset s .govAudit 0).1 = 0)
    (hkept : (takeOffset s .govAudit 0).2 = s) : execGovAudit s =
      .next (if getF s Fld.PW_GOV_HELD = standingSum (getF s Fld.PW_CFG_PROFILE) (getF s Fld.PW_PD_ON) 14 + transientSum s.pw.grants ∧
          getF s Fld.PW_GOV_HELD ≤ getF s Fld.PW_BUDGET_BUDGET then s
        else raise (latchF s Fld.PW_GOV_AUDIT_FAIL 1) .govAudit) := by
  have hnothing : takeOffset s .govAudit 0 = (0, s) := Prod.ext hoffset hkept
  unfold execGovAudit
  rw [if_neg (by simp [hon, hgrid]), hnothing]
  simp only [Nat.add_zero, Bool.and_eq_true, decide_eq_true_eq]
  exact (apply_ite done _ _ _).symm

/-! ## Loss and return of VMAIN (14 R453, R454) -/

/-- PW_VMAIN and WARNINGS as the warning writes them. -/
def vmainWarned (s : State) (mv : Nat) : State :=
  incSatF (setFs s [(Fld.PW_VMAIN_MV, mv), (Fld.PW_VMAIN_IN_RANGE, 0), (Fld.PW_VMAIN_WARN, 1)]) Fld.PW_VMAIN_WARNINGS

theorem modeOf_vmainWarned {s : State} (hinv : Inv s) (mv : Nat) : modeOf (vmainWarned s mv) = modeOf s := by
  let l : List (RF × Nat) := [(Fld.PW_VMAIN_MV, mv), (Fld.PW_VMAIN_IN_RANGE, 0), (Fld.PW_VMAIN_WARN, 1)]
  have hkeys : ∀ p ∈ l, p.1.key ≠ Fld.PW_MODE_MODE.key := by simp only [l, List.forall_mem_cons]; decide
  have hset : Inv (setFs s l) := (setFs_kept (Kept.refl s) l).inv hinv
  exact (modeOf_setF hset.regs (by decide) _).trans (modeOf_setFs hinv.regs hkeys)

/-- Steps 1 and 2 of the power-fail sequence, from the state that the warning is recorded in. -/
def failStep2 (v : State) : State :=
  [6, 7, 8, 11, 12].foldl powerDown (mapPw v (fun p => { p with failStep := 2, failAt := v.mono, vmainBack := false, vmain := none, modeDram := some (modeRecord v) }))

/-- ME's part of the warning, while PD9 is powered: its partial cycles and its open events are closed. -/
def failClosed (ps : List (Fin 4 × SetCycle)) (u : State) : State :=
  (List.range 4).foldl (fun u n => closeEvents u n 1)
    (ps.foldl (fun u nd => if getB u Fld.MT_STAT_FULL_PATH then closePartial u nd.1.val nd.2 else u) u)

/-- VMAIN out of its limits in a mode of operation records the warning and starts the sequence. -/
theorem execPowerFailWarning_of_bad {mv : Fin 32768} {s : State} (hmode : modeOf s ≤ 3) (hstep : s.pw.failStep = 0) (hbad : vmainBad mv.val = true)
    (hinv : Inv s) (ps : List (Fin 4 × SetCycle)) : execPowerFailWarning mv ps s =
      .next (if domainOn (failStep2 (vmainWarned s mv.val)) 9 then failClosed ps (failStep2 (vmainWarned s mv.val)) else failStep2 (vmainWarned s mv.val)) := by
  have hcloses : ∀ u, (if !domainOn u 9 then done u else done (failClosed ps u)) = .next (if domainOn u 9 then failClosed ps u else u) := by
    intro u
    cases domainOn u 9 <;> rfl
  have hrecords : (if modeOf (vmainWarned s mv.val) ≤ 3 then some (modeRecord (vmainWarned s mv.val)) else (vmainWarned s mv.val).pw.modeDram) =
      some (modeRecord (vmainWarned s mv.val)) := if_pos ((modeOf_vmainWarned hinv mv.val).symm ▸ hmode)
  rw [← hcloses]
  unfold execPowerFailWarning failStep2
  rw [if_neg (by simp [hstep, hbad]; omega), ← hrecords]
  rfl

/-- The end of hold-up leads to Vigil. -/
theorem execHoldUpEnd_of_failing {s : State} (hstep : s.pw.failStep ≠ 0) : execHoldUpEnd s = .next (failStep7 (powerDown s 10)) := if_neg hstep

/-- PW_VMAIN as a return of VMAIN leaves it. -/
def vmainShown (s : State) (mv : Nat) : State :=
  setFs { s with pw := { s.pw with vmain := some mv } } [(Fld.PW_VMAIN_MV, mv), (Fld.PW_VMAIN_IN_RANGE, 1)]

section
variable {mv : Fin 32768} {s : State} (hin : vmainIn mv.val = true)
include hin

/-- VMAIN's return is shown; then the sequence, the switch or the reset follows. -/
theorem execVmainReturn_of_in : execVmainReturn mv s = if s.pw.failStep ≠ 0 then done (mapPw (vmainShown s mv.val) (fun p => { p with vmainBack := true }))
    else if getB (vmainShown s mv.val) Fld.PW_SILL_ON_MAIN then done (vmainShown s mv.val)
    else done (assertReset (sillSwitch (vmainShown s mv.val) true) 1) := by
  unfold execVmainReturn
  exact if_neg (by simp [hin])

/-- With no sequence running and the Sill rail on VSILL, the module resets at source 1. -/
theorem execVmainReturn_of_vigil (hstep : s.pw.failStep = 0) (hsill : getB s Fld.PW_SILL_ON_MAIN = false) (hinv : Inv s) :
    execVmainReturn mv s = .next (assertReset (sillSwitch (vmainShown s mv.val) true) 1) := by
  have hkeys : ∀ p ∈ [(Fld.PW_VMAIN_MV, mv.val), (Fld.PW_VMAIN_IN_RANGE, 1)], p.1.key ≠ Fld.PW_SILL_ON_MAIN.key := by
    simp only [List.forall_mem_cons]; decide
  have hshown : getB (vmainShown s mv.val) Fld.PW_SILL_ON_MAIN = false :=
    (congrArg (· == 1) (getF_setFs_ne _ (s := { s with pw := { s.pw with vmain := some mv.val } }) hinv.regs hkeys)).trans hsill
  rw [execVmainReturn_of_in hin, if_neg (not_not_intro hstep), if_neg (by simp [hshown])]

/-- During the sequence VMAIN's return waits for its end. -/
theorem execVmainReturn_of_failing (hstep : s.pw.failStep ≠ 0) :
    execVmainReturn mv s = .next (mapPw (vmainShown s mv.val) (fun p => { p with vmainBack := true })) :=
  (execVmainReturn_of_in hin).trans (if_pos hstep)

end

/-! ## Saturation and VIO33 (15 R498, R499; 16 R515) -/

/-- The step now ending has shed work. -/
def stepSheds (s : State) : Bool :=
  !s.shed.ctx.isEmpty || s.shed.bb || s.shed.floor || s.shed.obs || s.shed.truss || forced s .saturated 0

/-- The contexts from `lo` on that the step has shed, as a mask of 32. -/
def shedMask (s : State) (lo : Nat) : Nat := (s.shed.ctx.filter (fun c => lo ≤ c && c < lo + 32)).foldl (fun m c => setBit m (c - lo) true) 0

/-- FLT_SAT at the end of a step with `n` shed and `q` quiet steps: what was shed is shown and begins anew. -/
def satCounted (s : State) (n q : Nat) : State :=
  setFs { s with shed := {} } [(Fld.FLT_SAT_SHED_STEPS, n), (Fld.FLT_SAT_QUIET_STEPS, q), (Fld.FLT_SAT_FLOOR, b2n s.shed.floor),
    (Fld.FLT_SAT_BACKBONE, b2n s.shed.bb), (Fld.FLT_SAT_NE_QUEUE, b2n s.shed.obs), (Fld.FLT_SAT_SMALL, b2n s.shed.truss),
    (Fld.FLT_SAT_CTX_LO_CONTEXTS, shedMask s 0), (Fld.FLT_SAT_CTX_HI_CONTEXTS, shedMask s 32)]

section
variable {s : State} {n q : Nat} (hgrid : s.tick % 400 = 0) (hwas : getB s Fld.FLT_SAT_SATURATED = false)
include hgrid hwas

/-- A step that ends outside saturation counts, and saturates at 20 shed steps. -/
theorem execSatStep_of_unsaturated (hn : (if stepSheds s then satAt 31 (getF s Fld.FLT_SAT_SHED_STEPS + 1) else 0) = n)
    (hq : (if stepSheds s then 0 else satAt 127 (getF s Fld.FLT_SAT_QUIET_STEPS + 1)) = q) :
    execSatStep s = .next (if 20 ≤ n then raise (setF (satCounted s n q) Fld.FLT_SAT_SATURATED 1) .saturated else satCounted s n q) := by
  have hends : execSatStep s = if !false && decide (20 ≤ n) then done (raise (setF (satCounted s n q) Fld.FLT_SAT_SATURATED 1) .saturated)
      else done (satCounted s n q) := by
    subst hn hq
    unfold execSatStep
    rw [hwas]
    exact if_neg (not_not_intro hgrid)
  rw [hends, apply_ite Host.Outcome.next]
  simp [done]

/-- A step that shed nothing is quiet. -/
theorem execSatStep_of_quiet (hshed : s.shed = {}) (hforced : forced s .saturated 0 = false) :
    execSatStep s = .next (satCounted s 0 (satAt 127 (getF s Fld.FLT_SAT_QUIET_STEPS + 1))) := by
  have hsheds : stepSheds s = false := by simp [stepSheds, hshed, hforced]
  rw [execSatStep_of_unsaturated hgrid hwas (by rw [hsheds]) (by rw [hsheds])]
  rfl

/-- The 20th shed step saturates. -/
theorem execSatStep_of_twentieth (hfloor : s.shed.floor = true) (hsteps : getF s Fld.FLT_SAT_SHED_STEPS = 19) :
    execSatStep s = .next (raise (setF (satCounted s 20 0) Fld.FLT_SAT_SATURATED 1) .saturated) := by
  have hsheds : stepSheds s = true := by simp [stepSheds, hfloor]
  rw [execSatStep_of_unsaturated hgrid hwas (by rw [hsheds, hsteps]) (by rw [hsheds])]
  rfl

end

/-- With nothing shed, FLT_SAT shows nothing. -/
theorem satCounted_of_nothing {s : State} (hshed : s.shed = {}) (n q : Nat) : satCounted s n q = setFs { s with shed := {} } [(Fld.FLT_SAT_SHED_STEPS, n),
    (Fld.FLT_SAT_QUIET_STEPS, q), (Fld.FLT_SAT_FLOOR, 0), (Fld.FLT_SAT_BACKBONE, 0), (Fld.FLT_SAT_NE_QUEUE, 0), (Fld.FLT_SAT_SMALL, 0),
    (Fld.FLT_SAT_CTX_LO_CONTEXTS, 0), (Fld.FLT_SAT_CTX_HI_CONTEXTS, 0)] := by
  unfold satCounted shedMask
  rw [hshed]
  rfl

/-- A real overload folds VIO33 back and raises its fault. -/
theorem execVio33Overload_of_real {s : State} (hon : domainOn s 3 = true) (hforced : forced s .vio33Overload 0 = false) (mA : Fin 65536) :
    execVio33Overload mA s = .next (raiseFault (startTime { s with pw := { s.pw with vio33Folded := true } } tmVio) .vio33Overload 0
      (Detector.severity .vio33Overload 0) mA.val) := by
  unfold execVio33Overload
  rw [if_neg (by simp [hon]), hforced]
  rfl

/-- Settles O48: each command's guard holds by the clause's premises, and its effect is then the lemma above for that command; SAT_STEP is read through
`satCounted`, the warning through `vmainWarned` and `failStep2`, VMAIN's return through `vmainShown`. -/
theorem governorCommandsComplete : Obligations.GovernorCommandsComplete := by
  unfold Obligations.GovernorCommandsComplete
  refine ⟨?domain, ?op, ?grant, ?ret, ?wake, ?refresh, ?ageing, ?audit, ?warning, ?holdUp, ?back, ?backWaits, ?quiet, ?twentieth, ?overload, ?recover⟩
  case domain => exact fun d s hdoze hvigil hoff hnone => execPegRequest_domain hdoze hvigil hoff hnone
  case op => exact fun o s hdomain hserdes hon hfront => ⟨execPegRequest_op hdomain hserdes hon hfront, waiting_govRequest_starting o s⟩
  case grant => exact fun r w s hwaiting hfits => execPegGrant_of_fits hwaiting hfits
  case ret => exact fun o s hwake hrefresh hgrant => execPegReturn_op hgrant hwake hrefresh
  case wake => exact fun d s hgrant => if_pos hgrant
  case refresh => exact fun s hgrant => if_pos hgrant
  case ageing => exact fun i r s hplace hclass hdue => execPegAgeing_of_due hplace hclass hdue
  case audit => exact fun s hon hgrid hoffset hkept => execGovAudit_of_unforced hon hgrid hoffset hkept
  case warning =>
    rintro mv ps s v u hmode hstep hbad hinv rfl rfl
    exact execPowerFailWarning_of_bad hmode hstep hbad hinv ps
  case holdUp => exact fun s hstep => execHoldUpEnd_of_failing hstep
  case back => exact fun mv s hin hstep hsill hinv => execVmainReturn_of_vigil hin hstep hsill hinv
  case backWaits => exact fun mv s hin hstep => execVmainReturn_of_failing hin hstep
  case quiet => exact fun s hgrid hshed hforced hwas => ⟨_, execSatStep_of_quiet hgrid hwas hshed hforced, satCounted_of_nothing hshed _ _⟩
  case twentieth =>
    exact fun s hgrid hfloor hsteps hwas => ⟨satCounted s 20 0, execSatStep_of_twentieth hgrid hwas hfloor hsteps, setFs_flt _ _, setFs_pt _ _, setFs_tasks _ _⟩
  case overload => exact fun mA s hon hforced => execVio33Overload_of_real hon hforced mA
  case recover => exact fun s hran => if_pos hran

end Sys2Proof.Machine
end
